-- ==== Sys2Proof/Word.lean ====
section
/-! DEFINITION. The word and byte types and their plainest arithmetic: bit fields of a 64-bit word
(00 R2: bit 0 is the least significant, a field from hi down to lo is written [hi:lo]), two's complement,
the building of a word from its fields, and the little-endian order of 00 R3. -/

namespace Sys2Proof

/-- A word is 64 bits throughout the module (00 R2). -/
abbrev Word := BitVec 64

/-- A byte. -/
abbrev Byte := BitVec 8

/-- Bits [hi:lo] of a word, as a number (00 R2). -/
def Word.bits (w : Word) (hi lo : Nat) : Nat := (w.toNat >>> lo) % 2 ^ (hi + 1 - lo)

/-- Bit i of a word (00 R2). -/
def Word.bit (w : Word) (i : Nat) : Bool := w.toNat.testBit i

/-- A Bool as the bit it is. -/
def bitOf (b : Bool) : Nat := if b then 1 else 0

/-- A field of a word being built: its lowest bit, its width and its value. -/
abbrev Fld := Nat × Nat × Nat

/-- The word whose fields are those listed; a value is cut to its field's width, every bit no field names is 0. -/
def mkWord (fs : List Fld) : Word :=
  BitVec.ofNat 64 (fs.foldl (fun acc f => acc ||| ((f.2.2 % 2 ^ f.2.1) <<< f.1)) 0)

/-- The w-bit two's complement code of an integer. -/
def twos (w : Nat) (v : Int) : Nat := (v % (2 : Int) ^ w).toNat

/-- The integer that a w-bit two's complement code stands for. -/
def signed (w n : Nat) : Int := if n < 2 ^ (w - 1) then (n : Int) else (n : Int) - (2 : Int) ^ w

/-- The eight bytes of a word, least significant first (00 R3). -/
def Word.bytes (w : Word) : List Byte := (List.range 8).map fun i => BitVec.ofNat 8 (w.toNat >>> (8 * i))

/-- The number whose little-endian bytes are those given (00 R3). -/
def leNat : List Byte → Nat
  | [] => 0
  | b :: bs => b.toNat + 256 * leNat bs

/-- The number whose big-endian bytes are those given. -/
def beNat (bs : List Byte) : Nat := bs.foldl (fun acc b => acc * 256 + b.toNat) 0

/-- The n little-endian bytes of a number (00 R3). -/
def leBytes : Nat → Nat → List Byte
  | 0, _ => []
  | n + 1, v => BitVec.ofNat 8 v :: leBytes n (v / 256)

/-- The n big-endian bytes of a number. -/
def beBytes (n v : Nat) : List Byte := (leBytes n v).reverse

/-- The bytes of a list of words, word 0 at the lowest address (00 R3). -/
def wordsBytes (ws : List Word) : List Byte := ws.flatMap Word.bytes

/-- Word i of a byte string, bytes past its end read as 0. -/
def byteWord (bs : List Byte) (i : Nat) : Word := BitVec.ofNat 64 (leNat ((bs.drop (8 * i)).take 8))

/-- The n words of a byte string. -/
def bytesWords (n : Nat) (bs : List Byte) : List Word := (List.range n).map (byteWord bs)

/-- Word i of a buffer; a word that the buffer does not hold reads as 0. -/
def wd (ws : List Word) (i : Nat) : Word := ws.getD i 0

/-- The 16-bit little-endian value i of a buffer of words (00 R3). -/
def half (ws : List Word) (i : Nat) : Nat := (wd ws (i / 4)).bits (16 * (i % 4) + 15) (16 * (i % 4))

/-- 16-bit values packed little-endian into words. -/
def packHalves (vs : List Nat) : List Word :=
  (List.range ((vs.length + 3) / 4)).map fun i =>
    mkWord [(0, 16, vs.getD (4 * i) 0), (16, 16, vs.getD (4 * i + 1) 0),
            (32, 16, vs.getD (4 * i + 2) 0), (48, 16, vs.getD (4 * i + 3) 0)]

/-- The quotient rounded up. -/
def cdiv (a b : Nat) : Nat := (a + b - 1) / b

/-- A count held at its highest value n. -/
def satAt (n v : Nat) : Nat := min n v

end Sys2Proof
end

