-- ==== Sys2Proof/Machine/Store.lean ====
section
/-! DEFINITION. Sparse maps: the plain-data form of every numbered collection of State, a list of (key, value) pairs with
strictly rising keys; an unlisted key stands for a default. `insert` lists any value; `put` lists none that is the default,
so that maps built by `put` and `erase` alone are equal exactly when they read alike. -/

namespace Sys2Proof.Machine

/-- A map from numbers to values, unlisted keys standing for a default that the reader names. -/
abbrev Sparse (α : Type) := List (Nat × α)

/-- The value at a key, or the default. -/
def Sparse.get {α : Type} (d : α) : Sparse α → Nat → α
  | [], _ => d
  | (k, v) :: m, i => if i = k then v else Sparse.get d m i

/-- The map without a key. -/
def Sparse.erase {α : Type} : Sparse α → Nat → Sparse α
  | [], _ => []
  | (k, v) :: m, i => if i = k then m else (k, v) :: Sparse.erase m i

/-- The map with a value at a key, whatever the value. -/
def Sparse.insert {α : Type} : Sparse α → Nat → α → Sparse α
  | [], i, x => [(i, x)]
  | (k, v) :: m, i, x =>
    if i < k then (i, x) :: (k, v) :: m
    else if i = k then (i, x) :: m
    else (k, v) :: Sparse.insert m i x

/-- The map with a value at a key, in canonical form: the default is not listed. -/
def Sparse.put {α : Type} [DecidableEq α] (d : α) (m : Sparse α) (i : Nat) (x : α) : Sparse α :=
  if x = d then m.erase i else m.insert i x

/-- The keys rise strictly and every key is at least n. -/
def Sparse.rising {α : Type} : Nat → Sparse α → Bool
  | _, [] => true
  | n, (k, _) :: m => n ≤ k && Sparse.rising (k + 1) m

/-- Canonical form: rising keys, no listed default. -/
def Sparse.wf {α : Type} [DecidableEq α] (d : α) (m : Sparse α) : Bool :=
  m.rising 0 && m.all fun p => p.2 ≠ d

end Sys2Proof.Machine
end

