-- ==== Sys2Proof/Machine/HostState.lean ====
section
/-! DEFINITION. The host-facing part of State: descriptors and the commands in flight, rings, host links, the DMA
arbiters, the partition record and the fuse ledger, event records, and what leaves the block at its interfaces.
A field's default is its reset value. -/

namespace Sys2Proof.Machine

/-- The 64-byte descriptor (04 R68), words 0 to 7. -/
structure Desc where
  w0 : Word := 0
  w1 : Word := 0
  w2 : Word := 0
  w3 : Word := 0
  w4 : Word := 0
  w5 : Word := 0
  w6 : Word := 0
  w7 : Word := 0
  deriving DecidableEq, Repr

/-- Where a fetched command stands: not yet started (04 R66), started, or started with its own operation running
until a later step ends it. -/
inductive Phase | fetched | started | running
  deriving DecidableEq, Repr

/-- One channel entry of the partition record (03 R47). The default is the factory record's entry (R45). -/
structure PartEntry where
  owner : Nat := 0
  observe : BitVec 4 := 0
  deriving DecidableEq, Repr

/-- The partition record (03 R47); SEQ is the number of changes made. -/
structure Partition where
  primary : Nat := 0
  seq : Nat := 0
  entries : Sparse PartEntry := []
  deriving DecidableEq, Repr

/-- A fetched descriptor that has not completed (04 R65, R66). `id` counts fetches, so it is the fetch order of R29. -/
structure Flight where
  id : Nat
  link : Nat
  ring : Nat
  /-- DESC_INDEX (R72). -/
  index : Nat
  desc : Desc
  phase : Phase := .fetched
  /-- The deadline of 02 R30 in always-on ns; none for a posted buffer (R67). -/
  deadline : Option Nat := none
  /-- Pause of R32 already taken, ns. -/
  paused : Nat := 0
  /-- Runs to its end without a completion: function-level reset (03 R38) or after 0x0A (02 R33). -/
  orphan : Bool := false
  /-- Its ring halted because the link-down limit was exceeded: completes with 0x0A once the link is up (R33). -/
  limited : Bool := false
  /-- Its link's role when it started, which governs it: the channels owned, and whether it was primary (03 R45). -/
  owned : BitVec 32 := 0
  primary : Bool := false
  /-- A PART_CHANGE that started while another had started and not completed: the record then in force (03 R48). -/
  rival : Option Partition := none
  deriving DecidableEq, Repr

/-- Ring kinds (04 R56), in the order of their codes. -/
inductive RingKind | command | completion | event | tideline | capture | cryptoJob | ohmSend | ohmReceive
  deriving DecidableEq, Repr

/-- One ring: its set-up registers (04, tables RING_BASE_r and RING_CFG_r) and the module's own bookkeeping. -/
structure Ring where
  /-- RING_ADDR, bits [63:12] of the address of entry 0. -/
  addr : BitVec 52 := 0
  en : Bool := false
  kind : RingKind := .command
  size : Nat := 0
  cq : Nat := 0
  vec : Nat := 0
  halted : Bool := false
  /-- Halted because the link-down limit was exceeded: a completion ring still takes the records of R33. -/
  limitHalt : Bool := false
  err : Nat := 0
  /-- RING_HEAD of a host-produced ring: the next descriptor to fetch. -/
  head : Nat := 0
  modCnt : Nat := 0
  modTime : Nat := 0
  /-- The link that enabled it (03 R44). -/
  owner : Nat := 0
  /-- DB_INDEX as last acted on, and at the module's last doorbell read (R76). -/
  db : Nat := 0
  dbLast : Nat := 0
  /-- Descriptors the present visit may still fetch (R65: up to 16 per ring per visit). -/
  visit : Nat := 0
  moved : BitVec 32 := 0
  lost : BitVec 32 := 0
  /-- Completion ring: entries reserved for fetched descriptors (R65). -/
  reserved : Nat := 0
  /-- Completion ring that a partition change has disabled while it still owes records (03 R50). -/
  draining : Bool := false
  /-- Module-produced ring: records the host has not consumed. -/
  unread : Nat := 0
  /-- Module-produced ring: records written since enable; gives the entry index and PHASE (R72). -/
  written : Nat := 0
  /-- Records since the last interrupt (R75). -/
  unsignalled : Nat := 0
  /-- When the moderation timer of the unsignalled records runs out, always-on ns. -/
  modDue : Option Nat := none
  seq : BitVec 32 := 0
  /-- EVENT_FILTER threshold (R76). -/
  threshold : Nat := 0
  /-- Records dropped since the ring became full, not yet reported (R74). -/
  dropping : Nat := 0
  /-- Tideline: the next record carries GAP (15 R369). -/
  gap : Bool := false
  /-- Capture and overhead message receive rings: fetch numbers of posted buffers, oldest first (R67). -/
  posted : List Nat := []
  /-- Overhead messages dropped on this ring for want of a buffer (event 0x0104). -/
  msgDropped : Nat := 0
  deriving DecidableEq, Repr

/-- A completion record (04 R72), field by field. -/
structure Completion where
  tag : BitVec 32
  opcode : Nat
  status : Nat
  target : Nat
  phase : Bool
  ring : Nat
  descIndex : Nat
  result0 : BitVec 32
  result1 : Word
  fetchHead : Nat
  result2 : BitVec 32
  deriving DecidableEq, Repr

/-- The four words of a completion record (R72). -/
def Completion.words (c : Completion) : List Word :=
  [mkWord [(0, 32, c.tag.toNat), (32, 16, c.opcode), (48, 8, c.status), (56, 6, c.target), (63, 1, bitOf c.phase)],
   mkWord [(0, 16, c.ring), (16, 16, c.descIndex), (32, 32, c.result0.toNat)], c.result1,
   mkWord [(0, 16, c.fetchHead), (32, 32, c.result2.toNat)]]

/-- An event record (04 R73), field by field. -/
structure EventRec where
  code : Nat
  severity : Nat
  source : Nat
  phase : Bool
  seq : BitVec 32
  mfc : BitVec 32
  detail0 : Word
  timeUs : BitVec 32
  detail1 : BitVec 32
  deriving DecidableEq, Repr

/-- The four words of an event record (R73). -/
def EventRec.words (e : EventRec) : List Word :=
  [mkWord [(0, 16, e.code), (16, 3, e.severity), (24, 6, e.source), (63, 1, bitOf e.phase)],
   mkWord [(0, 32, e.seq.toNat), (32, 32, e.mfc.toNat)], e.detail0,
   mkWord [(0, 32, e.timeUs.toNat), (32, 32, e.detail1.toNat)]]

/-- An event raised and gathered until its always-on microsecond has ended (21 R458). -/
structure Raised where
  source : Nat
  code : Nat
  severity : Nat
  /-- Always-on microsecond at which it was raised. -/
  us : Nat
  mfc : BitVec 32
  detail0 : Word
  detail1 : BitVec 32
  /-- The SOURCE whose fault caused it, when that is another one: its events of the microsecond are written first. -/
  cause : Option Nat := none
  /-- The one event ring that the event goes to, where a rule names it (18 R414). -/
  ring : Option Nat := none
  deriving DecidableEq, Repr

/-- Where an event was written: the newest one of a code and source on each ring, and those of conditions that still hold
(for ROOT_SEQ, 21 R461). -/
structure EventSeen where
  source : Nat
  code : Nat
  /-- DETAIL0 of a chain alarm, which tells one condition from another; else 0. -/
  detail : Word
  ring : Nat
  link : Nat
  us : Nat
  seq : BitVec 32
  deriving DecidableEq, Repr

/-- A completion that falls due while its link is down (21 R459): the completion ring and the record's content. -/
structure Deferred where
  cq : Nat
  record : Completion
  solicit : Bool
  deriving DecidableEq, Repr

/-- A doorbell group read that the module has issued or is to issue (04 R61, R62, R495). -/
structure GroupRead where
  group : Nat
  /-- False when only a sweep or a restart asked for it. -/
  nudged : Bool
  deriving DecidableEq, Repr

/-- One requester of a link's arbiter (03 R51 to R54). -/
structure Requester where
  base : Nat
  ceil : Nat
  /-- ARB_BURST in 64-byte units; 64 is 4 KiB. -/
  burst : Nat := 64
  age : Nat := 0
  eff : Nat := 0
  /-- Decisions lost in a row now, and ARB_WAIT_MAX. -/
  losing : Nat := 0
  waitMax : Nat := 0
  deriving DecidableEq, Repr

/-- The 36 requesters at reset (R51). -/
def Requester.resetAt (i : Nat) : Requester :=
  if i < 32 then { base := 4, ceil := 12 }
  else if i = 32 then { base := 10, ceil := 15 }
  else if i = 33 then { base := 12, ceil := 15 }
  else if i = 34 then { base := 6, ceil := 14 }
  else { base := 4, ceil := 12 }

/-- The arbiter of one link: its requesters, the holder of the grant, the previous winner, and ARB_ERR. -/
structure Arbiter where
  reqs : List Requester := (List.range 36).map Requester.resetAt
  /-- The requester that holds the grant, and its BURST in bytes when it was granted (R53). -/
  holder : Option (Nat × Nat) := none
  /-- Previous winner; before any decision the round starts at index 0 (DESIGN CHOICE, log 8). -/
  prev : Nat := 35
  err : BitVec 36 := 0
  deriving DecidableEq, Repr

/-- One MSI-X table entry; a vector is masked after reset by the PCI Express rules R40 names (PRESUMED, log 9). -/
structure MsixEntry where
  addr : Word := 0
  data : BitVec 32 := 0
  masked : Bool := true
  pending : Bool := false
  deriving DecidableEq, Repr

/-- One host link (03): LNK_ registers, nudge page, arbiter, MSI-X and what waits for the link. -/
structure Link where
  trained : Bool := false
  /-- LNK_RECOVERY: in recovery or down after having trained. -/
  recovery : Bool := false
  /-- The present period is a link-down, not PCI Express recovery: the link trains again before it is up. -/
  down : Bool := false
  /-- Start of the present period of recovery or link-down, always-on ns. -/
  recoveryFrom : Nat := 0
  /-- The period has already exceeded LNK_DOWN_LIMIT (R33). -/
  exceeded : Bool := false
  speed : Nat := 0
  width : Nat := 0
  halted : Bool := false
  recovCount : Nat := 0
  downLimit : Nat := 10
  speedMax : Nat := 3
  /-- Largest write payload and read request in bytes, within R36. The command table has no row for the configuration
  writes that set them: an arbiter decision brings the values in force. 128 and 512 bytes are the reset values of PCI Express
  (PRESUMED, log 9). -/
  maxPayload : Nat := 128
  maxRead : Nat := 512
  /-- PERST# asserted; the pin is pulled up (22 R464). -/
  perst : Bool := false
  dbAddr : BitVec 52 := 0
  nudgeG : Nat := 0
  sweepInt : Nat := 100
  nudgeCount : BitVec 32 := 0
  sweepFound : Nat := 0
  /-- The latest sweep has already been counted in NUDGE_SWEEP_FOUND. -/
  sweepHit : Bool := true
  /-- When the next sweep falls due, always-on ns; none before the first ring of the link is enabled (R62). -/
  sweepDue : Option Nat := none
  reads : List GroupRead := []
  arb : Arbiter := {}
  msix : Sparse MsixEntry := []
  deferred : List Deferred := []
  deriving DecidableEq, Repr

/-- A fuse ledger entry (20 R448). -/
structure LedgerEntry where
  typ : Nat
  seq : Nat
  link : Nat
  primary : Nat
  powerH : Nat
  w1 : Word
  w2 : Word
  w3 : Word
  deriving DecidableEq, Repr

/-- A ledger write in progress (03 R48, R49; 20 R449): the command and what the entry puts in force. -/
inductive LedgerWrite
  | partition (id : Nat) (new : Partition)
  | floor (id : Nat) (floor : Nat)
  deriving DecidableEq, Repr

/-- A shore frame (19 R421): header fields and body. -/
structure ShoreFrame where
  dst : Nat
  src : Nat
  typ : Nat
  hops : Nat
  seq : BitVec 16
  body : List Byte
  deriving DecidableEq, Repr

/-- One symbol of a stream: a unit-energy pilot, preamble or header symbol by its two sign bits (11 R259), a data symbol by
its two amplitudes before the scaling of 10 R228, or silence. -/
inductive Symbol
  | unit (a b : Bool)
  | data (i q : Int)
  | silent
  deriving DecidableEq, Repr

/-- The laser that a carrier stands on: tuned to the channel's centre frequency within ±1.5 GHz (12 R278), or at a leaf following
the received downstream carrier within ±100 MHz (13 R304). -/
inductive Laser | tuned | received
  deriving DecidableEq, Repr

/-- How the symbols of a subcarrier are put on the line: its centre and spacing in kHz (10 R219), the roll-off of the
root-raised-cosine filter in hundredths (11 R260), and its launch power in 0.01 dBm (11 R261). -/
structure Carrier where
  centre : Nat
  spacing : Nat
  rollOff : Nat
  power : Int
  laser : Laser := .tuned
  deriving DecidableEq, Repr

/-- The symbols of one stream with its loading and its carrier. Every data amplitude is divided by the square root of
`energy` / 32, which is E_n (10 R228). -/
structure StreamOut where
  stream : Nat
  loading : Nat
  energy : Nat
  carrier : Carrier
  symbols : List Symbol
  deriving DecidableEq, Repr

/-- The clock of a channel's transmit direction: the system clock, which runs at the oscillator frequency × (1 + LOOP_CTRL), in
10⁻¹⁵; the recovered receive clock; the mean that a loop-timed channel holds of it, in 0.001 ppm; or the oscillator (14 R329, R346, R347,
R350). -/
inductive TxClock
  | system (loopCtrl : Int)
  | received
  | held (offset : Rat)
  | oscillator
  deriving DecidableEq, Repr

/-- What leaves the block at its interfaces, in the order it leaves. -/
inductive Output
  /-- The one write of a completion, event or tideline record: its host address and its 32 bytes (04 R56, R72, R73; 15
  R369). -/
  | record (link : Nat) (addr : Word) (bytes : List Byte)
  /-- Bytes written into a command's or posted buffer, at an offset from its BUF_ADDR. -/
  | buffer (link : Nat) (addr : Word) (offset : Nat) (bytes : List Byte)
  /-- An MSI-X message for a vector (04 R75). -/
  | interrupt (link vector : Nat)
  /-- The one read request for the 64 words of a doorbell group (04 R61). -/
  | doorbellRead (link : Nat) (addr : Word)
  /-- A register read's data. -/
  | readData (link : Nat) (value : Word)
  /-- A memory request outside both BARs (03 R37, R40). -/
  | unsupportedRequest (link : Nat)
  /-- A transmit line frame: the clock it is sent with, its words as scrambled, the channel's centre frequency and its width on the grid in kHz
  (10 R220), and the symbols of its frame period on each stream (08 to 11). -/
  | lineFrame (chan : Nat) (clock : TxClock) (words : List Word) (centre width : Nat) (streams : List StreamOut)
  /-- An egress host frame and the clock it is sent with (05 R84 to R87). -/
  | hostFrame (chan : Nat) (clock : TxClock) (words : List Word)
  /-- One host frame on an egress lane: the pre-cursor and the post-cursor of its preset in hundredths of the main cursor,
  and its 66-bit blocks, header and payload as sent, marker first (05 R80 to R83, R94). -/
  | laneFrame (lane : Nat) (pre post : Int) (blocks : List (BitVec 2 × Word))
  /-- An upstream burst of a leaf: the EQD in use, its first cell, header word, payload words, and the symbols of both polarisations
  (13 R318). -/
  | burst (chan eqd subcarrier cell : Nat) (header : Word) (payload : List Word) (streams : List StreamOut)
  /-- A shore frame queued on a port has left it: its header and body (19 R420, R421). -/
  | shore (downshore : Bool) (bytes : List Byte)
  deriving DecidableEq, Repr

end Sys2Proof.Machine
end

