-- ==== Sys2Proof/Syntax.lean ====
section
/-! DEFINITION. The commands: one constructor for each row of the command table, in the table's order, and the structures
of what some of them bring from outside. Operand names: `id` the fetch number of the command (04 R65) on which a row acts;
`ws` and `bs` the words or bytes read from its buffer; `n` a host link, a lane or a converter; `r` a ring; `c` a channel;
`i` a tributary context, a requester, an input or a subcarrier; `j` a leaf; `v` a value written. What the module measures
(codes, figures, residuals) is an operand too. -/

namespace Sys2Proof

/-- What a calibration window yields: the estimates of the whole and of each half by position in the order of CAL_VALUES; of
a response run the response correction by frequency, 0.1 dB; the spur level of each ADC and the eye figure of each DAC,
0.1 dB; whether the input power fell below the threshold in it, and the clipped share of each ADC in ppm (12 R279, R281, R282,
R292). -/
structure CalEstimate where
  est : List Int
  half1 : List Int
  half2 : List Int
  resp : List Int
  ilRes : List Nat
  eye : List Nat
  low : Bool
  clip : List Nat
  deriving DecidableEq, Repr

/-- The samples of a capture, in time order before and from its trigger on: of each instant one sample of each converter, or of
each data symbol X in-phase, X quadrature, Y in-phase and Y quadrature; the first sample's offset from the start of its frame
period, and with TRIG 2 its multiframe count and frame when valid (12 R297, R298). -/
structure CapSample where
  num : Option (BitVec 32 × BitVec 8)
  ofs : Nat
  pre : List (List Int)
  post : List (List Int)
  deriving DecidableEq, Repr

/-- What the coarse converters of a channel read last: the receive tap and the output tap in 0.01 dBm, laser drive current and TEC
current in 0.1 mA (15 R370). -/
structure FastIn where
  rxIn : Int
  txOut : Int
  laser : Nat
  tec : Int
  deriving DecidableEq, Repr

/-- A MON_QUERY: its command, with the coarse converters' readings. -/
structure MonQueryIn where
  id : Nat
  fast : FastIn
  deriving DecidableEq, Repr

/-- How a link is lost: it goes down straight away, or it enters PCI Express recovery (02 R32). -/
structure LinkLoss where
  link : Fin 4
  down : Bool
  deriving DecidableEq, Repr

/-- A link that is back: the rate code and the width to which it has trained where it was down (03 R36). -/
structure LinkReturn where
  link : Fin 4
  speed : Fin 4
  width : Fin 17
  deriving DecidableEq, Repr

/-- What an arbiter finds: the transfers with which the last grant ended, each a read request or a write with its bytes, and the
requesters that request now (03 R52); and the limits that the host has configured for them, the largest write payload as
128 × 2^mps bytes and the largest read request as 128 × 2^mrrs (03 R36). -/
structure GrantIn where
  asks : BitVec 36
  past : List (Bool × Nat)
  mps : Fin 3 := 0
  mrrs : Fin 6 := 2
  deriving DecidableEq, Repr

/-- A read of ARB_STAT_n: the requester, and the bytes addressed, `size` + 1 of them from byte `ofs` on (03 R40). -/
structure ArbRead where
  req : Fin 36
  ofs : Fin 8 := 0
  size : Fin 8 := 7
  deriving DecidableEq, Repr

/-- What a scrubber's visit brings: a stored bit of its word that turns out to be in error, and the correctable errors that other
readers of the SRAM have found since the last visit, by address and stored bit (17 R387, R391, R392). -/
structure VisitIn where
  bit : Option (Fin 72)
  demand : List (BitVec 32 × Fin 72) := []
  deriving DecidableEq, Repr

/-- The work of a bring-up step is done on a channel, with the wavelength locker's error in units of 10 MHz (11 R255; 12 R278). -/
structure StepIn where
  chan : Fin 32
  locker : Int
  deriving DecidableEq, Repr

/-- A lane that has reached its state: the fault that a lane just out of Deep has, 0 none; and the last 58 payload bits received while
it trained, which synchronise its descrambler, the newest as bit 0 (05 R81, R92, R97). -/
structure LaneWake where
  fault : Fin 6
  seen : BitVec 58
  deriving DecidableEq, Repr

/-- What one ingress lane brings with a host frame (05 R80 to R90). -/
structure LaneIn where
  /-- The 66-bit blocks as received, header and payload (05 R80): those of one host frame of an aligned lane, from its
  expected marker position on; of another lane those from one host frame after the marker found last, or from the first
  marker found. -/
  blocks : List (BitVec 2 × Word)
  /-- Arrival of the marker after the earliest lane's, 10 ps units. -/
  skew : Nat
  deriving DecidableEq, Repr

/-- What the monitor gives a trend sample, each when there was a conversion of each of its inputs in the minute: the mean laser
current in µA with the output loop at its set point; the sum of the mean photodiode currents in nA and the power read on input 0 in
nW; the mean temperatures of inputs 22, 23 and 29 in 0.001 °C and the supply power of the channel in mW (16 R375). -/
structure TrendIn where
  laser : Option Nat
  photo : Option (Nat × Nat)
  heat : Option (Int × Int × Int × Nat)
  deriving DecidableEq, Repr

/-- What the demapper and the soft decoder give of one frame period: the hard decisions of the data bits of each Active stream
of the receive set, in the order of the streams; under Offshore each codeword's 8,320 hard decisions after its iterations, and
their number (09 R203, R204, R211); the profile under which the transmitter coded the frame; the parity of the pilots when it is
read; the deviations of buffer depths compared after a re-acquisition (context, receive, ns; 02 R24); and the arrival in ns, of a group
member against the earliest arrival of the last alignment, of a leaf's frame against its expected instant (06 R135; 13 R308). -/
structure FrameIn where
  streams : List (List Bool)
  codewords : List (List Bool × Nat)
  offshore : Bool
  odd : Option Bool
  devs : List (Nat × Bool × Int)
  arrival : Int
  deriving DecidableEq, Repr

/-- Figures measured over a received multiframe: SNR codes and EVM by stream, each when something was measured; of each
subcarrier DGD, PDL, peak SOP rate and pilot EVM; dispersion in ps/nm, carrier offset in MHz and clock offset in 0.001 ppm;
and cycle slips corrected; rms in 0.25 LSB and clipped samples in ppm of each ADC (10 R233; 11 R263, R266, R274; 12 R277). -/
structure QualityIn where
  snr : List (Option Nat)
  evm : List (Option Nat)
  subs : List (Nat × Nat × Nat × Nat)
  cd : Int
  freq : Int
  clk : Int
  slips : Nat
  adc : List (Nat × Nat)
  deriving DecidableEq, Repr

/-- A loss of activity: the slot, others on external inputs that lose theirs at the same instant, and LOOP_CTRL at that instant
(14 R335, R336, R341). -/
structure LossIn where
  slot : Fin 8
  also : List (Fin 8) := []
  loop : Int := 0
  deriving DecidableEq, Repr

/-- A timing command, with what stands at the timing core at that instant: LOOP_CTRL while it is steered, and the slots whose
external input shows edges at its declared frequency, as the command leaves the slots (14 R331, R341, R352). -/
structure TimingIn where
  id : Nat
  loop : Int := 0
  edges : List (Fin 8) := []
  deriving DecidableEq, Repr

/-- A report instant, always-on ns, with the mean LOOP_CTRL from the last second's end until then (14 R329; 15 R366). -/
structure InstantIn where
  ns : Nat
  mean : Int := 0
  deriving DecidableEq, Repr

/-- What a served urgent request is: of a MON_READ, or of the module's own, on a channel's converter and an input, made at an
always-on instant in ns (15 R359). -/
structure UrgentIn where
  own : Option (Fin 32 × Fin 40) := none
  ns : Nat := 0
  deriving DecidableEq, Repr

/-- A transmit multiframe boundary: the merits that receivers measured, and when it comes, always-on ns (05 R91; 15 R366). -/
structure BoundaryIn where
  merits : List (BitVec 8)
  ns : Nat := 0
  deriving DecidableEq, Repr

/-- Two consecutive readings of the output tap, and one of the laser drive current, in codes of the fast path (12 R293; 15 R370). -/
structure TapIn where
  chan : Fin 32
  first : BitVec 8
  second : BitVec 8
  deriving DecidableEq, Repr
structure DriveIn where
  chan : Fin 32
  code : BitVec 8
  deriving DecidableEq, Repr

/-- The payload of a burst: the hard decisions of each coded row of 940 bits, and the SNR code measured (13 R319). -/
structure BurstIn where
  rows : List (List Bool)
  snr : Nat
  deriving DecidableEq, Repr

/-- Readings of common monitor inputs 4 to 7, at four points of the base plate, in 0.1 °C (15 R355). -/
structure Plate where
  t4 : Int
  t5 : Int
  t6 : Int
  t7 : Int
  deriving DecidableEq, Repr

/-- The commands (the rows of the command table). -/
inductive Instr
  /-- NOP (R76): Command 0x0100 completes with 0x00 and has no effect. -/
  | nop (id : Nat)
  /-- RING_QUERY (R76): Command 0x0101 writes the 32-byte state of a named ring. -/
  | ringQuery (id : Nat)
  /-- EVENT_FILTER (R76): Command 0x0110 sets the severity threshold of one of the issuing link's event rings. -/
  | eventFilter (id : Nat)
  /-- ALARM_SUMMARY (R461): Command 0x0120 writes 33 entries of active alarm conditions with root level, time and
  SEQ. -/
  | alarmSummary (id : Nat)
  /-- BUF_POST (R76): Command 0x0130 posts a buffer on a capture or overhead message receive ring. -/
  | bufPost (id : Nat)
  /-- OHM_SEND (R189): Command 0x0131 places a host message into the overhead management message channel. -/
  | ohmSend (id : Nat) (bs : List Byte)
  /-- PART_QUERY (R47): Command 0x0200 writes the partition record in force. -/
  | partQuery (id : Nat)
  /-- PART_HISTORY (R496): Command 0x0201 writes the TYPE 2 ledger entries of past partition changes. -/
  | partHistory (id : Nat)
  /-- PART_CHANGE (R48): Command 0x0210 checks a proposed partition record, writes a ledger entry and puts it in
  force. -/
  | partChange (id : Nat) (ws : List Word)
  /-- TRIB_PROVISION (R104): Command 0x1000 provisions a Free tributary context into Ready and returns its latency
  report. -/
  | tribProvision (id : Nat) (ws : List Word)
  /-- TRIB_MODIFY (R105): Command 0x1001 changes rates, tolerance, shed rank and bounds of a tributary. -/
  | tribModify (id : Nat) (ws : List Word)
  /-- TRIB_ENABLE (R106): Command 0x1002 with the enable flag makes a Disabled tributary carry again. -/
  | tribEnable (id : Nat)
  /-- TRIB_DISABLE (R106): Command 0x1002 with the flag clear drains a tributary and makes it Disabled. -/
  | tribDisable (id : Nat)
  /-- TRIB_DELETE (R107): Command 0x1003 frees a tributary context that no slot entry names. -/
  | tribDelete (id : Nat)
  /-- TRIB_QUERY (R102): Command 0x1004 writes a tributary context record with state fields. -/
  | tribQuery (id : Nat)
  /-- TRIB_COUNTERS (R140): Command 0x1005 writes a tributary's counters. -/
  | tribCounters (id : Nat)
  /-- TRIB_SHED_LIST (R139): Command 0x1006 writes the channel's shed order. -/
  | tribShedList (id : Nat)
  /-- TRIB_LATENCY_QUERY (R21): Command 0x1010 writes a tributary's latency report. -/
  | tribLatencyQuery (id : Nat)
  /-- TRIB_PROMISE_RELEASE (R28): Command 0x1011 with REINSTATE 0 sets RELEASED on the named tributaries. -/
  | tribPromiseRelease (id : Nat) (ws : List Word)
  /-- TRIB_PROMISE_REINSTATE (R28): Command 0x1011 with REINSTATE 1 puts the named tributaries' promise back in
  force. -/
  | tribPromiseReinstate (id : Nat) (ws : List Word)
  /-- SLOT_WRITE (R125): Command 0x1100 writes slot table entries of the standby bank, or either bank of a Dark
  channel. -/
  | slotWrite (id : Nat) (ws : List Word)
  /-- SLOT_READ (R140): Command 0x1101 reads slot table entries. -/
  | slotRead (id : Nat)
  /-- SLOT_COPY (R140): Command 0x1102 copies the active bank into the standby bank. -/
  | slotCopy (id : Nat)
  /-- BANK_SWITCH (R127): Command 0x1110 checks the standby bank and proposes a bank switch to the far end. -/
  | bankSwitch (id : Nat)
  /-- BANK_ARM (R126): Command 0x1111 with arm set checks the standby bank and arms the channel as responder. -/
  | bankArm (id : Nat)
  /-- BANK_DISARM (R140): Command 0x1111 with arm clear disarms the channel unless it holds an agreement. -/
  | bankDisarm (id : Nat)
  /-- BANK_STATUS (R140): Command 0x1112 writes the bank switch state. -/
  | bankStatus (id : Nat)
  /-- GROUP_CREATE (R133): Command 0x1120 forms a concatenated group of 2 to 8 channels. -/
  | groupCreate (id : Nat)
  /-- GROUP_DELETE (R138): Command 0x1121 dissolves a group whose contexts no entry names. -/
  | groupDelete (id : Nat)
  /-- GROUP_QUERY (R140): Command 0x1122 writes a group's members, budget and skews. -/
  | groupQuery (id : Nat)
  /-- GROUP_REALIGN (R136): Command 0x1123 aligns a group afresh. -/
  | groupRealign (id : Nat)
  /-- CIPHER_SETUP (R146): Command 0x1200 sets END, AUTO_ROLL and usage limits of a line cipher context. -/
  | cipherSetup (id : Nat) (ws : List Word)
  /-- CIPHER_QUERY (R171): Command 0x1201 writes a line cipher context record. -/
  | cipherQuery (id : Nat)
  /-- KEY_LOAD (R152): Command 0x1202 unwraps a line key blob into an empty key slot. -/
  | keyLoad (id : Nat) (bs : List Byte)
  /-- KEY_ROLL (R155): Command 0x1203 makes the next key current at the next transmit multiframe boundary. -/
  | keyRoll (id : Nat)
  /-- KEY_ERASE (R171): Command 0x1204 erases the next key or both keys of a context. -/
  | keyErase (id : Nat)
  /-- CIPHER_COUNTERS (R171): Command 0x1205 writes a cipher context's counters. -/
  | cipherCounters (id : Nat)
  /-- JOB_KEY_LOAD (R165): Command 0x1210 unwraps a job key into a job key slot with a new fixed field. -/
  | jobKeyLoad (id : Nat) (bs : List Byte)
  /-- JOB_KEY_ERASE (R165): Command 0x1211 erases a job key slot. -/
  | jobKeyErase (id : Nat)
  /-- JOB_CIPHER (R167): Command 0x1230 runs a CBC, CFB128, CTR or GCM job on host buffers. -/
  | jobCipher (id : Nat) (bs : List Byte)
  /-- LOAD_CHANGE (R249): Command 0x1300 starts a loading exchange as initiator. -/
  | loadChange (id : Nat) (ws : List Word)
  /-- LOAD_QUERY (R251): Command 0x1301 writes the loading exchange state and sets in force and pending. -/
  | loadQuery (id : Nat)
  /-- LOAD_QUALITY (R251): Command 0x1302 writes link quality, SNR, margin and EVM figures. -/
  | loadQuality (id : Nat)
  /-- LOAD_PLAN (R236): Command 0x1303 computes a receive loading set without applying it. -/
  | loadPlan (id : Nat)
  /-- LOAD_CONFIG (R251): Command 0x1304 sets FAR_ACCEPT and LQ_ALARM. -/
  | loadConfig (id : Nat)
  /-- CHAN_BRINGUP (R254): Command 0x1400 checks parameters and starts the transmit steps of bring-up. -/
  | chanBringup (id : Nat) (ws : List Word) (plate : Plate)
  /-- CHAN_STATUS (R274): Command 0x1401 writes the channel status. -/
  | chanStatus (id : Nat)
  /-- DSP_STATUS (R274): Command 0x1402 writes DSP figures and counters. -/
  | dspStatus (id : Nat)
  /-- CD_WINDOW (R273): Command 0x1403 changes the dispersion window ceiling. -/
  | cdWindow (id : Nat)
  /-- TX_SHAPE (R262): Command 0x1404 sets launch power and subcarrier offsets from the next multiframe. -/
  | txShape (id : Nat)
  /-- ACQ_CONFIG (R274): Command 0x1405 sets BLIND_FIRST and ALT_HINT for later searches. -/
  | acqConfig (id : Nat)
  /-- CHAN_RESET (R419): Command 0x1410 takes a channel to Dark without updating the save area. -/
  | chanReset (id : Nat)
  /-- KAPRA_STATE (R97): Command 0x1440 sets each lane position to Active, Quiet or Deep. -/
  | kapraState (id : Nat)
  /-- KAPRA_TX_EQ (R94): Command 0x1441 sets egress presets from the next marker. -/
  | kapraTxEq (id : Nat)
  /-- KAPRA_STATUS (R101): Command 0x1442 writes lane status and HF_PHASE. -/
  | kapraStatus (id : Nat)
  /-- KAPRA_COUNTERS (R101): Command 0x1443 writes lane counters. -/
  | kapraCounters (id : Nat)
  /-- FRAME_STATUS (R197): Command 0x1480 writes frame alignment and numbering status. -/
  | frameStatus (id : Nat)
  /-- FRAME_COUNTERS (R197): Command 0x1481 writes line frame counters. -/
  | frameCounters (id : Nat)
  /-- OH_SNAPSHOT (R197): Command 0x1482 writes the overhead block of the last good received or last transmitted
  frame. -/
  | ohSnapshot (id : Nat)
  /-- FEC_PROFILE (R215): Command 0x14A0 negotiates a profile change, optionally with a new loading. -/
  | fecProfile (id : Nat) (ws : List Word)
  /-- FEC_STATUS (R217): Command 0x14A1 writes FEC status. -/
  | fecStatus (id : Nat)
  /-- FEC_COUNTERS (R217): Command 0x14A2 writes FEC counters. -/
  | fecCounters (id : Nat)
  /-- FEC_ALARM_SET (R217): Command 0x14A3 sets the pre-FEC BER alarm level. -/
  | fecAlarmSet (id : Nat)
  /-- CAL_CONFIG (R299): Command 0x14C0 sets calibration tracking and intervals. -/
  | calConfig (id : Nat)
  /-- CAL_RUN (R299): Command 0x14C1 requests receive and/or transmit calibration runs. -/
  | calRun (id : Nat)
  /-- CAL_STATUS (R299): Command 0x14C2 writes calibration status and residuals. -/
  | calStatus (id : Nat)
  /-- CAL_VALUES (R299): Command 0x14C3 writes calibration values in force or last estimates. -/
  | calValues (id : Nat)
  /-- OPTICS_STATUS (R299): Command 0x14C4 writes laser, tap and shutdown status. -/
  | opticsStatus (id : Nat) (locker : Int) (txOut : Int) (rxIn : Int) (current : Nat)
  /-- CAPTURE_ARM (R296): Command 0x14C5 arms or takes a raw capture. -/
  | captureArm (id : Nat) (x : CapSample)
  /-- CAPTURE_DISARM (R296): Command 0x14C5 with DISARM 1 ends an armed capture and discards its data. -/
  | captureDisarm (id : Nat)
  /-- LASER_BLANK (R293): Command 0x14C6 latches shutdown cause 5 and blanks the output. -/
  | laserBlank (id : Nat)
  /-- LASER_RESTORE (R295): Command 0x14C7 clears latched causes 3, 5 and 6. -/
  | laserRestore (id : Nat) (tap : BitVec 8 × BitVec 8) (locker : Int)
  /-- P2MP_MODE (R301): Command 0x1500 sets a Dark channel to point-to-point, hub or leaf mode. -/
  | p2mpMode (id : Nat)
  /-- LEAF_SET (R311): Command 0x1501 sets a leaf context at a hub. -/
  | leafSet (id : Nat) (ws : List Word)
  /-- LEAF_QUERY (R327): Command 0x1502 writes a leaf context. -/
  | leafQuery (id : Nat)
  /-- P2MP_CONFIG (R327): Command 0x1503 sets shared mask, discovery interval and burst detection thresholds. -/
  | p2mpConfig (id : Nat)
  /-- LEAF_LOAD (R317): Command 0x1504 runs a loading exchange with one dedicated leaf. -/
  | leafLoad (id : Nat) (ws : List Word)
  /-- BURST_COUNTERS (R327): Command 0x1505 writes burst receiver counters. -/
  | burstCounters (id : Nat)
  /-- LEAF_STATUS (R327): Command 0x1506 writes a leaf's join status. -/
  | leafStatus (id : Nat)
  /-- LEAF_JOIN (R324): Command 0x1507 enables or disables joining with a serial. -/
  | leafJoin (id : Nat)
  /-- TIMING_CAND_SET (R332): Command 0x1600 sets one timing candidate slot. -/
  | timingCandSet (x : TimingIn)
  /-- TIMING_CONFIG (R352): Command 0x1601 sets loop bandwidth, revert and holdover windows. -/
  | timingConfig (id : Nat)
  /-- TIMING_STATUS (R352): Command 0x1602 writes timing core status. -/
  | timingStatus (x : TimingIn)
  /-- TIMING_HISTORY (R352): Command 0x1603 writes the one-second loop history. -/
  | timingHistory (id : Nat)
  /-- CHAN_TIMING (R346): Command 0x1610 changes a channel's transmit timing mode. -/
  | chanTiming (id : Nat)
  /-- MON_SCAN_SET (R357): Command 0x1700 replaces a converter's scan list. -/
  | monScanSet (id : Nat) (ws : List Word)
  /-- MON_FILTER_SET (R367): Command 0x1701 sets a stopped input filter and its coefficients. -/
  | monFilterSet (id : Nat) (ws : List Word)
  /-- MON_FILTER_RUN (R367): Command 0x1702 starts or stops filters and freezes or frees DC blocks. -/
  | monFilterRun (id : Nat)
  /-- MON_STREAM (R373): Command 0x1703 binds or unbinds inputs to a tideline ring. -/
  | monStream (id : Nat)
  /-- MON_READ (R359): Command 0x1704 makes an urgent conversion request and returns the mean. -/
  | monRead (id : Nat)
  /-- MON_TEST (R363): Command 0x1705 connects the test DAC to an input and compares the result. -/
  | monTest (id : Nat)
  /-- MON_REF (R361): Command 0x1706 chooses a converter's reference. -/
  | monRef (id : Nat) (extOk : Bool)
  /-- MON_SELFCAL (R362): Command 0x1707 starts an 18 ms self-calibration of the reference's factor pair. -/
  | monSelfcal (id : Nat)
  /-- MON_QUERY (R373): Command 0x1708 writes converter status. -/
  | monQuery (x : MonQueryIn)
  /-- MON_HISTORY (R373): Command 0x1709 copies latest circular-buffer records to host memory. -/
  | monHistory (id : Nat)
  /-- FAST_CFG (R371): Command 0x170A raises LOS_CODE. -/
  | fastCfg (id : Nat)
  /-- MEM_FILL (R401): Command 0x1800 writes a pattern over a range of the link's host window. -/
  | memFill (id : Nat)
  /-- MEM_SCAN (R400): Command 0x1801 reads a range with demand correction and returns a CRC. -/
  | memScan (id : Nat)
  /-- MEM_COPY_IN (R401): Command 0x1802 copies a host buffer into the host window. -/
  | memCopyIn (id : Nat) (bs : List Byte)
  /-- MEM_COPY_OUT (R401): Command 0x1803 copies host window contents to a host buffer. -/
  | memCopyOut (id : Nat)
  /-- MEM_SCRUB_CONFIG (R390): Command 0x1810 sets an SRAM's scrub sweep time. -/
  | memScrubConfig (id : Nat)
  /-- MEM_STATUS (R401): Command 0x1811 writes memory status counters. -/
  | memStatus (id : Nat)
  /-- MEM_REEF_READ (R401): Command 0x1812 writes reef log entries. -/
  | memReefRead (id : Nat)
  /-- MEM_RETIRE (R397): Command 0x1820 starts mapping a page or bank onto spare storage. -/
  | memRetire (id : Nat)
  /-- MEM_RETIRE_LIST (R401): Command 0x1821 writes the retirement list. -/
  | memRetireList (id : Nat)
  /-- PWR_LEVEL (R405): Command 0x1900 changes a channel between Spring, Mean and Neap, or sets the resume level. -/
  | pwrLevel (id : Nat)
  /-- PWR_SLEEP_SLACK (R408): Command 0x1901 with ACTION 0 enters Slack with chosen wake sources. -/
  | pwrSleepSlack (id : Nat)
  /-- PWR_SLEEP_DARK (R408): Command 0x1901 with ACTION 1 enters Dark. -/
  | pwrSleepDark (id : Nat)
  /-- PWR_SLEEP_EXIT (R411): Command 0x1901 with ACTION 2 leaves Slack. -/
  | pwrSleepExit (id : Nat)
  /-- PWR_STATUS (R415): Command 0x1902 writes a channel's power status. -/
  | pwrStatus (id : Nat) (vcore : Nat) (power : Nat)
  /-- PWR_MODULE (R415): Command 0x1910 writes module power and level counts. -/
  | pwrModule (id : Nat) (input : Nat) (common : Nat)
  /-- ID_CERT_READ (R437): Command 0x1A00 writes the identity certificate. -/
  | idCertRead (id : Nat)
  /-- ATTEST_REPORT (R450): Command 0x1A01 writes a signed attestation report over a host nonce. -/
  | attestReport (id : Nat) (nonce : List Word)
  /-- LEDGER_READ (R448): Command 0x1A02 writes every fuse ledger entry. -/
  | ledgerRead (id : Nat)
  /-- FW_STATUS (R453): Command 0x1A03 writes firmware slot status. -/
  | fwStatus (id : Nat)
  /-- RNG_STATUS (R453): Command 0x1A04 writes entropy source status. -/
  | rngStatus (id : Nat)
  /-- FW_IMAGE_WRITE (R444): Command 0x1A10 writes and checks an image in the standby slot. -/
  | fwImageWrite (id : Nat) (bs : List Byte)
  /-- FW_ACTIVATE (R445): Command 0x1A11 makes the standby slot preferred on trial and restarts the controller. -/
  | fwActivate (id : Nat)
  /-- FW_CONFIRM (R446): Command 0x1A12 clears TRIAL. -/
  | fwConfirm (id : Nat)
  /-- FW_FLOOR_RAISE (R449): Command 0x1A13 raises the rollback floor with a ledger entry. -/
  | fwFloorRaise (id : Nat)
  /-- KEK_ESTABLISH (R438): Command 0x1A14 derives a new key-encryption key by P-256 key agreement. -/
  | kekEstablish (id : Nat) (bs : List Byte)
  /-- AGE_CONFIG (R378): Command 0x1B00 sets target, autonomy, save and lead. -/
  | ageConfig (id : Nat)
  /-- AGE_STATUS (R384): Command 0x1B01 writes ageing status. -/
  | ageStatus (id : Nat)
  /-- AGE_LEDGER_READ (R384): Command 0x1B02 writes hourly or daily ledger records. -/
  | ageLedgerRead (id : Nat)
  /-- AGE_PROPOSAL (R380): Command 0x1B03 writes the stored re-plan. -/
  | ageProposal (id : Nat)
  /-- AGE_SHORTFALL (R382): Command 0x1B04 writes the shortfall list. -/
  | ageShortfall (id : Nat)
  /-- SHORE_STATUS (R434): Command 0x1C00 writes shore chain status. -/
  | shoreStatus (id : Nat)
  /-- SHORE_INVENTORY (R429): Command 0x1C01 writes the module's inventory record. -/
  | shoreInventory (id : Nat)
  /-- SHORE_INV_QUERY (R434): Command 0x1C02 sends INV_REQ and writes the returned inventory record. -/
  | shoreInvQuery (id : Nat)
  /-- SHORE_SEND (R434): Command 0x1C03 sends a MSG frame on the shore chain. -/
  | shoreSend (id : Nat) (bs : List Byte)
  /-- SHORE_LASER_OFF (R434): Command 0x1C04 sends or applies a LASER_OFF assert or release. -/
  | shoreLaserOff (id : Nat)
  /-- UNDEFINED_OPCODE (R71): A descriptor with an opcode no chapter defines completes with 0x01. -/
  | undefinedOpcode (id : Nat)
  /-- RING_ENABLE (R58): A RING_CFG_r write setting RING_EN to 1 checks and enables a ring. -/
  | ringEnable (n : Fin 4) (r : Fin 65536) (v : Word)
  /-- RING_DISABLE (R77): A RING_CFG_r write of RING_EN 0 stops fetching or is refused for a fed completion ring. -/
  | ringDisable (n : Fin 4) (r : Fin 65536) (v : Word)
  /-- NUDGE_GROUP (R61): A write to NUDGE_GROUP wakes the controller to read a doorbell group. -/
  | nudgeGroup (n : Fin 4) (v : Word)
  /-- ARB_PRIO_WRITE (R54): A write to ARB_PRIO_n takes effect at the next decision or is discarded with ARB_ERR
  set. -/
  | arbPrioWrite (n : Fin 4) (i : Fin 36) (v : Word)
  /-- ARB_STAT_READ (R54): A read of ARB_STAT_n returns ARB_WAIT_MAX and clears it. -/
  | arbStatRead (n : Fin 4) (x : ArbRead)
  /-- RCV_GO (R443): A write of 1 to RCV_GO starts recovery loading of an image into slot A. -/
  | rcvGo (v : Word)
  /-- REGISTER_WRITE (R40): A write to any BAR register without its own row, including narrow and reserved-offset
  writes. -/
  | registerWrite (n : Fin 4) (bar : Fin 3) (off : Nat) (width : Nat) (v : Word)
  /-- UNSUPPORTED_REQUEST (R37): A memory request outside both BARs completes with Unsupported Request. -/
  | unsupportedRequest (n : Fin 4) (addr : Word)
  /-- DOORBELL_READ_DONE (R61): The data of a doorbell group read arrives and the module acts on every changed ring
  of the group. -/
  | doorbellReadDone (n : Fin 4) (g : Fin 1024) (ws : List Word)
  /-- DOORBELL_SWEEP (R62): The sweep interval expires and every group holding an enabled ring is read. -/
  | doorbellSweep (n : Fin 4)
  /-- DESCRIPTOR_FETCH (R65): A descriptor is fetched once a completion entry can be reserved, and its deadline
  starts. -/
  | descriptorFetch (r : Fin 65536) (d : Machine.Desc)
  /-- COMMAND_START (R66): A fetched command starts once fetch order and FENCE allow, with role and promise checks. -/
  | commandStart (id : Nat)
  /-- COMMAND_DEADLINE_EXPIRY (R30): A command's deadline expires and it completes with 0x05 and its class's effect.
  -/
  | commandDeadlineExpiry (id : Nat) (whole : Bool) (part : Nat)
  /-- DMA_ERROR (R78): A descriptor fetch or record write ends with an error and halts the ring. -/
  | dmaError (r : Fin 65536)
  /-- MODERATION_TIMER (R75): The RING_MOD_TIME timer of a module-produced ring expires and raises its interrupt. -/
  | moderationTimer (r : Fin 65536)
  /-- EVENT_BATCH_WRITE (R458): At the end of an always-on microsecond the gathered events of a source are written
  in level order. -/
  | eventBatchWrite (source : Fin 33)
  /-- POWER_ON (R416): The supply enters 44 to 57 V for 10 ms and the power-on sequence starts. -/
  | powerOn (split : Fin 4) (laserOffN : Bool) (perst : BitVec 4)
  /-- SUPPLY_DIP (R467): A brief input excursion within the ride-through limits has no effect. -/
  | supplyDip
  /-- SUPPLY_LOSS_SHUTDOWN (R468): The input stays out of range past ride-through and the whole module shuts down. -/
  | supplyLossShutdown (whole : List Nat)
  /-- MOD_RESET (R418): MOD_RESET_N held low resets the module, taking every channel Dark. -/
  | modReset (whole : List Nat)
  /-- PERST_ASSERT (R418): PERST# of a link goes low and acts as a function-level reset of that link. -/
  | perstAssert (n : Fin 4)
  /-- PERST_DEASSERT (R416): PERST# of a link is released and the link trains after stagger release. -/
  | perstDeassert (n : Fin 4)
  /-- FUNCTION_LEVEL_RESET (R38): A function-level reset stops DMA, disables the link's rings and resets its
  registers. -/
  | functionLevelReset (n : Fin 4)
  /-- LINK_TRAINED (R416): A host link completes training; the module leaves low water if it was there. -/
  | linkTrained (n : Fin 4) (speed : Fin 4) (width : Fin 17)
  /-- LINK_RECOVERY_ENTRY (R32): A host link enters recovery or goes down and its commands' deadlines pause. -/
  | linkRecoveryEntry (x : LinkLoss)
  /-- LINK_UP (R459): A host link returns from recovery and pending completions are written in order. -/
  | linkUp (x : LinkReturn)
  /-- LINK_DOWN_LIMIT_EXPIRY (R33): A recovery period reaches LNK_DOWN_LIMIT and every ring of the link halts. -/
  | linkDownLimitExpiry (n : Fin 4)
  /-- ARBITER_DECISION (R52): With no grant held and a requester requesting, the arbiter picks the highest EFF. -/
  | arbiterDecision (n : Fin 4) (x : GrantIn)
  /-- LASER_OFF_N_ASSERT (R293): LASER_OFF_N asserted blanks every channel under cause 1. -/
  | laserOffNAssert
  /-- LASER_OFF_N_RELEASE (R293): LASER_OFF_N deasserted clears cause 1 and outputs open. -/
  | laserOffNRelease
  /-- BOOT_DONE (R416): The controller boots a verified image, SRAM is written and POS_READY is set. -/
  | bootDone
  /-- BOOT_FAILED_RECOVERY (R443): With no bootable image, link 0 alone is released for recovery at 6.0 s. -/
  | bootFailedRecovery
  /-- RECOVERY_DONE (R443): A recovery image is checked and written, and the module reboots. -/
  | recoveryDone (image : Option (List Byte)) (whole : List Nat)
  /-- STAGGER_RELEASE (R428): The stagger delay expires and the channel power stage and host links are released. -/
  | staggerRelease
  /-- LIGHTHOUSE_RESTART (R13): A trap, watchdog or activation restarts the lighthouse controller under the boot
  rule. -/
  | lighthouseRestart
  /-- LIGHTHOUSE_RESTART_END (R495): The restart ends and every group holding an enabled ring is read at once. -/
  | lighthouseRestartEnd
  /-- TX_FRAME_PERIOD (R173): A transmit frame period boundary sends the next line frame and egress host frame. -/
  | txFramePeriod (c : Fin 32) (lv : List (Nat × Nat × Nat)) (fills : List Nat)
  /-- TX_MULTIFRAME_BOUNDARY (R173): A transmit multiframe begins, where agreed switches, key rolls and timed
  settings take effect. -/
  | txMultiframeBoundary (c : Fin 32) (x : BoundaryIn)
  /-- INGRESS_HOST_FRAME (R99): An ingress host frame is taken whole, accepted into the line frame or replaced. -/
  | ingressHostFrame (c : Fin 32) (phase : Int) (ins : List LaneIn) (devs : List (Nat × Int))
  /-- KAPRA_LANE_FAULT (R98): An ingress lane detects loss of signal, lock, alignment, skew or a bad marker. -/
  | kapraLaneFault (n : Fin 128) (cause : Fin 6)
  /-- LANE_STATE_REACHED (R95): Lanes reach their requested state and KAPRA_STATE completes. -/
  | laneStateReached (n : Fin 128) (x : LaneWake)
  /-- LANE_MERIT_LOW (R93): LANE_MERIT stays below 120 for four multiframes and event 0x1462 is raised. -/
  | laneMeritLow (n : Fin 128)
  /-- RX_LINE_FRAME (R193): A received line frame is taken whole: aligned, checked, descrambled, demapped and its
  overhead acted on. -/
  | rxLineFrame (c : Fin 32) (leaf : Option (Fin 64)) (f : FrameIn)
  /-- LOSS_OF_FRAME (R193): MISSES reaches 4 and frame alignment returns to Search. -/
  | lossOfFrame (c : Fin 32) (leaf : Option (Fin 64))
  /-- OH_CHECK_FAIL_RUN (R188): A run of overhead check failures reaches 256 frames and the event is raised again. -/
  | ohCheckFailRun (c : Fin 32) (leaf : Option (Fin 64))
  /-- UNCORRECTABLE_RUN (R214): A run of frames with uncorrectable units reaches 256 and event 0x14A0 is raised with
  severity 3. -/
  | uncorrectableRun (c : Fin 32)
  /-- REMOTE_DEFECT (R196): RDI is seen or cleared in four consecutive good frames. -/
  | remoteDefect (c : Fin 32) (leaf : Option (Fin 64))
  /-- TRIBUTARY_FAILED (R121): Four consecutive check failures or slips set a tributary Failed. -/
  | tributaryFailed (i : Fin 3072)
  /-- TRIBUTARY_RECOVERED (R121): Four consecutive passes return a tributary to Carrying. -/
  | tributaryRecovered (i : Fin 3072)
  /-- LATENCY_MESSAGE_DUE (R192): 1,024 multiframes pass or a latency changes and a class 1 message is sent. -/
  | latencyMessageDue (c : Fin 32)
  /-- AUTH_FAIL_RUN (R161): A run of authentication failures reaches 16 frames and event 0x1253 is raised with
  severity 3. -/
  | authFailRun (i : Fin 3072)
  /-- KEY_USAGE_WARNING (R159): CUR_FRAMES reaches the warning point and event 0x1250 is raised. -/
  | keyUsageWarning (i : Fin 3072)
  /-- KEY_EXHAUSTED (R159): CUR_FRAMES reaches USE_LIMIT and the key leaves transmit use. -/
  | keyExhausted (i : Fin 3072)
  /-- AUTO_ROLL (R156): From the warning point, a roll is made at the first boundary whose test passes. -/
  | autoRoll (i : Fin 3072)
  /-- OLD_KEY_ERASE (R157): A key left transmit use is erased after a full multiframe of the other parity. -/
  | oldKeyErase (i : Fin 3072)
  /-- KEY_COUNT_WRAP_ERASE (R177): A key slot is erased after 2^32 − 256 multiframes since its load. -/
  | keyCountWrapErase (i : Fin 3072)
  /-- MASK_RESEED (R144): Once per second a mask generator reseeds, or keeps running on failure. -/
  | maskReseed (k : Fin 33)
  /-- FEC_BER_ALARM (R218): BER_EST stays above or at-or-below the alarm level for four multiframes. -/
  | fecBerAlarm (c : Fin 32)
  /-- LINK_QUALITY_ALARM (R252): LQ stays below or recovers above LQ_ALARM for four multiframes. -/
  | linkQualityAlarm (c : Fin 32)
  /-- RX_MULTIFRAME_END (R233): A received multiframe ends and quality, merit and BER figures are updated. -/
  | rxMultiframeEnd (c : Fin 32) (q : QualityIn)
  /-- BRINGUP_STEP_DONE (R255): A bring-up step ends and the next step starts, or frames begin at step 4. -/
  | bringupStepDone (x : StepIn)
  /-- LOSS_OF_SIGNAL (R371): Four fast-path readings at or below LOS_CODE declare loss of signal and loss of
  acquisition cause 1. -/
  | lossOfSignal (c : Fin 32) (codes : List (BitVec 8))
  /-- SIGNAL_PRESENT (R371): 1,000 readings at or above LOS_CODE + 2 declare signal present and the receiver leaves
  state 1. -/
  | signalPresent (c : Fin 32) (least : BitVec 8)
  /-- LOSS_OF_ACQUISITION (R267): Pilot lock, carrier or clock limits are lost and the receiver returns to search. -/
  | lossOfAcquisition (c : Fin 32) (cause : Fin 8) (v : Int)
  /-- RX_STATE_LIMIT_EXPIRY (R257): A receive state's time limit expires and the receiver returns to state 3 with
  the next search. -/
  | rxStateLimitExpiry (c : Fin 32)
  /-- RX_STATE_ADVANCE (R257): A receive state's work finishes and the receiver moves to its next state. -/
  | rxStateAdvance (c : Fin 32) (cd : Int)
  /-- PILOT_LOCK (R269): Pilot lock is reached and the receiver chooses its configuration from the LSN parity. -/
  | pilotLock (c : Fin 32) (mask : BitVec 16) (odd : Bool)
  /-- BLIND_SEARCH_REPEAT (R264): 10 s after a failed blind search, the search is repeated. -/
  | blindSearchRepeat (c : Fin 32)
  /-- EQ_DIVERGED (R270): A subcarrier's equaliser diverges and re-converges from pilots. -/
  | eqDiverged (c : Fin 32) (i : Fin 16)
  /-- SUBCARRIER_LOCK_LOST (R271): A subcarrier without pilot lock for 1 ms loses LOCKED and ACQUIRED. -/
  | subcarrierLockLost (c : Fin 32) (i : Fin 16)
  /-- SUBCARRIER_ACQUIRED (R224): A subcarrier held locked for 16 frame periods is marked ACQUIRED. -/
  | subcarrierAcquired (c : Fin 32) (i : Fin 16)
  /-- CAL_RUN_DUE (R286): A tracking calibration interval expires and a run starts. -/
  | calRunDue (c : Fin 32) (tx : Bool)
  /-- CAL_WINDOW_END (R282): A calibration run's estimate is ready and is checked, applied, slewed or rejected. -/
  | calWindowEnd (c : Fin 32) (tx : Bool) (e : CalEstimate)
  /-- CAL_VALUES_APPLY (R284): Applied calibration values take effect at the next frame period or multiframe
  boundary. -/
  | calValuesApply (c : Fin 32) (tx : Bool)
  /-- OUTPUT_POWER_HIGH (R293): The output tap exceeds expected power in two readings and cause 3 latches. -/
  | outputPowerHigh (x : TapIn)
  /-- LASER_CURRENT_HIGH (R293): Laser drive current exceeds its limit and cause 4 turns the laser off. -/
  | laserCurrentHigh (x : DriveIn)
  /-- LOCKER_ERROR (R293): Wavelength locker error beyond ±2.5 GHz for 1 ms latches cause 6. -/
  | lockerError (c : Fin 32) (locker : Int)
  /-- CAPTURE_TAKEN (R298): An armed capture's trigger occurs and the samples are captured. -/
  | captureTaken (c : Fin 32) (x : CapSample)
  /-- CAPTURE_BUFFER_FILL (R298): Capture data is delivered into a posted buffer once one is available. -/
  | captureBufferFill (c : Fin 32)
  /-- GRANT_MAP (R314): A leaf accepts a complete grant map and takes its windows and assignment. -/
  | grantMap (c : Fin 32)
  /-- DISCOVERY_SEND (R324): A joining leaf sends a discovery burst in an open discovery window. -/
  | discoverySend (c : Fin 32)
  /-- BURST_WINDOW (R321): A leaf's granted window begins and it sends a burst of status and ready records. -/
  | burstWindow (c : Fin 32) (subc : Fin 16) (start : Fin 2048)
  /-- BURST_DETECT (R323): The burst receiver detects a preamble and opens, pre-empts or loses a reception. -/
  | burstDetect (c : Fin 32) (i : Fin 16) (ds : List (Nat × Nat)) (part : BurstIn)
  /-- BURST_HEADER_CHECK (R322): A burst header check passes or fails. -/
  | burstHeaderCheck (c : Fin 32) (i : Fin 16) (header : Word) (cell : Fin 2048) (ofs : Int)
  /-- BURST_RECEIVED (R320): A confirmed burst ends after LEN rows and its records are decoded. -/
  | burstReceived (c : Fin 32) (i : Fin 16) (x : BurstIn)
  /-- BURST_RECORD_DELIVERY (R321): At a frame's delivery instant the hub delivers its record or the replacement. -/
  | burstRecordDelivery (c : Fin 32) (j : Fin 64) (m : BitVec 32) (k : Fin 256)
  /-- LEAF_LOST (R325): A leaf sends no burst in 16 multiframes or its frame receiver is out for 100 ms. -/
  | leafLost (c : Fin 32) (j : Fin 64)
  /-- TIMING_SECOND (R333): Each second the undertow detector measures candidates and the history records a sample. -/
  | timingSecond (ofs : List (Option Int)) (ctrl : Int) (mean : Int)
  /-- HOLDOFF_EXPIRY (R334): A hold-off reaches HOLDOFF with tests still failing and the candidate is disqualified. -/
  | holdoffExpiry (k : Fin 8)
  /-- CANDIDATE_ACTIVITY_LOSS (R335): A candidate loses activity and is disqualified at once, with a selection. -/
  | candidateActivityLoss (x : LossIn)
  /-- CANDIDATE_QUALIFIED (R335): A candidate passes its tests for the qualification time and a selection follows. -/
  | candidateQualified (k : Fin 8)
  /-- LOOP_BW_STEP (R338): An acquiring wait of 5/B ends and the loop steps bandwidth down or becomes Locked. -/
  | loopBwStep
  /-- OSC_WARM (R344): 10 minutes after power-on the oscillator is marked warm. -/
  | oscWarm
  /-- HO_GRADE (R344): LOCKED_S reaches 14 days and holdover grade is set. -/
  | hoGrade
  /-- OSC_AGEING_FIT (R345): A daily mean of LOOP_CTRL is added and OSC_AGEING refitted. -/
  | oscAgeingFit
  /-- DECIM_RECORD (R365): A decimation window of R samples completes and a record is written. -/
  | decimRecord (n : Fin 33) (i : Fin 40) (codes : List (List (BitVec 16)))
  /-- RESAMPLE_REPORT (R366): At a report instant the interpolator writes a record once its samples exist. -/
  | resampleReport (n : Fin 33) (i : Fin 40) (count : BitVec 32) (t : InstantIn) (w : Nat)
  /-- SELFCAL_END (R362): An 18 ms self-calibration ends, the pair is accepted or discarded and filters restart. -/
  | selfcalEnd (n : Fin 33) (offset : Int) (gain : BitVec 32)
  /-- TEST_END (R363): A test DAC measurement completes and pass or mismatch is reported. -/
  | testEnd (n : Fin 33) (codes : List (BitVec 16))
  /-- EXT_REF_LOST (R361): The external reference leaves its window and converters move to the internal reference. -/
  | extRefLost
  /-- TREND_SAMPLE (R375): Every 60 s an Up channel takes one trend sample. -/
  | trendSample (c : Fin 32) (x : TrendIn)
  /-- HOURLY_RECORD (R379): An hourly ledger record is written and deficit or surplus re-planning is evaluated. -/
  | hourlyRecord (c : Fin 32)
  /-- DAILY_RECORD (R383): A ledger day ends, a daily record goes to flash and ageing limits are checked. -/
  | dailyRecord (c : Fin 32)
  /-- POWERED_HOUR (R493): Each whole hour of powered time advances module powered hours in flash. -/
  | poweredHour
  /-- SCRUB_VISIT (R391): The scrubber reads its next word and writes back a corrected error. -/
  | scrubVisit (k : Fin 33) (x : VisitIn) (newer : Bool)
  /-- UNCORRECTABLE_ERROR (R396): A read finds an uncorrectable word and the consequence of its kind follows. -/
  | uncorrectableError (k : Fin 33) (addr : BitVec 32) (kind : Fin 7) (ring : Option (Fin 65536)) (cmd : Option Nat) (copyBad : Bool)
  /-- KEEPER_RESTART_DONE (R396): A trapped channel keeper finishes reloading and restarts. -/
  | keeperRestartDone (c : Fin 32)
  /-- RETIREMENT_SWITCH (R398): A retirement copy finishes and the unit switches to spare storage. -/
  | retirementSwitch (k : Fin 33)
  /-- LEVEL_STEP (R406): A step of a level change ends (clock change, ramp, settle) and the next starts. -/
  | levelStep (c : Fin 32)
  /-- RAIL_CHECK (R407): Before raising the clock the core rail is read, retried each 100 µs, or ramped back after 1
  ms. -/
  | railCheck (c : Fin 32) (mv : BitVec 16)
  /-- SLEEP_ENTRY_END (R409): Slack or Dark entry completes and any latched wake is replayed. -/
  | sleepEntryEnd (c : Fin 32)
  /-- WAKE_TIMER (R410): The Slack wake timer fires and starts the exit. -/
  | wakeTimer (c : Fin 32)
  /-- WAKE_LIGHT (R410): Receive light rises and holds 1 ms in Slack and starts the exit. -/
  | wakeLight (c : Fin 32) (lo : BitVec 8) (hi : BitVec 8)
  /-- SLACK_EXIT_END (R412): A Slack exit ends with frames resuming and event 0x1922. -/
  | slackExitEnd (c : Fin 32)
  /-- DERATING_BEGIN (R476): T_cp stays above 45.0 °C for 10 s and derating begins. -/
  | deratingBegin
  /-- DERATING_END (R476): T_cp stays below 44.0 °C for 10 s and derating ends. -/
  | deratingEnd
  /-- THERMAL_SHUTDOWN (R477): T_cp stays above 55.0 °C for 10 s and every channel goes Dark. -/
  | thermalShutdown
  /-- ENTROPY_HEALTH_FAILURE (R451): A health test fails and the entropy source is marked failing. -/
  | entropyHealthFailure (raw : List Bool)
  /-- ENTROPY_STARTUP_TEST (R451): Each second while failing the start-up test is repeated, and recovery raises
  0x1A25. -/
  | entropyStartupTest (raw : List Bool)
  /-- DRBG_RESEED (R452): The random bit generator reseeds every 1 s or after 65,536 requests. -/
  | drbgReseed
  /-- HELLO (R425): A received HELLO frame regains a neighbour. -/
  | hello (down : Bool) (f : Machine.ShoreFrame)
  /-- HELLO_TIMER (R425): Every 100 ms each shore port sends HELLO. -/
  | helloTimer
  /-- SHORE_NEIGHBOUR_LOST (R425): A port receives no valid frame for 500 ms and loses its neighbour. -/
  | shoreNeighbourLost (down : Bool)
  /-- HEAD_TIMEOUT (R426): At 1.0 s with no address and no upshore HELLO, the module becomes head with address 1. -/
  | headTimeout
  /-- ADDR_ASSIGN (R427): An ADDR_ASSIGN on the upshore port is adopted as the module's address. -/
  | addrAssign (down : Bool) (f : Machine.ShoreFrame)
  /-- ADDR_ASSIGN_TIMER (R426): Every 1 s an addressed module sends ADDR_ASSIGN downshore. -/
  | addrAssignTimer
  /-- INV_REQ (R422): A consumed INV_REQ is answered with INV_RESP or discarded without firmware. -/
  | invReq (down : Bool) (f : Machine.ShoreFrame)
  /-- INV_RESP (R434): A consumed INV_RESP completes the waiting SHORE_INV_QUERY. -/
  | invResp (down : Bool) (f : Machine.ShoreFrame)
  /-- ALARM (R430): The head consumes an ALARM frame and raises event 0x1C22. -/
  | alarm (down : Bool) (f : Machine.ShoreFrame)
  /-- ALARM_REPEAT_TIMER (R430): Every 10 s ALARM causes 1 and 2 still raised are sent again. -/
  | alarmRepeatTimer (second : Bool)
  /-- LIGHTHOUSE_NOT_RUNNING (R430): Boot or restart is not done 2.0 s after it began and ALARM cause 2 is raised. -/
  | lighthouseNotRunning
  /-- LASER_OFF (R431): A consumed LASER_OFF frame asserts or releases shutdown cause 2. -/
  | laserOff (down : Bool) (f : Machine.ShoreFrame)
  /-- LASER_OFF_HOLD_EXPIRY (R431): HOLD_S runs out and shutdown cause 2 clears. -/
  | laserOffHoldExpiry
  /-- MSG (R432): A consumed MSG frame goes to a primary link message ring or is discarded. -/
  | msg (down : Bool) (f : Machine.ShoreFrame)
  /-- SHORE_FRAME_BAD (R420): A shore frame with bad FCS, EtherType or TYPE is discarded and counted. -/
  | shoreFrameBad (down : Bool)
  /-- SHORE_INV_TIMEOUT (R434): No INV_RESP arrives within 500 ms and SHORE_INV_QUERY completes with 0x21. -/
  | shoreInvTimeout (id : Nat)
  /-- LANE_SIGNAL_RETURN (R92): Signal returns on a faulted Kapra ingress lane and the receiver restarts from held
  coefficients or runs full training. -/
  | laneSignalReturn (n : Fin 128)
  /-- BRINGUP_STEP_LIMIT_EXPIRY (R287): A bring-up step fails to finish within its own limit and the bring-up ends
  stopped under R256. -/
  | bringupStepLimitExpiry (c : Fin 32)
  /-- URGENT_REQUEST_DONE (R359): The COUNT urgent conversions of a MON_READ finish and the command completes with
  the mean value. -/
  | urgentRequestDone (id : Nat) (codes : List (BitVec 16)) (x : UrgentIn)
  /-- CRYPTO_JOB_DONE (R167): The job engine finishes a started JOB_CIPHER and writes its output, tag or zeroed
  buffer and its completion. -/
  | cryptoJobDone (id : Nat)
  /-- MEM_OPERATION_DONE (R401): A MEM_FILL, MEM_COPY_IN, MEM_COPY_OUT or MEM_SCAN finishes its range and completes,
  setting WRITTEN pages or returning the CRC. -/
  | memOperationDone (id : Nat) (contents : List Byte) (corr : List (Nat × Fin 72))
  /-- LEDGER_WRITE_DONE (R48): A fuse ledger entry of PART_CHANGE or FW_FLOOR_RAISE is written and the new record or
  floor is put in force with its completion. -/
  | ledgerWriteDone (id : Nat)
  /-- IMAGE_WRITE_DONE (R444): FW_IMAGE_WRITE finishes writing and checking the standby slot and completes valid or
  refused. -/
  | imageWriteDone (id : Nat)
  /-- CHAN_RESET_DONE (R419): A channel taken down by CHAN_RESET reaches Dark and the command completes with 0x00. -/
  | chanResetDone (c : Fin 32)
  /-- SHORE_FRAME_SENT (R424): A queued shore frame leaves its port, freeing a queue place and completing a
  SHORE_SEND. -/
  | shoreFrameSent (down : Bool)
  deriving DecidableEq, Repr

end Sys2Proof
end

