-- ==== Sys2Proof/Decode.lean ====
section
/-! DEFINITION. The command that a word spells by the bits of the command table. The block has no instruction encoding:
the table gives none of its rows a bit, so no word spells a command (log 36). -/

namespace Sys2Proof

/-- No row of the command table has bits. -/
def decodeTableWord (_nbits _w : Nat) : Option Instr := none

end Sys2Proof
end

