-- ==== Sys2Proof/Config.lean ====
section
/-! DEFINITION. What one module fixes at manufacture, and the free values: constants without a body, of which nothing
can be proved. A free value is a constant here applied to the counter `free` of State and an index (log 1). -/

namespace Sys2Proof.Config

/-- The k-th free value taken at count n of State's counter: every value the spec leaves open and that a step has to
fill (log 1), cut by its reader to the width it needs. -/
opaque freeNat : Nat → Nat → Nat

/-- The byte that an unwritten byte of the host window, or a region whose contents belong to firmware or to the
datapath, shows to one read at count n (17 R388, R389; log 5). -/
opaque freeByte : Nat → Nat → Byte

/-- The nonce of an ECDSA signature, from 256 bits at count n; the spec names no source for it (log 139). -/
opaque nonce : Nat → BitVec 256
/-- The k-th 512 raw bits that the noise source gives at count n and that pass the tests (20 R451). -/
opaque rawBits : Nat → Nat → BitVec 512

/-- The byte at an offset of the lighthouse code region (false) or a keeper code region (true) under an image of a version; the spec
gives no layout of an image's body (17 R386; 20 R440; log 141). -/
opaque codeByte : BitVec 32 → Bool → Nat → Byte

/-! ### Identity and factory records -/

/-- Module serial (19 R429, 20 R437). -/
opaque serial : Word
/-- Enolmith's PCI vendor ID (03 R36). -/
opaque vendorId : BitVec 16
/-- Day of manufacture from 2000-01-01 (19 R429). -/
opaque mfgDay : BitVec 32
/-- The random bits from which the identity key pair was generated at manufacture (20 R436). -/
opaque identitySeed : BitVec 256
/-- The DER bytes of the identity certificate that the manufacturing authority signs for a public key and a serial (20 R437). -/
opaque certificateOf : Nat × Nat → Word → List Byte
/-- The two vendor key hashes fused at manufacture (20 R441). -/
opaque vendorKeyHash : Fin 2 → BitVec 256
/-- Version, security version and measurement of the image in slot A as the module leaves the factory (log 18). -/
opaque factoryVersion : BitVec 32
opaque factorySvn : Fin 65
opaque factoryMeas : BitVec 256

/-! ### Factory calibration and scales -/

/-- The factory calibration record of channel c, by position in the order of CAL_VALUES (12 R289). -/
opaque factoryCal : Nat → Nat → Int
/-- The response correction in that record, by frequency, in units of 0.1 dB. -/
opaque factoryResponse : Nat → List Int
/-- The drive in mV of child bias k (XI, XQ, YI, YQ) of channel c that a calibration value, in 0.01° from null, holds in force; the
spec gives no scale (12 R279; 16 R375, R377). -/
opaque biasDrive : Nat → Nat → Int → Int
/-- The factory limit of channel c's laser drive current, in units of 2 mA: a reading can exceed it (12 R293). -/
opaque laserLimit : Nat → Fin 255
/-- Factory OFFSET (1/16 code) and GAIN (2^-24) of converter k under reference r (15 R360). -/
opaque factoryOffset : Nat → Nat → Int
opaque factoryGain : Nat → Nat → BitVec 32
/-- VALUE of a corrected code at input i of converter k: the input's factory scale with its rounding (15 R360). -/
opaque monitorValue : Nat → Nat → Rat → BitVec 32
/-- Words that the receive justification buffer of one tributary holds beyond what justification may leave in it (06 R114). -/
opaque rxBuffer : Nat
/-- Bytes of mask that the n-th use of AES, of however many blocks, consumes (07 R143). -/
opaque maskBytes : Nat → Nat
/-- Tap 0 of the interpolator meets the oldest of its eight samples; otherwise the newest (15 R366, log 16). -/
opaque tapOldestFirst : Bool
/-- The factory interpolator's tap t of phase p for the input filters (15 R367). -/
opaque factoryCoef : Nat → Nat → BitVec 18

end Sys2Proof.Config
end

