-- ==== Sys2Proof/Machine/Crypto.lean ====
section
/-! DEFINITION. The cryptographic functions that the spec names: AES-256 and its modes GCM, CBC, CFB128 and CTR (07),
SHA-256 and P-256 with ECDSA (20). The spec names the standards and does not repeat them; what stands here is taken from
those standards (PRESUMED, log 21). Bytes are natural numbers below 256 inside this file. -/

namespace Sys2Proof.Crypto

/-! ### AES-256 -/

/-- The S-box and its inverse, entry i in bits [8i + 7 : 8i]. -/
def sboxTable : Nat := 0x16bb54b00f2d99416842e6bf0d89a18cdf2855cee9871e9b948ed9691198f8e19e1dc186b95735610ef6034866b53e708a8bbd4b1f74dde8c6b4a61c2e2578ba08ae7a65eaf4566ca94ed58d6d37c8e779e4959162acd3c25c2406490a3a32e0db0b5ede14b8ee4688902a22dc4f816073195d643d7ea7c41744975fec130ccdd2f3ff1021dab6bcf5389d928f40a351a89f3c507f02f94585334d43fbaaefd0cf584c4a39becb6a5bb1fc20ed00d153842fe329b3d63b52a05a6e1b1a2c830975b227ebe28012079a059618c323c7041531d871f1e5a534ccf73f362693fdb7c072a49cafa2d4adf04759fa7dc982ca76abd7fe2b670130c56f6bf27b777c63
def invSboxTable : Nat := 0x7d0c2155631469e126d677ba7e042b17619953833cbbebc8b0f52aae4d3be0a0ef9cc9939f7ae52d0d4ab519a97f51605fec8027591012b131c7078833a8dd1ff45acd78fec0db9a2079d2c64b3e56fc1bbe18aa0e62b76f89c5291d711af1476edf751ce837f9e28535ade72274ac9673e6b4f0cecff297eadc674f4111913a6b8a130103bdafc1020f3fca8f1e2cd00645b3b80558e4f70ad3bc8c00abd890849d8da75746155edab9edfd5048706c92b6655dcc5ca4d41698688664f6f87225d18b6d49a25b76b224d92866a12e084ec3fa420b954cee3d23c2a632947b54cbe9dec444438e3487ff2f9b8239e37cfbd7f3819ea340bf38a53630d56a0952

def sbox (b : Nat) : Nat := (sboxTable >>> (8 * b)) % 256
def invSbox (b : Nat) : Nat := (invSboxTable >>> (8 * b)) % 256

/-- Multiplication by x in the field of AES. -/
def xtime (b : Nat) : Nat := if b < 128 then 2 * b else (2 * b - 256) ^^^ 0x1b

/-- Product with a 4-bit factor. -/
def gmul (a : Nat) (k : Nat) : Nat :=
  let a2 := xtime a
  let a4 := xtime a2
  let a8 := xtime a4
  (if k.testBit 0 then a else 0) ^^^ (if k.testBit 1 then a2 else 0) ^^^ (if k.testBit 2 then a4 else 0)
    ^^^ (if k.testBit 3 then a8 else 0)

def xorList (a b : List Nat) : List Nat := List.zipWith (· ^^^ ·) a b

/-- The round constant of key schedule step i. -/
def rcon : Nat → Nat
  | 0 => 1
  | n + 1 => xtime (rcon n)

/-- The next schedule word after word i - 1 (`prev`), given word i - 8 (`back`). -/
def nextWord (i : Nat) (prev back : List Nat) : List Nat :=
  let t :=
    if i % 8 = 0 then
      match (prev.rotateLeft 1).map sbox with
      | b :: bs => (b ^^^ rcon (i / 8 - 1)) :: bs
      | [] => []
    else if i % 8 = 4 then prev.map sbox
    else prev
  xorList back t

/-- The schedule words, newest first, grown by n words from the eight of the key. -/
def growKey : Nat → List (List Nat) → List (List Nat)
  | 0, ws => ws
  | n + 1, ws => growKey n (nextWord ws.length (ws.getD 0 []) (ws.getD 7 []) :: ws)

/-- The 15 round keys of 16 bytes. -/
def roundKeys (key : List Nat) : List (List Nat) :=
  let ws := (growKey 52 ((List.range 8).map fun i => (key.drop (4 * i)).take 4).reverse).reverse
  (List.range 15).map fun r => ((ws.drop (4 * r)).take 4).flatten

def shiftRows (s : List Nat) : List Nat := (List.range 16).map fun i => s.getD ((i + 4 * (i % 4)) % 16) 0
def invShiftRows (s : List Nat) : List Nat := (List.range 16).map fun i => s.getD ((i + 12 * (i % 4)) % 16) 0

/-- A column product with a circulant of four factors. -/
def mixWith (m : List Nat) (s : List Nat) : List Nat :=
  (List.range 16).map fun i =>
    (List.range 4).foldl (fun acc j => acc ^^^ gmul (s.getD (i / 4 * 4 + j) 0) (m.getD ((j + 4 - i % 4) % 4) 0)) 0

def mixColumns : List Nat → List Nat := mixWith [2, 3, 1, 1]
def invMixColumns : List Nat → List Nat := mixWith [14, 11, 13, 9]

def encRounds : List (List Nat) → List Nat → List Nat
  | [], s => s
  | [k], s => xorList (shiftRows (s.map sbox)) k
  | k :: ks, s => encRounds ks (xorList (mixColumns (shiftRows (s.map sbox))) k)

/-- AES-256 encryption of one block. -/
def aesEncrypt (key block : List Nat) : List Nat :=
  match roundKeys key with
  | [] => []
  | k0 :: ks => encRounds ks (xorList block k0)

def decRounds : List (List Nat) → List Nat → List Nat
  | [], s => s
  | [k], s => xorList ((invShiftRows s).map invSbox) k
  | k :: ks, s => decRounds ks (invMixColumns (xorList ((invShiftRows s).map invSbox) k))

/-- AES-256 decryption of one block. -/
def aesDecrypt (key block : List Nat) : List Nat :=
  match (roundKeys key).reverse with
  | [] => []
  | k :: ks => decRounds ks (xorList block k)

/-! ### Modes -/

def beVal (bs : List Nat) : Nat := bs.foldl (fun a b => a * 256 + b) 0
def leBytesN : Nat → Nat → List Nat
  | 0, _ => []
  | n + 1, v => v % 256 :: leBytesN n (v / 256)
def beBytesN (n v : Nat) : List Nat := (leBytesN n v).reverse

/-- A byte string in blocks of 16, the last one possibly short. -/
def blocks (bs : List Nat) : List (List Nat) := (List.range ((bs.length + 15) / 16)).map fun i => (bs.drop (16 * i)).take 16

/-- Block cipher in counter mode from a first counter block: the low 32 bits count up, big-endian. -/
def ctr (key first : List Nat) (text : List Nat) : List Nat :=
  let head := first.take 12
  let c0 := beVal (first.drop 12)
  ((blocks text).zipIdx.map fun p => xorList p.1 (aesEncrypt key (head ++ beBytesN 4 ((c0 + p.2) % 2 ^ 32)))).flatten

def cbcEncrypt (key iv text : List Nat) : List Nat :=
  ((blocks text).foldl (fun (acc : List Nat × List Nat) b =>
    let c := aesEncrypt key (xorList b acc.1)
    (c, acc.2 ++ c)) (iv, [])).2

def cbcDecrypt (key iv text : List Nat) : List Nat :=
  ((blocks text).foldl (fun (acc : List Nat × List Nat) b => (b, acc.2 ++ xorList (aesDecrypt key b) acc.1)) (iv, [])).2

def cfbEncrypt (key iv text : List Nat) : List Nat :=
  ((blocks text).foldl (fun (acc : List Nat × List Nat) b =>
    let c := xorList b (aesEncrypt key acc.1)
    (c, acc.2 ++ c)) (iv, [])).2

def cfbDecrypt (key iv text : List Nat) : List Nat :=
  ((blocks text).foldl (fun (acc : List Nat × List Nat) b => (b, acc.2 ++ xorList b (aesEncrypt key acc.1))) (iv, [])).2

/-- Product in the field of GHASH, blocks as big-endian 128-bit numbers. -/
def ghashMul (x y : Nat) : Nat :=
  ((List.range 128).foldl (fun (acc : Nat × Nat) i =>
    let z := if x.testBit (127 - i) then acc.1 ^^^ acc.2 else acc.1
    (z, if acc.2 % 2 = 1 then (acc.2 / 2) ^^^ (0xe1 <<< 120) else acc.2 / 2)) (0, y)).1

/-- A byte string padded with zeros to whole blocks, as numbers. -/
def paddedBlocks (bs : List Nat) : List Nat := (blocks bs).map fun b => beVal (b ++ List.replicate (16 - b.length) 0)

def ghash (h : Nat) (aad c : List Nat) : Nat :=
  let lens := (8 * aad.length) * 2 ^ 64 + 8 * c.length
  (paddedBlocks aad ++ paddedBlocks c ++ [lens]).foldl (fun y b => ghashMul (y ^^^ b) h) 0

/-- The GCM tag over additional data and ciphertext, for a 12-byte IV. -/
def gcmTag (key iv aad c : List Nat) : List Nat :=
  let h := beVal (aesEncrypt key (List.replicate 16 0))
  xorList (beBytesN 16 (ghash h aad c)) (aesEncrypt key (iv ++ [0, 0, 0, 1]))

/-- AES-256-GCM: ciphertext and tag. -/
def gcmEncrypt (key iv aad text : List Nat) : List Nat × List Nat :=
  let c := ctr key (iv ++ [0, 0, 0, 2]) text
  (c, gcmTag key iv aad c)

/-- The plaintext, when the tag verifies. -/
def gcmDecrypt (key iv aad c tag : List Nat) : Option (List Nat) :=
  if gcmTag key iv aad c = tag then some (ctr key (iv ++ [0, 0, 0, 2]) c) else none

/-! ### SHA-256 -/

/-- The largest r below 2^b with acc ≤ r and r^n ≤ v, found bit by bit from the top. -/
def rootBits (n v : Nat) : Nat → Nat → Nat
  | 0, acc => acc
  | b + 1, acc => rootBits n v b (if (acc + 2 ^ b) ^ n ≤ v then acc + 2 ^ b else acc)

/-- The first 32 bits of the fractional part of the n-th root of p. -/
def rootFraction (n p : Nat) : Nat := rootBits n (p * 2 ^ (32 * n)) 38 0 % 2 ^ 32

/-- The primes below 312: what none of the primes up to 17 divides but itself. -/
def shaPrimes : List Nat :=
  (List.range' 2 310).filter fun p => [2, 3, 5, 7, 11, 13, 17].all fun d => p % d ≠ 0 || p = d

/-- The round constants, from the cube roots of the first 64 primes, and the initial value, from the square roots of the
first 8. -/
def shaK : List Nat := shaPrimes.map (rootFraction 3)
def shaH : List Nat := (shaPrimes.take 8).map (rootFraction 2)

def rotr (n x : Nat) : Nat := ((x >>> n) ||| (x <<< (32 - n))) % 2 ^ 32

/-- The message schedule, newest word first, grown by n words. -/
def shaGrow : Nat → List Nat → List Nat
  | 0, w => w
  | n + 1, w =>
    let a := w.getD 14 0
    let b := w.getD 1 0
    let s0 := rotr 7 a ^^^ rotr 18 a ^^^ (a >>> 3)
    let s1 := rotr 17 b ^^^ rotr 19 b ^^^ (b >>> 10)
    shaGrow n ((w.getD 15 0 + s0 + w.getD 6 0 + s1) % 2 ^ 32 :: w)

/-- One round on the eight working variables. -/
def shaRound (v : List Nat) (kw : Nat × Nat) : List Nat :=
  match v with
  | [a, b, c, d, e, f, g, h] =>
    let s1 := rotr 6 e ^^^ rotr 11 e ^^^ rotr 25 e
    let ch := (e &&& f) ^^^ ((2 ^ 32 - 1 - e) &&& g)
    let t1 := h + s1 + ch + kw.1 + kw.2
    let s0 := rotr 2 a ^^^ rotr 13 a ^^^ rotr 22 a
    let mj := (a &&& b) ^^^ (a &&& c) ^^^ (b &&& c)
    [(t1 + s0 + mj) % 2 ^ 32, a, b, c, (d + t1) % 2 ^ 32, e, f, g]
  | _ => v

def shaBlock (h : List Nat) (block : List Nat) : List Nat :=
  let w0 := (List.range 16).map fun i => beVal ((block.drop (4 * i)).take 4)
  let w := (shaGrow 48 w0.reverse).reverse
  List.zipWith (fun x y => (x + y) % 2 ^ 32) h ((shaK.zip w).foldl shaRound h)

def shaPad (m : List Nat) : List Nat :=
  m ++ [0x80] ++ List.replicate ((119 - m.length % 64) % 64) 0 ++ beBytesN 8 (8 * m.length)

/-- SHA-256 of a byte string, 32 bytes. -/
def sha256N (m : List Nat) : List Nat :=
  let p := shaPad m
  let bs := (List.range (p.length / 64)).map fun i => (p.drop (64 * i)).take 64
  ((bs.foldl shaBlock shaH).map (beBytesN 4)).flatten

/-! ### P-256 -/

def p256p : Nat := 2 ^ 256 - 2 ^ 224 + 2 ^ 192 + 2 ^ 96 - 1
def p256n : Nat := 0xffffffff00000000ffffffffffffffffbce6faada7179e84f3b9cac2fc632551
def p256b : Nat := 0x5ac635d8aa3a93e7b3ebbd55769886bc651d06b0cc53b0f63bce3c3e27d2604b
def p256g : Nat × Nat :=
  (0x6b17d1f2e12c4247f8bce6e563a440f277037d812deb33a0f4a13945d898c296,
   0x4fe342e2fe1a7f9b8ee7eb4a7c0f9e162bce33576b315ececbb6406837bf51f5)

/-- a ^ e modulo m, over the low 256 bits of e. -/
def powMod (a e m : Nat) : Nat :=
  (List.range 256).foldl (fun acc i =>
    let acc := acc * acc % m
    if e.testBit (255 - i) then acc * a % m else acc) (1 % m)

def invMod (a m : Nat) : Nat := powMod a (m - 2) m

/-- a - b modulo m, both below m. -/
def subMod (a b m : Nat) : Nat := (a + m - b % m) % m

/-- Points; none is the point at infinity. -/
abbrev Point := Option (Nat × Nat)

def onCurve (x y : Nat) : Bool :=
  x < p256p && y < p256p && y * y % p256p = subMod (x * x % p256p * x % p256p + p256b) (3 * x % p256p) p256p

def addPoint : Point → Point → Point
  | none, q => q
  | p, none => p
  | some (x1, y1), some (x2, y2) =>
    let m := p256p
    if x1 = x2 && (y1 + y2) % m = 0 then none
    else
      let l := if x1 = x2 then subMod (3 * x1 * x1) 3 m * invMod (2 * y1 % m) m % m
               else subMod y2 y1 m * invMod (subMod x2 x1 m) m % m
      let x3 := subMod (l * l) (x1 + x2) m
      some (x3, subMod (l * subMod x1 x3 m) y1 m)

def mulPoint (k : Nat) (p : Point) : Point :=
  (List.range 256).foldl (fun acc i =>
    let acc := addPoint acc acc
    if k.testBit (255 - i) then addPoint acc p else acc) none

/-- ECDSA signature (r, s) of a digest under private key d with the nonce k. -/
def ecdsaSign (d k : Nat) (digest : Nat) : Nat × Nat :=
  match mulPoint k (some p256g) with
  | none => (0, 0)
  | some (x, _) =>
    let r := x % p256n
    (r, invMod k p256n * ((digest + r * d) % p256n) % p256n)

def ecdsaVerify (q : Nat × Nat) (digest r s : Nat) : Bool :=
  onCurve q.1 q.2 && 0 < r && r < p256n && 0 < s && s < p256n &&
    let w := invMod s p256n
    match addPoint (mulPoint (digest * w % p256n) (some p256g)) (mulPoint (r * w % p256n) (some q)) with
    | none => false
    | some (x, _) => x % p256n = r

/-! ### On bytes -/

def nats (bs : List Byte) : List Nat := bs.map (·.toNat)
def bytesOf (ns : List Nat) : List Byte := ns.map (BitVec.ofNat 8)
/-- The 32 bytes of a 256-bit key, byte 0 most significant. -/
def keyBytes (k : BitVec 256) : List Nat := beBytesN 32 k.toNat
def sha256 (bs : List Byte) : List Byte := bytesOf (sha256N (nats bs))
/-- SHA-256 as a number, its first byte most significant. -/
def sha256Val (bs : List Byte) : Nat := beVal (sha256N (nats bs))
/-- The first four bytes of the encryption of sixteen bytes 0xC3, little-endian (07 R153). -/
def keyCheck (k : BitVec 256) : BitVec 32 :=
  BitVec.ofNat 32 (beVal ((aesEncrypt (keyBytes k) (List.replicate 16 0xC3)).take 4).reverse)

end Sys2Proof.Crypto
end

