-- ==== Sys2Proof/Machine/Identity.lean ====
section
/-! DEFINITION. The module's identity key pair, its digest and its certificate (20 R436, R437, R447). -/

namespace Sys2Proof.Machine

/-- A private key or nonce from 256 random bits: 1 to n - 1 (DESIGN CHOICE, log 139). -/
def scalarOf (v : Nat) : Nat := 1 + v % (Crypto.p256n - 1)

/-- The identity private key and its public key. -/
def identityPrivate : Nat := scalarOf Config.identitySeed.toNat
def identityPublic : Nat × Nat := (Crypto.mulPoint identityPrivate (some Crypto.p256g)).getD (0, 0)

/-- Bits [191:0] of SHA-256 of the identity public key, x then y, big-endian (R447). -/
def keyDigest : Nat := Crypto.sha256Val (beBytes 32 identityPublic.1 ++ beBytes 32 identityPublic.2) % 2 ^ 192

/-- The identity certificate: at most 1,024 bytes, over the public key and the module serial (R437). -/
def certificate : List Byte := (Config.certificateOf identityPublic Config.serial).take 1024

end Sys2Proof.Machine
end

