-- ==== Sys2Proof/Machine/ChannelState.lean ====
section
/-! DEFINITION. The state of one channel: power and bring-up, Kapra lanes, tributaries, slot table, line cipher,
line frame, FEC, loading, receiver, calibration and optics, raw capture, point-to-multipoint and ageing.
A field's default is its reset value. -/

namespace Sys2Proof.Machine

/-! ### Power levels and bring-up (18, 11) -/

/-- Channel power levels (18 R403), in the order of their codes. -/
inductive Level | spring | mean | neap | slack | dark
  deriving DecidableEq, Repr

/-- TRANSIT of PWR_STATUS (18 R415), in the order of its codes. -/
inductive Transit | none | clockDown | voltageDown | voltageUp | clockUp | enteringSlack | enteringDark | leavingSlack
  deriving DecidableEq, Repr

/-- A set of wake sources (18 R410): command, light, timer. -/
structure Wakes where
  command : Bool := false
  light : Bool := false
  timer : Bool := false
  deriving DecidableEq, Repr

/-- Power state of a channel (18 R403 to R415). -/
structure Power where
  level : Level := .dark
  resume : Level := .spring
  transit : Transit := .none
  /-- The level a change under R406 goes to. -/
  target : Level := .spring
  /-- The voltage has ramped and is settling for 50 µs (R406). -/
  settling : Bool := false
  /-- The rail did not settle and the voltage is ramping back (R407). -/
  rampBack : Bool := false
  /-- The end of the upward ramp, from which the 1 ms of R407 runs, always-on ns. -/
  rampEnd : Nat := 0
  /-- When the present step or rail check falls due, always-on ns (R406, R407). -/
  stepDue : Nat := 0
  armed : Wakes := {}
  latched : Wakes := {}
  /-- The first wake latched during entry, coded as LAST_WAKE (R411). -/
  firstLatched : Nat := 0
  lastWake : Nat := 0
  /-- The wake that started the present exit had been latched during entry (event 0x1922). -/
  wakeLatched : Bool := false
  /-- LOS_CODE in force at the start of entry (15 R371). -/
  wakeLos : Nat := 0
  timerDue : Option Nat := none
  /-- The core rail at the last rail check, mV (R407). -/
  vcore : Nat := 0
  levelChanges : BitVec 32 := 0
  slackEntries : BitVec 32 := 0
  /-- The level, entry or exit command that waits. -/
  cmd : Option Nat := none
  /-- Commands from this number on have been fetched since the present or last entry or exit began (R411). -/
  turnFrom : Nat := 0
  /-- PWR_SLEEP ACTION 2 commands that the present exit completes (R411), and those that a past exit completes and that had not
  acted when it ended. -/
  exitCmds : List Nat := []
  exitSeen : List Nat := []
  /-- The channel's CHAN_RESET in progress (19 R419). -/
  resetCmd : Option Nat := none
  /-- A thermal shutdown has met the entry to Dark in progress (22 R477). -/
  thermal : Bool := false
  deriving DecidableEq, Repr

/-- A loading set (10 R230): the Lit and Active masks and 32 loading codes. -/
structure LoadSet where
  lit : BitVec 16 := 0
  active : BitVec 16 := 0
  codes : List Nat := List.replicate 32 0
  deriving DecidableEq, Repr

/-- CHAN_BRINGUP parameters (11 R253). -/
structure BringupParams where
  rate : Nat := 0
  offshore : Bool := false
  level : Level := .spring
  cdBlind : Bool := false
  bankB : Bool := false
  freqIdx : Nat := 0
  cdCeil : Nat := 0
  cdHint : Int := 0
  txPower : Int := 0
  txSet : LoadSet := {}
  rxSet : LoadSet := {}
  deriving DecidableEq, Repr

/-- Bring-up and transmit settings of a channel (11 R253 to R262, 14 R346). -/
structure Bringup where
  /-- TX_STEP: 0 Dark, 1 to 4. -/
  step : Nat := 0
  stopped : Bool := false
  params : BringupParams := {}
  cmd : Option Nat := none
  /-- Start of the bring-up and of the present step, always-on ns. -/
  startNs : Nat := 0
  stepNs : Nat := 0
  /-- OFS_i in 0.1 dB (R261). -/
  offsets : List Int := List.replicate 16 0
  /-- TX_SHAPEs that wait for the next transmit multiframe boundary (R262), oldest first: command, power, offsets. -/
  shapes : List (Nat × Int × List Int) := []
  /-- Transmit timing mode (14 R346): 0 system, 1 loop, 2 self. -/
  timing : Nat := 0
  /-- CHAN_TIMING commands that wait for the next transmit multiframe boundary, with their modes, oldest first. -/
  timingCmds : List (Nat × Nat) := []
  deriving DecidableEq, Repr

/-! ### Kapra lanes and the host frame (05) -/

/-- Lane states (05 R95), in the order of their codes. -/
inductive LaneState | active | quiet | deep
  deriving DecidableEq, Repr

/-- Block lock: which of the last 64 headers checked under it were invalid, the newest as bit 0, and valid headers in a row while
lock is lost (05 R98, cause 2). -/
structure BlockSync where
  lock : Bool := false
  recent : BitVec 64 := 0
  good : Nat := 0
  deriving DecidableEq, Repr

/-- One Kapra lane (05 R91 to R101). -/
structure Lane where
  state : LaneState := .deep
  /-- The state that KAPRA_STATE has requested and the lane has not reached. -/
  want : Option LaneState := none
  /-- The state held before Slack entry (R96). -/
  before : LaneState := .active
  signal : Bool := false
  blk : BlockSync := {}
  aligned : Bool := false
  /-- Host frames in a row without a marker at its expected position, and markers in a row with a wrong LANE or CHECK. -/
  misses : Nat := 0
  badMarks : Nat := 0
  /-- While not aligned: a marker stood where the coming host frame's would stand one host frame earlier. -/
  found : Bool := false
  /-- Ingress descrambler (R81), from all zeros (DESIGN CHOICE, log 4), and the XOR of payload bytes since the last marker. -/
  descrambler : BitVec 58 := 0
  bipIn : BitVec 8 := 0
  /-- `bipIn` takes in every block since the last marker (R82). -/
  bipWhole : Bool := false
  fault : Nat := 0
  /-- Cause of a fault whose condition is met and that has not been reported (R98); 0: none. -/
  due : Nat := 0
  /-- When the signal was lost, always-on ns (R92). -/
  lostNs : Nat := 0
  merit : Nat := 0
  /-- Consecutive multiframes with merit below 120, and whether event 0x1462 may be raised again (R93). -/
  lowRun : Nat := 0
  lowArmed : Bool := true
  skew : Nat := 0
  preset : Nat := 5
  nextPreset : Option Nat := none
  hostMerit : Nat := 0
  /-- Equaliser coefficients in use, by the number of the set, the sets made so far, and during a trial the set and merit
  before it (R92). -/
  coef : Nat := 0
  sets : Nat := 0
  trial : Option (Nat × Nat) := none
  blocksRx : BitVec 64 := 0
  hdrErr : BitVec 32 := 0
  bipErr : BitVec 32 := 0
  lockLoss : BitVec 16 := 0
  alignLoss : BitVec 16 := 0
  framesRepl : BitVec 16 := 0
  fillRx : BitVec 32 := 0
  /-- Frames replaced since the fault began (event 0x1461). -/
  replRun : Nat := 0
  /-- The fault has ended and event 0x1461 is still to be raised. -/
  back : Bool := false
  /-- State of the egress scrambler (R81), and BIP8 over the blocks sent since the last marker (R82). -/
  scrambler : BitVec 58 := BitVec.allOnes 58
  bip : BitVec 8 := 0
  deriving DecidableEq, Repr

/-- The host side of a channel. -/
structure Kapra where
  lanes : Sparse Lane := []
  /-- KAPRA_STATEs that wait for their lanes, with the four states requested and those held before, oldest first. -/
  cmds : List (Nat × List LaneState × List LaneState) := []
  phase : Int := 0
  phaseMfc : BitVec 32 := 0
  /-- HF_PHASE at the last latency report of any tributary of the channel (R89). -/
  phaseReported : Int := 0
  /-- ING_REPLACED of the next egress frame (R99). -/
  replaced : Bool := false
  /-- Length of the present run of replaced frames. -/
  replRun : Nat := 0
  /-- The ingress host frame of the next transmit line frame has been taken; none when it was replaced. -/
  taken : Bool := false
  ingress : Option (List Word) := none
  deriving DecidableEq, Repr

/-! ### Tributaries, slot table, bank switch (06) -/

/-- Tributary states (06 R103), in the order of their codes. -/
inductive TribState | free | ready | carrying | disabled | failed
  deriving DecidableEq, Repr

/-- A tributary context (06 R102), its stated latencies (02), runs and counters (R140). -/
structure Trib where
  state : TribState := .free
  client : Nat := 0
  cipher : Bool := false
  burst : Bool := false
  /-- 0 none, else 1 + the group. -/
  group : Nat := 0
  shedRank : Nat := 0
  nomRate : Nat := 0
  fixedStuff : Nat := 0
  tolPpm : Nat := 0
  nextRate : Nat := 0
  txBound : Nat := 0
  rxBound : Nat := 0
  cause : Nat := 0
  /-- Failed for good: its tables could not be restored, so the host has to provision it again (17 R396, kind 5). -/
  stuck : Bool := false
  txLat : Nat := 0
  rxLat : Nat := 0
  /-- Far end's stated latencies once received (02 R22): transmit, receive. -/
  far : Option (Nat × Nat) := none
  released : Bool := false
  deviation : Bool := false
  latMfc : BitVec 32 := 0
  /-- Figures or RELEASED have changed in the present transmit multiframe, whose one event comes at its end (21 R456); and FAR_KNOWN
  is among them. -/
  owed : Bool := false
  flipped : Bool := false
  /-- Consecutive failed and passed stream checks; consecutive frames with and without a slip. -/
  failRun : Nat := 0
  passRun : Nat := 0
  slipRun : Nat := 0
  cleanRun : Nat := 0
  /-- The last received frame was idle or flagged failed (R117). -/
  rxIdle : Bool := true
  /-- TRIB_DISABLEs that wait for the last frame of the pipeline to leave (R106). -/
  draining : List Nat := []
  /-- Received words that wait in the receive justification buffer (R112), and the last word delivered. -/
  fifo : List Word := []
  lastWord : Option Word := none
  /-- Words of padding that give the buffer its full depth; none until it starts (02 R18; R112). -/
  pad : Option Int := none
  /-- Bits of the replacement block sequence already sent, below 66 (R117). -/
  replBit : Nat := 0
  /-- Block lock on a CLIENT 1 stream, and the bits that wait for their block (R118). -/
  blk : BlockSync := {}
  blkBits : List Bool := []
  frames : BitVec 64 := 0
  framesErrored : BitVec 32 := 0
  checkFail : BitVec 32 := 0
  pjTx : BitVec 32 := 0
  njTx : BitVec 32 := 0
  pjRx : BitVec 32 := 0
  njRx : BitVec 32 := 0
  framesRepl : BitVec 32 := 0
  slip : BitVec 16 := 0
  jcInvalid : BitVec 16 := 0
  blkSyncLoss : BitVec 32 := 0
  blkHdrErr : BitVec 32 := 0
  deriving DecidableEq, Repr

/-- A BANK_SWITCH of this end (06 R127 to R132). -/
structure BankProposal where
  /-- The command; none once it has completed with 0x05 after a committed switch (02 R31). -/
  id : Option Nat
  /-- A PROPOSE is being sent; false when M_I would fall past the deadline (02 R31). -/
  live : Bool := true
  group : Option Nat
  mI : BitVec 32
  crc : BitVec 32
  /-- M_r of the ACCEPT received. -/
  accepted : Option (BitVec 32) := none
  committed : Bool := false
  switched : Option (BitVec 32) := none
  /-- Multiframe at which the far end switched. -/
  far : Option (BitVec 32) := none
  deriving DecidableEq, Repr

/-- An agreement held as responder (06 R127, R128). -/
structure BankAgreement where
  mI : BitVec 32
  mR : BitVec 32
  crc : BitVec 32
  group : Option Nat
  committed : Bool := false
  /-- The far end's switch multiframe has been seen: this end switches at its next boundary (R129). -/
  follow : Bool := false
  deriving DecidableEq, Repr

/-- Slot table and bank switch of a channel (06 R122 to R132). -/
structure Slots where
  bankA : Sparse (BitVec 16) := []
  bankB : Sparse (BitVec 16) := []
  /-- The active bank is B. -/
  activeB : Bool := false
  /-- Expected checksum while armed, with the group of a group arm. -/
  armed : Option (BitVec 32) := none
  armGroup : Option Nat := none
  proposal : Option BankProposal := none
  agreement : Option BankAgreement := none
  /-- A REJECT being sent: reason, M_I answered, the frames of its multiframe still to come, and the group of a group
  switch. -/
  reject : Option (Nat × BitVec 32 × Nat × Option Nat) := none
  /-- The switch multiframe now being transmitted. -/
  switching : Option (BitVec 32) := none
  /-- NEXT_RATEs that replace NOM_RATE at the next multiframe (R130): LOCAL indices. -/
  ratesDue : List Nat := []
  deriving DecidableEq, Repr

/-! ### Line cipher (07) -/

/-- A line key with its epoch and the transmit multiframes sent since its load (07 R145, 08 R177). -/
structure LineKey where
  key : BitVec 256
  epoch : Nat
  ageMf : Nat := 0
  deriving DecidableEq, Repr

/-- A line cipher context (07 R145 to R163). -/
structure Cipher where
  endId : Bool := false
  autoRoll : Bool := false
  useLimit : Nat := 0
  warnDist : Nat := 0
  txInd : Nat := 0
  current : Option LineKey := none
  next : Option LineKey := none
  /-- Keys that have left transmit use and are kept for receive (R157). -/
  retiring : List LineKey := []
  lastEpoch : Nat := 0
  curFrames : Nat := 0
  /-- Event 0x1250 has been raised for the current key. -/
  warned : Bool := false
  /-- KEY_ROLLs that wait for the next transmit multiframe boundary (R155). -/
  rollCmds : List Nat := []
  farNextEpoch : Nat := 0
  farEnd : Bool := false
  farKcv : BitVec 32 := 0
  /-- When the far end's last advertisement arrived, always-on ns; none before the first. -/
  farNs : Option Nat := none
  conflict : Bool := false
  rxEpoch : Nat := 0
  /-- Parity last named by the far KEY_IND and for how many frames in a row (R157). -/
  rxParity : Nat := 0
  rxParityRun : Nat := 0
  authFail : BitVec 32 := 0
  authFailErrored : BitVec 32 := 0
  noKeyTx : BitVec 32 := 0
  noKeyRx : BitVec 32 := 0
  rolls : BitVec 32 := 0
  failRun : Nat := 0
  deriving DecidableEq, Repr

/-! ### Line frame and its overhead (08) -/

/-- What frame k + 1 carries of frame k for one LOCAL index (08 R184). -/
structure Carried where
  tagLo : Word := 0
  tagHi : Word := 0
  keyInd : Nat := 0
  check : BitVec 32 := 0
  deriving DecidableEq, Repr

/-- A message waiting for or entering the message channel (08 R189): its command, class and bytes. -/
structure OutMsg where
  cmd : Option Nat
  cls : Nat
  bytes : List Byte
  deriving DecidableEq, Repr

/-- The message being sent: its words with the CRC word, and how many have entered frames. -/
structure SendingMsg where
  msg : OutMsg
  words : List Word
  sent : Nat := 0
  deriving DecidableEq, Repr

/-- Transmit frame timing and overhead of a channel (08 R173 to R192). -/
structure TxFrame where
  /-- Line frames are being sent (R174). -/
  sending : Bool := false
  mfc : BitVec 32 := 0
  /-- Number of the next frame to send; 256 when the multiframe has been sent. -/
  frame : Nat := 0
  /-- The latest multiframes with the always-on ns at which they began, newest first, at most 16 (15 R366). -/
  starts : List (BitVec 32 × Nat) := []
  carried : Sparse Carried := []
  lastOh : Option (List Word) := none
  queue : List OutMsg := []
  current : Option SendingMsg := none
  msgSeq : BitVec 16 := 0
  /-- A latency message falls due (R192), and transmit multiframes since the last one. -/
  latencyDue : Bool := false
  latencyMf : Nat := 0
  msgTx : BitVec 32 := 0
  deriving DecidableEq, Repr

/-- Frame alignment states (08 R193), in the order of their codes. -/
inductive AlignState | search | candidate | inFrame
  deriving DecidableEq, Repr

/-- A message being received (08 R190). -/
structure Assembly where
  seq : BitVec 16
  bytes : Nat
  cls : Nat
  words : List Word
  deriving DecidableEq, Repr

/-- What a received frame holds of one tributary until the next overhead arrives (08 R184): its context, slot blocks in
order, slot control of its lowest slot, whether the frame's overhead was damaged, and the words that were uncorrectable, by
place of the slot and word. -/
structure HeldTrib where
  i : Nat
  blocks : List (List Word)
  nib : Nat
  errored : Bool
  bad : List (Nat × Nat)
  /-- The frame is not demapped for it: the replacement is delivered. -/
  replaced : Bool
  deriving DecidableEq, Repr

/-- The received frame whose tags and checks come with the next one; `gcount` is its group multiframe count. -/
structure HeldFrame where
  mfc : BitVec 32
  gcount : BitVec 32
  frame : Nat
  tribs : List HeldTrib
  deriving DecidableEq, Repr

/-- Receive alignment, numbering and overhead of a channel (08 R188 to R197). -/
structure RxFrame where
  state : AlignState := .search
  /-- Due positions of the candidates held, from the first position not yet tested. -/
  cands : List Nat := []
  /-- Words received that belong to the coming frame, or whose position has not been tested, each with whether it had bits in an
  uncorrectable unit; and whether that frame is the confirming one. -/
  tail : List (Word × Bool) := []
  fresh : Bool := false
  misses : Nat := 0
  numKnown : Bool := false
  mfc : BitVec 32 := 0
  frame : Nat := 0
  /-- New numbering seen once and not yet adopted (R194): the next numbers it would give, and the count that was expected
  in its place. -/
  jump : Option (BitVec 32 × Nat × BitVec 32) := none
  /-- Group multiframe count of the last frame of a group member. -/
  gcount : BitVec 32 := 0
  dropped : Nat := 0
  bank : Bool := false
  bankSw : Bool := false
  slots : Nat := 0
  rdi : Bool := false
  rdiRun : Nat := 0
  clearRun : Nat := 0
  ohRun : Nat := 0
  lastOh : Option (BitVec 32 × Nat × List Word) := none
  assembly : Option Assembly := none
  /-- Number of a message already discarded, whose later chunks are not counted again. -/
  badSeq : Option (BitVec 16) := none
  held : Option HeldFrame := none
  framesRx : BitVec 64 := 0
  ohCheckFail : BitVec 32 := 0
  fawMiss : BitVec 32 := 0
  lof : BitVec 16 := 0
  numJump : BitVec 16 := 0
  falseCand : BitVec 32 := 0
  msgRx : BitVec 32 := 0
  msgLost : BitVec 32 := 0
  slotCtlErr : BitVec 32 := 0
  rdiFrames : BitVec 32 := 0
  deriving DecidableEq, Repr

/-! ### FEC (09) -/

/-- Of one received multiframe: its count, bits changed, coded bits, uncorrectable units, units and their iterations
(09 R218). -/
structure FecSums where
  mfc : BitVec 32
  bits : Nat := 0
  coded : Nat := 0
  uncorr : Nat := 0
  units : Nat := 0
  iters : Nat := 0
  deriving DecidableEq, Repr

/-- FEC state of a channel (09 R214 to R218). -/
structure Fec where
  txOffshore : Bool := false
  rxOffshore : Bool := false
  alarmLevel : Nat := 0
  berEst : Nat := 0
  berSat : Bool := false
  iterAvg : Nat := 0
  uncorrLast : Nat := 0
  mfc : BitVec 32 := 0
  aboveRun : Nat := 0
  belowRun : Nat := 0
  alarm : Bool := false
  uncorrRun : Nat := 0
  uncorrFirst : Nat := 0
  unitsRx : BitVec 64 := 0
  unitsCorrected : BitVec 64 := 0
  bits1to0 : BitVec 64 := 0
  bits0to1 : BitVec 64 := 0
  unitsUncorr : BitVec 32 := 0
  outerCorr : BitVec 32 := 0
  iterMaxHit : BitVec 32 := 0
  framesErr : BitVec 32 := 0
  /-- Sums of the received multiframes not yet reported, newest first, at most two (R218). -/
  sums : List FecSums := []
  deriving DecidableEq, Repr

/-! ### Loading (10) -/

/-- What an exchange asks for (10 R238): the initiator's transmit set, the responder's transmit set, a new profile. -/
structure LxContent where
  fwd : Option LoadSet
  rev : Option LoadSet
  /-- New profile of both directions: Offshore when true. -/
  profile : Option Bool
  deriving DecidableEq, Repr

/-- The exchange this end initiated (10 R241 to R245). -/
structure LxProposal where
  /-- The command; none for the module's own re-plan (16 R381). -/
  id : Option Nat
  lead : Nat
  seq : BitVec 16
  mI : BitVec 32
  content : LxContent
  accepted : Option (BitVec 32) := none
  /-- A PROPOSE is being sent or has been accepted; false while only the command's deadline is awaited (R245). -/
  live : Bool := true
  committed : Bool := false
  txAt : Option (BitVec 32) := none
  rxAt : Option (BitVec 32) := none
  /-- The module's own re-plan, and the end of its 500 ms, always-on ns (16 R381). -/
  own : Bool := false
  due : Option Nat := none
  deriving DecidableEq, Repr

/-- The exchange this end answered with ACCEPT (10 R241 to R244). -/
structure LxAgreement where
  seq : BitVec 16
  mI : BitVec 32
  mR : BitVec 32
  content : LxContent
  committed : Bool := false
  /-- The boundary at which the transmitter follows a receiver that has switched without COMMIT (R244). -/
  followAt : Option (BitVec 32) := none
  txAt : Option (BitVec 32) := none
  rxAt : Option (BitVec 32) := none
  deriving DecidableEq, Repr

/-- A REJECT: reason, EXCH_SEQ, M_I, the profile change that it answers, and the frames in which it is still to be sent. Once
sent it stands for the exchange answered. -/
structure LxReject where
  reason : Nat
  seq : BitVec 16
  mI : BitVec 32
  profile : Option Bool
  left : Nat := 256
  deriving DecidableEq, Repr

/-- The receiver's pending configuration (10 R240). -/
structure PendingRx where
  set : LoadSet
  offshore : Bool
  lsn : BitVec 8
  /-- The far end's switch multiframe. -/
  at_ : BitVec 32
  /-- Its parity has been read from the pilots: it comes into force at the next frame period boundary. -/
  announced : Bool := false
  /-- Frame periods until the far end's switch multiframe begins, as the expected numbering gives it; at 0 the parity is read in
  every frame period. -/
  left : Nat := 0
  deriving DecidableEq, Repr

/-- Loading of a channel (10 R219 to R252). -/
structure Loading where
  tx : LoadSet := {}
  rx : LoadSet := {}
  lsnTx : BitVec 8 := 0
  lsnRx : BitVec 8 := 0
  seq : BitVec 16 := 0
  proposal : Option LxProposal := none
  agreement : Option LxAgreement := none
  /-- The REJECT sent last. -/
  reject : Option LxReject := none
  /-- COMMIT or ACCEPT of an exchange that is over, sent until this multiframe begins (R241, R243). -/
  tail : Option (BitVec 32 × List Word) := none
  /-- Parity of the far transmitter's set last seen in the pilots (R240). -/
  seenOdd : Bool := false
  pendingRx : Option PendingRx := none
  farAccept : Bool := true
  lqAlarm : Int := 0
  snr : List Nat := List.replicate 32 0
  margin : List Int := List.replicate 32 0
  evm : List Nat := List.replicate 32 0
  lq : Int := 0
  noActive : Bool := true
  stale : Bool := false
  mfc : BitVec 32 := 0
  /-- SNR codes of the last 64 multiframes, newest first, by stream; none for a figure not measured or held (R236). -/
  history : List (List (Option Nat)) := []
  farSnr : List Nat := List.replicate 32 0
  lowRun : Nat := 0
  highRun : Nat := 0
  lqRaised : Bool := false
  indUnexpected : BitVec 32 := 0
  deriving DecidableEq, Repr

/-! ### Receiver (11) -/

/-- Receive states (11 R257), in the order of their codes. -/
inductive RxState | notUp | noSignal | calibration | search | carrier | pilotLock | tracking
  deriving DecidableEq, Repr

/-- Figures of one subcarrier (11, DSP_STATUS). -/
structure ScFigure where
  dgd : Nat := 0
  pdl : Nat := 0
  sop : Nat := 0
  evm : Nat := 0
  deriving DecidableEq, Repr

/-- Receiver of a channel (11 R257 to R274). -/
structure Receiver where
  state : RxState := .notUp
  stateNs : Nat := 0
  /-- When the limit of the present state, or of the present search, began to run, always-on ns. -/
  limitNs : Nat := 0
  /-- A state 2 has ended since the last bring-up (R267); and state 1 is the one after a Slack exit, which no state 2 follows
  (R258). -/
  calDone : Bool := false
  skipCal : Bool := false
  /-- The present search: hints in ps/nm still to be tried, the one being tried first, none standing for the blind
  search (R267). -/
  searches : List (Option Int) := []
  /-- The search that follows the bring-up has not ended: CD_HINT or CD_BLIND applies to it. -/
  first : Bool := false
  /-- CD_MEAS has been measured since the bring-up. -/
  cdKnown : Bool := false
  cdMeas : Int := 0
  /-- CD_MEAS before the last loss (R272). -/
  cdBefore : Option Int := none
  freqOfs : Int := 0
  clkOfs : Int := 0
  /-- CLK_OFS of the multiframes of the last second with the instants of their updates, and the mean held since the receiver left
  state 6 (14 R347). -/
  clks : List (Nat × Int) := []
  heldClk : Rat := 0
  lastCause : Nat := 0
  /-- Event 0x1401 with cause 4 has been raised for the present failure (R264). -/
  blindFailed : Bool := false
  /-- When the blind search is repeated next (R264), always-on ns. -/
  blindDue : Option Nat := none
  blindFirst : Bool := false
  altValid : Bool := false
  altHint : Int := 0
  locked : BitVec 16 := 0
  acquired : BitVec 16 := 0
  figures : Sparse ScFigure := []
  mfc : BitVec 32 := 0
  /-- The last end of state 1 that a search followed, or of state 2, always-on ns (event 0x1402). -/
  acqNs : Nat := 0
  cycleSlip : BitVec 32 := 0
  eqReconv : BitVec 32 := 0
  reacq : BitVec 16 := 0
  scLockLoss : BitVec 16 := 0
  /-- Re-convergences and peak rotation rate of the present multiframe (R270). -/
  reconvNow : Nat := 0
  /-- The received multiframe whose figures were updated last. -/
  ended : Option (BitVec 32) := none
  /-- Subcarriers whose lock was lost and has not been regained (R271). -/
  lostSub : BitVec 16 := 0
  /-- CD_WINDOWs that wait for the next received multiframe boundary (R273), oldest first: command and ceiling. -/
  window : List (Nat × Nat) := []
  /-- The window took effect at a received multiframe boundary: its egress frames carry the replacement until
  the received multiframe after this one. -/
  windowHit : Option (BitVec 32) := none
  deriving DecidableEq, Repr

/-! ### Calibration, optics and capture (12) -/

/-- The residual and eye figures of the last applied runs and the converters' levels, as CAL_STATUS holds them (12 R277,
R292): of each ADC spur level, skew, rms and clipped ppm; of each DAC skew, imbalance and eye; and the six bias errors in
0.1°. -/
structure CalFigures where
  ilRes : List Nat := []
  skewRx : List Int := []
  rms : List Nat := []
  clip : List Nat := []
  skewTx : List Int := []
  gainTx : List Int := []
  eye : List Nat := []
  bias : List Int := []
  deriving DecidableEq, Repr

/-- What an accepted run is to change: the values, whether it was slewed, whether every change was below its step limit; the
errors that it estimated, and the figures it measured (12 R283, R287, R292). -/
structure CalResult where
  values : List Int
  slewed : Bool
  small : Bool
  errors : List Int
  resp : List Int
  ilRes : List Nat
  eye : List Nat
  deriving DecidableEq, Repr

/-- A calibration run in progress (12 R281 to R288). -/
structure CalRun where
  /-- Initial runs are those of bring-up step 3 and receive state 2 (R283). -/
  initial : Bool
  /-- The run of step 3 that estimates the response correction (R287). -/
  response : Bool := false
  /-- The window has opened, and the multiframes that have ended since. -/
  opened : Bool := false
  mfs : Nat := 0
  /-- When the window of an initial run opens, always-on ns. -/
  openNs : Nat := 0
  /-- The window has ended and accepted values wait for their boundary (R284), and that boundary has come. -/
  apply : Option CalResult := none
  ready : Bool := false
  deriving DecidableEq, Repr

/-- A CAL_RUN that waits: command, whether each kind is awaited, and the outcomes so far (12 R299). -/
structure CalWaiter where
  id : Nat
  rx : Bool
  tx : Bool
  rxOut : Nat := 14
  txOut : Nat := 14
  deriving DecidableEq, Repr

/-- Calibration of a channel (12 R279 to R300). Values in the order of CAL_VALUES: 384 receive values
(offset, gain, interleave skew of sub-converter s of ADC a at 3 × (32 a + s)), then RX_SKEW 3, TX_SKEW 3, TX_GAIN 3,
bias XI, XQ, X parent, YI, YQ, Y parent: 399 values. -/
structure Cal where
  rxTrack : Bool := false
  txTrack : Bool := false
  rxInt : Nat := 0
  txInt : Nat := 0
  /-- None: the factory record's values are in force (R289). -/
  values : Option (List Int) := none
  estimates : List Int := []
  rxRun : Option CalRun := none
  txRun : Option CalRun := none
  /-- When the next tracking runs fall due, always-on ns, and a run that fell due while one was in progress (R286). -/
  rxNext : Nat := 0
  txNext : Nat := 0
  rxDue : Bool := false
  txDue : Bool := false
  waiters : List CalWaiter := []
  /-- Consecutive applied receive and transmit runs with every change below its step limit (R287, R288). -/
  rxConverged : Nat := 0
  txConverged : Nat := 0
  rxStale : Bool := false
  txStale : Bool := false
  /-- The received multiframe in which a run ended after its figures had been held, and whether one has in the present transmit
  multiframe: their updates are held (R290). -/
  rxMixed : Option (BitVec 32) := none
  txMixed : Bool := false
  rxRejSeq : Nat := 0
  txRejSeq : Nat := 0
  rxMfc : BitVec 32 := 0
  rxRuns : BitVec 32 := 0
  rxRejects : BitVec 32 := 0
  txRuns : BitVec 32 := 0
  txRejects : BitVec 32 := 0
  rxLast : Nat := 0
  txLast : Nat := 0
  slews : BitVec 16 := 0
  /-- A receive run has been applied since the channel last went Up (16 R376). -/
  appliedUp : Bool := false
  /-- The response correction in force by frequency, 0.1 dB; none: the factory record's (R279, R289). -/
  response : Option (List Int) := none
  /-- Step 3 has still to estimate and apply the response correction (R287). -/
  respDue : Bool := false
  figures : CalFigures := {}
  deriving DecidableEq, Repr

/-- Optics of a channel (12 R293 to R295, R299). -/
structure Optics where
  /-- Latched causes 3, 4, 5, 6 as bits 2 to 5 (causes 1 and 2 stand in the common section). -/
  latched : BitVec 6 := 0
  laserOn : Bool := false
  /-- The shutter is closed: bring-up steps 1 to 3, sleep and Dark (R278, 18 R409). -/
  shutter : Bool := true
  /-- Causes for which event 0x14C1 has been raised and the output not opened since. -/
  raised : BitVec 6 := 0
  shutdowns : BitVec 32 := 0
  /-- The output was blanked when the channel keeper trapped: it stays dark until the keeper runs again (22 R479). -/
  held : Bool := false
  deriving DecidableEq, Repr

/-- The fields of an armed capture (12 R296). -/
structure CapArm where
  link : Nat
  ring : Nat
  source : Nat
  point : Bool
  trig : Nat
  subc : Nat
  len : Nat
  mfc : BitVec 32
  deriving DecidableEq, Repr

/-- A capture taken, with the data still to deliver (12 R297, R298). -/
structure CapData where
  arm : CapArm
  numValid : Bool
  mfc : BitVec 32
  frame : Nat
  ofs : Nat
  total : Nat
  sent : Nat := 0
  data : List Byte
  deriving DecidableEq, Repr

/-- Raw capture of a channel (12 R296 to R298). -/
structure Capture where
  armed : Option CapArm := none
  /-- Acquisition has been lost since the capture was armed with TRIG 2. -/
  lost : Bool := false
  taken : Option CapData := none
  capId : BitVec 16 := 0
  deriving DecidableEq, Repr

/-! ### Point-to-multipoint (13) -/

/-- Channel modes (13 R301), in the order of their codes. -/
inductive P2Mode | pointToPoint | hub | leaf
  deriving DecidableEq, Repr

/-- Leaf states (13 R309), in the order of their codes. -/
inductive LeafState | free | expected | ranging | active | lost
  deriving DecidableEq, Repr

/-- A frame record of a burst (13 R320), from its header fields to its stream check. -/
structure FrameRecord where
  loc : Nat
  frame : Nat
  mfc : BitVec 32
  keyInd : Nat
  jc : Nat
  failed : Bool
  bank : Bool
  words : List Word
  tag : List Word
  check : BitVec 32
  /-- An uncorrectable memory error has met it at the hub (17 R396). -/
  errored : Bool := false
  deriving DecidableEq, Repr

/-- A leaf context at a hub (13 R309) with the pair's exchanges (R317). -/
structure Leaf where
  state : LeafState := .free
  burst : Bool := false
  burstN : Nat := 0
  slotBase : Nat := 0
  slotCount : Nat := 0
  dedMask : BitVec 16 := 0
  serial : Word := 0
  eqd : Nat := 0
  arrOfs : Int := 0
  /-- The last 16 arrival measurements (R309), newest first; how many of them came since the last correction, and the
  correction that the next map makes (R308). -/
  arrivals : List Int := []
  fresh : Nat := 0
  fix : Int := 0
  /-- SNR codes of the last 16 bursts, newest first. -/
  snrs : List Nat := []
  bursts : BitVec 32 := 0
  recLost : BitVec 32 := 0
  rerange : Bool := false
  /-- Consecutive receive multiframes with windows and without a confirmed burst (R325), and whether the present one has had
  a burst. -/
  silent : Nat := 0
  heard : Bool := false
  /-- Since when a dedicated leaf's frame receiver has been out of alignment, always-on ns. -/
  lostNs : Option Nat := none
  /-- The leaf's last advertised ACQ of downstream subcarriers (R316), LQ, and RDI. -/
  acq : BitVec 16 := 0
  lq : Int := 0
  rdi : Bool := false
  /-- ACCEPT and switch multiframe received from the leaf for the hub's bank switch (R317). -/
  bankAccept : Option (BitVec 32) := none
  bankFar : Option (BitVec 32) := none
  /-- The pair's loading: receive set and LSN are those of the leaf's transmitter. -/
  ld : Loading := {}
  /-- The frame receiver of a dedicated leaf. -/
  rf : RxFrame := {}
  /-- Place of the context advertised last in the list of ciphered contexts of the window. -/
  adv : Nat := 0
  /-- Frame records that wait for their delivery instant (R321), and the last frame delivered. -/
  records : List FrameRecord := []
  delivered : Option (BitVec 32 × Nat) := none
  deriving DecidableEq, Repr

/-- Reception states of a shared subcarrier's burst receiver (13 R322, R323). A confirmed reception keeps its preamble
power, leaf, rows, whether it is a discovery burst, the cell in which it began, and its offset from that cell's start in
ns. -/
inductive BurstRx
  | idle
  | unconfirmed (corr power : Nat)
  | confirmed (power leaf len : Nat) (disc : Bool) (cell : Nat) (ofs : Int)
  deriving DecidableEq, Repr

/-- A burst receiver with its counters (13, BURST_COUNTERS). -/
structure BurstChan where
  rx : BurstRx := .idle
  /-- A collision event has been raised in the present multiframe (event 0x1524), and its collisions. -/
  collisionsNow : Nat := 0
  detect : BitVec 32 := 0
  confirmed : BitVec 32 := 0
  hdrFail : BitVec 32 := 0
  preempt : BitVec 32 := 0
  collision : BitVec 32 := 0
  capture : BitVec 32 := 0
  trunc : BitVec 32 := 0
  misplaced : BitVec 32 := 0
  rowsUncorr : BitVec 32 := 0
  discRx : BitVec 32 := 0
  deriving DecidableEq, Repr

/-- One granted window (13, grant entry): subcarrier, first cell, cells, leaf. -/
structure Grant where
  subc : Nat
  start : Nat
  cells : Nat
  leaf : Nat
  deriving DecidableEq, Repr

/-- What a map's entry says of its leaf (13, leaf entry). -/
structure LeafEntry where
  burst : Bool
  slotBase : Nat
  slotCount : Nat
  dedMask : BitVec 16
  eqd : Nat
  deriving DecidableEq, Repr

/-- What a leaf keeps of an accepted map (13 R314): its own windows not yet used, their loading, the discovery subcarrier when
a window is open, and the leaf's own entry. -/
structure LeafMap where
  gov : BitVec 32
  grants : List Grant
  burstN : Nat
  disc : Option Nat
  entry : Option LeafEntry := none
  deriving DecidableEq, Repr

/-- A frame record or message chunk waiting for a burst (13 R320, R321): its words, the transmit frame that made it, and
whether the time limit of frame records applies. -/
structure BurstRecord where
  words : List Word
  mfc : BitVec 32
  frame : Nat
  limited : Bool
  deriving DecidableEq, Repr

/-- Point-to-multipoint state of a channel (13). -/
structure P2mp where
  mode : P2Mode := .pointToPoint
  /-- Hub settings (P2MP_CONFIG); DET_THR 102, capture off and CAP_THR 6 dB after reset (R323). -/
  shared : BitVec 16 := 0
  discInt : Nat := 0
  detThr : Nat := 102
  capOn : Bool := false
  capThr : Nat := 6
  leaves : Sparse Leaf := []
  receivers : Sparse BurstChan := []
  /-- Assignments for the next map: serial, leaf, EQD (R324). -/
  assigns : List (Word × Nat × Nat) := []
  /-- An announced downstream set change (R317): its command, DS_MF and the set. -/
  downstream : Option (Option Nat × BitVec 32 × LoadSet) := none
  /-- Multiframes since the last map that opened a discovery window, and the receive multiframes with an open one, each with
  its DISC_SUBC. -/
  discSince : Nat := 0
  discGov : List (BitVec 32 × Nat) := []
  /-- GM words of the map now being sent. -/
  gm : List Word := []
  /-- Windows of the maps whose receive multiframe has not ended, by GOV_MF, newest first. -/
  planned : List (BitVec 32 × List Grant) := []
  /-- The leaf whose exchange is being worked on, inside one step only (model's own). -/
  pair : Option Nat := none
  /-- Leaf side (LEAF_STATUS). -/
  joining : Bool := false
  serial : Word := 0
  join : Nat := 0
  leafNo : Nat := 0
  burst : Bool := false
  eqd : Nat := 0
  /-- The EQD in use, which slews toward `eqd` (R308). -/
  eqdNow : Nat := 0
  slotBase : Nat := 0
  slotCount : Nat := 0
  dedMask : BitVec 16 := 0
  gmLost : BitVec 32 := 0
  recDrop : BitVec 32 := 0
  burstsTx : BitVec 32 := 0
  bseq : BitVec 8 := 0
  /-- Region words of frames 0, 1, … of one received multiframe, each of which passed its check, at most 32, and its count. -/
  gmIn : List (List Word) := []
  gmMf : BitVec 32 := 0
  /-- Accepted maps whose multiframe has not ended. -/
  maps : List LeafMap := []
  /-- The transmit count that the next multiframe adopts, with the EQD in use from then on (R324, R326). -/
  adopt : Option (BitVec 32 × Nat) := none
  /-- Maps accepted since the discovery burst without an assignment, and discovery windows still to skip (R324). -/
  mapsWaited : Nat := 0
  skip : Nat := 0
  /-- Silent until a map is accepted after the downstream was lost (R326). -/
  silent : Bool := true
  adv : Nat := 0
  ready : List BurstRecord := []
  deriving DecidableEq, Repr

/-! ### Ageing (16) -/

/-- Trend quantities, of one sample or as means over samples (16 R375, R376): each only when it was sampled. -/
structure Trend where
  laser : Option Rat := none
  /-- Child bias drives XI, XQ, YI, YQ. -/
  bias : Option (List Rat) := none
  resp : Option Rat := none
  interleave : Option Rat := none
  thermal : Option Rat := none
  /-- Mean SNR code of each stream, and LQ. -/
  snr : Option (List (Option Rat) × Rat) := none
  /-- Units with outer corrections and with 16 iterations, per million. -/
  fec : Option (Rat × Rat) := none
  /-- Lowest per-minute LQ. -/
  lqMin : Option Int := none
  deriving DecidableEq, Repr

/-- A ledger record (16 R377). -/
structure TideRecord where
  seq : BitVec 32
  daily : Bool
  powerH : Nat
  upH : Nat
  mean : Trend
  deriving DecidableEq, Repr

/-- What the present minute gathers of SNR and FEC stress: per stream the sum and number of its codes, and the counters
at the minute's start. -/
structure MinuteSums where
  sums : List (Nat × Nat) := List.replicate 32 (0, 0)
  units : BitVec 64 := 0
  outer : BitVec 32 := 0
  iter : BitVec 32 := 0
  deriving DecidableEq, Repr

/-- Ageing of a channel (16 R375 to R384). -/
structure Ageing where
  target : Nat := 8
  autonomy : Nat := 0
  save : Bool := false
  lead : Nat := 0
  minute : MinuteSums := {}
  /-- Minutes, hours and ledger days of always-on time that have been closed. -/
  minutes : Nat := 0
  hours : Nat := 0
  days : Nat := 0
  /-- Minutes that the channel has been Up since manufacture. -/
  upMin : Nat := 0
  samples : List Trend := []
  hourly : List TideRecord := []
  /-- Hourly records of the present ledger day. -/
  today : List TideRecord := []
  daily : List TideRecord := []
  dailySeq : BitVec 32 := 0
  /-- The beginning-of-life record (R383). -/
  bol : Option TideRecord := none
  /-- The receive half of the loading request that AUTONOMY 1 has stored (16 R380). -/
  proposal : Option (List Word) := none
  /-- The shortfall in force: its list of contexts. -/
  shortfall : Option (List Nat) := none
  limits : BitVec 6 := 0
  surplusH : Nat := 0
  sPlan : Nat := 0
  daysToZero : Option Nat := none
  replans : BitVec 32 := 0
  proposals : BitVec 32 := 0
  shortfalls : BitVec 32 := 0
  deriving DecidableEq, Repr

/-! ### Mask generators (07 R143, R144) -/

/-- A mask generator: an entropy failure episode, the working state of its CTR_DRBG, and when the next reseed falls due,
always-on ns. The masks drawn from it leave it nowhere (log 137). -/
structure MaskGen where
  failing : Bool := false
  key : BitVec 256 := 0
  v : BitVec 128 := 0
  due : Nat := 1000000000
  deriving DecidableEq, Repr

/-! ### The channel -/

/-- One channel (01 R10, 02 to 18). -/
structure Channel where
  pw : Power := {}
  bu : Bringup := {}
  kp : Kapra := {}
  tribs : Sparse Trib := []
  sl : Slots := {}
  cx : Sparse Cipher := []
  tf : TxFrame := {}
  rf : RxFrame := {}
  fec : Fec := {}
  ld : Loading := {}
  rx : Receiver := {}
  cal : Cal := {}
  opt : Optics := {}
  cap : Capture := {}
  pm : P2mp := {}
  age : Ageing := {}
  /-- A member of a concatenated group is out of window (06 R136). -/
  outOfWindow : Bool := false
  /-- Transmit profile, and receive profile with window ceiling, by which the figures of group tributaries were last restated; at
  reset, those of the FEC and bring-up registers. -/
  saidTx : Bool := false
  saidRx : Bool × Nat := (false, ({} : Bringup).params.cdCeil)
  /-- The line mask generator (07 R143). -/
  mask : MaskGen := {}
  /-- CHAN_HOLD (14 R347). -/
  hold : Bool := false
  /-- The channel keeper is restarting after a trap (17 R396). -/
  keeperDown : Bool := false
  /-- FW_VERSION of the image whose keeper code the channel keeper runs (20 R445). -/
  keeperVer : Option (BitVec 32) := none
  deriving DecidableEq, Repr

end Sys2Proof.Machine
end

