-- ==== Sys2Proof/Machine/ModuleState.lean ====
section
/-! DEFINITION. The state of the common section: concatenated groups, the timing core, the monitor converters, the
SRAMs and their protection, the job engine, security and firmware, the shore chain, supply, boot and cold plate.
A field's default is its reset value. -/

namespace Sys2Proof.Machine

/-! ### Concatenated groups (06) -/

/-- What one member has received of group frame (count, frame) and the skew buffer holds (06 R135): its tributary parts, at the
anchor what the next overhead said of the frame, by LOCAL index, unless that overhead was damaged, and the frame's release
point, always-on ns. -/
structure GroupPart where
  chan : Nat
  count : BitVec 32
  frame : Nat
  tribs : List HeldTrib
  tails : Option (List (Nat × Carried))
  due : Nat
  deriving DecidableEq, Repr

/-- A concatenated group (06 R133 to R138). -/
structure Group where
  /-- Member mask; 0: the group number is free. -/
  members : BitVec 32 := 0
  /-- Skew budget, ns. -/
  budget : Nat := 0
  /-- Group multiframe count. -/
  mfc : BitVec 32 := 0
  /-- Arrival of each member's frames in ns, by channel, against the earliest arrival of the last alignment (R135). -/
  skews : Sparse Int := []
  /-- Members whose group marker is as it must be (08 R181), by channel. -/
  marked : BitVec 32 := 0
  /-- A release point is in force (R136). -/
  aligned : Bool := false
  /-- The skew buffer, oldest first, and the group frame released last. -/
  parts : List GroupPart := []
  last : Option (BitVec 32 × Nat) := none
  deriving DecidableEq, Repr

/-! ### The timing core (14) -/

/-- Timing core states (14 R329), in the order of their codes. -/
inductive CoreState | freeRun | acquiring | locked | holdover
  deriving DecidableEq, Repr

/-- Qualification of an active candidate (14 R334, R335). -/
inductive CandQual | qualifying | qualified | disqualified
  deriving DecidableEq, Repr

/-- One candidate slot (14 R330 to R335). -/
structure Cand where
  enable : Bool := false
  src : Nat := 0
  chan : Nat := 0
  freq : Nat := 0
  prio : Nat := 0
  quality : Nat := 0
  lockout : Bool := false
  tol : Nat := 0
  driftThr : Nat := 0
  qualTime : Nat := 0
  active : Bool := false
  qual : CandQual := .qualifying
  /-- Seconds of consecutive passes of both undertow tests. -/
  passS : Nat := 0
  /-- First failing second E of an open hold-off, and whether the drift test failed. -/
  pending : Option (Nat × Bool) := none
  /-- The latest evaluation found that the tests have been passed for long enough, and that they still failed HOLDOFF seconds
  after the first failing one, with whether the drift test did (R334, R335). -/
  passed : Bool := false
  expired : Option Bool := none
  cause : Nat := 0
  rel : Bool := false
  /-- DRIFT, 0.01 ppb/h. -/
  drift : Int := 0
  ofs : Int := 0
  /-- The last 3,600 one-second offsets with their seconds, newest first. -/
  hist : List (Nat × Int) := []
  /-- The second in which the slot's present candidate was set (R332, R340). -/
  since : Nat := 0
  deriving DecidableEq, Repr

/-- One second of the loop history (14 R340). -/
structure LoopSample where
  second : Nat
  ctrl : Int
  slot : Nat
  locked : Bool
  tainted : Bool := false
  deriving DecidableEq, Repr

/-- The timing core (14 R329 to R345). -/
structure Timing where
  state : CoreState := .freeRun
  ctrl : Int := 0
  hoValue : Int := 0
  hoStart : Nat := 0
  hoEnd : Nat := 0
  hoShort : Bool := false
  hoNohist : Bool := false
  /-- A holdover has been entered since OSC_WARM, so HO_VALUE may be kept (R341). -/
  hoHeld : Bool := false
  selected : Option Nat := none
  /-- Bandwidth code in use; outside Acquiring and Locked the last one used (log 14). -/
  bwNow : Nat := 2
  /-- When the present wait of 5/B ends, and when Acquiring was entered, always-on ns. -/
  bwDue : Nat := 0
  acqNs : Nat := 0
  oscWarm : Bool := false
  hoGrade : Bool := false
  lockedS : Nat := 0
  ageing : Int := 0
  /-- Daily means of LOOP_CTRL over the seconds in Locked with their days, newest first, at most 30. -/
  daily : List (Nat × Rat) := []
  /-- Sum and number of the locked seconds of the present day. -/
  dayCtrl : Int := 0
  dayN : Nat := 0
  /-- When the present day ends, always-on second. -/
  dayDue : Nat := 86400
  /-- The state was Locked throughout the present second (R340). -/
  lockedAll : Bool := false
  /-- The state was Acquiring or Locked at some instant of the present second, so its mean is measured (R340). -/
  steered : Bool := false
  /-- UT_WIN as the last evaluation took it (R352). -/
  utWinUsed : Nat := 600
  /-- When the present second ends, always-on ns. -/
  secDue : Nat := 1000000000
  /-- How far the system clock has run ahead of the oscillator by the last second's end, 10^-6 ns, and LOOP_CTRL's mean over that
  second (R329). -/
  lead : Int := 0
  lastMean : Int := 0
  bw : Nat := 2
  revert : Bool := true
  hoWin : Nat := 600
  guard : Nat := 60
  utWin : Nat := 600
  holdoff : Nat := 60
  cands : Sparse Cand := []
  history : List LoopSample := []
  deriving DecidableEq, Repr

/-! ### Monitor converters (15) -/

/-- A decimated sample: the time of its last conversion, its value, none when not all of its conversions were made, whether one of
them fell in a test, and whether it has UNCAL, CLIP and SETTLING (15 R360, R361, R365, R368). -/
structure DecSample where
  time : Nat
  value : Option Rat
  test : Bool := false
  uncal : Bool
  clip : Bool
  settling : Bool
  deriving DecidableEq, Repr

/-- One input's filter chain (15 R358, R364 to R368). -/
structure Filter where
  resample : Bool := false
  settle : Bool := true
  dcb : Bool := false
  dcbK : Nat := 12
  rM1 : Nat := 0
  phaseDly : Nat := 0
  /-- None: the factory coefficient set. -/
  coef : Option (List Int) := none
  running : Bool := false
  frozen : Bool := false
  /-- Freezes and unfreezes of the DC block with their instants, newest first (R364). -/
  freezes : List (Nat × Bool) := []
  /-- The DC estimate; none before the first sample. -/
  m : Option Rat := none
  /-- The number of its next sample on the grid of passes, and the sample before it (R358, R359). -/
  next : Nat := 0
  prev : Option Rat := none
  /-- Tests of the input since the filter was started, from and until when it received no sample, always-on ns (R363, R368). -/
  tests : List (Nat × Nat) := []
  /-- When the filter started or restarted last, and whether that was a restart (R362, R368, R372). -/
  from_ : Nat := 0
  restarted : Bool := false
  /-- Decimated samples, newest first, at most 24, and the instant last reported (R366). -/
  dec : List DecSample := []
  reported : Option Nat := none
  /-- Last value written without STALE. -/
  last : Option (BitVec 32) := none
  rseq : BitVec 32 := 0
  deriving DecidableEq, Repr

/-- A MON_TEST in progress: its command, and when the DAC was connected (15 R363). -/
structure MonTest where
  id : Nat
  input : Nat
  code : Nat
  count : Nat
  start : Nat
  /-- When the valid conversions began that it took under an earlier scan list. -/
  taken : List Nat := []
  deriving DecidableEq, Repr

/-- An urgent request: the MON_READ that made it, its input, when its first conversion begins, always-on ns, and how many
conversions it takes, the settling one included (15 R359). -/
structure Urgent where
  id : Option Nat
  input : Nat
  from_ : Nat
  convs : Nat
  deriving DecidableEq, Repr

/-- A monitor converter with its fast path (15 R354 to R372). -/
structure Converter where
  /-- The host's scan list: input and DWELL (R357). -/
  scan : List (Nat × Nat) := (List.range 40).map fun i => (i, if i < 8 then 1 else 2)
  /-- Reference in use: 0 internal, 1 external, 2 supply; internal after reset (DESIGN CHOICE, log 17). -/
  ref : Nat := 0
  refNs : Option Nat := none
  /-- The changes of reference with their instants, newest first (R361). -/
  refLog : List (Nat × Nat) := []
  /-- When the first pass of the present grid began, always-on ns (R356, R357, R362, R372). -/
  passNs : Nat := 0
  /-- Pairs set by self-calibration: offset in 1/16 code and gain in 2^-24; the others are the factory's. -/
  pairs : Sparse (Int × Nat) := []
  /-- A self-calibration in progress: its command and start, always-on ns. -/
  selfcal : Option (Nat × Nat) := none
  test : Option MonTest := none
  /-- Urgent requests, newest first. -/
  urgents : List Urgent := []
  movedOff : Bool := false
  skipped : BitVec 32 := 0
  records : BitVec 32 := 0
  /-- The circular buffer's records, newest first, at most 16,384. -/
  buffer : List (List Word) := []
  filters : Sparse Filter := []
  /-- Tideline rings bound to each input, in the order of binding. -/
  binds : Sparse (List Nat) := []
  /-- None: the factory LOS_CODE. -/
  losCode : Option Nat := none
  los : Bool := false
  deriving DecidableEq, Repr

/-! ### Memory (17) -/

/-- A reef log entry (17, table of MEM_REEF_READ). -/
structure Reef where
  addr : Nat
  bit : Nat
  uncorr : Bool
  retired : Bool
  code : Bool
  count : Nat
  first : Nat
  last : Nat
  deriving DecidableEq, Repr

/-- A retired or retiring unit: its address and whether it is a bank. -/
structure Unit_ where
  addr : Nat
  bank : Bool
  deriving DecidableEq, Repr

/-- What the stored check of a word shows: nothing, one stored bit in error, 0 to 71, or an uncorrectable error (17 R387). -/
inductive Flaw | clean | single (bit : Nat) | double
  deriving DecidableEq, Repr

/-- One SRAM's protection state (17 R387 to R401). -/
structure Sram where
  /-- Words whose stored check shows an error, by address, until something writes them. -/
  bad : Sparse Flaw := []
  sweep : Nat := 3600
  /-- Offset of the next word the scrubber visits. -/
  pos : Nat := 0
  /-- Always-on time, in ns, at which the last visit was due. -/
  visitNs : Rat := 0
  passes : BitVec 32 := 0
  corrScrub : BitVec 32 := 0
  corrDemand : BitVec 32 := 0
  uncorr : BitVec 32 := 0
  falseErr : BitVec 32 := 0
  /-- Words written back: the scrubber visits left in which a correction makes them sticky (R393). -/
  watch : Sparse Nat := []
  /-- Words in which errors have been found: the second of the first one, and the corrections so far. -/
  hist : Sparse (Nat × Nat) := []
  reef : List Reef := []
  /-- Sticky words that the full log has not taken, and whether an uncorrectable error was found in them. -/
  unlogged : List (Nat × Bool) := []
  overflow : BitVec 16 := 0
  fullRaised : Bool := false
  /-- Pages for which event 0x1842 has been raised. -/
  advised : List Nat := []
  retired : List Unit_ := []
  /-- MEM_RETIREs in progress: command and unit, oldest first. -/
  retiring : List (Nat × Unit_) := []
  deriving DecidableEq, Repr

/-! ### Job engine, security and firmware (07, 20) -/

/-- A job key slot that holds a key (07 R165). -/
structure JobKey where
  key : BitVec 256
  fixed : BitVec 32
  counter : BitVec 64 := 0
  /-- Encryptions since the load (R167). -/
  used : Nat := 0
  deriving DecidableEq, Repr

/-- A crypto job in progress: the command, the key and the 96-bit value it started under, and its input bytes. -/
structure Job where
  id : Nat
  key : BitVec 256
  v : BitVec 96
  bytes : List Byte
  deriving DecidableEq, Repr

/-- A bootable image in a slot (20 R440, R441): its version, security version and measurement, and its signed header words. -/
structure Image where
  version : BitVec 32
  svn : Nat
  meas : List Byte
  deriving DecidableEq, Repr

/-- Security core and firmware state (20 R436 to R453). The slots' defaults stand for a module as it leaves the
factory: slot A holds a bootable image, slot B none (DESIGN CHOICE, log 18). -/
structure Security where
  kek : Option (BitVec 256) := none
  kekGen : BitVec 32 := 0
  slotA : Option Image := none
  slotB : Option Image := none
  /-- Running slot: B when true. -/
  runB : Bool := false
  prefB : Bool := false
  trial : Bool := false
  tried : Bool := false
  floor : Nat := 0
  ledger : List LedgerEntry := []
  ledgerWrites : List LedgerWrite := []
  /-- FW_IMAGE_WRITEs in progress: the command and the bytes it read. -/
  imageWrites : List (Nat × List Byte) := []
  /-- An FW_ACTIVATE that completes once the new image is running. -/
  activate : Option Nat := none
  /-- A trial image was reverted at this boot (event 0x1A22 once the new image has booted). -/
  reverted : Bool := false
  failing : Bool := false
  failures : BitVec 16 := 0
  lastFail : Nat := 0
  /-- The next start-up test of the source, always-on ns: the first one ends with the 4,096th raw bit at 1 Mbit/s (20 R451). -/
  testDue : Nat := 4096000
  /-- The start-up test that precedes the first output has passed. -/
  tested : Bool := false
  /-- The generator gives output, its key and V (R452), the requests since its last reseed, and when the next reseed falls due,
  always-on ns. -/
  drbg : Bool := false
  drbgKey : BitVec 256 := 0
  drbgV : BitVec 128 := 0
  requests : Nat := 0
  reseedDue : Nat := 0
  /-- The job engine's mask generator (07 R143). -/
  jobMask : MaskGen := {}
  rcvMode : Bool := false
  rcvBusy : Bool := false
  rcvErr : Nat := 0
  rcvAddr : Word := 0
  rcvLen : Nat := 0
  /-- When RCV_GO was written, always-on ns. -/
  rcvGoNs : Nat := 0
  deriving DecidableEq, Repr

/-! ### The shore chain (19) -/

/-- A queued shore frame with the SHORE_SEND it completes. -/
structure ShoreQueued where
  frame : ShoreFrame
  cmd : Option Nat := none
  deriving DecidableEq, Repr

/-- A SHORE_INV_QUERY that waits for its INV_RESP. -/
structure InvWait where
  id : Nat
  dst : Nat
  due : Nat
  deriving DecidableEq, Repr

/-- Shore chain state (19 R420 to R435). -/
structure Shore where
  address : Nat := 0
  head : Bool := false
  /-- When an address was first acquired since supply-on or module reset, always-on ns. -/
  tA : Option Nat := none
  /-- The address acquired then, which places the stagger release (R428). -/
  aA : Nat := 0
  /-- ALARM cause 5 is raised: the module lies beyond the chain's last address (R427, R430). -/
  beyond : Bool := false
  upNbr : Bool := false
  downNbr : Bool := false
  /-- A HELLO has arrived on the upshore port since supply-on. -/
  upHello : Bool := false
  /-- Last valid frame on each port, always-on ns. -/
  upSeen : Nat := 0
  downSeen : Nat := 0
  laserOff : Bool := false
  /-- End of HOLD_S, always-on ns; none: until release. -/
  holdDue : Option Nat := none
  rxBad : BitVec 32 := 0
  drop : BitVec 32 := 0
  unreach : BitVec 32 := 0
  noFw : BitVec 32 := 0
  seq : BitVec 16 := 0
  upQueue : List ShoreQueued := []
  downQueue : List ShoreQueued := []
  invWaits : List InvWait := []
  /-- ALARM causes 1 and 2 raised (R430): when each is sent again, always-on ns. Cause 1 stands while a downshore neighbour
  has been lost and not regained. -/
  alarm1 : Option Nat := none
  alarm2 : Option Nat := none
  helloDue : Nat := 40000000
  assignDue : Nat := 0
  deriving DecidableEq, Repr

/-! ### Supply, boot and cold plate (19, 22) -/

/-- Supply, boot, pins and thermal state (19 R416 to R418; 20 R442, R443; 22 R464 to R480). -/
structure Boot where
  powered : Bool := true
  /-- The lighthouse controller has booted since the last module-wide reset. -/
  booted : Bool := false
  /-- The lighthouse controller runs; false during boot, restart, and in recovery. -/
  running : Bool := false
  /-- A restart has begun: the boot rule has been applied and the image is being reloaded (20 R442). -/
  restarting : Bool := false
  /-- When the present boot or restart began, always-on ns. -/
  beganNs : Nat := 0
  /-- The end of the boot, from which stagger release counts (19 R428). -/
  bootNs : Nat := 0
  /-- Instant from which stagger release counts, always-on ns, and the release with its time in ms. -/
  originNs : Nat := 0
  released : Bool := false
  releaseMs : Nat := 0
  /-- LASER_OFF_N is asserted; it is pulled down (22 R464). MOD_RESET_N acts as the command MOD_RESET. -/
  laserOffN : Bool := true
  /-- CFG_SPLIT as sampled at the reset; open straps give 0b11 (22 R464). -/
  cfgSplit : Nat := 3
  derating : Bool := false
  /-- A thermal shutdown has been made and T_cp has not been found at or below 50 °C since (22 R477). -/
  hot : Bool := false
  deriving DecidableEq, Repr

end Sys2Proof.Machine
end

