-- ==== Sys2Proof/Machine/State.lean ====
section
/-! DEFINITION. The state of the module, its value right after the power-on reset, and the reasons for which a step can
stop. Every numbered collection is a `Sparse` map whose unlisted entries stand at their reset values. -/

namespace Sys2Proof.Machine

/-- Faults. No command of this module ends in one. -/
inductive Fault
  /-- Raised by nobody: the spec describes an outcome for every command (safe). -/
  | none
  deriving DecidableEq, Repr

/-- Refusals. -/
inductive Refusal
  /-- Raised by `exec` for a row of the command table that has no meaning in the model (safe: no run goes through it). -/
  | notModelled (mnemonic : String)
  deriving DecidableEq, Repr

/-- The whole module. A field's default is its reset value. -/
structure State where
  /-- Always-on time in ns (18 R413); the fields TIME_US and TIME_S are taken from it. -/
  now : Nat := 0
  boot : Boot := {}
  sec : Security := {}
  shore : Shore := {}
  tm : Timing := {}
  /-- Module powered hours (00 R493), and the always-on ns at which the next hour is whole. -/
  powerHours : Nat := 0
  hourDue : Nat := 3600000000000
  channels : Sparse Channel := []
  groups : Sparse Group := []
  /-- Monitor converters 0 to 31 of the channels and 32 of the common section. -/
  convs : Sparse Converter := []
  /-- SRAMs 0 to 31 of the channels and 32 of the common section. -/
  srams : Sparse Sram := []
  /-- Contents of the host window (17 R386), by byte address; an unlisted byte is unwritten. -/
  mem : List Host.Cell := []
  /-- WRITTEN bits of the host window's 4 KiB pages (17 R389), by page of the address space. -/
  written : Sparse Bool := []
  /-- Retirement list in flash (17 R398), oldest first: address, bank, powered hours. -/
  retireList : List (Nat × Bool × Nat) := []
  jobKeys : Sparse JobKey := []
  jobs : List Job := []
  /-- Bytes read by MEM_COPY_IN commands in progress. -/
  copyIns : Sparse (List Byte) := []
  links : Sparse Link := []
  rings : Sparse Ring := []
  part : Partition := {}
  flights : List Flight := []
  /-- Descriptors fetched so far. -/
  nextId : Nat := 0
  /-- Events raised and not yet written, in the order of raising. -/
  batch : List Raised := []
  seen : List EventSeen := []
  /-- Begin times of the active alarm conditions, always-on µs: bit b of entry k at 32 k + b (21 R461). -/
  since : Sparse Nat := []
  /-- Low water (18 R414): its start in always-on seconds, and the start that event 0x1924 is still to report. -/
  lowWater : Option Nat := some 0
  lowReport : Option Nat := none
  /-- What has left the block at its interfaces, newest first. -/
  out : List Output := []
  /-- The model's own counter, to which free values are applied (DESIGN CHOICE, log 1). -/
  free : Nat := 0
  /-- Commands that wait, first in first out. -/
  pending : List Instr := []
  deriving DecidableEq, Repr

/-- Security at a power-on reset of a module as it leaves the factory: the identity key's ledger entry (20 R436) and a
bootable image in slot A (DESIGN CHOICE, log 18). -/
def Security.atReset : Security :=
  { slotA := some { version := Config.factoryVersion, svn := Config.factorySvn,
                    meas := beBytes 32 Config.factoryMeas.toNat }
    ledger := [{ typ := 1, seq := 1, link := 0, primary := 0, powerH := 0,
                 w1 := BitVec.ofNat 64 keyDigest, w2 := BitVec.ofNat 64 (keyDigest / 2 ^ 64)
                 w3 := BitVec.ofNat 64 (keyDigest / 2 ^ 128) }] }

/-- The module right after the power-on reset: supply on, not booted, every channel Dark, no link trained, the factory
partition record (19 R416, R418; 03 R45), and no command waiting. -/
def State.reset : State := { sec := Security.atReset }

end Sys2Proof.Machine
end

