-- ==== Sys2Proof/Machine/Flags.lean ====
section
/-! DEFINITION. Access to the numbered collections of State, the roles of links, and the flags that are computed from
the rest of the state: whether a channel is Up, whether its output is blanked, and the alarm conditions (21 R461) with
their begin times. -/

namespace Sys2Proof.Machine

/-! ### Access to the numbered collections -/

def State.chan (s : State) (c : Nat) : Channel := s.channels.get {} c
def State.setChan (s : State) (c : Nat) (x : Channel) : State := { s with channels := s.channels.insert c x }
/-- Channel c changed by a function. -/
def State.onChan (s : State) (c : Nat) (g : Channel → Channel) : State := s.setChan c (g (s.chan c))
def State.ring (s : State) (r : Nat) : Ring := s.rings.get {} r
def State.setRing (s : State) (r : Nat) (x : Ring) : State := { s with rings := s.rings.insert r x }
def State.onRing (s : State) (r : Nat) (g : Ring → Ring) : State := s.setRing r (g (s.ring r))
def State.link (s : State) (n : Nat) : Link := s.links.get {} n
def State.setLink (s : State) (n : Nat) (x : Link) : State := { s with links := s.links.insert n x }
def State.onLink (s : State) (n : Nat) (g : Link → Link) : State := s.setLink n (g (s.link n))
def State.conv (s : State) (k : Nat) : Converter := s.convs.get {} k
def State.setConv (s : State) (k : Nat) (x : Converter) : State := { s with convs := s.convs.insert k x }
def State.onConv (s : State) (k : Nat) (g : Converter → Converter) : State := s.setConv k (g (s.conv k))
def State.sram (s : State) (k : Nat) : Sram := s.srams.get {} k
def State.setSram (s : State) (k : Nat) (x : Sram) : State := { s with srams := s.srams.insert k x }
def State.onSram (s : State) (k : Nat) (g : Sram → Sram) : State := s.setSram k (g (s.sram k))
def State.group (s : State) (g : Nat) : Group := s.groups.get {} g
def State.setGroup (s : State) (g : Nat) (x : Group) : State := { s with groups := s.groups.insert g x }

/-- Tributary context i (0 to 3,071, R16) lies in the block of channel i / 96. -/
def Channel.trib (ch : Channel) (l : Nat) : Trib := ch.tribs.get {} l
def Channel.setTrib (ch : Channel) (l : Nat) (t : Trib) : Channel := { ch with tribs := ch.tribs.insert l t }
def Channel.cipher (ch : Channel) (l : Nat) : Cipher := ch.cx.get {} l
def Channel.setCipher (ch : Channel) (l : Nat) (x : Cipher) : Channel := { ch with cx := ch.cx.insert l x }
def State.trib (s : State) (i : Nat) : Trib := (s.chan (i / 96)).trib (i % 96)
def State.setTrib (s : State) (i : Nat) (t : Trib) : State := s.onChan (i / 96) fun ch => ch.setTrib (i % 96) t

/-- The entry of channel c in the partition record in force (03 R47). -/
def State.entry (s : State) (c : Nat) : PartEntry := s.part.entries.get {} c

/-- Always-on microseconds and seconds. -/
def State.us (s : State) : Nat := s.now / 1000
def State.sec' (s : State) : Nat := s.now / 1000000000

/-! ### Partition and roles (03 R42 to R46) -/

/-- Links that exist under the sampled split (R35). -/
def splitLinks : Nat → Nat
  | 0 => 4 | 1 => 3 | 2 => 2 | _ => 1
def State.linkPresent (s : State) (n : Nat) : Bool := n < splitLinks s.boot.cfgSplit

/-- The link that acts as primary (R46). -/
def State.primary (s : State) : Nat := if s.linkPresent s.part.primary then s.part.primary else 0
def State.owns (s : State) (n c : Nat) : Bool := (s.entry c).owner = n
def State.observes (s : State) (n c : Nat) : Bool := (s.entry c).observe.toNat.testBit n
/-- POS_ORPHAN (R46). -/
def State.orphaned (s : State) : Bool := (List.range 32).any fun c => !s.linkPresent (s.entry c).owner

/-! ### Channel flags -/

/-- Levels that carry traffic (18 R403). -/
def Level.carries : Level → Bool
  | .spring | .mean | .neap => true
  | .slack | .dark => false

/-- The channel is Up, at a level that carries traffic. -/
def Channel.awake (ch : Channel) : Bool := ch.bu.step = 4 && ch.pw.level.carries

/-- Shutdown causes 1 to 6 active or latched, as bits 0 to 5 (12 R293). -/
def State.causes (s : State) (c : Nat) : BitVec 6 :=
  (s.chan c).opt.latched ||| BitVec.ofNat 6 (bitOf s.boot.laserOffN + 2 * bitOf s.shore.laserOff)

/-- The transmit output is blanked (12 R293), or stays so until the channel keeper runs (22 R479). -/
def State.blanked (s : State) (c : Nat) : Bool := s.causes c ≠ 0 || (s.chan c).opt.held

/-- A context with CIPHER 1 sends no ciphertext: it has no current key, its key is exhausted, or the two ends' END values
are equal (07 R147, R160). -/
def Cipher.keyless (x : Cipher) : Bool :=
  match x.current with
  | some _ => x.conflict || (0 < x.useLimit && x.useLimit * 65536 ≤ x.curFrames)
  | none => true

/-! ### Events (04 R73, 21 R458) -/

/-- MFC of an event of a source: the transmit multiframe count while the channel sends frames, else 0. -/
def State.eventMfc (s : State) (source : Nat) : BitVec 32 :=
  if source < 32 && (s.chan source).tf.sending then (s.chan source).tf.mfc else 0

/-- An event is raised and gathered until its microsecond has ended (R458). -/
def State.raise (s : State) (source code sev : Nat) (d0 : Word := 0) (d1 : BitVec 32 := 0)
    (cause : Option Nat := none) : State :=
  { s with batch := s.batch ++ [{ source := source, code := code, severity := sev, us := s.us, mfc := s.eventMfc source
                                  detail0 := d0, detail1 := d1, cause := cause }] }

/-! ### Loop-timed channels that hold (14 R347) -/

/-- A loop-timed channel holds while its receiver is outside state 6; a leaf is always loop-timed (13 R304). -/
def Channel.holds (ch : Channel) : Bool :=
  ch.awake && (ch.bu.timing = 1 || ch.pm.mode = .leaf) && ch.rx.state ≠ .tracking

/-- The clock of channel c's frames, line and egress (R346); a leaf's is loop-timed. -/
def State.txClock (s : State) (c : Nat) : TxClock :=
  let ch := s.chan c
  if ch.bu.timing = 1 || ch.pm.mode = .leaf then (if ch.rx.state = .tracking then .received else .held ch.rx.heldClk)
  else if ch.bu.timing = 2 then .oscillator else .system s.tm.ctrl

/-- CHAN_HOLD follows, with event 0x1648 at each change, which the channel causes. -/
def State.watchHold (s : State) : State :=
  s.channels.foldl (fun s p =>
    let h := p.2.holds
    if h = p.2.hold then s
    else (s.onChan p.1 fun ch => { ch with hold := h }).raise 32 0x1648 2 (mkWord [(0, 5, p.1), (5, 1, bitOf h)]) 0 (some p.1)) s

/-! ### Alarm conditions (21 R461) -/

/-- A leaf has a number and timing of its own (13 R313, VALID). -/
def Leaf.assigned (x : Leaf) : Bool := x.state = .ranging || x.state = .active || x.state = .lost

/-- The frame receivers that a channel uses: its own, or at a hub those of its dedicated leaves with a number (13 R308). -/
def Channel.frameReceivers (ch : Channel) : List RxFrame :=
  if ch.pm.mode = .hub then (ch.pm.leaves.filter fun p => !p.2.burst && p.2.assigned).map fun p => p.2.rf else [ch.rf]

/-- A remote defect is raised (08 R196). -/
def Channel.remoteDefect (ch : Channel) : Bool := ch.frameReceivers.any (·.rdi)

/-- Conditions of channel c by bit; bits 1 to 13 only while it is Up at a level that carries traffic. -/
def State.channelAlarms (s : State) (c : Nat) : List Bool :=
  let ch := s.chan c
  let up := ch.awake
  [s.blanked c,
   up && ch.rx.state ≠ .tracking,
   up && ch.kp.lanes.any fun p => p.2.fault ≠ 0,
   up && ch.frameReceivers.any fun x => x.state ≠ .inFrame,
   up && 0 < ch.fec.uncorrRun,
   up && ch.frameReceivers.any fun x => 0 < x.ohRun,
   up && ch.fec.alarm,
   up && ch.ld.lqRaised,
   up && ch.remoteDefect,
   up && ch.tribs.any fun p => p.2.state = .failed,
   up && ch.cx.any fun p => 0 < p.2.failRun,
   up && ch.tribs.any fun p => p.2.cipher && (p.2.state = .carrying || p.2.state = .failed) && (ch.cipher p.1).keyless,
   up && ch.outOfWindow,
   up && ch.pm.leaves.any fun p => p.2.state = .lost,
   ch.age.shortfall.isSome,
   8 ≤ ch.cal.rxRejSeq || 8 ≤ ch.cal.txRejSeq,
   ch.bu.stopped]

/-- Conditions of the common section by bit. -/
def State.commonAlarms (s : State) : List Bool :=
  [s.tm.state = .holdover,
   s.tm.oscWarm && (s.tm.state = .freeRun || s.tm.state = .acquiring),
   s.sec.failing,
   s.shore.laserOff,
   s.boot.laserOffN,
   s.convs.any fun p => p.2.movedOff,
   s.orphaned,
   s.boot.derating,
   s.shore.alarm1.isSome,
   s.srams.any fun p => 256 ≤ p.2.reef.length,
   s.sec.trial]

/-- Levels of the bits of a channel entry and of the common entry. -/
def channelLevels : List Nat := [2, 3, 3, 4, 4, 4, 7, 7, 6, 5, 5, 5, 5, 6, 7, 7, 3]
def commonLevels : List Nat := [6, 6, 7, 1, 1, 7, 7, 1, 7, 7, 7]

/-- Conditions of entry k, 0 to 31 for the channels and 32 for the common section. -/
def State.alarms (s : State) (k : Nat) : List Bool := if k < 32 then s.channelAlarms k else s.commonAlarms

/-- The begin time of a condition follows it: set when it begins, removed when it ends. -/
def markSince (m : Sparse Nat) (key us : Nat) (holds : Bool) : Sparse Nat :=
  if holds then (if m.any (fun p => p.1 = key) then m else m.insert key us) else m.erase key

/-- Low water (18 R414): every channel is Dark and no host link is trained. -/
def State.low (s : State) : Bool :=
  (s.channels.all fun p => p.2.pw.level = .dark && p.2.bu.step = 0) && s.links.all fun p => !p.2.trained || p.2.recovery

/-- The start of low water, and once it is left the seconds spent in it, for event 0x1924. -/
def State.watchLow (s : State) : State :=
  match s.low, s.lowWater with
  | true, none => { s with lowWater := some s.sec' }
  | false, some t => { s with lowWater := none, lowReport := some (s.sec' - t) }
  | _, _ => s

/-- What follows every change: the begin times brought up to date with the conditions, bit b of entry k under the key
32 k + b, with holding channels and low water. -/
def State.remark (s : State) : State :=
  { s.watchHold.watchLow with since := (List.range 33).foldl (fun m k =>
      (s.alarms k).zipIdx.foldl (fun m p => markSince m (32 * k + p.2) s.us p.1) m) s.since }

end Sys2Proof.Machine
end

