-- ==== Sys2Proof/Machine/Ops.lean ====
section
/-! DEFINITION. The named operations over State that the meanings share: access to the numbered collections, time, free
values, the rings' bookkeeping, completion and event records, interrupts, buffers, roles, and the two forms in which a
row of the command table acts. -/

namespace Sys2Proof.Machine

/-- The outcome of a command. -/
abbrev Out := Host.Outcome State Fault Refusal

/-! ### Time and free values -/

/-- An event that falls due at a time cannot happen before it: the time becomes that of the event when it lies later. -/
def State.at (s : State) (due : Nat) : State := { s with now := max s.now due }

/-- The state with the next count of free values taken (log 1). -/
def State.draw (s : State) : State := { s with free := s.free + 1 }

/-- The k-th free value of the present count, below 2^w. -/
def State.freeVal (s : State) (k w : Nat) : Nat := Config.freeNat s.free k % 2 ^ w

/-! ### What leaves the block -/

def State.emit (s : State) (o : Output) : State := { s with out := o :: s.out }

/-! ### The two forms of a row -/

/-- A command row: the meaning acts on the fetched command `id` when it has started and carries the row's opcode;
for any other number the row cannot occur, and nothing happens (log 2). -/
def withCmd (s : State) (id op : Nat) (k : Flight → State) : Out :=
  match s.flights.find? fun f => f.id = id && f.phase = .started && f.desc.w0.bits 15 0 = op with
  | some f => .next (k f).remark
  | none => .next s

/-- As `withCmd` for one of several rows that share an opcode: the descriptor says which. -/
def withCmdIf (s : State) (id op : Nat) (p : Desc → Bool) (k : Flight → State) : Out :=
  match s.flights.find? fun f => f.id = id && f.phase = .started && f.desc.w0.bits 15 0 = op && p f.desc with
  | some f => .next (k f).remark
  | none => .next s

/-- An event row: it acts when it can occur in this state, else nothing happens (log 2). -/
def occurs (s : State) (p : Bool) (k : State) : Out := .next (if p then k.remark else s)

/-- An event row that needs a value of the state in order to occur. -/
def occursWith {α : Type} (s : State) (o : Option α) (k : α → State) : Out :=
  .next (match o with | some x => (k x).remark | none => s)

/-! ### Descriptor fields (04 R68) -/

def Desc.opcode (d : Desc) : Nat := d.w0.bits 15 0
def Desc.target (d : Desc) : Nat := d.w0.bits 21 16
def Desc.fence (d : Desc) : Bool := d.w0.bit 22
def Desc.solicit (d : Desc) : Bool := d.w0.bit 23
def Desc.tag (d : Desc) : BitVec 32 := BitVec.ofNat 32 (d.w0.bits 63 32)
def Desc.bufAddr (d : Desc) : Word := d.w1
def Desc.bufLen (d : Desc) : Nat := d.w2.bits 31 0
def Desc.paramA (d : Desc) : Nat := d.w2.bits 63 32
def Desc.p0 (d : Desc) : Word := d.w3
def Desc.p1 (d : Desc) : Word := d.w4
def Desc.p2 (d : Desc) : Word := d.w5
def Desc.p3 (d : Desc) : Word := d.w6
def Desc.p4 (d : Desc) : Word := d.w7

/-! ### Flights -/

def State.onFlight (s : State) (id : Nat) (g : Flight → Flight) : State :=
  { s with flights := s.flights.map fun f => if f.id = id then g f else f }
def State.dropFlight (s : State) (id : Nat) : State := { s with flights := s.flights.filter fun f => f.id ≠ id }
def State.flight? (s : State) (id : Nat) : Option Flight := s.flights.find? fun f => f.id = id
/-- A started command whose own operation goes on until a later step ends it. -/
def State.run (s : State) (f : Flight) : State := s.onFlight f.id fun g => { g with phase := .running }

/-! ### Rings (04) -/

/-- Entries of a ring (04, RING_CFG_r). -/
def Ring.entries (r : Ring) : Nat := 64 * 2 ^ r.size

/-- The block of ring r: channel 0 to 31, or 32 for the common block (R16). -/
def ringBlock (r : Nat) : Nat := if r < 49152 then r / 1536 else 32

def RingKind.ofCode : Nat → RingKind
  | 0 => .command | 1 => .completion | 2 => .event | 3 => .tideline
  | 4 => .capture | 5 => .cryptoJob | 6 => .ohmSend | _ => .ohmReceive
def RingKind.code : RingKind → Nat
  | .command => 0 | .completion => 1 | .event => 2 | .tideline => 3
  | .capture => 4 | .cryptoJob => 5 | .ohmSend => 6 | .ohmReceive => 7
/-- Kinds whose entries the host writes (R56). -/
def RingKind.hostMade : RingKind → Bool
  | .completion | .event | .tideline => false
  | _ => true
/-- Kinds on which descriptors post buffers (R67). -/
def RingKind.posting : RingKind → Bool
  | .capture | .ohmReceive => true
  | _ => false

/-- Entries of a module-produced ring that can take a record (R65, R74). -/
def Ring.room (r : Ring) : Nat := r.entries - 1 - r.unread - r.reserved

/-- RING_BUSY (04): enabled, or a fetched descriptor or its record is still to end. -/
def State.ringBusy (s : State) (r : Nat) : Bool :=
  (s.ring r).en || 0 < (s.ring r).reserved || s.flights.any (fun f => f.ring = r) ||
    (List.range 4).any fun n => (s.link n).deferred.any fun d => d.record.ring = r

/-- RING_HEAD: the next descriptor to fetch, or the next record to write. -/
def Ring.headIndex (r : Ring) : Nat := if r.kind.hostMade then r.head else r.written % r.entries

/-- RING_BASE_r and RING_CFG_r as they read (04). -/
def Ring.baseWord (r : Ring) : Word := mkWord [(12, 52, r.addr.toNat)]
def State.cfgWord (s : State) (n : Nat) : Word :=
  let r := s.ring n
  mkWord [(0, 1, bitOf r.en), (1, 3, r.kind.code), (4, 4, r.size), (8, 16, r.cq), (24, 11, r.vec),
    (35, 1, bitOf (s.ringBusy n)), (36, 1, bitOf r.halted), (37, 3, r.err), (40, 16, r.headIndex),
    (56, 4, r.modCnt), (60, 4, r.modTime)]

/-! ### Interrupts (04 R75) -/

/-- Vector v of link n is signalled: an MSI-X message, or its pending bit while masked. -/
def State.msix (s : State) (n v : Nat) : State :=
  if ((s.link n).msix.get {} v).masked then
    s.onLink n fun l => { l with msix := l.msix.insert v { l.msix.get {} v with pending := true } }
  else s.emit (.interrupt n v)

/-- A module-produced ring raises its interrupt, which resets its count. -/
def State.signal (s : State) (r : Nat) : State :=
  (s.onRing r fun x => { x with unsignalled := 0, modDue := none }).msix (s.ring r).owner (s.ring r).vec

/-- The bookkeeping of one record written to a module-produced ring, with the interrupt when it is due (R75). -/
def State.wrote (s : State) (r : Nat) (now' : Bool) : State :=
  let x := s.ring r
  let s := s.setRing r { x with
    written := x.written + 1, unread := x.unread + 1, moved := x.moved + 1, unsignalled := x.unsignalled + 1
    modDue := some (x.modDue.getD (s.now + 2 ^ x.modTime * 1000)) }
  if now' || 2 ^ x.modCnt ≤ x.unsignalled + 1 then s.signal r else s

/-- PHASE of the next record of a ring (R72): 1 in the first pass, alternating. -/
def Ring.phaseNext (r : Ring) : Bool := r.written / r.entries % 2 = 0

/-! ### Completion records (04 R72) -/

/-- Host address of entry k of a ring with entries of 32 bytes (R56). -/
def Ring.entryAddr (r : Ring) (k : Nat) : Word := mkWord [(12, 52, r.addr.toNat)] + BitVec.ofNat 64 (32 * k)

/-- One record less is owed to a completion ring; with the last one a ring that drains is done (03 R50). -/
def Ring.paid (x : Ring) : Ring := { x with reserved := x.reserved - 1, draining := x.draining && 1 < x.reserved }

/-- A completion record goes into its completion ring, unless that ring is disabled and owes no records or has halted for
another cause than the link-down limit (03 R50; R33, R38, R78). -/
def State.writeCompletion (s : State) (cq : Nat) (c : Completion) (solicit : Bool) : State :=
  let x := s.ring cq
  if (x.en || x.draining) && (!x.halted || x.limitHalt) then
    let c := { c with phase := x.phaseNext, fetchHead := (s.ring c.ring).head }
    ((s.setRing cq x.paid).emit
      (.record x.owner (x.entryAddr (x.written % x.entries)) (wordsBytes c.words))).wrote cq solicit
  else s.setRing cq x.paid

/-- The record of a command, with free values in the result words that its chapter does not define (log 1). -/
def State.record (s : State) (f : Flight) (st : Nat) (r0 r1 r2 : Option Nat) : Completion :=
  { tag := f.desc.tag, opcode := f.desc.opcode, status := st, target := f.desc.target, phase := true, ring := f.ring
    descIndex := f.index, result0 := BitVec.ofNat 32 (r0.getD (s.freeVal 0 32))
    result1 := BitVec.ofNat 64 (r1.getD (s.freeVal 1 64)), fetchHead := 0
    result2 := BitVec.ofNat 32 (r2.getD (s.freeVal 2 32)) }

/-- A command ends with a status: its flight goes, and its completion is written, or kept until its link is up again
(21 R459), or not written at all after a function-level reset (03 R38). -/
def State.finish (s : State) (f : Flight) (st : Nat) (r0 r1 r2 : Option Nat := none) : State :=
  let rcd := s.record f (if f.limited then 0x0A else st) r0 r1 r2
  let s := (s.dropFlight f.id).draw
  let cq := (s.ring f.ring).cq
  if f.orphan then s
  else if (s.link f.link).recovery then
    s.onLink f.link fun l => { l with deferred := l.deferred ++ [{ cq := cq, record := rcd, solicit := f.desc.solicit }] }
  else s.writeCompletion cq rcd f.desc.solicit

/-- The commands with given numbers end with a status. -/
def State.finishAll (s : State) (ids : List Nat) (st : Nat) : State :=
  ids.foldl (fun s id => match s.flight? id with | some f => s.finish f st | none => s) s

/-- As `finish` for a command that may be gone. -/
def State.finishId (s : State) (id : Nat) (st : Nat) (r0 r1 r2 : Option Nat := none) : State :=
  match s.flight? id with | some f => s.finish f st r0 r1 r2 | none => s

def State.finishOpt (s : State) (id : Option Nat) (st : Nat) (r0 r1 r2 : Option Nat := none) : State :=
  match id with | some i => s.finishId i st r0 r1 r2 | none => s

/-! ### Buffers (04 R70) -/

/-- Bytes are written into a command's buffer at an offset, cut at BUF_LEN; nothing leaves on a link whose DMA a
function-level reset has stopped (03 R38). -/
def State.writeBuf (s : State) (f : Flight) (off : Nat) (bytes : List Byte) : State :=
  if f.orphan then s else s.emit (.buffer f.link f.desc.bufAddr off (bytes.take (f.desc.bufLen - off)))

/-- Bytes are written to another host address that the descriptor names. -/
def State.writeAt (s : State) (f : Flight) (addr : Word) (bytes : List Byte) : State :=
  if f.orphan then s else s.emit (.buffer f.link addr 0 bytes)

/-- A command writes words to its buffer and completes with 0x00. -/
def State.answer (s : State) (f : Flight) (ws : List Word) (r0 r1 r2 : Option Nat := none) : State :=
  (s.writeBuf f 0 (wordsBytes ws)).finish f 0 r0 r1 r2

/-- A command writes a list whose length the state gives: a buffer too short for it is refused (R70). -/
def State.answerBytes (s : State) (f : Flight) (bytes : List Byte) : State :=
  if f.desc.bufLen < bytes.length then s.finish f 0x01 else (s.writeBuf f 0 bytes).finish f 0

/-! ### Deadlines (02 R31, R32) -/

/-- LNK_DOWN_LIMIT in ns. -/
def Link.limitNs (l : Link) : Nat := l.downLimit * 10000000

/-- The deadline of a command with the pauses already taken, that of a recovery still running included (R31). -/
def State.deadline (s : State) (f : Flight) : Option Nat :=
  let l := s.link f.link
  f.deadline.map fun d => if l.recovery then d + min (s.now - l.recoveryFrom) (l.limitNs - f.paused) else d

/-! ### Partition and roles (03 R42 to R46) -/

/-- The rings a link may enable in a block (R43). -/
def State.mayEnable (s : State) (n block : Nat) (k : RingKind) : Bool :=
  let plain := k = .command || k = .completion || k = .event || k = .tideline
  if block < 32 then s.owns n block || (s.observes n block && (plain || k = .capture))
  else s.primary = n || plain

/-- The links whose event rings in a block receive its events (R73). -/
def State.hearsEvents (s : State) (n source : Nat) : Bool := 32 ≤ source || s.owns n source || s.observes n source

/-! ### Halting and disabling rings (04 R77, R78) -/

/-- Buffers posted on a ring and not yet filled complete with a status. -/
def State.flushPosted (s : State) (r st : Nat) : State :=
  let ids := (s.ring r).posted
  (s.onRing r fun x => { x with posted := [] }).finishAll ids st

/-- Ring r halts for a cause and event 0x0102 is raised. Posted buffers complete as on a disable; the jobs of a crypto job
ring run on, since 07 R170 ends them at a disable only (DEDUCED, log 108). -/
def State.haltRing (s : State) (r cause : Nat) : State :=
  if (s.ring r).en && !(s.ring r).halted then
    ((s.onRing r fun x => { x with halted := true }).raise (ringBlock r) 0x0102 3 (mkWord [(0, 16, r), (16, 8, cause)])
      ).flushPosted r 0x06
  else s

/-- Crypto jobs that have not issued their first input read complete with 0x06 (07 R170). -/
def State.dropJobs (s : State) (p : Flight → Bool) : State :=
  s.finishAll ((s.flights.filter fun f => f.desc.w0.bits 15 0 = 0x1230 && f.phase ≠ .running && p f).map (·.id)) 0x06

/-- Capture data undelivered when its ring is disabled is discarded (12 R298). -/
def State.dropCapture (s : State) (r : Nat) : State :=
  if r < 49152 then s.onChan (ringBlock r) fun ch => { ch with cap := { ch.cap with
    taken := ch.cap.taken.filter fun d => d.arm.ring ≠ r } } else s

/-- Ring r stops fetching or recording; its posted buffers complete with 0x06 (R77). -/
def State.stopRing (s : State) (r : Nat) : State :=
  ((s.onRing r fun x => { x with en := false }).flushPosted r 0x06).dropCapture r

/-- A disable by the host also ends the jobs of a crypto job ring that have not started, with 0x06 (R77; 07 R170). -/
def State.disableRing (s : State) (r : Nat) : State := (s.stopRing r).dropJobs fun f => f.ring = r

/-- The numbers of the rings that satisfy a condition. -/
def State.ringsWhere (s : State) (p : Nat → Ring → Bool) : List Nat :=
  (s.rings.filter fun q => p q.1 q.2).map Prod.fst

/-! ### Tideline and event rings that fill (04 R74) -/

/-- One event meant for a ring: dropped while no entry is free, else written with the next SEQ. -/
def State.putEvent (s : State) (r : Nat) (e : Raised) : State :=
  let x := s.ring r
  if x.room = 0 then
    s.setRing r { x with seq := x.seq + 1, lost := x.lost + 1, dropping := x.dropping + 1 }
  else
    let er : EventRec := { code := e.code, severity := e.severity, source := e.source, phase := x.phaseNext, seq := x.seq,
                            mfc := e.mfc, detail0 := e.detail0, timeUs := BitVec.ofNat 32 e.us, detail1 := e.detail1 }
    let detail := if e.code = 0x1C22 then e.detail0 else 0
    let seen : EventSeen := { source := e.source, code := e.code, detail := detail, ring := r, link := x.owner, us := e.us, seq := x.seq }
    let began (q : EventSeen) : Bool := s.since.any fun p => p.1 / 32 = q.source && p.2 = q.us
    let s := { s with seen := seen :: s.seen.filter fun q =>
                 !(q.source = e.source && q.code = e.code && q.detail = detail && q.ring = r && q.link = x.owner && !began q) }
    ((s.setRing r { x with seq := x.seq + 1 }).emit
      (.record x.owner (x.entryAddr (x.written % x.entries)) (wordsBytes er.words))).wrote r (3 ≤ e.severity)

/-- Event 0x0101 of a ring whose entries have freed, with the count of events lost (R74). -/
def State.reportLost (s : State) (r : Nat) : State :=
  let x := s.ring r
  if x.kind = .event && x.en && !x.halted && 0 < x.dropping && 0 < x.room then
    (s.setRing r { x with dropping := 0 }).putEvent r
      { source := ringBlock r, code := 0x0101, severity := 2, us := s.us, mfc := s.eventMfc (ringBlock r)
        detail0 := BitVec.ofNat 64 x.dropping, detail1 := 0 }
  else s

/-- An event goes to one event ring: 0x0101 first when entries have freed, and nothing below the ring's threshold. -/
def State.deliverEvent (s : State) (r : Nat) (e : Raised) : State :=
  let s := s.reportLost r
  let x := s.ring r
  if x.en && !x.halted && x.kind = .event && ringBlock r = e.source && s.hearsEvents x.owner e.source
      && x.threshold ≤ e.severity then s.putEvent r e else s

/-- Space has returned on a tideline ring: event 0x0105 is raised for its link's event ring of the block with the count of records
dropped (R74; 21 R458). -/
def State.reportGap (s : State) (r : Nat) : State :=
  let x := s.ring r
  if x.kind = .tideline && x.en && !x.halted && 0 < x.dropping && 0 < x.room then
    let es : List Raised := (s.ringsWhere fun n y => y.kind = .event && y.owner = x.owner && ringBlock n = ringBlock r).map fun n =>
      { source := ringBlock r, code := 0x0105, severity := 1, us := s.us, mfc := s.eventMfc (ringBlock r)
        detail0 := mkWord [(0, 16, r), (16, 32, x.dropping)], detail1 := 0, ring := some n }
    { s.setRing r { x with dropping := 0 } with batch := s.batch ++ es }
  else s

/-- A tideline record goes to a ring, or is dropped while the ring is full; the first one after a gap carries GAP (R74). -/
def State.putTideline (s : State) (r : Nat) (ws : List Word) : State :=
  let x := s.ring r
  if !x.en || x.halted || x.kind ≠ .tideline then s
  else if x.room = 0 then s.setRing r { x with lost := x.lost + 1, dropping := x.dropping + 1, gap := true }
  else
    let w0 := wd ws 0 ||| mkWord [(15, 1, bitOf x.gap), (63, 1, bitOf x.phaseNext)]
    ((s.setRing r { x with gap := false }).emit
      (.record x.owner (x.entryAddr (x.written % x.entries)) (wordsBytes (w0 :: ws.drop 1)))).wrote r false

/-- FW_VERSION of the running image. -/
def Security.runningVer (x : Security) : Option (BitVec 32) := (if x.runB then x.slotB else x.slotA).map (·.version)

end Sys2Proof.Machine
end

