-- ==== Sys2Proof/Machine/Operands.lean ====
section
/-! DEFINITION. The operand forms of the commands: for each opcode its issuer class, deadline class, the TARGETs it
accepts, the parameter bits its chapter defines and the shortest buffer it takes (02 R30; 04 R56, R68 to R71, R494; the
command catalogues of the chapters), and the checks that every command meets when it starts. -/

namespace Sys2Proof.Machine

/-- Deadline classes (02 R30). -/
inductive Cls
  | rings | hostLink | partition | trib | slotWrite | switchGroup | cipher | job | loading | bringup | profile | chanState
  | p2mp | timing | selfcal | monitor | memFill | mem | level | sleep | image | activate | security | ageing | shore | posted
  deriving DecidableEq, Repr

/-- The deadline of a class in ns, growing with the length in bytes where the table says so, every KiB or MiB begun
counting in full; a posted buffer has none (R67). -/
def Cls.ns (len : Nat) : Cls → Option Nat
  | .rings => some 10000000
  | .hostLink => some 50000000
  | .partition => some 2000000000
  | .trib => some 10000000
  | .slotWrite => some 1000000
  | .switchGroup => some 100000000
  | .cipher => some 5000000
  | .job => some (1000000 + 20000 * cdiv len 1024)
  | .loading => some 500000000
  | .bringup => some 15000000000
  | .profile => some 2000000000
  | .chanState => some 50000000
  | .p2mp => some 100000000
  | .timing => some 50000000
  | .selfcal => some 25000000
  | .monitor => some 10000000
  | .memFill => some (10000000 + 2000000 * cdiv len 1048576)
  | .mem => some 10000000
  | .level => some 5000000
  | .sleep => some 100000000
  | .image => some 120000000000
  | .activate => some 3000000000
  | .security => some 1000000000
  | .ageing => some 50000000
  | .shore => some 1000000000
  | .posted => none

/-- TARGETs an opcode accepts (R494). -/
inductive Tgt | channel | common | either
  deriving DecidableEq, Repr

/-- What the spec says of one opcode before its own rules apply. -/
structure OpInfo where
  op : Nat
  ro : Bool
  cls : Cls
  tgt : Tgt
  /-- Bits defined in PARAM_A and in PARAM_0 to PARAM_4; what is missing is reserved whole (R68). -/
  pa : Nat := 0
  ps : List Nat := []
  /-- The shortest buffer; none: the opcode's chapter defines no buffer (R70). -/
  buf : Option (Desc → Nat) := none
  /-- The length by which the deadline grows. -/
  len : Desc → Nat := fun _ => 0

/-- The mask of bits [hi:lo]. -/
def bitsMask (hi lo : Nat) : Nat := (2 ^ (hi + 1 - lo) - 1) <<< lo

def low (n : Nat) : Nat := 2 ^ n - 1

def fixedBuf (n : Nat) : Option (Desc → Nat) := some fun _ => n

/-- Rings, administration and partitions (03, 04, 21). -/
def opsRings : List OpInfo := [
  { op := 0x0100, ro := true, cls := .rings, tgt := .either },
  { op := 0x0101, ro := true, cls := .rings, tgt := .either, ps := [low 16], buf := fixedBuf 32 },
  { op := 0x0110, ro := true, cls := .rings, tgt := .either, ps := [low 19] },
  { op := 0x0120, ro := true, cls := .rings, tgt := .either, buf := fixedBuf 528 },
  { op := 0x0130, ro := true, cls := .posted, tgt := .either, buf := fixedBuf 0 },
  { op := 0x0131, ro := false, cls := .rings, tgt := .either, buf := fixedBuf 1 },
  { op := 0x0200, ro := true, cls := .hostLink, tgt := .common, buf := fixedBuf 64 },
  { op := 0x0201, ro := true, cls := .hostLink, tgt := .common, buf := fixedBuf 32 },
  { op := 0x0210, ro := false, cls := .partition, tgt := .common, buf := fixedBuf 64 }]

/-- Timing (14) and monitor (15). -/
def opsTimingMonitor : List OpInfo := [
  { op := 0x1600, ro := false, cls := .timing, tgt := .common, ps := [low 23, low 44] },
  { op := 0x1601, ro := false, cls := .timing, tgt := .common, ps := [low 53] },
  { op := 0x1602, ro := true, cls := .timing, tgt := .common, buf := fixedBuf 192 },
  { op := 0x1603, ro := true, cls := .timing, tgt := .common, buf := fixedBuf 131072 },
  { op := 0x1610, ro := false, cls := .timing, tgt := .channel, ps := [low 2] },
  { op := 0x1700, ro := false, cls := .monitor, tgt := .either, ps := [low 7], buf := some fun d => 2 * d.p0.bits 6 0 },
  { op := 0x1701, ro := false, cls := .monitor, tgt := .either, ps := [low 31, low 16],
    buf := some fun d => if d.p0.bit 30 then 2048 else 0 },
  { op := 0x1702, ro := false, cls := .monitor, tgt := .either, ps := [low 41, low 41] },
  { op := 0x1703, ro := true, cls := .monitor, tgt := .either, ps := [low 17, low 40] },
  { op := 0x1704, ro := false, cls := .monitor, tgt := .either, ps := [low 13] },
  { op := 0x1705, ro := false, cls := .monitor, tgt := .either, ps := [low 30] },
  { op := 0x1706, ro := false, cls := .monitor, tgt := .either, ps := [low 2] },
  { op := 0x1707, ro := false, cls := .selfcal, tgt := .either },
  { op := 0x1708, ro := true, cls := .monitor, tgt := .either, buf := fixedBuf 64 },
  { op := 0x1709, ro := true, cls := .monitor, tgt := .either, ps := [low 15], buf := some fun d => 32 * d.p0.bits 14 0 },
  { op := 0x170A, ro := false, cls := .monitor, tgt := .either, ps := [low 8] }]

/-- Memory (17), security and firmware (20), shore chain (19). -/
def opsModule : List OpInfo := [
  { op := 0x1800, ro := false, cls := .memFill, tgt := .common, ps := [low 32, low 32, low 64], len := fun d => d.p1.bits 31 0 },
  { op := 0x1801, ro := true, cls := .memFill, tgt := .either, ps := [low 32, low 32, low 2], len := fun d => d.p1.bits 31 0 },
  { op := 0x1802, ro := false, cls := .mem, tgt := .common, ps := [low 32, low 32], buf := some fun d => d.p1.bits 31 0 },
  { op := 0x1803, ro := true, cls := .mem, tgt := .common, ps := [low 32, low 32], buf := some fun d => d.p1.bits 31 0 },
  { op := 0x1810, ro := false, cls := .mem, tgt := .either, ps := [low 17] },
  { op := 0x1811, ro := true, cls := .mem, tgt := .either, buf := fixedBuf 64 },
  { op := 0x1812, ro := true, cls := .mem, tgt := .either, buf := fixedBuf 0 },
  { op := 0x1820, ro := false, cls := .mem, tgt := .either, ps := [low 32, low 1] },
  { op := 0x1821, ro := true, cls := .mem, tgt := .either, buf := fixedBuf 0 },
  { op := 0x1A00, ro := true, cls := .security, tgt := .common, buf := some fun _ => certificate.length },
  { op := 0x1A01, ro := true, cls := .security, tgt := .common, buf := fixedBuf 352 },
  { op := 0x1A02, ro := true, cls := .security, tgt := .common, buf := fixedBuf 32 },
  { op := 0x1A03, ro := true, cls := .security, tgt := .common, buf := fixedBuf 32 },
  { op := 0x1A04, ro := true, cls := .security, tgt := .common, buf := fixedBuf 16 },
  { op := 0x1A10, ro := false, cls := .image, tgt := .common, buf := fixedBuf 0 },
  { op := 0x1A11, ro := false, cls := .activate, tgt := .common },
  { op := 0x1A12, ro := false, cls := .security, tgt := .common },
  { op := 0x1A13, ro := false, cls := .security, tgt := .common, ps := [low 7] },
  { op := 0x1A14, ro := false, cls := .security, tgt := .common, buf := fixedBuf 196 },
  { op := 0x1C00, ro := true, cls := .shore, tgt := .common, buf := fixedBuf 32 },
  { op := 0x1C01, ro := true, cls := .shore, tgt := .common, buf := fixedBuf 64 },
  { op := 0x1C02, ro := true, cls := .shore, tgt := .common, ps := [low 11], buf := fixedBuf 64 },
  { op := 0x1C03, ro := false, cls := .shore, tgt := .common, ps := [low 11], buf := fixedBuf 1 },
  { op := 0x1C04, ro := false, cls := .shore, tgt := .common, ps := [low 11 ||| bitsMask 16 16, low 32] }]

/-- Encryption (07). -/
def opsCipher : List OpInfo := [
  { op := 0x1200, ro := false, cls := .cipher, tgt := .channel, ps := [low 12], buf := fixedBuf 64 },
  { op := 0x1201, ro := true, cls := .cipher, tgt := .channel, ps := [low 12], buf := fixedBuf 64 },
  { op := 0x1202, ro := false, cls := .cipher, tgt := .channel, ps := [low 12], buf := fixedBuf 80 },
  { op := 0x1203, ro := false, cls := .cipher, tgt := .channel, ps := [low 12] },
  { op := 0x1204, ro := false, cls := .cipher, tgt := .channel, ps := [low 13] },
  { op := 0x1205, ro := true, cls := .cipher, tgt := .channel, ps := [low 12], buf := fixedBuf 32 },
  { op := 0x1210, ro := false, cls := .cipher, tgt := .either, ps := [low 10], buf := fixedBuf 80 },
  { op := 0x1211, ro := false, cls := .cipher, tgt := .either, ps := [low 10] },
  { op := 0x1230, ro := false, cls := .job, tgt := .either, pa := bitsMask 2 0 ||| bitsMask 15 6,
    ps := [low 64, low 64, low 64, low 32], buf := fixedBuf 0, len := Desc.bufLen }]

/-- Promises, tributaries (02, 06). -/
def opsTribs : List OpInfo := [
  { op := 0x1000, ro := false, cls := .trib, tgt := .channel, ps := [low 12], buf := fixedBuf 96 },
  { op := 0x1001, ro := false, cls := .trib, tgt := .channel, ps := [low 12], buf := fixedBuf 64 },
  { op := 0x1002, ro := false, cls := .trib, tgt := .channel, ps := [low 12, low 1] },
  { op := 0x1003, ro := false, cls := .trib, tgt := .channel, ps := [low 12] },
  { op := 0x1004, ro := true, cls := .trib, tgt := .channel, ps := [low 12], buf := fixedBuf 64 },
  { op := 0x1005, ro := true, cls := .trib, tgt := .channel, ps := [low 12], buf := fixedBuf 64 },
  { op := 0x1006, ro := true, cls := .trib, tgt := .channel, buf := fixedBuf 0 },
  { op := 0x1010, ro := true, cls := .trib, tgt := .channel, ps := [low 12], buf := fixedBuf 32 },
  { op := 0x1011, ro := false, cls := .trib, tgt := .channel, ps := [low 7 ||| bitsMask 8 8],
    buf := some fun d => 2 * d.p0.bits 6 0 }]

/-- Slot table, bank switch and groups (06). -/
def opsSlots : List OpInfo := [
  { op := 0x1100, ro := false, cls := .slotWrite, tgt := .either, ps := [low 33], buf := some fun d => 2 * d.p0.bits 31 16 },
  { op := 0x1101, ro := true, cls := .slotWrite, tgt := .either, ps := [low 33], buf := some fun d => 2 * d.p0.bits 31 16 },
  { op := 0x1102, ro := false, cls := .slotWrite, tgt := .channel },
  { op := 0x1110, ro := false, cls := .switchGroup, tgt := .either, ps := [low 6 ||| bitsMask 11 8] },
  { op := 0x1111, ro := false, cls := .slotWrite, tgt := .either, ps := [low 1 ||| bitsMask 11 8, low 32] },
  { op := 0x1112, ro := true, cls := .slotWrite, tgt := .channel, buf := fixedBuf 32 },
  { op := 0x1120, ro := false, cls := .switchGroup, tgt := .common, ps := [low 3, low 32, low 15] },
  { op := 0x1121, ro := false, cls := .switchGroup, tgt := .common, ps := [low 3] },
  { op := 0x1122, ro := true, cls := .switchGroup, tgt := .common, ps := [low 3], buf := fixedBuf 80 },
  { op := 0x1123, ro := false, cls := .switchGroup, tgt := .common, ps := [low 3] }]

/-- Loading (10). -/
def opsLoading : List OpInfo := [
  { op := 0x1300, ro := false, cls := .loading, tgt := .channel, ps := [low 7], buf := fixedBuf 128 },
  { op := 0x1301, ro := true, cls := .loading, tgt := .channel, buf := fixedBuf 288 },
  { op := 0x1302, ro := true, cls := .loading, tgt := .channel, buf := fixedBuf 168 },
  { op := 0x1303, ro := true, cls := .loading, tgt := .channel, ps := [low 20], buf := fixedBuf 128 },
  { op := 0x1304, ro := false, cls := .loading, tgt := .channel, ps := [0xFF01] }]

/-- Channel state and acquisition (11), with CHAN_RESET (19). -/
def opsChannel : List OpInfo := [
  { op := 0x1400, ro := false, cls := .bringup, tgt := .channel, ps := [low 12 ||| bitsMask 25 16, low 10 ||| bitsMask 47 16],
    buf := fixedBuf 128 },
  { op := 0x1401, ro := true, cls := .chanState, tgt := .channel, buf := fixedBuf 16 },
  { op := 0x1402, ro := true, cls := .chanState, tgt := .channel, buf := fixedBuf 160 },
  { op := 0x1403, ro := false, cls := .chanState, tgt := .channel, ps := [low 10] },
  { op := 0x1404, ro := false, cls := .chanState, tgt := .channel, ps := [low 16, low 48, low 48] },
  { op := 0x1405, ro := false, cls := .chanState, tgt := .channel, ps := [low 2 ||| bitsMask 31 16] },
  { op := 0x1410, ro := false, cls := .chanState, tgt := .channel }]

/-- Kapra lanes (05). -/
def opsKapra : List OpInfo := [
  { op := 0x1440, ro := false, cls := .chanState, tgt := .channel, ps := [low 8] },
  { op := 0x1441, ro := false, cls := .chanState, tgt := .channel, ps := [low 16] },
  { op := 0x1442, ro := true, cls := .chanState, tgt := .channel, buf := fixedBuf 64 },
  { op := 0x1443, ro := true, cls := .chanState, tgt := .channel, buf := fixedBuf 128 }]

/-- The line frame (08). -/
def opsFrame : List OpInfo := [
  { op := 0x1480, ro := true, cls := .chanState, tgt := .channel, buf := fixedBuf 32 },
  { op := 0x1481, ro := true, cls := .chanState, tgt := .channel, buf := fixedBuf 64 },
  { op := 0x1482, ro := true, cls := .chanState, tgt := .channel, ps := [low 1], buf := fixedBuf 16384 }]

/-- FEC (09). -/
def opsFec : List OpInfo := [
  { op := 0x14A0, ro := false, cls := .profile, tgt := .channel, ps := [low 1 ||| bitsMask 14 8],
    buf := some fun d => if d.bufAddr = 0 then 0 else 128 },
  { op := 0x14A1, ro := true, cls := .chanState, tgt := .channel, buf := fixedBuf 32 },
  { op := 0x14A2, ro := true, cls := .chanState, tgt := .channel, buf := fixedBuf 64 },
  { op := 0x14A3, ro := false, cls := .chanState, tgt := .channel, ps := [low 48] }]

/-- Calibration (12). -/
def opsCal : List OpInfo := [
  { op := 0x14C0, ro := false, cls := .chanState, tgt := .channel, ps := [low 2 ||| bitsMask 27 16 ||| bitsMask 43 32] },
  { op := 0x14C1, ro := false, cls := .chanState, tgt := .channel, ps := [low 2] },
  { op := 0x14C2, ro := true, cls := .chanState, tgt := .channel, buf := fixedBuf 128 },
  { op := 0x14C3, ro := true, cls := .chanState, tgt := .channel, ps := [low 1], buf := fixedBuf 1064 }]

/-- Optics and capture (12). -/
def opsOptics : List OpInfo := [
  { op := 0x14C4, ro := true, cls := .chanState, tgt := .channel, buf := fixedBuf 32 },
  { op := 0x14C5, ro := true, cls := .chanState, tgt := .channel, ps := [low 41, low 32] },
  { op := 0x14C6, ro := false, cls := .chanState, tgt := .channel },
  { op := 0x14C7, ro := false, cls := .chanState, tgt := .channel }]

/-- Point-to-multipoint (13). -/
def opsP2mp : List OpInfo := [
  { op := 0x1500, ro := false, cls := .p2mp, tgt := .channel, ps := [low 2] },
  { op := 0x1501, ro := false, cls := .p2mp, tgt := .channel, buf := fixedBuf 64 },
  { op := 0x1502, ro := true, cls := .p2mp, tgt := .channel, ps := [low 6], buf := fixedBuf 64 },
  { op := 0x1503, ro := false, cls := .p2mp, tgt := .channel, ps := [low 45] },
  { op := 0x1504, ro := false, cls := .loading, tgt := .channel, ps := [low 7 ||| bitsMask 13 8], buf := fixedBuf 128 },
  { op := 0x1505, ro := true, cls := .p2mp, tgt := .channel, buf := fixedBuf 1024 },
  { op := 0x1506, ro := true, cls := .p2mp, tgt := .channel, buf := fixedBuf 32 },
  { op := 0x1507, ro := false, cls := .p2mp, tgt := .channel, ps := [low 1, low 64] }]

/-- Power levels (18). -/
def opsPower : List OpInfo := [
  { op := 0x1900, ro := false, cls := .level, tgt := .channel, ps := [low 2] },
  { op := 0x1901, ro := false, cls := .sleep, tgt := .channel, ps := [low 4, low 24] },
  { op := 0x1902, ro := true, cls := .level, tgt := .channel, buf := fixedBuf 32 },
  { op := 0x1910, ro := true, cls := .level, tgt := .common, buf := fixedBuf 32 }]

/-- Ageing (16); an AGE_LEDGER_READ needs a buffer for all the records it asks for (DESIGN CHOICE, log 153). -/
def opsAge : List OpInfo := [
  { op := 0x1B00, ro := false, cls := .ageing, tgt := .channel, ps := [low 18] },
  { op := 0x1B01, ro := true, cls := .ageing, tgt := .channel, buf := fixedBuf 32 },
  { op := 0x1B02, ro := true, cls := .ageing, tgt := .channel, ps := [low 43], buf := some fun d => 64 * d.p0.bits 41 32 },
  { op := 0x1B03, ro := true, cls := .ageing, tgt := .channel, buf := fixedBuf 128 },
  { op := 0x1B04, ro := true, cls := .ageing, tgt := .channel, buf := fixedBuf 0 }]

/-- Every opcode that a chapter defines (R71). -/
def opTable : List OpInfo :=
  opsRings ++ opsTribs ++ opsSlots ++ opsCipher ++ opsLoading ++ opsChannel ++ opsKapra ++ opsFrame ++ opsFec ++ opsCal ++
    opsOptics ++ opsP2mp ++ opsTimingMonitor ++ opsModule ++ opsPower ++ opsAge

def opInfo (op : Nat) : Option OpInfo := opTable.find? fun o => o.op = op

/-- The reserved bits of a descriptor are 0 (R68); a BANK_ARM that disarms ignores PARAM_1 (06 R140). -/
def OpInfo.reservedClear (o : OpInfo) (d : Desc) : Bool :=
  let clear (v m : Nat) : Bool := v &&& m = v
  d.w0.bits 31 24 = 0 && clear d.paramA o.pa && clear d.p0.toNat (o.ps.getD 0 0) && (clear d.p1.toNat (o.ps.getD 1 0) || (o.op = 0x1111 && !d.p0.bit 0))
    && clear d.p2.toNat (o.ps.getD 2 0) && clear d.p3.toNat (o.ps.getD 3 0) && clear d.p4.toNat (o.ps.getD 4 0)

/-- The buffer fields meet R70. -/
def OpInfo.bufferOk (o : OpInfo) (d : Desc) : Bool :=
  d.bufAddr.bits 2 0 = 0 && (d.bufAddr ≠ 0 || d.bufLen = 0) &&
    match o.buf with
    | none => d.bufAddr = 0
    | some n => n d ≤ d.bufLen

/-- The TARGET meets R69 and R494, for a descriptor from ring r. -/
def OpInfo.targetOk (o : OpInfo) (r : Nat) (d : Desc) : Bool :=
  (ringBlock r = 32 || d.target = ringBlock r) &&
    match o.tgt with
    | .channel => d.target < 32
    | .common => d.target = 32
    | .either => d.target ≤ 32

/-- Commands whose TARGET is the channel whose block holds the context of PARAM_0 [11:0] (R494). -/
def Desc.namesContext (d : Desc) : Bool :=
  d.opcode ∈ [0x1000, 0x1001, 0x1002, 0x1003, 0x1004, 0x1005, 0x1010] || (0x1200 ≤ d.opcode && d.opcode ≤ 0x1205)

/-- What R494 asks of a TARGET that the state decides: that the context named lies in its block, and that job keys of the
common section come from the primary link (07 R165). -/
def State.targetAllowed (s : State) (n : Nat) (d : Desc) : Bool :=
  (!d.namesContext || d.p0.bits 11 0 / 96 = d.target) &&
    !((d.opcode = 0x1210 || d.opcode = 0x1211) && d.target = 32 && n ≠ s.primary)

/-- The ring kind accepts the opcode (R56, R57). -/
def RingKind.accepts (k : RingKind) (op : Nat) : Bool :=
  match k with
  | .command => op ≠ 0x1230 && op ≠ 0x0130 && op ≠ 0x0131
  | .capture | .ohmReceive => op = 0x0130
  | .cryptoJob => op = 0x1230
  | .ohmSend => op = 0x0131
  | .completion | .event | .tideline => false

/-- Everything that makes a command complete with 0x01 before its issuer's rights are looked at. -/
def OpInfo.wellFormed (o : OpInfo) (k : RingKind) (r : Nat) (d : Desc) : Bool :=
  k.accepts o.op && o.targetOk r d && o.reservedClear d && o.bufferOk d

/-- The rights of R43 for a command of the ring f.ring. Commands of 0x01xx need those of their ring (R494); PART_CHANGE checks
its issuer after its record (03 R48), and slot table and group commands with TARGET 32 the channels they name (R69). -/
def State.mayRun (s : State) (f : Flight) (o : OpInfo) : Bool :=
  let n := f.link
  let c := f.desc.target
  if o.op / 256 = 1 then s.mayEnable n (ringBlock f.ring) (s.ring f.ring).kind
  else if o.op = 0x0210 || (c = 32 && o.op / 256 = 0x11) then true
  else if c < 32 then s.owns n c || (s.observes n c && o.ro)
  else s.primary = n || o.ro || o.op = 0x1800 || o.op = 0x1802

end Sys2Proof.Machine
end

