-- ==== Sys2Proof/Machine/Memory.lean ====
section
/-! DEFINITION. Memory protection, scrubbing and retirement (17), and the host window as memory: a list of cells with
strictly rising addresses, in which an unlisted address is one that nothing has written since power-on. -/

namespace Sys2Proof.Machine

/-! ### The host window as memory -/

abbrev Memory := List Host.Cell

/-- Canonical form: strictly rising addresses. An unlisted address reads as no value, so no entry can equal it. -/
def Memory.wf (m : Memory) : Bool := Sparse.rising 0 m

/-- The byte at an address; none when nothing has written it (R388, R389). -/
def Memory.read : Memory → Nat → Option Byte
  | [], _ => none
  | (k, v) :: m, a => if a = k then some v else Memory.read m a

/-- Bytes at consecutive addresses as cells. -/
def cellsAt : Nat → List Byte → Memory
  | _, [] => []
  | a, b :: bs => (a, b) :: cellsAt (a + 1) bs

/-- The memory with bytes written from an address on. -/
def Memory.write (m : Memory) (a : Nat) (bs : List Byte) : Memory :=
  m.filter (fun c => c.1 < a) ++ cellsAt a bs ++ m.filter (fun c => a + bs.length ≤ c.1)

/-- The bytes of a range as one read shows them; an unwritten one is a free value of this read (log 5). -/
def State.readMem (s : State) (a n : Nat) : List Byte :=
  (List.range n).map fun i => (Memory.read s.mem (a + i)).getD (Config.freeByte s.free i)

/-! ### The address map (R386) -/

def sramBase (k : Nat) : Nat := if k < 32 then k * 0x00A00000 else 0x14000000
def sramSize (k : Nat) : Nat := if k < 32 then 0x00A00000 else 0x03000000
def windowBase : Nat := 0x15800000
def windowPart (n : Nat) : Nat := windowBase + n * 0x00600000

/-- A range lies inside [base, base + size). -/
def inside (a len base size : Nat) : Bool := base ≤ a && a + len ≤ base + size

/-- The regions of the SRAMs (R386). -/
inductive Region
  | fecInterleave | skewBuffer | captureArea | monitorBuffer | tables | keeperCode | keeperData
  | lighthouseCode | lighthouseData | saveArea | commonMonitorBuffer | engineStore | hostWindow
  deriving DecidableEq, Repr

/-- A map of regions: the end of each as an offset, rising. -/
abbrev RegionMap := List (Nat × Region)

def channelMap : RegionMap :=
  [(0x200000, .fecInterleave), (0x600000, .skewBuffer), (0x780000, .captureArea), (0x800000, .monitorBuffer), (0x900000, .tables),
   (0x980000, .keeperCode), (0xA00000, .keeperData)]

def commonMap : RegionMap :=
  [(0x800000, .lighthouseCode), (0x1000000, .lighthouseData), (0x1400000, .saveArea), (0x1480000, .commonMonitorBuffer),
   (0x1800000, .engineStore), (0x3000000, .hostWindow)]

/-- The region of SRAM k that holds an address. -/
def regionOf (k addr : Nat) : Option Region :=
  ((if k < 32 then channelMap else commonMap).find? fun p => addr - sramBase k < p.1).map Prod.snd

/-- The word lies in a code region: keeper code of a channel, lighthouse code of common SRAM. -/
def codeRegion (k addr : Nat) : Bool := regionOf k addr = some .keeperCode || regionOf k addr = some .lighthouseCode

/-- An address in the host window whose page has WRITTEN 0. -/
def State.unwrittenPage (s : State) (addr : Nat) : Bool :=
  windowBase ≤ addr && !s.written.get false (addr / 4096)

/-! ### Check values (R400) -/

/-- One byte into a CRC register of `w` bits, most significant bit first. -/
def crcByteMsb (w poly : Nat) (r : Nat) (b : Byte) : Nat :=
  (List.range 8).foldl (fun r i =>
    let top := r.testBit (w - 1) != b.toNat.testBit (7 - i)
    let r := (r * 2) % 2 ^ w
    if top then r ^^^ poly else r) r

/-- One byte into a reflected CRC register; `rpoly` is the polynomial with its bits reversed. -/
def crcByteLsb (rpoly : Nat) (r : Nat) (b : Byte) : Nat :=
  (List.range 8).foldl (fun r i =>
    let low := r.testBit 0 != b.toNat.testBit i
    if low then (r / 2) ^^^ rpoly else r / 2) r

/-- Reflected 32-bit CRCs with initial value and final XOR of all ones. -/
def crc32With (rpoly : Nat) (bs : List Byte) : Nat := (bs.foldl (crcByteLsb rpoly) 0xFFFFFFFF) ^^^ 0xFFFFFFFF
/-- CRC-32 of IEEE 802.3. -/
def crc32 (bs : List Byte) : Nat := crc32With 0xEDB88320 bs
/-- CRC-32C. -/
def crc32c (bs : List Byte) : Nat := crc32With 0x82F63B78 bs
/-- CRC-16-CCITT, initial value 0xFFFF. -/
def crc16 (bs : List Byte) : Nat := bs.foldl (crcByteMsb 16 0x1021) 0xFFFF
/-- CRC-64 of ECMA-182, initial value 0. -/
def crc64 (bs : List Byte) : Nat := bs.foldl (crcByteMsb 64 0x42F0E1EBA9EA3693) 0

def scanCrc : Nat → List Byte → Nat
  | 0 => crc32 | 1 => crc32c | 2 => crc16 | _ => crc64

/-! ### Sticky words and the reef log (R393 to R395) -/

/-- The sticky words of a page, in the log or not, each with whether it has been uncorrectable. -/
def Sram.stickyIn (m : Sram) (page : Nat) : List (Nat × Bool) :=
  ((m.reef.map fun e => (e.addr, e.uncorr)) ++ m.unlogged).filter fun q => q.1 / 4096 = page

/-- Retirement of a page is advised once: four sticky words or an uncorrectable one. -/
def State.advise (s : State) (k addr : Nat) : State :=
  let m := s.sram k
  let p := addr / 4096
  let ws := m.stickyIn p
  if !m.advised.contains p && (4 ≤ ws.length || ws.any Prod.snd) then
    (s.setSram k { m with advised := p :: m.advised }).raise k 0x1842 2 (mkWord [(0, 32, p * 4096), (32, 3, satAt 7 ws.length)])
  else s

/-- A unit that holds an address. -/
def Unit_.holds (u : Unit_) (a : Nat) : Bool := if u.bank then a / 262144 = u.addr / 262144 else a / 4096 = u.addr / 4096

/-- A new sticky word is entered in the reef log, or counted when the log is full. -/
def State.logSticky (s : State) (k addr bit : Nat) (uncorr : Bool) : State :=
  let m := s.sram k
  let h := m.hist.get (s.sec', 0) addr
  if m.reef.length < 256 then
    let e : Reef := { addr := addr, bit := bit, uncorr := uncorr, retired := m.retired.any fun u => u.holds addr
                      code := codeRegion k addr, count := h.2, first := h.1, last := s.sec' }
    (s.setSram k { m with reef := m.reef ++ [e] }).raise k 0x1841 1 (mkWord [(0, 32, addr), (32, 7, bit)])
  else
    let s := s.setSram k { m with overflow := if m.overflow = 65535 then m.overflow else m.overflow + 1, fullRaised := true
                                  unlogged := m.unlogged ++ [(addr, uncorr)] }
    if m.fullRaised then s else s.raise k 0x1844 2 (BitVec.ofNat 64 k)

/-- An error at a word counts in its history. A sticky word's entry is updated, and a word that becomes sticky is entered; its page
may then need retirement (R393 to R395). -/
def State.noteError (s : State) (k addr bit : Nat) (uncorr : Bool) : State :=
  let m := s.sram k
  let h := m.hist.get (s.sec', 0) addr
  let h' : Nat × Nat := (h.1, if uncorr then h.2 else satAt 65535 (h.2 + 1))
  let s := s.setSram k { m with
    hist := m.hist.insert addr h'
    reef := m.reef.map fun e =>
      if e.addr = addr then { e with bit := bit, uncorr := e.uncorr || uncorr, last := s.sec', count := h'.2 } else e
    unlogged := m.unlogged.map fun q => if q.1 = addr then (q.1, q.2 || uncorr) else q }
  if (m.reef.any fun e => e.addr = addr) || m.unlogged.any fun q => q.1 = addr then s.advise k addr
  else if uncorr || 0 < m.watch.get 0 addr then (s.logSticky k addr bit uncorr).advise k addr
  else s

/-! ### Stored checks (R387) -/

/-- A stored bit of a word flips: the same bit twice is clean again, two different ones are uncorrectable. -/
def Flaw.flip : Flaw → Nat → Flaw
  | .clean, b => .single b
  | .single a, b => if a = b then .clean else .double
  | .double, _ => .double

def Sram.flaw (m : Sram) (addr : Nat) : Flaw := m.bad.get .clean addr
def Sram.setFlaw (m : Sram) (addr : Nat) (x : Flaw) : Sram := { m with bad := Sparse.put .clean m.bad addr x }

/-- Bit b of a word turns out to be in error: one that is stored already, or a new one. -/
def Sram.found (m : Sram) (addr b : Nat) : Sram :=
  if m.flaw addr = .single b then m else m.setFlaw addr ((m.flaw addr).flip b)

/-- The words of a range that is written hold what was written: a word written in part keeps an uncorrectable check. -/
def Sram.wrote (m : Sram) (a len : Nat) : Sram :=
  { m with bad := m.bad.filter fun p =>
      p.1 + 8 ≤ a || a + len ≤ p.1 || (p.2 = .double && (p.1 < a || a + len < p.1 + 8)) }

/-- Every word of some regions is written again. -/
def Sram.rewritten (m : Sram) (k : Nat) (p : Option Region → Bool) : Sram :=
  { m with bad := m.bad.filter fun q => !p (regionOf k q.1) }

/-- The module writes every word of every region except the host window before POS_READY (R388). -/
def State.writeAll (s : State) : State :=
  { s with srams := s.srams.map fun q => (q.1, q.2.rewritten q.1 (· ≠ some .hostWindow)) }

/-- A correctable error found by a demand read, which returns the data corrected and leaves the stored word as it is (R392). -/
def State.demandError (s : State) (k addr bit : Nat) : State :=
  let s := s.onSram k fun m => { m with corrDemand := m.corrDemand + 1 }
  if s.unwrittenPage addr then s.onSram k fun m => { m with falseErr := m.falseErr + 1 }
  else s.noteError k addr bit false

/-- Demand reads find words with the bits named in error; one that proves uncorrectable has its own row. -/
def State.demandErrors (s : State) (k : Nat) (es : List (Nat × Nat)) : State :=
  es.foldl (fun s e =>
    let s := s.onSram k fun m => m.found e.1 e.2
    match (s.sram k).flaw e.1 with | .single b => s.demandError k e.1 b | _ => s) s

/-- An uncorrectable error is counted and reported, and its word enters the reef log; in a page of the host window that nothing has
written it is a false error (R389, R393, R396). -/
def State.countUncorr (s : State) (k addr kind : Nat) : State :=
  let s := (s.onSram k fun m => { m.setFlaw addr .double with uncorr := m.uncorr + 1 }).raise k 0x1840 3
    (mkWord [(0, 32, addr), (32, 3, kind)])
  if s.unwrittenPage addr then s.onSram k fun m => { m with falseErr := m.falseErr + 1 }
  else s.noteError k addr 127 true

/-- A demand read of a range of SRAM k, in which the words listed turn out to have one more bit in error: correctable errors are
counted, and the answer names the first uncorrectable word. -/
def State.readRange (s : State) (k a len : Nat) (new : List (Nat × Nat)) : State × Option Nat :=
  let s := (new.filter fun e => e.1 % 8 = 0 && a < e.1 + 8 && e.1 < a + len).foldl
    (fun s e => s.onSram k fun m => m.found e.1 e.2) s
  let here := (s.sram k).bad.filter fun p => a < p.1 + 8 && p.1 < a + len
  (here.foldl (fun s p => match p.2 with | .single b => s.demandError k p.1 b | _ => s) s,
   (here.find? fun p => p.2 = .double).map Prod.fst)

/-- A DMA transfer stops: the ring it serves halts under 04 R78, that of the command it serves where it serves one, and the command
completes with 0x07 (R396, kind 3). -/
def State.stopTransfer (s : State) (ring cmd : Option Nat) : State :=
  let served := match (cmd.bind s.flight?) with | some f => some f.ring | none => ring
  let s := s.finishOpt cmd 0x07
  match served with | some r => s.haltRing r 3 | none => s

/-- A command's DMA reads a range of SRAM k toward host memory and goes on with `go`, or stops at an uncorrectable word (R387, R396). -/
def State.dmaRead (s : State) (f : Flight) (k a len : Nat) (new : List (Nat × Nat)) (go : State → State) : State :=
  match s.readRange k a len new with
  | (s, none) => go s
  | (s, some w) => (s.countUncorr k w 3).stopTransfer none (some f.id)

/-- Something is written to a range of SRAM k: its words show no earlier error. -/
def State.rewrite (s : State) (k a len : Nat) : State := s.onSram k fun m => m.wrote a len

/-- Where the monitor buffer of converter k and the capture area of a channel begin (R386). -/
def monitorBase (k : Nat) : Nat := sramBase k + if k < 32 then 0x780000 else 0x1400000
def captureBase (c : Nat) : Nat := sramBase c + 0x600000

/-! ### The scrubber (R390, R391) -/

/-- The next word that the scrubber visits at or after an offset: pages with WRITTEN 0 are skipped. -/
def State.scrubSkip (s : State) (k : Nat) : Nat → Nat → Nat
  | 0, o => o
  | n + 1, o => if k = 32 && o < sramSize k && s.unwrittenPage (sramBase k + o) then s.scrubSkip k n ((o / 4096 + 1) * 4096) else o

/-- A clean visit of a word that was written back. -/
def watchClean (m : Sparse Nat) (addr : Nat) : Sparse Nat :=
  let n := m.get 0 addr
  if n ≤ 1 then m.erase addr else m.insert addr (n - 1)

/-- Words that a pass of the scrubber visits: all but those of host window pages with WRITTEN 0. -/
def State.scrubWords (s : State) (k : Nat) : Nat :=
  if k < 32 then sramSize k / 8
  else (sramSize k - (6144 - (s.written.filter fun p => windowBase ≤ 4096 * p.1 && p.2).length) * 4096) / 8

/-- When the next visit is due, always-on ns: visits are evenly spaced, SWEEP seconds to a pass. -/
def State.visitDue (s : State) (k : Nat) : Rat :=
  (s.sram k).visitNs + ((s.sram k).sweep * 1000000000 : Nat) / (s.scrubWords k : Int)

/-- The visit is made. -/
def State.visitMade (s : State) (k : Nat) : State :=
  let due := s.visitDue k
  (s.at due.ceil.toNat).onSram k fun m => { m with visitNs := due }

/-- The scrubber goes on behind offset o, or begins its next pass where no word is left to visit. -/
def State.scrubNext (s : State) (k o : Nat) : State :=
  if s.scrubSkip k 6145 (o + 8) < sramSize k then s.onSram k fun m => { m with pos := o + 8 }
  else s.onSram k fun m => { m with pos := 0, passes := m.passes + 1 }

/-- One visit: a correctable word is written back and watched, unless a newer write came in between (R391, R393); the stored value
of an uncorrectable one stays (R396, kind 6). -/
def State.scrubVisit (s : State) (k : Nat) (bit : Option Nat) (newer : Bool) : State :=
  let o := s.scrubSkip k 6145 (s.sram k).pos
  let addr := sramBase k + o
  let s := match bit with | some b => s.onSram k fun m => m.found addr b | none => s
  let s := match (s.sram k).flaw addr with
    | .clean => s.onSram k fun m => { m with watch := watchClean m.watch addr }
    | .single b =>
      let s := (s.noteError k addr b false).onSram k fun m => m.setFlaw addr .clean
      if newer then s
      else s.onSram k fun m => { m with corrScrub := m.corrScrub + 1, watch := m.watch.insert addr 2 }
    | .double =>
      let s := s.countUncorr k addr 6
      if newer then s.onSram k fun m => m.setFlaw addr .clean else s
  s.scrubNext k o

/-- The scrubber of an SRAM runs: a channel's outside Dark, the common one always. -/
def State.scrubbing (s : State) (k : Nat) : Bool := s.boot.powered && (32 ≤ k || (s.chan k).pw.level ≠ .dark)

/-- A visit; before it the correctable errors that demand reads of the SRAM by its keeper, the lighthouse controller or a DMA engine have
found since the last one are counted. -/
def execScrubVisit (k : Fin 33) (x : VisitIn) (newer : Bool) (s : State) : Out :=
  occurs s (s.scrubbing k) <|
    let here := x.demand.filter fun e => inside e.1.toNat 8 (sramBase k) (sramSize k) && e.1.toNat % 8 = 0
    ((s.demandErrors k (here.map fun e => (e.1.toNat, e.2.val))).visitMade k).scrubVisit k (x.bit.map (·.val)) newer

/-! ### Fill, copy and scan (R389, R400, R401) -/

/-- Status of a range of the host window for link n: its own part 0, another link's part 0x04, any other 0x01. -/
def windowStatus (n a len : Nat) : Nat :=
  if inside a len (windowPart n) 0x00600000 then 0
  else if (List.range 4).any fun m => inside a len (windowPart m) 0x00600000 then 0x04
  else 0x01

def Desc.addr (d : Desc) : Nat := d.p0.bits 31 0
def Desc.len (d : Desc) : Nat := d.p1.bits 31 0

/-- A fill covers whole words (DEDUCED, log 19). -/
def execMemFill (id : Nat) (s : State) : Out :=
  withCmd s id 0x1800 fun f =>
    let st := windowStatus f.link f.desc.addr f.desc.len
    if f.desc.addr % 8 ≠ 0 || f.desc.len % 8 ≠ 0 then s.finish f 0x01
    else if st ≠ 0 then s.finish f st
    else s.run f

def execMemCopyIn (id : Nat) (bs : List Byte) (s : State) : Out :=
  withCmd s id 0x1802 fun f =>
    let st := windowStatus f.link f.desc.addr f.desc.len
    if 1048576 < f.desc.len then s.finish f 0x01
    else if st ≠ 0 then s.finish f st
    else { s with copyIns := s.copyIns.insert id (bs.take f.desc.len) }.run f

def execMemCopyOut (id : Nat) (s : State) : Out :=
  withCmd s id 0x1803 fun f =>
    let st := windowStatus f.link f.desc.addr f.desc.len
    if 1048576 < f.desc.len then s.finish f 0x01
    else if st ≠ 0 then s.finish f st
    else s.run f

/-- A link that is not primary scans common SRAM only inside its own part of the host window (R43; log 20). -/
def execMemScan (id : Nat) (s : State) : Out :=
  withCmd s id 0x1801 fun f =>
    let a := f.desc.addr
    let len := f.desc.len
    if a % 8 ≠ 0 || len % 8 ≠ 0 || len = 0 || !inside a len (sramBase f.desc.target) (sramSize f.desc.target) then
      s.finish f 0x01
    else if f.desc.target = 32 && !f.primary && windowStatus f.link a len ≠ 0 then s.finish f 0x04
    else s.run f

/-- Pages that a write of a range covers whole become WRITTEN. -/
def State.markWritten (s : State) (a len : Nat) : State :=
  let first := cdiv a 4096
  { s with written := (List.range ((a + len) / 4096 - first)).foldl (fun w i => w.insert (first + i) true) s.written }

/-- Bytes land in the host window. -/
def State.storeWindow (s : State) (a : Nat) (bs : List Byte) : State :=
  (({ s with mem := Memory.write s.mem a bs }).markWritten a bs.length).rewrite 32 a bs.length

/-! ### Settings and queries (R401) -/

def execMemScrubConfig (id : Nat) (s : State) : Out :=
  withCmd s id 0x1810 fun f =>
    let v := f.desc.p0.bits 16 0
    if v = 0 || 86400 < v then s.finish f 0x01
    else (s.onSram f.desc.target fun m => { m with sweep := v }).finish f 0

def sparePages (k : Nat) : Nat := if k < 32 then 32 else 128
def spareBanks (k : Nat) : Nat := if k < 32 then 2 else 8

/-- Units of one size that are retired or being retired: the spares in use. -/
def Sram.used (m : Sram) (bank : Bool) : Nat :=
  (m.retired.filter fun u => u.bank = bank).length + (m.retiring.filter fun q => q.2.bank = bank).length

def State.memStatus (s : State) (k : Nat) : List Word :=
  let m := s.sram k
  let n (bank : Bool) : Nat := (m.retired.filter fun u => u.bank = bank).length
  [mkWord [(0, 32, m.corrScrub.toNat), (32, 32, m.corrDemand.toNat)],
   mkWord [(0, 32, m.uncorr.toNat), (32, 16, m.reef.length), (48, 16, m.overflow.toNat)],
   mkWord [(0, 17, m.sweep), (32, 32, m.passes.toNat)],
   mkWord [(0, 16, n false), (16, 8, n true), (24, 16, sparePages k - m.used false), (40, 8, spareBanks k - m.used true)],
   mkWord [(0, 32, m.falseErr.toNat)], 0, 0, 0]

def execMemStatus (id : Nat) (s : State) : Out := withCmd s id 0x1811 fun f => s.answer f (s.memStatus f.desc.target)

def Reef.words (e : Reef) : List Word :=
  [mkWord [(0, 32, e.addr), (32, 7, e.bit), (39, 1, bitOf e.uncorr), (40, 1, bitOf e.retired), (41, 1, bitOf e.code),
           (48, 16, e.count)],
   mkWord [(0, 32, e.first), (32, 32, e.last)]]

def execMemReefRead (id : Nat) (s : State) : Out :=
  withCmd s id 0x1812 fun f =>
    let es := (s.sram f.desc.target).reef.take (f.desc.bufLen / 16)
    s.answer f (es.flatMap Reef.words) (some es.length)

/-! ### Retirement (R397 to R399) -/

def execMemRetire (id : Nat) (s : State) : Out :=
  withCmd s id 0x1820 fun f =>
    let k := f.desc.target
    let m := s.sram k
    let bank := f.desc.p1.bit 0
    let size := if bank then 262144 else 4096
    let u : Unit_ := { addr := f.desc.addr, bank := bank }
    let taken (v : Unit_) : Bool := v = u || (v.bank && v.holds u.addr)
    if u.addr % size ≠ 0 || !inside u.addr size (sramBase k) (sramSize k) then s.finish f 0x01
    else if m.retired.any taken || m.retiring.any fun q => taken q.2 then s.finish f 0x20
    else if (if bank then spareBanks k else sparePages k) ≤ m.used bank then s.finish f 0x09
    else (s.setSram k { m with retiring := m.retiring ++ [(id, u)] }).run f

def execMemRetireList (id : Nat) (s : State) : Out :=
  withCmd s id 0x1821 fun f =>
    s.answerBytes f (wordsBytes (s.retireList.flatMap fun e =>
      [mkWord [(0, 32, e.1), (32, 1, bitOf e.2.1)], mkWord [(0, 24, e.2.2)]]))

end Sys2Proof.Machine
end

