-- ==== Sys2Proof/Machine/Loading.lean ====
section
/-! DEFINITION. Loading sets, slot counts, the required signal-to-noise ratio, planning, and the loading queries (10).
Symbol rates are in units of 0.5 GBd, SNR and margins in units of 0.125 dB. -/

namespace Sys2Proof.Machine

/-! ### Sets (R224, R225, R230) -/

def LoadSet.isLit (x : LoadSet) (i : Nat) : Bool := x.lit.getLsbD i
def LoadSet.isActive (x : LoadSet) (i : Nat) : Bool := x.active.getLsbD i
def LoadSet.litCount (x : LoadSet) : Nat := ((List.range 16).filter x.isLit).length
def LoadSet.code (x : LoadSet) (l : Nat) : Nat := x.codes.getD l 0
def LoadSet.streams (x : LoadSet) : List Nat := (List.range 32).filter fun l => x.isActive (l / 2)

/-- G_ℓ of a stream loaded at n sixteenths: ⌊7,750 × r × n / 16⌋ (R202, R226). -/
def streamBits (rate n : Nat) : Nat := 7750 * rate * n / 32
/-- G, the budget of a frame period (R202). -/
def LoadSet.budget (x : LoadSet) (rate : Nat) : Nat := (x.streams.map fun l => streamBits rate (x.code l)).sum

/-- Words 0 to 4 of a set, with VALID as given (R230, R238). -/
def LoadSet.words5 (x : LoadSet) (valid : Bool) : List Word :=
  mkWord [(0, 16, x.lit.toNat), (16, 16, x.active.toNat), (32, 1, bitOf valid)] ::
    (List.range 4).map fun k => mkWord ((List.range 8).map fun j => (8 * j, 8, x.code (8 * k + j)))

/-- The set that words 0 to 4 spell. -/
def LoadSet.ofWords (ws : List Word) : LoadSet :=
  { lit := BitVec.ofNat 16 ((wd ws 0).bits 15 0), active := BitVec.ofNat 16 ((wd ws 0).bits 31 16)
    codes := (List.range 32).map fun l => (wd ws (1 + l / 8)).bits (8 * (l % 8) + 7) (8 * (l % 8)) }

def setValid (ws : List Word) : Bool := (wd ws 0).bit 32

/-- Reserved and module fields of a supplied set are 0 (R230). -/
def setClear (ws : List Word) : Bool :=
  (wd ws 0).bits 63 33 = 0 && wd ws 5 = 0 && wd ws 6 = 0 && wd ws 7 = 0

/-- Active subcarriers are Lit, their streams have a loading of 16 to 112, and every other stream 0 (R230). -/
def LoadSet.ok (x : LoadSet) : Bool :=
  x.active &&& x.lit = x.active && (List.range 32).all fun l =>
    if x.isActive (l / 2) then 16 ≤ x.code l && x.code l ≤ 112 else x.code l = 0

/-- Two sets of different subcarriers together. -/
def LoadSet.join (x y : LoadSet) : LoadSet :=
  { lit := x.lit ||| y.lit, active := x.active ||| y.active, codes := (List.range 32).map fun l => max (x.code l) (y.code l) }

/-- The receive set of a channel: at a hub with the sets of its dedicated leaves (13 R303, R309). -/
def Channel.rxSet (ch : Channel) : LoadSet :=
  if ch.pm.mode = .hub then ch.pm.leaves.foldl (fun x q => if q.2.burst then x else x.join q.2.ld.rx) ch.ld.rx else ch.ld.rx

/-- A set may not take a subcarrier from Off to Active (R224). -/
def LoadSet.mayFollow (new old : LoadSet) : Bool :=
  (List.range 16).all fun i => !new.isActive i || old.isLit i

/-- Symbol-rate limit of a level (R225). -/
def Level.limit : Level → Nat
  | .spring => 512 | .mean => 384 | .neap => 256 | .slack | .dark => 0

def LoadSet.fits (x : LoadSet) (rate : Nat) (l : Level) : Bool := rate * x.litCount ≤ l.limit

/-! ### Coded size and slot count (R200, R231) -/

def codedSize (offshore : Bool) (s : Nat) : Nat :=
  let i := 131072 + 8064 * s
  if offshore then i + 1664 * cdiv i 6656
  else
    let r := cdiv i 910
    i + 30 * r + 28200 * cdiv r 910

/-- Units of a frame: Harbour blocks or Offshore codewords (R200). -/
def unitCount (offshore : Bool) (s : Nat) : Nat :=
  let i := 131072 + 8064 * s
  if offshore then cdiv i 6656 else cdiv (cdiv i 910) 910

def slotSearch (offshore : Bool) (g : Nat) : Nat → Nat → Nat → Nat
  | 0, lo, _ => lo
  | fuel + 1, lo, hi =>
    if hi ≤ lo then lo
    else
      let mid := (lo + hi + 1) / 2
      if codedSize offshore mid ≤ g then slotSearch offshore g fuel mid hi else slotSearch offshore g fuel lo (mid - 1)

/-- The slot count S of a budget; none when not even the overhead fits (R231). Eleven halvings cover 0 to 1,600. -/
def slotCount (g : Nat) (offshore : Bool) : Option Nat :=
  if g < codedSize offshore 0 then none else some (slotSearch offshore g 11 0 1600)

def LoadSet.slots (x : LoadSet) (rate : Nat) (offshore : Bool) : Option Nat := slotCount (x.budget rate) offshore

/-- A set as a query writes it, with S and G filled in. -/
def LoadSet.words (x : LoadSet) (rate : Nat) (offshore : Bool) : List Word :=
  x.words5 true ++ [mkWord [(0, 11, (x.slots rate offshore).getD 0), (32, 32, x.budget rate)], 0, 0]

/-- Highest slot that a used entry of either bank names, plus one; 0 when there is none (R232). -/
def Slots.span (x : Slots) : Nat :=
  let top (b : Sparse (BitVec 16)) : Nat := (b.filter fun p => p.2.getLsbD 12).foldl (fun m p => max m (p.1 + 1)) 0
  max (top x.bankA) (top x.bankB)

/-- Slot count of a transmit set; at a leaf a set with SC_LIT 0 is valid and counts 0 (13 R305), and so
does one that makes nothing Active yet, with which an upstream starts (13 R324 step 5; DEDUCED, log 33). -/
def Channel.txSlots (ch : Channel) (x : LoadSet) (offshore : Bool) : Option Nat :=
  if ch.pm.mode = .leaf && x.active = 0 then some 0 else x.slots ch.bu.params.rate offshore
def Channel.rxSlots (ch : Channel) (x : LoadSet) (offshore : Bool) : Option Nat := x.slots ch.bu.params.rate offshore

/-- A set gives an S above every slot that either bank names. The table names downstream slots at a hub and at a leaf
(13 R310), so it is held against the hub's transmit and the leaf's receive set there (DEDUCED, log 22). -/
def Channel.slotsFit (ch : Channel) (tx : Bool) (x : LoadSet) (offshore : Bool) : Bool :=
  match if tx then ch.txSlots x offshore else ch.rxSlots x offshore with
  | some s => ch.pm.mode = (if tx then .leaf else .hub) || ch.sl.span ≤ s
  | none => false

/-- S_TX and S_RX (R232), and the count that a used slot stays below. -/
def Channel.sTx (ch : Channel) : Nat := (ch.txSlots ch.ld.tx ch.fec.txOffshore).getD 0
def Channel.sRx (ch : Channel) : Nat := (ch.rxSlots ch.ld.rx ch.fec.rxOffshore).getD 0
def Channel.slotLimit (ch : Channel) : Nat :=
  match ch.pm.mode with
  | .pointToPoint => min ch.sTx ch.sRx
  | .hub => ch.sTx
  | .leaf => ch.sRx

/-! ### Required SNR (R233) -/

/-- The greatest r below 2^(bits) with r^k ≤ x. -/
def rootBits (k x : Nat) : Nat → Nat
  | 0 => 0
  | b + 1 =>
    let r := 2 * rootBits k (x / 2 ^ k) b
    if (r + 1) ^ k ≤ x then r + 1 else r

/-- ⌊2^64 × 2^(n / 16)⌋. -/
def pow2Sixteenth (n : Nat) : Nat := rootBits 16 (2 ^ (n + 1024)) (64 + n / 16 + 1)
/-- ⌊2^64 × 10^(k / 400)⌋ for a non-negative k. -/
def pow10Part (k : Nat) : Nat := 10 ^ (k / 400) * rootBits 400 (10 ^ (k % 400) * 2 ^ 25600) 69

/-- Γ in units of 1/400 of a decade: 2.6 dB for Harbour, 0.3 dB for Offshore. -/
def gammaPart (offshore : Bool) : Nat := if offshore then 12 else 104

/-- SNR_req(n / 16) is at most q units of 0.025 dB (R233): 2^(n/16) − 1 ≤ 10^(q/400 − Γ/10). -/
def snrMeets (offshore : Bool) (n : Nat) (q : Int) : Bool :=
  let x := pow2Sixteenth n - 2 ^ 64
  let k : Int := q - gammaPart offshore
  if 0 ≤ k then x ≤ pow10Part k.toNat else x * pow10Part (-k).toNat ≤ 2 ^ 128

/-- MARGIN of a stream from its SNR code: the greatest step not above SNR − SNR_req, or the next one (`up`) where the spec gives
no direction of rounding (log 1). It gives one for +0.05 dB, which reads 0.000 dB (10, worked example), so what lies less than
0.05 dB above a step reads that step. -/
def margin (offshore up : Bool) (n code : Nat) : Int :=
  let m := (((List.range 256).map fun i : Nat => (127 : Int) - i).find? fun m => snrMeets offshore n (5 * ((code : Int) - m))).getD (-129)
  max (-128) (min 127 (m + bitOf (up && snrMeets offshore n (5 * ((code : Int) - m) - 2))))

/-! ### Planning (R236, R237) -/

/-- Measured SNR codes of a stream over the last 64 multiframes. -/
def Loading.measured (x : Loading) (l : Nat) : List Nat := x.history.filterMap fun h => (h.getD l none)

/-- 2^64 times the linear error power of an SNR code. -/
def errorPower (code : Nat) : Nat := 2 ^ 128 / pow10Part (5 * code)

/-- Mean linear error power of a stream, as 2^64-fold sum and count. -/
def Loading.meanError (x : Loading) (l : Nat) : Nat × Nat :=
  let m := x.measured l
  ((m.map errorPower).sum, m.length)

/-- SNR_req(n / 16) + target is at most the stream's mean SNR. -/
def planMeets (offshore : Bool) (target n : Nat) (e : Nat × Nat) : Bool :=
  (pow2Sixteenth n - 2 ^ 64) * pow10Part (gammaPart offshore + 5 * target) * e.1 ≤ e.2 * 2 ^ 192

/-- The loading planned for a stream, and whether even 16 sixteenths falls short. -/
def planStream (offshore : Bool) (target : Nat) (e : Nat × Nat) : Nat × Bool :=
  match ((List.range 97).map (112 - ·)).find? fun n => planMeets offshore target n e with
  | some n => (n, false)
  | none => (16, true)

/-- A subcarrier taken out of a set. -/
def LoadSet.off (x : LoadSet) (i : Nat) : LoadSet :=
  let m := ~~~(BitVec.ofNat 16 (2 ^ i))
  { lit := x.lit &&& m, active := x.active &&& m,
    codes := (List.range 32).map fun l => if l / 2 = i then 0 else x.code l }

/-- MODE 1: the listed subcarriers, lowest mean SNR first, are switched Off until one would bring S below the target. -/
def LoadSet.thin (rate : Nat) (offshore : Bool) (sTarget : Nat) : List Nat → LoadSet → LoadSet
  | [], x => x
  | i :: is, x =>
    match (x.off i).slots rate offshore with
    | some s => if sTarget ≤ s then LoadSet.thin rate offshore sTarget is (x.off i) else x
    | none => x

/-- Mean error power by stream, as sum and count: the figures a plan is made from. -/
abbrev Figures := Nat → Nat × Nat

/-- Subcarrier i has a lower mean SNR than j, or the same and the higher index. -/
def Figures.worse (fig : Figures) (i j : Nat) : Bool :=
  let e (k : Nat) : Nat × Nat := ((fig (2 * k)).1 * (fig (2 * k + 1)).2 + (fig (2 * k + 1)).1 * (fig (2 * k)).2,
    (fig (2 * k)).2 * (fig (2 * k + 1)).2)
  let a := e i
  let b := e j
  b.1 * a.2 < a.1 * b.2 || (b.1 * a.2 = a.1 * b.2 && j < i)

def Figures.insertWorse (fig : Figures) (i : Nat) : List Nat → List Nat
  | [] => [i]
  | j :: js => if fig.worse i j then i :: j :: js else j :: fig.insertWorse i js

/-- The set planned from given figures, and its SHORTFALL flag. A stream without a figure keeps its loading (DESIGN CHOICE, log
142). -/
def Channel.planFrom (ch : Channel) (fig : Figures) (target : Nat) (mode1 : Bool) (sTarget : Nat) : LoadSet × Bool :=
  let x := ch.rxSet
  let off := ch.fec.rxOffshore
  let p (l : Nat) : Nat × Bool := if x.isActive (l / 2) then (if (fig l).2 = 0 then (x.code l, false) else planStream off target (fig l)) else (0, false)
  let set : LoadSet := { x with codes := (List.range 32).map fun l => (p l).1 }
  let subs := ((List.range 16).filter x.isActive).foldl (fun acc i => fig.insertWorse i acc) []
  (if mode1 then set.thin ch.bu.params.rate off sTarget subs else set, x.streams.any fun l => (p l).2)

/-- A planned set: none when an Active stream has no figure; with SHORTFALL and STALE. -/
def Channel.plan (ch : Channel) (target : Nat) (mode1 : Bool) (sTarget : Nat) : Option (LoadSet × Bool × Bool) :=
  let x := ch.ld
  let act := ch.rxSet.streams
  if act.any fun l => (x.measured l).isEmpty then none
  else
    let (set, short) := ch.planFrom x.meanError target mode1 sTarget
    some (set, short, act.any fun l => (x.measured l).length < 64)

/-! ### Commands (R251) -/

/-- PHASE, ROLE, M_LOCAL and M_FAR of the exchange in progress. -/
def Loading.phase (x : Loading) : Nat × Bool × Nat × Nat :=
  match x.proposal, x.agreement with
  | some p, _ => ((if p.committed then 3 else if p.accepted.isSome then 2 else 1), true, p.mI.toNat,
      (p.accepted.getD 0).toNat)
  | none, some a => ((if a.committed then 3 else 2), false, a.mR.toNat, a.mI.toNat)
  | none, none => (0, false, 0, 0)

/-- Pending sets of this end, transmit and receive, that have not come into force: those of the exchange, or the downstream
set for which a leaf's receiver is armed (13 R317). -/
def Loading.pending (x : Loading) : Option LoadSet × Option LoadSet :=
  match x.proposal, x.agreement with
  | some p, _ => (if p.txAt.isNone then p.content.fwd else none, if p.rxAt.isNone then p.content.rev else none)
  | none, some a => (if a.txAt.isNone then a.content.rev else none, if a.rxAt.isNone then a.content.fwd else none)
  | none, none => (none, x.pendingRx.map (·.set))

/-- A hub's receive set with the pending sets of its dedicated leaves, if any has one (13 R303, R309, R317). -/
def Channel.hubPending (ch : Channel) : Option LoadSet :=
  let own := ch.pm.leaves.filter fun q => !q.2.burst
  if own.any fun q => q.2.ld.pending.2.isSome then
    some (own.foldl (fun x q => x.join (q.2.ld.pending.2.getD q.2.ld.rx)) ch.ld.rx)
  else none

/-- The same with a hub's announced downstream set and the sets of its dedicated leaves. -/
def Channel.pendingSets (ch : Channel) : Option LoadSet × Option LoadSet :=
  (ch.ld.pending.1.or (ch.pm.downstream.map fun d => d.2.2), if ch.pm.mode = .hub then ch.hubPending else ch.ld.pending.2)

/-- The profile that the exchange in progress brings. -/
def Loading.newProfile (x : Loading) : Option Bool :=
  match x.proposal, x.agreement with
  | some p, _ => p.content.profile
  | none, some a => a.content.profile
  | none, none => none

/-- The larger of the subcarrier counts in force and pending of a receive direction (R225). -/
def Loading.rxLit (x : Loading) : Nat :=
  max x.rx.litCount (match x.pending.2 with | some q => q.litCount | none => 0)

/-- Subcarriers of a hub's receive direction that are Lit or Active, pending sets counted, the new set of one leaf in place of
its own when one is given, and the shared ones (10 R225; 13 R303). -/
def Channel.hubLit (ch : Channel) (new : Option (Nat × LoadSet)) : Nat :=
  let of (q : Nat × Leaf) : Nat := match new with
    | some n => if q.1 = n.1 then n.2.litCount else q.2.ld.rxLit
    | none => q.2.ld.rxLit
  (ch.pm.leaves.map of).sum + ((List.range 16).filter ch.pm.shared.getLsbD).length

def Channel.loadQuery (ch : Channel) : List Word :=
  let x := ch.ld
  let (ph, ini, mL, mF) := x.phase
  let r := ch.bu.params.rate
  let seq := match x.proposal, x.agreement with | none, some a => a.seq | _, _ => x.seq
  let opt (o : Option LoadSet) (off : Bool) : List Word :=
    match o with | some q => q.words r (x.newProfile.getD off) | none => List.replicate 8 0
  [mkWord [(0, 2, ph), (2, 1, bitOf ini), (8, 8, x.lsnTx.toNat), (16, 8, x.lsnRx.toNat), (24, 16, seq.toNat)],
   mkWord [(0, 32, mL), (32, 32, mF)], 0, 0] ++ x.tx.words r ch.fec.txOffshore ++ ch.rxSet.words r ch.fec.rxOffshore
    ++ opt ch.pendingSets.1 ch.fec.txOffshore ++ opt ch.pendingSets.2 ch.fec.rxOffshore

def execLoadQuery (id : Nat) (s : State) : Out :=
  withCmd s id 0x1301 fun f => s.answer f (s.chan f.desc.target).loadQuery

/-- Eight-bit values of the 32 streams packed as in R238. -/
def packStreams (vs : List Nat) : List Word :=
  (List.range 4).map fun k => mkWord ((List.range 8).map fun j => (8 * j, 8, vs.getD (8 * k + j) 0))

/-- FAR_SNR of a stream: what the far end measures, at a hub the lowest figure of the leaves that report one (DESIGN CHOICE, log 151). -/
def Channel.farSnr (ch : Channel) (l : Nat) : Nat :=
  if ch.pm.mode = .hub then
    let vs := (ch.pm.leaves.map fun p => p.2.ld.farSnr.getD l 0).filter (0 < ·)
    vs.foldl min (vs.headD 0)
  else ch.ld.farSnr.getD l 0

def Channel.loadQuality (ch : Channel) : List Word :=
  let x := ch.ld
  let sub (i : Nat) : Word := mkWord
    [(0, 8, x.snr.getD (2 * i) 0), (8, 8, x.snr.getD (2 * i + 1) 0), (16, 8, twos 8 (x.margin.getD (2 * i) 0)),
     (24, 8, twos 8 (x.margin.getD (2 * i + 1) 0)), (32, 12, x.evm.getD (2 * i) 0), (44, 12, x.evm.getD (2 * i + 1) 0),
     (56, 1, bitOf x.stale), (57, 1, bitOf (ch.rx.acquired.getLsbD i)),
     (58, 2, if ch.rxSet.isActive i then 2 else if ch.rxSet.isLit i then 1 else 0)]
  mkWord [(0, 8, twos 8 x.lq), (8, 1, bitOf x.stale), (9, 1, bitOf x.noActive), (32, 32, x.mfc.toNat)] ::
    (List.range 16).map sub ++ packStreams ((List.range 32).map ch.farSnr)

def execLoadQuality (id : Nat) (s : State) : Out :=
  withCmd s id 0x1302 fun f => s.answer f (s.chan f.desc.target).loadQuality

def execLoadPlan (id : Nat) (s : State) : Out :=
  withCmd s id 0x1303 fun f =>
    let ch := s.chan f.desc.target
    let p := f.desc.p0
    let target := if p.bits 7 0 = 0 then ch.age.target else p.bits 7 0
    let sT := if p.bits 19 9 = 0 then 1600 else p.bits 19 9
    match ch.plan target (p.bit 8) sT with
    | none => s.finish f 0x25
    | some (set, short, stale) =>
      let r := ch.bu.params.rate
      s.answer f (List.replicate 8 0 ++ set.words r ch.fec.rxOffshore)
        (some ((set.slots r ch.fec.rxOffshore).getD 0 + 65536 * bitOf short + 131072 * bitOf stale))

/-- Lowest stream of a direction by MARGIN. -/
def Channel.lowest (ch : Channel) : Nat :=
  let act := ch.rxSet.streams
  act.foldl (fun m l => if ch.ld.margin.getD l 0 < ch.ld.margin.getD m 0 then l else m) (act.headD 0)

/-- Event 0x1323 (R252). -/
def State.lqEvent (s : State) (c : Nat) (raised : Bool) : State :=
  let x := (s.chan c).ld
  s.raise c 0x1323 2 (mkWord [(0, 8, twos 8 x.lq), (8, 5, (s.chan c).lowest), (16, 1, bitOf raised)])

def State.onLd (s : State) (c : Nat) (g : Loading → Loading) : State := s.onChan c fun ch => { ch with ld := g ch.ld }

/-- FAR_ACCEPT and LQ_ALARM (R251, R252). -/
def State.loadConfig (s : State) (c : Nat) (accept : Bool) (alarm : Int) : State :=
  let x := (s.chan c).ld
  let s := if alarm = 0 && x.lqRaised then s.lqEvent c false else s
  s.onLd c fun y =>
    { y with farAccept := accept, lqAlarm := alarm, lqRaised := y.lqRaised && alarm ≠ 0,
             lowRun := if alarm = y.lqAlarm then y.lowRun else 0, highRun := if alarm = y.lqAlarm then y.highRun else 0 }

def execLoadConfig (id : Nat) (s : State) : Out :=
  withCmd s id 0x1304 fun f =>
    (s.loadConfig f.desc.target (f.desc.p0.bit 0) (signed 8 (f.desc.p0.bits 15 8))).finish f 0

/-- Four multiframes below LQ_ALARM raise the alarm, four at or above it plus 0.5 dB clear it (R252). -/
def execLinkQualityAlarm (c : Fin 32) (s : State) : Out :=
  let x := (s.chan c).ld
  occursWith s (if s.boot.powered && x.lqAlarm ≠ 0 then
      (if !x.lqRaised && 4 ≤ x.lowRun then some true else if x.lqRaised && 4 ≤ x.highRun then some false else none) else none)
    fun r => (s.lqEvent c r).onLd c fun y => { y with lqRaised := r }

end Sys2Proof.Machine
end

