-- ==== Sys2Proof/Machine/Promise.lean ====
section
/-! DEFINITION. The delivery promise: stated latencies, the latency report, release and restatement, and the latency
messages between the two ends (02 R17 to R29; 08 R192; 21 R456, R457). -/

namespace Sys2Proof.Machine

/-! ### Slot table entries (06 R122) -/

/-- The context that an entry names. -/
def entryTrib (e : BitVec 16) : Option Nat := if e.getLsbD 12 then some (e.toNat % 4096) else none

def Slots.bank (x : Slots) (b : Bool) : Sparse (BitVec 16) := if b then x.bankB else x.bankA
def Slots.entry (x : Slots) (b : Bool) (slot : Nat) : BitVec 16 := (x.bank b).get 0 slot
def Slots.setBank (x : Slots) (b : Bool) (m : Sparse (BitVec 16)) : Slots :=
  if b then { x with bankB := m } else { x with bankA := m }

/-- Slots of one channel whose entries name context i in a bank, rising. -/
def Slots.naming (x : Slots) (b : Bool) (i : Nat) : List Nat :=
  ((x.bank b).filter fun p => entryTrib p.2 = some i).map Prod.fst

/-- Slots in use for context i in a frame: those of the bank, or in a switch multiframe those whose entries are equal in
both banks (06 R130; 08 R180). -/
def Slots.inUse (x : Slots) (b sw : Bool) (i : Nat) : List Nat :=
  (x.naming b i).filter fun n => !sw || x.entry (!b) n = x.entry b n

/-- Members of a mask, rising. -/
def membersOf (m : BitVec 32) : List Nat := (List.range 32).filter m.getLsbD

/-! ### Stated latencies (R18 to R20) -/

/-- Lowest channel of a member mask: the anchor (06 R133). -/
def anchorOf (members : BitVec 32) : Option Nat := (List.range 32).find? members.getLsbD

/-- The group term: the skew budget of the group that the context names, when its anchor is this channel. -/
def State.groupTerm (s : State) (c : Nat) (t : Trib) : Nat :=
  if t.group = 0 then 0
  else
    let g := s.group (t.group - 1)
    if anchorOf g.members = some c then g.budget else 0

/-- The CD term for a window ceiling in units of 100 ps/nm (R19). -/
def cdTerm (ceil : Nat) : Nat := 40 + cdiv ceil 4

def Channel.statedTx (ch : Channel) (offshore : Bool) (t : Trib) : Nat :=
  (if offshore then 9300 else 9000) + (if t.burst && ch.pm.mode = .leaf then 2048000 else 0)

def State.statedRx (s : State) (c : Nat) (offshore : Bool) (ceil : Nat) (t : Trib) : Nat :=
  (if offshore then 14940 else 9540) + cdTerm ceil + s.groupTerm c t

/-- The channels whose slots may carry a context of channel a's block: a itself, or the members of its group, rising (06 R111,
R133). -/
def State.spanFrom (s : State) (a : Nat) (t : Trib) : List Nat :=
  if t.group ≠ 0 && anchorOf (s.group (t.group - 1)).members = some a then membersOf (s.group (t.group - 1)).members else [a]

/-- The channels whose profile and window set a context's figures: those whose slots it has, its own while it has none. A group
tributary thus follows only the members that carry it (01 R12), and with several of them the slowest
(DESIGN CHOICE, log 124). A move of its slots leaves its figures as they were last stated (R18). -/
def State.latencyChans (s : State) (i : Nat) (t : Trib) : List Nat :=
  let cs := (s.spanFrom (i / 96) t).filter fun c => !((s.chan c).sl.naming (s.chan c).sl.activeB i).isEmpty
  if cs.isEmpty then [i / 96] else cs

/-- The two figures of context i over some channels, of which `g` gives transmit profile, receive profile and window. -/
def State.statedOver (s : State) (i : Nat) (t : Trib) (g : Nat → Bool × Bool × Nat) : Nat × Nat :=
  (s.latencyChans i t).foldl (fun m c =>
    let (tx, rx, ceil) := g c
    (max m.1 ((s.chan (i / 96)).statedTx tx t), max m.2 (s.statedRx (i / 96) rx ceil t))) (0, 0)

/-- Profiles and window ceiling in force at a channel. -/
def State.terms (s : State) (c : Nat) : Bool × Bool × Nat :=
  ((s.chan c).fec.txOffshore, (s.chan c).fec.rxOffshore, (s.chan c).bu.params.cdCeil)

/-- The two figures of a context under the profiles and the windows in force. -/
def State.stated (s : State) (i : Nat) (t : Trib) : Nat × Nat := s.statedOver i t s.terms

/-- The sums of the present minute start afresh (16 R375). -/
def Channel.freshMinute (ch : Channel) : MinuteSums :=
  { units := ch.fec.unitsRx, outer := ch.fec.outerCorr, iter := ch.fec.iterMaxHit }

/-- The received tributary has nothing to deliver: the replacement goes to the host (06 R117). -/
def Trib.idled (t : Trib) : Trib := { t with rxIdle := true, fifo := [] }

/-- Provisioned LOCAL indices of a channel, rising. -/
def Channel.locals (ch : Channel) : List Nat := (ch.tribs.filter fun p => p.1 < 96 && p.2.state ≠ .free).map Prod.fst

/-- Context i of another channel's block has slots in channel c, its member. -/
def State.carriesFor (s : State) (c i : Nat) : Bool :=
  i / 96 ≠ c && (s.spanFrom (i / 96) (s.trib i)).contains c && !((s.chan c).sl.naming (s.chan c).sl.activeB i).isEmpty

/-- The contexts that channel c carries: those of its own block that have no slots in other members alone, and those of its
group's anchor with slots in it (01 R12). -/
def State.contextsOf (s : State) (c : Nat) : List Nat :=
  let own := ((s.chan c).locals.map (96 * c + ·)).filter fun i => (s.latencyChans i (s.trib i)).contains c
  match (s.groups.find? fun q => q.2.members.getLsbD c).bind fun q => anchorOf q.2.members with
  | some a => own ++ ((s.chan a).locals.map (96 * a + ·)).filter (s.carriesFor c)
  | none => own

/-- A change of channel c to a profile and a window ceiling would move a figure of a tributary that is not released (R26). A
figure of a group tributary moves only where the terms of c do. -/
def State.breaks (s : State) (c : Nat) (offshore : Bool) (ceil : Nat) : Bool :=
  let ch := s.chan c
  (s.contextsOf c).any fun i =>
    let t := s.trib i
    let n := s.statedOver i t fun d => if d = c then (offshore, offshore, ceil) else s.terms d
    !t.released && ((t.txLat ≠ n.1 && (t.group = 0 || ch.saidTx ≠ offshore)) ||
      (t.rxLat ≠ n.2 && (t.group = 0 || ch.saidRx ≠ (offshore, ceil))))

/-! ### The report and its event (R21, R456) -/

def Trib.asym (t : Trib) : Int :=
  match t.far with
  | some (tx, rx) => ((t.txLat + rx : Nat) : Int) - ((tx + t.rxLat : Nat) : Int)
  | none => 0

def Trib.report (t : Trib) (i : Nat) : List Word :=
  let (ftx, frx) := t.far.getD (0, 0)
  [mkWord [(0, 32, t.txLat), (32, 32, t.rxLat)],
   mkWord [(0, 32, twos 32 t.asym), (32, 12, i), (44, 1, bitOf t.far.isSome), (45, 1, bitOf t.released),
           (46, 1, bitOf t.deviation)],
   mkWord [(0, 32, ftx), (32, 32, frx)], mkWord [(0, 32, t.latMfc.toNat)]]

/-- A latency report of channel c has been made: HF_PHASE is held against the present one from now on (05 R89). -/
def State.reported (s : State) (c : Nat) : State :=
  s.onChan c fun ch => { ch with kp := { ch.kp with phaseReported := ch.kp.phase } }

def State.latencyEvent (s : State) (i : Nat) : State :=
  let s := (s.reported (i / 96)).setTrib i { s.trib i with owed := false, flipped := false }
  let t := s.trib i
  s.raise (i / 96) 0x1023 1
    (mkWord [(0, 12, i), (12, 22, t.txLat), (34, 22, t.rxLat), (56, 1, bitOf t.far.isSome), (57, 1, bitOf t.released)])
    (BitVec.ofInt 32 t.asym)

/-- What the report of context i shows has changed: its one event of the transmit multiframe comes at the end of that, or at once
while its channel sends none (R456; DESIGN CHOICE, log 127). -/
def State.latencyChanged (s : State) (i : Nat) : State :=
  if (s.chan (i / 96)).tf.sending then s.setTrib i { s.trib i with owed := true } else s.latencyEvent i

/-- The events of a channel's transmit multiframe that ends. -/
def State.payOwed (s : State) (c : Nat) : State :=
  (s.chan c).locals.foldl (fun s l => if ((s.chan c).trib l).owed then s.latencyEvent (96 * c + l) else s) s

/-- The module owes the far end a latency message (R22, R192). -/
def State.oweLatency (s : State) (c : Nat) : State :=
  s.onChan c fun ch => { ch with tf := { ch.tf with latencyDue := true } }

/-! ### Restatement (R27, R456) -/

/-- The figures named by `tx` and `rx` of context i, which channel c carries, take effect; the promise is back in force with the
last of them. MFC is the channel's transmit multiframe count, for a receive figure too (DESIGN CHOICE, log 127). -/
def State.restateOne (s : State) (c i : Nat) (tx rx : Bool) : State :=
  let ch := s.chan c
  let t := s.trib i
  let (ntx, nrx) := s.stated i t
  let u := { t with txLat := if tx then ntx else t.txLat, rxLat := if rx then nrx else t.rxLat }
  if u.txLat = t.txLat && u.rxLat = t.rxLat then s
  else
    let done (own : Bool) (said : Bool) : Bool := if t.group = 0 then own else said
    let final := done (u.txLat = ntx) (ch.saidTx = (s.terms c).1) && done (u.rxLat = nrx) (ch.saidRx = (s.terms c).2)
      && ch.fec.txOffshore == ch.fec.rxOffshore
    let s := s.setTrib i { u with latMfc := ch.tf.mfc, released := t.released && !final }
    (s.latencyChanged i).oweLatency (i / 96)

/-- Figures of every context that channel c carries are restated. -/
def State.restateAll (s : State) (c : Nat) (tx rx : Bool) : State :=
  (s.contextsOf c).foldl (fun s i => s.restateOne c i tx rx) s

/-- Channel c's terms are in force: its own tributaries follow them, and the group tributaries that it carries follow those that
have changed. -/
def State.restate (s : State) (c : Nat) (tx rx : Bool) : State :=
  let ch := s.chan c
  let now' := s.terms c
  let newTx := tx && ch.saidTx ≠ now'.1
  let newRx := rx && ch.saidRx ≠ now'.2
  let s := s.onChan c fun ch => { ch with
    saidTx := if tx then now'.1 else ch.saidTx, saidRx := if rx then now'.2 else ch.saidRx }
  (s.contextsOf c).foldl (fun s i =>
    let own := (s.trib i).group = 0
    s.restateOne c i (tx && (own || newTx)) (rx && (own || newRx))) s

/-! ### Deviation (R24, R457) -/

/-- The first figure of each context and direction. -/
def firstDepths : List (Nat × Bool × Int) → List (Nat × Bool × Int)
  | [] => []
  | d :: ds => d :: (firstDepths ds).filter fun e => !(e.1 = d.1 && e.2.1 == d.2.1)

/-- Depths measured after a re-acquisition of channel c at multiframe m, one for each context that it carries and each direction:
context, direction (receive when true) and deviation in ns. -/
def State.deviations (s : State) (c : Nat) (m : BitVec 32) (ds : List (Nat × Bool × Int)) : State :=
  ((firstDepths ds).filter fun d => 2 < d.2.2.natAbs && (s.contextsOf c).contains d.1).foldl (fun s d =>
    (s.setTrib d.1 { s.trib d.1 with deviation := true }).raise (d.1 / 96) 0x1024 2
      (mkWord [(0, 12, d.1), (12, 1, bitOf d.2.1), (13, 32, twos 32 d.2.2)]) m) s

/-! ### Latency messages (R22; 08 R192) -/

def leWord (n v : Nat) : List Byte := leBytes n v

/-- The bytes of the class 1 message of a channel. -/
def Channel.latencyBytes (ch : Channel) : List Byte :=
  ch.locals.flatMap fun l => leWord 8 l ++ leWord 4 (ch.trib l).txLat ++ leWord 4 (ch.trib l).rxLat

/-- A latency message goes ahead of the host messages that wait, in place of one that still waits itself. -/
def State.sendLatency (s : State) (c : Nat) : State :=
  s.onChan c fun ch =>
    let q := ch.tf.queue.filter fun m => m.cls ≠ 1
    let m : List OutMsg := if ch.locals.isEmpty then [] else [{ cmd := none, cls := 1, bytes := ch.latencyBytes }]
    { ch with tf := { ch.tf with latencyDue := false, latencyMf := 0, queue := m ++ q } }

def execLatencyMessageDue (c : Fin 32) (s : State) : Out :=
  let t := (s.chan c).tf
  occurs s (s.boot.powered && t.sending && (t.latencyDue || 1024 ≤ t.latencyMf)) (s.sendLatency c)

/-- Figures that a received class 1 message holds for one LOCAL index; MFC is the transmit multiframe count at which they arrive
(DESIGN CHOICE, log 127). Each change of FAR_KNOWN has an event of its own. -/
def State.farFigures (s : State) (c l : Nat) (far : Option (Nat × Nat)) : State :=
  let t := (s.chan c).trib l
  let flips := t.far.isSome != far.isSome
  if t.state = .free || t.far = far then s
  else
    let s := if flips && t.flipped then s.latencyEvent (96 * c + l) else s
    let s := s.setTrib (96 * c + l) { (s.chan c).trib l with far := far, latMfc := (s.chan c).tf.mfc, flipped := flips || t.flipped }
    s.latencyChanged (96 * c + l)

/-- A class 1 message is acted on: of the contexts that its sender shares, listed ones take the far end's figures and the
others lose them. -/
def State.farMessage (s : State) (c : Nat) (bytes : List Byte) (shared : Nat → Bool) : State :=
  let n := bytes.length / 16
  let recs := (List.range n).map fun k =>
    ((byteWord bytes (2 * k)).bits 6 0, (byteWord bytes (2 * k + 1)).bits 31 0, (byteWord bytes (2 * k + 1)).bits 63 32)
  ((s.chan c).locals.filter shared).foldl (fun s l => s.farFigures c l ((recs.find? fun p => p.1 = l).map (·.2))) s

/-! ### Commands (R21, R28) -/

/-- The context that PARAM_0 [11:0] names lies in the target channel's block (06 R140). -/
def Desc.tribIndex (d : Desc) : Option Nat :=
  let i := d.p0.bits 11 0
  if i / 96 = d.target then some i else none

def execTribLatencyQuery (id : Nat) (s : State) : Out :=
  withCmd s id 0x1010 fun f =>
    match f.desc.tribIndex with
    | none => s.finish f 0x01
    | some i => ((s.setTrib i { s.trib i with deviation := false }).reported (i / 96)).answer f ((s.trib i).report i)

/-- The indices that a release or reinstate names are all of the target's block and not Free, and their count is legal. -/
def State.releaseOk (s : State) (d : Desc) (ws : List Word) : Bool :=
  let n := d.p0.bits 6 0
  0 < n && n ≤ 96 && (List.range n).all fun k => half ws k / 96 = d.target && (s.trib (half ws k)).state ≠ .free

/-- RELEASED set on the named tributaries, their bounds dropped; or the promise put back in force (R27). -/
def State.setReleased (s : State) (v : Bool) (is : List Nat) : State :=
  is.foldl (fun s i =>
    let t := s.trib i
    if t.released = v then s
    else (s.setTrib i { t with released := v, txBound := if v then 0 else t.txBound, rxBound := if v then 0 else t.rxBound
                               latMfc := (s.chan (i / 96)).tf.mfc }).latencyChanged i) s

def State.release (s : State) (f : Flight) (ws : List Word) (v : Bool) : State :=
  if s.releaseOk f.desc ws then
    (s.setReleased v ((List.range (f.desc.p0.bits 6 0)).map (half ws))).finish f 0
  else s.finish f 0x01

def execTribPromiseRelease (id : Nat) (ws : List Word) (s : State) : Out :=
  withCmdIf s id 0x1011 (fun d => !d.p0.bit 8) fun f => s.release f ws true

def execTribPromiseReinstate (id : Nat) (ws : List Word) (s : State) : Out :=
  withCmdIf s id 0x1011 (fun d => d.p0.bit 8) fun f => s.release f ws false

end Sys2Proof.Machine
end

