-- ==== Sys2Proof/Machine/Tributaries.lean ====
section
/-! DEFINITION. Tributary contexts, the rate window, the slot table entries, and the tributary commands (06 R102 to R125,
R139, R140). -/

namespace Sys2Proof.Machine

/-- Whether multiframe count a lies before b; counts wrap (08 R173). -/
def mfBefore (a b : BitVec 32) : Bool := a ≠ b && (b - a).toNat < 2147483648

/-! ### Groups as far as contexts need them (R133) -/

/-- The group that channel c belongs to. -/
def State.groupOf (s : State) (c : Nat) : Option Nat :=
  (s.groups.find? fun q => q.2.members.getLsbD c).map Prod.fst

/-- The channels whose slots may carry context i. -/
def State.spanOf (s : State) (i : Nat) : List Nat := s.spanFrom (i / 96) (s.trib i)

/-- Slots in use for context i over the channels that may carry it. -/
def State.slotCountOf (s : State) (i : Nat) (standby : Bool) : Nat :=
  ((s.spanOf i).map fun c => ((s.chan c).sl.naming (xor (s.chan c).sl.activeB standby) i).length).sum

/-- Any entry of either bank of any channel names context i. -/
def State.named (s : State) (i : Nat) : Bool :=
  s.channels.any fun p => [false, true].any fun b => (p.2.sl.bank b).any fun e => entryTrib e.2 = some i

/-! ### The rate window (R108) -/

/-- A rate (10 kbit/s) with a tolerance in ppm fits N slots with F fixed-stuff words. -/
def rateFits (rate tol n stuff : Nat) : Bool :=
  let k : Int := 800000000
  stuff + 1 ≤ 124 * n && (rate * (1000000 + tol) : Int) ≤ k * (126 * n - stuff - 1)
    && k * (124 * n - stuff + 1) ≤ (rate : Int) * (1000000 - tol)

/-- NEXT_RATE, 0 standing for NOM_RATE. -/
def Trib.next (t : Trib) : Nat := if t.nextRate = 0 then t.nomRate else t.nextRate

/-! ### States (R103) -/

def TribState.code : TribState → Nat
  | .free => 0 | .ready => 1 | .carrying => 2 | .disabled => 3 | .failed => 4

/-- The state of a provisioned context follows whether the active bank names it. -/
def Trib.follow (t : Trib) (n : Nat) : Trib :=
  match t.state with
  | .free => t
  | .ready => if 0 < n then { t with state := .carrying, failRun := 0, passRun := 0, slipRun := 0, cleanRun := 0 } else t
  | .carrying | .disabled | .failed => if n = 0 then { t with state := .ready } else t

/-- Its last frame has left: a context that still has slots is Disabled (R106). -/
def Trib.drained (t : Trib) : Trib :=
  { t with state := if t.state = .ready then .ready else .disabled, draining := [] }

def State.refreshTrib (s : State) (i : Nat) : State := s.setTrib i ((s.trib i).follow (s.slotCountOf i false))

/-- Contexts of a channel's block after a change of slots. -/
def State.refreshTribs (s : State) (c : Nat) : State :=
  (s.chan c).locals.foldl (fun s l => s.refreshTrib (96 * c + l)) s

/-- The blocks that a change of channel c's slots can touch: its own and its group's anchor's. -/
def State.refreshSlots (s : State) (c : Nat) : State :=
  match (s.groupOf c).bind fun g => anchorOf (s.group g).members with
  | some a => if a = c then s.refreshTribs c else (s.refreshTribs c).refreshTribs a
  | none => s.refreshTribs c

/-! ### The context record (R102) -/

def Trib.ofWords (ws : List Word) : Trib :=
  let w0 := wd ws 0
  let w1 := wd ws 1
  let w2 := wd ws 2
  { state := .ready, client := w0.bits 17 16, cipher := w0.bit 18, burst := w0.bit 19, group := w0.bits 23 20
    shedRank := w0.bits 31 24, nomRate := w0.bits 63 32, fixedStuff := w1.bits 15 0, tolPpm := w1.bits 25 16
    nextRate := w1.bits 63 32, txBound := w2.bits 31 0, rxBound := w2.bits 63 32 }

/-- Reserved bits and state fields of a supplied record are 0. -/
def tribClear (ws : List Word) : Bool :=
  (wd ws 0).bits 15 12 = 0 && (wd ws 1).bits 31 26 = 0 && (List.range 5).all fun k => wd ws (3 + k) = 0

def State.tribWords (s : State) (i : Nat) : List Word :=
  let t := s.trib i
  [mkWord [(0, 12, i), (16, 2, t.client), (18, 1, bitOf t.cipher), (19, 1, bitOf t.burst), (20, 4, t.group),
           (24, 8, t.shedRank), (32, 32, t.nomRate)],
   mkWord [(0, 16, t.fixedStuff), (16, 10, t.tolPpm), (32, 32, t.nextRate)],
   mkWord [(0, 32, t.txBound), (32, 32, t.rxBound)],
   mkWord [(0, 8, t.state.code), (8, 16, s.slotCountOf i false), (24, 16, s.slotCountOf i true)], 0, 0, 0, 0]

/-- The stated figures stay within the bounds that are asked for (02 R25). -/
def withinBounds (tx rx : Nat) (t : Trib) : Bool :=
  (t.txBound = 0 || tx ≤ t.txBound) && (t.rxBound = 0 || rx ≤ t.rxBound)

/-! ### Commands (R104 to R107, R139, R140) -/

/-- A command row on the context that it names. -/
def withTrib (s : State) (id op : Nat) (k : Flight → Nat → Trib → State) : Out :=
  withCmd s id op fun f =>
    match f.desc.tribIndex with
    | some i => k f i (s.trib i)
    | none => s.finish f 0x01

/-- What R104 step 1 asks of a new context's fields. -/
def State.fieldsOk (s : State) (c : Nat) (t : Trib) : Bool :=
  t.client < 2 && t.group < 9 && t.tolPpm ≤ 1000
    && (t.group = 0 || anchorOf (s.group (t.group - 1)).members = some c)
    && (!t.burst || (s.chan c).pm.mode = .leaf)

/-- The context enters Ready, with its figures stated and an empty cipher context (R104; 07 R145). -/
def State.provision (s : State) (i : Nat) (t : Trib) : State :=
  let c := i / 96
  let (tx, rx) := s.stated i t
  (((s.setTrib i { t with txLat := tx, rxLat := rx, latMfc := (s.chan c).tf.mfc }).onChan c fun ch =>
    ch.setCipher (i % 96) {}).refreshTrib i).oweLatency c |>.reported c

def execTribProvision (id : Nat) (ws : List Word) (s : State) : Out :=
  withTrib s id 0x1000 fun f i old =>
    let t := Trib.ofWords ws
    let (tx, rx) := s.stated i t
    if !tribClear ws || (wd ws 0).bits 11 0 ≠ i || !s.fieldsOk (i / 96) t then s.finish f 0x01
    else if old.state ≠ .free then s.finish f 0x20
    else if !withinBounds tx rx t then s.finish f 0x03
    else
      let s := s.provision i t
      (s.writeBuf f 64 (wordsBytes ((s.trib i).report i))).finish f 0

/-- A bank switch of channel c is pending: proposed or agreed here, or on the anchor of its group (R127, R137). -/
def State.bankPending (s : State) (c : Nat) : Bool :=
  let p (c : Nat) : Bool := (s.chan c).sl.proposal.isSome || (s.chan c).sl.agreement.isSome
  p c || match (s.groupOf c).bind fun g => anchorOf (s.group g).members with
    | some a => p a
    | none => false

/-- The fields that TRIB_MODIFY may not change are those in force. -/
def Trib.keeps (new old : Trib) : Bool :=
  new.client = old.client && new.cipher == old.cipher && new.burst == old.burst && new.group = old.group
    && new.fixedStuff = old.fixedStuff

def execTribModify (id : Nat) (ws : List Word) (s : State) : Out :=
  withTrib s id 0x1001 fun f i old =>
    let t := Trib.ofWords ws
    let n := s.slotCountOf i false
    if old.state = .free || !tribClear ws || (wd ws 0).bits 11 0 ≠ i || 1000 < t.tolPpm || !t.keeps old then s.finish f 0x01
    else if s.bankPending (i / 96) then s.finish f 0x02
    else if 0 < n && !rateFits t.nomRate t.tolPpm n t.fixedStuff then s.finish f 0x21
    else if !withinBounds old.txLat old.rxLat t then s.finish f 0x03
    else
      (s.setTrib i { old with nomRate := t.nomRate, nextRate := t.nextRate, tolPpm := t.tolPpm, shedRank := t.shedRank
                              txBound := t.txBound, rxBound := t.rxBound }).finish f 0

def Desc.enables (d : Desc) : Bool := d.p1.bit 0

def execTribEnable (id : Nat) (s : State) : Out :=
  withCmdIf s id 0x1002 Desc.enables fun f =>
    match f.desc.tribIndex with
    | none => s.finish f 0x01
    | some i =>
      match (s.trib i).state with
      | .free | .ready => s.finish f 0x01
      | .carrying | .failed => s.finish f 0
      | .disabled => (s.setTrib i { s.trib i with state := .carrying }).finish f 0

/-- A disable drains the frame that has already been taken, when the channel sends frames at all (R106). -/
def State.disableTrib (s : State) (f : Flight) (i : Nat) : State :=
  if (s.chan (i / 96)).tf.sending then
    (s.setTrib i { s.trib i with draining := (s.trib i).draining ++ [f.id] }).run f
  else (s.setTrib i { s.trib i with state := .disabled }).finish f 0

def execTribDisable (id : Nat) (s : State) : Out :=
  withCmdIf s id 0x1002 (fun d => !d.enables) fun f =>
    match f.desc.tribIndex with
    | none => s.finish f 0x01
    | some i =>
      match (s.trib i).state with
      | .free | .ready => s.finish f 0x01
      | .disabled => s.finish f 0
      | .carrying | .failed => s.disableTrib f i

def execTribDelete (id : Nat) (s : State) : Out :=
  withTrib s id 0x1003 fun f i _ =>
    if s.named i then s.finish f 0x22
    else
      ((s.onChan (i / 96) fun ch => { ch with tribs := ch.tribs.erase (i % 96), cx := ch.cx.erase (i % 96) }).oweLatency
        (i / 96)).finish f 0

def execTribQuery (id : Nat) (s : State) : Out :=
  withTrib s id 0x1004 fun f i _ => s.answer f (s.tribWords i)

def Trib.counterWords (t : Trib) : List Word :=
  [BitVec.ofNat 64 t.frames.toNat, mkWord [(0, 32, t.framesErrored.toNat), (32, 32, t.checkFail.toNat)],
   mkWord [(0, 32, t.pjTx.toNat), (32, 32, t.njTx.toNat)], mkWord [(0, 32, t.pjRx.toNat), (32, 32, t.njRx.toNat)],
   mkWord [(0, 32, t.framesRepl.toNat), (32, 16, t.slip.toNat), (48, 16, t.jcInvalid.toNat)],
   mkWord [(0, 32, t.blkSyncLoss.toNat), (32, 32, t.blkHdrErr.toNat)], 0, 0]

def execTribCounters (id : Nat) (s : State) : Out :=
  withTrib s id 0x1005 fun f _ t => s.answer f t.counterWords

/-- Insertion by rising SHED_RANK, then falling index. -/
def insertShed (ch : Channel) (l : Nat) : List Nat → List Nat
  | [] => [l]
  | k :: ks =>
    if (ch.trib l).shedRank < (ch.trib k).shedRank || ((ch.trib l).shedRank = (ch.trib k).shedRank && k < l)
    then l :: k :: ks else k :: insertShed ch l ks

/-- The shed order of a channel: LOCAL indices of its Carrying and Failed tributaries (R139). -/
def Channel.shedOrder (ch : Channel) : List Nat :=
  (ch.locals.filter fun l => (ch.trib l).state = .carrying || (ch.trib l).state = .failed).foldl
    (fun acc l => insertShed ch l acc) []

def execTribShedList (id : Nat) (s : State) : Out :=
  withCmd s id 0x1006 fun f =>
    let c := f.desc.target
    s.answerBytes f (((s.chan c).shedOrder.map (96 * c + ·) ++ [0xFFFF]).flatMap (leBytes 2))

/-! ### Failure and recovery (R114, R121) -/

def State.onTrib (s : State) (i : Nat) (g : Trib → Trib) : State := s.setTrib i (g (s.trib i))

/-- A tributary becomes Failed with a cause and event 0x1020 is raised. -/
def State.failTrib (s : State) (i cause : Nat) : State :=
  (s.onTrib i fun t => { t with state := .failed, cause := cause, passRun := 0, cleanRun := 0 }).raise (i / 96) 0x1020 3
    (mkWord [(0, 12, i), (12, 4, cause)])

def execTributaryFailed (i : Fin 3072) (s : State) : Out :=
  let t := s.trib i
  occursWith s (if s.boot.powered && t.state = .carrying then
      (if 4 ≤ t.failRun then some 1 else if 4 ≤ t.slipRun then some 5 else none) else none)
    fun cause => s.failTrib i cause

def execTributaryRecovered (i : Fin 3072) (s : State) : Out :=
  let t := s.trib i
  occurs s (s.boot.powered && t.state = .failed && !t.stuck && 4 ≤ (if t.cause = 5 then t.cleanRun else t.passRun))
    ((s.onTrib i fun t => { t with state := .carrying, failRun := 0, slipRun := 0 }).raise (i.val / 96) 0x1021 1
      (mkWord [(0, 12, i)]))

end Sys2Proof.Machine
end

