-- ==== Sys2Proof/Machine/Slots.lean ====
section
/-! DEFINITION. The slot table's commands, the checks of a standby bank, the bank switch, and concatenated groups
(06 R122 to R141, R497, R498; 08 R180 to R182). -/

namespace Sys2Proof.Machine

/-! ### Helpers -/

def State.onSl (s : State) (c : Nat) (g : Slots → Slots) : State := s.onChan c fun ch => { ch with sl := g ch.sl }

/-- A loading exchange or profile change is pending on the channel. -/
def Loading.busy (x : Loading) : Bool := x.proposal.isSome || x.agreement.isSome

/-- The same with the exchanges of a hub's pairs and its announced downstream set (13 R317). -/
def Channel.lxBusy (ch : Channel) : Bool :=
  ch.ld.busy || ch.pm.downstream.isSome || ch.pm.leaves.any fun p => p.2.ld.busy

/-- The 3,200 bytes of a bank: 16-bit entries in rising index, little-endian. -/
def Slots.bankBytes (x : Slots) (b : Bool) : List Byte :=
  (List.range 1600).flatMap fun n => leBytes 2 (x.entry b n).toNat

/-- The standby checksum over one channel or the members of a group (R126). -/
def State.standbyCrc (s : State) (cs : List Nat) : BitVec 32 :=
  BitVec.ofNat 32 (crc32c (cs.flatMap fun c => (s.chan c).sl.bankBytes (!(s.chan c).sl.activeB)))

/-- Channels that switch with c: itself, or the members of its group. -/
def State.switchers (s : State) (c : Nat) (g : Option Nat) : List Nat :=
  match g with
  | some g => membersOf (s.group g).members
  | none => [c]

/-- The multiframe count of a switch: the channel's own, or the group's (R137). -/
def State.switchCount (s : State) (c : Nat) (g : Option Nat) : BitVec 32 :=
  match g with
  | some g => (s.group g).mfc
  | none => (s.chan c).tf.mfc

/-! ### Entries (R122 to R125, R140) -/

/-- First entry, count and bank of a SLOT_WRITE or SLOT_READ. -/
def Desc.slotRange (d : Desc) : Nat × Nat × Bool := (d.p0.bits 15 0, d.p0.bits 31 16, d.p0.bit 32)

/-- Channels whose entries a range covers. -/
def rangeChans (first n : Nat) : List Nat :=
  if n = 0 then [] else (List.range ((first + n - 1) / 1600 - first / 1600 + 1)).map (first / 1600 + ·)

/-- The range is legal for the TARGET: inside the channel's block, or inside blocks of group members with TARGET 32. -/
def State.rangeOk (s : State) (d : Desc) : Bool :=
  let (first, n, _) := d.slotRange
  0 < n && n ≤ 1600 && first + n ≤ 51200 && (rangeChans first n).all fun c =>
    if d.target = 32 then (s.groupOf c).isSome else c = d.target

/-- The issuing link owned every channel of a list when the command started (03 R45; 04 R69). -/
def Flight.rightsTo (f : Flight) (cs : List Nat) : Bool := cs.all f.owned.getLsbD

/-- Entries of the standby bank only may be written, or of either bank of a Dark channel (R124, R125). -/
def State.bankWritable (s : State) (c : Nat) (b : Bool) : Bool :=
  (s.chan c).pw.level = .dark || b != (s.chan c).sl.activeB

/-- The channel is armed or has a switch pending, itself or with its group (R125). -/
def State.slotsLocked (s : State) (c : Nat) : Bool := (s.chan c).sl.armed.isSome || s.bankPending c

def State.writeEntry (s : State) (b : Bool) (n : Nat) (e : BitVec 16) : State :=
  s.onSl (n / 1600) fun x => x.setBank b ((x.bank b).put 0 (n % 1600) e)

def State.writeEntries (s : State) (first n : Nat) (b : Bool) (ws : List Word) : State :=
  let s := (List.range n).foldl (fun s k => s.writeEntry b (first + k) (BitVec.ofNat 16 (half ws k))) s
  (rangeChans first n).foldl State.refreshSlots s

def execSlotWrite (id : Nat) (ws : List Word) (s : State) : Out :=
  withCmd s id 0x1100 fun f =>
    let (first, n, b) := f.desc.slotRange
    let cs := rangeChans first n
    if !s.rangeOk f.desc || (List.range n).any fun k => 8192 ≤ half ws k then s.finish f 0x01
    else if f.desc.target < 32 && (s.groupOf f.desc.target).isSome then s.finish f 0x01
    else if f.desc.target = 32 && !f.rightsTo cs then s.finish f 0x04
    else if cs.any fun c => !s.bankWritable c b then s.finish f 0x01
    else if cs.any s.slotsLocked then s.finish f 0x02
    else (s.writeEntries first n b ws).finish f 0

def execSlotRead (id : Nat) (s : State) : Out :=
  withCmd s id 0x1101 fun f =>
    let (first, n, b) := f.desc.slotRange
    if !s.rangeOk f.desc then s.finish f 0x01
    else if f.desc.target = 32 && !f.rightsTo (rangeChans first n) then s.finish f 0x04
    else
      (s.writeBuf f 0 ((List.range n).flatMap fun k =>
        leBytes 2 ((s.chan ((first + k) / 1600)).sl.entry b ((first + k) % 1600)).toNat)).finish f 0

def execSlotCopy (id : Nat) (s : State) : Out :=
  withCmd s id 0x1102 fun f =>
    let c := f.desc.target
    if s.slotsLocked c then s.finish f 0x02
    else (s.onSl c fun x => x.setBank (!x.activeB) (x.bank x.activeB)).finish f 0

/-! ### The standby bank's checks (R126) -/

/-- A hub slot lies in a leaf's window (13 R310). -/
def Leaf.holds (x : Leaf) (slot : Nat) : Bool := x.slotBase ≤ slot && slot < x.slotBase + x.slotCount

/-- The slots lie in one window: of one leaf at a hub, of the leaf itself at a leaf (13 R310). -/
def Channel.oneWindow (ch : Channel) (slots : List Nat) : Bool :=
  match ch.pm.mode with
  | .pointToPoint => true
  | .hub => ch.pm.leaves.any fun p => p.2.state ≠ .free && slots.all p.2.holds
  | .leaf => slots.all fun n => ch.pm.slotBase ≤ n && n < ch.pm.slotBase + ch.pm.slotCount

/-- Step 1 and 2 for one used entry of channel c's standby bank. -/
def State.entryOk (s : State) (c slot i : Nat) : Bool :=
  let ch := s.chan c
  i < 3072 && slot < ch.slotLimit && (s.trib i).state ≠ .free && (s.spanOf i).contains c
    && ch.oneWindow (ch.sl.naming (!ch.sl.activeB) i)

/-- A non-zero entry with USED 0 counts as an entry of its slot, an entry of zeros as none (DESIGN CHOICE, log 126). -/
def State.entriesOk (s : State) (c : Nat) : Bool :=
  let x := (s.chan c).sl
  (x.bank (!x.activeB)).all fun p =>
    p.1 < (s.chan c).slotLimit && match entryTrib p.2 with
      | some i => s.entryOk c p.1 i
      | none => true

/-- Contexts that a bank of some of the channels names. -/
def State.bankTribs (s : State) (cs : List Nat) : List Nat :=
  (cs.flatMap fun c => ([false, true].flatMap fun b => (((s.chan c).sl.bank b).filterMap fun p => entryTrib p.2))).eraseDups

/-- Slots of context i in use in both banks, over the channels that may carry it: N∩. -/
def State.commonSlots (s : State) (i : Nat) : Nat :=
  ((s.spanOf i).map fun c => ((s.chan c).sl.inUse (s.chan c).sl.activeB true i).length).sum

/-- Step 3 for one context: its unchanged slots at the lower rate, and its new slot count at NEXT_RATE. -/
def State.ratesOk (s : State) (i : Nat) : Bool :=
  let t := s.trib i
  let n := s.slotCountOf i true
  let k := s.commonSlots i
  n = 0 || (rateFits t.next t.tolPpm n t.fixedStuff
    && (k = 0 || rateFits (min t.nomRate t.next) t.tolPpm k t.fixedStuff))

/-- Step 4: at a hub, a context that is not released has slots in windows of burst leaves in one bank and of dedicated leaves
in the other. No switch moves a context into or out of a group, for its GROUP is fixed (R105). -/
def State.movesWindow (s : State) (i : Nat) : Bool :=
  let ch := s.chan (i / 96)
  let burst (b : Bool) : List Bool := (ch.sl.naming b i).flatMap fun n =>
    (ch.pm.leaves.filter fun q => q.2.holds n).map fun q => q.2.burst
  ch.pm.mode = .hub && !(s.trib i).released && (burst false).any fun a => (burst true).any fun b => a != b

/-- The first status of R126, steps 1 to 4, that applies to the standby bank of some channels; 0: none. -/
def State.standbyStatus (s : State) (cs : List Nat) : Nat :=
  let is := s.bankTribs cs
  if cs.any fun c => !s.entriesOk c then 0x22
  else if is.any fun i => !s.ratesOk i then 0x23
  else if is.any s.movesWindow then 0x03
  else 0

/-! ### Bank switch commands (R126, R127, R137, R140) -/

/-- The group of a BANK_SWITCH or BANK_ARM; its anchor is where the switch is negotiated. Without PARAM_0 [11] the group field is
ignored (DESIGN CHOICE, log 155). -/
def Desc.switchGroup (d : Desc) : Option Nat := if d.p0.bit 11 then some (d.p0.bits 10 8) else none

/-- The channel that negotiates: the TARGET, or the anchor of the group named; none when the fields break R137. -/
def State.switchAnchor (s : State) (d : Desc) : Option Nat :=
  match d.switchGroup with
  | some g => if d.target = 32 then anchorOf (s.group g).members else none
  | none => if d.target < 32 && (s.groupOf d.target).isNone then some d.target else none

/-- R126: a channel that cannot negotiate now. -/
def State.switchBusy (s : State) (c : Nat) : Bool :=
  !(s.chan c).awake || s.bankPending c || (s.chan c).lxBusy

/-- LEAD, 0 standing for 8; none outside 4 to 40. -/
def Desc.bankLead (d : Desc) : Option Nat :=
  let l := d.p0.bits 5 0
  if l = 0 then some 8 else if 4 ≤ l && l ≤ 40 then some l else none

/-- The multiframe that lies n multiframes ahead of channel c's current one begins before a deadline (02 R31). -/
def State.beginsBefore (s : State) (c n : Nat) (deadline : Option Nat) : Bool :=
  match deadline with
  | some d => s.now + (256 * n - (s.chan c).tf.frame) * 8000 < d
  | none => true

/-- Leaves in state Active, with their numbers. -/
def Channel.activeLeaves (ch : Channel) : List (Nat × Leaf) := ch.pm.leaves.filter fun p => p.2.state = .active

/-- The hub's switch is committed once every Active leaf has accepted in time (13 R317). -/
def State.hubCommit (s : State) (c : Nat) : State :=
  let ch := s.chan c
  match ch.sl.proposal with
  | some p =>
    if ch.pm.mode = .hub && p.live && !p.committed && mfBefore ch.tf.mfc (p.mI - 1)
        && ch.activeLeaves.all fun q => q.2.bankAccept.isSome then
      s.onSl c fun x => { x with proposal := some { p with accepted := some p.mI, committed := true } }
    else s
  | none => s

def State.propose (s : State) (f : Flight) (c : Nat) (g : Option Nat) (lead : Nat) : State :=
  let cs := s.switchers c g
  let p : BankProposal := { id := some f.id, live := s.beginsBefore c lead (s.deadline f), group := g
                            mI := s.switchCount c g + BitVec.ofNat 32 lead, crc := s.standbyCrc cs }
  let s := s.onChan c fun ch => { ch with
    sl := { ch.sl with proposal := some p }
    pm := { ch.pm with leaves := ch.pm.leaves.map fun q => (q.1, { q.2 with bankAccept := none, bankFar := none }) } }
  (s.hubCommit c).run f

def execBankSwitch (id : Nat) (s : State) : Out :=
  withCmd s id 0x1110 fun f =>
    let g := f.desc.switchGroup
    match s.switchAnchor f.desc, f.desc.bankLead with
    | some c, some lead =>
      let cs := s.switchers c g
      let st := s.standbyStatus cs
      if (s.chan c).pm.mode = .leaf then s.finish f 0x01
      else if g.isSome && !f.rightsTo cs then s.finish f 0x04
      else if cs.any s.switchBusy then s.finish f 0x02
      else if st ≠ 0 then s.finish f st
      else s.propose f c g lead
    | _, _ => s.finish f 0x01

def Desc.arms (d : Desc) : Bool := d.p0.bit 0

def execBankArm (id : Nat) (s : State) : Out :=
  withCmdIf s id 0x1111 Desc.arms fun f =>
    let g := f.desc.switchGroup
    match s.switchAnchor f.desc with
    | some c =>
      let cs := s.switchers c g
      let st := s.standbyStatus cs
      let crc := BitVec.ofNat 32 (f.desc.p1.bits 31 0)
      if g.isSome && !f.rightsTo cs then s.finish f 0x04
      else if cs.any s.switchBusy then s.finish f 0x02
      else if st ≠ 0 then s.finish f st
      else if crc ≠ s.standbyCrc cs then s.finish f 0x21
      else (cs.foldl (fun s m => s.onSl m fun x => { x with armed := some crc, armGroup := g }) s).finish f 0
    | none => s.finish f 0x01

def execBankDisarm (id : Nat) (s : State) : Out :=
  withCmdIf s id 0x1111 (fun d => !d.arms) fun f =>
    let g := f.desc.switchGroup
    match s.switchAnchor f.desc with
    | some c =>
      let cs := s.switchers c g
      if g.isSome && !f.rightsTo cs then s.finish f 0x04
      else if (s.chan c).sl.agreement.isSome then s.finish f 0x02
      else (cs.foldl (fun s m => s.onSl m fun x => { x with armed := none, armGroup := none }) s).finish f 0
    | none => s.finish f 0x01

/-- PHASE, M_LOCAL and M_FAR of BANK_STATUS; multiframes are shown once they are agreed. -/
def Slots.phase (x : Slots) : Nat × BitVec 32 × BitVec 32 :=
  match x.proposal, x.agreement with
  | some p, _ => if p.committed then (3, p.mI, p.accepted.getD 0) else (2, 0, 0)
  | none, some a => (3, a.mR, a.mI)
  | none, none => (if x.armed.isSome then 1 else 0, 0, 0)

/-- The slot table whose negotiation decides for channel c: that of its group's anchor, or its own (R137). -/
def State.negotiator (s : State) (c : Nat) : Slots :=
  (s.chan (((s.groupOf c).bind fun g => anchorOf (s.group g).members).getD c)).sl

/-- A group member shows its group's switch, with the checksum that runs over all members (R126, R137; DEDUCED, log 125). -/
def execBankStatus (id : Nat) (s : State) : Out :=
  withCmd s id 0x1112 fun f =>
    let c := f.desc.target
    let ch := s.chan c
    let (ph, mL, mF) := (s.negotiator c).phase
    s.answer f [mkWord [(0, 1, bitOf ch.sl.activeB), (1, 1, bitOf ch.rf.bank), (2, 2, ph),
                        (32, 32, (s.standbyCrc (s.switchers c (s.groupOf c))).toNat)],
                mkWord [(0, 32, mL.toNat), (32, 32, mF.toNat)], 0, 0]

/-! ### Messages received (R127 to R129, R131, R497) -/

def State.lapseEvent (s : State) (c reason : Nat) : State := s.raise c 0x1102 2 (BitVec.ofNat 64 reason)

/-- A REJECT of a proposal's M_I, sent for one multiframe; a proposal already being rejected is left as it is. -/
def State.bankReject (s : State) (c reason : Nat) (mI : BitVec 32) (g : Option Nat) : State :=
  s.onSl c fun x =>
    if x.reject.any fun r => r.2.1 = mI then x else { x with reject := some (reason, mI, 256, g) }

/-- Answer to a PROPOSE that no earlier step of R127 has dealt with: steps 3 to 6. `count` is that of its frame. -/
def State.answerBank (s : State) (c : Nat) (g : Option Nat) (mI crc count : BitVec 32) : State :=
  let x := (s.chan c).sl
  if x.agreement.isSome || x.proposal.isSome || (s.switchers c g).any (fun m => (s.chan m).ld.busy) then s.bankReject c 3 mI g
  else if x.armed.isNone || x.armGroup ≠ g then s.bankReject c 1 mI g
  else if crc ≠ s.standbyCrc (s.switchers c g) then s.bankReject c 2 mI g
  else s.onSl c fun x =>
    { x with agreement := some { mI := mI, mR := s.switchCount c g + (mI - count), crc := crc, group := g }, reject := none }

/-- An ACCEPT, or under R131 the far end's own proposal with an equal checksum: committed when it arrives before
multiframe M_I − 1 begins (R128). -/
def State.bankAccepted (s : State) (c : Nat) (p : BankProposal) (mR : BitVec 32) : State :=
  if p.accepted.isSome then s
  else s.onSl c fun x =>
    { x with proposal := some { p with accepted := some mR, committed := mfBefore (s.switchCount c p.group) (p.mI - 1) } }

def State.bankPropose (s : State) (c : Nat) (g : Option Nat) (mI crc count : BitVec 32) : State :=
  let x := (s.chan c).sl
  match x.proposal, x.agreement with
  | some p, _ =>
    if !p.live || p.switched.isSome then s.answerBank c g mI crc count
    else if p.accepted.isSome then s
    else if crc = p.crc then s.bankAccepted c p mI
    else (s.onSl c fun x => { x with proposal := none }).finishOpt p.id 0x21
  | none, some a =>
    if a.mI = mI then s
    else if a.committed then s.bankReject c 3 mI g
    else ((s.onSl c fun x => { x with agreement := none }).lapseEvent c 1).answerBank c g mI crc count
  | none, none => s.answerBank c g mI crc count

/-- The message of words 8 and 9 of a frame whose overhead check passed; `count` is the frame's multiframe count, or its
group multiframe count in a group switch (08 R182). -/
def State.bankMessage (s : State) (c : Nat) (w8 w9 : Word) (count : BitVec 32) : State :=
  let x := (s.chan c).sl
  let g : Option Nat := if w8.bit 5 then some (w8.bits 8 6) else none
  let mI := BitVec.ofNat 32 (w9.bits 31 0)
  let mR := BitVec.ofNat 32 (w9.bits 63 32)
  match w8.bits 2 0 with
  | 1 => s.bankPropose c g mI (BitVec.ofNat 32 (w8.bits 63 32)) count
  | 2 => match x.proposal with
    | some p => if p.mI = mI && p.live then s.bankAccepted c p mR else s
    | none => s
  | 3 => match x.proposal with
    | some p =>
      if p.mI = mI && p.live && !p.committed then
        ((s.onSl c fun x => { x with proposal := none }).lapseEvent c 2).finishOpt p.id
          (if w8.bits 4 3 = 2 then 0x21 else 0x20)
      else s
    | none => s
  | 4 => match x.agreement with
    | some a =>
      if a.mI = mI && mfBefore (s.switchCount c a.group) (a.mR - 1) then
        s.onSl c fun x => { x with agreement := some { a with committed := true } }
      else s
    | none => s
  | _ => s

/-- The last switch multiframe received from the Active leaves, once every one of them has switched (13 R317). -/
def Channel.leavesFar (ch : Channel) : Option (BitVec 32) :=
  let later (a b : BitVec 32) : BitVec 32 := if mfBefore a b then b else a
  match ch.activeLeaves with
  | [] => ch.sl.proposal.map (·.mI)
  | q :: qs => qs.foldl (fun m q => match m, q.2.bankFar with
      | some a, some b => some (later a b)
      | _, _ => none) q.2.bankFar

/-- The command completes once this end has switched and the far end's switch multiframe has been received (R132), at a
hub that of every Active leaf. -/
def State.bankDone (s : State) (c : Nat) : State :=
  let s := if (s.chan c).pm.mode = .hub then
      s.onSl c fun x => { x with proposal := x.proposal.map fun p => { p with far := (s.chan c).leavesFar } }
    else s
  match (s.chan c).sl.proposal with
  | some p =>
    match p.switched, p.far with
    | some m, some n =>
      (s.onSl c fun x => { x with proposal := none }).finishOpt p.id 0 (some m.toNat) (some n.toNat)
    | _, _ => s
  | none => s

/-- What the bank indicator of a received frame says of the far end (R129, R132, R497). The far end's switch for a proposal of
this end comes at the agreed multiframe or, when it follows, after it, and for an agreement of this end at M_I or after it; an
indicator before that is the end of an earlier switch. -/
def State.bankIndicator (s : State) (c : Nat) (sw : Bool) (count : BitVec 32) : State :=
  let x := (s.chan c).sl
  let s := match x.proposal with
    | some p => if sw && p.far.isNone && p.accepted.any fun m => !mfBefore count m then
        (s.onSl c fun x => { x with proposal := some { p with far := some count } }).bankDone c else s
    | none => s
  match x.agreement with
  | some a =>
    if sw && !mfBefore count a.mI then s.onSl c fun x => { x with agreement := some { a with follow := true } }
    else if count = a.mI then (s.onSl c fun x => { x with agreement := none }).lapseEvent c 1
    else s
  | none => s

/-! ### The switch (R130) -/

/-- NEXT_RATE replaces NOM_RATE. -/
def Trib.takeRate (t : Trib) : Trib := if t.nextRate = 0 then t else { t with nomRate := t.nextRate, nextRate := 0 }

/-- Rates of a channel's contexts at its switch multiframe: the lower ones now, the others at the next multiframe. -/
def State.takeRates (s : State) (c : Nat) (lowerOnly : Bool) : State :=
  (s.chan c).locals.foldl (fun s l => s.onTrib (96 * c + l) fun t =>
    if lowerOnly && t.nomRate ≤ t.nextRate then t else t.takeRate) s

/-- One channel's bank changes; its armed state ends, also that of an initiator which is armed itself (DEDUCED, log 117). -/
def State.flipBank (s : State) (c : Nat) (m : BitVec 32) : State :=
  let s := s.onSl c fun x => { x with activeB := !x.activeB, switching := some m, armed := none, armGroup := none }
  let s := s.onSl c fun x => { x with ratesDue := (s.chan c).locals.filter fun l =>
    ((s.chan c).trib l).nomRate ≤ ((s.chan c).trib l).nextRate && ((s.chan c).trib l).nextRate ≠ 0 }
  s.takeRates c true

/-- The transmit switch at multiframe count m, with event 0x1101. -/
def State.bankSwitchNow (s : State) (c : Nat) (g : Option Nat) (m : BitVec 32) : State :=
  let cs := s.switchers c g
  let s := cs.foldl (fun s k => s.flipBank k m) s
  let s := cs.foldl State.refreshSlots s
  let s := s.raise c 0x1101 1 (mkWord [(0, 1, bitOf (s.chan c).sl.activeB), (1, 3, g.getD 0), (4, 1, bitOf g.isSome),
    (32, 32, m.toNat)])
  let s := s.onSl c fun x =>
    { x with agreement := none, proposal := x.proposal.map fun p => { p with switched := some m } }
  match (s.chan c).sl.proposal with
  | some p => if p.id.isNone then s.onSl c fun x => { x with proposal := none } else s.bankDone c
  | none => s

/-- This end's switch falls at count m: committed as initiator or responder, or following its far end (R128, R129). An end
whose acceptance under R131 came too late for a COMMIT follows as well. -/
def Slots.switchAt (x : Slots) (m : BitVec 32) : Option (Option Nat) :=
  match x.proposal, x.agreement with
  | some p, _ =>
    if p.switched.isNone && (if p.committed then p.mI = m else p.accepted.isSome && p.far.isSome) then some p.group else none
  | none, some a => if (a.committed && a.mR = m) || a.follow then some a.group else none
  | none, none => none

/-- The multiframe after a switch takes the new bank whole and the waiting rates. -/
def State.bankSettle (s : State) (c : Nat) : State :=
  let s := (s.chan c).sl.ratesDue.foldl (fun s l => s.onTrib (96 * c + l) Trib.takeRate) s
  s.onSl c fun x => { x with switching := none, ratesDue := [] }

/-- A switch that is due at the multiframe that begins takes place. -/
def State.bankTurn (s : State) (c : Nat) : State :=
  let g := s.groupOf c
  let m := if g.bind (fun g => anchorOf (s.group g).members) = some c then s.switchCount c g else (s.chan c).tf.mfc
  match (s.chan c).sl.switchAt m with
  | some g => s.bankSwitchNow c g m
  | none => s

/-- The channel is disarmed, and an agreement held at this end ends without a switch (R498). -/
def State.disarm (s : State) (c : Nat) : State :=
  s.onSl c fun x => { x with armed := none, armGroup := none, agreement := none, proposal := none, reject := none, switching := none }

/-! ### Messages sent (R182) -/

/-- Words 8 and 9 for a message (R182). -/
def bankMsg (msg reason crc : Nat) (g : Option Nat) (mI mR : BitVec 32) : Word × Word :=
  (mkWord [(0, 3, msg), (3, 2, reason), (5, 1, bitOf g.isSome), (6, 3, g.getD 0), (32, 32, crc)],
   mkWord [(0, 32, mI.toNat), (32, 32, mR.toNat)])

/-- The COMMIT, ACCEPT or PROPOSE that a transmit frame carries. -/
def State.bankTalk (s : State) (c : Nat) : Option (Word × Word) :=
  let x := (s.chan c).sl
  match x.proposal, x.agreement with
  | some p, _ =>
    if p.committed && p.switched.isNone then some (bankMsg 4 0 0 p.group p.mI (p.accepted.getD 0))
    else if p.live && p.accepted.isNone then some (bankMsg 1 0 p.crc.toNat p.group p.mI 0)
    else none
  | none, some a =>
    if mfBefore (s.switchCount c a.group) a.mR then some (bankMsg 2 0 a.crc.toNat a.group a.mI a.mR) else none
  | none, none => none

/-- Words 8 and 9 of a transmit frame, and whether a waiting REJECT is displaced by another message. -/
def State.bankWords (s : State) (c : Nat) : Word × Word × Bool :=
  match s.bankTalk c, (s.chan c).sl.reject with
  | some w, _ => (w.1, w.2, true)
  | none, some (r, m, _, g) => let w := bankMsg 3 r 0 g m 0; (w.1, w.2, false)
  | none, none => (0, 0, false)

/-- A frame has been sent: a REJECT has one frame less to go, and a displaced one is gone. -/
def State.bankSent (s : State) (c : Nat) (displaced : Bool) : State :=
  s.onSl c fun x => { x with reject := match x.reject with
    | some (r, m, k, g) => if displaced || k ≤ 1 then none else some (r, m, k - 1, g)
    | none => none }

/-! ### Groups (R133 to R138) -/

def State.onGroup (s : State) (g : Nat) (k : Group → Group) : State := s.setGroup g (k (s.group g))

/-- Contexts of a channel that name group g, and whether one of them is not released (02 R26). -/
def State.groupPromise (s : State) (a g : Nat) : Bool :=
  (s.chan a).locals.any fun l => ((s.chan a).trib l).group = g + 1 && !((s.chan a).trib l).released

def Channel.usedEntry (ch : Channel) : Bool := ch.sl.span ≠ 0

/-- The frames of new members that are being sent start together from now on, with the frame number of the anchor, or of the
lowest member that sends where the anchor does not (R134; DEDUCED, log 118). -/
def State.alignFrames (s : State) (cs : List Nat) : State :=
  let xs := cs.filter fun c => (s.chan c).tf.sending
  let n := (s.chan (xs.headD 0)).tf.frame
  xs.foldl (fun s c => s.onChan c fun ch => { ch with tf := { ch.tf with frame := n } }) s

def execGroupCreate (id : Nat) (s : State) : Out :=
  withCmd s id 0x1120 fun f =>
    let g := f.desc.p0.bits 2 0
    let m := BitVec.ofNat 32 (f.desc.p1.bits 31 0)
    let budget := f.desc.p2.bits 14 0
    let cs := membersOf m
    let a := (anchorOf m).getD 0
    if (s.group g).members ≠ 0 || cs.length < 2 || 8 < cs.length || 20000 < budget
        || cs.any (fun c => (s.groupOf c).isSome || (s.chan c).pm.mode ≠ .pointToPoint) then s.finish f 0x01
    else if !f.rightsTo cs then s.finish f 0x04
    else if cs.any fun c => (s.chan c).bu.timing ≠ 0 then s.finish f 0x24
    else if cs.any fun c => (s.chan c).usedEntry then s.finish f 0x25
    else if budget ≠ 0 && s.groupPromise a g then s.finish f 0x03
    else
      (((s.setGroup g { members := m, budget := budget, mfc := (s.chan a).tf.mfc }).alignFrames cs).restateAll a true true).finish f 0

/-- An entry of a member names a context of the group in either bank (R138). -/
def State.groupNamed (s : State) (g : Nat) : Bool :=
  (membersOf (s.group g).members).any fun c => (s.bankTribs [c]).any fun i => (s.trib i).group = g + 1

/-- A message is discarded, with event 0x1485 (08 R190). -/
def State.loseMessage (s : State) (c : Nat) (seq : BitVec 16) (cause : Nat) (by_ : Option Nat := none) : State :=
  (s.onChan c fun ch => { ch with rf := { ch.rf with
    assembly := none, badSeq := some seq, msgLost := ch.rf.msgLost + 1 } }).raise c 0x1485 1
    (mkWord [(0, 16, seq.toNat), (16, 2, cause)]) 0 by_

/-- A message in progress is broken off. -/
def State.breakMessage (s : State) (c cause : Nat) (by_ : Option Nat := none) : State :=
  match (s.chan c).rf.assembly with | some a => s.loseMessage c a.seq cause by_ | none => s

/-- The aligner starts over: nothing found, no frame held, no message in progress, no runs; counters and the defect stay. -/
def RxFrame.restart (x : RxFrame) : RxFrame :=
  { x with state := .search, cands := [], tail := [], fresh := false, misses := 0, numKnown := false, jump := none, held := none
           assembly := none, badSeq := none, ohRun := 0, dropped := 0, rdiRun := 0, clearRun := 0 }

/-- Event 0x1404 of a received multiframe in which equalisers re-converged, with the peak rotation rate (11 R270). -/
def State.reconverged (s : State) (c peak : Nat) (cause : Option Nat := none) : State :=
  let n := (s.chan c).rx.reconvNow
  if n = 0 then s
  else (s.raise c 0x1404 1 (mkWord [(0, 16, satAt 65535 n), (16, 16, satAt 65535 peak)]) 0 cause).onChan c fun ch =>
    { ch with rx := { ch.rx with reconvNow := 0 } }

/-- A received multiframe is cut short: its event comes now, with a peak rate that the spec does not state (log 143). -/
def State.cutMultiframe (s : State) (c : Nat) (cause : Option Nat := none) : State :=
  if (s.chan c).rx.reconvNow = 0 then s else (s.reconverged c (s.freeVal 0 16) cause).draw

/-- Frame alignment of a channel goes to Search (08 R195): the numbering is lost, a frame and a message in progress are
dropped, and loss of frame is reported when the receiver was In-frame. -/
def State.enterSearch (s : State) (c : Nat) (cause : Option Nat := none) : State :=
  let x := (s.chan c).rf
  let s := if (s.chan c).pm.pair.isNone then s.cutMultiframe c cause else s
  let s := (s.breakMessage c 3 cause).onChan c fun ch => { ch with
    rf := { ch.rf.restart with lof := if x.state = .inFrame then ch.rf.lof + 1 else ch.rf.lof } }
  if x.state = .inFrame then s.raise c 0x1480 3 (mkWord [(0, 32, x.mfc.toNat), (32, 8, x.frame)]) 0 cause else s

/-- The tributaries of a group with slots in a member fail with cause 4 (R136). -/
def State.failMember (s : State) (g c : Nat) : State :=
  (s.bankTribs [c]).foldl (fun s i =>
    if (s.trib i).group = g + 1 && (s.trib i).state = .carrying && !((s.chan c).sl.naming (s.chan c).sl.activeB i).isEmpty
    then s.failTrib i 4 else s) s

/-- The members of group g whose frames arrive: aligned and marked. -/
def State.arrived (s : State) (g : Nat) : List Nat :=
  (membersOf (s.group g).members).filter fun c => (s.chan c).rf.state = .inFrame && (s.group g).marked.getLsbD c

/-- Member c of group g is in window: a release point is in force and its frames arrive within 20,000 ns before it (R136). -/
def State.memberIn (s : State) (g c : Nat) : Bool :=
  let x := s.group g
  let k := x.skews.get 0 c
  x.aligned && (s.arrived g).contains c && k ≤ x.budget && (x.budget : Int) - 20000 ≤ k

/-- The release point is set anew from the arrivals of the members that are aligned and marked (R135, R136). -/
def State.alignGroup (s : State) (g : Nat) : State :=
  let x := s.group g
  let cs := s.arrived g
  match cs with
  | [] => s.onGroup g fun x => { x with aligned := false, parts := [], last := none }
  | c0 :: _ =>
    let least := cs.foldl (fun m c => min m (x.skews.get 0 c)) (x.skews.get 0 c0)
    let s := s.setGroup g { x with aligned := true, parts := [], last := none,
                                   skews := cs.foldl (fun k c => k.put 0 c (x.skews.get 0 c - least)) [] }
    s.raise ((anchorOf x.members).getD 0) 0x1121 1 (mkWord [(5, 3, g), (32, 32, x.mfc.toNat)])

/-- The window of member c is looked at afresh: when it leaves it that is reported with its skew (DESIGN CHOICE, log 154), and while it
is out its tributaries are failed. -/
def State.lookMember (s : State) (g : Nat) (cause : Option Nat) (c : Nat) : State :=
  let inW := s.memberIn g c
  let was := !(s.chan c).outOfWindow
  let s := s.onChan c fun ch => { ch with outOfWindow := !inW }
  if inW then s
  else
    let s := if was then s.raise c 0x1120 3 (mkWord [(0, 5, c), (5, 3, g),
        (16, 16, satAt 65535 ((s.group g).skews.get 0 c).natAbs)]) 0 cause else s
    s.failMember g c

/-- The window of each member is looked at afresh. The release point stays until every member has lost alignment; the group then
aligns afresh as soon as a member is aligned and marked, so that a member which stays away holds up no other
(DEDUCED, log 48). -/
def State.groupWindow (s : State) (g : Nat) (cause : Option Nat := none) : State :=
  let cs := membersOf (s.group g).members
  let s := s.onGroup g fun x => { x with marked := cs.foldl (fun m c =>
    if (s.chan c).rf.state = .inFrame then m else m &&& ~~~BitVec.ofNat 32 (2 ^ c)) x.marked }
  let s := if (s.group g).aligned then cs.foldl (fun s c => s.lookMember g cause c) s else s
  let s := if cs.all fun c => (s.chan c).rf.state ≠ .inFrame then s.onGroup g fun x => { x with aligned := false } else s
  if (s.group g).aligned || (s.arrived g).isEmpty then s
  else cs.foldl (fun s c => s.lookMember g cause c) (s.alignGroup g)

/-- Members return to their own frame timing, which is treated as a re-acquisition; the group's contexts lose their keys
(R138; 07 R150). -/
def State.dissolve (s : State) (g : Nat) : State :=
  let cs := membersOf (s.group g).members
  let a := (anchorOf (s.group g).members).getD 0
  let s := (s.chan a).locals.foldl (fun s l => if ((s.chan a).trib l).group = g + 1 then
    s.onChan a fun ch => ch.setCipher l { ch.cipher l with current := none, next := none, retiring := [] } else s) s
  let s := { s with groups := s.groups.erase g }
  let s := cs.foldl (fun s c => (s.onChan c fun ch => { ch with outOfWindow := false }).enterSearch c) s
  s.restateAll a true true

def execGroupDelete (id : Nat) (s : State) : Out :=
  withCmd s id 0x1121 fun f =>
    let g := f.desc.p0.bits 2 0
    let x := s.group g
    if x.members = 0 then s.finish f 0x01
    else if !f.rightsTo (membersOf x.members) then s.finish f 0x04
    else if s.groupNamed g then s.finish f 0x25
    else if x.budget ≠ 0 && s.groupPromise ((anchorOf x.members).getD 0) g then s.finish f 0x03
    else (s.dissolve g).finish f 0

/-- SKEW counts from the earliest member whose frames arrive; a member whose frames do not arrive shows 0 (DESIGN CHOICE,
log 84). -/
def State.groupWords (s : State) (g : Nat) : List Word :=
  let x := s.group g
  let cs := membersOf x.members
  let there := s.arrived g
  let least := there.foldl (fun m c => min m (x.skews.get 0 c)) (x.skews.get 0 (there.headD 0))
  [mkWord [(0, 32, x.members.toNat), (32, 15, x.budget)], mkWord [(0, 32, x.mfc.toNat)]] ++
    (List.range 8).map fun m => match cs[m]? with
      | some c => mkWord [(0, 16, if there.contains c then satAt 65535 (x.skews.get 0 c - least).toNat else 0),
                          (16, 1, bitOf (s.memberIn g c))]
      | none => 0

/-- A group number that is free shows an empty member mask and zeros (DESIGN CHOICE, log 84). -/
def execGroupQuery (id : Nat) (s : State) : Out :=
  withCmd s id 0x1122 fun f =>
    let g := f.desc.p0.bits 2 0
    let cs := membersOf (s.group g).members
    if !f.rightsTo cs then s.finish f 0x04 else s.answer f (s.groupWords g)

def execGroupRealign (id : Nat) (s : State) : Out :=
  withCmd s id 0x1123 fun f =>
    let g := f.desc.p0.bits 2 0
    let cs := membersOf (s.group g).members
    if cs.isEmpty then s.finish f 0x01
    else if !f.rightsTo cs then s.finish f 0x04
    else ((s.alignGroup g).groupWindow g).finish f 0

end Sys2Proof.Machine
end

