-- ==== Sys2Proof/Machine/Exchange.lean ====
section
/-! DEFINITION. The loading exchange and the profile change: LOAD_CHANGE, FEC_PROFILE, the four messages of overhead
words 16 to 27, the set indicator, and the switches (10 R238 to R250; 09 R215, R216). -/

namespace Sys2Proof.Machine

/-! ### What an exchange changes -/

def LxContent.needTx (x : LxContent) : Bool := x.fwd.isSome || x.profile.isSome
def LxContent.needRx (x : LxContent) : Bool := x.rev.isSome || x.profile.isSome

/-- The content as its responder sees it: the directions change places. -/
def LxContent.mirror (x : LxContent) : LxContent := { x with fwd := x.rev, rev := x.fwd }

/-- Words 16 to 27 (R238); sets only in PROPOSE and ACCEPT, whatever word 16 says of the exchange in every message. -/
def lxWords (msg reason : Nat) (x : LxContent) (seq : BitVec 16) (mI mR : BitVec 32) : List Word :=
  let sets := msg = 1 || msg = 2
  let set (o : Option LoadSet) : List Word :=
    match o with | some q => if sets then q.words5 false else List.replicate 5 0 | none => List.replicate 5 0
  [mkWord [(0, 3, msg), (3, 4, reason), (7, 1, bitOf x.profile.isSome), (8, 1, bitOf (x.profile.getD false)),
           (9, 1, bitOf (sets && x.fwd.isSome)), (10, 1, bitOf (sets && x.rev.isSome)), (16, 16, seq.toNat)],
   mkWord [(0, 32, mI.toNat), (32, 32, mR.toNat)]] ++ set x.fwd ++ set x.rev

/-- The content of a received PROPOSE. -/
def lxContent (ws : List Word) : LxContent :=
  let w := wd ws 0
  { fwd := if w.bit 9 then some (LoadSet.ofWords ((ws.drop 2).take 5)) else none
    rev := if w.bit 10 then some (LoadSet.ofWords ((ws.drop 7).take 5)) else none
    profile := if w.bit 7 then some (w.bit 8) else none }

/-- Reserved fields of the sets of a received PROPOSE, and their VALID, are 0 (R230, R238). -/
def lxClear (ws : List Word) : Bool :=
  let w := wd ws 0
  (!w.bit 9 || (wd ws 2).bits 63 32 = 0) && (!w.bit 10 || (wd ws 7).bits 63 32 = 0)

/-- CRC-32C over words 16 to 27 of a proposal (R246). -/
def lxCrc (ws : List Word) : Nat := crc32c (wordsBytes (ws.take 12))

/-! ### Checks of the two sides -/

/-- The sets that would be in force: transmit and receive of this end. -/
def Channel.newSets (ch : Channel) (x : LxContent) : LoadSet × LoadSet := (x.fwd.getD ch.ld.tx, x.rev.getD ch.ld.rx)

/-- The profiles that would be in force: transmit and receive. -/
def Channel.newProfiles (ch : Channel) (x : LxContent) : Bool × Bool :=
  (x.profile.getD ch.fec.txOffshore, x.profile.getD ch.fec.rxOffshore)

/-- A new set meets R224 and R230 after the one in force. -/
def setOk (new : Option LoadSet) (old : LoadSet) : Bool :=
  match new with | some q => q.ok && q.mayFollow old | none => true

def Channel.setsOk (ch : Channel) (x : LxContent) : Bool := setOk x.fwd ch.ld.tx && setOk x.rev ch.ld.rx

def Channel.levelOk (ch : Channel) (x : LxContent) : Bool :=
  let (t, r) := ch.newSets x
  t.fits ch.bu.params.rate ch.pw.level && r.fits ch.bu.params.rate ch.pw.level

def Channel.slotsOk (ch : Channel) (x : LxContent) : Bool :=
  let (t, r) := ch.newSets x
  let (pt, pr) := ch.newProfiles x
  ch.slotsFit true t pt && ch.slotsFit false r pr

/-- Either set has no slot count. -/
def Channel.uncounted (ch : Channel) (x : LxContent) : Bool :=
  let (t, r) := ch.newSets x
  let (pt, pr) := ch.newProfiles x
  (ch.txSlots t pt).isNone || (ch.rxSlots r pr).isNone

/-- A receive set makes Active a subcarrier that has not been marked ACQUIRED (R249, step 5). -/
def Channel.unacquired (ch : Channel) (x : LxContent) : Bool :=
  match x.rev with
  | some q => (List.range 16).any fun i => q.isActive i && !ch.ld.rx.isActive i && !ch.rx.acquired.getLsbD i
  | none => false

/-! ### Events -/

def State.lapse (s : State) (c cause : Nat) (seq : BitVec 16) : State :=
  s.raise c 0x1321 2 (mkWord [(0, 3, cause), (16, 16, seq.toNat)])

/-- Events 0x1320 and, with a profile change, 0x14A2 of one direction's switch at a multiframe of its transmitter. -/
def State.lxSwitched (s : State) (c : Nat) (tx prof : Bool) (m : BitVec 32) : State :=
  let ch := s.chan c
  let s := s.raise c 0x1320 1 (mkWord [(0, 1, bitOf tx), (1, 1, bitOf prof), (2, 11, if tx then ch.sTx else ch.sRx),
    (13, 8, (if tx then ch.ld.lsnTx else ch.ld.lsnRx).toNat)]) m
  if prof then s.raise c 0x14A2 1 (mkWord [(0, 1, bitOf (if tx then ch.fec.txOffshore else ch.fec.rxOffshore)),
    (1, 1, bitOf tx)]) m else s

/-! ### Proposing (R241, R245) -/

/-- The deadline of a proposal's command, or of the module's own exchange. -/
def State.deadlineOf (s : State) (p : LxProposal) : Option Nat :=
  if p.own then p.due else (p.id.bind s.flight?).bind s.deadline

/-- A proposal is made with the next EXCH_SEQ; `far` multiframes ahead must begin before the command's deadline. -/
def State.lxPropose (s : State) (c : Nat) (p : LxProposal) (far : Nat) : State :=
  s.onLd c fun x =>
    { x with seq := x.seq + 1, pendingRx := none
             proposal := some { p with
               seq := x.seq + 1, mI := (s.chan c).tf.mfc + BitVec.ofNat 32 p.lead, accepted := none, committed := false
               txAt := none, rxAt := none, live := s.beginsBefore c far (s.deadlineOf p) } }

/-- This end's exchange ends without a switch: its command completes with a status, and the module's own re-plan is
reported with a reason (16 R381). -/
def State.lxEnds (s : State) (c : Nat) (p : LxProposal) (st : Nat) (r2 : Option Nat) (reason : Nat) : State :=
  let s := s.onLd c fun x => { x with proposal := none, pendingRx := none }
  if p.own then s.raise c 0x1B25 2 (mkWord [(0, 4, reason), (4, 16, r2.getD 0)]) else s.finishOpt p.id st none none r2

/-- The initiator proposes again, or waits for its deadline when no proposal can be made in time (R245); an exchange whose command
has ended goes. -/
def State.lxAgain (s : State) (c : Nat) (p : LxProposal) : State :=
  if p.own || p.id.isSome then s.lxPropose c p (2 * p.lead)
  else s.onLd c fun x => { x with proposal := none, pendingRx := none }

/-- An agreement for which no COMMIT has come, and whose receiver has not switched, lapses at its responder (R244). -/
def State.agreementLapse (s : State) (c : Nat) : State :=
  match (s.chan c).ld.agreement with
  | some a => if a.committed || a.followAt.isSome then s
              else (s.onLd c fun x => { x with agreement := none, pendingRx := none }).lapse c 2 a.seq
  | none => s

/-- What ends of a negotiation that is cut off: the module's own exchange (16 R381) and an uncommitted agreement (R244). -/
def State.lxStop (s : State) (c : Nat) : State :=
  let s := match (s.chan c).ld.proposal with
    | some p => if p.own then s.lxEnds c p 0 none 2 else s
    | none => s
  s.agreementLapse c

def State.lxStart (s : State) (f : Flight) (lead : Nat) (x : LxContent) : State :=
  (s.lxPropose f.desc.target { id := some f.id, lead := lead, seq := 0, mI := 0, content := x } lead).run f

/-- LEAD, 0 standing for 8; none outside 4 to 100 (R241). -/
def lxLead (l : Nat) : Option Nat := if l = 0 then some 8 else if 4 ≤ l && l ≤ 100 then some l else none

/-- The content that a loading request asks for (R230). -/
def requestContent (ws : List Word) : LxContent :=
  { fwd := if setValid ws then some (LoadSet.ofWords ws) else none
    rev := if setValid (ws.drop 8) then some (LoadSet.ofWords (ws.drop 8)) else none, profile := none }

def requestClear (ws : List Word) : Bool := setClear ws && setClear (ws.drop 8)

/-- A negotiation cannot start now (R248, R249 step 2). -/
def State.lxBlocked (s : State) (c : Nat) : Bool :=
  let ch := s.chan c
  !ch.awake || s.bankPending c || (if ch.pm.pair.isSome then ch.ld.busy || ch.pm.downstream.isSome else ch.lxBusy)

/-- The statuses of R249, steps 1 to 5, for a content without a profile change; 0: none. -/
def State.loadStatus (s : State) (c : Nat) (x : LxContent) : Nat :=
  let ch := s.chan c
  if (x.fwd.isNone && x.rev.isNone) || !ch.setsOk x || x.fwd = some ch.ld.tx || x.rev = some ch.ld.rx then 0x01
  else if s.lxBlocked c then 0x02
  else if !ch.levelOk x then 0x22
  else if !ch.slotsOk x then 0x24
  else if ch.unacquired x then 0x23
  else 0

/-- A hub announces its new downstream set in every map and switches at its current count plus LEAD (13 R317), when that
multiframe begins before the command's deadline; else the command ends at its deadline (02 R31). -/
def State.announce (s : State) (f : Flight) (lead : Nat) (x : LoadSet) : State :=
  let c := f.desc.target
  if s.beginsBefore c lead (s.deadline f) then
    (s.onChan c fun ch => { ch with pm := { ch.pm with
      downstream := some (some f.id, ch.tf.mfc + BitVec.ofNat 32 lead, x) } }).run f
  else s.run f

/-- A newly Active downstream subcarrier is missing from the last ACQ of an Active leaf (13 R317). -/
def Channel.leafUnacquired (ch : Channel) (x : LoadSet) : Bool :=
  (List.range 16).any fun i => x.isActive i && !ch.ld.tx.isActive i && ch.activeLeaves.any fun q => !q.2.acq.getLsbD i

/-- A loading change without a profile change: at a hub its downstream set is announced (13 R317), elsewhere the sets are
negotiated. -/
def State.loadChange (s : State) (f : Flight) (lead : Nat) (x : LxContent) : State :=
  let ch := s.chan f.desc.target
  let st := s.loadStatus f.desc.target x
  if ch.pm.mode = .hub && x.rev.isSome then s.finish f 0x01
  else if st ≠ 0 then s.finish f st
  else match ch.pm.mode, x.fwd with
    | .hub, some y => if ch.leafUnacquired y then s.finish f 0x23 else s.announce f lead y
    | _, _ => s.lxStart f lead x

def execLoadChange (id : Nat) (ws : List Word) (s : State) : Out :=
  withCmd s id 0x1300 fun f =>
    match lxLead (f.desc.p0.bits 6 0) with
    | none => s.finish f 0x01
    | some lead => if !requestClear ws then s.finish f 0x01 else s.loadChange f lead (requestContent ws)

/-! ### FEC_PROFILE (09 R215) -/

/-- The statuses of R215, steps 1 to 6, for a profile that differs from the one in force; 0: none. -/
def State.profileStatus (s : State) (c : Nat) (req : Bool) (off : Bool) (x : LxContent) : Nat :=
  let ch := s.chan c
  if (req && x.fwd.isNone && x.rev.isNone) || !ch.setsOk x || (s.groupOf c).isSome then 0x01
  else if s.lxBlocked c then 0x02
  else if s.breaks c off ch.bu.params.cdCeil then 0x03
  else if !ch.levelOk x then 0x25
  else if !ch.slotsOk x then 0x24
  else if ch.unacquired x then 0x23
  else 0

def execFecProfile (id : Nat) (ws : List Word) (s : State) : Out :=
  withCmd s id 0x14A0 fun f =>
    let c := f.desc.target
    let req := f.desc.bufAddr ≠ 0
    let off := f.desc.p0.bit 0
    let same := off == (s.chan c).fec.txOffshore
    let x : LxContent := if req then requestContent ws else { fwd := none, rev := none, profile := none }
    let y : LxContent := { x with profile := some off }
    let st := s.profileStatus c req off y
    match lxLead (f.desc.p0.bits 14 8) with
    | none => s.finish f 0x01
    | some lead =>
      if (same && !req) || (req && !requestClear ws) then s.finish f 0x01
      else if same then s.loadChange f lead x
      else if st ≠ 0 then s.finish f st
      else s.lxStart f lead y

/-! ### Completion -/

/-- COMMIT of a proposal, and ACCEPT of an agreement (R238). -/
def bareContent (p : Option Bool) : LxContent := { fwd := none, rev := none, profile := p }
def LxProposal.commitWords (p : LxProposal) : List Word :=
  lxWords 4 0 (bareContent p.content.profile) p.seq p.mI (p.accepted.getD 0)
def LxAgreement.acceptWords (a : LxAgreement) : List Word := lxWords 2 0 a.content a.seq a.mI a.mR

/-- What an exchange that is over still sends, until multiframe m begins. -/
def Channel.tailOf (ch : Channel) (m : BitVec 32) (ws : List Word) : Option (BitVec 32 × List Word) :=
  if mfBefore ch.tf.mfc m then some (m, ws) else ch.ld.tail

/-- The exchange ends once every direction it changes has switched (R249); its COMMIT goes on until M_I begins, or its ACCEPT until M_R
does (R241, R243). -/
def State.lxDone (s : State) (c : Nat) : State :=
  let x := (s.chan c).ld
  match x.proposal, x.agreement with
  | some p, _ =>
    if (!p.content.needTx || p.txAt.isSome) && (!p.content.needRx || p.rxAt.isSome) && p.committed then
      let s := s.onLd c fun x => { x with proposal := none, pendingRx := none, tail := (s.chan c).tailOf p.mI p.commitWords }
      if p.own then
        (s.onChan c fun ch => { ch with age := { ch.age with replans := ch.age.replans + 1 } }).raise c 0x1B22 1
          (mkWord [(16, 16, p.seq.toNat), (32, 11, (s.chan c).sRx)])
      else s.finishOpt p.id 0 (some (p.txAt.getD p.mI).toNat) (some (p.rxAt.getD (p.accepted.getD 0)).toNat)
    else s
  | none, some a =>
    if (!a.content.mirror.needTx || a.txAt.isSome) && (!a.content.mirror.needRx || a.rxAt.isSome) then
      s.onLd c fun x => { x with agreement := none, pendingRx := none, tail := (s.chan c).tailOf a.mR a.acceptWords }
    else s
  | none, none => s

/-! ### Switches (R239, R240, R243, R244, R247; 09 R216) -/

/-- The content of the exchange in progress as this end sees it: forward is its own transmit direction. -/
def Loading.content (x : Loading) : Option LxContent :=
  match x.proposal, x.agreement with
  | some p, _ => some p.content
  | none, some a => some a.content.mirror
  | none, none => none

/-- A transmit switch falls at multiframe m. -/
def Loading.txDue (x : Loading) (m : BitVec 32) : Bool :=
  match x.proposal, x.agreement with
  | some p, _ => p.committed && p.mI = m && p.content.needTx && p.txAt.isNone
  | none, some a =>
    a.content.mirror.needTx && a.txAt.isNone && ((a.committed && a.mR = m) || a.followAt = some m)
  | none, none => false

/-- The transmitter switches at multiframe m. -/
def State.lxTxSwitch (s : State) (c : Nat) (m : BitVec 32) : State :=
  match (s.chan c).ld.content with
  | none => s
  | some x =>
    let s := s.onChan c fun ch => { ch with
      fec := { ch.fec with txOffshore := x.profile.getD ch.fec.txOffshore }
      ld := { ch.ld with
        tx := x.fwd.getD ch.ld.tx, lsnTx := ch.ld.lsnTx + 1
        proposal := ch.ld.proposal.map fun p => { p with txAt := some m }
        agreement := ch.ld.agreement.map fun a => { a with txAt := some m } } }
    (s.lxSwitched c true x.profile.isSome m).lxDone c

/-- The receiver switches to its pending configuration at received multiframe m. A responder without COMMIT then follows
with its transmitter (R244), and after a profile change the egress frames of m carry the replacement (09 R216). -/
def State.lxRxSwitch (s : State) (c : Nat) (m : BitVec 32) : State :=
  match (s.chan c).ld.pendingRx with
  | none => s
  | some q =>
    let ch := s.chan c
    let prof := (ch.ld.content.bind (·.profile)).isSome
    let next := if ch.tf.frame ≤ 255 then ch.tf.mfc + 1 else ch.tf.mfc + 2
    let s := s.onChan c fun ch => { ch with
      fec := { ch.fec with rxOffshore := q.offshore }
      rx := { ch.rx with windowHit := if prof then some m else ch.rx.windowHit, locked := ch.rx.locked &&& q.set.lit,
                         acquired := ch.rx.acquired &&& q.set.lit, lostSub := ch.rx.lostSub &&& q.set.lit }
      ld := { ch.ld with
        rx := q.set, lsnRx := q.lsn, pendingRx := none
        proposal := ch.ld.proposal.map fun p => { p with rxAt := some m }
        agreement := ch.ld.agreement.map fun a =>
          { a with rxAt := some m, followAt := if a.committed || a.txAt.isSome then a.followAt else some next } } }
    (s.lxSwitched c false prof m).lxDone c

/-- The 500 ms of the module's own exchange have passed: it ends, unless it is committed, when its switch comes (16 R381). -/
def State.ownOver (s : State) (c : Nat) : State :=
  match (s.chan c).ld.proposal with
  | some p => if p.own && !p.committed && p.due.any (· ≤ s.now) then s.lxEnds c p 0 none 4 else s
  | none => s

/-- The hub's announced set comes into force at DS_MF, and its command completes (13 R317). -/
def State.downstreamBoundary (s : State) (c : Nat) : State :=
  match (s.chan c).pm.downstream with
  | some (id, m, x) =>
    if (s.chan c).tf.mfc = m then
      let s := s.onChan c fun ch => { ch with
        ld := { ch.ld with tx := x, lsnTx := ch.ld.lsnTx + 1 }, pm := { ch.pm with downstream := none } }
      (s.lxSwitched c true false m).finishOpt id 0 (some m.toNat)
    else s
  | none => s

/-- What a transmit multiframe boundary, at its new count, does to the exchange. -/
def State.lxBoundary (s : State) (c : Nat) : State :=
  let m := (s.chan c).tf.mfc
  let s := match (s.chan c).ld.proposal with
    | some p => if p.live && p.accepted.isNone && !mfBefore m (p.mI - 1) then (s.lapse c 1 p.seq).lxAgain c p else s
    | none => s
  let s := s.ownOver c
  if (s.chan c).ld.txDue m then s.lxTxSwitch c m else s.lxDone c

/-- The pilots of the coming frame are negated when odd (R239): in frame period 255 by the next multiframe's LSN. -/
def Channel.negated (ch : Channel) : Bool :=
  let due := ch.ld.txDue (ch.tf.mfc + 1) || (match ch.pm.downstream with | some d => d.2.1 = ch.tf.mfc + 1 | none => false)
  let l := if ch.tf.frame = 255 && due then ch.ld.lsnTx + 1 else ch.ld.lsnTx
  l.toNat % 2 = 1

/-- IND_UNEXPECTED and event 0x1324 (R240, R269). -/
def State.indUnexpected (s : State) (c : Nat) (odd : Bool) : State :=
  (s.onLd c fun x => { x with indUnexpected := x.indUnexpected + 1 }).raise c 0x1324 3
    (mkWord [(0, 1, bitOf odd), (1, 8, (s.chan c).ld.lsnRx.toNat)])

/-- Frame periods from received frame (m, k) until multiframe `at_` begins; 0 from its first frame on. -/
def periodsTo (m : BitVec 32) (k : Nat) (at_ : BitVec 32) : Nat := if mfBefore m at_ then 256 * (at_ - m).toNat - k else 0

/-- A frame period has been received: the parity that its pilots show, none where they cannot be read, and the numbers of its frame
when they are known; else the expected numbering goes on. A pending configuration reads the parity in frame period 255 and,
once the far end's switch multiframe has begun, in every one (R240). -/
def State.lxParity (s : State) (c : Nat) (odd : Option Bool) (n : Option (BitVec 32 × Nat)) : State :=
  let x := (s.chan c).ld
  let last := match n with | some k => k.2 = 255 | none => false
  let s' := s.onLd c fun x => { x with seenOdd := odd.getD x.seenOdd }
  match x.pendingRx with
  | some q =>
    let left := match n with | some k => periodsTo k.1 k.2 q.at_ | none => q.left - 1
    let shown := odd.any fun o => o == (q.lsn.toNat % 2 = 1)
    s'.onLd c fun x => { x with pendingRx := some { q with
      left := left, announced := q.announced || ((last || left = 0) && shown) } }
  | none => match odd with
    | some o => if last && o != (x.lsnRx.toNat % 2 = 1) && o != x.seenOdd then s'.indUnexpected c o else s'
    | none => s'

/-- A pending configuration whose parity has been read comes into force with received frame (m, frame). -/
def State.lxAdopt (s : State) (c : Nat) (m : BitVec 32) : State :=
  match (s.chan c).ld.pendingRx with
  | some q => if q.announced then s.lxRxSwitch c m else s
  | none => s

/-- Lapses that the received count decides (R244). -/
def State.lxReceived (s : State) (c : Nat) (m : BitVec 32) : State :=
  let x := (s.chan c).ld
  let quiet := match x.pendingRx with | some q => !q.announced | none => true
  match x.proposal, x.agreement with
  | some p, _ =>
    if p.committed && !p.content.needTx && p.rxAt.isNone && quiet && mfBefore (p.accepted.getD 0) m then
      (s.lapse c 3 p.seq).lxAgain c p
    else s
  | none, some a =>
    if !a.committed && a.rxAt.isNone && quiet && mfBefore a.mI m then
      (s.onLd c fun x => { x with agreement := none, pendingRx := none }).lapse c 2 a.seq
    else s
  | none, none => s

/-! ### Messages received (R241 to R246) -/

/-- The receiver's configuration pending until the far end's switch. -/
def Channel.pendingOf (ch : Channel) (x : LxContent) (at_ : BitVec 32) : Option PendingRx :=
  if x.needRx then
    some { set := x.rev.getD ch.ld.rx, offshore := x.profile.getD ch.fec.rxOffshore, lsn := ch.ld.lsnRx + 1, at_ := at_
           left := periodsTo ch.rf.mfc ch.rf.frame at_ }
  else none

/-- The reasons of R242 for a leaf's new transmit set at the hub: a valid set that lights only the leaf's dedicated
subcarriers, with slots for its window unless nothing of it is Active (13 R310, R317). `cur` is the set in force. -/
def Channel.leafSetReason (ch : Channel) (j : Nat) (cur x : LoadSet) : Nat :=
  let leaf := ch.pm.leaves.get {} j
  let s := x.slots ch.bu.params.rate ch.fec.rxOffshore
  if !x.ok || !x.mayFollow cur || x.lit &&& leaf.dedMask ≠ x.lit || (x.active ≠ 0 && s.isNone) then 2
  else if ch.pw.level.limit < ch.bu.params.rate * ch.hubLit (some (j, x)) then 3
  else if x.active ≠ 0 && s.getD 0 < leaf.slotCount then 4
  else if (List.range 16).any fun i => x.isActive i && !cur.isActive i && !ch.rx.acquired.getLsbD i then 5
  else 0

/-- The first reason of R242 that applies at the responder, for the content as it sees it and whether its reserved fields are
clear; 0: none. At a hub, whose pair's
loading stands in the channel's place, only the leaf's own transmit set can change (13 R317). -/
def State.refusal (s : State) (c : Nat) (x : LxContent) (clear : Bool) : Nat :=
  let ch := s.chan c
  if s.lxBlocked c then 1
  else if !clear then 2
  else if ch.pm.pair.isSome then
    match x.rev with
    | some q =>
      if x.fwd.isSome || x.profile.isSome then 2
      else if ch.leafSetReason (ch.pm.pair.getD 0) ch.ld.rx q ≠ 0 then ch.leafSetReason (ch.pm.pair.getD 0) ch.ld.rx q
      else if !ch.ld.farAccept then 7 else 0
    | none => 2
  else if !ch.setsOk x || ch.uncounted x then 2
  else if !ch.levelOk x then 3
  else if !ch.slotsOk x then 4
  else if ch.unacquired x then 5
  else if (match x.profile with | some p => s.breaks c p ch.bu.params.cdCeil | none => false) then 6
  else if !ch.ld.farAccept then 7
  else 0

/-- A REJECT goes out for one multiframe; further PROPOSEs of the exchange that it answers are passed by (R241). -/
def State.lxReject (s : State) (c reason : Nat) (seq : BitVec 16) (mI : BitVec 32) (profile : Option Bool) : State :=
  let r : LxReject := { reason := reason, seq := seq, mI := mI, profile := profile }
  match (s.chan c).ld.reject with
  | some q => if q.seq = seq && q.mI = mI then s else go s r
  | none => go s r
where
  go (s : State) (r : LxReject) : State :=
    (s.onLd c fun x => { x with reject := some r }).raise c 0x1322 1 (mkWord [(1, 4, reason), (16, 16, seq.toNat)])

/-- The answer to a PROPOSE from a frame with multiframe count `count`. -/
def State.lxAnswer (s : State) (c : Nat) (ws : List Word) (count : BitVec 32) : State :=
  let x := lxContent ws
  let seq := BitVec.ofNat 16 ((wd ws 0).bits 31 16)
  let mI := BitVec.ofNat 32 ((wd ws 1).bits 31 0)
  let r := s.refusal c x.mirror (lxClear ws)
  if r ≠ 0 then s.lxReject c r seq mI x.profile
  else
    (s.onLd c fun y => { y with
      agreement := some { seq := seq, mI := mI, mR := (s.chan c).tf.mfc + (mI - count), content := x }
      pendingRx := (s.chan c).pendingOf x.mirror mI, reject := none }).raise c 0x1322 1
      (mkWord [(0, 1, 1), (16, 16, seq.toNat)])

def LxProposal.words (p : LxProposal) : List Word := lxWords 1 0 p.content p.seq p.mI 0

/-- A PROPOSE has come. One that has been answered with REJECT keeps that answer (R241). -/
def State.lxProposed (s : State) (c : Nat) (ws : List Word) (count : BitVec 32) : State :=
  let x := (s.chan c).ld
  let seq := BitVec.ofNat 16 ((wd ws 0).bits 31 16)
  let mI := BitVec.ofNat 32 ((wd ws 1).bits 31 0)
  let busy (s : State) : State := s.lxReject c 1 seq mI (lxContent ws).profile
  if x.reject.any fun r => r.seq = seq && r.mI = mI then s
  else match x.proposal, x.agreement with
  | some p, _ =>
    if p.live && p.accepted.isNone then
      let own := lxCrc p.words
      let far := lxCrc ws
      if far < own then s
      else
        if own = far then busy (s.lxEnds c p 0x20 (some 1) 1)
        else (s.lxEnds c p 0x21 none 3).lxAnswer c ws count
    else busy s
  | none, some a =>
    if a.seq = seq then s
    else if a.committed then busy s
    else (s.onLd c fun x => { x with agreement := none, pendingRx := none }).lxAnswer c ws count
  | none, none => s.lxAnswer c ws count

/-- An ACCEPT: COMMIT follows when it arrived before M_I − 1 began, else a new proposal (R243, R245). -/
def State.lxAccepted (s : State) (c : Nat) (p : LxProposal) (mR : BitVec 32) : State :=
  if mfBefore (s.chan c).tf.mfc (p.mI - 1) then
    s.onLd c fun x => { x with proposal := some { p with accepted := some mR, committed := true }
                               pendingRx := (s.chan c).pendingOf p.content mR }
  else (s.lapse c 1 p.seq).lxAgain c p

/-- Words 16 to 27 of a received frame whose overhead check passed. -/
def State.lxMessage (s : State) (c : Nat) (ws : List Word) (count : BitVec 32) : State :=
  let x := (s.chan c).ld
  let w := wd ws 0
  let seq := BitVec.ofNat 16 (w.bits 31 16)
  let open_ := match x.proposal with | some p => p.seq = seq && p.live && p.accepted.isNone | none => false
  match w.bits 2 0 with
  | 1 => s.lxProposed c ws count
  | 2 => match x.proposal with
    | some p => if open_ then s.lxAccepted c p (BitVec.ofNat 32 ((wd ws 1).bits 63 32)) else s
    | none => s
  | 3 => match x.proposal with
    | some p =>
      if open_ then s.lxEnds c p 0x20 (some (w.bits 6 3)) 1 else s
    | none => s
  | 4 => match x.agreement with
    | some a =>
      if a.seq = seq && mfBefore (s.chan c).tf.mfc (a.mR - 1) then
        s.onLd c fun x => { x with agreement := some { a with committed := true } }
      else s
    | none => s
  | _ => s

/-! ### Messages sent (R238) -/

/-- Words 16 to 27 of a transmit frame; COMMIT and ACCEPT, also of an exchange that is over, go before PROPOSE, and a REJECT only where
none of them does. -/
def Channel.lxOut (ch : Channel) : List Word :=
  let x := ch.ld
  let rej : List Word := match x.reject with
    | some r => if r.left = 0 then List.replicate 12 0 else lxWords 3 r.reason (bareContent r.profile) r.seq r.mI 0
    | none => List.replicate 12 0
  let rest (ws : List Word) : List Word := match x.tail with
    | some t => if mfBefore ch.tf.mfc t.1 then t.2 else ws
    | none => ws
  match x.proposal, x.agreement with
  | some p, _ =>
    if p.committed && mfBefore ch.tf.mfc p.mI then p.commitWords
    else rest (if p.live && p.accepted.isNone then p.words else rej)
  | none, some a => if mfBefore ch.tf.mfc a.mR then a.acceptWords else rest rej
  | none, none => rest rej

/-- Words 28 to 47: the SNR codes of this end's receive direction and the set numbers (R235, R238). -/
def Channel.lxStatus (ch : Channel) : List Word :=
  let x := ch.ld
  let snr := (List.range 32).map fun l => if x.stale || !x.rx.isActive (l / 2) then 0 else x.snr.getD l 0
  List.replicate 4 0 ++ packStreams snr ++ [mkWord [(0, 8, x.lsnTx.toNat), (8, 8, x.lsnRx.toNat)]] ++ List.replicate 11 0

/-- A frame has been sent: a REJECT, displaced or not, has one less to go. -/
def Loading.rejectSent (x : Loading) : Loading := { x with reject := x.reject.map fun r => { r with left := r.left - 1 } }
def State.lxSent (s : State) (c : Nat) : State := s.onLd c Loading.rejectSent

/-! ### FEC status (09 R217, R218) -/

def Channel.fecStatus (ch : Channel) : List Word :=
  let x := ch.fec
  let sw := match ch.ld.proposal, ch.ld.agreement with
    | some p, _ => (p.content.profile.isSome && p.committed && p.txAt.isNone, p.mI)
    | none, some a => (a.content.profile.isSome && a.txAt.isNone, a.mR)
    | none, none => (false, 0)
  [mkWord [(0, 1, bitOf x.txOffshore), (1, 1, bitOf x.rxOffshore), (2, 1, bitOf sw.1),
           (16, 16, unitCount x.txOffshore ch.sTx), (32, 32, if sw.1 then sw.2.toNat else 0)],
   mkWord [(0, 32, codedSize x.txOffshore ch.sTx), (32, 32, ch.ld.tx.budget ch.bu.params.rate)],
   mkWord [(0, 48, x.berEst), (48, 1, bitOf x.berSat), (49, 9, x.iterAvg)],
   mkWord [(0, 32, x.uncorrLast), (32, 32, x.mfc.toNat)]]

def execFecStatus (id : Nat) (s : State) : Out :=
  withCmd s id 0x14A1 fun f => s.answer f (s.chan f.desc.target).fecStatus

def Fec.counterWords (x : Fec) : List Word :=
  [x.unitsRx, x.unitsCorrected, x.bits1to0, x.bits0to1, mkWord [(0, 32, x.unitsUncorr.toNat), (32, 32, x.outerCorr.toNat)],
   mkWord [(0, 32, x.iterMaxHit.toNat), (32, 32, x.framesErr.toNat)], 0, 0]

def execFecCounters (id : Nat) (s : State) : Out :=
  withCmd s id 0x14A2 fun f => s.answer f (s.chan f.desc.target).fec.counterWords

def State.onFec (s : State) (c : Nat) (g : Fec → Fec) : State := s.onChan c fun ch => { ch with fec := g ch.fec }

def execFecAlarmSet (id : Nat) (s : State) : Out :=
  withCmd s id 0x14A3 fun f =>
    (s.onFec f.desc.target fun x => { x with alarmLevel := f.desc.p0.bits 47 0 }).finish f 0

/-- BER_EST above a non-zero level in four consecutive multiframes raises the alarm; four at or below it clear it. -/
def execFecBerAlarm (c : Fin 32) (s : State) : Out :=
  let x := (s.chan c).fec
  occursWith s (if s.boot.powered && x.alarmLevel ≠ 0 then
      (if !x.alarm && 4 ≤ x.aboveRun then some true else if x.alarm && 4 ≤ x.belowRun then some false else none) else none)
    fun r => (s.onFec c fun x => { x with alarm := r }).raise c 0x14A1 2 (mkWord [(0, 48, x.berEst), (48, 1, bitOf r)])

/-- A run of frames with uncorrectable units reaches 256 frames (09 R214): the event comes again, with severity 3. -/
def execUncorrectableRun (c : Fin 32) (s : State) : Out :=
  let x := (s.chan c).fec
  occurs s (s.boot.powered && x.uncorrRun = 256)
    ((s.onFec c fun x => { x with uncorrRun := 257 }).raise c 0x14A0 3 (mkWord [(0, 16, 256), (16, 32, x.uncorrFirst)]))

end Sys2Proof.Machine
end

