-- ==== Sys2Proof/Machine/Calibration.lean ====
section
/-! DEFINITION. Blind calibration of converters, drive and modulator (12 R279 to R292, R299, R300). Values stand in the
order of CAL_VALUES: receive values at positions 0 to 386, transmit values at 387 to 398. -/

namespace Sys2Proof.Machine

def State.onCal (s : State) (c : Nat) (g : Cal → Cal) : State := s.onChan c fun ch => { ch with cal := g ch.cal }

/-! ### Values and limits (R279) -/

/-- Absolute limit and step limit of the value at a position, in its resolution. -/
def calLimits (i : Nat) : Nat × Nat :=
  if i < 384 then (if i % 3 = 0 then (128, 8) else if i % 3 = 1 then (10000, 500) else (500, 50))
  else if i < 387 then (600, 25)
  else if i < 390 then (600, 10)
  else if i < 393 then (1500, 50)
  else (2000, 50)

/-- Positions that a run of a kind estimates; converter skew only in a receive run of state 6. -/
def calPositions (tx tracking : Bool) : List Nat :=
  if tx then (List.range 12).map (387 + ·) else List.range (if tracking then 387 else 384)

/-- The values in force: those last applied, else the factory record's (R289). -/
def Cal.inForce (x : Cal) (c : Nat) : List Int := x.values.getD ((List.range 399).map (Config.factoryCal c))

/-- The response correction in force. -/
def Cal.respNow (x : Cal) (c : Nat) : List Int := x.response.getD (Config.factoryResponse c)

/-! ### The check of a run (R282, R283) -/

def valueDist (a b : Int) : Nat := (a - b).natAbs

/-- The positions that a run estimates; the response run of step 3 estimates the response correction alone (DEDUCED, log 120). -/
def CalRun.positions (r : CalRun) (tx : Bool) : List Nat := if r.response then [] else calPositions tx !r.initial

/-- The first reason that rejects a run; 0: none. `bad`: the condition of reason 3. -/
def CalRun.reason (r : CalRun) (tx : Bool) (cur : List Int) (e : CalEstimate) (bad : Bool) : Nat :=
  let ps := r.positions tx
  if (ps.any fun i => (calLimits i).1 < (e.est.getD i 0).natAbs) || (r.response && e.resp.any fun x => 90 < x.natAbs) then 1
  else if !r.initial && ps.any fun i => 4 * (calLimits i).2 < valueDist (e.est.getD i 0) (cur.getD i 0) then 2
  else if bad then 3
  else if ps.any fun i => (calLimits i).2 < valueDist (e.half1.getD i 0) (e.half2.getD i 0) then 5
  else 0

/-- A value after an accepted run: the estimate, or in a tracking run one step toward it. -/
def calStep (tracking : Bool) (i : Nat) (cur est : Int) : Int :=
  let st : Int := (calLimits i).2
  if tracking && (calLimits i).2 < valueDist est cur then (if cur < est then cur + st else cur - st) else est

/-- Consecutive applied runs of a kind whose every change was below its step limit (R287, R288). -/
def Cal.converged (x : Cal) (tx : Bool) : Nat := if tx then x.txConverged else x.rxConverged
def Cal.setConverged (x : Cal) (tx : Bool) (n : Nat) : Cal := if tx then { x with txConverged := n } else { x with rxConverged := n }

/-- What an accepted run is to change. -/
def CalRun.result (r : CalRun) (tx : Bool) (cur : List Int) (e : CalEstimate) : CalResult :=
  let ps := r.positions tx
  { values := (List.range 399).map fun i =>
      if ps.contains i then calStep (!r.initial) i (cur.getD i 0) (e.est.getD i 0) else cur.getD i 0
    slewed := !r.initial && ps.any fun i => (calLimits i).2 < valueDist (e.est.getD i 0) (cur.getD i 0)
    small := !r.response && ps.all fun i => valueDist (e.est.getD i 0) (cur.getD i 0) < (calLimits i).2
    errors := (List.range 399).map fun i => if ps.contains i then e.est.getD i 0 - cur.getD i 0 else 0
    resp := if r.response then e.resp else [], ilRes := e.ilRes, eye := e.eye }

/-! ### Runs -/

def Cal.run (x : Cal) (tx : Bool) : Option CalRun := if tx then x.txRun else x.rxRun
def Cal.setRun (x : Cal) (tx : Bool) (r : Option CalRun) : Cal := if tx then { x with txRun := r } else { x with rxRun := r }
def Cal.tracks (x : Cal) (tx : Bool) : Bool := if tx then x.txTrack else x.rxTrack
def Cal.due (x : Cal) (tx : Bool) : Bool := if tx then x.txDue else x.rxDue

/-- A run of a kind may be made now (R286). -/
def Channel.calAllowed (ch : Channel) (tx : Bool) : Bool := if tx then ch.awake else ch.awake && ch.rx.state = .tracking

/-- The bookkeeping of a run that ends at `now`: its outcome and when the next falls due. The multiframe in which it ends is
held when the holding had begun, unless it lies wholly after the end (R290). -/
def Cal.ended (x : Cal) (tx : Bool) (now outcome : Nat) (m : BitVec 32) (whole : Bool) : Cal :=
  let held := !whole && (match x.run tx with | some r => r.opened && 0 < r.mfs | none => false)
  if tx then { x with txRun := none, txDue := false, txLast := outcome, txNext := now + x.txInt * 1000000000
                      txMixed := x.txMixed || held }
  else { x with rxRun := none, rxDue := false, rxLast := outcome, rxNext := now + x.rxInt * 1000000000, rxMfc := m
                rxMixed := if held then some m else x.rxMixed }

/-- CAL_RUNs that wait for a kind learn its outcome; those that wait for nothing more complete (R299). -/
def State.calTell (s : State) (c : Nat) (tx : Bool) (outcome : Nat) : State :=
  let ws := (s.chan c).cal.waiters.map fun w =>
    if tx then (if w.tx then { w with tx := false, txOut := outcome } else w)
    else (if w.rx then { w with rx := false, rxOut := outcome } else w)
  let done (w : CalWaiter) : Bool := !w.rx && !w.tx
  let s := s.onCal c fun x => { x with waiters := ws.filter fun w => !done w }
  (ws.filter done).foldl (fun s w => s.finishId w.id 0 (some (w.rxOut + 16 * w.txOut))) s

/-- Where the windows of a kind's initial runs may open: receive at any instant; transmit, while no multiframe is sent, every
2.048 ms from the start of step 3 (R281; DESIGN CHOICE, log 121). `later`: strictly after now. -/
def State.calInstant (s : State) (c : Nat) (tx later : Bool) : Nat :=
  let from_ := (s.chan c).bu.stepNs
  let n := s.now - from_
  if tx then from_ + 2048000 * (if later then n / 2048000 + 1 else cdiv n 2048000) else s.now

/-- A run starts; an initial run is one of bring-up step 3 or receive state 2. -/
def State.calStart (s : State) (c : Nat) (tx initial : Bool) (response : Bool := false) : State :=
  s.onCal c fun x => x.setRun tx (some { initial := initial, response := response, opened := initial
                                         openNs := if initial then s.calInstant c tx false else 0 })

/-- Step 3 begins with the response run (R287). -/
def State.startTxCal (s : State) (c : Nat) : State :=
  (s.onCal c fun x => { x with txConverged := 0, respDue := true }).calStart c true true true

/-- The next tracking run of a kind; a transmit window opens at once at the start of a multiframe. -/
def State.calAgain (s : State) (c : Nat) (tx : Bool) : State :=
  (s.calStart c tx false).onCal c fun x => match x.run tx with
    | some r => x.setRun tx (some { r with opened := tx && (s.chan c).tf.frame = 0 })
    | none => x

/-- A run has ended: a slewed one, an initial one that has not converged, or one that fell due meanwhile is followed by
the next; `response`: the response correction is still to be estimated. -/
def State.calNext (s : State) (c : Nat) (tx : Bool) (r : CalRun) (slewed due response : Bool) : State :=
  let ch := s.chan c
  if r.initial then (if ch.cal.converged tx < 2 then s.calStart c tx true response else s)
  else if (slewed || due) && ch.calAllowed tx && ch.cal.tracks tx then s.calAgain c tx
  else s

/-- An initial run that was abandoned while its step or state goes on is followed by another (R287, R288). -/
def State.calResume (s : State) (c : Nat) (tx : Bool) : State :=
  let ch := s.chan c
  let goes := if tx then ch.bu.step = 3 && !ch.bu.stopped else ch.rx.state = .calibration
  if goes && (ch.cal.run tx).isNone && ch.cal.converged tx < 2 then s.calStart c tx true (tx && ch.cal.respDue) else s

/-- Event 0x14C0 with the consecutive rejections. -/
def State.calEvent (s : State) (c : Nat) (tx : Bool) (reason n sev : Nat) (cause : Option Nat := none) : State :=
  s.raise c 0x14C0 sev (mkWord [(0, 1, bitOf tx), (1, 3, reason), (4, 8, n)]) 0 cause

/-- The received multiframe in progress; at a hub receive multiframe M begins half a multiframe after transmit multiframe M
(13 R306). -/
def Channel.rxMfNow (ch : Channel) : BitVec 32 :=
  if ch.pm.mode = .hub then (if 128 ≤ ch.tf.frame then ch.tf.mfc else ch.tf.mfc - 1) else ch.rf.mfc

/-- The next multiframe of a kind's direction to be reported begins now, so it lies wholly after now: its predecessor has been
reported and none of its frames has been sent or received. -/
def Channel.mfStarts (ch : Channel) (tx : Bool) : Bool :=
  if tx then ch.tf.frame = 0
  else if ch.pm.mode = .hub then ch.tf.frame = 128 && ch.rx.ended = some (ch.tf.mfc - 1)
  else ch.rf.frame = 255 && ch.rx.ended = some ch.rf.mfc

/-- A run is rejected, or abandoned (reason 4): nothing changes but its counts, and the event is raised at the first and the
eighth of a sequence (R300). A run that fell due during an abandoned one falls due again at once (R286). -/
def State.calReject (s : State) (c : Nat) (tx : Bool) (reason : Nat) (cause : Option Nat := none) : State :=
  let x := (s.chan c).cal
  match x.run tx with
  | none => s
  | some r =>
    let n := satAt 255 ((if tx then x.txRejSeq else x.rxRejSeq) + 1)
    let again := reason = 4 && x.due tx
    let s := s.onCal c fun x =>
      let y := (x.ended tx s.now reason (s.chan c).rxMfNow false).setConverged tx 0
      if tx then { y with txRejSeq := n, txRejects := y.txRejects + 1, txNext := if again then s.now else y.txNext }
      else { y with rxRejSeq := n, rxRejects := y.rxRejects + 1, rxNext := if again then s.now else y.rxNext }
    let s := if n = 1 then s.calEvent c tx reason n 2 cause else if n = 8 then s.calEvent c tx reason n 3 cause else s
    let s := s.calTell c tx reason
    if reason = 4 then s else s.calNext c tx r false (x.due tx) r.response

/-- A run in progress is abandoned (R285). -/
def State.calAbandon (s : State) (c : Nat) (tx : Bool) (cause : Option Nat := none) : State := s.calReject c tx 4 cause

/-- The limit of receive state 2: its run is abandoned, and the rejection event is raised in every case (R288). -/
def State.calExpired (s : State) (c : Nat) : State :=
  let n := (s.chan c).cal.rxRejSeq
  let s := s.calAbandon c false
  let k := (s.chan c).cal.rxRejSeq
  if k ≠ n && (k = 1 || k = 8) then s else s.calEvent c false 4 k 2

def execCalRunDue (c : Fin 32) (tx : Bool) (s : State) : Out :=
  let ch := s.chan c
  occurs s (s.boot.powered && ch.cal.tracks tx && ch.calAllowed tx) <|
    let s := s.at (if tx then ch.cal.txNext else ch.cal.rxNext)
    let s := s.onCal c fun x => if tx then { x with txNext := s.now + x.txInt * 1000000000 }
                                else { x with rxNext := s.now + x.rxInt * 1000000000 }
    if (ch.cal.run tx).isSome then s.onCal c fun x => if tx then { x with txDue := true } else { x with rxDue := true }
    else s.calStart c tx false

/-- The window has been gathered: four received or eight transmit multiframes; that of an initial run by its time (R281). -/
def CalRun.gathered (r : CalRun) (tx : Bool) : Bool := r.apply.isNone && (r.initial || (if tx then 8 else 4) ≤ r.mfs)

/-- The condition of reason 3: transmit, the laser is off; receive, input power or clipping in the window (R282). -/
def State.calBad (s : State) (c : Nat) (tx : Bool) (e : CalEstimate) : Bool :=
  if tx then !(s.chan c).opt.laserOn else e.low || e.clip.any (10000 < ·)

def State.calCheck (s : State) (c : Nat) (tx : Bool) (r : CalRun) (e : CalEstimate) : State :=
  let cur := (s.chan c).cal.inForce c
  let ps := r.positions tx
  let bad := s.calBad c tx e
  let s := s.onCal c fun x => { x with
    estimates := (List.range 399).map fun i => if ps.contains i then e.est.getD i 0 else x.estimates.getD i 0 }
  match r.reason tx cur e bad with
  | 0 => s.onCal c fun x => x.setRun tx (some { r with apply := some (r.result tx cur e) })
  | reason => s.calReject c tx reason

def execCalWindowEnd (c : Fin 32) (tx : Bool) (e : CalEstimate) (s : State) : Out :=
  occursWith s (if s.boot.powered then ((s.chan c).cal.run tx).filter fun r => r.gathered tx else none)
    fun r => (if r.initial then s.at (r.openNs + if tx then 16384000 else 8192000) else s).calCheck c tx r e

/-- A figure in a field of w bits, two's complement; a free value where it does not fit (log 1). -/
def State.fitted (s : State) (k w : Nat) (v : Int) : Int :=
  if -(2 ^ (w - 1) : Int) ≤ v && v < 2 ^ (w - 1) then v else signed w (s.freeVal k w)

/-- A bias error in 0.1° from 0.01°: exact, or rounded in the direction that the spec leaves open (log 1). -/
def State.biasTenth (s : State) (k : Nat) (v : Int) : Int := s.fitted k 10 (if v % 10 = 0 then v / 10 else v / 10 + s.freeVal (k + 1) 1)

/-- The figures after a run that is applied: the errors that it estimated, and what it measured (R292). An initial receive run
estimates no converter skew (R288). -/
def State.calFigures (s : State) (tx initial : Bool) (x : CalFigures) (q : CalResult) : CalFigures :=
  let err (i : Nat) : Int := q.errors.getD i 0
  if tx then
    { x with skewTx := 0 :: [387, 388, 389].map fun i => s.fitted i 16 (err i)
             gainTx := 0 :: [390, 391, 392].map fun i => s.fitted i 12 (err i)
             eye := q.eye, bias := [393, 394, 395, 396, 397, 398].map fun i => s.biasTenth (2 * i) (err i) }
  else { x with ilRes := q.ilRes, skewRx := if initial then x.skewRx else 0 :: [384, 385, 386].map fun i => s.fitted i 16 (err i) }

/-- The values in force once a run's own have been applied: those that it did not estimate stay. -/
def CalRun.applied (r : CalRun) (tx : Bool) (cur new : List Int) : List Int :=
  let ps := r.positions tx
  (List.range 399).map fun i => if ps.contains i then new.getD i 0 else cur.getD i 0

/-- Accepted values take effect at their boundary and the run ends. The response run ends before the first transmit run of
step 3 and leaves the figures alone. -/
def State.calValues (s : State) (c : Nat) (tx : Bool) (r : CalRun) (q : CalResult) : State :=
  let ch := s.chan c
  let due := ch.cal.due tx
  let outcome := if q.slewed then 15 else 0
  let s := s.onCal c fun x =>
    let y := x.ended tx s.now outcome ch.rxMfNow (ch.mfStarts tx)
    let y := y.setConverged tx (if r.initial && q.small then y.converged tx + 1 else 0)
    let y := { y with values := some (r.applied tx (x.inForce c) q.values), slews := if q.slewed then y.slews + 1 else y.slews
                      response := if r.response then some q.resp else y.response
                      respDue := y.respDue && !r.response
                      figures := if r.response then y.figures else s.calFigures tx r.initial y.figures q }
    if tx then { y with txRuns := y.txRuns + 1, txRejSeq := 0 } else { y with rxRuns := y.rxRuns + 1, rxRejSeq := 0, appliedUp := true }
  ((s.calTell c tx outcome).calNext c tx r q.slewed due false).draw

/-- Receive values take effect with a received frame period, transmit values with a transmit multiframe. Those of initial
runs, outside both, do so at once and at the next instant of the grid (R284; DESIGN CHOICE, log 121). -/
def execCalValuesApply (c : Fin 32) (tx : Bool) (s : State) : Out :=
  occursWith s (if s.boot.powered then
      (((s.chan c).cal.run tx).filter fun r => r.ready || r.initial).bind fun r => r.apply.map (r, ·) else none)
    fun q => (if q.1.initial then s.at (s.calInstant c tx true) else s).calValues c tx q.1 q.2

/-- The boundary at which accepted values take effect has come. -/
def Cal.framed (x : Cal) (tx : Bool) : Cal :=
  match x.run tx with
  | some r => x.setRun tx (some { r with ready := r.apply.isSome })
  | none => x

/-! ### Held figures (R290) -/

/-- A multiframe boundary of a kind's direction: a waiting window opens, an open one has gathered one multiframe more. -/
def Cal.boundary (x : Cal) (tx : Bool) : Cal :=
  match x.run tx with
  | some r => x.setRun tx (some (if r.opened then { r with mfs := r.mfs + 1 } else { r with opened := true }))
  | none => x

/-- The figures of multiframe m, which ends, are held, and how the calibration stands after it. A receive run that ended in multiframe
k may have done so before the update of the one before k, which did not lie wholly after it either. -/
def Cal.holds (x : Cal) (tx : Bool) (m : BitVec 32) : Bool :=
  (match x.run tx with | some r => r.opened | none => false) ||
    (if tx then x.txMixed else x.rxMixed.any fun k => m = k || m + 1 = k)

def Cal.updated (x : Cal) (tx : Bool) (m : BitVec 32) : Cal :=
  let h := x.holds tx m
  if tx then { x with txStale := h, txMixed := false }
  else { x with rxStale := h, rxMixed := x.rxMixed.filter fun k => m + 1 = k }

/-- The transmit boundary after multiframe m: the figures of the multiframe that ends, accepted values, and the windows. -/
def Cal.txBoundary (x : Cal) (m : BitVec 32) : Cal := ((x.updated true m).framed true).boundary true

/-- The rms level of an ADC, in 0.25 LSB, as the front end's gain sets it: 20 LSB ±1 LSB, from 1 ms after signal present, thus in
every multiframe of state 6 (R277). -/
def gainSet (rms : Nat) : Nat := min 84 (max 76 rms)

/-- Levels of the ADCs over the multiframe that ends, unless they are held (R277, R290). -/
def Cal.levels (x : Cal) (adc : List (Nat × Nat)) (m : BitVec 32) : Cal :=
  if x.holds false m then x
  else { x with figures := { x.figures with rms := adc.map (gainSet ·.1), clip := adc.map (satAt 65535 ·.2) } }

/-! ### Commands (R299) -/

def execCalConfig (id : Nat) (s : State) : Out :=
  withCmd s id 0x14C0 fun f =>
    let c := f.desc.target
    let p := f.desc.p0
    let rx := p.bits 27 16
    let tx := p.bits 43 32
    if rx = 0 || 3600 < rx || tx = 0 || 3600 < tx then s.finish f 0x01
    else
      let s := s.onCal c fun x => { x with
        rxTrack := p.bit 0, txTrack := p.bit 1, rxInt := rx, txInt := tx
        rxNext := if x.rxRun.isSome then x.rxNext else s.now + rx * 1000000000
        txNext := if x.txRun.isSome then x.txNext else s.now + tx * 1000000000 }
      let s := if p.bit 0 then s else (s.calAbandon c false).calResume c false
      (if p.bit 1 then s else (s.calAbandon c true).calResume c true).finish f 0

/-- A requested kind starts a run or joins the one in progress. -/
def State.calJoin (s : State) (c : Nat) (tx want : Bool) : State :=
  if want && ((s.chan c).cal.run tx).isNone then s.calStart c tx false else s

def execCalRun (id : Nat) (s : State) : Out :=
  withCmd s id 0x14C1 fun f =>
    let c := f.desc.target
    let rx := f.desc.p0.bit 0
    let tx := f.desc.p0.bit 1
    if (rx && !(s.chan c).calAllowed false) || (tx && !(s.chan c).calAllowed true) then s.finish f 0x02
    else if !rx && !tx then s.finish f 0 (some (14 + 16 * 14))
    else
      let s := s.onCal c fun x => { x with waiters := x.waiters ++ [{ id := f.id, rx := rx, tx := tx }] }
      ((s.calJoin c false rx).calJoin c true tx).run f

/-- The 16 words of CAL_STATUS. -/
def Cal.statusWords (x : Cal) (c : Nat) : List Word :=
  let y := x.figures
  [mkWord [(0, 1, bitOf x.rxRun.isSome), (1, 1, bitOf x.txRun.isSome), (2, 1, bitOf x.rxStale), (3, 1, bitOf x.txStale),
           (8, 8, x.rxRejSeq), (16, 8, x.txRejSeq), (32, 32, x.rxMfc.toNat)],
   mkWord [(0, 32, x.rxRuns.toNat), (32, 32, x.rxRejects.toNat)],
   mkWord [(0, 32, x.txRuns.toNat), (32, 32, x.txRejects.toNat)],
   mkWord [(0, 4, x.rxLast), (4, 4, x.txLast), (32, 16, x.slews.toNat)]] ++
  (List.range 4).map (fun a => mkWord [(0, 12, y.ilRes.getD a 0), (12, 16, twos 16 (y.skewRx.getD a 0)), (28, 8, y.rms.getD a 0),
                                       (36, 16, y.clip.getD a 0)]) ++
  (List.range 4).map (fun a => mkWord [(0, 16, twos 16 (y.skewTx.getD a 0)), (16, 12, twos 12 (y.gainTx.getD a 0)),
                                       (28, 12, y.eye.getD a 0)]) ++
  [mkWord ((List.range 6).map fun k => (10 * k, 10, twos 10 (y.bias.getD k 0))),
   mkWord [(0, 8, (x.respNow c).foldl (fun m v => max m v.natAbs) 0)], 0, 0]

def execCalStatus (id : Nat) (s : State) : Out :=
  withCmd s id 0x14C2 fun f => s.answer f ((s.chan f.desc.target).cal.statusWords f.desc.target)

/-- The 133 words of CAL_VALUES. -/
def calWords (v : List Int) : List Word :=
  let at_ (i : Nat) : Nat := twos 16 (v.getD i 0)
  (List.range 128).map (fun k => mkWord [(0, 16, at_ (3 * k)), (16, 16, at_ (3 * k + 1)), (32, 16, at_ (3 * k + 2))]) ++
    [mkWord [(0, 16, at_ 384), (16, 16, at_ 385), (32, 16, at_ 386)],
     mkWord [(0, 16, at_ 387), (16, 16, at_ 388), (32, 16, at_ 389)],
     mkWord [(0, 16, at_ 390), (16, 16, at_ 391), (32, 16, at_ 392)],
     mkWord [(0, 16, at_ 393), (16, 16, at_ 394), (32, 16, at_ 395), (48, 16, at_ 396)],
     mkWord [(0, 16, at_ 397), (16, 16, at_ 398)]]

def execCalValues (id : Nat) (s : State) : Out :=
  withCmd s id 0x14C3 fun f =>
    let x := (s.chan f.desc.target).cal
    s.answer f (calWords (if f.desc.p0.bit 0 then x.estimates else x.inForce f.desc.target))

end Sys2Proof.Machine
end

