-- ==== Sys2Proof/Machine/Ageing.lean ====
section
/-! DEFINITION. Ageing and the tidemark ledger: trend samples, hourly and daily records, re-planning, capacity shortfall
and ageing limits (16 R375 to R385). -/

namespace Sys2Proof.Machine

def State.onAge (s : State) (c : Nat) (g : Ageing → Ageing) : State := s.onChan c fun ch => { ch with age := g ch.age }

/-! ### Means (R375 to R377) -/

/-- The nearest integer (R233 rounds its figures so; DEDUCED, log 32). -/
def nearest (x : Rat) : Int := (x + 1 / 2).floor

def meanOf (l : List Rat) : Option Rat := if l.isEmpty then none else some (l.sum / (l.length : Rat))

/-- The mean of trends, each quantity over those that hold it; LQ_MIN is the lowest. -/
def Trend.mean (ts : List Trend) : Trend :=
  let at_ (l : List (List Rat)) (i : Nat) : Rat := (meanOf (l.map fun v => v.getD i 0)).getD 0
  let bias := ts.filterMap (·.bias)
  let snr := ts.filterMap (·.snr)
  let fec := ts.filterMap (·.fec)
  { laser := meanOf (ts.filterMap (·.laser))
    bias := if bias.isEmpty then none else some ((List.range 4).map (at_ bias))
    resp := meanOf (ts.filterMap (·.resp))
    interleave := meanOf (ts.filterMap (·.interleave))
    thermal := meanOf (ts.filterMap (·.thermal))
    snr := (meanOf (snr.map (·.2))).map fun q => ((List.range 32).map fun l => meanOf (snr.filterMap fun v => v.1.getD l none), q)
    fec := match meanOf (fec.map (·.1)), meanOf (fec.map (·.2)) with
      | some a, some b => some (a, b)
      | _, _ => none
    lqMin := (ts.filterMap (·.lqMin)).foldl (fun m q => some (match m with | none => q | some p => min p q)) none }

/-- QMISS of a record. -/
def Trend.missing (t : Trend) : Nat :=
  bitOf t.laser.isNone + 2 * bitOf t.bias.isNone + 4 * bitOf t.resp.isNone + 8 * bitOf t.interleave.isNone
    + 16 * bitOf t.thermal.isNone + 32 * bitOf t.snr.isNone

/-- A quantity as its field holds it. -/
def fieldOf (w : Nat) (o : Option Rat) : Nat := match o with | some x => twos w (nearest x) | none => 0
def ppmField (x : Rat) : Nat := satAt 65535 (nearest x).toNat

/-- LQ_MEAN in 0.125 dB as the record holds it. -/
def TideRecord.lq (r : TideRecord) : Int := match r.mean.snr with | some v => nearest v.2 | none => 0

def TideRecord.words (r : TideRecord) (c : Nat) : List Word :=
  let m := r.mean
  let codes := match m.snr with | some v => v.1 | none => []
  let (outer, iter) := m.fec.getD (0, 0)
  let bias (i : Nat) : Nat := fieldOf 12 (m.bias.map fun b => b.getD i 0)
  [mkWord [(0, 32, r.seq.toNat), (32, 5, c), (37, 1, bitOf r.daily), (38, 6, m.missing), (48, 16, ppmField outer)],
   mkWord [(0, 24, r.powerH), (24, 24, r.upH), (48, 8, twos 8 (m.lqMin.getD 0)), (56, 8, twos 8 r.lq)],
   mkWord [(0, 16, fieldOf 16 m.laser), (16, 16, fieldOf 16 m.resp), (32, 16, fieldOf 16 m.thermal),
           (48, 12, fieldOf 12 m.interleave)],
   mkWord [(0, 12, bias 0), (12, 12, bias 1), (24, 12, bias 2), (36, 12, bias 3), (48, 16, ppmField iter)]] ++
    packStreams ((List.range 32).map fun l => fieldOf 8 (codes.getD l none))

/-! ### Trend samples (R375) -/

/-- The end of minute, hour or day number k + 1 of always-on time that is still to be closed. -/
def nextMark (s : State) (k period : Nat) : Nat := max ((k + 1) * period) (cdiv s.boot.originNs period * period)

/-- The mean SNR codes of the minute and LQ as the lowest margin computed from them; `up` rounds an inexact margin (log 1). -/
def Channel.minuteSnr (ch : Channel) (up : Bool) : Option (List (Option Rat) × Rat × Int) :=
  let codes := ch.age.minute.sums.map fun q => if q.2 = 0 then none else some ((q.1 : Rat) / (q.2 : Rat))
  let ms := ch.rxSet.streams.filterMap fun l =>
    (codes.getD l none).map fun x => margin ch.fec.rxOffshore up (ch.rxSet.code l) (nearest x).toNat
  match ms with
  | [] => none
  | m :: ms =>
    let q := ms.foldl min m
    some (codes, (q : Rat), q)

/-- Units with outer corrections and with 16 iterations in the minute, per million; 0 under Harbour. -/
def Channel.minuteFec (ch : Channel) : Option (Rat × Rat) :=
  let m := ch.age.minute
  let n := (ch.fec.unitsRx - m.units).toNat
  if ch.rx.state ≠ .tracking || n = 0 then none
  else if !ch.fec.rxOffshore then some (0, 0)
  else some (((ch.fec.outerCorr - m.outer).toNat * 1000000 : Nat) / (n : Rat), ((ch.fec.iterMaxHit - m.iter).toNat * 1000000 : Nat) / (n : Rat))

/-- A trend sample, in the units of the ledger record: 10 µA, mV, 0.0001 A/W, 0.1 dB and 0.001 K/W. -/
def State.trend (s : State) (c : Nat) (x : TrendIn) : Trend :=
  let ch := s.chan c
  let v := ch.cal.inForce c
  let snr := if ch.rx.state = .tracking && !ch.rxSet.streams.isEmpty then ch.minuteSnr (s.freeVal 0 1 = 1) else none
  let res (a : Nat) : Rat := (ch.cal.figures.ilRes.getD a 0 : Nat)
  { laser := if ch.opt.laserOn then x.laser.map fun n => (n : Int) / 10 else none
    bias := some ([393, 394, 396, 397].zipIdx.map fun k => ((Config.biasDrive c k.2 (v.getD k.1 0) : Int) : Rat))
    resp := if (s.conv c).los then none
      else (x.photo.filter fun p => 0 < p.2).map fun p => (10000 * p.1 : Nat) / (p.2 : Int)
    interleave := if ch.cal.appliedUp && !ch.cal.rxStale then some ((List.range 4).foldl (fun m a => min m (res a)) (res 0)) else none
    thermal := (x.heat.filter fun p => 0 < p.2.2.2).map fun p =>
      ((p.1 + p.2.1 : Rat) / 2 - p.2.2.1) * 1000 / (p.2.2.2 : Int)
    snr := snr.map fun q => (q.1, q.2.1), fec := ch.minuteFec, lqMin := snr.map (·.2.2) }

def State.takeSample (s : State) (c : Nat) (x : TrendIn) : State :=
  let s := s.at (nextMark s (max (s.chan c).age.minutes (cdiv s.now 60000000000 - 1)) 60000000000)
  let t := s.trend c x
  (s.onChan c fun ch => { ch with age := { ch.age with
    minutes := s.now / 60000000000, upMin := ch.age.upMin + 1, samples := ch.age.samples ++ [t]
    minute := ch.freshMinute } }).draw

def execTrendSample (c : Fin 32) (x : TrendIn) (s : State) : Out :=
  occurs s (s.boot.powered && (s.chan c).awake) (s.takeSample c x)

/-! ### Re-planning (R379 to R382) -/

/-- The figures of a plan from mean SNR codes. -/
def figuresOf (codes : List (Option Rat)) : Figures := fun l =>
  match codes.getD l none with | some x => (errorPower (nearest x).toNat, 1) | none => (0, 0)

/-- Lowest margin of a set at given codes. -/
def Channel.planLq (ch : Channel) (x : LoadSet) (codes : List (Option Rat)) (up : Bool) : Int :=
  let ms := x.streams.filterMap fun l => (codes.getD l none).map fun q => margin ch.fec.rxOffshore up (x.code l) (nearest q).toNat
  ms.foldl min (ms.headD 0)

/-- Slots that the active bank names. -/
def Slots.namedSlots (x : Slots) : Nat := ((x.bank x.activeB).filter fun p => (entryTrib p.2).isSome).length

/-- The shortest leading part of the shed order whose active slots together reach the deficit. -/
def State.shortList (s : State) : Int → List Nat → List Nat
  | d, i :: is => if d ≤ 0 then [] else i :: s.shortList (d - s.slotCountOf i false) is
  | _, [] => []

def State.shortfallEvent (s : State) (c : Nat) (begun : Bool) (deficit : Int) (list : List Nat) : State :=
  let first := list.headD (s.freeVal 0 16)
  (s.raise c 0x1B23 3 (mkWord [(0, 1, bitOf begun), (1, 11, (s.chan c).sRx), (12, 11, (s.chan c).age.sPlan),
    (23, 12, twos 12 deficit)]) (BitVec.ofNat 32 (first % 65536 + 65536 * list.length))).draw

/-- A plan below the S in force is a shortfall: the loading stays, and the list is formed. -/
def State.beginShort (s : State) (c : Nat) : State :=
  let ch := s.chan c
  let d : Int := (ch.sl.namedSlots : Int) - ch.age.sPlan
  let list := s.shortList d (ch.shedOrder.map (96 * c + ·))
  let was := ch.age.shortfall.isSome
  let s := s.onAge c fun x => { x with shortfall := some list, shortfalls := if was then x.shortfalls else x.shortfalls + 1 }
  if was then s else s.shortfallEvent c true d list

/-- A record without a shortfall ends the one in force. -/
def State.endShort (s : State) (c : Nat) : State :=
  match (s.chan c).age.shortfall with
  | some list =>
    let s := s.shortfallEvent c false (((s.chan c).sl.namedSlots : Int) - (s.chan c).age.sPlan) list
    s.onAge c fun x => { x with shortfall := none }
  | none => s

/-- The module's own exchange as initiator (R381). -/
def State.ownExchange (s : State) (c : Nat) (x : LoadSet) : State :=
  let lead := (lxLead (s.chan c).age.lead).getD 8
  if s.lxBlocked c || (s.chan c).ld.stale then s
  else s.lxPropose c { id := none, lead := lead, seq := 0, mI := 0, own := true, due := some (s.now + 500000000)
                       content := { fwd := none, rev := some x, profile := none } } lead

/-- A re-plan is stored under AUTONOMY 1, as the loading request that it is now, and started under AUTONOMY 2. -/
def State.replan (s : State) (c : Nat) (x : LoadSet) (codes : List (Option Rat)) : State :=
  let ch := s.chan c
  if ch.age.autonomy = 1 then
    let q := ch.planLq x codes (s.freeVal 0 1 = 1)
    ((s.onAge c fun a => { a with proposal := some (x.words ch.bu.params.rate ch.fec.rxOffshore), proposals := a.proposals + 1 }).raise c 0x1B21 1
      (mkWord [(0, 11, ch.age.sPlan), (11, 8, twos 8 q)])).draw
  else s.ownExchange c x

/-- An hourly record with SNR figures is evaluated: deficit, or 24 hours of surplus that a plan can use. -/
def State.evaluate (s : State) (c : Nat) (codes : List (Option Rat)) (lq : Int) : State :=
  let ch := s.chan c
  let a := ch.age
  let deficit := lq < (a.target : Int) - 2
  let surplus := 24 ≤ a.surplusH
  if a.autonomy = 0 || !(deficit || surplus) then s.endShort c
  else
    let (x, _) := ch.planFrom (figuresOf codes) a.target a.save ch.sRx
    let n := (ch.rxSlots x ch.fec.rxOffshore).getD 0
    let s := s.onAge c fun y => { y with sPlan := n }
    if !deficit && n ≤ ch.sRx && !(a.save && x.active ≠ ch.ld.rx.active) then s.endShort c
    else if n < ch.sRx then s.beginShort c
    else (s.endShort c).replan c x codes

/-! ### Records (R376, R379, R383) -/

/-- The hour's record of a channel, at most 168 kept. -/
def State.hourlyRecord (s : State) (c : Nat) : State :=
  let a := (s.chan c).age
  let s := s.at (nextMark s a.hours 3600000000000)
  let h := max (a.hours + 1) (cdiv s.boot.originNs 3600000000000)
  let m := Trend.mean a.samples
  let r : TideRecord := { seq := BitVec.ofNat 32 h, daily := false, powerH := s.powerHours, upH := a.upMin / 60, mean := m }
  let past := m.snr.isSome && (a.target : Int) + 8 < r.lq
  let s := s.onAge c fun x =>
    { x with hours := h, samples := [], today := x.today ++ [r], hourly := (x.hourly ++ [r]).drop (x.hourly.length - 167)
             surplusH := if past then satAt 255 (x.surplusH + 1) else 0 }
  match m.snr with
  | some v => s.evaluate c v.1 r.lq
  | none => s.endShort c

def execHourlyRecord (c : Fin 32) (s : State) : Out := occurs s s.boot.powered (s.hourlyRecord c)

/-- Limits 1 to 5 that a record has crossed against the beginning-of-life record, as bits 0 to 4. -/
def limitsCrossed (r b : TideRecord) : List Bool :=
  let n (o : Option Rat) : Option Int := o.map nearest
  let both (f : Trend → Option Rat) (p : Int → Int → Bool) : Bool :=
    match n (f r.mean), n (f b.mean) with | some x, some y => p x y | _, _ => false
  let bias := match r.mean.bias, b.mean.bias with
    | some x, some y => (List.range 4).any fun i => 1000 < (nearest (x.getD i 0) - nearest (y.getD i 0)).natAbs
    | _, _ => false
  [both (·.laser) fun x y => 120 * y < 100 * x, bias, both (·.resp) fun x y => 100 * x < 85 * y,
   both (·.interleave) fun x y => x < y - 60, both (·.thermal) fun x y => 120 * y < 100 * x]

/-- Days until the least-squares line through LQ_MEAN of the last 30 daily records reaches 0 dB; it needs 30 records with an LQ_MEAN
(DEDUCED, log 32). -/
def daysToZero (rs : List TideRecord) : Option Rat :=
  let l := (rs.drop (rs.length - 30)).filter fun r => r.mean.snr.isSome
  if l.length < 30 then none
  else
    let ys := l.map fun r => (r.lq : Rat)
    let pts := ys.zipIdx
    let sx : Rat := 435
    let sxx : Rat := 8555
    let sy := ys.sum
    let sxy := (pts.map fun p => p.1 * (p.2 : Rat)).sum
    let slope := (30 * sxy - sx * sy) / (30 * sxx - sx * sx)
    let end_ := sy / 30 + slope * (29 - sx / 30)
    if end_ ≤ 0 then some 0 else if slope < 0 then some (end_ / (-slope)) else none

/-- A limit that is crossed is reported once. -/
def State.crossLimit (s : State) (c q : Nat) : State :=
  if (s.chan c).age.limits.getLsbD (q - 1) then s
  else (s.onAge c fun x => { x with limits := x.limits ||| BitVec.ofNat 6 (2 ^ (q - 1)) }).raise c 0x1B24 2 (BitVec.ofNat 64 q)

/-- The ledger day's record, at most 4,096 kept; the first whole one is the beginning of life. -/
def State.dailyRecord (s : State) (c : Nat) : State :=
  let a := (s.chan c).age
  let s := s.at (nextMark s a.days 86400000000000)
  let r : TideRecord := { seq := a.dailySeq, daily := true, powerH := s.powerHours, upH := a.upMin / 60
                          mean := Trend.mean (a.today.map (·.mean)) }
  let daily := (a.daily ++ [r]).drop (a.daily.length - 4095)
  let zero := daysToZero daily
  let s := s.onAge c fun x =>
    { x with days := max (a.days + 1) (cdiv s.boot.originNs 86400000000000), today := [], daily := daily, dailySeq := x.dailySeq + 1
             bol := if x.bol.isNone && r.mean.missing = 0 then some r else x.bol, daysToZero := zero.map fun d => d.floor.toNat }
  match a.bol with
  | none => s
  | some b =>
    let s := (limitsCrossed r b).zipIdx.foldl (fun s p => if p.1 then s.crossLimit c (p.2 + 1) else s) s
    if zero.any (· ≤ 90) then s.crossLimit c 6 else s

/-- The day's last hourly record comes first. -/
def execDailyRecord (c : Fin 32) (s : State) : Out :=
  let a := (s.chan c).age
  occurs s (s.boot.powered && nextMark s a.days 86400000000000 ≤ a.hours * 3600000000000) (s.dailyRecord c)

/-! ### Commands (R378, R384) -/

def execAgeConfig (id : Nat) (s : State) : Out :=
  withCmd s id 0x1B00 fun f =>
    let c := f.desc.target
    let p := f.desc.p0
    let auto := p.bits 9 8
    let lead := p.bits 17 11
    if 64 < p.bits 7 0 || auto = 3 || (lxLead lead).isNone || (auto ≠ 0 && (s.chan c).pm.mode ≠ .pointToPoint) then s.finish f 0x01
    else (s.onAge c fun x => { x with target := p.bits 7 0, autonomy := auto, save := p.bit 10, lead := lead }).finish f 0

/-- The tidemark: LQ_MEAN of the last hourly record minus TARGET; a free value before the first record (log 1). -/
def State.tide (s : State) (c : Nat) : Int :=
  let x := (s.chan c).age
  match x.hourly.getLast? with | some r => r.lq - x.target | none => signed 8 (s.freeVal 0 8)

def State.ageWords (s : State) (c : Nat) : List Word :=
  let ch := s.chan c
  let x := ch.age
  let own := match ch.ld.proposal with | some p => p.own | none => false
  [mkWord [(0, 8, x.target), (8, 2, x.autonomy), (10, 1, bitOf x.save), (11, 7, x.lead), (18, 1, bitOf x.shortfall.isSome),
           (19, 1, bitOf own), (20, 6, x.limits.toNat),
           (32, 32, match x.bol with | some r => r.seq.toNat | none => 0xFFFFFFFF)],
   mkWord [(0, 8, twos 8 (s.tide c)), (8, 8, x.surplusH), (16, 11, x.sPlan), (32, 32, x.daysToZero.getD 0xFFFFFFFF)],
   mkWord [(0, 32, x.replans.toNat), (32, 32, x.proposals.toNat)], mkWord [(0, 32, x.shortfalls.toNat)]]

def execAgeStatus (id : Nat) (s : State) : Out :=
  withCmd s id 0x1B01 fun f => s.answer f (s.ageWords f.desc.target)

def execAgeLedgerRead (id : Nat) (s : State) : Out :=
  withCmd s id 0x1B02 fun f =>
    let p := f.desc.p0
    let n := p.bits 41 32
    let first := p.bits 31 0
    let x := (s.chan f.desc.target).age
    let rs := (if p.bit 42 then x.daily else x.hourly).filter fun r => first ≤ r.seq.toNat && r.seq.toNat < first + n
    if n = 0 || 512 < n then s.finish f 0x01
    else s.answer f (rs.flatMap fun r => r.words f.desc.target) (some rs.length)

def execAgeProposal (id : Nat) (s : State) : Out :=
  withCmd s id 0x1B03 fun f =>
    match (s.chan f.desc.target).age.proposal with
    | some ws => s.answer f (List.replicate 8 0 ++ ws)
    | none => s.finish f 0x20

def execAgeShortfall (id : Nat) (s : State) : Out :=
  withCmd s id 0x1B04 fun f =>
    let l := (s.chan f.desc.target).age.shortfall.getD []
    s.answerBytes f ((l ++ [0xFFFF]).flatMap (leBytes 2))

end Sys2Proof.Machine
end

