-- ==== Sys2Proof/Machine/Rings.lean ====
section
/-! DEFINITION. Descriptor rings, doorbells, fetch and start of commands, and the ring administration commands (04). -/

namespace Sys2Proof.Machine

/-! ### Set-up (04 R58, R77) -/

/-- POS_READY (03): the controller has booted since the last module-wide reset. -/
def State.posReady (s : State) : Bool := s.boot.booted

/-- Registers of a link can be reached: the link is up and the module has power. -/
def State.reach (s : State) (n : Nat) : Bool := s.boot.powered && (s.link n).trained && !(s.link n).recovery

/-- The WS fields of a RING_CFG_r write. -/
def Ring.withCfg (r : Ring) (v : Word) : Ring :=
  { r with kind := RingKind.ofCode (v.bits 3 1), size := v.bits 7 4, cq := v.bits 23 8, vec := v.bits 34 24,
           modCnt := v.bits 59 56, modTime := v.bits 63 60 }

/-- The completion ring that r names can take its records: completion kind, enabled by the same link, same block. -/
def State.cqUsable (s : State) (n r cq : Nat) : Bool :=
  (s.ring cq).kind = .completion && (s.ring cq).en && (s.ring cq).owner = n && ringBlock cq = ringBlock r

/-- Why an enable of ring r by link n is refused; 0: it is not (R58, in the order of that rule's list; log 10). -/
def State.enableErr (s : State) (n r : Nat) (x : Ring) : Nat :=
  if !s.posReady then 2
  else if (s.link n).dbAddr = 0 then 6
  else if !s.mayEnable n (ringBlock r) x.kind then 1
  else if 10 < x.size || x.addr = 0 then 2
  else if x.kind.hostMade && !s.cqUsable n r x.cq then 3
  else if x.kind = .event && !(s.ringsWhere fun m y => y.kind = .event && y.en && y.owner = n && ringBlock m = ringBlock r).isEmpty
    then 4
  else if s.ringBusy r then 7
  else 0

/-- A ring as it stands on enable: index 0, not halted, its counts and SEQ at 0. -/
def Ring.start (x : Ring) (n : Nat) : Ring :=
  { addr := x.addr, en := true, kind := x.kind, size := x.size, cq := x.cq, vec := x.vec, modCnt := x.modCnt,
    modTime := x.modTime, owner := n }

/-- Event 0x1924 goes to the first common event ring enabled after low water has been left, ring r (18 R414). -/
def State.reportLow (s : State) (r : Nat) : State :=
  match s.lowReport with
  | some n =>
    let e : Raised := { source := 32, code := 0x1924, severity := 1, us := s.us, mfc := s.eventMfc 32
                        detail0 := mkWord [(0, 32, n)], detail1 := 0, ring := some r }
    { s with lowReport := none, batch := s.batch ++ [e] }
  | none => s

/-- A RING_CFG_r write that sets RING_EN (R41, R44, R58). -/
def State.ringEnable (s : State) (n r : Nat) (v : Word) : State :=
  let x := s.ring r
  if x.en then
    if x.owner = n then s else s.setRing r { x with err := 1 }
  else
    let y := x.withCfg v
    let e := s.enableErr n r y
    if e = 0 then
      let s := ({ s with seen := s.seen.filter fun q => q.ring ≠ r }.setRing r (y.start n)).onLink n fun l =>
        { l with sweepDue := some (l.sweepDue.getD (s.now + l.sweepInt * 100000)) }
      if y.kind = .event && ringBlock r = 32 then s.reportLow r else s
    else s.setRing r { (if s.posReady && !s.ringBusy r then y else x) with err := e }

/-- Rings that name cq and are enabled or still busy (R77). -/
def State.feeders (s : State) (cq : Nat) : List Nat :=
  s.ringsWhere fun m y => y.cq = cq && y.kind.hostMade && ringBlock m = ringBlock cq && s.ringBusy m

/-- A RING_CFG_r write with RING_EN 0: disables, is refused for a fed completion ring, or on a disabled ring writes the
WS fields (R41, R44, R77). -/
def State.ringDisable (s : State) (n r : Nat) (v : Word) : State :=
  let x := s.ring r
  if !s.posReady then s
  else if x.en then
    if x.owner ≠ n then s
    else if x.kind = .completion && !(s.feeders r).isEmpty then s.setRing r { x with err := 5 }
    else (s.setRing r { x with err := 0 }).disableRing r
  else if s.ringBusy r then s
  else s.setRing r (x.withCfg v)

def State.ringCfgWrite (s : State) (n r : Nat) (v : Word) : State :=
  if v.bit 0 then s.ringEnable n r v else s.ringDisable n r v

def execRingEnable (n : Fin 4) (r : Fin 65536) (v : Word) (s : State) : Out :=
  occurs s (s.reach n && v.bit 0 && !s.sec.rcvMode) (s.ringEnable n r v)

def execRingDisable (n : Fin 4) (r : Fin 65536) (v : Word) (s : State) : Out :=
  occurs s (s.reach n && !v.bit 0 && !s.sec.rcvMode) (s.ringDisable n r v)

/-! ### Doorbells (04 R61 to R63, R495) -/

/-- A doorbell group is to be read; a read of the same group that still waits is merged with it (R61). -/
def addRead (g : Nat) (nudged : Bool) : List GroupRead → List GroupRead
  | [] => [{ group := g, nudged := nudged }]
  | x :: xs => if x.group = g then { x with nudged := x.nudged || nudged } :: xs else x :: addRead g nudged xs

/-- The groups that hold an enabled ring of link n, in rising order. -/
def State.liveGroups (s : State) (n : Nat) : List Nat :=
  ((s.ringsWhere fun _ x => x.en && x.owner = n).map (· / 64)).eraseDups

/-- Every group that holds an enabled ring of link n is to be read. -/
def State.readAll (s : State) (n : Nat) (nudged : Bool) : State :=
  (s.liveGroups n).foldl (fun s g => s.onLink n fun l => { l with reads := addRead g nudged l.reads }) s

/-- A nudge (R61); during a controller restart it is only counted (R495). -/
def State.nudge (s : State) (n : Nat) (v : Word) : State :=
  let g := v.bits 9 0
  s.onLink n fun l =>
    if l.dbAddr = 0 then { l with nudgeG := g }
    else { l with nudgeG := g, nudgeCount := l.nudgeCount + 1,
                  reads := if s.boot.running then addRead g true l.reads else l.reads }

def execNudgeGroup (n : Fin 4) (v : Word) (s : State) : Out :=
  occurs s (s.reach n && !s.sec.rcvMode) (s.nudge n v)

/-- The module acts on one doorbell word of ring r, read for link n (R61, R63, R65). -/
def State.ringDoorbell (s : State) (n r : Nat) (w : Word) : State :=
  let x := { s.ring r with dbLast := w.bits 15 0 }
  if !x.en || x.owner ≠ n then s
  else
  let s := s.setRing r x
  if x.halted then s
  else if w.bits 63 16 ≠ 0 || x.entries ≤ w.bits 15 0 then
    (s.raise (ringBlock r) 0x0103 2 (mkWord [(0, 16, r), (16, 16, w.bits 15 0)])).haltRing r 2
  else if w.bits 15 0 = x.db then s
  else if x.kind.hostMade then s.setRing r { x with db := w.bits 15 0, visit := 16 }
  else ((s.setRing r { x with db := w.bits 15 0, unread := (x.written + x.entries - w.bits 15 0) % x.entries }).reportLost r).reportGap r

/-- The words of group g arrive: every ring of the group is acted on, in rising order. -/
def State.groupDoorbells (s : State) (n g : Nat) (ws : List Word) : State :=
  (List.range 64).foldl (fun s i => s.ringDoorbell n (64 * g + i) (wd ws i)) s

/-- The group's words hold a doorbell that has changed. -/
def State.groupChanged (s : State) (n g : Nat) (ws : List Word) : Bool :=
  (List.range 64).any fun i =>
    let x := s.ring (64 * g + i)
    x.en && !x.halted && x.owner = n && wd ws i ≠ BitVec.ofNat 64 x.db

def State.doorbellRead (s : State) (n g : Nat) (nudged : Bool) (ws : List Word) : State :=
  let l := s.link n
  let found := !nudged && !l.sweepHit && s.groupChanged n g ws
  let l := { l with reads := l.reads.filter fun q => q.group ≠ g, sweepHit := l.sweepHit || found,
                    sweepFound := if found then satAt 65535 (l.sweepFound + 1) else l.sweepFound }
  ((s.setLink n l).emit (.doorbellRead n (mkWord [(12, 52, l.dbAddr.toNat)] + BitVec.ofNat 64 (512 * g)))
    ).groupDoorbells n g ws

/-- The read is taken as issued when its data arrive (DESIGN CHOICE, log 11). -/
def execDoorbellReadDone (n : Fin 4) (g : Fin 1024) (ws : List Word) (s : State) : Out :=
  occursWith s (if s.reach n && s.boot.running then (s.link n).reads.find? fun q => q.group = g.val else none)
    fun q => s.doorbellRead n g q.nudged ws

def execDoorbellSweep (n : Fin 4) (s : State) : Out :=
  occursWith s (if s.reach n && s.boot.running then (s.link n).sweepDue else none) fun due =>
    ((s.at due).onLink n fun l => { l with sweepDue := some (due + l.sweepInt * 100000), sweepHit := false }).readAll n false

/-! ### Fetch (04 R65) -/

/-- Ring r has a descriptor that may be fetched: the controller runs, its link is up, and its completion ring can take
a further record. -/
def State.fetchable (s : State) (r : Nat) : Bool :=
  let x := s.ring r
  let q := s.ring x.cq
  x.en && !x.halted && x.kind.hostMade && x.head ≠ x.db && s.boot.running && s.reach x.owner
    && q.en && !q.halted && 0 < q.room

/-- Rings of r's group and link whose present visit still has a descriptor to fetch. -/
def State.visiting (s : State) (r : Nat) : List Nat :=
  s.ringsWhere fun m x => m / 64 = r / 64 && x.owner = (s.ring r).owner && 0 < x.visit && s.fetchable m

/-- Rings of r's group and link that may fetch at all. -/
def State.waiting (s : State) (r : Nat) : List Nat :=
  s.ringsWhere fun m x => m / 64 = r / 64 && x.owner = (s.ring r).owner && s.fetchable m

/-- Ring r is next: up to 16 descriptors per visit, the rings of a group in rising number; when every visit of the group
is over, a new one starts. -/
def State.nextToFetch (s : State) (r : Nat) : Bool :=
  s.fetchable r && match s.visiting r with
    | [] => (s.waiting r).all (r ≤ ·)
    | l => l.contains r && l.all (r ≤ ·)

/-- A new visit of every waiting ring of r's group, once the last one is over. -/
def State.renewVisits (s : State) (r : Nat) : State :=
  if (s.visiting r).isEmpty then (s.waiting r).foldl (fun s m => s.onRing m fun x => { x with visit := 16 }) s else s

def State.fetch (s : State) (r : Nat) (d : Desc) : State :=
  let s := s.renewVisits r
  let x := s.ring r
  let o := opInfo d.opcode
  let f : Flight := { id := s.nextId, link := x.owner, ring := r, index := x.head, desc := d,
                      deadline := o.bind fun o => (o.cls.ns (o.len d)).map (s.now + ·) }
  let s := { s with nextId := s.nextId + 1, flights := s.flights ++ [f] }
  (s.setRing r { x with head := (x.head + 1) % x.entries, moved := x.moved + 1, visit := x.visit - 1 }
    ).onRing x.cq fun q => { q with reserved := q.reserved + 1 }

def execDescriptorFetch (r : Fin 65536) (d : Desc) (s : State) : Out :=
  occurs s (s.nextToFetch r) (s.fetch r d)

/-! ### Start (02 R29; 03 R43, R45; 04 R57, R66, R68 to R71, R494) -/

/-- Commands addressing one channel start in fetch order: an earlier one has not started, or has started and not yet been
carried out, so that its promise is checked first (02 R29). -/
def State.startsBefore (s : State) (f : Flight) : Bool :=
  s.flights.any fun g => g.phase ≠ .running && g.id < f.id && g.desc.target = f.desc.target && f.desc.target < 32
    && g.deadline.isSome && !g.limited

/-- FENCE holds a descriptor until every earlier one of its ring has completed. -/
def State.fenced (s : State) (f : Flight) : Bool :=
  f.desc.fence && (s.flights.any (fun g => g.ring = f.ring && g.id < f.id) ||
    (s.link f.link).deferred.any fun d => d.record.ring = f.ring)

/-- Commands that do not start during the sleep entry or Slack exit of their channel in which they were fetched (18 R411), but for
an ACTION 2 during an exit. -/
def State.held (s : State) (f : Flight) : Bool :=
  let x := (s.chan f.desc.target).pw
  let t := x.transit
  let op := f.desc.opcode
  f.desc.target < 32 && (op = 0x1900 || op = 0x1901 || op = 0x1400) && x.resetCmd.isNone && x.turnFrom ≤ f.id
    && (t = .enteringSlack || t = .enteringDark || (t = .leavingSlack && !(op = 0x1901 && f.desc.p0.bits 1 0 = 2)))

/-- Jobs of one crypto job ring start in fetch order (07 R170). -/
def State.jobWaits (s : State) (f : Flight) : Bool :=
  f.desc.opcode = 0x1230 && s.flights.any fun g => g.ring = f.ring && g.id < f.id && g.phase ≠ .running

def State.canStart (s : State) (f : Flight) : Bool :=
  f.phase = .fetched && s.boot.running && !f.limited && !f.orphan && !s.startsBefore f && !s.fenced f
    && !s.held f && !s.jobWaits f

/-- The channels that link n owns, as a mask. -/
def State.ownedBy (s : State) (n : Nat) : BitVec 32 := BitVec.ofNat 32 (((List.range 32).filter (s.owns n)).map (2 ^ ·)).sum

/-- For a PART_CHANGE that starts while another has started and not completed, the record in force (03 R48). -/
def State.rivalFor (s : State) (f : Flight) : Option Partition :=
  if f.desc.opcode = 0x0210 && s.flights.any (fun g => g.id ≠ f.id && g.desc.opcode = 0x0210 && g.phase ≠ .fetched) then
    some s.part
  else none

/-- A command starts: the checks that every command meets, then its issuer's role, which is kept with it (03 R45). -/
def State.start (s : State) (f : Flight) (o : OpInfo) : State :=
  if !(o.wellFormed (s.ring f.ring).kind f.ring f.desc && s.targetAllowed f.link f.desc) then s.finish f 0x01
  else if !s.mayRun f o then s.finish f 0x04
  else s.onFlight f.id fun g => { g with
    phase := .started, owned := s.ownedBy f.link, primary := s.primary = f.link, rival := s.rivalFor f }

def execCommandStart (id : Nat) (s : State) : Out :=
  occursWith s ((s.flights.find? fun f => f.id = id && s.canStart f).bind fun f => (opInfo f.desc.opcode).map (f, ·))
    fun q => s.start q.1 q.2

def execUndefinedOpcode (id : Nat) (s : State) : Out :=
  occursWith s (s.flights.find? fun f => f.id = id && s.canStart f && (opInfo f.desc.opcode).isNone)
    fun f => s.finish f 0x01

/-! ### Errors, moderation and the writing of events (04 R75, R78; 21 R458) -/

def execDmaError (r : Fin 65536) (s : State) : Out :=
  occurs s (s.reach (s.ring r).owner && (s.ring r).en && !(s.ring r).halted) (s.haltRing r 3)

def execModerationTimer (r : Fin 65536) (s : State) : Out :=
  occursWith s (if s.boot.powered then (s.ring r).modDue else none) fun due => (s.at due).signal r

/-- Level of the fault that an event reports, by its code, and for a chain alarm by its cause (R458). -/
def faultLevel (code : Nat) (d0 : Word) : Nat :=
  if code = 0x1C23 || (code = 0x1C22 && (d0.bits 14 11 = 3 || d0.bits 14 11 = 4)) then 1
  else if code = 0x14C1 then 2
  else if code ∈ [0x1401, 0x1460] then 3
  else if code ∈ [0x1480, 0x14A0, 0x1484, 0x1464] then 4
  else if code ∈ [0x1020, 0x1022, 0x1120, 0x1251, 0x1253] then 5
  else if code ∈ [0x1641, 0x1642, 0x1643, 0x1648, 0x1521, 0x1483] then 6
  else 7

/-- Rising level, and within one level rising code; equal ones stay in the order of raising. -/
def Raised.before (a b : Raised) : Bool :=
  let m := faultLevel a.code a.detail0
  let n := faultLevel b.code b.detail0
  m < n || (m = n && a.code < b.code)

def insertRaised (e : Raised) : List Raised → List Raised
  | [] => [e]
  | x :: xs => if e.before x then e :: x :: xs else x :: insertRaised e xs

def sortRaised (l : List Raised) : List Raised := l.foldl (fun acc e => insertRaised e acc) []

/-- The earliest microsecond for which a source has events to write. -/
def State.batchUs (s : State) (source : Nat) : Option Nat :=
  (s.batch.filter fun e => e.source = source).foldl
    (fun m e => some (match m with | none => e.us | some u => min u e.us)) none

/-- Another source's events of that microsecond come first: they report the fault that caused one of these, and none of
them was caused by this source. -/
def State.batchWaits (s : State) (source us : Nat) : Bool :=
  s.batch.any fun e => e.source = source && e.us = us && match e.cause with
    | none => false
    | some c => c ≠ source && s.batch.any (fun x => x.source = c && x.us ≤ us)
        && !s.batch.any fun x => x.source = c && x.us ≤ us && x.cause = some source

def State.writeBatch (s : State) (source us : Nat) : State :=
  let mine (e : Raised) : Bool := e.source = source && e.us = us
  let evs := sortRaised (s.batch.filter mine)
  let s := { s.at ((us + 1) * 1000) with batch := s.batch.filter fun e => !mine e }
  (s.ringsWhere fun r x => x.kind = .event && x.en && ringBlock r = source).foldl
    (fun s r => (evs.filter fun e => e.ring.all (· = r)).foldl (fun s e => s.deliverEvent r e) s) s

def execEventBatchWrite (source : Fin 33) (s : State) : Out :=
  occursWith s (if s.boot.powered then (s.batchUs source).filter fun us => !s.batchWaits source us else none)
    fun us => s.writeBatch source us

/-! ### Commands (04 R76) -/

def execNop (id : Nat) (s : State) : Out := withCmd s id 0x0100 fun f => s.finish f 0

/-- A ring number that a command names lies in the block of the channel it addresses (01 R16). -/
def Desc.mayName (d : Desc) (r : Nat) : Bool := d.target = 32 || ringBlock r = d.target

/-- The four words of RING_QUERY for ring r. -/
def State.ringState (s : State) (r : Nat) : List Word :=
  let x := s.ring r
  [x.baseWord, s.cfgWord r, mkWord [(0, 32, x.moved.toNat), (32, 32, if x.kind.hostMade then 0 else x.lost.toNat)],
   mkWord [(0, 16, x.dbLast), (16, 16, (s.flights.filter fun f => f.ring = r).length)]]

def execRingQuery (id : Nat) (s : State) : Out :=
  withCmd s id 0x0101 fun f =>
    let r := f.desc.p0.bits 15 0
    if !f.desc.mayName r then s.finish f 0x01
    else if (s.ring r).owner = f.link && s.ringBusy r then s.answer f (s.ringState r) else s.finish f 0x04

def execEventFilter (id : Nat) (s : State) : Out :=
  withCmd s id 0x0110 fun f =>
    let r := f.desc.p0.bits 15 0
    let x := s.ring r
    if !f.desc.mayName r then s.finish f 0x01
    else if !(x.en && x.owner = f.link) then s.finish f 0x04
    else if x.kind ≠ .event then s.finish f 0x01
    else (s.setRing r { x with threshold := f.desc.p0.bits 18 16 }).finish f 0

/-- The descriptor's buffer waits on its ring until it is filled (R67). -/
def execBufPost (id : Nat) (s : State) : Out :=
  withCmd s id 0x0130 fun f =>
    if (s.ring f.ring).en && !(s.ring f.ring).halted then
      (s.onRing f.ring fun x => { x with posted := x.posted ++ [f.id] }).run f
    else s.finish f 0x06

/-! ### Messages into posted buffers (04 R67, R76; 08 R191; 19 R432) -/

/-- The lowest-numbered enabled message receive ring of a block, of one link when it is given, with a posted buffer. -/
def State.messageRing (s : State) (block : Nat) (link : Option Nat) : Option Nat :=
  (s.ringsWhere fun r x => x.kind = .ohmReceive && x.en && !x.halted && ringBlock r = block && !x.posted.isEmpty
    && link.all (x.owner = ·)).head?

/-- The oldest buffer posted on ring r takes a message, cut at its length, and its record carries the bytes written. -/
def State.fillMessage (s : State) (r : Nat) (bytes : List Byte) (r1 : Nat) : State :=
  match ((s.ring r).posted.head?).bind s.flight? with
  | some f =>
    let s := (s.onRing r fun x => { x with posted := x.posted.drop 1 }).writeBuf f 0 bytes
    s.finish f (if f.desc.bufLen < bytes.length then 0x20 else 0) (some (min f.desc.bufLen bytes.length)) (some r1)
  | none => s

end Sys2Proof.Machine
end

