-- ==== Sys2Proof/Machine/Alarm.lean ====
section
/-! DEFINITION. The alarm summary (21 R461). -/

namespace Sys2Proof.Machine

/-- The event codes that report the beginning of each condition of a channel entry and of the common entry. -/
def channelCodes : List (List Nat) :=
  [[0x14C1], [0x1401], [0x1460], [0x1480], [0x14A0], [0x1484], [0x14A1], [0x1323], [0x1483], [0x1020], [0x1253],
   [0x1251, 0x1254], [0x1120], [0x1521], [0x1B23], [0x14C0], []]
def commonCodes : List (List Nat) :=
  [[0x1643], [], [0x1A24], [0x1C23], [0x1C22], [0x1741], [], [0x1C22], [0x1C21], [0x1844], []]

/-- Sources whose events can report a condition of an entry: its own, and for the common section's converters and SRAMs
every block's. -/
def eventSource (k : Nat) (code source : Nat) : Bool := source = k || (k = 32 && (code = 0x1741 || code = 0x1844))

/-- DETAIL0 of the chain alarm that the head raises for a condition of its own: cause 4 for its laser-off input, and cause 3 for its
cold plate (19 R430). -/
def State.ownAlarm (s : State) (bit : Nat) : Word := mkWord [(0, 11, s.shore.address), (11, 4, if bit = 4 then 4 else 3), (15, 1, 1)]

/-- SEQ of the event of a condition, bit `bit` of entry k, that began at `us`, on the lowest-numbered event ring of link n that
received it. -/
def State.rootSeq (s : State) (n k bit : Nat) (us : Nat) : Nat :=
  let codes := (if k < 32 then channelCodes else commonCodes).getD bit []
  let hits := s.seen.filter fun e => e.link = n && e.us = us && (e.code ≠ 0x1C22 || e.detail = s.ownAlarm bit)
    && codes.any fun c => c = e.code && eventSource k c e.source
  match hits.foldl (fun (m : Option EventSeen) e => match m with
      | none => some e
      | some b => if e.ring < b.ring then some e else some b) none with
  | some e => e.seq.toNat
  | none => 0xFFFFFFFF

/-- An active condition of an entry: its bit, its level and when it began. -/
def State.activeAlarms (s : State) (k : Nat) : List (Nat × Nat × Nat) :=
  ((s.alarms k).zipIdx.filter fun p => p.1).map fun p =>
    (p.2, (if k < 32 then channelLevels else commonLevels).getD p.2 0, s.since.get s.us (32 * k + p.2))

/-- The root: among the active conditions of the lowest level the oldest one. -/
def rootAlarm (l : List (Nat × Nat × Nat)) : Option (Nat × Nat × Nat) :=
  l.foldl (fun m a => match m with
    | none => some a
    | some b => if a.2.1 < b.2.1 || (a.2.1 = b.2.1 && a.2.2 < b.2.2) then some a else some b) none

def State.alarmEntry (s : State) (n k : Nat) : List Word :=
  let l := s.activeAlarms k
  let active := l.foldl (fun m a => m + 2 ^ a.1) 0
  match rootAlarm l with
  | none => [0, mkWord [(32, 32, 0xFFFFFFFF)]]
  | some (bit, level, us) =>
    [mkWord [(0, 32, active), (32, 3, level)],
     mkWord [(0, 32, us), (32, 32, s.rootSeq n k bit us)]]

def execAlarmSummary (id : Nat) (s : State) : Out :=
  withCmd s id 0x0120 fun f =>
    s.answer f ((List.range 33).flatMap fun k => if s.hearsEvents f.link k then s.alarmEntry f.link k else [0, 0])

end Sys2Proof.Machine
end

