-- ==== Sys2Proof/Machine/Partition.lean ====
section
/-! DEFINITION. The partition record and its commands (03 R46 to R50, R496), and the fuse ledger's entries (20 R448). -/

namespace Sys2Proof.Machine

/-! ### The fuse ledger -/

/-- The four words of a ledger entry (R448). -/
def LedgerEntry.words (e : LedgerEntry) : List Word :=
  [mkWord [(0, 4, e.typ), (4, 7, e.seq), (11, 2, e.link), (13, 2, e.primary), (15, 24, e.powerH)], e.w1, e.w2, e.w3]

/-- Entries of one TYPE held. -/
def State.entriesOf (s : State) (typ : Nat) : List LedgerEntry := s.sec.ledger.filter fun e => e.typ = typ

/-- A command that lists ledger entries: as many whole entries as fit, their number, and how many are held. -/
def State.answerEntries (s : State) (f : Flight) (es : List LedgerEntry) : State :=
  let n := min es.length (f.desc.bufLen / 32)
  s.answer f ((es.take n).flatMap LedgerEntry.words) (some n) (some es.length)

/-! ### The partition record (R47) -/

def PartEntry.byte (e : PartEntry) : Nat := e.owner + 4 * e.observe.toNat

def Partition.entry (p : Partition) (c : Nat) : PartEntry := p.entries.get {} c

def Partition.words (p : Partition) : List Word :=
  [mkWord [(0, 2, p.primary), (8, 6, p.seq)]] ++
  ((List.range 4).map fun w => mkWord ((List.range 8).map fun i => (8 * i, 8, (p.entry (8 * w + i)).byte))) ++ [0, 0, 0]

/-- A proposed record, its SEQ aside. -/
def Partition.ofWords (ws : List Word) (seq : Nat) : Partition :=
  let entry (c : Nat) : PartEntry :=
    let b := (wd ws (1 + c / 8)).bits (8 * (c % 8) + 7) (8 * (c % 8))
    { owner := b % 4, observe := BitVec.ofNat 4 (b / 4) }
  { primary := (wd ws 0).bits 1 0, seq := seq
    entries := (List.range 32).foldl (fun m c => Sparse.put {} m c (entry c)) [] }

/-- Reserved bits of a proposed record are 0. -/
def partReservedClear (ws : List Word) : Bool :=
  (wd ws 0).bits 7 2 = 0 && (wd ws 0).bits 63 14 = 0 &&
  ((List.range 32).all fun c => (wd ws (1 + c / 8)).bits (8 * (c % 8) + 7) (8 * (c % 8) + 6) = 0) &&
  wd ws 5 = 0 && wd ws 6 = 0 && wd ws 7 = 0

/-- Owners and observers agree with another record. -/
def Partition.sameAs (p q : Partition) : Bool :=
  p.primary = q.primary && (List.range 32).all fun c => p.entry c = q.entry c

/-- Some entry lets its own owner observe. -/
def Partition.ownerObserves (p : Partition) : Bool :=
  (List.range 32).any fun c => (p.entry c).observe.toNat.testBit (p.entry c).owner

/-- Every link that the record names exists under the split. -/
def State.namesPresent (s : State) (p : Partition) : Bool :=
  s.linkPresent p.primary && (List.range 32).all fun c =>
    s.linkPresent (p.entry c).owner && (List.range 4).all fun n => !(p.entry c).observe.toNat.testBit n || s.linkPresent n

/-- A channel that changes its owner still has an enabled ring on the old owner's link, or a command of such a ring. -/
def State.oldOwnerActive (s : State) (p : Partition) : Bool :=
  (List.range 32).any fun c =>
    let o := (s.entry c).owner
    (p.entry c).owner ≠ o &&
      (s.rings.any (fun q => q.2.en && q.2.owner = o && ringBlock q.1 = c) ||
       s.flights.any (fun f => f.link = o && ringBlock f.ring = c) ||
       (s.link o).deferred.any fun d => ringBlock d.record.ring = c)

/-- The first status of R48 that applies to a proposed record; 0: none does. The record and the issuer's role are those of its
start (R45). -/
def State.partRefusal (s : State) (f : Flight) (ws : List Word) : Nat :=
  let p := Partition.ofWords ws s.part.seq
  if !partReservedClear ws || p.ownerObserves || p.sameAs (f.rival.getD s.part) then 0x01
  else if !f.primary then 0x04
  else if f.rival.isSome then 0x02
  else if !s.namesPresent p then 0x20
  else if s.oldOwnerActive p then 0x21
  else if 32 ≤ s.part.seq then 0x09
  else 0

/-! ### Commands -/

def execPartQuery (id : Nat) (s : State) : Out := withCmd s id 0x0200 fun f => s.answer f s.part.words

def execPartHistory (id : Nat) (s : State) : Out := withCmd s id 0x0201 fun f => s.answerEntries f (s.entriesOf 2)

/-- The ledger entry is written by a later step, LEDGER_WRITE_DONE (R48, R49). -/
def execPartChange (id : Nat) (ws : List Word) (s : State) : Out :=
  withCmd s id 0x0210 fun f =>
    let st := s.partRefusal f ws
    if st = 0 then
      { s with sec := { s.sec with ledgerWrites := s.sec.ledgerWrites ++
          [LedgerWrite.partition id (Partition.ofWords ws (s.part.seq + 1))] } }.run f
    else s.finish f st

/-! ### Putting a record in force (R48, R50) -/

/-- Rings that the record no longer lets their link enable. -/
def State.lostRings (s : State) : List Nat :=
  s.ringsWhere fun r x => x.en && !s.mayEnable x.owner (ringBlock r) x.kind

/-- A ring is disabled by the new record: what has not started completes with 0x04 and results of 0, and what has started, a
crypto job too, runs to its end. A completion ring still takes the records of the commands that were fetched for it. -/
def State.revokeRing (s : State) (r : Nat) : State :=
  let s := ((s.flights.filter fun f => f.ring = r && f.phase = .fetched).foldl
    (fun s f => s.finish f 0x04 (some 0) (some 0) (some 0)) s).stopRing r
  s.onRing r fun x => if x.kind = .completion then { x with draining := 0 < x.reserved } else x

/-- Channels whose owner differs between two records. -/
def ownersChanged (p q : Partition) : Nat :=
  ((List.range 32).filter fun c => (p.entry c).owner ≠ (q.entry c).owner).length

/-- The ledger entry of a partition change (R448). -/
def State.partLedger (s : State) (link : Nat) (p : Partition) : LedgerEntry :=
  let v := (List.range 32).foldl (fun acc c => acc + (p.entry c).byte * 2 ^ (6 * c)) 0
  { typ := 2, seq := (s.entriesOf 2).length + 1, link := link, primary := p.primary, powerH := s.powerHours
    w1 := BitVec.ofNat 64 v, w2 := BitVec.ofNat 64 (v / 2 ^ 64), w3 := BitVec.ofNat 64 (v / 2 ^ 128) }

/-- The new record takes effect with its ledger entry, in one step. -/
def State.recordInForce (s : State) (f : Flight) (p : Partition) : State :=
  let old := s.part
  let s := { s with part := p, sec := { s.sec with ledger := s.sec.ledger ++ [s.partLedger f.link p] } }
  let s := s.lostRings.foldl State.revokeRing s
  let d0 := mkWord [(0, 6, p.seq), (6, 2, f.link), (8, 5, satAt 31 (ownersChanged old p))]
  s.raise 32 0x0220 1 d0 (BitVec.ofNat 32 s.sec')

def State.adoptPartition (s : State) (f : Flight) (p : Partition) : State := (s.recordInForce f p).finish f 0

end Sys2Proof.Machine
end

