-- ==== Sys2Proof/Machine/Random.lean ====
section
/-! DEFINITION. The entropy source and the random bit generator (20 R451, R452): CTR_DRBG of SP 800-90A with AES-256 and its
derivation function. The standard is named by the spec and not repeated there; what stands here is taken from it (PRESUMED, log
21). -/

namespace Sys2Proof.Machine

def State.onSec (s : State) (g : Security → Security) : State := { s with sec := g s.sec }

/-! ### The entropy source (R451) -/

/-- The k-th 256-bit output that the source gives at count n: SHA-256 over 512 raw bits that passed the tests. -/
def entropyOutput (n k : Nat) : List Nat := Crypto.sha256N (Crypto.beBytesN 64 (Config.rawBits n k).toNat)

/-! ### CTR_DRBG -/

/-- The working state of the generator: the key and V as byte strings. -/
structure Drbg where
  key : List Nat
  v : List Nat

/-- n blocks of output, V counting up before each, and V after them. -/
def Drbg.run (d : Drbg) (n : Nat) : List Nat × List Nat :=
  let v (i : Nat) : List Nat := Crypto.beBytesN 16 ((Crypto.beVal d.v + i) % 2 ^ 128)
  ((List.range n).flatMap fun i => Crypto.aesEncrypt d.key (v (i + 1)), v n)

/-- The update with 48 bytes of provided data. -/
def Drbg.update (d : Drbg) (provided : List Nat) : Drbg :=
  let t := Crypto.xorList (d.run 3).1 provided
  { key := t.take 32, v := (t.drop 32).take 16 }

/-- The chaining value of the derivation function over whole blocks. -/
def derivationChain (key : List Nat) (data : List Nat) : List Nat :=
  (Crypto.blocks data).foldl (fun c b => Crypto.aesEncrypt key (Crypto.xorList c b)) (List.replicate 16 0)

/-- The derivation function: 48 bytes from an input string. -/
def derive48 (input : List Nat) : List Nat :=
  let body := Crypto.beBytesN 4 input.length ++ Crypto.beBytesN 4 48 ++ input ++ [0x80]
  let padded := body ++ List.replicate ((16 - body.length % 16) % 16) 0
  let first := (List.range 3).flatMap fun i =>
    derivationChain (List.range 32) (Crypto.beBytesN 4 i ++ List.replicate 12 0 ++ padded)
  let key := first.take 32
  let x1 := Crypto.aesEncrypt key ((first.drop 32).take 16)
  let x2 := Crypto.aesEncrypt key x1
  x1 ++ x2 ++ Crypto.aesEncrypt key x2

def Drbg.zero : Drbg := { key := List.replicate 32 0, v := List.replicate 16 0 }
def Drbg.reseed (d : Drbg) (entropy : List Nat) : Drbg := d.update (derive48 entropy)

/-- n bytes of output, and the state after them. -/
def Drbg.generate (d : Drbg) (n : Nat) : List Nat × Drbg :=
  let r := d.run ((n + 15) / 16)
  (r.1.take n, ({ d with v := r.2 } : Drbg).update (List.replicate 48 0))

/-! ### The mask generators (07 R143, R144) -/

def MaskGen.drbg (x : MaskGen) : Drbg := { key := Crypto.keyBytes x.key, v := Crypto.beBytesN 16 x.v.toNat }
def MaskGen.hold (x : MaskGen) (d : Drbg) : MaskGen :=
  { x with key := BitVec.ofNat 256 (Crypto.beVal d.key), v := BitVec.ofNat 128 (Crypto.beVal d.v) }

/-- Instantiation from the k-th and the next output of the source at count n, as that of the module's generator (log 139). -/
def MaskGen.instantiate (x : MaskGen) (n k : Nat) : MaskGen :=
  x.hold (Drbg.zero.reseed (entropyOutput n k ++ (entropyOutput n (k + 1)).take 16))

/-- Masks are drawn for the n-th use of AES: the generator moves on by as many bytes as that use consumes. -/
def MaskGen.draw (x : MaskGen) (n : Nat) : MaskGen := x.hold (x.drbg.generate (Config.maskBytes n)).2

/-- A reseed that is due mixes an output of the source into the state, or while the source fails leaves it as it is (R144). -/
def MaskGen.reseed (x : MaskGen) (failing : Bool) (now n : Nat) : MaskGen :=
  { (if failing then x else x.hold (x.drbg.reseed (entropyOutput n 0))) with failing := failing, due := now + 1000000000 }

/-- The generator of channel k, or that of the job engine (32). -/
def State.maskGen (s : State) (k : Nat) : MaskGen := if k < 32 then (s.chan k).mask else s.sec.jobMask
def State.setMaskGen (s : State) (k : Nat) (x : MaskGen) : State :=
  if k < 32 then s.onChan k fun ch => { ch with mask := x } else s.onSec fun y => { y with jobMask := x }

/-- An AES computation of channel k's line pipelines, or of the job engine (32), runs under fresh masks. -/
def State.drawMasks (s : State) (k : Nat) : State :=
  if s.sec.tested then (s.setMaskGen k ((s.maskGen k).draw s.free)).draw else s

/-! ### The generator in State -/

def Security.generator (x : Security) : Drbg :=
  { key := Crypto.keyBytes x.drbgKey, v := Crypto.beBytesN 16 x.drbgV.toNat }
def Security.setGenerator (x : Security) (d : Drbg) : Security :=
  { x with drbgKey := BitVec.ofNat 256 (Crypto.beVal d.key), drbgV := BitVec.ofNat 128 (Crypto.beVal d.v) }

/-- Instantiation once the start-up test has passed: one output of the source as entropy input, and the first half of a second one
as nonce (DESIGN CHOICE, log 139); each mask generator takes the next two. -/
def State.instantiate (s : State) : State :=
  ((List.range 33).foldl (fun s k => s.setMaskGen k ((s.maskGen k).instantiate s.free (2 * k + 2)))
    (s.onSec fun x => { x.setGenerator (Drbg.zero.reseed (entropyOutput s.free 0 ++ (entropyOutput s.free 1).take 16)) with
      tested := true, drbg := true, requests := 0, reseedDue := s.now + 1000000000 })).draw

/-- A reseed from one output of the source. -/
def State.reseed (s : State) : State :=
  (s.onSec fun x => { x.setGenerator (x.generator.reseed (entropyOutput s.free 0)) with
    drbg := true, requests := 0, reseedDue := s.now + 1000000000 }).draw

/-- A reseed has fallen due: 1 s after the last one, or after 65,536 requests. -/
def State.reseedOwed (s : State) : Bool := 65536 ≤ s.sec.requests || s.sec.reseedDue ≤ s.now

/-- The random bit generator gives output: not before the start-up test, nor while a reseed that is due cannot be made. -/
def State.canDraw (s : State) : Bool := s.sec.drbg && !(s.sec.failing && s.reseedOwed)

/-- The generator as it serves the next request, after the reseed that is due. -/
def State.ready (s : State) : State := if s.reseedOwed then s.reseed else s

/-- The n bytes that the next request gets, as a big-endian number. -/
def State.random (s : State) (n : Nat) : Nat := Crypto.beVal (s.ready.sec.generator.generate n).1

/-- A request for n bytes is served. -/
def State.request (s : State) (n : Nat) : State :=
  (s.ready.onSec fun x => { x.setGenerator (x.generator.generate n).2 with requests := x.requests + 1 }).draw

/-! ### Rows -/

def execDrbgReseed (s : State) : Out :=
  occurs s (s.boot.powered && s.sec.tested) <|
    let s := if 65536 ≤ s.sec.requests then s else s.at s.sec.reseedDue
    if s.sec.failing then s.onSec fun x => { x with drbg := false } else s.reseed

/-- The repetition count test fails: 41 equal bits in a row; `last` and `n` are the run before these bits. -/
def repetitionFails : Option Bool → Nat → List Bool → Bool
  | _, _, [] => false
  | last, n, b :: bs =>
    let n := if last = some b then n + 1 else 1
    41 ≤ n || repetitionFails (some b) n bs

/-- The adaptive proportion test fails: in a window of 1,024 bits its first bit occurs 624 times or more. -/
def proportionFails (raw : List Bool) : Bool :=
  (List.range (raw.length / 1024)).any fun i =>
    let w := (raw.drop (1024 * i)).take 1024
    624 ≤ w.count (w.headD false)

/-- The health test that raw bits fail: the repetition count test (true), or the adaptive proportion test (R451). -/
def healthFailure (raw : List Bool) : Option Bool :=
  if repetitionFails none 0 raw then some true else if proportionFails raw then some false else none

/-- The source begins to fail, by the test given; the start-up test follows 1 s later. -/
def State.sourceFails (s : State) (repetition : Bool) : State :=
  (s.onSec fun x => { x with failing := true, failures := x.failures + 1, lastFail := s.sec', testDue := s.now + 1000000000 }
    ).raise 32 0x1A24 3 (BitVec.ofNat 64 (bitOf repetition))

/-- The raw bits taken since the last tests fail one. -/
def execEntropyHealthFailure (raw : List Bool) (s : State) : Out :=
  occursWith s (if s.boot.powered && !s.sec.failing then healthFailure raw else none) s.sourceFails

/-- The start-up test over its 4,096 raw bits, before the first output and, every 1 s until it passes, after a failure. -/
def execEntropyStartupTest (raw : List Bool) (s : State) : Out :=
  occurs s (s.boot.powered && (s.sec.failing || !s.sec.tested)) <|
    let s := s.at s.sec.testDue
    match healthFailure raw with
    | none =>
      let s := if s.sec.failing then (s.onSec fun x => { x with failing := false }).raise 32 0x1A25 1 else s
      if s.sec.tested then s else s.instantiate
    | some r =>
      if s.sec.failing then s.onSec fun x => { x with testDue := x.testDue + 1000000000 } else s.sourceFails r

end Sys2Proof.Machine
end

