-- ==== Sys2Proof/Machine/Security.lean ====
section
/-! DEFINITION. Identity, firmware images, the fuse ledger's other settings, and attestation (20). -/

namespace Sys2Proof.Machine

/-! ### Signatures -/

/-- An identity-key signature over SHA-256 of bytes: r then s, big-endian. -/
def identitySign (count : Nat) (bs : List Byte) : List Byte :=
  let q := Crypto.ecdsaSign identityPrivate (scalarOf (Config.nonce count).toNat) (Crypto.sha256Val bs)
  beBytes 32 q.1 ++ beBytes 32 q.2

/-! ### Rafen images (R440, R441) -/

/-- The header fields are valid as the table gives. -/
def headerOk (h : List Word) : Bool :=
  let w0 := wd h 0
  let len := (wd h 2).bits 31 0
  let lh := (wd h 3).bits 31 0
  let kp := (wd h 3).bits 63 32
  w0.bits 31 0 = 0x45464152 && w0.bits 39 32 = 1 && w0.bits 47 40 = 1 && w0.bits 63 48 = 0
    && (wd h 1).bits 38 32 ≤ 64 && (wd h 1).bits 63 39 = 0 && (wd h 2).bits 63 32 = 0
    && len % 8 = 0 && len ≤ 8912896 && lh ≤ 8388608 && kp ≤ 524288 && lh + kp = len
    && (List.range 8).all fun i => wd h (24 + i) = 0

/-- Body hash, signer and signature verify. -/
def signatureOk (bs : List Byte) : Bool :=
  let at_ (i n : Nat) : List Byte := (bs.drop (8 * i)).take n
  let val (i n : Nat) : Nat := beNat (at_ i n)
  let signer := at_ 8 64
  let h := Crypto.sha256Val signer
  at_ 4 32 = Crypto.sha256 (bs.drop 256)
    && (h = (Config.vendorKeyHash 0).toNat || h = (Config.vendorKeyHash 1).toNat)
    && Crypto.ecdsaVerify (val 8 32, val 12 32) (Crypto.sha256Val (bs.take 128)) (val 16 32) (val 20 32)

def imageOf (bs : List Byte) : Image :=
  { version := BitVec.ofNat 32 ((byteWord bs 1).bits 31 0), svn := (byteWord bs 1).bits 38 32
    meas := Crypto.sha256 (bs.take 128) }

/-- The first status of R444 that applies to the bytes of an FW_IMAGE_WRITE; 0: the image is valid. -/
def Security.imageStatus (x : Security) (bs : List Byte) : Nat :=
  let h := bytesWords 32 bs
  if bs.length ≠ 256 + (wd h 2).bits 31 0 || !headerOk h then 0x01
  else if x.trial then 0x21
  else if (wd h 1).bits 38 32 < x.floor then 0x20
  else if !signatureOk bs then 0x08
  else 0

def Security.slot (x : Security) (b : Bool) : Option Image := if b then x.slotB else x.slotA
def Security.setSlot (x : Security) (b : Bool) (i : Option Image) : Security :=
  if b then { x with slotB := i } else { x with slotA := i }
def Security.running (x : Security) : Option Image := x.slot x.runB
def Security.standby (x : Security) : Option Image := x.slot (!x.runB)

/-- The standby slot is invalid from the start of the write on. -/
def execFwImageWrite (id : Nat) (bs : List Byte) (s : State) : Out :=
  withCmd s id 0x1A10 fun f =>
    (s.onSec fun x => { x.setSlot (!x.runB) none with
      imageWrites := x.imageWrites ++ [(id, bs.take f.desc.bufLen)] }).run f

def State.imageDone (s : State) (id : Nat) (bs : List Byte) : State :=
  let s := s.onSec fun x => { x with imageWrites := x.imageWrites.filter fun q => q.1 ≠ id }
  let st := s.sec.imageStatus bs
  if st ≠ 0 then s.finishId id st
  else
    let i := imageOf bs
    ((s.onSec fun x => x.setSlot (!x.runB) (some i)).raise 32 0x1A20 1
      (mkWord [(0, 1, bitOf !s.sec.runB), (32, 32, i.version.toNat)])).finishId id 0

def execImageWriteDone (id : Nat) (s : State) : Out :=
  occursWith s ((s.sec.imageWrites.find? fun q => q.1 = id).filter fun _ => s.boot.powered) fun q => s.imageDone q.1 q.2

/-! ### Activation and confirmation (R445, R446) -/

/-- The lighthouse controller stops, to restart under the boot rule (R13). -/
def State.controllerStop (s : State) : State := { s with boot := { s.boot with running := false, beganNs := s.now } }

def State.allDark (s : State) : Bool := (List.range 32).all fun c => (s.chan c).pw.level = .dark

def execFwActivate (id : Nat) (s : State) : Out :=
  withCmd s id 0x1A11 fun f =>
    match s.sec.standby with
    | none => s.finish f 0x01
    | some i =>
      let major (o : Option Image) : Nat := match o with | some i => i.version.toNat / 2 ^ 24 | none => 0
      if s.sec.trial then s.finish f 0x21
      else if major (some i) ≠ major s.sec.running && !s.allDark then s.finish f 0x23
      else
        ((s.onSec fun x => { x with prefB := !x.runB, trial := true, tried := false, activate := some id }).controllerStop).run f

def execFwConfirm (id : Nat) (s : State) : Out :=
  withCmd s id 0x1A12 fun f =>
    if s.sec.trial then (s.onSec fun x => { x with trial := false }).finish f 0 else s.finish f 0x01

/-! ### The rollback floor (R449) and ledger writes -/

/-- The first status of R449 that applies to a new floor. -/
def Security.floorRefusal (x : Security) (v : Nat) : Nat :=
  let svn := match x.running with | some i => i.svn | none => 0
  if v ≤ x.floor || svn < v then 0x01
  else if x.trial then 0x21
  else if 64 - x.floor < v - x.floor then 0x09
  else 0

def execFwFloorRaise (id : Nat) (s : State) : Out :=
  withCmd s id 0x1A13 fun f =>
    let v := f.desc.p0.bits 6 0
    let st := s.sec.floorRefusal v
    if st = 0 then (s.onSec fun x => { x with ledgerWrites := x.ledgerWrites ++ [LedgerWrite.floor id v] }).run f
    else s.finish f st

/-- The new floor takes effect with its ledger entry; images below it are marked invalid. -/
def State.adoptFloor (s : State) (f : Flight) (v : Nat) : State :=
  let old := s.sec.floor
  let ver := match s.sec.running with | some i => i.version.toNat | none => 0
  let e : LedgerEntry :=
    { typ := 3, seq := (s.entriesOf 3).length + 1, link := f.link, primary := 0, powerH := s.powerHours
      w1 := mkWord [(0, 7, old), (8, 7, v), (32, 32, ver)], w2 := 0, w3 := 0 }
  let keep (o : Option Image) : Option Image := o.filter fun i => v ≤ i.svn
  ((s.onSec fun x => { x with floor := v, ledger := x.ledger ++ [e], slotA := keep x.slotA, slotB := keep x.slotB }
    ).raise 32 0x1A23 2 (mkWord [(0, 7, old), (8, 7, v), (15, 7, 64 - v)])).finish f 0

def LedgerWrite.id : LedgerWrite → Nat
  | .partition id _ => id
  | .floor id _ => id

/-- A ledger entry in progress is written, with its effect, for the command `f`. -/
def State.ledgerDone (s : State) (f : Flight) (w : LedgerWrite) : State :=
  let s := s.onSec fun x => { x with ledgerWrites := x.ledgerWrites.filter fun q => q.id ≠ w.id }
  match w with
  | .partition _ p => s.adoptPartition f p
  | .floor _ v => if v ≤ s.sec.floor then s.finish f 0x01 else s.adoptFloor f v

def execLedgerWriteDone (id : Nat) (s : State) : Out :=
  occursWith s (if s.boot.powered then
      (s.sec.ledgerWrites.find? fun w => w.id = id).bind fun w => (s.flight? id).map (w, ·) else none)
    fun q => s.ledgerDone q.2 q.1

/-! ### The key-encryption key (R438, R439) -/

def State.kekEstablish (s : State) (f : Flight) (qk : List Byte) (k : Nat × Nat) : State :=
  let d := scalarOf (s.random 32)
  let gen := s.sec.kekGen + 1
  let tail := Config.serial.bytes ++ leBytes 4 gen.toNat
  let qe := match Crypto.mulPoint d (some Crypto.p256g) with
    | some p => beBytes 32 p.1 ++ beBytes 32 p.2
    | none => List.replicate 64 0
  let z := match Crypto.mulPoint d (some k) with | some p => beBytes 32 p.1 | none => List.replicate 32 0
  let kek := BitVec.ofNat 256 (Crypto.sha256Val ([0, 0, 0, 1] ++ z ++ tail))
  let sig := identitySign s.free (qe ++ qk ++ tail)
  ((((s.onSec fun x => { x with kek := some kek, kekGen := gen }).request 32).raise 32 0x1A26 1
    (mkWord [(0, 32, gen.toNat), (32, 2, f.link)])).writeBuf f 64 (qe ++ leBytes 4 gen.toNat ++ sig)).finish f 0

def execKekEstablish (id : Nat) (bs : List Byte) (s : State) : Out :=
  withCmd s id 0x1A14 fun f =>
    let qk := bs.take 64
    let k := (beNat (qk.take 32), beNat (qk.drop 32))
    if qk.length ≠ 64 || !Crypto.onCurve k.1 k.2 then s.finish f 0x01
    else if !s.canDraw then s.finish f 0x22
    else s.kekEstablish f qk k

/-! ### Reports (R437, R448, R450, R453) -/

def execIdCertRead (id : Nat) (s : State) : Out :=
  withCmd s id 0x1A00 fun f => (s.writeBuf f 0 certificate).finish f 0 (some certificate.length)

/-- Words 0 to 31 of the attestation report. -/
def State.attestBody (s : State) (nonce : List Word) : List Word :=
  let x := s.sec
  let meas (o : Option Image) : List Word := match o with | some i => bytesWords 4 i.meas | none => [0, 0, 0, 0]
  let ver := match x.running with | some i => i.version.toNat | none => 0
  [mkWord [(0, 16, 1), (16, 1, bitOf x.runB), (17, 1, bitOf x.trial), (18, 7, x.floor), (32, 32, ver)], Config.serial]
  ++ ((List.range 4).map (wd nonce)) ++ meas x.running ++ meas x.standby
  ++ bytesWords 4 (Crypto.sha256 (wordsBytes (x.ledger.flatMap LedgerEntry.words))) ++ s.part.words
  ++ [mkWord [(0, 32, s.sec'), (32, 24, s.powerHours), (56, 8, x.ledger.length)], 0, 0, 0, 0, 0]

def execAttestReport (id : Nat) (nonce : List Word) (s : State) : Out :=
  withCmd s id 0x1A01 fun f =>
    let body := wordsBytes (s.attestBody nonce)
    ((s.draw).writeBuf f 32 (body ++ identitySign s.free body)).finish f 0

def execLedgerRead (id : Nat) (s : State) : Out := withCmd s id 0x1A02 fun f => s.answerEntries f s.sec.ledger

def execFwStatus (id : Nat) (s : State) : Out :=
  withCmd s id 0x1A03 fun f =>
    let x := s.sec
    let ver (o : Option Image) : Nat := match o with | some i => i.version.toNat | none => 0
    let svn (o : Option Image) : Nat := match o with | some i => i.svn | none => 0
    s.answer f
      [mkWord [(0, 1, bitOf x.runB), (1, 1, bitOf x.prefB), (2, 1, bitOf x.trial), (3, 1, bitOf x.tried),
               (4, 1, bitOf x.slotA.isSome), (5, 1, bitOf x.slotB.isSome), (6, 7, x.floor), (13, 7, 64 - x.floor),
               (32, 32, x.kekGen.toNat)],
       mkWord [(0, 32, ver x.slotA), (32, 32, ver x.slotB)], mkWord [(0, 7, svn x.slotA), (8, 7, svn x.slotB)], 0]

def execRngStatus (id : Nat) (s : State) : Out :=
  withCmd s id 0x1A04 fun f =>
    s.answer f [mkWord [(0, 1, bitOf s.sec.failing), (16, 16, s.sec.failures.toNat), (32, 32, s.sec.lastFail)], 0]

end Sys2Proof.Machine
end

