-- ==== Sys2Proof/Machine/CipherOps.lean ====
section
/-! DEFINITION. Line cipher contexts and keys, mask generators, and crypto jobs (07). What happens to each frame stands
with the line frame. -/

namespace Sys2Proof.Machine

/-! ### Contexts and keys -/

/-- The tributary context that a line cipher command names lies in its channel's block and has CIPHER 1. -/
def State.cipherIndex (s : State) (f : Flight) : Option Nat :=
  let i := f.desc.p0.bits 11 0
  if i < 3072 && i / 96 = f.desc.target && (s.trib i).cipher then some i else none

def State.cipherOf (s : State) (i : Nat) : Cipher := (s.chan (i / 96)).cipher (i % 96)
def State.setCipherOf (s : State) (i : Nat) (x : Cipher) : State := s.onChan (i / 96) fun ch => ch.setCipher (i % 96) x

/-- A command row on the line cipher context that it names; a context without CIPHER completes with 0x01. -/
def withCipher (s : State) (id op : Nat) (k : Flight → Nat → Cipher → State) : Out :=
  withCmd s id op fun f =>
    match s.cipherIndex f with
    | some i => k f i (s.cipherOf i)
    | none => s.finish f 0x01

def Cipher.keyed (x : Cipher) : Bool := x.current.isSome || x.next.isSome || !x.retiring.isEmpty
/-- Key slots in use of the two (R145). -/
def Cipher.slotsUsed (x : Cipher) : Nat := bitOf x.current.isSome + bitOf x.next.isSome + x.retiring.length

/-- The far end has advertised within the last two multiframes. -/
def Cipher.fresh (x : Cipher) (now : Nat) : Bool :=
  match x.farNs with | some t => now ≤ t + 4096000 | none => false

/-- A key field of the context record: epoch and check value. -/
def keyWord (k : Option LineKey) : Word :=
  match k with
  | some k => mkWord [(0, 24, k.epoch), (32, 32, (Crypto.keyCheck k.key).toNat)]
  | none => 0

def Cipher.words (x : Cipher) (i now : Nat) : List Word :=
  [mkWord [(0, 12, i), (12, 1, bitOf x.endId), (13, 1, bitOf x.autoRoll), (14, 2, x.txInd), (16, 16, x.useLimit),
           (32, 16, x.warnDist)],
   keyWord x.current, keyWord x.next, BitVec.ofNat 64 x.curFrames,
   mkWord [(0, 24, x.farNextEpoch), (24, 1, bitOf x.farEnd), (25, 1, bitOf (x.fresh now)), (32, 32, x.farKcv.toNat)],
   mkWord [(0, 24, x.rxEpoch)], 0, 0]

/-- A context with an END of either end set anew: while the far end's advertised END equals its own it sends no ciphertext, and
event 0x1254 reports it (R147). -/
def State.clash (s : State) (i : Nat) (x : Cipher) : State :=
  let now' := x.farNs.isSome && x.farEnd == x.endId
  let s := s.setCipherOf i { x with conflict := now' }
  if now' && !x.conflict then s.raise (i / 96) 0x1254 3 (mkWord [(0, 12, i)]) else s

/-- A warning point raised above the frames already counted is to be reported again (R159). -/
def execCipherSetup (id : Nat) (ws : List Word) (s : State) : Out :=
  withCipher s id 0x1200 fun f i x =>
    let w := wd ws 0
    let use := w.bits 31 16
    if w.bits 15 14 ≠ 0 || w.bits 63 48 ≠ 0 || (List.range 7).any (fun k => wd ws (k + 1) ≠ 0) || w.bits 11 0 ≠ i
        || use = 0 || use ≤ w.bits 47 32 || (w.bit 12 != x.endId && x.keyed) then s.finish f 0x01
    else
      (s.clash i { x with endId := w.bit 12, autoRoll := w.bit 13, useLimit := use, warnDist := w.bits 47 32
                          warned := x.warned && (use - w.bits 47 32) * 65536 ≤ x.curFrames }).finish f 0

def execCipherQuery (id : Nat) (s : State) : Out :=
  withCipher s id 0x1201 fun f i x => s.answer f (x.words i s.now)

/-! ### Wrapped blobs (R151) -/

/-- The key of a blob, when it unwraps under the key-encryption key; the order of its bytes is log 156 (DESIGN CHOICE). -/
def Security.unwrap (x : Security) (bs : List Byte) : Option (BitVec 256) :=
  let at_ (i n : Nat) : List Nat := Crypto.nats ((bs.drop (8 * i)).take n)
  let iv := Crypto.beBytesN 4 ((byteWord bs 2).bits 31 0) ++ Crypto.beBytesN 8 (byteWord bs 1).toNat
  x.kek.bind fun k =>
    (Crypto.gcmDecrypt (Crypto.keyBytes k) iv (at_ 0 8) (at_ 3 32) (at_ 7 16)).map fun p => BitVec.ofNat 256 (Crypto.beVal p)

/-- Reserved bits of a blob are 0. -/
def blobReservedClear (bs : List Byte) : Bool :=
  let w := byteWord bs
  (w 0).bits 15 13 = 0 && (w 0).bits 63 40 = 0 && (w 2).bits 63 32 = 0 && w 9 = 0

/-- The key enters the context: current when there is no current key, else next (R152). -/
def Cipher.load (x : Cipher) (k : LineKey) : Cipher :=
  if x.current.isNone then { x with current := some k, curFrames := 0, warned := false, lastEpoch := k.epoch }
  else { x with next := some k, lastEpoch := k.epoch }

def execKeyLoad (id : Nat) (bs : List Byte) (s : State) : Out :=
  withCipher s id 0x1202 fun f i x =>
    let w := byteWord bs 0
    let epoch := w.bits 39 16
    if w.bit 12 || w.bits 11 0 ≠ i || x.useLimit = 0 || !blobReservedClear bs then s.finish f 0x01
    else match s.sec.unwrap bs with
      | none => s.finish f 0x08
      | some k =>
        if x.lastEpoch = 0xFFFFFF then s.finish f 0x09
        else if (if x.lastEpoch = 0 then epoch < 1 else epoch ≠ x.lastEpoch + 1) then s.finish f 0x20
        else if 2 ≤ x.slotsUsed then s.finish f 0x02
        else (s.setCipherOf i (x.load { key := k, epoch := epoch })).finish f 0 (some (Crypto.keyCheck k).toNat)

/-- The far end holds the same next key (R155). -/
def Cipher.rollable (x : Cipher) (now : Nat) : Bool :=
  match x.next with
  | some k => x.fresh now && x.farNextEpoch = k.epoch && x.farKcv = Crypto.keyCheck k.key
  | none => false

def execKeyRoll (id : Nat) (s : State) : Out :=
  withCipher s id 0x1203 fun f i x =>
    if x.next.isNone then s.finish f 0x01
    else if !x.rollable s.now then s.finish f 0x21
    else (s.setCipherOf i { x with rollCmds := x.rollCmds ++ [id] }).run f

/-- KEY_ERASE; of a slot that is empty too it completes with 0x00 (DESIGN CHOICE, log 161). -/
def execKeyErase (id : Nat) (s : State) : Out :=
  withCipher s id 0x1204 fun f i x =>
    let x := if f.desc.p0.bit 12 then { x with current := none, next := none, retiring := [] } else { x with next := none }
    (s.setCipherOf i x).finish f 0

def execCipherCounters (id : Nat) (s : State) : Out :=
  withCipher s id 0x1205 fun f _ x =>
    s.answer f [mkWord [(0, 32, x.authFail.toNat), (32, 32, x.authFailErrored.toNat)],
                mkWord [(0, 32, x.noKeyTx.toNat), (32, 32, x.noKeyRx.toNat)], mkWord [(0, 32, x.rolls.toNat)], 0]

/-- Every key slot of a channel is erased (R150). -/
def Channel.eraseKeys (ch : Channel) : Channel :=
  { ch with cx := ch.cx.map fun p => (p.1, { p.2 with current := none, next := none, retiring := [] }) }

/-! ### Rolls, usage and erasure (R155 to R160) -/

/-- The key in transmit use leaves it and is kept for receive. -/
def Cipher.retire (x : Cipher) : Cipher := { x with current := none, retiring := x.current.toList ++ x.retiring }

/-- The roll at multiframe boundary M. -/
def Cipher.roll (x : Cipher) : Cipher :=
  { x.retire with current := x.next, next := none, curFrames := 0, warned := false, rolls := x.rolls + 1, rollCmds := [] }

/-- The waiting rolls are made; one whose next key has been erased since is made all the same (DESIGN CHOICE, log 158). -/
def State.rollKey (s : State) (i : Nat) (m : BitVec 32) : State :=
  let x := s.cipherOf i
  let epoch := match x.next with | some k => k.epoch | none => 0
  (((s.setCipherOf i x.roll).raise (i / 96) 0x1252 1 (mkWord [(0, 12, i), (12, 24, epoch)]) m)
    |> fun s => x.rollCmds.foldl (fun s id => s.finishId id 0 (some m.toNat)) s)

/-- The warning point, in frames. -/
def Cipher.warnAt (x : Cipher) : Nat := (x.useLimit - x.warnDist) * 65536

/-- The usage events that a count of encrypted frames reaches: 0x1250 at the warning point, exhaustion at the limit. -/
def execKeyUsageWarning (i : Fin 3072) (s : State) : Out :=
  let x := s.cipherOf i
  occursWith s (if s.boot.powered && x.warnAt ≤ x.curFrames && !x.warned then x.current else none) fun k =>
    (s.setCipherOf i { x with warned := true }).raise (i / 96) 0x1250 2 (mkWord [(0, 12, i), (12, 24, k.epoch)])

def State.exhaust (s : State) (i : Nat) (k : LineKey) : State :=
  (s.setCipherOf i (s.cipherOf i).retire).raise (i / 96) 0x1251 4 (mkWord [(0, 12, i), (12, 24, k.epoch)])

def execKeyExhausted (i : Fin 3072) (s : State) : Out :=
  let x := s.cipherOf i
  occursWith s (if s.boot.powered && 0 < x.useLimit && x.useLimit * 65536 ≤ x.curFrames then x.current else none)
    fun k => s.exhaust i k

/-- A key that has left transmit use is erased once the far end's KEY_IND has named the other parity for a full
multiframe: for 256 frames in a row, wherever they begin (DESIGN CHOICE, log 159). -/
def Cipher.oldKeyDone (x : Cipher) (k : LineKey) : Bool := 256 ≤ x.rxParityRun && x.rxParity ≠ k.epoch % 2

def execOldKeyErase (i : Fin 3072) (s : State) : Out :=
  let x := s.cipherOf i
  occurs s s.boot.powered (s.setCipherOf i { x with retiring := x.retiring.filter fun k => !x.oldKeyDone k })

/-- Once per second: the generator of a channel, or of the job engine (32), reseeds or keeps running (R143, R144); not before the
source's start-up test has passed (20 R451). -/
def execMaskReseed (k : Fin 33) (s : State) : Out :=
  occurs s (s.boot.powered && s.sec.tested) <|
    let x := s.maskGen k
    let s := s.at x.due
    let s' := (s.setMaskGen k (x.reseed s.sec.failing s.now s.free)).draw
    if s.sec.failing && !x.failing then s'.raise k 0x1255 2 (BitVec.ofNat 64 k) else s'

/-! ### Crypto jobs (R165 to R170) -/

/-- The checks on the slot of a job key command. -/
def execJobKeyLoad (id : Nat) (bs : List Byte) (s : State) : Out :=
  withCmd s id 0x1210 fun f =>
    let k := f.desc.p0.bits 9 0
    let w := byteWord bs 0
    if k / 256 ≠ f.link then s.finish f 0x04
    else if !w.bit 12 || w.bits 11 0 ≠ k || w.bits 39 16 ≠ 0 || !blobReservedClear bs then s.finish f 0x01
    else match s.sec.unwrap bs with
      | none => s.finish f 0x08
      | some key =>
        if s.jobKeys.any fun p => p.1 = k then s.finish f 0x02
        else if !s.canDraw then s.finish f 0x22
        else
          let fixed := BitVec.ofNat 32 (s.random 4)
          ({ s.request 4 with jobKeys := s.jobKeys.insert k { key := key, fixed := fixed } }).finish f 0
            (some (Crypto.keyCheck key).toNat)

/-- Job key slot named by a JOB_CIPHER. -/
def Desc.keySlot (d : Desc) : Nat := d.paramA / 64 % 1024
def Desc.jobMode (d : Desc) : Nat := d.paramA % 4
def Desc.jobDecrypts (d : Desc) : Bool := d.paramA.testBit 2

/-- JOB_KEY_ERASE, of an empty slot too (DESIGN CHOICE, log 161). -/
def execJobKeyErase (id : Nat) (s : State) : Out :=
  withCmd s id 0x1211 fun f =>
    let k := f.desc.p0.bits 9 0
    if k / 256 ≠ f.link then s.finish f 0x04
    else (({ s with jobKeys := s.jobKeys.erase k } : State).dropJobs fun g => g.desc.keySlot = k).finish f 0

/-- AAD, text and tag lengths of a job; none when the input does not hold them (R166, R168). -/
def Desc.jobText (d : Desc) : Option Nat :=
  let aad := d.p1.bits 63 32
  let tag := if d.jobMode = 3 && d.jobDecrypts then 16 else 0
  if aad + tag ≤ d.bufLen then some (d.bufLen - aad - tag) else none

/-- A job that R168 refuses with 0x01. -/
def Desc.jobBad (d : Desc) : Bool :=
  match d.jobText with
  | none => true
  | some n =>
    4194304 < d.bufLen || (d.jobMode = 0 && n % 16 ≠ 0) || (d.jobMode ≠ 3 && d.p1.bits 63 32 ≠ 0)
      || d.p1.bits 31 0 < n + (if d.jobMode = 3 && !d.jobDecrypts then 16 else 0) || d.p0.bits 2 0 ≠ 0

/-- The job's 96-bit value: the descriptor's on decryption; on encryption the slot's field and counter, or random. -/
def State.jobValue (s : State) (d : Desc) (k : JobKey) : BitVec 96 :=
  if d.jobDecrypts then BitVec.ofNat 96 (d.p3.bits 31 0 * 2 ^ 64 + d.p2.toNat)
  else if 2 ≤ d.jobMode then BitVec.ofNat 96 (k.fixed.toNat * 2 ^ 64 + k.counter.toNat)
  else BitVec.ofNat 96 (s.random 12)

def State.jobStart (s : State) (f : Flight) (k : JobKey) (bs : List Byte) : State :=
  let d := f.desc
  let enc := !d.jobDecrypts
  let s' := if enc && d.jobMode < 2 then s.request 12 else s
  ({ s' with
    jobKeys := if enc then s.jobKeys.insert d.keySlot { k with
        counter := if 2 ≤ d.jobMode then k.counter + 1 else k.counter, used := k.used + 1 } else s.jobKeys
    jobs := s.jobs ++ [{ id := f.id, key := k.key, v := s.jobValue d k, bytes := bs.take d.bufLen }] } : State).run f

/-- R168 gives its statuses no order; this one is the model's (DESIGN CHOICE, log 160). -/
def execJobCipher (id : Nat) (bs : List Byte) (s : State) : Out :=
  withCmd s id 0x1230 fun f =>
    let d := f.desc
    if d.jobBad then s.finish f 0x01
    else if d.keySlot / 256 ≠ f.link then s.finish f 0x04
    else match s.jobKeys.find? fun p => p.1 = d.keySlot with
      | none => s.finish f 0x23
      | some (_, k) =>
        if !d.jobDecrypts && 4294967296 ≤ k.used then s.finish f 0x09
        else if !d.jobDecrypts && d.jobMode < 2 && !s.canDraw then s.finish f 0x22
        else s.jobStart f k bs

/-- The output of a job, or none when its tag fails; the bytes of its IV stand most significant first (DESIGN CHOICE, log 157). -/
def Job.output (j : Job) (d : Desc) : Option (List Nat) :=
  let n := d.jobText.getD 0
  let aadLen := d.p1.bits 63 32
  let all := Crypto.nats j.bytes
  let aad := all.take aadLen
  let text := (all.drop aadLen).take n
  let key := Crypto.keyBytes j.key
  let iv := Crypto.beBytesN 12 j.v.toNat
  let block := iv ++ [0, 0, 0, 0]
  match d.jobMode, d.jobDecrypts with
  | 0, false => some (Crypto.cbcEncrypt key block text)
  | 0, true => some (Crypto.cbcDecrypt key block text)
  | 1, false => some (Crypto.cfbEncrypt key block text)
  | 1, true => some (Crypto.cfbDecrypt key block text)
  | 2, _ => some (Crypto.ctr key (iv ++ [0, 0, 0, 1]) text)
  | _, false =>
    let r := Crypto.gcmEncrypt key iv aad text
    some (r.1 ++ r.2)
  | _, true => Crypto.gcmDecrypt key iv aad text (all.drop (aadLen + n))

/-- The job engine finishes: the output, or zeros over the whole output buffer when a tag failed (R169). -/
def State.jobDone (s : State) (f : Flight) (j : Job) : State :=
  let s := ({ s with jobs := s.jobs.filter fun q => q.id ≠ j.id } : State).drawMasks 32
  match j.output f.desc with
  | none => (s.writeAt f f.desc.p0 (List.replicate (f.desc.p1.bits 31 0) 0)).finish f 0x08
  | some o =>
    let s := s.writeAt f f.desc.p0 (Crypto.bytesOf o)
    if f.desc.jobDecrypts then s.finish f 0
    else s.finish f 0 (some (j.v.toNat / 2 ^ 64)) (some (j.v.toNat % 2 ^ 64)) none

def execCryptoJobDone (id : Nat) (s : State) : Out :=
  occursWith s ((s.jobs.find? fun j => j.id = id).bind fun j => (s.flight? id).map (·, j)) fun q => s.jobDone q.1 q.2

end Sys2Proof.Machine
end

