-- ==== Sys2Proof/Machine/Coding.lean ====
section
/-! DEFINITION. From the words of a frame to symbols: the frame scrambler (08 R176), the Harbour and Offshore codes
(09 R199 to R210), dealing over streams (R202 to R204), the shaped constellations (10 R222 to R228), pilots (11 R259), and
the coding of bursts (13 R318, R319). Bits stand in lists in the order in which they are sent. -/

namespace Sys2Proof.Machine

/-- The bits of a word, bit 0 first. -/
def wordBits (w : Word) : List Bool := (List.range 64).map w.bit

def wordsBits (ws : List Word) : List Bool := ws.flatMap wordBits

/-! ### The generator of x³¹ + x²⁸ + 1 (08 R176) -/

/-- One step of the generator: its output, and the state after it. -/
def scramStep (st : BitVec 31) : Bool × BitVec 31 :=
  let o := xor (st.getLsbD 30) (st.getLsbD 27)
  (o, (st <<< 1) ||| BitVec.ofNat 31 (bitOf o))

/-- Bits XORed with the generator's output from a state. -/
def scramble : BitVec 31 → List Bool → List Bool
  | _, [] => []
  | st, b :: bs => xor b (scramStep st).1 :: scramble (scramStep st).2 bs

/-- n bits of coded fill: the generator from state 0x7FFFFFFF (R203). -/
def fillBits (n : Nat) : List Bool := scramble (BitVec.ofNat 31 0x7FFFFFFF) (List.replicate n false)

/-- The generator's state at bit 0 of word 3 of a frame. -/
def frameSeed (mfc : BitVec 32) (frame : Nat) : BitVec 31 :=
  BitVec.ofNat 31 (0x40000000 ||| (mfc.toNat % 4194304 * 256) ||| frame % 256)

/-- One word XORed with 64 bits of the generator, and the state after them. -/
def scramWord : Nat → BitVec 31 → Nat → Nat × BitVec 31
  | 0, st, _ => (0, st)
  | n + 1, st, k =>
    let r := scramWord n (scramStep st).2 (k + 1)
    (bitOf (scramStep st).1 * 2 ^ k + r.1, r.2)

def scrambleWords : BitVec 31 → List Word → List Word
  | _, [] => []
  | st, w :: ws =>
    let r := scramWord 64 st 0
    (w ^^^ BitVec.ofNat 64 r.1) :: scrambleWords r.2 ws

/-- A frame's words as sent: words 0 to 2 in clear, every later word scrambled under the numbers of word 2; the same
operation descrambles. -/
def scrambleFrame (mfc : BitVec 32) (frame : Nat) (ws : List Word) : List Word :=
  ws.take 3 ++ scrambleWords (frameSeed mfc frame) (ws.drop 3)

/-! ### BCH parity (09 R201) -/

/-- The register of the division of m(x) × x^deg by g(x), one information bit at a time; g without its top term. -/
def bchReg (deg g : Nat) : Nat → List Bool → Nat
  | r, [] => r
  | r, b :: bs =>
    let fb := xor b (r.testBit (deg - 1))
    bchReg deg g (((2 * r) % 2 ^ deg) ^^^ (if fb then g else 0)) bs

/-- The deg parity bits of information bits, the coefficient of the highest power first. -/
def bchParity (deg g : Nat) (bs : List Bool) : List Bool :=
  let r := bchReg deg g 0 bs
  (List.range deg).map fun t => r.testBit (deg - 1 - t)

/-- g(x) of the Harbour component code without x³⁰: m₁ × m₃ × m₅ over x¹⁰ + x³ + 1 (R205). -/
def harbourGen : Nat := 0x10A91113
/-- g(x) of the Offshore outer code without x⁶⁴: m₁ × m₃ × m₅ × m₇ over x¹⁶ + x¹² + x³ + x + 1 (R209). -/
def offshoreGen : Nat := 0x1A1B3E49549C8405

def harbourRow (info : List Bool) : List Bool := info ++ bchParity 30 harbourGen info

/-! ### Cutting and transposing -/

/-- The first n pieces of k elements each. -/
def pieces {α : Type} (k : Nat) : Nat → List α → List (List α)
  | 0, _ => []
  | n + 1, l => l.take k :: pieces k n (l.drop k)

/-- A list made up to n elements. -/
def padTo {α : Type} (n : Nat) (d : α) (l : List α) : List α := l ++ List.replicate (n - l.length) d

/-- Columns of rows that each hold n elements. -/
def columns {α : Type} (n : Nat) (rows : List (List α)) : List (List α) :=
  rows.foldr (fun r acc => List.zipWith (· :: ·) r acc) (List.replicate n [])

/-! ### Harbour (R205 to R207) -/

/-- The rows of a block from its information rows: row parities, then the parity row under each column. -/
def harbourBlock (info : List (List Bool)) : List (List Bool) :=
  let rows := info.map harbourRow
  rows ++ columns 30 ((columns 940 rows).map fun col => bchParity 30 harbourGen col)

/-- The bits of a block as sent: groups of 32 rows, column by column, without the P shortened bits of the last info row. -/
def harbourSend (info : List (List Bool)) (p : Nat) : List Bool :=
  let rows := (harbourBlock info).zipIdx.map fun q =>
    q.1.zipIdx.map fun b => if q.2 + 1 = info.length && 910 ≤ b.2 + p && b.2 < 910 then none else some b.1
  (pieces 32 (cdiv rows.length 32) rows).flatMap fun g => (columns 940 g).flatten.filterMap id

/-- A frame's coded bits under Harbour: info rows of 910 bits in blocks of 910 rows. -/
def harbourCode (i : List Bool) : List Bool :=
  let r := cdiv i.length 910
  let rows := (pieces 910 r i).map (padTo 910 false)
  let p := 910 * r - i.length
  let blocks := pieces 910 (cdiv r 910) rows
  blocks.zipIdx.flatMap fun b => harbourSend b.1 (if b.2 + 1 = blocks.length then p else 0)

/-! ### Offshore (R209, R210) -/

/-- Columns 0 to 20 of the base matrix, rows 0 to 4 (R210). -/
def baseMatrix : List (List (Option Nat)) := [
  [none, some 17, some 203, some 88, some 241], [some 112, none, some 65, some 290, some 9], [some 46, some 271, none, some 133, some 187],
  [some 305, some 58, some 149, none, some 222], [some 73, some 196, some 31, some 264, none], [none, some 239, some 118, some 7, some 160],
  [some 281, none, some 252, some 99, some 37], [some 14, some 124, none, some 310, some 78], [some 167, some 3, some 287, none, some 129],
  [some 230, some 302, some 84, some 51, none], [none, some 61, some 176, some 215, some 293], [some 96, none, some 11, some 172, some 248],
  [some 259, some 147, none, some 24, some 106], [some 38, some 213, some 69, none, some 317], [some 184, some 86, some 297, some 143, none],
  [none, some 278, some 42, some 255, some 64], [some 151, none, some 209, some 116, some 283], [some 6, some 165, none, some 231, some 139],
  [some 268, some 29, some 193, none, some 54], [some 122, some 250, some 131, some 76, none], [none, some 104, some 274, some 199, some 15]]

/-- A block of 320 bits through the matrix of shift e: bit a is bit a + e of the block. -/
def rotate (e : Nat) (b : List Bool) : List Bool := b.drop e ++ b.take e

def xorBits (a b : List Bool) : List Bool := List.zipWith xor a b

/-- The contribution of u to base row r. -/
def ldpcRow (u : List (List Bool)) (r : Nat) : List Bool :=
  (List.zip baseMatrix u).foldl (fun acc q =>
    match q.1.getD r none with | some e => xorBits acc (rotate e q.2) | none => acc) (List.replicate 320 false)

/-- The 1,600 parity bits of 6,720 bits: column 21 is the sum of all rows, the others follow one row at a time. -/
def ldpcParity (u : List Bool) : List Bool :=
  let bs := pieces 320 21 u
  let s (r : Nat) := ldpcRow bs r
  let p21 := xorBits (xorBits (xorBits (s 0) (s 1)) (xorBits (s 2) (s 3))) (s 4)
  let p22 := xorBits (s 0) (rotate 1 p21)
  let p23 := xorBits (s 1) p22
  let p24 := xorBits (xorBits (s 2) p21) p23
  let p25 := xorBits (s 3) p24
  p21 ++ p22 ++ p23 ++ p24 ++ p25

/-- One codeword with p shortened bits, which are not sent. -/
def offshoreWord (info : List Bool) (p : Nat) : List Bool :=
  let m := padTo 6656 false info
  let u := m ++ bchParity 64 offshoreGen m
  m.take (6656 - p) ++ (u.drop 6656 ++ ldpcParity u)

def offshoreCode (i : List Bool) : List Bool :=
  let q := cdiv i.length 6656
  let words := pieces 6656 q i
  words.zipIdx.flatMap fun w => offshoreWord w.1 (if w.2 + 1 = q then 6656 * q - i.length else 0)

/-- The coded frame of a frame's words as scrambled (R200). -/
def codeFrame (offshore : Bool) (ws : List Word) : List Bool :=
  if offshore then offshoreCode (wordsBits ws) else harbourCode (wordsBits ws)

/-! ### Dealing (R202 to R204) -/

/-- A stream being dealt to: its number, the bits of one pass, the bits still to come, and those taken, newest first. -/
structure Dealt where
  stream : Nat
  n : Nat
  left : Nat
  taken : List Bool := []

/-- One pass over the streams. -/
def dealPass : List Dealt → List Bool → List Dealt × List Bool
  | [], bs => ([], bs)
  | d :: ds, bs =>
    let k := min d.n d.left
    let r := dealPass ds (bs.drop k)
    ({ d with left := d.left - k, taken := (bs.take k).reverse ++ d.taken } :: r.1, r.2)

/-- Passes until every stream holds its bits: `fuel` of them cover every loading. -/
def dealPasses : Nat → List Dealt → List Bool → List Dealt
  | 0, ds, _ => ds
  | fuel + 1, ds, bs =>
    if ds.all fun d => d.left = 0 then ds
    else
      let r := dealPass ds bs
      dealPasses fuel r.1 r.2

/-- The bits of a frame period by stream: the coded frame and coded fill up to G. -/
def deal (x : LoadSet) (rate : Nat) (coded : List Bool) : List Dealt :=
  let ds := x.streams.map fun l => ({ stream := l, n := x.code l, left := streamBits rate (x.code l) } : Dealt)
  dealPasses (7750 * rate) ds (coded ++ fillBits (x.budget rate - coded.length))

/-! ### Constellations (10 R226 to R228) and pilots (11 R259) -/

/-- Bits of dimension t at loading n. -/
def dimBits (n t : Nat) : Nat := (t + 1) * n / 32 - t * n / 32

/-- The value whose binary-reflected Gray code is given, bits most significant first. -/
def ungray : Bool → Nat → List Bool → Nat
  | _, acc, [] => acc
  | prev, acc, b :: bs =>
    let x := xor prev b
    ungray x (2 * acc + bitOf x) bs

/-- The amplitude of a dimension from its bits: sign, then the label of the magnitude index. -/
def amplitude : List Bool → Int
  | [] => 0
  | s :: l => (if s then -1 else 1) * (2 * (ungray false 0 l : Int) + 1)

/-- The amplitudes of dimensions t, t + 1, … of a stream. -/
def amplitudes (n : Nat) : Nat → Nat → List Bool → List Int
  | 0, _, _ => []
  | fuel + 1, t, bs => amplitude (bs.take (dimBits n t)) :: amplitudes n fuel (t + 1) (bs.drop (dimBits n t))

def pairUp : List Int → List (Int × Int)
  | a :: b :: r => (a, b) :: pairUp r
  | _ => []

/-- E_n as a fraction over 32: the sum of (4^k − 1) / 3 over one period, times 2 (R228). -/
def energyOver32 (n : Nat) : Nat := 2 * ((List.range 32).map fun t => (4 ^ dimBits n t - 1) / 3).sum

/-- One output bit of the 15-bit generator, and the state after it (R259). -/
def pilotStep (st : BitVec 15) : Bool × BitVec 15 :=
  let o := xor (st.getLsbD 14) (st.getLsbD 13)
  (o, (st <<< 1) ||| BitVec.ofNat 15 (bitOf o))

/-- n symbols of two output bits each from a state; odd ones negated when asked. -/
def pilots (negated : Bool) : Nat → Nat → BitVec 15 → List Symbol
  | 0, _, _ => []
  | n + 1, q, st =>
    let a := pilotStep st
    let b := pilotStep a.2
    let neg := negated && q % 2 = 1
    .unit (xor a.1 neg) (xor b.1 neg) :: pilots negated n (q + 1) b.2

/-- The state of stream l's generator at pilot 0 of a frame period. -/
def pilotSeed (l : Nat) : BitVec 15 := BitVec.ofNat 15 (0x1000 + 0x0155 * l)

/-- Symbols in order: a pilot, then 31 data symbols, and so on; `fuel` pilots. -/
def weave : List Symbol → List Symbol → List Symbol
  | [], ds => ds
  | p :: ps, ds => p :: (ds.take 31 ++ weave ps (ds.drop 31))

/-- The data symbols of a stream from its bits. -/
def dataSymbols (n count : Nat) (bs : List Bool) : List Symbol :=
  (pairUp (amplitudes n (2 * count) 0 bs)).map fun a => .data a.1 a.2

/-- One stream's symbols in a frame period. -/
def streamSymbols (rate l n : Nat) (negated : Bool) (bs : List Bool) : List Symbol :=
  weave (pilots negated (125 * rate) 0 (pilotSeed l)) (dataSymbols n (3875 * rate) bs)

/-! ### The spectrum (10 R219, R220; 11 R260, R261) -/

/-- f_c in kHz: 191.150 THz and FREQ_IDX steps of 6.25 GHz. -/
def BringupParams.centre (p : BringupParams) : Nat := 191150000000 + 6250000 * p.freqIdx

/-- The spacing 1.0625 r of the subcarriers in kHz; `rate` in units of 0.5 GBd. -/
def spacing (rate : Nat) : Nat := 531250 * rate

/-- The spectrum that all 16 subcarriers occupy, 17 r, in kHz. -/
def occupied (rate : Nat) : Nat := 16 * spacing rate

/-- The channel's width on the flexible grid in kHz, centred on f_c whatever subcarriers are off. -/
def gridWidth (rate : Nat) : Nat := 12500000 * cdiv (occupied rate) 12500000

/-- Subcarrier i, shared by X and Y: f_c + (i − 7.5) × 1.0625 r, roll-off 0.05, and TX_POWER − 12.04 dB + OFS_i. -/
def Bringup.carrier (b : Bringup) (i : Nat) : Carrier :=
  { centre := b.params.centre + i * spacing b.params.rate - 15 * spacing b.params.rate / 2, spacing := spacing b.params.rate
    rollOff := 5, power := 10 * b.params.txPower - 1204 + 10 * b.offsets.getD i 0 }

/-- The streams of a channel as its laser carries them: a leaf's follows the received downstream (13 R304). -/
def Channel.onLaser (ch : Channel) (xs : List StreamOut) : List StreamOut :=
  if ch.pm.mode = .leaf then xs.map fun x => { x with carrier := { x.carrier with laser := .received } } else xs

/-- Everything a transmitter sends in one frame period: the Active streams with the coded frame, the Lit ones with coded
fill at loading 2.000 (10 R223), in the order of the streams. -/
def framePeriod (x : LoadSet) (b : Bringup) (negated : Bool) (coded : List Bool) : List StreamOut :=
  let rate := b.params.rate
  let out (l n : Nat) (bs : List Bool) : StreamOut :=
    { stream := l, loading := n, energy := energyOver32 n, carrier := b.carrier (l / 2), symbols := streamSymbols rate l n negated bs }
  (deal x rate coded).map (fun d => out d.stream d.n d.taken.reverse) ++
    ((List.range 32).filter fun l => x.isLit (l / 2) && !x.isActive (l / 2)).map fun l => out l 32 (fillBits (streamBits rate 32))

/-! ### Bursts (13 R318, R319) -/

/-- CRC-16-CCITT, one byte at a time: polynomial 0x1021, no reflection. -/
def crc16bits : Nat → Nat → Nat
  | 0, r => r
  | n + 1, r => crc16bits n ((2 * r % 65536) ^^^ (if r.testBit 15 then 0x1021 else 0))

def crc16ccitt (bs : List Byte) : Nat := bs.foldl (fun r b => crc16bits 8 (r ^^^ (b.toNat * 256))) 0xFFFF

/-- A burst header word with its check. -/
def burstHeader (leaf : Nat) (disc : Bool) (len n bseq : Nat) : Word :=
  let w := mkWord [(0, 7, leaf), (7, 1, bitOf disc), (8, 12, len), (20, 7, n), (27, 8, bseq)]
  w ||| mkWord [(48, 16, crc16ccitt ((Word.bytes w).take 6))]

/-- Coded bits of a burst's payload words: rows of 910 bits, the last made up with zeros that are sent. -/
def burstRows (ws : List Word) : List (List Bool) :=
  let bs := wordsBits ws
  ((pieces 910 (cdiv bs.length 910) bs).map (padTo 910 false)).map harbourRow

/-- Bits split between two streams in passes of n bits each. -/
def splitXY (n : Nat) (bs : List Bool) : List Bool × List Bool :=
  let ps := pieces n (cdiv bs.length n) bs
  ((ps.zipIdx.filter fun p => p.2 % 2 = 0).flatMap (·.1), (ps.zipIdx.filter fun p => p.2 % 2 = 1).flatMap (·.1))

/-- Data symbols that carry k bits at loading n. -/
def symbolsFor (n k : Nat) : Nat := cdiv (16 * k) n

/-- The symbols of one polarisation of a burst: preamble, header copies, payload with its pilots, guard. -/
def burstSymbols (rate subc p n : Nat) (header : Word) (count : Nat) (bs : List Bool) : List Symbol :=
  let room := 2 * count * n / 32
  let hdr := (List.range 64).map fun j => Symbol.unit (header.bit (2 * j % 64)) (header.bit (2 * j % 64 + 1))
  pilots false 1024 0 (BitVec.ofNat 15 (if p = 0 then 0x2B6D else 0x54D2)) ++ hdr ++
    weave (pilots false (cdiv count 31) 0 (pilotSeed (2 * subc + p))) (dataSymbols n count (bs ++ fillBits (room - bs.length))) ++
    List.replicate (16 * rate) .silent

/-- Both polarisations of a burst. -/
def burstStreams (b : Bringup) (subc n : Nat) (header : Word) (ws : List Word) : List StreamOut :=
  let xy := splitXY n (burstRows ws).flatten
  let count := symbolsFor n xy.1.length
  let out (p : Nat) (bs : List Bool) : StreamOut :=
    { stream := 2 * subc + p, loading := n, energy := energyOver32 n, carrier := b.carrier subc
      symbols := burstSymbols b.params.rate subc p n header count bs }
  [out 0 xy.1, out 1 xy.2]

end Sys2Proof.Machine
end

