-- ==== Sys2Proof/Machine/Timing.lean ====
section
/-! DEFINITION. The timing core (14): candidates and their tests, selection, the cleanup loop, holdover, the oscillator,
and the timing commands. Offsets and LOOP_CTRL are in units of 10^-15. -/

namespace Sys2Proof.Machine

/-! ### Arithmetic -/

/-- Insertion sort of integers, rising. -/
def insertInt (x : Int) : List Int → List Int
  | [] => [x]
  | y :: ys => if x ≤ y then x :: y :: ys else y :: insertInt x ys
def sortInts (l : List Int) : List Int := l.foldr insertInt []

/-- The median; the mean of the middle two for an even count (PRESUMED, log 15). -/
def median (l : List Int) : Rat :=
  let t := sortInts l
  let n := t.length
  if n % 2 = 1 then (t.getD (n / 2) 0 : Rat) else ((t.getD (n / 2 - 1) 0 : Rat) + (t.getD (n / 2) 0 : Rat)) / 2

/-- Least-squares slope of y over x; none for fewer than two distinct x. -/
def slope (ps : List (Rat × Rat)) : Option Rat :=
  let n : Rat := (ps.length : Int)
  let sx := (ps.map (·.1)).sum
  let sy := (ps.map (·.2)).sum
  let sxx := (ps.map fun p => p.1 * p.1).sum
  let sxy := (ps.map fun p => p.1 * p.2).sum
  let d := n * sxx - sx * sx
  if d = 0 then none else some ((n * sxy - sx * sy) / d)

/-- A rational as an integer; the direction of rounding, which the spec does not give, is `up` (log 1). -/
def roundBy (up : Bool) (q : Rat) : Int := if up && q ≠ (q.floor : Rat) then q.floor + 1 else q.floor

/-! ### Candidates -/

def Timing.cand (t : Timing) (k : Nat) : Cand := t.cands.get {} k
def Timing.setCand (t : Timing) (k : Nat) (c : Cand) : Timing := { t with cands := t.cands.insert k c }
def State.onTm (s : State) (g : Timing → Timing) : State := { s with tm := g s.tm }
def State.onCand (s : State) (k : Nat) (g : Cand → Cand) : State := s.onTm fun t => t.setCand k (g (t.cand k))

/-- A channel's recovered receive clock is valid (R330, R331). -/
def State.clockValid (s : State) (c : Nat) : Bool :=
  let l := (s.chan c).pw.level
  (s.chan c).rx.state = .tracking && l ≠ .slack && l ≠ .dark

/-- The channel that a candidate's source names. -/
def Cand.sourceChan (c : Cand) : Option Nat := if c.src = 4 then some c.chan else none

/-- Eligible for selection (R336). -/
def Cand.eligible (c : Cand) : Bool := c.enable && c.qual = .qualified && !c.lockout

/-- Candidate j ranks before candidate k: lower QUALITY, then lower PRIORITY, then lower slot. -/
def Timing.ranks (t : Timing) (j k : Nat) : Bool :=
  let a := t.cand j
  let b := t.cand k
  a.quality < b.quality || (a.quality = b.quality && (a.prio < b.prio || (a.prio = b.prio && j < k)))

def Timing.best (t : Timing) : Option Nat :=
  (List.range 8).foldl (fun m k => if (t.cand k).eligible then
    (match m with | none => some k | some j => if t.ranks k j then some k else some j) else m) none

/-! ### Holdover (R340, R341) -/

/-- The samples a holdover entered at t ns takes its value from, newest first. -/
def Timing.window (t : Timing) (now : Nat) : List LoopSample :=
  (t.history.filter fun q => q.locked && !q.tainted && (q.second + 1 + t.guard) * 1000000000 ≤ now).take t.hoWin

/-- The timing core at an instant that brings LOOP_CTRL, which moves while it is steered, and the slots whose input shows edges
(DESIGN CHOICE, log 163). -/
def Timing.seen (t : Timing) (loop : Int) (edges : List (Fin 8)) : Timing :=
  { t with
    ctrl := if t.state = .acquiring || t.state = .locked then loop else t.ctrl
    cands := t.cands.map fun p =>
      (p.1, if p.2.enable && p.2.src ≠ 4 && (edges.map Fin.val).contains p.1 then { p.2 with active := true } else p.2) }

/-- Holdover is entered. -/
def State.enterHoldover (s : State) (cause : Option Nat) : State :=
  let t := s.tm
  let w := t.window s.now
  let mean : Rat := (w.map (·.ctrl)).sum / (w.length : Int)
  let v := if w.isEmpty then (if t.hoHeld then t.hoValue else t.ctrl) else roundBy (s.freeVal 0 1 = 1) mean
  let t := { t with
    state := .holdover, selected := none, lockedAll := false, hoValue := v, ctrl := v, hoShort := w.length < t.hoWin
    hoNohist := w.isEmpty, hoHeld := t.oscWarm
    hoStart := match w.getLast? with | some q => q.second | none => t.hoStart
    hoEnd := match w.head? with | some q => q.second + 1 | none => t.hoEnd }
  (({ s with tm := t }.draw).raise 32 0x1643 3 (mkWord [(0, 32, t.hoStart), (32, 32, t.hoEnd)])
    (BitVec.ofNat 32 (bitOf t.hoShort + 2 * bitOf t.hoNohist)) cause)

/-! ### Selection (R336, R338, R343) -/

/-- The wait of 5 / B at a bandwidth code, ns. -/
def bwWait (code : Nat) : Nat := 5000000000000 / 10 ^ code

def State.moveTo (s : State) (k : Nat) (cause : Option Nat) : State :=
  let t := s.tm
  let d0 := mkWord [(0, 3, k), (3, 3, t.selected.getD 0), (6, 1, bitOf t.selected.isSome)]
  let b := max t.bw 4
  let t := if t.state = .freeRun || t.state = .holdover
    then { t with selected := some k, state := .acquiring, bwNow := b, bwDue := s.now + bwWait b, acqNs := s.now, steered := true }
    else { t with selected := some k }
  ({ s with tm := t }.raise 32 0x1642 1 d0 0 cause)

def State.reselect (s : State) (cause : Option Nat := none) : State :=
  let t := s.tm
  let keep := match t.selected with
    | some k => (t.cand k).eligible && (!t.revert || t.best = some k)
    | none => false
  if keep then s
  else match t.best with
    | some k => s.moveTo k cause
    | none => if t.state = .acquiring || t.state = .locked then s.enterHoldover cause
              else s.onTm fun t => { t with selected := none }

/-! ### Disqualification (R334, R335, R340) -/

/-- Samples from a second onward that were recorded while locked to slot k's present candidate are marked TAINTED. -/
def Timing.taint (t : Timing) (k : Nat) (onset : Int) : Timing :=
  { t with history := t.history.map fun q => if q.locked && q.slot = k && (t.cand k).since ≤ q.second && onset ≤ (q.second : Int) then { q with tainted := true } else q }

/-- A candidate is disqualified with a cause; `undertow`: its open hold-off counts as failed tests. -/
def State.disqualify (s : State) (k cause : Nat) (undertow : Bool) : State :=
  let c := s.tm.cand k
  let onset : Option Int := c.pending.map fun p => (p.1 : Int) - s.tm.utWinUsed
  let s := s.onTm fun t =>
    (match onset with | some o => if undertow then t.taint k o else t | none => t).setCand k
      { c with qual := .disqualified, cause := cause, passS := 0, pending := none, passed := false, expired := none }
  s.raise 32 0x1641 (if s.tm.selected = some k then 3 else 2)
    (mkWord [(0, 3, k), (3, 3, cause), (32, 32, (onset.map (twos 32)).getD 0)]) 0 c.sourceChan

/-- Loss of activity (R335), before the selection that follows it. -/
def State.dropActivity (s : State) (k : Nat) : State :=
  let s := if (s.tm.cand k).qual = .disqualified then s else s.disqualify k 1 true
  s.onCand k fun c => { c with active := false, passS := 0, pending := none, passed := false, expired := none }

/-- One selection follows all the verdicts of one evaluation (R336). -/
def State.selectOnce (s : State) (cause : Option Nat) : State :=
  if (List.range 8).any fun k => (s.tm.cand k).passed || (s.tm.cand k).expired.isSome then s else s.reselect cause

/-- A channel's recovered clock becomes valid: a candidate that names it has activity (R331). -/
def State.clockRises (s : State) (c : Nat) : State :=
  s.onTm fun t => { t with cands := t.cands.map fun p =>
    (p.1, if p.2.enable && p.2.src = 4 && p.2.chan = c then { p.2 with active := true } else p.2) }

/-- Slot k can lose its activity: its input is external, where edges may have come since the last second, or its recovered clock is
no longer valid. -/
def State.losable (s : State) (k : Nat) : Bool :=
  let c := s.tm.cand k
  c.enable && (c.src ≠ 4 || (c.active && !s.clockValid c.chan))

/-- The slots that lose activity at one instant: the given ones, and every slot whose recovered clock has ended. -/
def State.losers (s : State) (x : LossIn) : List Nat :=
  (List.range 8).filter fun k => s.losable k && (k = x.slot.val || (x.also.map Fin.val).contains k || (s.tm.cand k).src = 4)

/-- Loss of activity of one or more candidates, and the one selection that follows (R336). -/
def execCandidateActivityLoss (x : LossIn) (s : State) : Out :=
  occurs s (s.boot.powered && s.losable x.slot)
    (((s.losers x).foldl State.dropActivity (s.onTm fun t => t.seen x.loop [])).selectOnce (s.tm.cand x.slot).sourceChan)

def execHoldoffExpiry (k : Fin 8) (s : State) : Out :=
  let c := s.tm.cand k
  occursWith s (if s.boot.powered && c.enable && c.active then c.expired else none)
    fun drift => (s.disqualify k (if drift then 3 else 2) true).selectOnce c.sourceChan

def execCandidateQualified (k : Fin 8) (s : State) : Out :=
  let c := s.tm.cand k
  occurs s (s.boot.powered && c.enable && c.active && c.passed)
    (((s.onCand k fun c => { c with qual := .qualified, passed := false }).raise 32 0x1640 1 (BitVec.ofNat 64 k)).selectOnce none)

/-! ### The one-second evaluation (R333, R334, R340) -/

/-- |OFS| lies within TOL (units of 0.01 ppm). -/
def Cand.inTol (c : Cand) : Bool := c.ofs.natAbs ≤ c.tol * 10000000

/-- The other candidates that serve as DRIFT's reference (R333). -/
def Timing.others (t : Timing) (k : Nat) : List Cand :=
  ((List.range 8).filter (· ≠ k)).filterMap fun j =>
    if (t.cand j).enable && (t.cand j).active && (t.cand j).inTol then some (t.cand j) else none

/-- The points of the slope: OFS, less the median of the reference candidates' OFS of the same second when there are two
or more of them; a second that no reference holds is left out. -/
def Timing.points (t : Timing) (k : Nat) : List (Rat × Rat) :=
  let c := t.cand k
  let o := t.others k
  (c.hist.take t.utWin).filterMap fun p =>
    if o.length < 2 then some (((p.1 : Int) : Rat), (p.2 : Rat))
    else
      let vs := o.filterMap fun x => (x.hist.find? fun q => q.1 = p.1).map (·.2)
      if vs.isEmpty then none else some (((p.1 : Int) : Rat), (p.2 : Rat) - median vs)

/-- DRIFT in 0.01 ppb/h, exact; a slope of fewer than two values is a free value (log 1). -/
def State.drift (s : State) (k : Nat) : Rat :=
  match slope (s.tm.points k) with
  | some q => q * 36 / 100
  | none => (signed 32 (s.freeVal (2 * k) 32) : Rat)

/-- Slot k is evaluated for the second that ends at `sec`, when it has an offset of that second. -/
def State.evalCand (s : State) (sec k : Nat) : State :=
  let c := s.tm.cand k
  if !(c.enable && c.active && (c.hist.head?.map Prod.fst) = some sec) then s
  else
    let d := s.drift k
    let dR := roundBy (s.freeVal (2 * k + 1) 1 = 1) d
    let bad : Option Bool :=
      if !c.inTol then some false
      else if s.tm.oscWarm && (c.driftThr * 10 : Nat) < (if d < 0 then -d else d) then some true
      else none
    let c := { c with drift := dR, rel := 2 ≤ (s.tm.others k).length }
    match bad with
    | none => s.onTm fun t => t.setCand k { c with
        pending := none, expired := none, passS := c.passS + 1
        passed := c.qual ≠ .qualified && max c.qualTime 60 ≤ c.passS + 1 }
    | some drift =>
      let opens := c.pending.isNone && c.qual ≠ .disqualified
      let p := if opens then some (sec, drift) else c.pending
      let s := s.onTm fun t => t.setCand k { c with
        passS := 0, passed := false, pending := p, expired := (p.filter fun q => q.1 + t.holdoff ≤ sec).map fun _ => drift }
      if opens then
        s.raise 32 0x1647 2 (mkWord [(0, 3, k), (3, 1, bitOf drift), (32, 32, twos 32 dR)]) 0 c.sourceChan
      else s

/-- The measured offset of slot k, or its absence. -/
def State.measureCand (s : State) (sec k : Nat) (m : Option Int) : State :=
  let c := s.tm.cand k
  if !c.enable then s
  else match m with
    | some v =>
      if c.src = 4 && !s.clockValid c.chan then s
      else s.onTm fun t => t.setCand k { c with active := true, ofs := v, hist := ((sec, v) :: c.hist).take 3600 }
    | none => if c.active && c.src ≠ 4 then s.dropActivity k else s

/-- The sample of the second that ends at `sec`: its mean LOOP_CTRL, and what held over it (R340). Outside Acquiring and Locked
LOOP_CTRL stands still. -/
def Timing.sample (t : Timing) (sec : Nat) (mean : Int) : LoopSample :=
  { second := sec - 1, ctrl := if t.steered then mean else t.ctrl, slot := t.selected.getD 0, locked := t.lockedAll }

/-- The loop's accounts of the second that ends. -/
def Timing.secondEnds (t : Timing) (ctrl mean : Int) : Timing :=
  let steered := t.state = .acquiring || t.state = .locked
  let q := t.sample (t.secDue / 1000000000) mean
  { t with
    ctrl := if steered then ctrl else t.ctrl
    history := if t.oscWarm then (q :: t.history).take 16384 else t.history
    lockedS := if t.oscWarm && t.lockedAll then t.lockedS + 1 else t.lockedS
    dayCtrl := if t.lockedAll then t.dayCtrl + q.ctrl else t.dayCtrl
    dayN := if t.lockedAll then t.dayN + 1 else t.dayN
    lockedAll := t.state = .locked, steered := steered, utWinUsed := t.utWin
    secDue := t.secDue + 1000000000, lead := t.lead + q.ctrl, lastMean := q.ctrl }

/-- The system clock's time at always-on instant t, ns: it runs at the oscillator's frequency × (1 + LOOP_CTRL), whose mean since the
last second's end is `mean` while it is steered (R329). -/
def Timing.system (x : Timing) (mean : Int) (t : Nat) : Rat :=
  let d : Rat := (t : Int) - ((x.secDue : Int) - 1000000000)
  t + ((x.lead : Rat) + (if d < 0 then x.lastMean else if x.steered then mean else x.ctrl) * d / 1000000000) / 1000000

/-- The end of a second: offsets of the eight slots, LOOP_CTRL at its end and its mean over the second as measured. External
candidates without an offset lose their activity, and one selection follows all verdicts. -/
def State.timingSecond (s : State) (ofs : List (Option Int)) (ctrl mean : Int) : State :=
  let s := s.at s.tm.secDue
  let sec := s.tm.secDue / 1000000000
  let s := s.onTm fun t => t.secondEnds ctrl mean
  let lost := (List.range 8).find? fun k =>
    (s.tm.cand k).enable && (s.tm.cand k).active && (s.tm.cand k).src ≠ 4 && (ofs.getD k none).isNone
  let s := (List.range 8).foldl (fun s k => s.measureCand sec k (ofs.getD k none)) s
  let s := (List.range 8).foldl (fun s k => s.evalCand sec k) s
  (match lost with | some k => s.selectOnce (s.tm.cand k).sourceChan | none => s).draw

def execTimingSecond (ofs : List (Option Int)) (ctrl mean : Int) (s : State) : Out :=
  occurs s s.boot.powered (s.timingSecond ofs ctrl mean)

/-! ### The loop and the oscillator (R338, R339, R344, R345) -/

def State.bwStep (s : State) : State :=
  let s := s.at s.tm.bwDue
  let t := s.tm
  let next := if t.bw < t.bwNow then t.bwNow - 1 else t.bwNow + 1
  if t.bwNow = t.bw then
    (({ s with tm := { t with state := .locked } }.raise 32 0x1644 1
      (mkWord [(0, 3, t.selected.getD 0), (32, 32, (s.now - t.acqNs) / 1000000000)])))
  else { s with tm := { t with bwNow := next, bwDue := t.bwDue + bwWait next } }

def execLoopBwStep (s : State) : Out :=
  occurs s (s.boot.powered && s.tm.state = .acquiring) s.bwStep

def execOscWarm (s : State) : Out :=
  occurs s (s.boot.powered && !s.tm.oscWarm)
    ((((s.at 600000000000).onTm fun t => { t with oscWarm := true }).raise 32 0x1645 1))

def execHoGrade (s : State) : Out :=
  occurs s (s.boot.powered && !s.tm.hoGrade && 1209600 ≤ s.tm.lockedS)
    ((s.onTm fun t => { t with hoGrade := true }).raise 32 0x1646 1)

/-- A daily mean is added, and while Locked the line is refitted through those of up to 30 days, in 0.001 ppb/day. -/
def State.ageingFit (s : State) : State :=
  let t := s.tm
  let s := s.at (t.dayDue * 1000000000)
  let day := t.dayDue / 86400
  let daily := (if t.dayN = 0 then t.daily else (day, (t.dayCtrl : Rat) / (t.dayN : Int)) :: t.daily).filter fun p => day < p.1 + 30
  let fit := if t.state = .locked then slope (daily.map fun p => (((p.1 : Int) : Rat), p.2)) else none
  let age := match fit with | some q => roundBy (s.freeVal 0 1 = 1) (q / 1000) | none => t.ageing
  ({ s with tm := { t with daily := daily, dayCtrl := 0, dayN := 0, dayDue := t.dayDue + 86400, ageing := age } }).draw

def execOscAgeingFit (s : State) : Out := occurs s s.boot.powered s.ageingFit

/-! ### Commands (R332, R346, R352) -/

def Cand.sameSource (a b : Cand) : Bool := a.src = b.src && (a.src ≠ 4 || a.chan = b.chan)

/-- The settings of a TIMING_CAND_SET descriptor, put on a slot's present candidate. -/
def Cand.withFields (c : Cand) (d : Desc) : Cand :=
  { c with
    enable := d.p0.bit 3, src := d.p0.bits 7 4, chan := d.p0.bits 12 8, freq := d.p0.bits 14 13
    prio := d.p0.bits 18 15, quality := d.p0.bits 21 19, lockout := d.p0.bit 22
    tol := d.p1.bits 15 0, driftThr := d.p1.bits 31 16, qualTime := d.p1.bits 43 32 }

def Cand.fieldsOk (c : Cand) : Bool :=
  c.src < 5 && 0 < c.prio && 1 ≤ c.tol && c.tol ≤ 10000 && 1 ≤ c.driftThr && c.driftThr ≤ 1000
    && 1 ≤ c.qualTime && c.qualTime ≤ 3600

/-- A change that ends the slot's present candidate (R332). -/
def Cand.replaces (old new : Cand) : Bool :=
  old.src ≠ new.src || old.chan ≠ new.chan || old.freq ≠ new.freq || old.enable ≠ new.enable

def State.setCandidate (s : State) (k : Nat) (new : Cand) (edges : Bool) : State :=
  let old := s.tm.cand k
  if old.replaces new then
    let s := if old.enable && old.qual ≠ .disqualified then s.disqualify k 4 false else s
    (s.onCand k fun c => { new with active := new.enable && (if new.src = 4 then s.clockValid new.chan else edges), since := s.now / 1000000000, qual := .qualifying, passS := 0, pending := none, passed := false, expired := none,
                                    cause := if old.enable then 4 else c.cause, rel := false, drift := 0, ofs := 0,
                                    hist := [] }).reselect
  else (s.onCand k fun _ => new).reselect

def execTimingCandSet (x : TimingIn) (s : State) : Out :=
  withCmd s x.id 0x1600 fun f =>
    let k := f.desc.p0.bits 2 0
    let t := s.tm.seen x.loop x.edges
    let new := (t.cand k).withFields f.desc
    if !new.fieldsOk then s.finish f 0x01
    else if (List.range 8).any fun j => j ≠ k && (s.tm.cand j).enable && (s.tm.cand j).sameSource new then s.finish f 0x20
    else ((s.onTm fun _ => t).setCandidate k new ((x.edges.map Fin.val).contains k)).finish f 0

def execTimingConfig (id : Nat) (s : State) : Out :=
  withCmd s id 0x1601 fun f =>
    let p := f.desc.p0
    let bw := p.bits 2 0
    let hoWin := p.bits 14 4
    let guard := p.bits 28 15
    let utWin := p.bits 40 29
    let holdoff := p.bits 52 41
    if 6 < bw || hoWin = 0 || 1024 < hoWin || guard < 10 || 14400 < guard || utWin < 60 || 3600 < utWin
        || holdoff = 0 || 3600 < holdoff then s.finish f 0x01
    else
      ((s.onTm fun t => { t with bw := bw, revert := p.bit 3, hoWin := hoWin, guard := guard, utWin := utWin,
                                 holdoff := holdoff, bwNow := if t.state = .locked then bw else t.bwNow }).reselect).finish f 0

def CoreState.code : CoreState → Nat
  | .freeRun => 0 | .acquiring => 1 | .locked => 2 | .holdover => 3

def Cand.cstate (c : Cand) : Nat :=
  if !c.enable then 0
  else if !c.active then 1
  else match c.qual with | .qualifying => 2 | .qualified => 3 | .disqualified => 4

def Cand.words (c : Cand) : List Word :=
  [mkWord [(0, 3, c.cstate), (3, 1, bitOf c.lockout), (4, 1, bitOf c.pending.isSome), (5, 3, c.cause), (8, 1, bitOf c.rel),
           (32, 32, twos 32 c.drift)],
   mkWord [(0, 48, twos 48 c.ofs)]]

/-- TIMING_STATUS (R352). -/
def State.timingStatus (s : State) : List Word :=
  let t := s.tm
  let mask (p : Nat → Nat) (w : Nat) : List Fld := (List.range 32).map fun c => (w * c, w, p c)
  [mkWord [(0, 2, t.state.code), (2, 3, t.selected.getD 0), (5, 1, bitOf t.selected.isSome), (6, 3, t.bwNow),
           (9, 1, bitOf t.oscWarm), (10, 1, bitOf t.hoGrade), (11, 1, bitOf t.hoShort), (12, 1, bitOf t.hoNohist),
           (13, 1, bitOf (7 ≤ t.daily.length)), (32, 32, t.lockedS)],
   mkWord [(0, 48, twos 48 t.ctrl)], mkWord [(0, 48, twos 48 t.hoValue)],
   mkWord [(0, 32, t.hoStart), (32, 32, t.hoEnd)], mkWord [(0, 32, twos 32 t.ageing), (32, 32, s.sec')],
   mkWord (mask (fun c => (s.chan c).bu.timing) 2), mkWord (mask (fun c => bitOf (s.chan c).hold) 1), 0]
  ++ (List.range 8).flatMap fun k => (t.cand k).words

def execTimingStatus (x : TimingIn) (s : State) : Out :=
  withCmd s x.id 0x1602 fun f => s.answer f (s.onTm fun t => t.seen x.loop x.edges).timingStatus

def LoopSample.word (q : LoopSample) : Word :=
  mkWord [(0, 48, twos 48 q.ctrl), (48, 3, q.slot), (51, 1, bitOf q.locked), (52, 1, bitOf q.tainted), (53, 1, 1)]

/-- The 16,384 seconds up to the newest sample, oldest first; 0 for a second not recorded. -/
def Timing.historyWords (t : Timing) : List Word :=
  match t.history.head? with
  | none => List.replicate 16384 0
  | some q => (List.range 16384).map fun i =>
      match t.history.find? fun x => x.second + 16383 = q.second + i with
      | some x => x.word
      | none => 0

def execTimingHistory (id : Nat) (s : State) : Out :=
  withCmd s id 0x1603 fun f => s.answer f s.tm.historyWords (s.tm.history.head?.map (·.second))

/-- A channel is a member of a concatenated group (06 R133). -/
def State.inGroup (s : State) (c : Nat) : Bool := s.groups.any fun q => q.2.members.getLsbD c

def execChanTiming (id : Nat) (s : State) : Out :=
  withCmd s id 0x1610 fun f =>
    let c := f.desc.target
    let ch := s.chan c
    let m := f.desc.p0.bits 1 0
    if m = 3 || (m ≠ 0 && s.inGroup c) then s.finish f 0x01
    else if ch.pw.level = .dark || ch.pm.mode = .leaf then
      (s.onChan c fun ch => { ch with bu := { ch.bu with timing := m } }).finish f 0
    else (s.onChan c fun ch => { ch with bu := { ch.bu with timingCmds := ch.bu.timingCmds ++ [(id, m)] } }).run f

end Sys2Proof.Machine
end

