-- ==== Sys2Proof/Machine/Monitor.lean ====
section
/-! DEFINITION. Monitor converters and the telemetry filter chain (15). -/

namespace Sys2Proof.Machine

/-! ### Scan list and sample rates (R356 to R358) -/

/-- The fixed tail of a pass, in a channel and in the common section. -/
def monitorTail (n : Nat) : List Nat := if n < 32 then [2, 3, 4, 5, 6, 7, 9, 9] else [0, 3, 4, 5, 6, 7, 36, 36]

/-- The input at a position of a pass made of scan entries and the tail. -/
def inputAt (n : Nat) : List (Nat × Nat) → Nat → Nat
  | [], p => (monitorTail n).getD p 0
  | (i, d) :: es, p => if p < d then i else inputAt n es (p - d)

/-- Conversions of a pass: the scan list and the tail of 8. -/
def Converter.passLen (k : Converter) : Nat := (k.scan.map (·.2)).sum + 8

/-- Positions in the pass of the entries of an input, with their DWELL. -/
def scanPositions (input : Nat) : Nat → List (Nat × Nat) → List (Nat × Nat)
  | _, [] => []
  | pos, (i, d) :: es => if i = input then (pos, d) :: scanPositions input (pos + d) es else scanPositions input (pos + d) es

/-- Conversions of an entry on which its sample rests when the multiplexer switches to it: the first one of an unbuffered input is
discarded, and such an entry of DWELL 1 yields no sample (R355, R358). -/
def validConvs (input dwell : Nat) : Nat := if input < 8 then dwell else dwell - 1

/-- Entries of an input that yield a sample. -/
def Converter.yielding (k : Converter) (input : Nat) : Nat :=
  ((scanPositions input 0 k.scan).filter fun p => 0 < validConvs input p.2).length

/-- Equal spacing of continuous entries through the pass, counted across the wrap (R358). -/
def Converter.evenlySpaced (k : Converter) (input : Nat) : Bool :=
  let ps := scanPositions input 0 k.scan
  let n := k.passLen
  let m := ps.length
  ps.all (fun p => p.2 = 1) &&
    match ps with
    | [] => false
    | (p0, _) :: _ => (List.range m).all fun i => ((ps.getD i (0, 0)).1 - p0) * m = i * n

/-- Sample rate of an input, samples per second. -/
def Converter.rate (k : Converter) (input : Nat) : Rat :=
  (2000000 * k.yielding input : Nat) / (k.passLen : Int)

def Converter.filter (k : Converter) (i : Nat) : Filter := k.filters.get {} i
def Converter.setFilter (k : Converter) (i : Nat) (x : Filter) : Converter := { k with filters := k.filters.insert i x }
def Converter.anyRunning (k : Converter) : Bool := k.filters.any fun p => p.2.running

/-- Records per second of a filter. -/
def Converter.recordRate (k : Converter) (i : Nat) (x : Filter) : Rat :=
  if x.resample then 1000000 / 2048 else k.rate i / (x.rM1 + 1 : Nat)

/-- A filter may start on its input (R367). -/
def Converter.startable (k : Converter) (i : Nat) (x : Filter) : Bool :=
  let fd := k.rate i / (x.rM1 + 1 : Nat)
  0 < k.yielding i && (x.settle || (i < 8 && k.evenlySpaced i))
    && (!x.resample || (9765625 / 10000 ≤ fd && fd ≤ 390625 / 100))

/-! ### When conversions are made (R354 to R359) -/

/-- The reference in use at an instant; the internal one before the first change. -/
def Converter.refAt (k : Converter) (t : Nat) : Nat := ((k.refLog.find? fun p => p.1 ≤ t).map Prod.snd).getD 0

/-- When conversion j of the present grid of passes begins, always-on ns. -/
def Converter.convNs (k : Converter) (j : Nat) : Nat := k.passNs + 500 * j

/-- The end of the conversion in progress. -/
def Converter.convEnd (k : Converter) (now : Nat) : Nat := k.convNs (cdiv (now - k.passNs) 500)

def Urgent.ends (u : Urgent) : Nat := u.from_ + 500 * u.convs

/-- The urgent request that has the place of conversion j. -/
def Converter.urgentAt (k : Converter) (j : Nat) : Option Urgent :=
  k.urgents.find? fun u => u.from_ < k.convNs (j + 1) && k.convNs j < u.ends

/-- The input that the multiplexer connects in conversion j. -/
def Converter.muxAt (k : Converter) (n j : Nat) : Nat :=
  match k.urgentAt j with | some u => u.input | none => inputAt n k.scan (j % k.passLen)

/-- Conversion j is made as scheduled and passed on: no urgent one displaces it, and it is not the first after a switch to an
unbuffered input (R355). A new grid begins with a switch (DEDUCED, log 146). -/
def Converter.validAt (k : Converter) (n j : Nat) : Bool :=
  let i := inputAt n k.scan (j % k.passLen)
  (k.urgentAt j).isNone && (i < 8 || (0 < j && k.muxAt n (j - 1) = i))

/-- Conversions of an urgent request: with a settling one for an unbuffered input. -/
def urgentConvs (input count : Nat) : Nat := count + if input < 8 then 0 else 1

/-- An urgent request made now takes the places that follow the conversion in progress, and earlier requests (R359). -/
def Converter.urgent (k : Converter) (id : Option Nat) (input count now : Nat) : Converter :=
  { k with urgents := { id := id, input := input, convs := urgentConvs input count
                        from_ := k.urgents.foldl (fun t u => max t u.ends) (k.convEnd now) } :: k.urgents }

/-- An urgent request has been served: the conversions it displaced count in SKIPPED. -/
def Converter.skip (k : Converter) (input count : Nat) : Converter :=
  { k with skipped := k.skipped + BitVec.ofNat 32 (urgentConvs input count) }

/-- The entry of sample q of an input: its first conversion on the grid, and its DWELL. -/
def Converter.entryOf (k : Converter) (input q : Nat) : Nat × Nat :=
  let es := (scanPositions input 0 k.scan).filter fun p => 0 < validConvs input p.2
  let e := es.getD (q % es.length) (0, 0)
  (q / es.length * k.passLen + e.1, e.2)

/-- When sample q of an input begins and when its last conversion ends, always-on ns. -/
def Converter.slot (k : Converter) (input q : Nat) : Nat × Nat :=
  let e := k.entryOf input q
  (k.convNs (e.1 + e.2 - validConvs input e.2), k.convNs (e.1 + e.2))

/-- The first sample of an input that begins at or after an instant. -/
def Converter.slotFrom (k : Converter) (input t : Nat) : Nat :=
  let v := k.yielding input
  let first := (t - k.passNs) / (500 * k.passLen) * v
  ((List.range (v + 1)).find? fun d => t ≤ (k.slot input (first + d)).1).elim (first + v) (first + ·)

/-- A conversion of an input that begins at t falls in a test of that input; in a self-calibration (R368). -/
def Converter.inTest (k : Converter) (input t : Nat) : Bool :=
  ((k.filter input).tests.any fun p => p.1 ≤ t && t < p.2) || k.test.any fun x => x.input = input && x.start ≤ t
def Converter.inSelfcal (k : Converter) (t : Nat) : Bool := k.selfcal.any fun q => q.2 ≤ t

/-- A sample as the grid and what came upon it give it: when it begins and ends, when its conversions begin that were made, and
whether one that was scheduled, made or displaced, fell in a test, or in a test or a self-calibration, so that the filter does not
receive it. -/
structure MonSample where
  first : Nat
  ends : Nat
  times : List Nat
  test : Bool
  lost : Bool

def Converter.sample (k : Converter) (n input q : Nat) : MonSample :=
  let e := k.entryOf input q
  let w := k.slot input q
  let ts := (((List.range e.2).map (e.1 + ·)).filter (k.validAt n)).map k.convNs
  let due := (List.range (validConvs input e.2)).map fun d => w.1 + 500 * d
  { first := w.1, ends := w.2, times := ts, test := due.any (k.inTest input)
    lost := due.any fun t => k.inTest input t || k.inSelfcal t }

/-- A conversion that begins at t falls within 5 ms after a change of reference (R361). -/
def Converter.settlingAt (k : Converter) (t : Nat) : Bool := k.refLog.any fun p => p.1 ≤ t && t < p.1 + 5000000

/-- A started or restarted filter: DC estimate at the first sample, other state cleared (R367). -/
def Filter.cleared (x : Filter) (next now : Nat) : Filter :=
  { x with m := none, dec := [], prev := none, next := next, tests := [], from_ := now }

/-- A new pass begins, and every running filter restarts (R362, R372). -/
def Converter.restart (k : Converter) (now : Nat) : Converter :=
  { k with passNs := now
           filters := k.filters.map fun p =>
             if p.2.running then (p.1, { p.2.cleared 0 now with restarted := true, tests := p.2.tests }) else p }

/-- Valid conversions of an input's own scan slots in one pass. -/
def Converter.validPerPass (k : Converter) (n i : Nat) : Nat :=
  let len := k.passLen
  ((List.range (len - 8)).filter fun p =>
    inputAt n k.scan p = i && (i < 8 || inputAt n k.scan ((p + len - 1) % len) = i)).length

/-- When the next m valid conversions of an input's own scan slots begin, from conversion j on. -/
def Converter.validTimes (k : Converter) (n i : Nat) : Nat → Nat → Nat → List Nat
  | 0, _, _ => []
  | fuel + 1, j, m =>
    if m = 0 then []
    else if inputAt n k.scan (j % k.passLen) = i && j % k.passLen + 8 < k.passLen && k.validAt n j then
      k.convNs j :: k.validTimes n i fuel (j + 1) (m - 1)
    else k.validTimes n i fuel (j + 1) m

/-- The conversions of a test (R363): those under an earlier scan list, then those on the present grid. Each pass has one at least
that no urgent request touches, but for as many passes as requests. -/
def Converter.testTimes (k : Converter) (n : Nat) (t : MonTest) : List Nat :=
  let busy := (k.urgents.map fun u => u.convs + 1).sum
  let m := t.count - t.taken.length
  t.taken ++ k.validTimes n t.input ((m + busy + 2) * k.passLen) ((t.start - k.passNs) / 500) m

/-- A new scan list and a new pass; a test in progress goes on under them with what it has taken (R357, R363). -/
def Converter.rescan (k : Converter) (n now : Nat) (es : List (Nat × Nat)) : Converter :=
  { k with passNs := now, scan := es
           test := k.test.map fun t => { t with taken := (k.testTimes n t).filter (· < now) } }

/-- The converter converts: a channel's at Spring, Mean and Neap, the common one always (R354). -/
def State.converting (s : State) (k : Nat) : Bool :=
  s.boot.powered && (32 ≤ k ||
    match (s.chan k).pw.level with | .spring | .mean | .neap => true | .slack | .dark => false)

/-! ### Commands that set the chain up -/

def execMonScanSet (id : Nat) (ws : List Word) (s : State) : Out :=
  withCmd s id 0x1700 fun f =>
    let k := s.conv f.desc.target
    let n := f.desc.p0.bits 6 0
    let es := (List.range n).map (half ws)
    if k.anyRunning then s.finish f 0x02
    else if n = 0 || 64 < n || es.any fun e => 39 < e % 64 || e / 64 % 4 ≠ 0 then s.finish f 0x01
    else
      let s := s.at (k.convEnd s.now)
      (s.setConv f.desc.target (k.rescan f.desc.target s.now (es.map fun e => (e % 64, e / 256 + 1)))).finish f 0

/-- The 512 coefficients of a buffer, two to a word. -/
def coefOf (ws : List Word) : List Nat :=
  (List.range 512).map fun i => (wd ws (i / 2)).bits (32 * (i % 2) + 31) (32 * (i % 2))

/-- Every phase has unity gain within 64, and bits [31:18] are 0 (R367). -/
def coefOk (cs : List Nat) : Bool :=
  cs.all (fun v => v < 2 ^ 18) && (List.range 64).all fun p =>
    let sum := (((cs.drop (8 * p)).take 8).map fun v => signed 18 v).sum
    131072 - 64 ≤ sum && sum ≤ 131072 + 64

def execMonFilterSet (id : Nat) (ws : List Word) (s : State) : Out :=
  withCmd s id 0x1701 fun f =>
    let k := s.conv f.desc.target
    let p := f.desc.p0
    let i := p.bits 5 0
    let x := k.filter i
    let load := p.bit 30
    let dly := f.desc.p1.bits 15 0
    if 39 < i then s.finish f 0x01
    else if x.running then s.finish f 0x02
    else if p.bits 13 9 < 4 || 20 < p.bits 13 9 || (!p.bit 6 && dly ≠ 0) || (!p.bit 7 && 8 ≤ i)
        || (load && !coefOk (coefOf ws)) then s.finish f 0x01
    else
      (s.setConv f.desc.target (k.setFilter i
        { x with resample := p.bit 6, settle := p.bit 7, dcb := p.bit 8, dcbK := p.bits 13 9, rM1 := p.bits 29 14,
                 phaseDly := dly, coef := if load then some ((coefOf ws).map (signed 18)) else x.coef })).finish f 0

/-- The filters that a command selects take the run state. -/
def Converter.runFilters (k : Converter) (mask : Nat) (run : Bool) (now : Nat) : Converter :=
  (List.range 40).foldl (fun k i =>
    let x := k.filter i
    if !mask.testBit i then k
    else if run && !x.running then
      k.setFilter i { x.cleared (k.slotFrom i now) now with running := true, restarted := false, rseq := 0 }
    else if !run && x.running then k.setFilter i { x with running := false }
    else k) k

def Converter.freezeFilters (k : Converter) (mask : Nat) (on : Bool) (now : Nat) : Converter :=
  (List.range 40).foldl (fun k i => if mask.testBit i then
    k.setFilter i { k.filter i with frozen := on, freezes := (now, on) :: (k.filter i).freezes } else k) k

def execMonFilterRun (id : Nat) (s : State) : Out :=
  withCmd s id 0x1702 fun f =>
    let k := s.conv f.desc.target
    let mask := f.desc.p0.bits 39 0
    let run := f.desc.p0.bit 40
    let k' := (k.runFilters mask run s.now).freezeFilters (f.desc.p1.bits 39 0) (f.desc.p1.bit 40) s.now
    let bad := (List.range 40).any fun i => mask.testBit i && !(k.filter i).running && !k.startable i (k.filter i)
    let load := (k'.filters.map fun p => if p.2.running then k'.recordRate p.1 p.2 else 0).sum
    if run && bad then s.finish f 0x01
    else if run && 250000 < load then s.finish f 0x20
    else (s.setConv f.desc.target k').finish f 0

def execMonStream (id : Nat) (s : State) : Out :=
  withCmd s id 0x1703 fun f =>
    let k := s.conv f.desc.target
    let r := f.desc.p0.bits 15 0
    let add := f.desc.p0.bit 16
    let x := s.ring r
    let mask := f.desc.p1.bits 39 0
    let ins := (List.range 40).filter mask.testBit
    let bound (i : Nat) : List Nat := k.binds.get [] i
    if !(x.en && x.kind = .tideline && x.owner = f.link && ringBlock r = f.desc.target) then s.finish f 0x01
    else if add && ins.any fun i => !(bound i).contains r && 4 ≤ (bound i).length then s.finish f 0x09
    else
      let binds := ins.foldl (fun m i =>
        let l := Sparse.get [] m i
        Sparse.put [] m i (if add then (if l.contains r then l else l ++ [r]) else l.filter (· ≠ r))) k.binds
      (s.setConv f.desc.target { k with binds := binds }).finish f 0

/-! ### Correction (R360) -/

/-- The factor pair of a reference: OFFSET in 1/16 code and GAIN in 2^-24. -/
def Converter.pair (k : Converter) (n ref : Nat) : Int × Nat :=
  match k.pairs.find? fun p => p.1 = ref with
  | some p => p.2
  | none => (Config.factoryOffset n ref, (Config.factoryGain n ref).toNat)

/-- A raw code corrected under a reference. -/
def Converter.corrected (k : Converter) (n ref raw : Nat) : Rat :=
  let p := k.pair n ref
  ((raw : Int) - (p.1 : Rat) / 16) * (p.2 : Int) / 16777216

def meanRat (l : List Rat) : Rat := l.sum / (l.length : Int)

/-- Codes of conversions that begin at given instants, each corrected under the reference then in use. -/
def Converter.correctedAt (k : Converter) (n : Nat) (times codes : List Nat) : List Rat :=
  List.zipWith (fun t c => k.corrected n (k.refAt t) c) times codes

/-! ### Urgent requests (R359) -/

def execMonRead (id : Nat) (s : State) : Out :=
  withCmd s id 0x1704 fun f =>
    let i := f.desc.p0.bits 5 0
    let n := f.desc.p0.bits 12 6
    if 39 < i || n = 0 || 64 < n then s.finish f 0x01
    else if (s.conv f.desc.target).selfcal.isSome then s.finish f 0x02
    else (s.onConv f.desc.target fun k => k.urgent (some f.id) i n s.now).run f

/-- The raw codes converted; the settling conversion of an unbuffered input, the first one, brings none. RESULT1 is the always-on µs
at which the first conversion begins. -/
def State.urgentDone (s : State) (f : Flight) (u : Urgent) (codes : List Nat) : State :=
  let n := f.desc.target
  let s := s.at u.ends
  let k := s.conv n
  let times := (List.range codes.length).map fun j => u.ends - 500 * (codes.length - j)
  let mean := meanRat (k.correctedAt n times codes)
  let raw := roundBy (s.freeVal 4 1 = 1) (meanRat (codes.map fun c : Nat => ((c : Int) : Rat)))
  (s.setConv n (k.skip u.input codes.length)).finish f 0
    (some (Config.monitorValue n u.input mean).toNat) (some (u.from_ / 1000 % 4294967296)) (some raw.toNat)

/-- A MON_READ under way, with its place among the conversions. -/
def State.reading (s : State) (id count : Nat) : Option (Flight × Urgent) :=
  (s.flights.find? fun f => f.id = id && f.phase = .running && f.desc.opcode = 0x1704
      && count = f.desc.p0.bits 12 6 && s.converting f.desc.target).bind fun f =>
    ((s.conv f.desc.target).urgents.find? fun u => u.id = some id).map (f, ·)

/-- An urgent request of the module's own may be made on a channel's converter: in bring-up steps 2 and 3 (R359). -/
def State.ownRequest (s : State) (c : Nat) : Bool :=
  let b := (s.chan c).bu
  s.converting c && !b.stopped && (b.step = 2 || b.step = 3)

/-- An urgent request is served: of a MON_READ, or one that the module makes of its own at an instant. -/
def execUrgentRequestDone (id : Nat) (codes : List (BitVec 16)) (x : UrgentIn) (s : State) : Out :=
  match x.own with
  | some (c, i) =>
    let t := s.at x.ns
    occurs s (s.ownRequest c && 0 < codes.length && codes.length ≤ 64)
      (t.onConv c fun k => (k.urgent none i codes.length t.now).skip i codes.length)
  | none => occursWith s (s.reading id codes.length) fun q => s.urgentDone q.1 q.2 (codes.map (·.toNat))

/-! ### The test DAC (R363) -/

def execMonTest (id : Nat) (s : State) : Out :=
  withCmd s id 0x1705 fun f =>
    let n := f.desc.target
    let k := s.conv n
    let i := f.desc.p0.bits 5 0
    let count := f.desc.p0.bits 29 18
    if k.ref = 2 || count = 0 then s.finish f 0x01
    else if (scanPositions i 0 k.scan).isEmpty then s.finish f 0x23
    else if 16000 * k.validPerPass n i < count * k.passLen then s.finish f 0x01
    else if k.selfcal.isSome || k.test.isSome then s.finish f 0x02
    else
      (s.setConv n { k with
        test := some { id := id, input := i, code := f.desc.p0.bits 17 6, count := count, start := k.convEnd s.now } }).run f

/-- The test of a converter is over at an instant: its input's filter has not received the samples since its start. -/
def Converter.testOver (k : Converter) (t : MonTest) (ends : Nat) : Converter :=
  let x := k.filter t.input
  { (k.setFilter t.input { x with tests := (t.start, ends) :: x.tests }) with test := none }

def State.testEnd (s : State) (n : Nat) (t : MonTest) (codes : List Nat) : State :=
  let times := (s.conv n).testTimes n t
  let s := s.at ((times.getLast?.map (· + 500)).getD s.now)
  let k := s.conv n
  let mean := meanRat (k.correctedAt n times codes)
  let want := 16 * t.code
  let pass := mean ≤ (want + 48 : Nat) && ((want : Int) - 48 : Rat) ≤ mean
  let got := twos 16 (roundBy (s.freeVal 4 1 = 1) mean)
  let s := s.setConv n (k.testOver t s.now)
  let s := if pass then s else s.raise n 0x1742 2 (mkWord [(0, 6, n), (6, 6, t.input), (12, 16, got), (28, 16, want)])
  s.finishId t.id 0 (some (got + 65536 * want)) (some (bitOf pass)) none

/-- The test has taken its COUNT conversions. While the scan list that is in force gives its input none, it waits (DEDUCED, log
152). -/
def execTestEnd (n : Fin 33) (codes : List (BitVec 16)) (s : State) : Out :=
  occursWith s (if s.converting n then
      (s.conv n).test.filter fun t => t.count = codes.length && ((s.conv n).testTimes n t).length = t.count
    else none)
    fun t => s.testEnd n t (codes.map (·.toNat))

/-! ### Reference and self-calibration (R361, R362) -/

/-- Within 5 ms after a change of reference. -/
def State.settling (s : State) (k : Converter) : Bool :=
  match k.refNs with | some t => s.now < t + 5000000 | none => false

/-- The converter takes another reference. -/
def Converter.refer (k : Converter) (r now : Nat) : Converter := { k with ref := r, refNs := some now, refLog := (now, r) :: k.refLog }

/-- `extOk`: the external reference lies within 2.500 V ± 0.5 %. -/
def execMonRef (id : Nat) (extOk : Bool) (s : State) : Out :=
  withCmd s id 0x1706 fun f =>
    let r := f.desc.p0.bits 1 0
    if r = 3 then s.finish f 0x01
    else if r = 1 && !extOk then s.finish f 0x21
    else
      let s := s.at ((s.conv f.desc.target).convEnd s.now)
      (s.onConv f.desc.target fun k =>
        { (if k.ref = r then k else k.refer r s.now) with movedOff := false }).finish f 0

def execMonSelfcal (id : Nat) (s : State) : Out :=
  withCmd s id 0x1707 fun f =>
    let n := f.desc.target
    let k := s.conv n
    let step := if n < 32 then (s.chan n).bu.step else 0
    let stopped := if n < 32 then (s.chan n).bu.stopped else false
    if k.selfcal.isSome || k.test.isSome || s.settling k || (!stopped && (step = 2 || step = 3)) then s.finish f 0x02
    else (s.setConv n { k with selfcal := some (id, k.convEnd s.now) }).run f

/-- A self-calibration ends with a status: event 0x1740, a new pass, and every running filter restarted. -/
def State.selfcalOver (s : State) (n id st : Nat) : State :=
  let ref := (s.conv n).ref
  ((s.onConv n fun k => { k.restart s.now with selfcal := none }).raise n 0x1740 (if st = 0 then 1 else 2)
    (mkWord [(0, 6, n), (6, 2, ref), (8, 8, st)])).finishId id st

def State.selfcalEnd (s : State) (n id start : Nat) (offset : Int) (gain : Nat) : State :=
  let s := s.at (start + 18000000)
  let k := s.conv n
  let fo := Config.factoryOffset n k.ref
  let fg := (Config.factoryGain n k.ref).toNat
  if 1024 < (offset - fo).natAbs || 2 * fg < 100 * ((gain : Int) - fg).natAbs then s.selfcalOver n id 0x22
  else (s.setConv n { k with pairs := k.pairs.insert k.ref (offset, gain) }).selfcalOver n id 0

/-- Operands: the new pair, OFFSET in 1/16 code and GAIN in 2^-24. -/
def execSelfcalEnd (n : Fin 33) (offset : Int) (gain : BitVec 32) (s : State) : Out :=
  occursWith s (if s.converting n then (s.conv n).selfcal else none) fun q => s.selfcalEnd n q.1 q.2 offset gain.toNat

/-- The external reference leaves its window: every converter that uses it moves to the internal one, and a
self-calibration under it ends with 0x21. -/
def State.extRefLost (s : State) : State :=
  ((List.range 33).foldl (fun s n =>
    let k := s.conv n
    if k.ref = 1 then
      let s := match k.selfcal with | some q => s.selfcalOver n q.1 0x21 | none => s
      (s.onConv n fun k => { k.refer 0 s.now with movedOff := true }).raise n 0x1741 3 (BitVec.ofNat 64 n)
    else s) s)

def execExtRefLost (s : State) : Out := occurs s (s.boot.powered && s.convs.any fun p => p.2.ref = 1) s.extRefLost

/-! ### Records (R364 to R369) -/

/-- The DC block was frozen at an instant; a change takes effect at the next sample (R364). -/
def Filter.frozenAt (x : Filter) (t : Nat) : Bool := ((x.freezes.find? fun p => p.1 ≤ t).map Prod.snd).getD false

/-- One sample through the DC block: the block's new estimate and its output (R364). -/
def Filter.dcStep (x : Filter) (m : Option Rat) (frozen : Bool) (v : Rat) : Option Rat × Rat :=
  if !x.dcb then (m, v)
  else
    let m0 := m.getD v
    let m1 := if frozen then m0 else m0 + (v - m0) / (2 ^ x.dcbK : Nat)
    (some m1, v - m1)

/-- The samples of a window through the DC block, each with whether the block was frozen. -/
def Filter.dcBlock (x : Filter) : Option Rat → List (Bool × Rat) → Option Rat × List Rat
  | m, [] => (m, [])
  | m, v :: vs =>
    let q := x.dcStep m v.1 v.2
    let r := x.dcBlock q.1 vs
    (r.1, q.2 :: r.2)

/-- What a record carries beside its value. -/
structure RecFlags where
  stale : Bool
  test : Bool := false
  settling : Bool
  uncal : Bool
  clip : Bool
  nomf : Bool
  mfc : Nat
  time : Nat

/-- The four words of a monitor record (R369). -/
def recordWords (n i : Nat) (x : Filter) (v : BitVec 32) (g : RecFlags) : List Word :=
  [mkWord [(0, 3, 1), (3, 6, n), (9, 6, i), (16, 1, bitOf g.stale), (17, 1, bitOf g.settling),
           (18, 1, bitOf (g.stale && g.test)), (19, 1, bitOf g.uncal), (20, 1, bitOf g.clip), (21, 1, bitOf g.nomf),
           (22, 1, bitOf x.frozen), (23, 1, bitOf x.resample)],
   mkWord [(0, 32, v.toNat), (32, 32, g.mfc)], mkWord [(0, 32, g.time / 1000), (32, 10, g.time % 1000)],
   mkWord [(0, 32, x.rseq.toNat)]]

/-- A filter writes a record: into the circular buffer, then to every bound ring. -/
def State.writeRecord (s : State) (n i : Nat) (x : Filter) (v : BitVec 32) (g : RecFlags) : State :=
  let k := s.conv n
  let ws := recordWords n i x v g
  let x := if g.stale then { x with rseq := x.rseq + 1 }
           else { x with rseq := x.rseq + 1, last := some v }
  let s := (s.setConv n { (k.setFilter i x) with records := k.records + 1, buffer := (ws :: k.buffer).take 16384 }).rewrite n
    (monitorBase n + 32 * (k.records.toNat % 16384)) 32
  (k.binds.get [] i).foldl (fun s r => s.putTideline r ws) s

/-- A record whose conversions were not all made repeats the last value written without STALE (R368). -/
def State.writeStale (s : State) (n i : Nat) (x : Filter) (test : Bool) (mfc t : Nat) (nomf : Bool) : State :=
  let v := x.last.getD (BitVec.ofNat 32 (s.freeVal 0 32))
  let k := s.conv n
  (s.writeRecord n i x v { stale := true, test := test, settling := s.settling k, uncal := !k.pairs.any (fun p => p.1 = k.ref)
                           clip := false, nomf := nomf, mfc := mfc, time := t }).draw

/-- The samples that a filter receives, each with the instant at which it begins: the mean of its conversions. One whose
conversions were all displaced repeats the sample before it (R359; DEDUCED for single-cycle settling, log 122). -/
def Converter.samples (k : Converter) (n : Nat) : Option Rat → List (MonSample × List Nat) → List (Nat × Rat)
  | _, [] => []
  | p, (w, c) :: xs =>
    if w.lost then k.samples n p xs
    else
      let v := if c.isEmpty then p.getD 0 else meanRat (k.correctedAt n w.times c)
      (w.first, v) :: k.samples n (some v) xs

/-- The window of a filter's next record: its samples on the grid. -/
def Converter.window (k : Converter) (n i : Nat) : List MonSample :=
  let x := k.filter i
  (List.range (x.rM1 + 1)).map fun d => k.sample n i (x.next + d)

/-- The output of the decimator: a sample for the interpolator, or a record (R365, R366); `v` none: not all of its conversions
were made. -/
def State.decimated (s : State) (n i : Nat) (x : Filter) (v : Option Rat) (g : RecFlags) : State :=
  if x.resample then
    s.setConv n ((s.conv n).setFilter i { x with
      dec := ({ time := g.time, value := v, test := g.test, uncal := g.uncal, clip := g.clip, settling := g.settling } :: x.dec).take 24 })
  else match v with
    | some v => s.writeRecord n i x (Config.monitorValue n i v) g
    | none => s.writeStale n i x g.test 0 g.time false

/-- The samples of a window that the filter received go through the DC block, and their outputs through the decimator (R364,
R365). A displaced first sample, which has none before it to repeat, is a free code (log 1). -/
def State.decimate (s : State) (n i : Nat) (codes : List (List Nat)) : State :=
  let k := s.conv n
  let x := k.filter i
  let w := k.window n i
  let got := k.samples n (some (x.prev.getD (s.freeVal 0 16 : Nat))) (w.zip codes)
  let q := x.dcBlock x.m (got.map fun d => (x.frozenAt d.1, d.2))
  let ts := w.flatMap (·.times)
  let whole := !(w.any (·.lost))
  let s := s.decimated n i { x with m := q.1, prev := (got.getLast?.map Prod.snd).or x.prev, next := x.next + w.length }
    (if whole then some (meanRat q.2) else none)
    { stale := !whole, test := w.any (·.test), settling := ts.any k.settlingAt
      uncal := ts.any fun t => !k.pairs.any fun p => p.1 = k.refAt t
      clip := codes.any fun c => c.any fun r => r = 0 || r = 65535, nomf := false, mfc := 0
      time := ((w.getLast?).map (·.ends)).getD s.now }
  s.draw

/-- The codes brought are those of a window: for each sample one for each conversion that was made, none for a sample that the
filter does not receive. -/
def Converter.brings (k : Converter) (n i : Nat) (codes : List (List (BitVec 16))) : Bool :=
  codes.map (·.length) = (k.window n i).map fun w => if w.lost then 0 else w.times.length

/-- A decimation window ends, at the time of its last conversion, with the raw codes of its samples. -/
def execDecimRecord (n : Fin 33) (i : Fin 40) (codes : List (List (BitVec 16))) (s : State) : Out :=
  let k := s.conv n
  let x := k.filter i
  occurs s (s.converting n && x.running && 0 < k.yielding i && k.brings n i codes)
    ((s.at (k.slot i (x.next + x.rM1)).2).decimate n i (codes.map fun c => c.map (·.toNat)))

/-- Tap t of phase p of an input's coefficient set, in 2^-17. -/
def Filter.tap (x : Filter) (p t : Nat) : Int :=
  match x.coef with
  | some cs => cs.getD (8 * p + t) 0
  | none => signed 18 (Config.factoryCoef p t).toNat

/-- The interpolated value of eight decimated samples, newest first; whether tap 0 meets the oldest or the newest of them is
free (log 16). -/
def Filter.interpolate (x : Filter) (p : Nat) (ds : List DecSample) : Rat :=
  ((List.range 8).map fun t =>
    (x.tap p t : Rat) * (((ds[if Config.tapOldestFirst then 7 - t else t]?).bind (·.value)).getD 0)).sum / 131072

/-- The four decimated samples before an instant and the four after it, newest first, with the phase nearest to the instant
(R366). -/
def Filter.around (x : Filter) (t : Rat) : Option (List DecSample × Nat) :=
  let after := x.dec.filter fun d => t < (d.time : Rat)
  let new := after.drop (after.length - 4)
  let old := (x.dec.filter fun d => (d.time : Rat) ≤ t).take 4
  match new.getLast?, old.head? with
  | some a, some b =>
    if new.length = 4 && old.length = 4 then
      some (new ++ old, min 63 (64 * (t - b.time) / ((a.time : Rat) - b.time) + 1 / 2).floor.toNat)
    else none
  | _, _ => none

/-- Report instants (R366): the boundaries of the channel's transmit multiframes with their counts, as they came; else the 2.048 ms
ticks of the system clock, counted from power-on (DESIGN CHOICE, log 145). -/
def State.framed (s : State) (n count t : Nat) : Bool :=
  n < 32 && (s.chan n).tf.starts.any fun p => p.1.toNat = count && p.2 = t
/-- Channel n's transmit multiframe count runs at an instant. -/
def State.countsAt (s : State) (n t : Nat) : Bool :=
  n < 32 && (s.chan n).tf.sending && (s.chan n).tf.starts.any fun p => p.2 ≤ t
/-- Tick number k of the system clock falls on instant t: the first always-on ns at or after it. -/
def State.tickNo (s : State) (mean : Int) (k t : Nat) : Bool :=
  decide ((2048000 * k : Nat) ≤ s.tm.system mean t) && decide (s.tm.system mean (t - 1) < (2048000 * k : Nat) ∨ t = 0)
def State.tickAt (s : State) (n count : Nat) (x : InstantIn) : Bool :=
  let k := ((s.tm.system x.mean x.ns) / 2048000).floor.toNat
  !s.countsAt n x.ns && k % 4294967296 = count && s.tickNo x.mean k x.ns

/-- The record of instant t cannot be whole: some of the four samples before it lie before a restart of the filter, which has the
four after it, or the instant itself does (R368). A filter that has only been started, and not restarted, has no record for such
an instant (DEDUCED, log 147). -/
def Filter.cutOff (x : Filter) (t : Rat) : Bool :=
  x.restarted && (t < (x.from_ : Rat) || 4 ≤ (x.dec.filter fun d => t < (d.time : Rat)).length)

/-- A test of the input fell among the four decimated samples before u that lie before the filter's restart (R368). -/
def Converter.testBefore (k : Converter) (i : Nat) (u : Rat) : Bool :=
  let x := k.filter i
  x.tests.any fun p => p.1 < x.from_ && u - 4000000000 * (x.rM1 + 1 : Nat) / k.rate i < (p.2 : Rat)

/-- The report of instant t: of the input at t + PHASE_DLY, in units of 7.8125 ns. -/
def State.report (s : State) (n i count t : Nat) : State :=
  let x := (s.conv n).filter i
  let nomf := !s.framed n count t
  let x' := { x with reported := some t }
  let u : Rat := (t : Rat) + (x.phaseDly * 125 : Nat) / 16
  match x.around u with
  | some (ds, p) =>
    if ds.any (·.value.isNone) then s.writeStale n i x' (ds.any fun d => d.test) count t nomf
    else s.writeRecord n i x' (Config.monitorValue n i (x.interpolate p ds))
      { stale := false, settling := ds.any (·.settling), uncal := ds.any (·.uncal), clip := ds.any (·.clip), nomf := nomf
        mfc := count, time := t }
  | none => if x.cutOff u then s.writeStale n i x' ((s.conv n).testBefore i u) count t nomf else s

/-- The latest instant, always-on ns, at which the record of report instant t is written (R366). -/
def Converter.reportBy (k : Converter) (i t : Nat) : Rat :=
  let x := k.filter i
  (t : Rat) + 4000000000 * (x.rM1 + 1 : Nat) / k.rate i + (x.phaseDly * 125 : Nat) / 16 + 100000

/-- A report at an instant t later than the last one, written at instant w: the count of its multiframe or tick. -/
def execResampleReport (n : Fin 33) (i : Fin 40) (count : BitVec 32) (t : InstantIn) (w : Nat) (s : State) : Out :=
  let x := (s.conv n).filter i
  occurs s (s.converting n && x.running && x.resample && (s.framed n count.toNat t.ns || s.tickAt n count.toNat t)
      && x.reported.all (· < t.ns) && t.ns ≤ w && (w : Rat) ≤ (s.conv n).reportBy i t.ns)
    ((s.at w).report n i count.toNat t.ns)

/-! ### Queries and the fast path's setting (R371, R373) -/

/-- The factory LOS_CODE, that of −30.0 dBm (R371; 23 R484). -/
def factoryLosCode : Nat := 40

def State.losCodeOf (s : State) (c : Nat) : Nat := (s.conv c).losCode.getD factoryLosCode

/-- A rational as an integer at the nearest, limited to 0 to 255; the direction of a tie is `up` (log 1). -/
def fastCode (up : Bool) (q : Rat) : Nat :=
  let n := if up then (q + 1 / 2).floor else -((1 / 2 - q).floor)
  (max 0 (min 255 n)).toNat

/-- The codes of the latest fast readings, input 0 first (R370). -/
def fastCodes (x : FastIn) (up : Bool) : List Nat :=
  [fastCode up (4 * ((x.rxIn : Rat) / 100 + 40)), fastCode up (4 * ((x.txOut : Rat) / 100 + 40)),
   fastCode up ((x.laser : Int) / 20 : Rat), fastCode up (x.tec / 100 + 128)]

/-- MON_QUERY, with the latest fast readings. -/
def State.monQuery (s : State) (n : Nat) (fast : FastIn) : List Word :=
  let k := s.conv n
  let mask (p : Filter → Bool) : Nat := (List.range 40).foldl (fun m i => m + bitOf (p (k.filter i)) * 2 ^ i) 0
  [mkWord [(0, 2, k.ref), (2, 1, bitOf (s.settling k)), (3, 1, bitOf k.selfcal.isSome), (4, 1, bitOf k.test.isSome),
           (5, 3, (List.range 3).foldl (fun m r => m + bitOf (k.pairs.any fun p => p.1 = r) * 2 ^ r) 0),
           (16, 16, k.passLen), (32, 32, k.skipped.toNat)]] ++
  ((List.range 3).map fun r => mkWord [(0, 32, twos 32 (k.pair n r).1), (32, 32, (k.pair n r).2)]) ++
  [mkWord [(0, 40, mask fun x => x.running)], mkWord [(0, 40, mask fun x => x.frozen)],
   (if n < 32 then mkWord (((fastCodes fast (s.freeVal 8 1 = 1)).zipIdx.map fun p => (8 * p.2, 8, p.1)) ++
      [(32, 8, s.losCodeOf n), (40, 1, bitOf k.los)]) else 0),
   mkWord [(0, 32, k.records.toNat)]]

def execMonQuery (x : MonQueryIn) (s : State) : Out :=
  withCmd s x.id 0x1708 fun f => s.answer f (s.monQuery f.desc.target x.fast)

/-- The latest records, oldest first; a place that no record has been written to holds free bytes (log 1). -/
def execMonHistory (id : Nat) (s : State) : Out :=
  withCmd s id 0x1709 fun f =>
    let n := f.desc.p0.bits 14 0
    let rs := ((s.conv f.desc.target).buffer.take n).reverse
    let pad := (List.range (32 * (n - rs.length))).map fun i => Config.freeByte s.free i
    if n = 0 || 16384 < n then s.finish f 0x01
    else
      let k := f.desc.target
      let last := (s.conv k).records.toNat % 16384
      let upper := n - last
      s.dmaRead f k (monitorBase k + 32 * (16384 - upper)) (32 * upper) [] fun s =>
        s.dmaRead f k (monitorBase k + 32 * (last - n)) (32 * (last - (last - n))) [] fun s =>
          (s.writeBuf f 0 (pad ++ wordsBytes rs.flatten)).finish f 0

def execFastCfg (id : Nat) (s : State) : Out :=
  withCmd s id 0x170A fun f =>
    let v := f.desc.p0.bits 7 0
    if f.desc.target = 32 || v < factoryLosCode then s.finish f 0x01
    else (s.onConv f.desc.target fun k => { k with losCode := some v }).finish f 0

end Sys2Proof.Machine
end

