-- ==== Sys2Proof/Machine/Multipoint.lean ====
section
/-! DEFINITION. Hubs and leaves: leaf contexts, planning of windows, the grant map, leaf cells, the exchanges of each
hub–leaf pair, and the point-to-multipoint commands (13 R301 to R317, R325 to R328). -/

namespace Sys2Proof.Machine

/-! ### Access -/

def State.onPm (s : State) (c : Nat) (g : P2mp → P2mp) : State := s.onChan c fun ch => { ch with pm := g ch.pm }
def P2mp.leaf (x : P2mp) (j : Nat) : Leaf := x.leaves.get {} j
def State.leaf (s : State) (c j : Nat) : Leaf := (s.chan c).pm.leaf j
def State.onLeaf (s : State) (c j : Nat) (g : Leaf → Leaf) : State :=
  s.onPm c fun x => { x with leaves := x.leaves.insert j (g (x.leaf j)) }

def LeafState.code : LeafState → Nat
  | .free => 0 | .expected => 1 | .ranging => 2 | .active => 3 | .lost => 4

/-- The leaf whose window holds a hub slot. -/
def P2mp.leafOfSlot (x : P2mp) (slot : Nat) : Option Nat :=
  (x.leaves.find? fun p => p.2.state ≠ .free && p.2.holds slot).map Prod.fst

/-- The hub is not receiving a leaf. -/
def Leaf.unheard (x : Leaf) : Bool := x.state = .lost || (!x.burst && x.rf.state ≠ .inFrame)

/-! ### Planning the windows (R315) -/

/-- cap(C): payload words of a window of C cells. -/
def windowCap (rate n cells : Nat) : Nat :=
  let p := 500 * cells * rate - 1088 - 16 * rate
  let d := p - cdiv p 32
  910 * (2 * (d * n / 16) / 940) / 64

/-- k: windows per multiframe of a burst leaf, the smallest even number that carries its words; none when no window can hold
any. -/
def windowCount (rate n slotCount : Nat) : Option Nat :=
  let w := windowCap rate n 4 - 22
  if slotCount = 0 then some 0
  else if w = 0 then none
  else
    let k := cdiv (33280 * slotCount) w
    some (k + k % 2)

/-- The place of number n among those that stay free when n pairs of cells 4t and 1,024 + 4t, one for each of `pairs` leaves, are
taken on the first of the subcarriers without discovery: the rest of that one, the others, and cells 0 to 1,019 of the discovery
subcarrier. -/
def windowPlace (subs : List Nat) (disc : Option Nat) (pairs n : Nat) : Option (Nat × Nat) :=
  let half := 256 - pairs
  if n < 2 * half then some (subs.headD 0, 4 * (if n < half then pairs + n else 256 + pairs + (n - half)))
  else
    let q := n - 2 * half
    match (subs.drop 1)[q / 512]? with
    | some b => some (b, 4 * (q % 512))
    | none =>
      let r := q - 512 * (subs.length - 1)
      disc.bind fun b => if r < 255 then some (b, 4 * r) else none

/-- The windows of leaf j, of rank p among the burst leaves with windows: a pair 1,024 cells apart, so that none ends more than
1,024 cells after the one before, and k − 2 further ones from place n on. -/
def leafWindows (subs : List Nat) (disc : Option Nat) (pairs p j k n : Nat) : Option (List Grant) :=
  let w (q : Nat × Nat) : Grant := { subc := q.1, start := q.2, cells := 4, leaf := j }
  if subs.isEmpty then none
  else ((List.range (k - 2)).mapM fun i => windowPlace subs disc pairs (n + i)).map fun qs =>
    w (subs.headD 0, 4 * p) :: w (subs.headD 0, 1024 + 4 * p) :: qs.map w

/-- The discovery subcarrier: the lowest shared one, while discovery is enabled. -/
def P2mp.discSub (x : P2mp) : Option Nat :=
  if x.discInt = 0 then none else (List.range 16).find? x.shared.getLsbD

/-- The plan of every burst leaf, leaves in rising order, with windows of four cells on a grid of four (DESIGN CHOICE among the
plans that R315 allows, log 34); none when the leaves cannot all be planned. The places that the grid leaves out hold no window
of four cells, and a gap of at most 1,024 cells needs a subcarrier without discovery, so a plan is found wherever there is
one. -/
def P2mp.plan (x : P2mp) (rate : Nat) : Option (List Grant) :=
  let subs := (List.range 16).filter fun b => x.shared.getLsbD b && x.discSub ≠ some b
  let ls := (x.leaves.filter fun p => p.2.state ≠ .free && p.2.burst && 0 < p.2.slotCount).zipIdx
  (ls.foldl (fun acc p => acc.bind fun (a : List Grant × Nat) =>
    (windowCount rate p.1.2.burstN p.1.2.slotCount).bind fun k =>
      (leafWindows subs x.discSub ls.length p.2 p.1.1 k a.2).map fun gs => (a.1 ++ gs, a.2 + (k - 2))) (some ([], 0))).map (·.1)

/-- The burst leaves can all be planned. A hub that has not been brought up has no symbol rate yet, and nothing is held against
it (DESIGN CHOICE, log 34). -/
def P2mp.fits (x : P2mp) (rate : Nat) : Bool := rate = 0 || (x.plan rate).isSome

/-- The windows of assigned leaves. -/
def Channel.windows (ch : Channel) : List Grant :=
  ((ch.pm.plan ch.bu.params.rate).getD []).filter fun g => (ch.pm.leaf g.leaf).assigned

/-! ### The grant map (R313) -/

def Leaf.entryA (x : Leaf) : Word :=
  if x.assigned then
    mkWord [(0, 1, 1), (1, 1, bitOf x.burst), (2, 1, bitOf (x.rerange || x.state = .lost)), (3, 1, bitOf x.unheard),
            (4, 16, x.serial.toNat), (20, 7, x.burstN), (27, 11, x.slotBase), (38, 11, x.slotCount)]
  else 0

def Leaf.entryB (x : Leaf) : Word := if x.assigned then mkWord [(0, 16, x.dedMask.toNat), (16, 20, x.eqd)] else 0

/-- GM words of the map that multiframe m carries; `open_` opens a discovery window in the multiframe it governs. -/
def Channel.mapWords (ch : Channel) (m : BitVec 32) (open_ : Bool) : List Word :=
  let x := ch.pm
  let gs := ch.windows
  let ds : List Word := match x.downstream with
    | some (_, at_, set) => mkWord [(0, 1, 1), (32, 32, at_.toNat)] :: set.words5 true
    | none => List.replicate 6 0
  let as : List Word := (List.range 8).flatMap fun a => match x.assigns[a]? with
    | some (serial, leaf, eqd) => [serial, mkWord [(0, 6, leaf), (6, 1, 1), (7, 20, eqd)]]
    | none => [0, 0]
  let ws := [mkWord [(0, 32, (m + 2).toNat), (32, 14, gs.length)],
             mkWord [(0, 16, x.shared.toNat), (16, 1, bitOf open_), (17, 4, x.discSub.getD 0)]] ++ ds ++ List.replicate 8 0 ++
    ((List.range 64).flatMap fun j => [(x.leaf j).entryA, (x.leaf j).entryB]) ++ as ++
    gs.map fun g => mkWord [(0, 4, g.subc), (4, 11, g.start), (15, 2, g.cells - 1), (17, 6, g.leaf)]
  ws ++ [mkWord [(0, 32, crc32c (wordsBytes ws))]]

/-- The map that is being made carries leaf j's correction of EQD (R308). -/
def State.correctEqd (s : State) (c j : Nat) : State :=
  let d := (s.leaf c j).fix
  if d = 0 then s
  else
    (s.onLeaf c j fun x => { x with eqd := (x.eqd + d).toNat, fix := 0, fresh := 0 }).raise c 0x1523 1
      (mkWord [(0, 6, j), (16, 16, twos 16 d)])

/-- A hub's transmit multiframe begins: its map is made, with the assignments that wait and a discovery window when one
is due, and collisions are reported (R306, R313, R314, R324). -/
def State.hubBoundary (s : State) (c : Nat) : State :=
  if (s.chan c).pm.mode ≠ .hub then s
  else
    let s := (s.chan c).pm.leaves.foldl (fun s p => s.correctEqd c p.1) s
    let ch := s.chan c
    let x := ch.pm
    let open_ := x.discSub.isSome && x.discInt ≤ x.discSince + 1
    let ws := ch.windows
    let s := x.receivers.foldl (fun s p => if p.2.collisionsNow = 0 then s else
      s.raise c 0x1524 2 (mkWord [(0, 4, p.1), (16, 16, satAt 65535 p.2.collisionsNow)])) s
    s.onPm c fun x => { x with
      gm := ch.mapWords ch.tf.mfc open_, planned := ((ch.tf.mfc + 2, ws) :: x.planned).take 4, assigns := x.assigns.drop 8,
      discSince := if open_ then 0 else x.discSince + 1,
      discGov := (if open_ then [(ch.tf.mfc + 2, x.discSub.getD 0)] else []) ++ x.discGov.take 1,
      receivers := x.receivers.map fun p => (p.1, { p.2 with collisionsNow := 0 }) }

/-- The first multiframe after a bring-up or a Slack exit carries a map like every other (R313). -/
def State.firstMap (s : State) (c : Nat) : State :=
  if (s.chan c).tf.frame = 0 && (s.chan c).pm.gm.isEmpty then s.hubBoundary c else s

/-- A hub's receive multiframe ends half a transmit multiframe after its number has passed: a leaf that held windows in it and
was not heard has been silent in one more (R306, R325). -/
def State.hubReceiveEnd (s : State) (c : Nat) : State :=
  let ch := s.chan c
  if ch.pm.mode ≠ .hub || ch.tf.frame ≠ 128 then s
  else
    let ws := ((ch.pm.planned.find? fun p => p.1 = ch.tf.mfc - 1).map Prod.snd).getD []
    s.onPm c fun x => { x with leaves := x.leaves.map fun p => (p.1, { p.2 with
      heard := false
      silent := if p.2.heard then 0 else if ws.any fun g => g.leaf = p.1 then p.2.silent + 1 else p.2.silent }) }

/-! ### Leaf cells and status records (R316) -/

/-- The word that advertises a line cipher context (08 R183). -/
def Cipher.advert (x : Cipher) : Word :=
  let k := x.next
  mkWord [(0, 1, 1), (1, 1, bitOf x.endId), (2, 24, (k.map (·.epoch)).getD 0),
          (32, 32, (k.map fun q => (Crypto.keyCheck q.key).toNat).getD 0)]

/-- LOCAL indices of ciphered contexts with slots in a window, rising. -/
def Channel.ciphered (ch : Channel) (c : Nat) (inWindow : Nat → Bool) : List Nat :=
  ch.locals.filter fun l => (ch.trib l).cipher && (ch.sl.naming ch.sl.activeB (96 * c + l)).any inWindow

/-- Words 1 to 21 of a cell or status record from its parts. -/
def cellBody (bank lx status : List Word) (key : Option (Nat × Word)) (rdi : Bool) (acq : BitVec 16) (lq : Int) : List Word :=
  bank ++ lx ++ (status.drop 4).take 5 ++
    [(key.map Prod.snd).getD 0,
     mkWord [(0, 7, (key.map Prod.fst).getD 0), (7, 1, bitOf rdi), (8, 16, acq.toNat), (24, 8, twos 8 lq)]]

/-! ### A pair's exchange at the hub (R317) -/

/-- The channel as leaf j's pair sees it: the leaf's loading and frame receiver stand in the channel's place. -/
def State.enterPair (s : State) (c j : Nat) : State :=
  s.onChan c fun ch =>
    let x := ch.pm.leaf j
    { ch with
      ld := { x.ld with tx := ch.ld.tx, lsnTx := ch.ld.lsnTx, farAccept := ch.ld.farAccept, snr := ch.ld.snr
                        stale := ch.ld.stale }
      rf := x.rf, pm := { ch.pm with pair := some j } }

/-- The frame counters of a hub, to which a step of a leaf's receiver has added what it counted, and the overhead that passed last
(08 R197; DEDUCED, log 133). -/
def RxFrame.adding (x old new : RxFrame) : RxFrame :=
  { x with framesRx := x.framesRx + (new.framesRx - old.framesRx), ohCheckFail := x.ohCheckFail + (new.ohCheckFail - old.ohCheckFail)
           fawMiss := x.fawMiss + (new.fawMiss - old.fawMiss), lof := x.lof + (new.lof - old.lof)
           numJump := x.numJump + (new.numJump - old.numJump), falseCand := x.falseCand + (new.falseCand - old.falseCand)
           msgRx := x.msgRx + (new.msgRx - old.msgRx), msgLost := x.msgLost + (new.msgLost - old.msgLost)
           slotCtlErr := x.slotCtlErr + (new.slotCtlErr - old.slotCtlErr), rdiFrames := x.rdiFrames + (new.rdiFrames - old.rdiFrames)
           lastOh := if new.framesRx = old.framesRx || new.ohCheckFail ≠ old.ohCheckFail then x.lastOh else new.lastOh }

/-- The channel's own loading and frame receiver return to their place. -/
def State.leavePair (s : State) (c j : Nat) (old : Channel) : State :=
  s.onChan c fun ch =>
    let d := (ch.pm.leaf j).dedMask
    let mix (a b : BitVec 16) : BitVec 16 := (a &&& ~~~d) ||| (b &&& d)
    { ch with
      ld := old.ld, rf := old.rf.adding (old.pm.leaf j).rf ch.rf
      rx := { ch.rx with locked := mix old.rx.locked ch.rx.locked, acquired := mix old.rx.acquired ch.rx.acquired
                         lostSub := mix old.rx.lostSub ch.rx.lostSub, windowHit := old.rx.windowHit }
      pm := { ch.pm with pair := none, leaves := ch.pm.leaves.insert j { ch.pm.leaf j with
        ld := { ch.ld with tx := {}, lsnTx := 0, snr := List.replicate 32 0, stale := false }, rf := ch.rf } } }

/-- A step of leaf j's pair. -/
def State.inPair (s : State) (c j : Nat) (g : State → State) : State := (g (s.enterPair c j)).leavePair c j (s.chan c)

/-- Words 8 and 9 of a cell: COMMIT, or PROPOSE to an Active leaf that has not accepted. -/
def Channel.hubBank (ch : Channel) (j : Nat) : List Word :=
  let x := ch.pm.leaf j
  match ch.sl.proposal with
  | some p =>
    if p.committed && p.switched.isNone then
      [mkWord [(0, 3, 4)], mkWord [(0, 32, p.mI.toNat), (32, 32, (x.bankAccept.getD 0).toNat)]]
    else if p.live && !p.committed && x.bankAccept.isNone && x.state = .active then
      [mkWord [(0, 3, 1), (32, 32, p.crc.toNat)], mkWord [(0, 32, p.mI.toNat)]]
    else [0, 0]
  | none => [0, 0]

/-- LQ of the hub's receive direction from leaf j: the lowest margin of its dedicated Active streams (10 R234), 0 without any. -/
def Channel.leafLq (ch : Channel) (x : Leaf) : Int :=
  let act := if x.burst then [] else x.ld.rx.streams
  act.foldl (fun m l => min m (ch.ld.margin.getD l 0)) (act.head?.elim 0 fun l => ch.ld.margin.getD l 0)

/-- Words 0 to 21 of the cell of leaf j. -/
def State.hubCell (s : State) (c j : Nat) : List Word :=
  let ch := s.chan c
  let x := ch.pm.leaf j
  if !x.assigned then mkWord [(0, 6, j)] :: List.replicate 21 0
  else
    let p := (s.enterPair c j).chan c
    let ls := ch.ciphered c x.holds
    let key := ls[x.adv % ls.length]?.map fun l => (l, (ch.cipher l).advert)
    mkWord [(0, 6, j), (6, 1, 1)] :: cellBody (ch.hubBank j) p.lxOut p.lxStatus key x.unheard 0 (ch.leafLq x)

/-- Cells of frame f: the leaf of cell k. -/
def cellLeaf (f k : Nat) : Nat := (23 * (f - 32) + k) % 64

/-- Words 512 to 1,023 of a hub's frame f. -/
def State.hubRegion (s : State) (c f : Nat) : List Word :=
  if f < 32 then (List.range 512).map fun g => wd (s.chan c).pm.gm (512 * f + g)
  else ((List.range 23).flatMap fun k => s.hubCell c (cellLeaf f k)) ++ List.replicate 6 0

/-- A frame of a hub has been sent: the advertisement of each leaf with a cell in it moves on, and a REJECT of any pair has one
frame less of its multiframe to go. -/
def State.cellsSent (s : State) (c f : Nat) : State :=
  let s := s.onPm c fun x => { x with leaves := x.leaves.map fun p => (p.1, { p.2 with ld := p.2.ld.rejectSent }) }
  if f < 32 then s
  else (List.range 23).foldl (fun s k =>
    let j := cellLeaf f k
    if (s.leaf c j).assigned then s.onLeaf c j fun x => { x with adv := x.adv + 1 } else s) s

/-- Words 1 to 21 of a leaf's upstream cell or status record. -/
def State.leafBody (s : State) (c : Nat) : List Word :=
  let ch := s.chan c
  let ls := ch.ciphered c fun _ => true
  let key := ls[ch.pm.adv % ls.length]?.map fun l => (l, (ch.cipher l).advert)
  let b := s.bankWords c
  cellBody [b.1, b.2.1] ch.lxOut ch.lxStatus key (ch.rf.state ≠ .inFrame) ch.rx.acquired ch.ld.lq

/-- Words 512 to 1,023 of a leaf's frame. -/
def State.leafRegion (s : State) (c : Nat) : List Word :=
  mkWord [(0, 6, (s.chan c).pm.leafNo), (6, 1, 1)] :: s.leafBody c ++ List.replicate 490 0

/-- A leaf has sent its words 1 to 21 once more. -/
def State.leafBodySent (s : State) (c : Nat) : State := s.onPm c fun x => { x with adv := x.adv + 1 }

/-! ### Advertisements and cells received (07 R147, R154; 08 R183; 13 R316, R317) -/

/-- An advertisement of the far end for context i; a word with ADV_VALID 0 is ignored. -/
def State.takeAdvert (s : State) (i : Nat) (w : Word) : State :=
  if !w.bit 0 || !(s.trib i).cipher || (s.trib i).state = .free then s
  else
    s.clash i { s.cipherOf i with farNextEpoch := w.bits 25 2, farEnd := w.bit 1, farKcv := BitVec.ofNat 32 (w.bits 63 32)
                                  farNs := some s.now }

/-- SNR codes that the far end measures of this end's transmit direction (10 R235). -/
def farCodes (status : List Word) : List Nat :=
  (List.range 32).map fun l => (wd status (l / 8)).bits (8 * (l % 8) + 7) (8 * (l % 8))

def State.takeStatus (s : State) (c : Nat) (ws : List Word) : State :=
  s.onLd c fun x => { x with farSnr := farCodes ws }

/-- A leaf receives its cell, words 0 to 21, in a frame of multiframe count `count`. -/
def State.leafCell (s : State) (c : Nat) (ws : List Word) (count : BitVec 32) : State :=
  let x := (s.chan c).pm
  if x.join ≠ 3 || (wd ws 0).bits 5 0 ≠ x.leafNo || !(wd ws 0).bit 6 then s
  else
    let s := (s.bankMessage c (wd ws 1) (wd ws 2) count).lxMessage c ((ws.drop 3).take 12) count
    (s.takeStatus c ((ws.drop 15).take 5)).takeAdvert (96 * c + (wd ws 21).bits 6 0) (wd ws 20)

/-- The bank-switch message of leaf j at the hub, which only initiates (R317). -/
def State.hubBankMessage (s : State) (c j : Nat) (w8 w9 : Word) : State :=
  match (s.chan c).sl.proposal with
  | some p =>
    if p.mI ≠ BitVec.ofNat 32 (w9.bits 31 0) || !p.live then s
    else match w8.bits 2 0 with
      | 2 => (s.onLeaf c j fun x => { x with bankAccept := some (x.bankAccept.getD (BitVec.ofNat 32 (w9.bits 63 32))) }
              ).hubCommit c
      | 3 =>
        if p.committed then s
        else ((s.onSl c fun x => { x with proposal := none }).lapseEvent c 2).finishOpt p.id
          (if w8.bits 4 3 = 2 then 0x21 else 0x20)
      | _ => s
  | none => s

/-- Words 1 to 21 of leaf j's frame or status record at the hub. -/
def State.hubCellIn (s : State) (c j : Nat) (ws : List Word) (count : BitVec 32) : State :=
  let s := s.hubBankMessage c j (wd ws 0) (wd ws 1)
  let s := s.inPair c j fun s => (s.lxMessage c ((ws.drop 2).take 12) count).takeStatus c ((ws.drop 14).take 5)
  let s := s.takeAdvert (96 * c + (wd ws 20).bits 6 0) (wd ws 19)
  s.onLeaf c j fun x => { x with acq := BitVec.ofNat 16 ((wd ws 20).bits 23 8), rdi := (wd ws 20).bit 7
                                 lq := signed 8 ((wd ws 20).bits 31 24) }

/-- The bank indicator of leaf j's frame or record: its switch comes at the M_R that it has accepted, or after it when it follows (R127,
R129, R132, R317). -/
def State.hubIndicator (s : State) (c j : Nat) (sw : Bool) (count : BitVec 32) : State :=
  let x := s.leaf c j
  if sw && ((s.chan c).sl.proposal.any fun p => !mfBefore count (x.bankAccept.getD p.mI)) && x.bankFar.isNone then
    (s.onLeaf c j fun x => { x with bankFar := some count }).bankDone c
  else s

/-- A dedicated leaf that has a number and is not Lost is out of the tracking state from now on (R325). -/
def Leaf.missed (x : Leaf) (now : Nat) : Leaf :=
  if !x.burst && (x.state = .ranging || x.state = .active) then { x with lostNs := some (x.lostNs.getD now) } else x

/-- A hub hears none of its dedicated leaves from now on. -/
def State.missLeaves (s : State) (c : Nat) : State :=
  s.onPm c fun x => if x.mode = .hub then { x with leaves := x.leaves.map fun p => (p.1, p.2.missed s.now) } else x

/-- The frame receivers of a hub's dedicated leaves go to Search with the hub's receiver. -/
def State.searchLeaves (s : State) (c : Nat) (cause : Option Nat) : State :=
  if (s.chan c).pm.mode ≠ .hub then s
  else ((s.chan c).pm.leaves.foldl (fun s p =>
    if p.2.rf.state = .search then s else s.inPair c p.1 fun s => s.enterSearch c cause) s).missLeaves c

/-! ### Arrival of bursts and frames (R308, R324) -/

def clamp8 (v : Int) : Int := max (-8) (min 8 v)

/-- An arrival of leaf j, `ofs` ns after its expected instant: a Ranging leaf becomes Active within ±32 ns and is ranged
again beyond, a single burst beyond 200 ns ranges any leaf again, and when the mean of 16 arrivals since the last correction
lies outside ±8 ns the next map corrects EQD. A mean that is not whole is rounded in the direction that the spec leaves open
(log 1). -/
def State.arrival (s : State) (c j : Nat) (ofs : Int) (burst : Bool) : State :=
  let x := s.leaf c j
  let s := if x.state = .ranging && ofs.natAbs ≤ 32 && !x.rerange then
      (s.onLeaf c j fun x => { x with state := .active }).raise c 0x1520 1 (mkWord [(0, 6, j)]) (BitVec.ofNat 32 x.eqd)
    else if x.state = .ranging || (burst && 200 < ofs.natAbs) then s.onLeaf c j fun x => { x with rerange := true }
    else s
  let as := (ofs :: x.arrivals).take 16
  let sum : Int := as.foldl (· + ·) 0
  let mean : Int := sum / as.length + (if sum % as.length = 0 then 0 else s.freeVal 0 1)
  let n := min 16 (x.fresh + 1)
  (s.onLeaf c j fun y => { y with arrivals := as, arrOfs := mean, fresh := n
                                  fix := if n = 16 && 128 < sum.natAbs then - clamp8 mean else y.fix }).draw

/-- A leaf becomes Lost: it keeps its window and subcarriers, and its tributaries deliver the replacement (R325). -/
def State.loseLeaf (s : State) (c j cause : Nat) : State :=
  let s := (s.onLeaf c j fun x => { x with state := .lost, silent := 0, lostNs := none, arrivals := [], fresh := 0,
                                               fix := 0 }).raise c 0x1521 3
    (mkWord [(0, 6, j), (6, 2, cause)])
  (s.chan c).locals.foldl (fun s l =>
    if ((s.chan c).sl.naming (s.chan c).sl.activeB (96 * c + l)).any (s.leaf c j).holds then
      s.onTrib (96 * c + l) fun t => { t with rxIdle := true, fifo := [] } else s) s

def execLeafLost (c : Fin 32) (j : Fin 64) (s : State) : Out :=
  let x := s.leaf c j
  let up := s.boot.powered && (s.chan c).awake && (s.chan c).pm.mode = .hub && (x.state = .ranging || x.state = .active)
  occursWith s (if up && x.burst && 16 ≤ x.silent then some (1, s.now)
    else if up && !x.burst then x.lostNs.map fun t => (2, t + 100000000) else none)
    fun q => (s.at q.2).loseLeaf c j q.1

/-! ### Commands (R301, R309 to R311, R327) -/

def P2Mode.ofCode : Nat → P2Mode
  | 1 => .hub | 2 => .leaf | _ => .pointToPoint

/-- A burst term comes to or leaves a stated transmit latency of a tributary that is not released (02 R20, R26). -/
def State.movesBurst (s : State) (c : Nat) : Bool :=
  let ch := s.chan c
  ch.locals.any fun l => !(ch.trib l).released && (ch.trib l).txLat ≠ ch.statedTx ch.fec.txOffshore (ch.trib l)

/-- P2MP_MODE, which can move BURST tributaries out of burst windows and back: refused while one is not released (02 R26). -/
def execP2mpMode (id : Nat) (s : State) : Out :=
  withCmd s id 0x1500 fun f =>
    let c := f.desc.target
    let m := f.desc.p0.bits 1 0
    if m = 3 then s.finish f 0x01
    else if (s.chan c).pw.level ≠ .dark || (s.chan c).bu.step ≠ 0 then s.finish f 0x02
    else if (s.groupOf c).isSome then s.finish f 0x01
    else if (s.onPm c fun x => { x with mode := P2Mode.ofCode m }).movesBurst c then s.finish f 0x03
    else ((s.onPm c fun x => { x with mode := P2Mode.ofCode m }).restate c true false).finish f 0

/-- A context as LEAF_SET reads it. -/
def Leaf.ofWords (ws : List Word) : Leaf :=
  let w := wd ws 0
  { state := if w.bits 8 6 = 0 then .free else .expected, burst := w.bit 9, burstN := w.bits 16 10, slotBase := w.bits 27 17
    slotCount := w.bits 38 28, dedMask := BitVec.ofNat 16 (w.bits 54 39), serial := wd ws 1 }

/-- R311, step 1, apart from the channel's mode. -/
def Leaf.badWords (x : Leaf) (ws : List Word) : Bool :=
  let w := wd ws 0
  w.bits 63 55 ≠ 0 || 1 < w.bits 8 6 || (List.range 6).any (fun k => wd ws (2 + k) ≠ 0) || 1599 < x.slotBase
    || 1600 < x.slotBase + x.slotCount || x.serial = 0
    || (if x.burst then x.burstN < 32 || 96 < x.burstN || x.dedMask ≠ 0 else x.burstN ≠ 0 || x.dedMask = 0)

def Leaf.overlaps (x y : Leaf) : Bool :=
  0 < x.slotCount && 0 < y.slotCount && x.slotBase < y.slotBase + y.slotCount && y.slotBase < x.slotBase + x.slotCount

/-- R311, step 2, for context j of the channel to become x. -/
def P2mp.conflicts (p : P2mp) (j : Nat) (x : Leaf) : Bool :=
  let others := p.leaves.filter fun q => q.1 ≠ j
  let leaves := others.filter fun q => q.2.state ≠ .free
  (leaves.any fun q => x.overlaps q.2 || x.dedMask &&& q.2.dedMask ≠ 0) || (others.any fun q => x.serial = q.2.serial)
    || x.dedMask &&& p.shared ≠ 0 || (x.state ≠ .free && !x.burst && 16 ≤ (leaves.filter fun q => !q.2.burst).length)

/-- The pair of a leaf context that is written afresh ends: a message in progress is lost (08 R190), and so is its negotiation. -/
def State.leavesPair (s : State) (c j : Nat) : State :=
  if (s.leaf c j).state = .free then s else s.inPair c j fun s => (s.breakMessage c 3).lxStop c

/-- The context after LEAF_SET: the written fields, with the module's counters running on. -/
def Leaf.write (old x : Leaf) : Leaf :=
  { x with bursts := old.bursts, recLost := old.recLost }

def execLeafSet (id : Nat) (ws : List Word) (s : State) : Out :=
  withCmd s id 0x1501 fun f =>
    let c := f.desc.target
    let ch := s.chan c
    let x := Leaf.ofWords ws
    let j := (wd ws 0).bits 5 0
    let old := ch.pm.leaf j
    let moved := x.burst != old.burst || x.slotBase ≠ old.slotBase || x.slotCount ≠ old.slotCount
      || x.dedMask ≠ old.dedMask
    let used := [false, true].any fun b => (ch.sl.bank b).any fun e => e.2.getLsbD 12 && old.holds e.1
    let pm := { ch.pm with leaves := ch.pm.leaves.insert j (old.write x) }
    if ch.pm.mode ≠ .hub || x.badWords ws then s.finish f 0x01
    else if ch.pm.conflicts j x then s.finish f 0x20
    else if old.state ≠ .free && moved && used then s.finish f 0x21
    else if !pm.fits ch.bu.params.rate then s.finish f 0x22
    else ((s.leavesPair c j).onPm c fun p => { p with leaves := p.leaves.insert j ((p.leaf j).write x) }).finish f 0

/-- Mean of SNR codes, rounded to nearest. -/
def meanCode (ns : List Nat) : Nat := if ns.isEmpty then 0 else (2 * ns.sum + ns.length) / (2 * ns.length)

/-- SNR of a leaf: of its last 16 bursts, or of its dedicated streams. -/
def Channel.leafSnr (ch : Channel) (x : Leaf) : Nat :=
  if x.burst then meanCode x.snrs
  else meanCode (((List.range 32).filter fun l => x.ld.rx.isActive (l / 2)).map fun l => ch.ld.snr.getD l 0)

def Channel.leafWords (ch : Channel) (j : Nat) : List Word :=
  let x := ch.pm.leaf j
  [mkWord [(0, 6, j), (6, 3, x.state.code), (9, 1, bitOf x.burst), (10, 7, x.burstN), (17, 11, x.slotBase),
           (28, 11, x.slotCount), (39, 16, x.dedMask.toNat)], x.serial,
   mkWord [(0, 20, x.eqd), (20, 16, twos 16 x.arrOfs), (36, 8, ch.leafSnr x),
           (44, 11, if x.burst then 0 else (x.ld.rx.slots ch.bu.params.rate ch.fec.rxOffshore).getD 0)],
   mkWord [(0, 32, x.bursts.toNat), (32, 32, x.recLost.toNat)], 0, 0, 0, 0]

/-- A row issued at a channel of one mode; elsewhere it completes with 0x01. -/
def withMode (s : State) (id op : Nat) (m : P2Mode) (k : Flight → Nat → State) : Out :=
  withCmd s id op fun f => if (s.chan f.desc.target).pm.mode = m then k f f.desc.target else s.finish f 0x01

def execLeafQuery (id : Nat) (s : State) : Out :=
  withMode s id 0x1502 .hub fun f c => s.answer f ((s.chan c).leafWords (f.desc.p0.bits 5 0))

def execP2mpConfig (id : Nat) (s : State) : Out :=
  withMode s id 0x1503 .hub fun f c =>
    let p := f.desc.p0
    let x := (s.chan c).pm
    let pm := { x with shared := BitVec.ofNat 16 (p.bits 15 0), discInt := p.bits 31 16, detThr := p.bits 39 32
                       capOn := p.bit 40, capThr := p.bits 44 41 }
    if (pm.discInt ≠ 0 && pm.discInt < 16) || pm.detThr < 64 || 192 < pm.detThr || pm.capThr < 3 || 12 < pm.capThr
    then s.finish f 0x01
    else if x.leaves.any fun q => q.2.state ≠ .free && q.2.dedMask &&& pm.shared ≠ 0 then s.finish f 0x20
    else if !pm.fits (s.chan c).bu.params.rate then s.finish f 0x22
    else (s.onPm c fun _ => pm).finish f 0

/-- The status of LEAF_LOAD for a refusal reason of R242 (R249). -/
def reasonStatus : Nat → Nat
  | 3 => 0x22 | 4 => 0x24 | 5 => 0x23 | _ => 0x01

/-- The hub asks a dedicated leaf for a new transmit set (R317); only the receive half of the request may be VALID. -/
def execLeafLoad (id : Nat) (ws : List Word) (s : State) : Out :=
  withMode s id 0x1504 .hub fun f c =>
    let j := f.desc.p0.bits 13 8
    let x := requestContent ws
    let leaf := s.leaf c j
    let t := s.enterPair c j
    match lxLead (f.desc.p0.bits 6 0), x.rev with
    | some lead, some q =>
      let r := (t.chan c).leafSetReason j (t.chan c).ld.rx q
      if !requestClear ws || x.fwd.isSome || leaf.burst || leaf.state = .free || r = 2 || q = (t.chan c).ld.rx
      then s.finish f 0x01
      else if t.lxBlocked c || !leaf.assigned then s.finish f 0x02
      else if r ≠ 0 then s.finish f (reasonStatus r)
      else s.inPair c j fun s => s.lxStart f lead x
    | _, _ => s.finish f 0x01

def BurstChan.words (x : BurstChan) : List Word :=
  let two (a b : BitVec 32) : Word := mkWord [(0, 32, a.toNat), (32, 32, b.toNat)]
  [two x.detect x.confirmed, two x.hdrFail x.preempt, two x.collision x.capture, two x.trunc x.misplaced,
   two x.rowsUncorr x.discRx, 0, 0, 0]

def execBurstCounters (id : Nat) (s : State) : Out :=
  withMode s id 0x1505 .hub fun f c =>
    s.answer f ((List.range 16).flatMap fun i => ((s.chan c).pm.receivers.get {} i).words)

def P2mp.statusWords (x : P2mp) : List Word :=
  let a := x.join = 3
  let v (n : Nat) : Nat := if a then n else 0
  [mkWord [(0, 3, x.join), (3, 6, v x.leafNo), (9, 1, v (bitOf x.burst)), (10, 20, v x.eqd), (30, 11, v x.slotBase),
           (41, 11, v x.slotCount)],
   mkWord [(0, 16, v x.dedMask.toNat)], mkWord [(0, 32, x.gmLost.toNat), (32, 32, x.recDrop.toNat)],
   mkWord [(0, 32, x.burstsTx.toNat)]]

def execLeafStatus (id : Nat) (s : State) : Out :=
  withMode s id 0x1506 .leaf fun f c => s.answer f (s.chan c).pm.statusWords

/-- Joining is enabled with a serial, or disabled, which ends an assignment. -/
def execLeafJoin (id : Nat) (s : State) : Out :=
  withMode s id 0x1507 .leaf fun f c =>
    let on := f.desc.p0.bit 0
    if on && f.desc.p1 = 0 then s.finish f 0x01
    else
      (s.onPm c fun x => if on then
          { x with joining := true, serial := f.desc.p1, join := if x.join = 0 || x.serial ≠ f.desc.p1 then 1 else x.join }
        else { x with joining := false, join := 0, silent := true, maps := [], adopt := none }).finish f 0

end Sys2Proof.Machine
end

