-- ==== Sys2Proof/Machine/Receiver.lean ====
section
/-! DEFINITION. The receiver's states, searches, losses and subcarrier locks, the dispersion window, and the receiver's
commands (11 R257 to R275; 15 R371). -/

namespace Sys2Proof.Machine

def State.onRx (s : State) (c : Nat) (g : Receiver → Receiver) : State := s.onChan c fun ch => { ch with rx := g ch.rx }

def RxState.code : RxState → Nat
  | .notUp => 0 | .noSignal => 1 | .calibration => 2 | .search => 3 | .carrier => 4 | .pilotLock => 5 | .tracking => 6

/-- States 4 to 6, in which causes 2, 3 and 5 apply; states 2 to 6, in which cause 1 does. -/
def RxState.acquiring : RxState → Bool
  | .carrier | .pilotLock | .tracking => true
  | _ => false
def RxState.lit (x : RxState) : Bool := x.acquiring || x = .calibration || x = .search

/-- The group that channel c belongs to looks at its windows afresh. -/
def State.lookGroup (s : State) (c : Nat) (cause : Option Nat := none) : State :=
  match s.groupOf c with | some g => s.groupWindow g cause | none => s

/-! ### Moving between states (R257, R258, R267) -/

/-- States in which the search that follows the bring-up has begun. -/
def RxState.searched (x : RxState) : Bool := x.acquiring || x = .search

/-- The mean clock offset over the last second in state 6, or over its time there when that is shorter: none when the multiframes
reported do not cover it (14 R347). -/
def Receiver.meanClk (x : Receiver) (now : Nat) : Option Rat :=
  let vs := x.clks.filter fun p => now < p.1 + 1000000000
  if vs.isEmpty || 2048000 * (vs.length + 2) < min 1000000000 (now - x.stateNs) then none
  else some (((vs.map (·.2)).sum : Rat) / (vs.length : Int))

/-- The clock offset that channel c holds once its receiver is in state x; a free value where it leaves state 6 and no row has
brought the mean (DESIGN CHOICE, log 150). -/
def State.heldMean (s : State) (c : Nat) (x : RxState) : Rat :=
  let y := (s.chan c).rx
  if y.state = .tracking && x ≠ .tracking then (y.meanClk s.now).getD (signed 32 (s.freeVal 50 32)) else y.heldClk

/-- The receiver enters a state, or begins another search in state 3: its limit runs anew. -/
def State.rxEnter (s : State) (c : Nat) (x : RxState) : State :=
  (s.onRx c fun y => { y with heldClk := s.heldMean c x
                              state := x, stateNs := if y.state = x then y.stateNs else s.now, limitNs := s.now
                              clks := if x = .tracking && y.state ≠ .tracking then [] else y.clks
                              skipCal := y.skipCal && x = .noSignal
                              blindFailed := y.blindFailed && x = .search
                              blindDue := if x = .search then y.blindDue else none }).draw

/-- The searches of R267 in their order. On the search after a bring-up CD_BLIND 1 searches blind first, CD_BLIND 0 tries
CD_HINT. -/
def Channel.searchList (ch : Channel) : List (Option Int) :=
  let x := ch.rx
  if x.blindFirst || (x.first && ch.bu.params.cdBlind) then [none]
  else (if x.cdKnown then [some x.cdMeas] else []) ++ (if x.altValid then [some (10 * x.altHint)] else [])
    ++ (if x.first then [some (10 * ch.bu.params.cdHint)] else []) ++ [none]

/-- A search starts with the first hint; repeats of an earlier blind search end. -/
def State.startSearch (s : State) (c : Nat) : State :=
  (s.rxEnter c .search).onRx c fun x => { x with searches := (s.chan c).searchList, blindDue := none }

/-- State 1 or 2 has ended: acquisition is timed from here (R258). -/
def State.acquire (s : State) (c : Nat) : State := (s.onRx c fun x => { x with acqNs := s.now }).startSearch c

/-- The new receive latencies of a window or profile that came into force with the received multiframe in progress take effect
now, since no later multiframe is received before alignment returns (DEDUCED, log 23). -/
def State.endHit (s : State) (c : Nat) : State :=
  if (s.chan c).rx.windowHit.isSome then (s.onRx c fun x => { x with windowHit := none }).restate c false true else s

/-- The hint tried found nothing: the next search, or after the blind one the failure of R264, from which it is repeated every
10 s. Frame alignment that had begun in state 5 goes to Search, since pilot lock has ended (DEDUCED, log 119). -/
def State.nextSearch (s : State) (c : Nat) : State :=
  let s := if (s.chan c).rf.state = .search then s else ((s.enterSearch c).endHit c).lookGroup c
  let x := (s.chan c).rx
  match x.searches.drop 1 with
  | h :: hs => (s.rxEnter c .search).onRx c fun y => { y with searches := h :: hs }
  | [] =>
    let s := if x.blindFailed then s else s.raise c 0x1401 3 (mkWord [(0, 3, 4), (4, 3, x.state.code)])
    (s.rxEnter c .search).onRx c fun y =>
      { y with searches := [], first := false, blindFailed := true, blindDue := some (x.blindDue.getD (s.now + 10000000000)) }

/-- An initial receive run begins state 2 (R288). -/
def State.startRxCal (s : State) (c : Nat) : State :=
  ((s.rxEnter c .calibration).onCal c fun x => { x with rxConverged := 0 }).calStart c false true

/-! ### The dispersion window (R263, R273) -/

/-- New windows in force at once: a failed search is reported anew, a search in progress restarts, and the receive
latencies that depend on the window are restated when `now'`. -/
def State.setWindow (s : State) (c ceil : Nat) (now' : Bool) : State :=
  let s := s.onChan c fun ch => { ch with
    bu := { ch.bu with params := { ch.bu.params with cdCeil := ceil } }, rx := { ch.rx with blindFailed := false } }
  let s := if (s.chan c).rx.state = .search then s.startSearch c else s
  if now' then s.restate c false true else s

/-- Windows that wait come into force, and their commands complete. -/
def State.applyWindows (s : State) (c : Nat) (now' : Bool) : State :=
  let ws := (s.chan c).rx.window
  let s := s.onRx c fun x => { x with window := [] }
  ws.foldl (fun s w => (s.setWindow c w.2 now').finishId w.1 0) s

/-- A received multiframe boundary in state 6: its multiframe m is replaced at the egress, and the new latencies follow
with the multiframe after it. -/
def State.windowBoundary (s : State) (c : Nat) (m : BitVec 32) : State :=
  if (s.chan c).rx.window.isEmpty then s
  else (s.applyWindows c false).onRx c fun x => { x with windowHit := some m }

/-! ### Loss of acquisition (R267, R272) -/

/-- What a leaf does when its receiver leaves tracking: it falls silent (13 R304, R326). -/
def Channel.leafSilent (ch : Channel) : Channel :=
  if ch.pm.mode = .leaf then
    { ch with pm := { ch.pm with silent := true, gmIn := [], adopt := none } }
  else ch

/-- Acquisition is lost for a cause, all consequences together. A window that waited for the next multiframe boundary
applies at once, since the receiver is no longer in state 6 (DEDUCED, log 23). -/
def State.loseAcq (s : State) (c cause : Nat) (by_ : Option Nat := none) : State :=
  let x := (s.chan c).rx
  let s := s.raise c 0x1401 3 (mkWord [(0, 3, cause), (4, 3, x.state.code)]) 0 by_
  let s := s.onChan c fun ch => { ch.leafSilent with
    fec := { ch.fec with uncorrRun := 0 }
    rx := { x with reacq := x.reacq + 1, lastCause := cause, locked := 0, acquired := 0, lostSub := 0
                   cdBefore := if x.cdKnown then some x.cdMeas else x.cdBefore
                   first := x.first && x.state = .calibration }
    cap := { ch.cap with lost := ch.cap.lost || (match ch.cap.armed with | some a => a.trig = 2 | none => false) } }
  let s := s.endHit c
  let s := ((s.enterSearch c by_).searchLeaves c by_).calAbandon c false by_
  let s := s.lookGroup c by_
  let s := if cause = 1 then s.rxEnter c .noSignal else s.startSearch c
  s.applyWindows c true

def execLossOfSignal (c : Fin 32) (codes : List (BitVec 8)) (s : State) : Out :=
  let x := (s.chan c).rx.state
  occurs s (s.converting c && codes.length = 4 && (codes.all fun r => r.toNat ≤ s.losCodeOf c)
      && (x.lit || !(s.conv c).los)) <|
    let s := s.onConv c fun k => { k with los := true }
    if x.lit then s.loseAcq c 1 else s

def execSignalPresent (c : Fin 32) (least : BitVec 8) (s : State) : Out :=
  let x := (s.chan c).rx
  occurs s (s.converting c && s.losCodeOf c + 2 ≤ least.toNat && (x.state = .noSignal || (s.conv c).los)) <|
    let s := s.onConv c fun k => { k with los := false }
    if x.state = .noSignal then (if x.calDone || x.skipCal then s.acquire c else s.startRxCal c) else s

/-- Causes 2, 3 and 5 with the figure that shows them: µs without lock, carrier offset in MHz, clock offset in
0.001 ppm. -/
def lossShown (cause : Nat) (v : Int) : Bool :=
  match cause with
  | 2 => 1000 ≤ v
  | 3 => 3500 < v.natAbs
  | 5 => 50000 < v.natAbs
  | _ => false

def execLossOfAcquisition (c : Fin 32) (cause : Fin 8) (v : Int) (s : State) : Out :=
  occurs s (s.boot.powered && (s.chan c).rx.state.acquiring && lossShown cause v) (s.loseAcq c cause)

/-! ### Limits and advances (R257, R264, R288) -/

/-- The limit of the present state in ns. -/
def Receiver.limit (x : Receiver) : Option Nat :=
  match x.state with
  | .calibration => some 3000000000
  | .search => match x.searches with
    | some _ :: _ => some 100000000
    | none :: _ => some 1850000000
    | [] => none
  | .carrier | .pilotLock => some 40000000
  | _ => none

/-- State 2 ends, whatever its calibration has reached: the search begins. -/
def State.endRxCal (s : State) (c : Nat) : State := (s.onRx c fun x => { x with calDone := true }).acquire c

def execRxStateLimitExpiry (c : Fin 32) (s : State) : Out :=
  occursWith s (if s.boot.powered then (s.chan c).rx.limit else none) fun n =>
    let s := s.at ((s.chan c).rx.limitNs + n)
    if (s.chan c).rx.state = .calibration then (s.calExpired c).endRxCal c
    else (s.onRx c fun x => { x with locked := 0, acquired := 0 }).nextSearch c

def execBlindSearchRepeat (c : Fin 32) (s : State) : Out :=
  occursWith s (if s.boot.powered && (s.chan c).rx.state = .search then (s.chan c).rx.blindDue else none) fun due =>
    let s := s.at due
    (s.rxEnter c .search).onRx c fun x => { x with searches := [none], blindDue := some (due + 10000000000) }

/-- State 6 is reached with dispersion cd: events 0x1402 and, after a step of more than 200 ps/nm, 0x1405. -/
def State.track (s : State) (c : Nat) (cd : Int) : State :=
  let x := (s.chan c).rx
  let s := ((s.rxEnter c .tracking).clockRises c).onRx c fun y =>
    { y with cdMeas := cd, cdKnown := true, cdBefore := none, first := false, searches := [] }
  let s := s.raise c 0x1402 1 (mkWord [(0, 32, (s.now - x.acqNs) / 1000000)]) (BitVec.ofInt 32 cd)
  match x.cdBefore with
  | some b => if 200 < (cd - b).natAbs then s.raise c 0x1405 2 (mkWord [(0, 32, twos 32 b)]) (BitVec.ofInt 32 cd) else s
  | none => s

/-- The present search can find dispersion cd: within ±500 ps/nm of its hint in steps of 10, or anywhere in a blind search
(R257). -/
def Receiver.finds (x : Receiver) (cd : Int) : Bool :=
  match x.searches with
  | some h :: _ => (cd - h).natAbs ≤ 500 && (cd - h) % 10 = 0
  | none :: _ => true
  | [] => false

/-- The work of the present state is done, and where the receiver goes. -/
def State.advance (s : State) (c : Nat) (cd : Int) : Option State :=
  let ch := s.chan c
  match ch.rx.state with
  | .calibration => if 2 ≤ ch.cal.converged false && ch.cal.rxRun.isNone then some (s.endRxCal c) else none
  | .search => if ch.rx.finds cd && cd.natAbs ≤ 100 * ch.bu.params.cdCeil then some (s.rxEnter c .carrier) else none
  | .carrier => some (s.rxEnter c .pilotLock)
  | .pilotLock =>
    if ch.rx.locked ≠ 0 && ch.rx.acquired &&& ch.rxSet.lit = ch.rxSet.lit && cd.natAbs ≤ 100 * ch.bu.params.cdCeil
    then some (s.track c cd) else none
  | _ => none

def execRxStateAdvance (c : Fin 32) (cd : Int) (s : State) : Out :=
  occursWith s (if s.boot.powered then s.advance c cd else none) id

/-! ### Pilot lock and subcarriers (R224, R269 to R271) -/

/-- Pilot lock on a mask of subcarriers, with the parity of the far transmitter's set number: a pending configuration of
that parity comes into force as if announced. -/
def State.pilotLocked (s : State) (c : Nat) (mask : BitVec 16) (odd : Bool) : State :=
  let x := (s.chan c).ld
  let s := s.onRx c fun y => { y with locked := mask &&& (s.chan c).rxSet.lit }
  let s' := s.onLd c fun y => { y with seenOdd := odd }
  if odd == (x.lsnRx.toNat % 2 = 1) then s'
  else match x.pendingRx with
    | some q => s'.lxRxSwitch c q.at_
    | none => s'.indUnexpected c odd

def execPilotLock (c : Fin 32) (mask : BitVec 16) (odd : Bool) (s : State) : Out :=
  let ch := s.chan c
  occurs s (s.boot.powered && ch.rx.state = .pilotLock && ch.rx.locked = 0 && mask &&& ch.rxSet.lit ≠ 0)
    (s.pilotLocked c mask odd)

def subBit (i : Nat) : BitVec 16 := BitVec.ofNat 16 (2 ^ i)

def State.lockEvent (s : State) (c i : Nat) (lost : Bool) : State :=
  s.raise c 0x1403 2 (mkWord [(0, 4, i), (4, 1, bitOf lost)])

def execSubcarrierLockLost (c : Fin 32) (i : Fin 16) (s : State) : Out :=
  let ch := s.chan c
  occurs s (s.boot.powered && (ch.rx.state = .pilotLock || ch.rx.state = .tracking) && ch.rx.locked.getLsbD i)
    ((s.onRx c fun x => { x with locked := x.locked &&& ~~~(subBit i), acquired := x.acquired &&& ~~~(subBit i)
                                 lostSub := x.lostSub ||| subBit i, scLockLoss := x.scLockLoss + 1 }).lockEvent c i true)

/-- A subcarrier without lock goes on trying in state 5, once there is pilot lock, and in state 6 (R271). -/
def execSubcarrierAcquired (c : Fin 32) (i : Fin 16) (s : State) : Out :=
  let ch := s.chan c
  occurs s (s.boot.powered && (ch.rx.state = .tracking || (ch.rx.state = .pilotLock && ch.rx.locked ≠ 0))
      && ch.rxSet.isLit i && !ch.rx.acquired.getLsbD i) <|
    let was := ch.rx.lostSub.getLsbD i
    let s := s.onRx c fun x => { x with locked := x.locked ||| subBit i, acquired := x.acquired ||| subBit i
                                        lostSub := x.lostSub &&& ~~~(subBit i) }
    if was then s.lockEvent c i false else s

/-- Received numbering is known and not in a jump. -/
def RxFrame.counts (x : RxFrame) : Bool := x.numKnown && x.jump.isNone

/-- A received multiframe is in progress: at a hub half a multiframe after the transmitted one, while it tracks. -/
def Channel.inMultiframe (ch : Channel) : Bool :=
  if ch.pm.mode = .hub then ch.rx.state = .tracking else ch.rf.state = .inFrame && ch.rf.counts

/-- An equaliser diverges and re-converges; event 0x1404 comes with the end of the received multiframe in progress, if there
is one. -/
def execEqDiverged (c : Fin 32) (i : Fin 16) (s : State) : Out :=
  let ch := s.chan c
  occurs s (s.boot.powered && (ch.rx.state = .pilotLock || ch.rx.state = .tracking) && ch.rxSet.isLit i)
    (s.onRx c fun x => { x with eqReconv := x.eqReconv + 1, reconvNow := if ch.inMultiframe then x.reconvNow + 1 else x.reconvNow })

/-! ### Commands (R273, R274) -/

def execCdWindow (id : Nat) (s : State) : Out :=
  withCmd s id 0x1403 fun f =>
    let c := f.desc.target
    let ch := s.chan c
    let w := f.desc.p0.bits 9 0
    if 800 < w || w = ch.bu.params.cdCeil then s.finish f 0x01
    else if ch.bu.step ≠ 4 then s.finish f 0x02
    else if s.breaks c ch.fec.rxOffshore w then s.finish f 0x03
    else if ch.rx.state = .tracking && 100 * w < ch.rx.cdMeas.natAbs then s.finish f 0x26
    else if ch.rx.state = .tracking then
      (s.onRx c fun x => { x with window := x.window ++ [(f.id, w)] }).run f
    else (s.setWindow c w true).finish f 0

def execAcqConfig (id : Nat) (s : State) : Out :=
  withCmd s id 0x1405 fun f =>
    let p := f.desc.p0
    let hint := signed 16 (p.bits 31 16)
    if 10 * (s.chan f.desc.target).bu.params.cdCeil < hint.natAbs then s.finish f 0x01
    else
      (s.onRx f.desc.target fun x => { x with blindFirst := p.bit 0, altValid := p.bit 1, altHint := hint }).finish f 0

def Channel.statusWords (ch : Channel) (now : Nat) : List Word :=
  let from_ := if ch.bu.step = 4 then ch.rx.stateNs else ch.bu.stepNs
  [mkWord [(0, 3, ch.bu.step), (3, 1, bitOf ch.bu.stopped), (4, 3, ch.rx.state.code),
           (8, 3, match ch.pw.level with | .spring => 0 | .mean => 1 | .neap => 2 | .slack => 3 | .dark => 4),
           (11, 1, bitOf ch.fec.txOffshore), (12, 6, ch.bu.params.rate), (18, 10, ch.bu.params.freqIdx),
           (28, 10, ch.bu.params.cdCeil)],
   mkWord [(0, 32, satAt 4294967295 ((now - from_) / 1000000)), (32, 3, ch.rx.lastCause)]]

def execChanStatus (id : Nat) (s : State) : Out :=
  withCmd s id 0x1401 fun f => s.answer f ((s.chan f.desc.target).statusWords s.now)

def Channel.dspWords (ch : Channel) : List Word :=
  let x := ch.rx
  [mkWord [(0, 32, twos 32 x.cdMeas), (32, 32, 100 * ch.bu.params.cdCeil)],
   mkWord [(0, 32, twos 32 x.freqOfs), (32, 32, twos 32 x.clkOfs)],
   mkWord [(0, 32, x.cycleSlip.toNat), (32, 32, x.eqReconv.toNat)],
   mkWord [(0, 16, x.reacq.toNat), (16, 16, x.scLockLoss.toNat), (32, 32, x.mfc.toNat)]] ++
  (List.range 16).map fun i =>
    let g := x.figures.get {} i
    mkWord [(0, 12, g.dgd), (12, 8, g.pdl), (20, 16, g.sop), (36, 12, g.evm), (48, 1, bitOf (x.locked.getLsbD i)),
            (49, 1, bitOf (x.acquired.getLsbD i))]

def execDspStatus (id : Nat) (s : State) : Out :=
  withCmd s id 0x1402 fun f => s.answer f (s.chan f.desc.target).dspWords

end Sys2Proof.Machine
end

