-- ==== Sys2Proof/Machine/Optics.lean ====
section
/-! DEFINITION. Emergency shutdown of the transmit output, its restoration, and raw capture (12 R293 to R300). -/

namespace Sys2Proof.Machine

/-- T_cp, in 0.1 °C: the highest of the base plate's four points (22 R474). -/
def coldPlate (p : Plate) : Int := max (max p.t4 p.t5) (max p.t6 p.t7)

def State.onOpt (s : State) (c : Nat) (g : Optics → Optics) : State := s.onChan c fun ch => { ch with opt := g ch.opt }
def State.onCap (s : State) (c : Nat) (g : Capture → Capture) : State := s.onChan c fun ch => { ch with cap := g ch.cap }

/-! ### Shutdown (R293, R294) -/

def causeBit (k : Nat) : BitVec 6 := BitVec.ofNat 6 (2 ^ (k - 1))

/-- Cause k begins on a channel, whatever its state: event 0x14C1, for causes 1 and 2 as a consequence of the common
section. -/
def State.shutEvent (s : State) (c k : Nat) : State :=
  (s.onOpt c fun x => { x with raised := x.raised ||| causeBit k, shutdowns := x.shutdowns + 1 }).raise c 0x14C1 4
    (mkWord [(0, 3, k), (3, 1, bitOf (k = 4))]) 0 (if k ≤ 2 then some 32 else none)

/-- A channel's cause 3, 5 or 6 latches. -/
def State.latchCause (s : State) (c k : Nat) : State :=
  if (s.chan c).opt.latched.getLsbD (k - 1) then s
  else (s.onOpt c fun x => { x with latched := x.latched ||| causeBit k }).shutEvent c k

/-- The output opens once nothing blanks it and frames are sent into it: event 0x14C2. -/
def State.openOutput (s : State) (c : Nat) : State :=
  let ch := s.chan c
  if ch.awake && !s.blanked c && ch.opt.raised ≠ 0 then
    (s.onOpt c fun x => { x with raised := 0 }).raise c 0x14C2 1 (mkWord [(0, 6, ch.opt.raised.toNat)])
  else s

/-- The optical parts run: the laser is on. -/
def State.lasing (s : State) (c : Nat) : Bool := s.boot.powered && (s.chan c).opt.laserOn

/-- 10^(2^j / 1000) for j from 0 to 13, to the nearest in units of 10^-12. -/
def powerSteps : List Nat :=
  [1002305238078, 1004615790278, 1009252886077, 1018591388054, 1037528415818, 1076465213630, 1158777356155,
   1342764961138, 1803017740860, 3250872973854, 10568175092137, 111686324778056, 12473835142429430, 155596563160507441012]

/-- 10^(k / 1000) in units of 10^-12, each product rounded down: a power in mW that lies k hundredths of a dB above 0 dBm. -/
def powerOf (k : Nat) : Nat :=
  powerSteps.zipIdx.foldl (fun x p => if k.testBit p.2 then x * p.1 / 1000000000000 else x) 1000000000000

/-- A reading of the output tap lies more than 3 dB above the expected output, the sum over the subcarriers that are lit; in
hundredths of a dB above −80 dBm (15 R370; 11 R261; the expected output is DEDUCED, log 148). -/
def Channel.tapHigh (ch : Channel) (code : BitVec 8) : Bool :=
  (((List.range 16).filter ch.ld.tx.isLit).map fun i => powerOf ((ch.bu.carrier i).power + 8300).toNat).sum < powerOf (25 * code.toNat + 4000)

/-- Cause 3: two consecutive readings above the expected output plus 3 dB. -/
def execOutputPowerHigh (x : TapIn) (s : State) : Out :=
  let ch := s.chan x.chan
  occurs s (s.lasing x.chan && !ch.opt.latched.getLsbD 2 && ch.tapHigh x.first && ch.tapHigh x.second) (s.latchCause x.chan 3)

/-- The locker error in units of 10 MHz, held for 1 ms; the channel keeper applies cause 6, once it runs (22 R479). -/
def execLockerError (c : Fin 32) (locker : Int) (s : State) : Out :=
  occurs s (s.lasing c && !(s.chan c).keeperDown && 250 < locker.natAbs && !(s.chan c).opt.latched.getLsbD 5) (s.latchCause c 6)

/-- The channel stops at a bring-up step: the output stays dark, and the receiver does nothing (11 R256). Frames that were being
generated go on, and the host frames with them (R293; 05 R100). -/
def State.stopChannel (s : State) (c step : Nat) : State :=
  let s := s.onChan c fun ch => { ch with
    bu := { ch.bu with step := step, stopped := true, stepNs := if ch.bu.step = step then ch.bu.stepNs else s.now, cmd := none }
    opt := { ch.opt with shutter := true }
    rx := { ch.rx with state := .notUp, stateNs := s.now, limitNs := s.now, searches := [], blindDue := none, locked := 0, acquired := 0 } }
  (s.calAbandon c true).calAbandon c false

/-- Cause 4: the laser goes off, the receiver loses acquisition, and the channel stops at step 2; a bring-up in progress
ends there. -/
def State.laserTrip (s : State) (c : Nat) : State :=
  let cmd := (s.chan c).bu.cmd
  let s := (s.onOpt c fun x => { x with laserOn := false }).latchCause c 4
  let s := if (s.chan c).rx.state.acquiring then s.loseAcq c 2 else s
  (s.stopChannel c 2).finishOpt cmd 0x05 (some 2)

/-- A reading of the laser drive current above the channel's factory limit. -/
def execLaserCurrentHigh (x : DriveIn) (s : State) : Out :=
  occurs s (s.lasing x.chan && (Config.laserLimit x.chan).val < x.code.toNat) (s.laserTrip x.chan)

/-! ### LASER_BLANK, LASER_RESTORE, OPTICS_STATUS (R293, R295, R299) -/

/-- The channel keeper applies cause 5, and ends the latched causes: the command waits while it restarts (22 R479). -/
def execLaserBlank (id : Nat) (s : State) : Out :=
  withCmdIf s id 0x14C6 (fun d => !(s.chan d.target).keeperDown) fun f => (s.latchCause f.desc.target 5).finish f 0

/-- LASER_RESTORE, with the latest two readings of the output tap and the locker error in 10 MHz. -/
def execLaserRestore (id : Nat) (tap : BitVec 8 × BitVec 8) (locker : Int) (s : State) : Out :=
  withCmdIf s id 0x14C7 (fun d => !(s.chan d.target).keeperDown) fun f =>
    let c := f.desc.target
    let l := (s.chan c).opt.latched
    if !(s.chan c).awake then s.finish f 0x02
    else if (s.causes c).toNat % 4 ≠ 0 || (l.getLsbD 2 && (s.chan c).tapHigh tap.1 && (s.chan c).tapHigh tap.2) || (l.getLsbD 5 && 150 < locker.natAbs) then
      s.finish f 0x27
    else ((s.onOpt c fun x => { x with latched := x.latched &&& 0b001000#6 }).openOutput c).finish f 0

/-- OPTICS_STATUS with the measured locker error, powers and laser current. -/
def execOpticsStatus (id : Nat) (locker txOut rxIn : Int) (current : Nat) (s : State) : Out :=
  withCmd s id 0x14C4 fun f =>
    let c := f.desc.target
    let x := (s.chan c).opt
    s.answer f [mkWord [(0, 16, twos 16 locker), (16, 16, twos 16 txOut), (32, 16, twos 16 rxIn)],
                mkWord [(0, 6, (s.causes c).toNat), (6, 1, bitOf (s.blanked c)), (7, 1, bitOf x.laserOn),
                        (32, 32, x.shutdowns.toNat)],
                mkWord [(0, 16, current)], 0]

/-! ### Raw capture (R296 to R298) -/

def CapArm.ofDesc (f : Flight) : CapArm :=
  let p := f.desc.p0
  { link := f.link, ring := p.bits 15 0, source := p.bits 17 16, point := p.bit 18, trig := p.bits 20 19
    subc := p.bits 24 21, len := p.bits 40 26, mfc := BitVec.ofNat 32 (f.desc.p1.bits 31 0) }

/-- The fields are legal, and the ring is a capture ring of the target's block that the issuing link has enabled. -/
def State.capOk (s : State) (f : Flight) (a : CapArm) : Bool :=
  let r := s.ring a.ring
  r.en && r.kind = .capture && r.owner = f.link && ringBlock a.ring = f.desc.target
    && 0 < a.len && a.len ≤ 24576 && a.source ≠ 3 && a.trig ≠ 3

/-- Instants, or symbols, in a 64-byte block (R297). -/
def CapArm.perBlock (a : CapArm) : Nat := if a.source = 2 then 8 else 16

/-- A 64-byte block: the bytes of each converter in turn, or the components of each symbol in turn, 16 bits each. -/
def CapArm.block (a : CapArm) (gs : List (List Int)) : List Byte :=
  if a.source = 2 then gs.flatMap fun g => (List.range 4).flatMap fun k => leBytes 2 (twos 16 (g.getD k 0))
  else (List.range 4).flatMap fun k => gs.map fun g => BitVec.ofNat 8 (twos 8 (g.getD k 0))

/-- The last n of a list, with d before them where it is shorter; the first n, with d after them. -/
def lastN {α : Type} (n : Nat) (d : α) (xs : List α) : List α := List.replicate (n - xs.length) d ++ xs.drop (xs.length - n)
def firstN {α : Type} (n : Nat) (d : α) (xs : List α) : List α := xs.take n ++ List.replicate (n - xs.length) d

/-- The LEN blocks of a capture: from its trigger on, or with TRIG 2 up to LEN / 2 blocks, rounded down, after the loss of
acquisition (R297). Instants for which no sample is brought read 0 (DESIGN CHOICE, log 25). -/
def CapArm.data (a : CapArm) (x : CapSample) : List Byte :=
  let after := if a.trig = 2 then a.len / 2 else a.len
  let gs := lastN ((a.len - after) * a.perBlock) [] x.pre ++ firstN (after * a.perBlock) [] x.post
  (List.range a.len).flatMap fun k => a.block ((gs.drop (k * a.perBlock)).take a.perBlock)

/-- The capture is taken: numbers of the first sample when they are valid, its offset in the frame period, and the data.
Captures are numbered from 0 (DESIGN CHOICE, log 25) and lie at the start of the capture area (DESIGN CHOICE, log 141). -/
def State.takeCapture (s : State) (c : Nat) (a : CapArm) (x : CapSample) : State :=
  let k := (s.chan c).cap.capId
  let (m, n) := x.num.getD (0, 0)
  let d : CapData := { arm := a, numValid := x.num.isSome, mfc := m, frame := n.toNat, ofs := x.ofs, total := 64 * a.len
                       data := a.data x }
  ((s.onCap c fun y => { y with armed := none, lost := false, taken := some d, capId := k + 1 }).rewrite c (captureBase c) d.total).raise
    c 0x14C3 1
    (mkWord [(0, 16, k.toNat), (16, 32, m.toNat), (48, 8, n.toNat)])

/-- The numbers that the frame now sent or received carries, in the direction a source belongs to; a hub's receive multiframe begins
half a transmit multiframe after it (13 R306). -/
def Channel.capNum (ch : Channel) (source : Nat) : Option (BitVec 32 × BitVec 8) :=
  if source = 1 then
    (if ch.tf.sending then ch.tf.lastOh.map fun ws => (BitVec.ofNat 32 ((wd ws 2).bits 39 8), BitVec.ofNat 8 ((wd ws 2).bits 7 0))
     else none)
  else if ch.pm.mode = .hub then
    (if ch.awake then some (ch.rxMfNow, BitVec.ofNat 8 (ch.tf.frame + 128)) else none)
  else if ch.rf.numKnown then some (ch.rf.mfc, BitVec.ofNat 8 ch.rf.frame) else none

/-- CAPTURE_ARM; with TRIG 0 the capture is taken at once, and x holds its samples. -/
def execCaptureArm (id : Nat) (x : CapSample) (s : State) : Out :=
  withCmdIf s id 0x14C5 (fun d => !d.p0.bit 25) fun f =>
    let c := f.desc.target
    let a := CapArm.ofDesc f
    let y := (s.chan c).cap
    if !s.capOk f a then s.finish f 0x01
    else if y.armed.isSome || y.taken.isSome then s.finish f 0x02
    else if a.trig = 0 then (s.takeCapture c a { x with num := (s.chan c).capNum a.source }).finish f 0
    else (s.onCap c fun y => { y with armed := some a, lost := false }).finish f 0

def execCaptureDisarm (id : Nat) (s : State) : Out :=
  withCmdIf s id 0x14C5 (fun d => d.p0.bit 25) fun f =>
    (s.onCap f.desc.target fun y => { y with armed := none, lost := false, taken := none }).finish f 0

/-- The trigger of an armed capture has occurred: received frame 0 of TRIG_MFC, or a loss of acquisition since. -/
def Channel.triggered (ch : Channel) : Option CapArm :=
  ch.cap.armed.filter fun a =>
    (a.trig = 1 && ch.capNum 0 = some (a.mfc, 0)) || (a.trig = 2 && ch.cap.lost)

def execCaptureTaken (c : Fin 32) (x : CapSample) (s : State) : Out :=
  occursWith s (if s.boot.powered then (s.chan c).triggered else none) fun a =>
    s.takeCapture c a (if a.trig = 2 then x
      else if a.source = 1 then { x with num := (s.chan c).capNum 1 }
      else { x with num := some (a.mfc, 0), ofs := 0 })

def CapData.header (d : CapData) (id : BitVec 16) (rate : Nat) : List Word :=
  [mkWord [(0, 16, id.toNat), (16, 2, d.arm.source), (18, 1, bitOf d.arm.point), (19, 1, bitOf d.numValid)],
   BitVec.ofNat 64 d.sent, mkWord [(0, 32, d.total), (32, 32, d.mfc.toNat)],
   mkWord [(0, 8, d.frame), (8, 24, d.ofs), (32, 4, d.arm.subc), (36, 6, rate)], 0, 0, 0, 0]

/-- The oldest buffer posted on the capture ring takes a header and as many whole blocks as fit; one that is too short
takes nothing. -/
def State.fillCapture (s : State) (c : Nat) (d : CapData) (f : Flight) : State :=
  let s := s.onRing d.arm.ring fun x => { x with posted := x.posted.drop 1 }
  if f.desc.bufLen < 128 then s.finish f 0x01
  else
    let ch := s.chan c
    let n := min (64 * ((f.desc.bufLen - 64) / 64)) (d.total - d.sent)
    let head := wordsBytes (d.header (ch.cap.capId - 1) ch.bu.params.rate)
    s.dmaRead f c (captureBase c + d.sent) n [] fun s =>
      let s := s.writeBuf f 0 (head ++ (d.data.drop d.sent).take n)
      let s := s.onCap c fun y => { y with taken := if d.sent + n < d.total then some { d with sent := d.sent + n } else none }
      s.finish f 0 (some (64 + n))

def execCaptureBufferFill (c : Fin 32) (s : State) : Out :=
  occursWith s ((s.chan c).cap.taken.bind fun d =>
      (((s.ring d.arm.ring).posted.head?).bind s.flight?).map (d, ·))
    fun q => if s.boot.powered then s.fillCapture c q.1 q.2 else s

end Sys2Proof.Machine
end

