-- ==== Sys2Proof/Machine/Bringup.lean ====
section
/-! DEFINITION. Bringing a channel up and its transmit shape (11 R253 to R256, R261, R262; 06 R124, R498; 07 R150;
12 R278, R287). -/

namespace Sys2Proof.Machine

def State.onBu (s : State) (c : Nat) (g : Bringup → Bringup) : State := s.onChan c fun ch => { ch with bu := g ch.bu }
def State.onPw (s : State) (c : Nat) (g : Power → Power) : State := s.onChan c fun ch => { ch with pw := g ch.pw }

def Level.ofCode : Nat → Level
  | 0 => .spring | 1 => .mean | 2 => .neap | 3 => .slack | _ => .dark
def Level.code : Level → Nat
  | .spring => 0 | .mean => 1 | .neap => 2 | .slack => 3 | .dark => 4

/-! ### Parameters and checks (R253, R254) -/

def BringupParams.ofDesc (d : Desc) (ws : List Word) : BringupParams :=
  let p := d.p0
  let q := d.p1
  { rate := p.bits 5 0, offshore := p.bit 6, level := Level.ofCode (p.bits 9 7), cdBlind := p.bit 10, bankB := p.bit 11
    freqIdx := p.bits 25 16, cdCeil := q.bits 9 0, cdHint := signed 16 (q.bits 31 16), txPower := signed 16 (q.bits 47 32)
    txSet := LoadSet.ofWords ws, rxSet := LoadSet.ofWords (ws.drop 8) }

/-- Launch power range in 0.1 dBm (23 R484). -/
def powerOk (p : Int) : Bool := -120 ≤ p && p ≤ 30

/-- Step 1 of R254. A bring-up installs its sets on a channel that has none, so R224 leaves nothing to check
(DEDUCED, log 26). -/
def BringupParams.ok (p : BringupParams) (ws : List Word) : Bool :=
  16 ≤ p.rate && p.rate ≤ 32 && p.level.carries && p.freqIdx ≤ 800 && p.cdCeil ≤ 800 && powerOk p.txPower
    && (p.cdBlind || p.cdHint.natAbs ≤ 10 * p.cdCeil)
    && setValid ws && setValid (ws.drop 8) && requestClear ws && p.txSet.ok && p.rxSet.ok

/-- The first status of R254 that applies, and then that of a stated latency that the bring-up would change for a tributary
that is not released (02 R26; DEDUCED, log 90); 0: none. -/
def State.bringupStatus (s : State) (c : Nat) (p : BringupParams) (ws : List Word) : Nat :=
  let ch := s.chan c
  let with' : Channel := { ch with bu := { ch.bu with params := p } }
  if !p.ok ws then 0x01
  else if ch.bu.step ≠ 0 && !ch.bu.stopped then 0x02
  else if !p.txSet.fits p.rate p.level || !p.rxSet.fits p.rate p.level then 0x25
  else if !with'.slotsFit true p.txSet p.offshore || !with'.slotsFit false p.rxSet p.offshore then 0x24
  else if s.breaks c p.offshore p.cdCeil then 0x03
  else 0

/-! ### Steps (R255, R256) -/

/-- Lanes that are not Active leave for it in step 1 (19 R433). -/
def Channel.wakeLanes (ch : Channel) : Channel :=
  { ch with kp := { ch.kp with lanes := (List.range 4).map fun p =>
      let l := ch.kp.lanes.get {} p
      (p, { l with want := if l.state = .active then none else some .active }) } }

/-- A step starts, with event 0x1400: the laser runs from step 2 on, and step 3 begins with the response run. -/
def State.startStep (s : State) (c k : Nat) : State :=
  let s := s.onChan c fun ch => { ch with
    bu := { ch.bu with step := k, stopped := false, stepNs := s.now }, opt := { ch.opt with laserOn := 2 ≤ k, shutter := true } }
  let s := s.raise c 0x1400 1 (mkWord [(0, 3, k)])
  let s := if k = 1 then s.onChan c Channel.wakeLanes else s
  if k = 3 then s.startTxCal c else s

/-- The first step that is incomplete or whose inputs have changed. -/
def Bringup.resumeStep (b : Bringup) (p : BringupParams) : Nat :=
  if b.step = 0 then 1
  else if p.level ≠ b.params.level then 1
  else if p.freqIdx ≠ b.params.freqIdx then min b.step 2
  else b.step

/-- What a bring-up does at its start besides its first step: key slots erased, the channel disarmed, shutdown cause 4
ended, and the parameters taken; frames end until step 4 begins with frame 0 (06 R124). -/
def Channel.beginBringup (ch : Channel) (id now : Nat) (p : BringupParams) (ver : Option (BitVec 32)) : Channel :=
  { ch.eraseKeys with
    keeperVer := ver
    bu := { ch.bu with params := p, cmd := some id, startNs := now, shapes := [] }
    tf := { ch.tf with sending := false }
    ld := { ch.ld with tx := p.txSet, rx := p.rxSet, lsnTx := 0, lsnRx := 0, pendingRx := none, proposal := none
                       agreement := none, reject := none, tail := none, seenOdd := false, history := [] }
    fec := { ch.fec with txOffshore := p.offshore, rxOffshore := p.offshore }
    opt := { ch.opt with latched := ch.opt.latched &&& 0b110111#6 } }

/-- CHAN_BRINGUP: after a thermal shutdown it is refused while T_cp stays above 50.0 °C (22 R477). -/
def execChanBringup (id : Nat) (ws : List Word) (plate : Plate) (s : State) : Out :=
  withCmd s id 0x1400 fun f =>
    let s : State := { s with boot := { s.boot with hot := s.boot.hot && 500 < coldPlate plate } }
    let c := f.desc.target
    let p := BringupParams.ofDesc f.desc ws
    let st := s.bringupStatus c p ws
    if s.boot.hot then s.finish f 0x02
    else if st ≠ 0 then s.finish f st
    else
      let k := (s.chan c).bu.resumeStep p
      ((((s.lxStop c).onChan c fun ch => ch.beginBringup f.id s.now p s.sec.runningVer).disarm c).startStep c k).run f

/-- Step 1 has raised the channel to its level; out of Dark every word of its SRAM is written (17 R388). When it was Dark, its converter starts a new pass; between levels that
carry traffic the converter runs on untouched (15 R372). -/
def State.powerUp (s : State) (c : Nat) : State :=
  let was := (s.chan c).pw.level
  let s := s.onPw c fun x => { x with level := (s.chan c).bu.params.level, transit := .none }
  let s := if was = .dark then s.onSram c fun m => { m with bad := [], visitNs := s.now } else s
  if was.carries then s else s.onConv c fun k => k.restart s.now

/-- Frame 0 of multiframe 0 with every key slot empty, the receiver in state 1, and everything that is at its value after bring-up.
A leaf keeps
silent upstream until it is assigned (13 R304). -/
def Channel.goUp (ch : Channel) (now : Nat) : Channel :=
  { ch.eraseKeys with
    bu := { ch.bu with cmd := none, offsets := List.replicate 16 0 }
    opt := { ch.opt with shutter := false }
    sl := { ch.sl with activeB := ch.bu.params.bankB, switching := none, ratesDue := [] }
    tf := { ch.tf with sending := true, mfc := 0, frame := 0, starts := [(0, now)], carried := [], lastOh := none, current := none
                       latencyDue := true, latencyMf := 0 }
    rf := { ch.rf.restart with lastOh := none }
    fec := { ch.fec with uncorrRun := 0, sums := [] }
    rx := { ch.rx with state := .noSignal, stateNs := now, limitNs := now, calDone := false, skipCal := false, searches := [], first := true, cdKnown := false
                       cdBefore := none, blindFailed := false, blindDue := none, blindFirst := false, altValid := false
                       altHint := 0, locked := 0, acquired := 0, lostSub := 0, window := [], windowHit := none }
    cal := { ch.cal with rxTrack := true, txTrack := true, rxInt := 60, txInt := 120, rxNext := now + 60000000000
                         txNext := now + 120000000000, rxMixed := none, txMixed := false, rxDue := false, txDue := false, appliedUp := false }
    age := { ch.age with minute := ch.freshMinute }
    pm := { ch.pm with silent := true, gmIn := [], gm := [], maps := [], adopt := none, ready := []
                       recDrop := ch.pm.recDrop + BitVec.ofNat 32 (ch.pm.ready.filter (·.limited)).length } }

/-- Step 4: the channel is Up, stated latencies follow its new profile and window, and the output opens unless blanked. -/
def State.goUp (s : State) (c : Nat) : State :=
  let cmd := (s.chan c).bu.cmd
  let ms := (s.now - (s.chan c).bu.startNs) / 1000000
  let s := s.onChan c fun ch => ch.goUp s.now
  let s := s.refreshSlots c
  ((s.restate c true true).openOutput c).finishOpt cmd 0 (some 4) (some ms)

/-- The work of the present step is done: the lanes are Active in step 1 (19 R433), the wavelength locker reads at most
±1.5 GHz, in units of 10 MHz, in step 2 (12 R278), and step 3 has two converged transmit runs (12 R287). -/
def Channel.stepReady (ch : Channel) (locker : Int) : Bool :=
  !ch.bu.stopped && 1 ≤ ch.bu.step && ch.bu.step ≤ 3 &&
    (ch.bu.step ≠ 1 || (List.range 4).all fun p => (ch.kp.lanes.get {} p).state = .active) &&
    (ch.bu.step ≠ 2 || locker.natAbs ≤ 150) &&
    (ch.bu.step ≠ 3 || (2 ≤ ch.cal.converged true && ch.cal.txRun.isNone))

def State.stepDone (s : State) (c : Nat) : State :=
  let k := (s.chan c).bu.step
  let s := if k = 1 then s.powerUp c else s
  let s := s.startStep c (k + 1)
  if k = 3 then s.goUp c else s

/-- Steps are the channel keeper's work. -/
def execBringupStepDone (x : StepIn) (s : State) : Out :=
  let ch := s.chan x.chan
  occurs s (s.boot.powered && ch.stepReady x.locker && ch.pw.transit = .none && !ch.keeperDown) (s.stepDone x.chan)

/-- Limits of the steps in ns (R255). -/
def stepLimit : Nat → Nat
  | 1 => 100000000 | 2 => 8000000000 | _ => 1000000000

/-- A bring-up ends with 0x05, stopped where it stands (R256). -/
def State.bringupStops (s : State) (c : Nat) : State :=
  let cmd := (s.chan c).bu.cmd
  let k := (s.chan c).bu.step
  let ms := (s.now - (s.chan c).bu.startNs) / 1000000
  (s.stopChannel c k).finishOpt cmd 0x05 (some k) (some ms)

def execBringupStepLimitExpiry (c : Fin 32) (s : State) : Out :=
  let b := (s.chan c).bu
  occurs s (s.boot.powered && !b.stopped && 1 ≤ b.step && b.step ≤ 3 && (s.chan c).pw.transit = .none)
    ((s.at (b.stepNs + stepLimit b.step)).bringupStops c)

/-! ### TX_SHAPE (R262, R274) -/

/-- OFS_i of a TX_SHAPE. -/
def Desc.offsets (d : Desc) : List Int :=
  (List.range 16).map fun i =>
    let w := if i < 8 then d.p1 else d.p2
    signed 6 (w.bits (6 * (i % 8) + 5) (6 * (i % 8)))

def execTxShape (id : Nat) (s : State) : Out :=
  withCmd s id 0x1404 fun f =>
    let p := signed 16 (f.desc.p0.bits 15 0)
    if !powerOk p || f.desc.offsets.any fun o => 30 < o.natAbs then s.finish f 0x01
    else if !(s.chan f.desc.target).awake then s.finish f 0x02
    else (s.onBu f.desc.target fun b => { b with shapes := b.shapes ++ [(f.id, p, f.desc.offsets)] }).run f

/-- The shapes that waited for a transmit multiframe boundary take effect in their order. -/
def State.shapeBoundary (s : State) (c : Nat) : State :=
  let ws := (s.chan c).bu.shapes
  let s := s.onBu c fun b => { b with shapes := [] }
  ws.foldl (fun s w => (s.onBu c fun b =>
    { b with params := { b.params with txPower := w.2.1 }, offsets := w.2.2 }).finishId w.1 0) s

end Sys2Proof.Machine
end

