-- ==== Sys2Proof/Machine/Decoding.lean ====
section
/-! DEFINITION. From received bits to the words of a frame: collecting the streams (09 R203, R204), BCH decoding, the Harbour
decoder (R205 to R208), the outer decoder of Offshore (R209 to R211), and the rows of bursts (13 R319). -/

namespace Sys2Proof.Machine

/-! ### Finite fields -/

/-- GF(2^m): m, and the primitive polynomial without its top term. -/
structure Field where
  m : Nat
  poly : Nat
  deriving DecidableEq, Repr

/-- The field of the Harbour component code, over x¹⁰ + x³ + 1 (R205). -/
def harbourField : Field := { m := 10, poly := 0x9 }
/-- The field of the Offshore outer code, over x¹⁶ + x¹² + x³ + x + 1 (R209). -/
def offshoreField : Field := { m := 16, poly := 0x100B }

/-- An element times α. -/
def Field.shift (f : Field) (a : Nat) : Nat := (2 * a % 2 ^ f.m) ^^^ (if a.testBit (f.m - 1) then f.poly else 0)

def Field.mul (f : Field) (a b : Nat) : Nat :=
  (List.range f.m).foldl (fun r k => f.shift r ^^^ (if b.testBit (f.m - 1 - k) then a else 0)) 0

/-- α to a power below 2^m. -/
def Field.alpha (f : Field) (e : Nat) : Nat :=
  (List.range f.m).foldl (fun r k => let q := f.mul r r; if e.testBit (f.m - 1 - k) then f.shift q else q) 1

/-- The inverse of an element that is not 0: its power 2^m − 2. -/
def Field.inv (f : Field) (a : Nat) : Nat :=
  ((List.range (f.m - 1)).foldl (fun (x : Nat × Nat) _ => let q := f.mul x.1 x.1; (q, f.mul x.2 q)) (a, 1)).2

/-! ### BCH decoding (R201, R205, R209) -/

/-- c(α^j) of received bits, the coefficient of the highest power first. -/
def Field.syndrome (f : Field) (bits : List Bool) (j : Nat) : Nat :=
  let a := f.alpha j
  bits.foldl (fun r b => f.mul r a ^^^ bitOf b) 0

/-- Syndromes 1 to 2t. -/
def Field.syndromes (f : Field) (t : Nat) (bits : List Bool) : List Nat := (List.range (2 * t)).map fun k => f.syndrome bits (k + 1)

/-- The shortest register that yields the syndromes read so far: its polynomial, that before the last change of length with the
discrepancy there and the steps since, and its length. -/
structure Locator where
  poly : List Nat := [1]
  old : List Nat := [1]
  disc : Nat := 1
  gap : Nat := 1
  len : Nat := 0

/-- The register takes syndrome n. -/
def Field.locate (f : Field) (syn : List Nat) (x : Locator) (n : Nat) : Locator :=
  let d := (List.range (x.len + 1)).foldl (fun r k => r ^^^ f.mul (x.poly.getD k 0) (syn.getD (n - k) 0)) 0
  if d = 0 then { x with gap := x.gap + 1 }
  else
    let k := f.mul d (f.inv x.disc)
    let size := max x.poly.length (x.old.length + x.gap)
    let next := (List.range size).map fun i =>
      x.poly.getD i 0 ^^^ (if x.gap ≤ i then f.mul k (x.old.getD (i - x.gap) 0) else 0)
    if 2 * x.len ≤ n then { poly := next, old := x.poly, disc := d, gap := 1, len := n + 1 - x.len }
    else { x with poly := next, gap := x.gap + 1 }

def Field.eval (f : Field) (p : List Nat) (a : Nat) : Nat := p.foldr (fun c r => f.mul r a ^^^ c) 0

/-- Which of the places that remain hold an error: a is the inverse of the first one's power of α. -/
def Field.errorsAt (f : Field) (p : List Nat) : Nat → List Bool → List Bool
  | _, [] => []
  | a, _ :: bs => (f.eval p a = 0 : Bool) :: f.errorsAt p (f.shift a) bs

/-- The error places of a received word; none when it holds more than t errors or one among the positions dropped by
shortening. -/
def Field.errors (f : Field) (t : Nat) (bits : List Bool) : Option (List Bool) :=
  let syn := f.syndromes t bits
  if syn.all (· = 0) then some (List.replicate bits.length false)
  else
    let x := (List.range (2 * t)).foldl (f.locate syn) {}
    let e := f.errorsAt x.poly (f.inv (f.alpha (bits.length - 1))) bits
    if x.len ≤ t && (e.filter id).length = x.len then some e else none

/-- A received word corrected, with whether a bit changed; none when its decode fails, also by an error where a bit that was not
sent stands (`unsent`). -/
def Field.correct (f : Field) (t : Nat) (unsent bits : List Bool) : Option (List Bool × Bool) :=
  match f.errors t bits with
  | some e => if (List.zipWith and e unsent).any id then none else some (xorBits e bits, e.any id)
  | none => none

/-! ### Units -/

/-- One unit decoded: information bits, whether it is correctable, bits changed to 0 and to 1, whether the outer decoder changed
a bit, and the iterations run. -/
structure Decoded where
  info : List Bool
  ok : Bool
  to0 : Nat
  to1 : Nat
  outer : Bool := false
  iters : Nat := 0

/-- Received ones that are now 0, and zeros that are now 1. -/
def bitChanges (was now : List Bool) : Nat × Nat :=
  let p := List.zip was now
  ((p.filter fun q => q.1 && !q.2).length, (p.filter fun q => !q.1 && q.2).length)

/-! ### Harbour (R206 to R208) -/

/-- Column j of the last info row holds a bit that is not sent. -/
def unsentColumn (p j : Nat) : Bool := 910 ≤ j + p && j < 910

/-- Columns j, j + 1, … of a group of k rows, from the bits as sent; `hole` is the place of the last info row when the group
holds it. -/
def readColumns (k p : Nat) (hole : Option Nat) : Nat → Nat → List Bool → List (List Bool)
  | 0, _, _ => []
  | n + 1, j, bs =>
    match hole.filter fun _ => unsentColumn p j with
    | some h => ((bs.take h) ++ false :: (bs.drop h).take (k - 1 - h)) :: readColumns k p hole n (j + 1) (bs.drop (k - 1))
    | none => bs.take k :: readColumns k p hole n (j + 1) (bs.drop k)

/-- The rows of a block with rb info rows from the bits as sent: groups of 32 rows from row i on. -/
def readBlock (rb p : Nat) : Nat → Nat → List Bool → List (List Bool)
  | 0, _, _ => []
  | n + 1, i, bs =>
    let k := min 32 (rb + 30 - i)
    let hole := if i < rb && rb ≤ i + k then some (rb - 1 - i) else none
    columns k (readColumns k p hole 940 0 bs) ++ readBlock rb p n (i + 32) (bs.drop (940 * k - (if hole.isSome then p else 0)))

def harbourComponent (unsent bits : List Bool) : List Bool := ((harbourField.correct 3 unsent bits).map Prod.fst).getD bits

/-- One iteration: every row, then every column. A component that cannot be decoded stays as it is. -/
def harbourPass (rb p : Nat) (rows : List (List Bool)) : List (List Bool) :=
  let r := rows.zipIdx.map fun q => harbourComponent (if q.2 + 1 = rb then (List.range 940).map (unsentColumn p) else []) q.1
  columns (rb + 30) ((columns 940 r).zipIdx.map fun q =>
    harbourComponent (if unsentColumn p q.2 then (List.range (rb + 30)).map fun i => (i + 1 = rb : Bool) else []) q.1)

/-- Every row and column has syndrome 0. -/
def harbourClean (rows : List (List Bool)) : Bool :=
  (rows ++ columns 940 rows).all fun w => (harbourField.syndromes 3 w).all (· = 0)

def harbourIterate (rb p : Nat) : Nat → List (List Bool) → List (List Bool)
  | 0, rows => rows
  | n + 1, rows => if harbourClean rows then rows else harbourIterate rb p n (harbourPass rb p rows)

/-- A block decoded: at most 6 iterations, and uncorrectable when a syndrome is left. -/
def harbourUnit (rb p : Nat) (bits : List Bool) : Decoded :=
  let rows := readBlock rb p (cdiv (rb + 30) 32) 0 bits
  let r := harbourIterate rb p 6 rows
  let n := bitChanges rows.flatten r.flatten
  { info := ((r.take rb).flatMap fun w => w.take 910).take (910 * rb - p), ok := harbourClean r, to0 := n.1, to1 := n.2 }

/-- The blocks of a frame from its coded bits: `rows` info rows are still to come, of which the last lacks p bits. -/
def harbourUnits (p : Nat) : Nat → Nat → List Bool → List Decoded
  | 0, _, _ => []
  | n + 1, rows, bs =>
    let rb := min 910 rows
    let q := if rows ≤ 910 then p else 0
    let size := 940 * (rb + 30) - q
    harbourUnit rb q (bs.take size) :: harbourUnits p n (rows - rb) (bs.drop size)

/-! ### Offshore (R209 to R211) -/

/-- All 1,600 checks of a codeword are satisfied: the parity part follows from the rest (R210). -/
def ldpcSettled (v : List Bool) : Bool := ldpcParity (v.take 6720) = v.drop 6720

/-- What the soft decoder can give for a codeword: at most 16 iterations, fewer only when the checks are satisfied (R211). -/
def ldpcResult (x : List Bool × Nat) : Bool := x.1.length = 8320 && x.2 ≤ 16 && (x.2 = 16 || ldpcSettled x.1)

/-- A codeword with p bits that are not sent: what the soft decoder gives of it through the outer decoder, against the hard
decisions of the bits received. -/
def offshoreUnit (p : Nat) (bits : List Bool) (x : List Bool × Nat) : Decoded :=
  let received := bits.take (6656 - p) ++ List.replicate p false ++ bits.drop (6656 - p)
  let u := x.1.take 6720
  let r := offshoreField.correct 4 ((List.range 6720).map fun i => 6656 ≤ i + p && i < 6656) u
  let v := (r.map Prod.fst).getD u
  let n := bitChanges received (v ++ x.1.drop 6720)
  { info := v.take (6656 - p), ok := r.isSome, to0 := n.1, to1 := n.2, outer := r.any Prod.snd, iters := x.2 }

def offshoreUnits (p : Nat) : List Bool → List (List Bool × Nat) → List Decoded
  | _, [] => []
  | bs, [x] => [offshoreUnit p bs x]
  | bs, x :: xs => offshoreUnit 0 (bs.take 8320) x :: offshoreUnits p (bs.drop 8320) xs

/-! ### A frame period (R203, R204) -/

/-- One pass over the streams: bits in their order, and what remains of each. -/
def gatherPass : List (Nat × List Bool) → List Bool × List (Nat × List Bool)
  | [] => ([], [])
  | d :: ds =>
    let r := gatherPass ds
    (d.2.take d.1 ++ r.1, (d.1, d.2.drop d.1) :: r.2)

/-- The bits of a frame period in the order in which they were dealt; `fuel` passes cover every loading. -/
def gather : Nat → List (Nat × List Bool) → List Bool
  | 0, _ => []
  | n + 1, ds =>
    if ds.all fun d => d.2.isEmpty then []
    else
      let r := gatherPass ds
      r.1 ++ gather n r.2

/-- The coded frame of a frame period from the bits of its Active streams; the fill after it is discarded by its position. -/
def codedBits (x : LoadSet) (rate : Nat) (offshore : Bool) (slots : Nat) (streams : List (List Bool)) : List Bool :=
  let ds := x.streams.zipIdx.map fun l =>
    let n := streamBits rate (x.code l.1)
    (x.code l.1, padTo n false ((streams.getD l.2 []).take n))
  (gather (7750 * rate) ds).take (codedSize offshore slots)

/-- The units of a frame with s slots, decoded. When the transmitter coded it under the other profile, every unit is
uncorrectable (R199). -/
def decodeUnits (offshore : Bool) (s : Nat) (coded : List Bool) (f : FrameIn) : List Decoded :=
  let i := 131072 + 8064 * s
  let us := if offshore then offshoreUnits (6656 * cdiv i 6656 - i) coded f.codewords
    else harbourUnits (910 * cdiv i 910 - i) (unitCount false s) (cdiv i 910) coded
  if f.offshore == offshore then us else us.map fun u => { u with ok := false }

/-- The soft decoder's results are those of a frame with s slots. -/
def decodable (f : FrameIn) (offshore : Bool) (s : Nat) : Bool :=
  !offshore || (f.codewords.length = unitCount true s && f.codewords.all ldpcResult)

/-- The word whose bits are given, bit 0 first. -/
def bitsWord (bs : List Bool) : Word := BitVec.ofNat 64 (bs.foldr (fun b n => bitOf b + 2 * n) 0)

/-- n words from bits that carry whether they were lost: each with whether one of its bits was. -/
def flaggedWords (n : Nat) (bs : List (Bool × Bool)) : List (Word × Bool) :=
  (pieces 64 n bs).map fun w => (bitsWord (w.map Prod.fst), w.any Prod.snd)

/-- The words of a decoded frame, each with whether it has bits in an uncorrectable unit. -/
def unitWords (s : Nat) (us : List Decoded) : List (Word × Bool) :=
  flaggedWords (2048 + 126 * s) (us.flatMap fun u => u.info.map fun b => (b, !u.ok))

/-! ### Bursts (13 R319) -/

/-- The rows of a burst, each decoded once: its 910 information bits, or none when it is uncorrectable. -/
def rowsDecoded (x : BurstIn) : List (Option (List Bool)) :=
  x.rows.map fun r => (harbourField.correct 3 [] r).map fun q => q.1.take 910

/-- The payload words of a burst, each with whether the rows that hold its bits decoded. -/
def burstWords (x : BurstIn) : List (Word × Bool) :=
  (flaggedWords (910 * x.rows.length / 64) ((rowsDecoded x).flatMap fun r =>
    match r with | some bs => bs.map fun b => (b, false) | none => List.replicate 910 (false, true))).map fun w => (w.1, !w.2)

end Sys2Proof.Machine
end

