-- ==== Sys2Proof/Machine/Kapra.lean ====
section
/-! DEFINITION. Kapra lanes: their states, faults, adaptation and commands, and the ingress host frame (05). -/

namespace Sys2Proof.Machine

def State.onKp (s : State) (c : Nat) (g : Kapra → Kapra) : State := s.onChan c fun ch => { ch with kp := g ch.kp }
def Kapra.lane (x : Kapra) (p : Nat) : Lane := x.lanes.get {} p
def Kapra.setLane (x : Kapra) (p : Nat) (l : Lane) : Kapra := { x with lanes := x.lanes.insert p l }
/-- Lane n is lane position n mod 4 of channel n / 4 (R16). -/
def State.lane (s : State) (n : Nat) : Lane := (s.chan (n / 4)).kp.lane (n % 4)
def State.onLane (s : State) (n : Nat) (g : Lane → Lane) : State :=
  s.onKp (n / 4) fun x => x.setLane (n % 4) (g (x.lane (n % 4)))

def LaneState.ofCode : Nat → LaneState
  | 0 => .active | 1 => .quiet | _ => .deep
def LaneState.code : LaneState → Nat
  | .active => 0 | .quiet => 1 | .deep => 2

/-- The channel carries traffic: all four lanes are Active (R96). -/
def Kapra.carrying (x : Kapra) : Bool := (List.range 4).all fun p => (x.lane p).state = .active

/-! ### Faults (R92, R98) -/

/-- A lane has a fault: its equaliser coefficients are held. A trial in progress is dropped and the set on trial is the one
held, and LOCK_LOSS and ALIGN_LOSS count the causes 2 and 3, not a lock or alignment that falls with another cause
(DEDUCED, log 112). -/
def Lane.fail (l : Lane) (cause now : Nat) : Lane :=
  { l with
    fault := cause, due := 0, trial := none, back := false, bipWhole := false
    replRun := if l.fault = 0 && l.due = 0 then 0 else l.replRun
    signal := l.signal && cause ≠ 1, lostNs := if cause = 1 then now else l.lostNs
    blk := if cause ≤ 2 then {} else l.blk, aligned := false, misses := 0, badMarks := 0, found := false
    lockLoss := if cause = 2 then l.lockLoss + 1 else l.lockLoss
    alignLoss := if cause = 3 then l.alignLoss + 1 else l.alignLoss }

def State.faultLane (s : State) (n cause : Nat) : State :=
  (s.onLane n fun l => l.fail cause s.now).raise (n / 4) 0x1460 3 (mkWord [(0, 7, n), (7, 3, cause)])

/-- The signal is lost, or the condition of another cause has been met by the blocks received. -/
def execKapraLaneFault (n : Fin 128) (cause : Fin 6) (s : State) : Out :=
  let l := s.lane n
  occurs s (s.boot.powered && l.state ≠ .deep && cause.val ≠ 0 && (if cause.val = 1 then l.signal else l.due = cause))
    (s.faultLane n cause)

/-- Coefficients of a full training. -/
def Lane.train (l : Lane) : Lane := { l with coef := l.sets + 1, sets := l.sets + 1, trial := none }

/-- The signal is back: after a loss longer than 1 ms the lane trains in full, else it restarts from what it held. -/
def execLaneSignalReturn (n : Fin 128) (s : State) : Out :=
  let l := s.lane n
  occurs s (s.boot.powered && l.state ≠ .deep && l.fault = 1 && !l.signal)
    (s.onLane n fun l => { (if l.lostNs + 1000000 < s.now then l.train else l) with signal := true, blk := {} })

/-! ### Lane states (R95 to R97) -/

/-- KAPRA_STATEs whose four lanes have all reached their states complete. -/
def State.lanesDone (s : State) (c : Nat) : State :=
  let x := (s.chan c).kp
  let done (q : Nat × List LaneState × List LaneState) : Bool := (List.range 4).all fun p => (x.lane p).state = q.2.1.getD p .active
  (s.onKp c fun x => { x with cmds := x.cmds.filter fun q => !done q }).finishAll ((x.cmds.filter done).map (·.1)) 0

/-- The lane is in a new state. Leaving Deep trains the receiver in full and restarts the egress scrambler (R81, R92). -/
def Lane.reach (l : Lane) (x : LaneState) : Lane :=
  let l := { l with want := none, state := x }
  match x with
  | .deep => { l with signal := false, blk := {}, aligned := false, misses := 0, badMarks := 0, found := false, fault := 0, due := 0
                      replRun := 0, back := false, bipWhole := false, trial := none }
  | _ => l

/-- A lane out of Deep is trained in full, locked and aligned; the payload received meanwhile has synchronised its descrambler. -/
def Lane.wake (l : Lane) (from_ : LaneState) (seen : BitVec 58) : Lane :=
  if from_ = .deep && l.state ≠ .deep then
    { l.train with scrambler := BitVec.allOnes 58, signal := true, blk := { lock := true }, aligned := true, descrambler := seen }
  else l

/-- A lane reaches its requested state; one that becomes Active out of Deep without a valid ingress signal has a fault. -/
def execLaneStateReached (n : Fin 128) (w : LaneWake) (s : State) : Out :=
  occursWith s (if s.boot.powered then (s.lane n).want else none) fun x =>
    let deep := (s.lane n).state = .deep
    let s := s.onLane n fun l => (l.reach x).wake l.state w.seen
    let s := if x = .active && deep && w.fault.val ≠ 0 then s.faultLane n w.fault else s
    s.lanesDone (n / 4)

/-- Code requested for lane position p. -/
def Desc.laneCode (d : Desc) (p : Nat) : Nat := d.p0.bits (2 * p + 1) (2 * p)

def execKapraState (id : Nat) (s : State) : Out :=
  withCmd s id 0x1440 fun f =>
    let c := f.desc.target
    let ch := s.chan c
    let want (p : Nat) : LaneState := LaneState.ofCode (f.desc.laneCode p)
    if (List.range 4).any (fun p => f.desc.laneCode p = 3) || !ch.pw.level.carries then s.finish f 0x01
    else if (List.range 4).any (fun p => (ch.kp.lane p).state = .active && want p ≠ .active)
        && ch.locals.any (fun l => !(ch.trib l).released) then s.finish f 0x03
    else
      let s := (List.range 4).foldl (fun s p => s.onLane (4 * c + p) fun l =>
        { l with want := if l.state = want p then none else some (want p) }) s
      ((s.onKp c fun x => { x with cmds := x.cmds ++ [(f.id, (List.range 4).map want,
        (List.range 4).map fun p => (ch.kp.lane p).state)] }).run f).lanesDone c

/-! ### Presets, merit and adaptation (R91 to R94) -/

def execKapraTxEq (id : Nat) (s : State) : Out :=
  withCmd s id 0x1441 fun f =>
    let c := f.desc.target
    ((List.range 4).foldl (fun s p => s.onLane (4 * c + p) fun l =>
      { l with nextPreset := some (f.desc.p0.bits (4 * p + 3) (4 * p)) }) s).finish f 0

/-- Cursors of preset n relative to the main cursor, in hundredths. -/
def preCursor (n : Nat) : Int := -5 * (n % 4 : Nat)
def postCursor (n : Nat) : Int := -8 * (n / 4 : Nat)

/-- An egress marker leaves: a waiting preset takes effect. -/
def Lane.marker (l : Lane) : Lane :=
  if l.state = .deep then l else { l with preset := l.nextPreset.getD l.preset, nextPreset := none }

/-- The end of a multiframe with its merit: a trial is kept or undone, the next one begins, and runs below 120 count. Quiet
lanes track as Active ones do (R95). -/
def Lane.multiframe (l : Lane) (m : Nat) : Lane :=
  if l.state = .deep then l
  else
    let l := match l.trial with
      | some (old, before) => { l with coef := if m + 4 < before then old else l.coef, trial := none }
      | none => l
    let l := { l with merit := m, lowRun := if m < 120 then l.lowRun + 1 else 0, lowArmed := l.lowArmed || 128 ≤ m }
    if l.fault = 0 then { l.train with trial := some (l.coef, m) } else l

/-- The four lanes at the end of a transmit multiframe. -/
def State.meritBoundary (s : State) (c : Nat) (merits : List (BitVec 8)) : State :=
  (List.range 4).foldl (fun s p => s.onLane (4 * c + p) fun l => l.multiframe (merits.getD p 0).toNat) s

def execLaneMeritLow (n : Fin 128) (s : State) : Out :=
  let l := s.lane n
  occurs s (s.boot.powered && 4 ≤ l.lowRun && l.lowArmed)
    ((s.onLane n fun l => { l with lowArmed := false }).raise (n.val / 4) 0x1462 2 (mkWord [(0, 7, n), (8, 8, l.merit)]))

/-! ### Blocks (R80 to R83) -/

def dataHeader : BitVec 2 := 1
def controlHeader : BitVec 2 := 2

/-- One payload through the self-synchronous scrambler 1 + x³⁹ + x⁵⁸, bit 0 first: the state keeps the bits sent (R81). -/
def scramble58 : Nat → BitVec 58 → Word → Nat → Nat × BitVec 58
  | 0, st, _, _ => (0, st)
  | n + 1, st, w, k =>
    let o := xor (w.bit k) (xor (st.getLsbD 38) (st.getLsbD 57))
    let r := scramble58 n ((st <<< 1) ||| BitVec.ofNat 58 (bitOf o)) w (k + 1)
    (bitOf o * 2 ^ k + r.1, r.2)

/-- The descrambler: its state keeps the bits received. -/
def descramble58 : Nat → BitVec 58 → Word → Nat → Nat × BitVec 58
  | 0, st, _, _ => (0, st)
  | n + 1, st, w, k =>
    let o := xor (w.bit k) (xor (st.getLsbD 38) (st.getLsbD 57))
    let r := descramble58 n ((st <<< 1) ||| BitVec.ofNat 58 (bitOf (w.bit k))) w (k + 1)
    (bitOf o * 2 ^ k + r.1, r.2)

def scrambleBlocks : BitVec 58 → List (BitVec 2 × Word) → List (BitVec 2 × Word) × BitVec 58
  | st, [] => ([], st)
  | st, b :: bs =>
    let r := scramble58 64 st b.2 0
    let q := scrambleBlocks r.2 bs
    ((b.1, BitVec.ofNat 64 r.1) :: q.1, q.2)

/-- XOR of the bytes of a word. -/
def Word.xorBytes (w : Word) : BitVec 8 := (Word.bytes w).foldl (· ^^^ ·) 0

/-- The marker of lane n for a frame (R82). -/
def markerWord (n frame : Nat) (bip : BitVec 8) (mfc : BitVec 32) : Word :=
  let w := mkWord [(0, 8, 0xA1), (8, 7, n), (16, 8, frame), (24, 8, bip.toNat), (32, 24, mfc.toNat)]
  w ||| mkWord [(56, 8, (Word.xorBytes w).toNat)]

/-- A payload has the type of a marker; and it is one, since its CHECK is right as well. -/
def markerType (w : Word) : Bool := w.bits 7 0 = 0xA1
def isMarker (w : Word) : Bool := markerType w && Word.xorBytes w = 0

/-- The header of a block is checked (R98, cause 2); and whether lock is lost with it. -/
def BlockSync.header (b : BlockSync) (valid : Bool) : BlockSync × Bool :=
  if b.lock then
    let recent := (b.recent <<< 1) ||| BitVec.ofNat 64 (bitOf !valid)
    if 16 ≤ ((List.range 64).filter recent.getLsbD).length then ({}, true) else ({ b with recent := recent }, false)
  else if !valid then ({}, false)
  else if 64 ≤ b.good + 1 then ({ lock := true }, false)
  else ({ b with good := b.good + 1 }, false)

/-- The condition of a fault has been met; the first one stands. -/
def Lane.meet (l : Lane) (cause : Nat) : Lane := { l with due := if l.due = 0 then cause else l.due }

/-- The block at the expected marker position. An aligned lane checks the marker, its BIP8 when every block since the last one
was taken in, and the skew (R82, R90, R98); two markers in a row with a wrong LANE, as with a wrong CHECK, are cause 5
(DESIGN CHOICE, log 134). A lane that is not aligned becomes so by a marker that confirms the one found a host frame before,
which ends its fault. -/
def Lane.head (l : Lane) (n skew : Nat) (b : BitVec 2 × Word) : Lane :=
  let control := b.1 = controlHeader
  let mk := control && isMarker b.2
  let own := mk && b.2.bits 14 8 = n
  let near := l.state ≠ .active || skew ≤ 4000
  let l := if l.state = .active then { l with skew := skew } else l
  if l.aligned then
    let misses := if mk then 0 else l.misses + 1
    let badMarks := if own then 0 else if control && markerType b.2 then l.badMarks + 1 else l.badMarks
    let wrong := if mk && l.bipWhole then ((List.range 8).filter (BitVec.ofNat 8 (b.2.bits 31 24) ^^^ l.bipIn).getLsbD).length else 0
    let l := { l with misses := misses, badMarks := badMarks, bipErr := l.bipErr + BitVec.ofNat 32 wrong, bipIn := 0
                      bipWhole := l.state = .active }
    if 4 ≤ misses then l.meet 3 else if 2 ≤ badMarks then l.meet 5 else if !near then l.meet 4 else l
  else if !l.blk.lock || !own then { l with found := false }
  else if l.found && near then 
    { l with found := false, aligned := true, misses := 0, badMarks := 0, fault := 0, back := l.back || l.fault ≠ 0, bipIn := 0
             bipWhole := l.state = .active }
  else { l with found := true }

/-- The header of a block is checked and the block counted. -/
def Lane.checked (l : Lane) (b : BitVec 2 × Word) : Lane :=
  let valid := b.1 = dataHeader || b.1 = controlHeader
  let r := l.blk.header valid
  let l := { l with blk := r.1, blocksRx := l.blocksRx + 1, hdrErr := if valid then l.hdrErr else l.hdrErr + 1 }
  if r.2 then l.meet 2 else l

/-- What a block that is no marker carries, descrambled: a client word, or a fill block when it is a control block, whose type is
read (R81, R82). A Quiet lane reads headers only (R95). The answer says which. -/
def Lane.read (l : Lane) (b : BitVec 2 × Word) : Lane × Option Word × Bool :=
  let d := descramble58 64 l.descrambler b.2 0
  let w : Word := BitVec.ofNat 64 d.1
  let l := { l with descrambler := d.2 }
  if l.state ≠ .active then (l, none, false)
  else
    let l := { l with bipIn := l.bipIn ^^^ Word.xorBytes w }
    if b.1 ≠ controlHeader then (l, some w, false)
    else
      let known := w.bits 7 0 = 0xA1 || w.bits 7 0 = 0xA2 || w.bits 7 0 = 0xA3
      ({ l with hdrErr := if known then l.hdrErr else l.hdrErr + 1 }, none, true)

/-- Any block: its header is checked, a marker is passed by, and any other block is read. -/
def Lane.block (l : Lane) (b : BitVec 2 × Word) : Lane × Option Word × Bool :=
  let l := l.checked b
  if b.1 = controlHeader && isMarker b.2 then (l, none, false) else l.read b

/-- The block at an aligned lane's marker position: a control block that is no marker is read as any other, outside the BIP8 of the
frame, and any other block is passed by. -/
def Lane.place (l : Lane) (b : BitVec 2 × Word) : Lane × Bool :=
  let l := l.checked b
  if b.1 = controlHeader && !isMarker b.2 then
    let r := l.read b
    ({ r.1 with bipIn := l.bipIn }, r.2.2)
  else (l, false)

/-- Blocks in their order: the lane, its client words and its fill blocks. -/
def Lane.blocks : Lane → List (BitVec 2 × Word) → Lane × List Word × Nat
  | l, [] => (l, [], 0)
  | l, b :: bs =>
    let r := l.block b
    let q := Lane.blocks r.1 bs
    (q.1, r.2.1.toList ++ q.2.1, bitOf r.2.2 + q.2.2)

/-- What lane n receives of one host frame: the lane after it, and the client words of its data blocks, which carry the host
frame's words in rising order. A block with an invalid header is delivered as a data block, but for one at an aligned lane's
marker position, which no error in it makes a client word (R83, R100). -/
def Lane.receive (l : Lane) (n : Nat) (x : LaneIn) : Lane × List Word :=
  match x.blocks with
  | [] => (l, [])
  | b :: bs =>
    if l.state = .deep || !l.signal then (l, [])
    else
      let h := l.head n x.skew b
      let k := h.place b
      let r := if h.aligned then k.1.blocks bs else h.blocks x.blocks
      ({ r.1 with fillRx := if h.aligned && l.state = .active then BitVec.ofNat 32 (bitOf k.2 + r.2.2) else r.1.fillRx }, r.2.1)

/-- The words of a host frame from those of its four lanes: word w comes on lane position w mod 4 (R83). -/
def fourWay : List Word → List Word → List Word → List Word → List Word
  | [], _, _, _ => []
  | a :: as, bs, cs, ds => a :: bs.headD 0 :: cs.headD 0 :: ds.headD 0 :: fourWay as bs.tail cs.tail ds.tail

/-! ### The ingress host frame (R84 to R90, R98, R99) -/

/-- The control field of slot n in an overhead whose slot control begins at word `base`: 4 in the host overhead (R86), 1,024
in the line overhead (08 R185). -/
def slotControl (base : Nat) (ws : List Word) (n : Nat) : Nat :=
  (wd ws (base + n / 16)).bits (4 * (n % 16) + 3) (4 * (n % 16))

/-- SLOT_STATE and JC of slot n in the host overhead. -/
def slotState (ws : List Word) (n : Nat) : Nat := slotControl 4 ws n / 4
def slotJc (ws : List Word) (n : Nat) : Nat := slotControl 4 ws n % 4

/-- The frame is accepted: HF_PHASE within ±40 ns, and the words that must match do. -/
def Channel.acceptsHost (ch : Channel) (c : Nat) (ws : List Word) (phase : Int) : Bool :=
  phase.natAbs ≤ 40 && wd ws 0 = 0x3C5A96E10F78B4D2#64 && wd ws 1 = 0xC3A5691EF0874B2D#64
    && (wd ws 2).bits 7 0 = ch.tf.frame && (wd ws 2).bits 39 8 = ch.tf.mfc.toNat && (wd ws 2).bits 44 40 = c

/-- Reserved slot states of the overhead words that lane position p carries, over all 1,600 slots, in accepted frames
(DEDUCED, log 113: those of a replaced frame or of an ignored slot block are not excepted by a rule). -/
def reservedStates (ws : List Word) (p : Nat) : Nat :=
  ((List.range 1600).filter fun n => (4 + n / 16) % 4 = p && slotState ws n = 3).length

/-- A lane's figures with one host frame that was accepted or replaced. -/
def Lane.take (l : Lane) (replaced : Bool) (reserved hostMerit : Nat) : Lane :=
  { l with
    hdrErr := l.hdrErr + BitVec.ofNat 32 reserved, hostMerit := if replaced then l.hostMerit else hostMerit
    framesRepl := if replaced then l.framesRepl + 1 else l.framesRepl
    replRun := if !replaced then 0 else if l.fault ≠ 0 || l.due ≠ 0 || l.replRun ≠ 0 then l.replRun + 1 else l.replRun }

/-- Lanes that have recovered report it: with the first frame accepted, or at once while the channel takes no host frames. -/
def State.recovered (s : State) (c : Nat) : State :=
  (List.range 4).foldl (fun s p =>
    let l := (s.chan c).kp.lane p
    if l.back then (s.onLane (4 * c + p) fun l => { l with back := false, replRun := 0 }).raise c 0x1461 1
      (mkWord [(0, 7, 4 * c + p), (16, 16, satAt 65535 l.replRun)]) else s) s

/-- HF_PHASE of the frame, with event 0x1463 when it leaves the ±2 ns around the value last reported. -/
def State.phase (s : State) (c : Nat) (phase : Int) : State :=
  let x := (s.chan c).kp
  let s := s.onKp c fun x => { x with phase := phase, phaseMfc := (s.chan c).tf.mfc }
  if 2 < (phase - x.phaseReported).natAbs && (x.phase - x.phaseReported).natAbs ≤ 2 then
    s.raise c 0x1463 1 (mkWord [(0, 16, twos 16 phase)]) else s

/-- An ingress host frame of a channel that carries: accepted, or replaced whole when a lane has a fault or meets its
condition, or the frame does not fit. `devs` are buffer depths compared after a realignment: context and ns (02 R24). -/
def State.hostIn (s : State) (c : Nat) (ws : List Word) (clear : Bool) (phase : Int) (devs : List (Nat × Int)) : State :=
  let ch := s.chan c
  let ok := clear && ch.acceptsHost c ws phase
  let back := (List.range 4).any fun p => (ch.kp.lane p).back
  let s := s.phase c phase
  let s := if ok then s.recovered c
    else if ch.kp.replRun = 0 then s.raise c 0x1464 3 (mkWord [(0, 8, ch.tf.frame), (8, 32, ch.tf.mfc.toNat)]) else s
  let s := if ok && back then s.deviations c ch.tf.mfc (devs.map fun d => (d.1, false, d.2)) else s
  let s := (List.range 4).foldl (fun s p => s.onLane (4 * c + p) fun l =>
    l.take (!ok) (if ok then reservedStates ws p else 0) ((wd ws 3).bits (8 * p + 15) (8 * p + 8))) s
  s.onKp c fun x =>
    { x with taken := true, ingress := if ok then some ws else none, replRun := if ok then 0 else x.replRun + 1 }

/-- The blocks of one host frame reach every lane that is not Deep; a channel that carries and sends frames takes the host
frame they hold. -/
def State.takeHost (s : State) (c : Nat) (phase : Int) (ins : List LaneIn) (devs : List (Nat × Int)) : State :=
  let ch := s.chan c
  let rs := (List.range 4).map fun p => (ch.kp.lane p).receive (4 * c + p) (ins.getD p { blocks := [], skew := 0 })
  let s := s.onKp c fun x => { x with lanes := rs.zipIdx.map fun r => (r.2, r.1.1) }
  let clear := (List.range 4).all fun p => (ch.kp.lane p).fault = 0 && ((s.chan c).kp.lane p).due = 0
  let words (p : Nat) : List Word := (rs.map Prod.snd).getD p []
  if ch.tf.sending && ch.kp.carrying then
    s.hostIn c (fourWay (words 0) (words 1) (words 2) (words 3)) clear phase devs
  else (s.onKp c fun x => { x with taken := ch.tf.sending }).recovered c

/-- The ingress blocks of the host frame that belongs to the next line frame have come, with its HF_PHASE. A fault whose
condition has been met is reported first. -/
def execIngressHostFrame (c : Fin 32) (phase : Int) (ins : List LaneIn) (devs : List (Nat × Int)) (s : State) : Out :=
  let x := (s.chan c).kp
  occurs s (s.boot.powered && !x.taken && ((List.range 4).any fun p => (x.lane p).state ≠ .deep)
      && (List.range 4).all fun p => (x.lane p).due = 0) (s.takeHost c phase ins devs)

/-! ### Status (R101) -/

def Kapra.statusWords (x : Kapra) : List Word :=
  (List.range 4).map (fun p =>
    let l := x.lane p
    mkWord [(0, 2, l.state.code), (2, 1, bitOf l.signal), (3, 1, bitOf l.blk.lock), (4, 1, bitOf l.aligned),
            (5, 3, l.fault), (8, 8, l.merit), (16, 16, l.skew), (32, 4, l.preset), (56, 8, l.hostMerit)]) ++
    [mkWord [(0, 16, twos 16 x.phase), (32, 32, x.phaseMfc.toNat)], 0, 0, 0]

def execKapraStatus (id : Nat) (s : State) : Out :=
  withCmd s id 0x1442 fun f => s.answer f (s.chan f.desc.target).kp.statusWords

def Kapra.counterWords (x : Kapra) : List Word :=
  (List.range 4).flatMap fun p =>
    let l := x.lane p
    [BitVec.ofNat 64 l.blocksRx.toNat, mkWord [(0, 32, l.hdrErr.toNat), (32, 32, l.bipErr.toNat)],
     mkWord [(0, 16, l.lockLoss.toNat), (16, 16, l.alignLoss.toNat), (32, 16, l.framesRepl.toNat)],
     mkWord [(0, 32, l.fillRx.toNat)]]

def execKapraCounters (id : Nat) (s : State) : Out :=
  withCmd s id 0x1443 fun f => s.answer f (s.chan f.desc.target).kp.counterWords

end Sys2Proof.Machine
end

