-- ==== Sys2Proof/Machine/Power.lean ====
section
/-! DEFINITION. Power levels, their sequence, Slack and Dark, wakes, and the channel reset (18; 19 R419; 05 R96). -/

namespace Sys2Proof.Machine

/-! ### Level changes (R405 to R407) -/

/-- Nominal core voltage in mV. -/
def Level.volts : Level → Nat
  | .spring => 750 | .mean => 650 | .neap => 550 | .slack => 550 | .dark => 0

/-- Lit counts that the level limit is held against: the larger of those in force and pending, by direction (10 R225). A hub
receives its leaves' sets, the shared subcarriers, and what its own set lights beside them. -/
def Channel.litCounts (ch : Channel) : Nat × Nat :=
  let (t, _) := ch.pendingSets
  let most (x : LoadSet) (o : Option LoadSet) : Nat := max x.litCount (match o with | some q => q.litCount | none => 0)
  let leaves := ch.pm.leaves.foldl (fun m q => m ||| q.2.dedMask) ch.pm.shared
  let own := { ch.ld.rx with lit := ch.ld.rx.lit &&& ~~~leaves }
  (most ch.ld.tx t, if ch.pm.mode = .hub then ch.hubLit none + own.litCount else ch.ld.rxLit)

def Channel.levelFits (ch : Channel) (l : Level) : Bool :=
  let (t, r) := ch.litCounts
  ch.bu.params.rate * t ≤ l.limit && ch.bu.params.rate * r ≤ l.limit

/-- A change of level begins, and the calibration runs of the channel are abandoned (12 R285). -/
def State.beginLevel (s : State) (c : Nat) (l : Level) (id : Nat) : State :=
  let down := l.volts < (s.chan c).pw.level.volts
  let s := ((s.calAbandon c false).calAbandon c true).calResume c false
  s.onPw c fun x => { x with
    transit := if down then .clockDown else .voltageUp, target := l, settling := false, rampBack := false, cmd := some id
    stepDue := if down then s.now else s.now + 1000 * (l.volts - x.level.volts) }

def execPwrLevel (id : Nat) (s : State) : Out :=
  withCmd s id 0x1900 fun f =>
    let c := f.desc.target
    let ch := s.chan c
    let n := f.desc.p0.bits 1 0
    let l := Level.ofCode n
    if n = 3 then s.finish f 0x01
    else if ch.bu.step ≠ 4 || ch.pw.transit ≠ .none then s.finish f 0x02
    else if !ch.levelFits l then s.finish f 0x20
    else if ch.pw.level = .slack then (s.onPw c fun x => { x with resume := l }).finish f 0
    else if ch.pw.level = l then s.finish f 0
    else (s.beginLevel c l f.id).run f

/-- The change has ended at the new level. -/
def State.levelDone (s : State) (c : Nat) : State :=
  let x := (s.chan c).pw
  let s := s.onPw c fun x => { x with level := x.target, transit := .none, settling := false, cmd := none
                                      levelChanges := x.levelChanges + 1 }
  (s.raise c 0x1920 1 (mkWord [(0, 3, x.target.code), (3, 3, x.level.code)])).finishOpt x.cmd 0

/-- The ramp back and its settling have ended: the level has stayed. -/
def State.levelFailed (s : State) (c : Nat) : State :=
  let x := (s.chan c).pw
  let s := s.onPw c fun x => { x with transit := .none, settling := false, rampBack := false, cmd := none }
  (s.raise c 0x1923 3 (mkWord [(0, 16, x.vcore), (16, 3, x.level.code)])).finishOpt x.cmd 0x21

/-- The state after the present step of a change; a settled upward ramp waits for its rail check instead. -/
def State.levelStep (s : State) (c : Nat) : Option State :=
  let x := (s.chan c).pw
  let s := s.at x.stepDue
  match x.transit, x.settling with
  | .clockDown, _ => some (s.onPw c fun x =>
      { x with transit := .voltageDown, stepDue := s.now + 1000 * (x.level.volts - x.target.volts) })
  | .voltageDown, false => some (s.onPw c fun x => { x with settling := true, stepDue := s.now + 50000 })
  | .voltageDown, true => some (if x.rampBack then s.levelFailed c else s.levelDone c)
  | .voltageUp, false => some (s.onPw c fun x =>
      { x with settling := true, rampEnd := s.now, stepDue := s.now + 50000 })
  | .clockUp, _ => some (s.levelDone c)
  | _, _ => none

def execLevelStep (c : Fin 32) (s : State) : Out :=
  occursWith s (if s.boot.powered then s.levelStep c else none) id

/-- The rail read is within ±10 mV: the clock rises. Else it is read again after 100 µs, for the last time 1 ms after the ramp
has ended, when the voltage ramps back. The read is an urgent request on input 30, with its settling conversion (15 R359). -/
def State.railCheck (s : State) (c mv : Nat) : State :=
  let s := s.at (s.chan c).pw.stepDue
  let s := s.onConv c fun k => (k.urgent none 30 1 s.now).skip 30 1
  s.onPw c fun x =>
    if mv ≤ x.target.volts + 10 && x.target.volts ≤ mv + 10 then
      { x with transit := .clockUp, settling := false, vcore := mv, stepDue := s.now }
    else if x.rampEnd + 1000000 ≤ s.now then
      { x with transit := .voltageDown, settling := false, rampBack := true, vcore := mv
               stepDue := s.now + 1000 * (x.target.volts - x.level.volts) }
    else { x with vcore := mv, stepDue := min (s.now + 100000) (x.rampEnd + 1000000) }

def execRailCheck (c : Fin 32) (mv : BitVec 16) (s : State) : Out :=
  let x := (s.chan c).pw
  occurs s (s.boot.powered && x.transit = .voltageUp && x.settling) (s.railCheck c mv.toNat)

/-! ### What sleep and reset stop (R409; 19 R419) -/

/-- Started commands of channel c but one; posted buffers are none (04 R76). -/
def State.startedOn (s : State) (c keep : Nat) : List Nat :=
  (s.flights.filter fun f => f.desc.target = c && f.phase ≠ .fetched && f.id ≠ keep && f.desc.opcode ≠ 0x0130).map (·.id)

/-- What some commands have under way in the crypto engine and in the retirement of SRAM c goes. -/
def State.withdraw (s : State) (c : Nat) (ids : List Nat) : State :=
  ({ s with jobs := s.jobs.filter fun j => !ids.contains j.id } : State).onSram c fun m =>
    { m with retiring := m.retiring.filter fun q => !ids.contains q.1 }

/-- Started commands of a channel are cut off by a sleep entry or a reset. -/
def State.cut (s : State) (c keep : Nat) : State :=
  let ids := s.startedOn c keep
  (s.withdraw c ids).finishAll ids 0x06

/-- A lane goes to Deep and remembers the state that it held. -/
def Lane.sleep (l : Lane) : Lane := { l.reach .deep with before := l.state, want := none }

/-- What a hub drops of a leaf when its frames stop. -/
def Leaf.stop (x : Leaf) : Leaf :=
  { x with ld := { x.ld with proposal := none, agreement := none, pendingRx := none, reject := none, tail := none }
           lostNs := none, rf := x.rf.restart
           records := [], delivered := none, bankAccept := none, bankFar := none, heard := false, silent := 0 }

/-- What a channel drops when its frames stop: the receiver's state, negotiations, and everything that waited for a
boundary or a lane; a loop-timed clock holds `held` (14 R347). Frame records that wait can no longer meet their limit (13 R321). -/
def Channel.stopWork (ch : Channel) (held : Rat) (now : Nat) : Channel :=
  { ch with
    bu := { ch.bu with shapes := [], timingCmds := [], cmd := none }
    kp := { ch.kp with cmds := [], taken := false, ingress := none
                       lanes := (List.range 4).map fun p => (p, (ch.kp.lane p).sleep) }
    tribs := ch.tribs.map fun p => (p.1, { p.2 with draining := [] })
    sl := { ch.sl with proposal := none, reject := none, switching := none }
    cx := ch.cx.map fun p => (p.1, { p.2 with rollCmds := [] })
    tf := { ch.tf with sending := false, carried := [], queue := ch.tf.queue.filter (fun m => m.cmd.isNone)
                       current := ch.tf.current.filter fun m => m.msg.cmd.isNone }
    rf := ch.rf.restart
    fec := { ch.fec with uncorrRun := 0, sums := [] }
    cal := { ch.cal with txMixed := false }
    ld := { ch.ld with proposal := none, agreement := none, pendingRx := none, reject := none, tail := none }
    age := { ch.age with minute := ch.freshMinute }
    rx := { ch.rx with heldClk := held, state := .notUp, stateNs := now, limitNs := now, searches := [], blindDue := none, blindFailed := false, locked := 0
                       acquired := 0, lostSub := 0, window := [], windowHit := none
                       first := ch.rx.first && !ch.rx.state.searched }
    opt := { ch.opt with laserOn := false, shutter := true }
    pm := { ch.pm with silent := true, maps := [], gmIn := [], gm := [], planned := [], adopt := none, assigns := [], downstream := none, ready := []
                       recDrop := ch.pm.recDrop + BitVec.ofNat 32 (ch.pm.ready.filter (·.limited)).length
                       leaves := ch.pm.leaves.map fun p => (p.1, p.2.stop)
                       receivers := ch.pm.receivers.map fun p => (p.1, { p.2 with rx := .idle, collisionsNow := 0 }) } }

/-- What ends with an event of its own when the frames of channel c stop: messages in progress, the module's own exchange, which
lapses (16 R381), agreements without COMMIT (10 R244), and a self-calibration (15 R362). Nothing else is reported (DEDUCED,
log 28). -/
def State.stopReports (s : State) (c : Nat) : State :=
  let s := s.cutMultiframe c
  let stop (s : State) : State := (s.breakMessage c 3).lxStop c
  let s := (s.chan c).pm.leaves.foldl (fun s q => s.inPair c q.1 stop) (stop s)
  match (s.conv c).selfcal with | some q => s.selfcalOver c q.1 0x06 | none => s

/-- The first step of an entry or a reset, at the boundary: the output is dark, frames have stopped, the lanes are Deep,
calibration is abandoned, the tributaries that the channel carries have nothing to deliver, and started commands end with
0x06. -/
def State.stopFrames (s : State) (c keep : Nat) : State :=
  let s := (((s.calAbandon c false).calAbandon c true).stopReports c).payOwed c
  let is := s.contextsOf c
  let s := (s.onChan c fun ch => ch.stopWork (s.heldMean c .notUp) s.now).draw
  let s := is.foldl (fun s i => s.onTrib i Trib.idled) s
  let s := s.onConv c fun k => match k.test with | some t => k.testOver t s.now | none => k
  (s.cut c keep).lookGroup c

/-- The channel is Dark: what the common save area holds is kept, and the channel's counters; key slots are erased
(R404; 19 R418). -/
def Channel.dark (ch : Channel) (now : Nat) : Channel :=
  let ch := ch.eraseKeys
  { ch with
    pw := { levelChanges := ch.pw.levelChanges, slackEntries := ch.pw.slackEntries, lastWake := ch.pw.lastWake
            exitSeen := ch.pw.exitSeen }
    bu := { timing := ch.bu.timing, stepNs := now }
    kp := { lanes := ch.kp.lanes.map fun p => (p.1,
              { blocksRx := p.2.blocksRx, hdrErr := p.2.hdrErr, bipErr := p.2.bipErr, lockLoss := p.2.lockLoss
                alignLoss := p.2.alignLoss, framesRepl := p.2.framesRepl, fillRx := p.2.fillRx, sets := p.2.sets }) }
    cx := ch.cx.map fun p => (p.1, { p.2 with
            curFrames := 0, warned := false, farNs := none, conflict := false, rxParityRun := 0, failRun := 0 })
    tf := { msgSeq := ch.tf.msgSeq, msgTx := ch.tf.msgTx }
    rf := { framesRx := ch.rf.framesRx, ohCheckFail := ch.rf.ohCheckFail, fawMiss := ch.rf.fawMiss, lof := ch.rf.lof
            numJump := ch.rf.numJump, falseCand := ch.rf.falseCand, msgRx := ch.rf.msgRx, msgLost := ch.rf.msgLost
            slotCtlErr := ch.rf.slotCtlErr, rdiFrames := ch.rf.rdiFrames }
    fec := { unitsRx := ch.fec.unitsRx, unitsCorrected := ch.fec.unitsCorrected, bits1to0 := ch.fec.bits1to0
             bits0to1 := ch.fec.bits0to1, unitsUncorr := ch.fec.unitsUncorr, outerCorr := ch.fec.outerCorr
             iterMaxHit := ch.fec.iterMaxHit, framesErr := ch.fec.framesErr }
    ld := { seq := ch.ld.seq, indUnexpected := ch.ld.indUnexpected }
    rx := { cycleSlip := ch.rx.cycleSlip, eqReconv := ch.rx.eqReconv, reacq := ch.rx.reacq, scLockLoss := ch.rx.scLockLoss
            stateNs := now, limitNs := now, cdMeas := ch.rx.cdMeas, freqOfs := ch.rx.freqOfs, clkOfs := ch.rx.clkOfs
            figures := ch.rx.figures, mfc := ch.rx.mfc }
    cal := { ch.cal with rxTrack := false, txTrack := false, rxInt := 0, txInt := 0, rxConverged := 0, txConverged := 0, rxStale := false
                         txStale := false, rxMixed := none, txMixed := false }
    opt := { latched := ch.opt.latched, shutdowns := ch.opt.shutdowns, raised := ch.opt.raised }
    cap := { capId := ch.cap.capId }
    pm := { mode := ch.pm.mode
            leaves := ch.pm.leaves.map fun p => (p.1, { p.2 with
              state := if p.2.state = .free then .free else .expected, arrivals := [], fresh := 0, fix := 0, rerange := false, silent := 0
              acq := 0, bankAccept := none, bankFar := none, records := [], lostNs := none, rf := {}, ld := {} })
            receivers := ch.pm.receivers.map fun p => (p.1, { p.2 with rx := .idle, collisionsNow := 0 })
            gmLost := ch.pm.gmLost, recDrop := ch.pm.recDrop, burstsTx := ch.pm.burstsTx, bseq := ch.pm.bseq }
    keeperDown := false, keeperVer := none, hold := false }

/-- Lanes that a KAPRA_STATE has moved since they went Deep are Deep again, and the command ends as the others of the entry do
(05 R96). -/
def State.lanesSleep (s : State) (c : Nat) : State :=
  let ids := (s.chan c).kp.cmds.map (·.1)
  (s.onKp c fun x => { x with
    cmds := [], lanes := x.lanes.map fun p => (p.1, { p.2.reach .deep with want := none }) }).finishAll ids 0x06

/-- The channel's power is gated; its monitor buffer, which lies in its SRAM, is lost (17 R388). -/
def State.goDark (s : State) (c : Nat) : State :=
  (((s.lanesSleep c).onChan c fun ch => ch.dark s.now).disarm c).onConv c fun k => { k with buffer := [] }

/-! ### Entry (R408, R409) -/

/-- The checks of R408 that both entries share; 0: none applies. -/
def State.sleepStatus (s : State) (c : Nat) : Nat :=
  let ch := s.chan c
  if ch.pw.transit ≠ .none || ch.lxBusy || s.bankPending c || ch.cx.any (fun p => !p.2.rollCmds.isEmpty)
      || (ch.bu.step ≠ 4 && !ch.bu.stopped) then 0x02
  else if ch.locals.any fun l => (ch.trib l).state = .carrying && !(ch.trib l).released then 0x03
  else 0

/-- An entry begins; a channel that sends no frames takes its first step at once. -/
def State.beginSleep (s : State) (f : Flight) (t : Transit) (w : Wakes) (timer : Option Nat) : State :=
  let c := f.desc.target
  let s := (s.onPw c fun x => { x with
    transit := t, turnFrom := s.nextId, resume := if x.level.carries then x.level else x.resume, armed := w, latched := {}
    firstLatched := 0
    wakeLos := s.losCodeOf c, timerDue := timer, cmd := some f.id }).run f
  if (s.chan c).tf.sending then s else s.stopFrames c f.id

def Desc.action (d : Desc) : Nat := d.p0.bits 1 0

def execPwrSleepSlack (id : Nat) (s : State) : Out :=
  withCmdIf s id 0x1901 (fun d => d.action = 0 || d.action = 3) fun f =>
    let c := f.desc.target
    let d := f.desc
    let n := d.p1.bits 23 0
    let st := s.sleepStatus c
    if d.action = 3 || (d.p0.bit 3 && n = 0) || !(s.chan c).awake then s.finish f 0x01
    else if st ≠ 0 then s.finish f st
    else s.beginSleep f .enteringSlack { command := true, light := d.p0.bit 2, timer := d.p0.bit 3 }
      (if d.p0.bit 3 then some (s.now + n * 1000000000) else none)

def execPwrSleepDark (id : Nat) (s : State) : Out :=
  withCmdIf s id 0x1901 (fun d => d.action = 1) fun f =>
    let c := f.desc.target
    let st := s.sleepStatus c
    if f.desc.p0.bits 3 2 ≠ 0 || (s.chan c).bu.step = 0 then s.finish f 0x01
    else if st ≠ 0 then s.finish f st
    else s.beginSleep f .enteringDark {} none

/-! ### Exit (R410 to R412) -/

/-- A wake starts the exit and disarms the other sources; the lanes begin their return. -/
def State.beginExit (s : State) (c cause : Nat) (latched : Bool) : State :=
  s.onChan c fun ch => { ch with
    pw := { ch.pw with transit := .leavingSlack, turnFrom := s.nextId, lastWake := cause, wakeLatched := latched, armed := {}
                       timerDue := none }
    kp := { ch.kp with lanes := ch.kp.lanes.map fun p =>
      (p.1, { p.2 with want := if p.2.before = .deep then none else some p.2.before }) } }

/-- A hardware wake: latched during entry, else it starts the exit. -/
def State.hwWake (s : State) (c cause : Nat) : State :=
  if (s.chan c).pw.transit = .enteringSlack then
    s.onPw c fun x => { x with
      latched := { x.latched with light := x.latched.light || cause = 2, timer := x.latched.timer || cause = 3 }
      firstLatched := if x.firstLatched = 0 then cause else x.firstLatched }
  else s.beginExit c cause false

/-- A wake can act: its channel is entering Slack or in it, with no exit running. -/
def Power.wakeable (x : Power) : Bool := x.transit = .enteringSlack || (x.level = .slack && x.transit = .none)

def execWakeTimer (c : Fin 32) (s : State) : Out :=
  let x := (s.chan c).pw
  occursWith s (if s.boot.powered && x.wakeable && x.armed.timer && !x.latched.timer then x.timerDue else none)
    fun due => (s.at due).hwWake c 3

/-- The comparator has seen the receive tap rise from a code `lo` to codes of at least `hi` for 1 ms. -/
def execWakeLight (c : Fin 32) (lo hi : BitVec 8) (s : State) : Out :=
  let x := (s.chan c).pw
  occurs s (s.boot.powered && x.wakeable && x.armed.light && !x.latched.light && lo.toNat ≤ x.wakeLos
      && x.wakeLos + 2 ≤ hi.toNat) (s.hwWake c 2)

/-- The last step of an entry has ended; a latched wake is replayed. -/
def State.sleepDone (s : State) (c : Nat) : State :=
  let x := (s.chan c).pw
  if x.transit = .enteringSlack then
    let s := (s.lanesSleep c).onPw c fun x =>
      { x with level := .slack, transit := .none, cmd := none, slackEntries := x.slackEntries + 1 }
    let s := (s.raise c 0x1921 1 0).finishOpt x.cmd 0
    if x.firstLatched ≠ 0 then s.beginExit c x.firstLatched true else s
  else
    let s := s.goDark c
    (s.raise c 0x1921 1 1).finishOpt x.cmd 0

def execSleepEntryEnd (c : Fin 32) (s : State) : Out :=
  let x := (s.chan c).pw
  occurs s (s.boot.powered && (x.transit = .enteringSlack || x.transit = .enteringDark) && x.resetCmd.isNone
      && !(s.chan c).tf.sending) (s.sleepDone c)

def execPwrSleepExit (id : Nat) (s : State) : Out :=
  withCmdIf s id 0x1901 (fun d => d.action = 2) fun f =>
    let c := f.desc.target
    let x := (s.chan c).pw
    if x.exitSeen.contains f.id then
      (s.onPw c fun x => { x with exitSeen := x.exitSeen.filter fun i => i ≠ f.id }).finish f 0
    else if x.transit = .leavingSlack then (s.onPw c fun x => { x with exitCmds := x.exitCmds ++ [f.id] }).run f
    else if x.level = .slack then ((s.beginExit c 1 false).onPw c fun x => { x with exitCmds := [f.id] }).run f
    else s.finish f 0x01

/-- ACTION 2 commands on channel c that the present exit completes and that have not acted yet: those fetched during it, and those
started by its end. -/
def State.exitsWaiting (s : State) (c : Nat) : List Nat :=
  (s.flights.filter fun f => (f.phase = .started || (f.phase = .fetched && (s.chan c).pw.turnFrom ≤ f.id))
    && f.desc.opcode = 0x1901 && f.desc.target = c && f.desc.action = 2).map (·.id)

/-- The exit has ended: the channel is at its resume level, frames continue with the next multiframe count, and the receiver starts in state 1 without calibration (R412; 11 R258). -/
def State.exitDone (s : State) (c : Nat) : State :=
  let x := (s.chan c).pw
  let seen := s.exitsWaiting c
  let s := s.onChan c fun ch => { ch with
    pw := { ch.pw with level := ch.pw.resume, transit := .none, exitCmds := [], exitSeen := ch.pw.exitSeen ++ seen }
    tf := { ch.tf with sending := true, frame := 0, starts := ((ch.tf.mfc, s.now) :: ch.tf.starts).take 16 }
    opt := { ch.opt with laserOn := true, shutter := false }
    rx := { ch.rx with state := .noSignal, stateNs := s.now, limitNs := s.now, skipCal := true } }
  let s := s.missLeaves c
  let s := ((s.bankSettle c).onConv c fun k => { k.restart s.now with los := false }).raise c 0x1922 1
    (mkWord [(0, 2, x.lastWake), (2, 1, bitOf x.wakeLatched)])
  (s.openOutput c).finishAll x.exitCmds 0

/-- The lanes have returned in parallel (LANE_STATE_REACHED) when the exit ends. -/
def execSlackExitEnd (c : Fin 32) (s : State) : Out :=
  occurs s (s.boot.powered && (s.chan c).pw.transit = .leavingSlack && !(s.chan c).keeperDown
      && (s.chan c).kp.lanes.all fun p => p.2.want.isNone) (s.exitDone c)

/-! ### Channel reset (19 R418, R419; 07 R150) -/

def State.beginReset (s : State) (f : Flight) : State :=
  let c := f.desc.target
  ((s.run f).stopFrames c f.id).onPw c fun x => { x with
    transit := .enteringDark, resetCmd := some f.id, cmd := none, exitCmds := [], settling := false, rampBack := false, armed := {}
    latched := {}, firstLatched := 0, timerDue := none }

/-- The command's deadline lies at time t or after it. -/
def State.dueBy (s : State) (f : Flight) (t : Nat) : Bool :=
  match s.deadline f with | some d => t ≤ d | none => true

/-- The reset begins when the 20 ms that it can take end by its deadline; else nothing changes until the deadline ends it
(02 R30; DEDUCED, log 110). -/
def execChanReset (id : Nat) (s : State) : Out :=
  withCmd s id 0x1410 fun f =>
    let ch := s.chan f.desc.target
    if ch.bu.step = 0 then s.finish f 0x01
    else if ch.locals.any fun l => (ch.trib l).state = .carrying && !(ch.trib l).released then s.finish f 0x03
    else if !s.dueBy f (s.now + 20000000) then s
    else s.beginReset f

/-- The reset has ended in Dark; event 0x1921 is that of a thermal shutdown that has met it (22 R477). -/
def execChanResetDone (c : Fin 32) (s : State) : Out :=
  occursWith s (if s.boot.powered then (s.chan c).pw.resetCmd else none) fun id =>
    let hot := (s.chan c).pw.thermal
    let s := s.goDark c
    (if hot then s.raise c 0x1921 1 1 else s).finishId id 0

/-! ### Status (R415) -/

def Transit.code : Transit → Nat
  | .none => 0 | .clockDown => 1 | .voltageDown => 2 | .voltageUp => 3 | .clockUp => 4 | .enteringSlack => 5
  | .enteringDark => 6 | .leavingSlack => 7

def Wakes.code (w : Wakes) : Nat := bitOf w.command + 2 * bitOf w.light + 4 * bitOf w.timer

/-- PWR_STATUS with the measured core rail in mV and channel power in mW. -/
def execPwrStatus (id : Nat) (vcore power : Nat) (s : State) : Out :=
  withCmd s id 0x1902 fun f =>
    let x := (s.chan f.desc.target).pw
    s.answer f [mkWord [(0, 3, x.level.code), (3, 2, x.resume.code), (5, 3, x.transit.code), (8, 3, x.armed.code),
                        (11, 3, x.latched.code), (14, 2, x.lastWake), (16, 16, vcore), (32, 32, power)],
                mkWord [(0, 24, match x.timerDue with | some d => cdiv (d - s.now) 1000000000 | none => 0)],
                mkWord [(0, 32, x.levelChanges.toNat), (32, 32, x.slackEntries.toNat)], 0]

/-- PWR_MODULE with the measured input and common section powers in mW. -/
def execPwrModule (id : Nat) (input common : Nat) (s : State) : Out :=
  withCmd s id 0x1910 fun f =>
    let count (l : Level) : Nat := ((List.range 32).filter fun c => (s.chan c).pw.level = l).length
    s.answer f [mkWord [(0, 32, input), (32, 32, common)],
                mkWord [(0, 8, count .spring), (8, 8, count .mean), (16, 8, count .neap), (24, 8, count .slack),
                        (32, 8, count .dark)], 0, 0]

end Sys2Proof.Machine
end

