-- ==== Sys2Proof/Machine/FrameTx.lean ====
section
/-! DEFINITION. The transmit direction frame by frame: what each tributary sends, the overhead block, the line frame, the
egress host frame and its lanes, and the boundary of a transmit multiframe (05 R80 to R87, R94, R100; 06 R106 to R119,
R130, R134; 07 R148 to R160; 08 R173 to R189; 13 R304 to R316, R321). -/

namespace Sys2Proof.Machine

/-! ### Slot words (06 R110, R111) -/

/-- The idle word. -/
def idleWord : Word := 0x6A6A6A6A6A6A6A6A

/-- Slot block n of a host or line frame. -/
def slotBlock (ws : List Word) (n : Nat) : List Word := (ws.drop (2048 + 126 * n)).take 126

/-- Word w of the k-th slot in use carries client: `keep` client positions in words 0 to 123, word 124 unless positive,
word 125 when negative. -/
def isClient (keep jc k w : Nat) : Bool :=
  if w ≤ 123 then 124 * k + w < keep else if w = 124 then jc ≠ 1 else jc = 2

/-- Which positions of n slots carry client, in order. -/
def clientMask (n stuff jc : Nat) : List Bool :=
  (List.range n).flatMap fun k => (List.range 126).map fun w => isClient (124 * n - stuff) jc k w

/-- Client words of a frame of n slots (R110). -/
def clientCount (n stuff jc : Nat) : Nat := ((clientMask n stuff jc).filter id).length

/-- The client words of slot blocks in order (R111). -/
def demap (blocks : List (List Word)) (stuff jc : Nat) : List Word :=
  ((List.zip (clientMask blocks.length stuff jc) blocks.flatten).filter fun p => p.1).map Prod.snd

/-- Client words put in their positions, every skipped position the idle word. -/
def layWords : List Bool → List Word → List Word
  | [], _ => []
  | true :: ps, w :: ws => w :: layWords ps ws
  | true :: ps, [] => idleWord :: layWords ps []
  | false :: ps, ws => idleWord :: layWords ps ws

def remap (n stuff jc : Nat) (ws : List Word) : List (List Word) := pieces 126 n (layWords (clientMask n stuff jc) ws)

/-- The justification of one frame (R111, R112). -/
def justify (level target n : Nat) : Nat :=
  if target + n ≤ level then 2 else if level + n ≤ target then 1 else 0

/-! ### Slots in use (R111, R130, R133; 13 R310) -/

/-- Channels whose frames start together with c's: itself, or the sending members of its group that have come as far in the
multiframe as any of them; one that has begun to send later waits at frame 0 for the others' next multiframe (R134;
DEDUCED, log 118). -/
def State.inStep (s : State) (c : Nat) : List Nat :=
  match s.groupOf c with
  | some g =>
    let cs := (membersOf (s.group g).members).filter fun m => (s.chan m).tf.sending
    let most := cs.foldl (fun n m => max n (s.chan m).tf.frame) 0
    cs.filter fun m => (s.chan m).tf.frame = most
  | none => if (s.chan c).tf.sending then [c] else []

/-- Channel c leads the frames that start together. -/
def State.leads (s : State) (c : Nat) : Bool := (s.inStep c).head? = some c

/-- Slots in use for context i in the present transmit frame, in group order: channel and slot. -/
def State.txSlots (s : State) (i : Nat) : List (Nat × Nat) :=
  (s.spanOf i).flatMap fun c =>
    let x := (s.chan c).sl
    (x.inUse x.activeB x.switching.isSome i).map fun n => (c, n)

/-- The context is carried across the members of its group. -/
def State.grouped (s : State) (i : Nat) : Bool :=
  let g := (s.trib i).group
  g ≠ 0 && anchorOf (s.group (g - 1)).members = some (i / 96)

/-- The multiframe count that a context's frames carry: the group's for a group tributary (R119; 07 R148). -/
def State.countOf (s : State) (i : Nat) : BitVec 32 :=
  if s.grouped i then (s.group ((s.trib i).group - 1)).mfc else (s.chan (i / 96)).tf.mfc

/-- The number of the frame that carries a context now: for a group tributary that of the members in step. -/
def State.frameOf (s : State) (i : Nat) : Nat :=
  (s.chan (if s.grouped i then (s.inStep (i / 96)).headD (i / 96) else i / 96)).tf.frame

/-- Frame (M, k)'s record has reached the start of frame (M + 1, k + 1), frame f of multiframe m, without a window. -/
def BurstRecord.expired (r : BurstRecord) (m : BitVec 32) (f : Nat) : Bool :=
  r.limited && 257 + r.frame ≤ 256 * (m - r.mfc).toNat + f

/-- A leaf sends upstream: assigned and not silent (13 R304, R326). -/
def P2mp.upstream (x : P2mp) : Bool := x.mode ≠ .leaf || (x.join = 3 && !x.silent)

/-- Contexts with slots that the channels in step carry: their own, and those of their group, whose anchor may be out of
step or not sending (01 R12). -/
def State.carriedBy (s : State) (cs : List Nat) : List Nat :=
  let anchor := ((s.groupOf (cs.headD 32)).bind fun g => anchorOf (s.group g).members).toList
  (cs ++ anchor).eraseDups.flatMap fun c =>
    ((s.chan c).locals.map (96 * c + ·)).filter fun i => !(s.txSlots i).isEmpty && (cs.contains c || s.grouped i)

/-- Those that send something now; a leaf carries those whose BURST is its kind (13 R310). -/
def State.txContexts (s : State) (cs : List Nat) : List Nat :=
  (s.carriedBy cs).filter fun i =>
    let pm := (s.chan (i / 96)).pm
    pm.mode ≠ .leaf || (pm.upstream && (s.trib i).burst == pm.burst)

/-! ### What one tributary sends -/

inductive TxKind
  | idle
  | failed
  | client (jc : Nat) (words : List Word)

/-- Slot n of an ingress host frame: idle words where its SLOT_STATE is that of an unassigned slot, or the reserved one,
which is treated as it (05 R86). -/
def hostSlot (ws : List Word) (n : Nat) : List Word :=
  if slotState ws n = 0 || slotState ws n = 3 then List.replicate 126 idleWord else slotBlock ws n

/-- Idle while Disabled, while an ingress frame is replaced or missing, while the host marks it failed, and while the host
leaves its lowest slot unassigned (R115, R116; 05 R86). -/
def State.txKind (s : State) (i : Nat) : TxKind :=
  let t := s.trib i
  let slots := s.txSlots i
  let host (c : Nat) : List Word := (s.chan c).kp.ingress.getD []
  match slots with
  | [] => .idle
  | (c0, n0) :: _ =>
    if t.state = .disabled || slots.any (fun p => (s.chan p.1).kp.ingress.isNone) then .idle
    else if slotState (host c0) n0 = 2 then .failed
    else if slotState (host c0) n0 ≠ 1 then .idle
    else .client (slotJc (host c0) n0) (demap (slots.map fun p => hostSlot (host p.1) p.2) t.fixedStuff (slotJc (host c0) n0))

/-- The stream check of a frame (R119). -/
def streamCheck (loc frame : Nat) (count : BitVec 32) (ws : List Word) : BitVec 32 :=
  BitVec.ofNat 32 (crc32c (wordsBytes (mkWord [(0, 7, loc), (7, 8, frame), (15, 32, count.toNat)] :: ws)))

/-- The IV of a frame (07 R148), 12 bytes, most significant first. -/
def lineIv (endId : Bool) (loc epoch frame : Nat) (count : BitVec 32) : List Nat :=
  Crypto.beBytesN 12 (bitOf endId * 2 ^ 95 + loc * 2 ^ 88 + epoch * 2 ^ 64 + count.toNat * 2 ^ 32 + frame * 2 ^ 24)

/-- The additional authenticated data of a frame (07 R149). -/
def lineAad (loc jc n : Nat) : List Nat := Crypto.nats (Word.bytes (mkWord [(0, 7, loc), (7, 2, jc), (9, 14, n)]))

/-- KEY_IND of an epoch (07 R154). -/
def keyIndOf (epoch : Nat) : Nat := if epoch % 2 = 0 then 1 else 2

/-- What a tributary sends in one frame: slots, SLOT_STATE of its JC slot, JC, the words of each slot, what the next
overhead carries of it, and its client words as sent. -/
structure TxTrib where
  i : Nat
  slots : List (Nat × Nat)
  state : Nat
  jc : Nat
  blocks : List (List Word)
  words : List Word
  carried : Carried
  /-- Ciphertext was sent; or zeros for want of a key (07 R159, R160). -/
  ciphered : Bool
  keyless : Bool

/-- Words of a frame encrypted, with the two tag words. -/
def encryptFrame (key : BitVec 256) (iv aad : List Nat) (ws : List Word) : List Word × Word × Word :=
  let r := Crypto.gcmEncrypt (Crypto.keyBytes key) iv aad (Crypto.nats (wordsBytes ws))
  let tag := Crypto.bytesOf r.2
  (bytesWords ws.length (Crypto.bytesOf r.1), byteWord tag 0, byteWord tag 1)

def State.txTrib (s : State) (i : Nat) : TxTrib :=
  let t := s.trib i
  let slots := s.txSlots i
  let n := slots.length
  let frame := s.frameOf i
  let count := s.countOf i
  let check (ws : List Word) : BitVec 32 := streamCheck (i % 96) frame count ws
  let idle := List.replicate (clientCount n t.fixedStuff 0) idleWord
  let plain (state jc : Nat) (ws : List Word) (keyless : Bool) : TxTrib :=
    { i := i, slots := slots, state := state, jc := jc, blocks := remap n t.fixedStuff jc ws, words := ws
      carried := { check := check ws }, ciphered := false, keyless := keyless }
  match s.txKind i with
  | .idle => plain 1 0 idle false
  | .failed => plain 2 0 idle false
  | .client jc ws =>
    if !t.cipher then plain 1 jc ws false
    else
      let x := s.cipherOf i
      match if x.keyless then none else x.current with
      | none => plain 1 jc (ws.map fun _ => 0) true
      | some k =>
        let r := encryptFrame k.key (lineIv x.endId (i % 96) k.epoch frame count) (lineAad (i % 96) jc n) ws
        { i := i, slots := slots, state := 1, jc := jc, blocks := remap n t.fixedStuff jc r.1, words := r.1
          carried := { tagLo := r.2.1, tagHi := r.2.2, keyInd := keyIndOf k.epoch, check := check ws }
          ciphered := true, keyless := false }

/-- The counters of a frame sent, and the end of a disable whose last frame has left (R106, R110; 07 R159, R160). A JC of 0b11
that the host sends counts in JC_INVALID as one that is received from the line (DESIGN CHOICE, log 128). -/
def State.txCounted (s : State) (x : TxTrib) : State :=
  let x' := s.cipherOf x.i
  let s := if x.ciphered then s.drawMasks (x.i / 96) else s
  let s := if (s.trib x.i).cipher then
      s.setCipherOf x.i { x' with
        txInd := x.carried.keyInd, curFrames := if x.ciphered then x'.curFrames + 1 else x'.curFrames
        noKeyTx := if x.keyless then x'.noKeyTx + 1 else x'.noKeyTx }
    else s
  let ids := (s.trib x.i).draining
  let s := s.onTrib x.i fun t => { t with
    pjTx := if x.jc = 1 then t.pjTx + 1 else t.pjTx, njTx := if x.jc = 2 then t.njTx + 1 else t.njTx
    jcInvalid := if x.jc = 3 then t.jcInvalid + 1 else t.jcInvalid }
  if ids.isEmpty then s else (s.onTrib x.i Trib.drained).finishAll ids 0

/-! ### The overhead block (08 R178 to R189) -/

/-- Words 4 and 5 of a group member (R181). -/
def State.groupMarker (s : State) (c : Nat) : List Word :=
  match s.groupOf c with
  | some g => [mkWord [(0, 1, 1), (1, 3, g), (4, 3, (membersOf (s.group g).members).idxOf c), (32, 32, (s.group g).mfc.toNat)], 0]
  | none => [0, 0]

/-- Word 48 of frame f (R183); only the anchor advertises a group tributary, whose context lies in its block. -/
def State.advertWord (s : State) (c f : Nat) : Word :=
  let l := f % 128
  if l < 96 && ((s.chan c).trib l).cipher && ((s.chan c).trib l).state ≠ .free then ((s.chan c).cipher l).advert else 0

/-- Words 64 to 511: what the last frame's tributaries left for this one (R184). -/
def carriedWords (m : Sparse Carried) : List Word :=
  let x (l : Nat) : Carried := m.get {} l
  ((List.range 96).flatMap fun l => [(x l).tagLo, (x l).tagHi]) ++
    ((List.range 3).map fun k => mkWord ((List.range 32).map fun j => (2 * j, 2, (x (32 * k + j)).keyInd))) ++
    List.replicate 5 0 ++
    ((List.range 48).map fun k => mkWord [(0, 32, (x (2 * k)).check.toNat), (32, 32, (x (2 * k + 1)).check.toNat)]) ++
    List.replicate 200 0

/-- Slot control, words 1,024 to 1,151: 4 bits per line slot (R185). -/
def controlWords (m : Sparse Nat) : List Word :=
  ((List.range 100).map fun k => mkWord ((List.range 16).map fun j => (4 * j, 4, m.get 0 (16 * k + j)))) ++ List.replicate 28 0

/-- The message that is being sent, the next one when none is (R189). -/
def TxFrame.open_ (x : TxFrame) : TxFrame :=
  match x.current, x.queue with
  | none, m :: q =>
    let ws := bytesWords (cdiv m.bytes.length 8) m.bytes ++ [mkWord [(0, 32, crc32c m.bytes)]]
    { x with current := some { msg := m, words := ws }, queue := q, msgSeq := x.msgSeq + 1 }
  | _, _ => x

/-- Words 1,152 to 1,279 of the coming frame. -/
def TxFrame.chunk (x : TxFrame) : List Word :=
  match x.current with
  | some m =>
    let ws := (m.words.drop m.sent).take 127
    let last := m.words.length ≤ m.sent + 127
    mkWord [(0, 7, ws.length), (7, 1, bitOf (m.sent = 0)), (8, 1, bitOf last), (9, 3, m.msg.cls), (16, 16, x.msgSeq.toNat),
            (32, 16, m.msg.bytes.length)] :: padTo 127 0 ws
  | none => List.replicate 128 0

/-- The chunk has entered a frame; with its last word a host message's command completes (04 R76). -/
def State.chunkSent (s : State) (c : Nat) : State :=
  match (s.chan c).tf.current with
  | some m =>
    if m.words.length ≤ m.sent + 127 then
      (s.onChan c fun ch => { ch with tf := { ch.tf with current := none, msgTx := ch.tf.msgTx + 1 } }).finishOpt m.msg.cmd 0
    else s.onChan c fun ch => { ch with tf := { ch.tf with current := some { m with sent := m.sent + 127 } } }
  | none => s

/-- The overhead check of a block (R188): CRC-32C over words 2 and 4 to 2,047. -/
def ohCheck (ws : List Word) : Nat := crc32c (wordsBytes (wd ws 2 :: ws.drop 4))

/-- Words 0 to 2,047 of channel c's coming frame, unscrambled. -/
def State.overhead (s : State) (c : Nat) (control : Sparse Nat) : List Word :=
  let ch := s.chan c
  let f := ch.tf.frame
  let p2p := ch.pm.mode = .pointToPoint
  let bank := s.bankWords c
  let ws := [0xF62853A7C90E6B1D, 0x2E84B7D013F9A65C,
      mkWord [(0, 8, f), (8, 32, ch.tf.mfc.toNat), (40, 1, bitOf ch.sl.activeB), (41, 1, bitOf ch.sl.switching.isSome)],
      mkWord [(32, 1, bitOf (ch.pm.mode ≠ .hub && ch.rf.state ≠ .inFrame))]] ++ s.groupMarker c ++ [0, 0] ++
    (if p2p then [bank.1, bank.2.1] ++ List.replicate 6 0 ++ ch.lxOut ++ ch.lxStatus else List.replicate 40 0) ++
    [s.advertWord c f] ++ List.replicate 15 0 ++ carriedWords ch.tf.carried ++
    (match ch.pm.mode with
     | .pointToPoint => List.replicate 512 0
     | .hub => s.hubRegion c f
     | .leaf => s.leafRegion c) ++
    controlWords (control.filter fun p => p.1 < ch.sTx) ++ ch.tf.chunk ++ List.replicate 768 0
  ws.take 3 ++ [wd ws 3 ||| mkWord [(0, 32, ohCheck ws)]] ++ ws.drop 4

/-! ### The line frame -/

/-- The line slot of hub slot n in channel c's own frame: at a leaf its window starts at slot 0 (13 R310). -/
def Channel.lineSlot (ch : Channel) (n : Nat) : Nat := if ch.pm.mode = .leaf then n - ch.pm.slotBase else n

/-- Blocks and control nibbles of channel c's slots. -/
def Channel.lay (ch : Channel) (c : Nat) (xs : List TxTrib) : Sparse (List Word) × Sparse Nat :=
  xs.foldl (fun acc x =>
    (x.slots.zip x.blocks).zipIdx.foldl (fun acc q =>
      if q.1.1.1 ≠ c then acc
      else
        let n := ch.lineSlot q.1.1.2
        (acc.1.insert n q.1.2, acc.2.insert n (if q.2 = 0 then 4 * x.state + x.jc else 4))) acc) ([], [])

/-- A burst leaf makes records of its frame instead of a line frame (13 R320, R321). -/
def Channel.frameRecords (ch : Channel) (xs : List TxTrib) : List BurstRecord :=
  (xs.map fun x =>
    { words := mkWord [(0, 3, 1), (3, 7, x.i % 96), (10, 8, ch.tf.frame), (18, 24, ch.tf.mfc.toNat), (42, 2, x.carried.keyInd),
                       (44, 2, x.jc), (46, 1, bitOf (x.state = 2)), (47, 1, bitOf ch.sl.activeB), (48, 15, x.words.length)] ::
                x.words ++ (if x.carried.keyInd = 0 then [] else [x.carried.tagLo, x.carried.tagHi]) ++
                [mkWord [(0, 32, x.carried.check.toNat)]]
      mfc := ch.tf.mfc, frame := ch.tf.frame, limited := true }) ++
  (match ch.tf.current with
   | some _ => [{ words := mkWord [(0, 3, 2)] :: ((ch.tf.chunk.take 1) ++ (ch.tf.chunk.drop 1).take ((wd ch.tf.chunk 0).bits 6 0))
                  mfc := ch.tf.mfc, frame := ch.tf.frame, limited := false }]
   | none => [])

/-- Channel c's light leaves the module: laser on, shutter open, output not blanked (12 R293). -/
def State.emits (s : State) (c : Nat) : Bool :=
  (s.chan c).opt.laserOn && !(s.chan c).opt.shutter && !s.blanked c

/-- A frame has been sent: the REJECTs of both negotiations have one frame less of their multiframe to go. -/
def State.bodySent (s : State) (c : Nat) : State := (s.bankSent c (s.bankWords c).2.2).lxSent c

/-- A burst leaf's records that can no longer meet their limit are dropped (13 R321). -/
def P2mp.dropLate (x : P2mp) (m : BitVec 32) (f : Nat) : P2mp :=
  { x with ready := x.ready.filter fun r => !r.expired m f
           recDrop := x.recDrop + BitVec.ofNat 32 (x.ready.filter fun r => r.expired m f).length }

/-- Channel c's frame of the present frame period goes out, and the frame number advances. -/
def State.sendFrame (s : State) (xs : List TxTrib) (c : Nat) : State :=
  let s := s.onChan c fun ch => if ch.pm.upstream then { ch with tf := ch.tf.open_ } else ch
  let ch := s.chan c
  let m := ch.lay c xs
  let oh := s.overhead c m.2
  let ws := oh ++ ((List.range ch.sTx).flatMap fun n => m.1.get (List.replicate 126 idleWord) n)
  let sent := scrambleFrame ch.tf.mfc ch.tf.frame ws
  let burst := ch.pm.mode = .leaf && ch.pm.burst
  let mine := xs.filter fun x => x.i / 96 = c
  let s := if !ch.pm.upstream then s
    else if burst then s.onPm c fun x => { x with ready := x.ready ++ ch.frameRecords mine }
    else if s.emits c then
      s.emit (.lineFrame c (s.txClock c) sent ch.bu.params.centre (gridWidth ch.bu.params.rate)
        (ch.onLaser (framePeriod ch.ld.tx ch.bu ch.negated (codeFrame ch.fec.txOffshore sent))))
    else s
  let s := if !ch.pm.upstream then s else match ch.pm.mode with
    | .pointToPoint => (s.bodySent c).chunkSent c
    | .hub => (s.cellsSent c ch.tf.frame).chunkSent c
    | .leaf => ((if burst then s else s.leafBodySent c).bodySent c).chunkSent c
  s.onChan c fun y => { y with
    tf := { y.tf with frame := ch.tf.frame + 1, lastOh := some oh
                      carried := mine.foldl (fun k x => k.insert (x.i % 96) x.carried) [] }
    pm := { y.pm.dropLate ch.tf.mfc ch.tf.frame with eqdNow := if y.pm.eqdNow < y.pm.eqd then y.pm.eqdNow + 1 else if y.pm.eqd < y.pm.eqdNow then y.pm.eqdNow - 1
                                else y.pm.eqdNow } }

/-! ### The egress host frame (05 R80 to R87, R100; 06 R112 to R117) -/

/-- The 66-bit block of the CLIENT 1 replacement, in the order sent: header 0b10, type 0x4B, local fault (R117). -/
def faultBlock : List Bool := [true, false] ++ wordBits 0x000000000100004B

/-- n replacement words of a tributary whose replacement has sent `phase` bits of a block. -/
def replacement (client phase n : Nat) : List Word :=
  if client = 0 then List.replicate n idleWord
  else (List.range n).map fun j => mkWord ((List.range 64).map fun b => (b, 1, bitOf (faultBlock.getD ((phase + 64 * j + b) % 66) false)))

/-- The receiver that context i's slots arrive on is In-frame: its channels', or its leaf's at a hub. -/
def State.rxAligned (s : State) (slots : List (Nat × Nat)) : Bool :=
  slots.all fun p =>
    let ch := s.chan p.1
    match ch.pm.mode with
    | .hub => match ch.pm.leafOfSlot p.2 with
      | some j => !(ch.pm.leaf j).unheard
      | none => false
    | _ => ch.rf.state = .inFrame

/-- What the host receives of one tributary in one egress frame. -/
structure EgTrib where
  i : Nat
  slots : List (Nat × Nat)
  state : Nat
  jc : Nat
  blocks : List (List Word)

/-- What is measured of receive buffers: context, words of the last received frame that are still to come out of frame
disassembly, and the client words received in a multiframe, the measured rate. -/
abbrev Levels := List (Nat × Nat × Nat)

/-- Words that make 500 ns at a rate of n words in a multiframe of 2.048 ms, to the nearest (R112; DEDUCED, log 40). -/
def depthWords (n : Nat) : Nat := (2 * 500 * n + 2048000) / (2 * 2048000)

/-- Buffered words without k of them: R114 does not say which are dropped, so their place is free (log 40). -/
def State.dropWords (s : State) (k : Nat) (ws : List Word) : List Word :=
  let p := s.freeVal 0 32 % (ws.length + 1 - k)
  ws.take p ++ ws.drop (p + k)

/-- Buffered words with k repeats of one of them, of the last word delivered when none waits: R114 does not say which word
is repeated, so its place is free, and the word where there was none before (log 40). -/
def State.repeatWords (s : State) (k : Nat) (last : Option Word) (ws : List Word) : List Word :=
  match ws with
  | [] => List.replicate k (last.getD (BitVec.ofNat 64 (s.freeVal 1 64)))
  | w :: rest =>
    let p := s.freeVal 0 32 % (rest.length + 1)
    (w :: rest).take p ++ List.replicate k ((w :: rest).getD p w) ++ (w :: rest).drop p

/-- A buffer starts once it holds enough for the frames that follow to find their words in it whichever part of a received frame is
then still to come (DESIGN CHOICE, log 165). -/
def startsAt (n stuff : Nat) : Int := clientCount n stuff 2 + n

/-- One tributary enters the egress frame: its words, or the replacement while they cannot be delivered. A buffer that starts
counts as filled to its full depth (R23, R112). It slips when its depth would fall below 0, or exceed by the buffer's room what
justification may leave (R114; DESIGN CHOICE, log 165). -/
def State.egress (s : State) (lv : Levels) (i : Nat) : State × EgTrib :=
  let t := s.trib i
  let slots := s.txSlots i
  let n := slots.length
  let m := ((lv.find? fun q => q.1 = i).map Prod.snd).getD (0, 0)
  let target := depthWords m.2
  let waiting : Int := (t.fifo.length : Int) - (m.1 : Int)
  let pad := t.pad.getD ((target : Int) - waiting)
  let out (state jc : Nat) (ws : List Word) : EgTrib :=
    { i := i, slots := slots, state := state, jc := jc, blocks := remap n t.fixedStuff jc ws }
  let gone := t.rxIdle || !s.rxAligned slots
  let w0 := clientCount n t.fixedStuff 0
  let repl := out 2 0 (replacement t.client t.replBit w0)
  let replaced (t : Trib) : Trib := { t with framesRepl := t.framesRepl + 1, replBit := (t.replBit + 64 * w0) % 66 }
  if gone || (t.pad.isNone && waiting < startsAt n t.fixedStuff) then
    (s.setTrib i { replaced t with
      fifo := if gone then [] else t.fifo, pad := none, slipRun := 0, cleanRun := t.cleanRun + 1 }, repl)
  else
    let level := waiting + pad
    let jc := justify level.toNat target n
    let w := clientCount n t.fixedStuff jc
    let dry := level < 0 || t.fifo.length < w
    let full := ((target + 2 * n + Config.rxBuffer : Nat) : Int) < level
    let all := if dry then s.repeatWords (max ((target : Int) - level).toNat (w - t.fifo.length)) t.lastWord t.fifo
      else if full then s.dropWords (min (level - (target : Int)).toNat (t.fifo.length - w)) t.fifo else t.fifo
    let ws := all.take w
    let slip := dry || full
    let t : Trib := { t with
      fifo := all.drop w, lastWord := ws.getLast?.or t.lastWord, pad := some pad
      slip := if slip then t.slip + 1 else t.slip, slipRun := if slip then t.slipRun + 1 else 0
      cleanRun := if slip then 0 else t.cleanRun + 1 }
    let s := if slip then s.draw.raise (i / 96) 0x1022 2 (mkWord [(0, 12, i), (16, 1, bitOf (!dry))]) else s
    if t.state = .failed then (s.setTrib i (replaced t), repl)
    else (s.setTrib i { t with pjRx := if jc = 1 then t.pjRx + 1 else t.pjRx, njRx := if jc = 2 then t.njRx + 1 else t.njRx },
          out 1 jc ws)

/-- The words of channel c's egress host frame (R84, R86). LINE_OK of a hub is 1 while a leaf with a number is heard
(DESIGN CHOICE, log 129). -/
def State.hostWords (s : State) (es : List EgTrib) (c : Nat) : List Word :=
  let ch := s.chan c
  let laid : Sparse (List Word) × Sparse Nat := es.foldl (fun acc e =>
    (e.slots.zip e.blocks).zipIdx.foldl (fun acc q =>
      if q.1.1.1 ≠ c then acc
      else (acc.1.insert q.1.1.2 q.1.2, acc.2.insert q.1.1.2 (4 * e.state + if q.2 = 0 then e.jc else 0))) acc) ([], [])
  let ok (p : Nat) : Nat := bitOf ((ch.kp.lane p).blk.lock && (ch.kp.lane p).aligned)
  let lineOk := match ch.pm.mode with
    | .hub => ch.pm.leaves.any fun q => q.2.assigned && !q.2.unheard
    | _ => ch.rf.state = .inFrame
  [0x3C5A96E10F78B4D2, 0xC3A5691EF0874B2D, mkWord [(0, 8, ch.tf.frame), (8, 32, ch.tf.mfc.toNat), (40, 5, c)],
   mkWord [(0, 1, ok 0), (1, 1, ok 1), (2, 1, ok 2), (3, 1, ok 3), (4, 1, bitOf lineOk), (5, 1, bitOf ch.kp.replaced)]] ++
    (controlWords laid.2).take 100 ++ List.replicate 1944 0 ++
    (List.range 1600).flatMap fun n =>
      laid.1.get (List.replicate 126 (if n < max ch.sTx ch.sRx then idleWord else 0)) n

/-- One lane of the egress frame: a marker, the data blocks of an Active lane, and `fill` fill blocks (R82, R83, R95). The
BIP8 takes in every block of the lane that is not a marker, ingress fault fill blocks too (DEDUCED, log 111). -/
def State.sendLane (s : State) (c : Nat) (host : List Word) (p fill : Nat) : State :=
  let ch := s.chan c
  let l := ch.kp.lane p
  if l.state = .deep then s
  else
    let data := if l.state = .active then (host.zipIdx.filter fun q => q.2 % 4 = p).map fun q => (dataHeader, q.1) else []
    let filler : Word := if l.fault = 0 then mkWord [(0, 8, 0xA2)] else mkWord [(0, 8, 0xA3), (8, 3, l.fault)]
    let blocks := data ++ List.replicate fill (controlHeader, filler)
    let r := scrambleBlocks l.scrambler blocks
    let x := l.marker
    let s := s.emit (.laneFrame (4 * c + p) (preCursor x.preset) (postCursor x.preset)
      ((controlHeader, markerWord (4 * c + p) ch.tf.frame l.bip ch.tf.mfc) :: r.1))
    s.onLane (4 * c + p) fun l =>
      { l.marker with scrambler := r.2, bip := blocks.foldl (fun b q => b ^^^ Word.xorBytes q.2) 0 }

/-- Channel c's egress host frame goes out, and the ingress frame of this frame number has been used. `fills` gives the
fill blocks of each lane, which its bit clock decides. -/
def State.sendHost (s : State) (es : List EgTrib) (fills : List Nat) (c : Nat) : State :=
  let ws := s.hostWords es c
  let s := if (List.range 4).any fun p => ((s.chan c).kp.lane p).state = .active then s.emit (.hostFrame c (s.txClock c) ws) else s
  (List.range 4).foldl (fun s p => s.sendLane c ws p (fills.getD p 0)) s

/-- No ingress host frame was taken for this frame number although the lanes carry: it counts as replaced (R99). -/
def State.missHost (s : State) (c : Nat) : State :=
  let x := (s.chan c).kp
  if x.taken || !x.carrying then s
  else
    let s := if x.replRun = 0 then
        s.raise c 0x1464 3 (mkWord [(0, 8, (s.chan c).tf.frame), (8, 32, (s.chan c).tf.mfc.toNat)]) else s
    s.onKp c fun x => { x with replRun := x.replRun + 1, lanes := x.lanes.map fun p => (p.1, { p.2 with
      framesRepl := p.2.framesRepl + 1, replRun := if p.2.fault ≠ 0 || p.2.due ≠ 0 || p.2.replRun ≠ 0 then p.2.replRun + 1 else 0 }) }

/-- The frame number has gone out: ING_REPLACED follows for the next egress frame when the channel carries and the ingress
frame was replaced or missing. -/
def State.usedHost (s : State) (c : Nat) : State :=
  s.onKp c fun x => { x with replaced := x.carrying && x.ingress.isNone, ingress := none, taken := false }

end Sys2Proof.Machine
end

