-- ==== Sys2Proof/Machine/FrameRx.lean ====
section
/-! DEFINITION. The receive direction frame by frame: alignment, numbering, damaged overheads, what each tributary
delivers, groups, the message channel, remote defects, and the line frame's commands (06 R112 to R121, R135, R136; 07 R157
to R163; 08 R188 to R197; 09 R213, R214). -/

namespace Sys2Proof.Machine

/-! ### Alignment (08 R193) -/

def faw0 : Word := 0xF62853A7C90E6B1D
def faw1 : Word := 0x2E84B7D013F9A65C

def exactFaw (ws : List Word) : Bool := wd ws 0 = faw0 && wd ws 1 = faw1

/-- Bits of the window that differ from the alignment word. -/
def fawErrors (ws : List Word) : Nat :=
  ((wordBits (wd ws 0 ^^^ faw0) ++ wordBits (wd ws 1 ^^^ faw1)).filter id).length

/-- What a search finds: candidates held with their due positions, candidates that failed at theirs, and the position of the
confirming frame. -/
structure Scan where
  cands : List Nat
  dropped : Nat
  found : Option Nat

/-- The next positions from p on, tested in order; frames are l words long. -/
def scan (l : Nat) : Nat → Nat → Scan → List Word → Scan
  | 0, _, x, _ => x
  | n + 1, p, x, ws =>
    let hit := exactFaw ws
    if x.cands.contains p then
      if hit then { cands := [], dropped := x.dropped, found := some p }
      else scan l n (p + 1) { x with cands := x.cands.erase p, dropped := x.dropped + 1 } (ws.drop 1)
    else scan l n (p + 1) (if hit && x.cands.length < 4 then { x with cands := x.cands ++ [p + l] } else x) (ws.drop 1)

/-- The words of one frame period come to the aligner, which takes frames of l words: its state after the test of its positions,
and the frame that is whole now, with whether it is the confirming one. A frame period coded under the other profile never
matches (09 R199: `same`). -/
def RxFrame.align (x : RxFrame) (l : Nat) (same : Bool) (ws : List (Word × Bool)) :
    RxFrame × Option (List (Word × Bool) × Bool) :=
  let buf := x.tail ++ ws
  match x.state with
  | .inFrame =>
    if buf.length < l then ({ x with tail := buf }, none)
    else
      let hit := same && fawErrors (buf.map Prod.fst) ≤ 8
      ({ x with misses := if hit then 0 else x.misses + 1, fawMiss := if hit then x.fawMiss else x.fawMiss + 1
                tail := buf.drop l, fresh := false }, some (buf.take l, x.fresh))
  | _ =>
    let n := buf.length - 1
    let r := scan l n 0 { cands := x.cands, dropped := 0, found := none } (if same then buf.map Prod.fst else buf.map fun _ => 0)
    let x := { x with dropped := x.dropped + r.dropped, falseCand := x.falseCand + BitVec.ofNat 32 r.dropped }
    match r.found with
    | some p =>
      let rest := buf.drop p
      let y := { x with state := .inFrame, cands := [], misses := 0 }
      if rest.length < l then ({ y with tail := rest, fresh := true }, none)
      else ({ y with tail := rest.drop l, fresh := false }, some (rest.take l, true))
    | none =>
      ({ x with state := if r.cands.isEmpty then .search else .candidate, cands := r.cands.map (· - n), tail := buf.drop n }, none)

/-! ### Numbers and the bank (08 R188, R194) -/

/-- The numbers that follow (mfc, frame). -/
def nextNumbers (m : BitVec 32) (f : Nat) : BitVec 32 × Nat := if f = 255 then (m + 1, 0) else (m, f + 1)

/-- A frame's overhead check passes. -/
def frameOk (ws : List Word) : Bool := ohCheck (ws.take 2048) = (wd ws 3).bits 31 0

/-- Numbers carried in word 2. -/
def carriedNumbers (ws : List Word) : BitVec 32 × Nat := (BitVec.ofNat 32 ((wd ws 2).bits 39 8), (wd ws 2).bits 7 0)

/-- The numbering of a frame, from the receiver's expectation and the frame's own numbers when its check passes; `fresh`:
it is the confirming frame. The count that was expected is given when a new numbering is adopted. -/
def RxFrame.number (x : RxFrame) (fresh ok : Bool) (n : BitVec 32 × Nat) : RxFrame × Option (BitVec 32) :=
  let set (y : RxFrame) (m : BitVec 32 × Nat) : RxFrame := { y with mfc := m.1, frame := m.2 }
  if fresh || !x.numKnown then
    (if ok then set { x with numKnown := true, jump := none } n else { x with numKnown := false, jump := none }, none)
  else
    let e := nextNumbers x.mfc x.frame
    let later := x.jump.map fun j => let k := nextNumbers j.1 j.2.1; (k.1, k.2, j.2.2)
    if !ok then (set { x with jump := later } e, none)
    else if n = e then (set { x with jump := none } e, none)
    else match x.jump with
      | some j =>
        if n = (j.1, j.2.1) then (set { x with jump := none } n, some j.2.2)
        else (set { x with numJump := x.numJump + 1, jump := (let k := nextNumbers n.1 n.2; some (k.1, k.2, e.1)) } e, none)
      | none => (set { x with numJump := x.numJump + 1, jump := (let k := nextNumbers n.1 n.2; some (k.1, k.2, e.1)) } e, none)

/-! ### FEC counts (09 R213, R214, R217) -/

/-- The sums of received multiframe m with a frame's: they go on, or begin anew for another multiframe (R218). -/
def Fec.sum (x : Fec) (m : BitVec 32) (g : FecSums → FecSums) : List FecSums :=
  match x.sums with
  | y :: ys => if y.mfc = m then g y :: ys else [g { mfc := m }, y]
  | [] => [g { mfc := m }]

/-- The counts of one received frame's units, and the sums of the received multiframe that its frame belongs to, if any (R218); the
first frame of a run with uncorrectable units raises event 0x14A0. A unit with a changed bit counts as corrected whether or not it
is correctable (R217). -/
def State.fecFrame (s : State) (c : Nat) (us : List Decoded) (coded : Nat) (place : Option (BitVec 32)) : State :=
  let x := (s.chan c).fec
  let count (p : Decoded → Bool) : Nat := (us.filter p).length
  let to0 := (us.map (·.to0)).sum
  let to1 := (us.map (·.to1)).sum
  let bad := count fun u => !u.ok
  let s := s.onFec c fun x => { x with
    unitsRx := x.unitsRx + BitVec.ofNat 64 us.length
    unitsCorrected := x.unitsCorrected + BitVec.ofNat 64 (count fun u => 0 < u.to0 + u.to1)
    bits1to0 := x.bits1to0 + BitVec.ofNat 64 to0, bits0to1 := x.bits0to1 + BitVec.ofNat 64 to1
    unitsUncorr := x.unitsUncorr + BitVec.ofNat 32 bad, outerCorr := x.outerCorr + BitVec.ofNat 32 (count (·.outer))
    iterMaxHit := x.iterMaxHit + BitVec.ofNat 32 (count fun u => u.iters = 16)
    framesErr := if bad = 0 then x.framesErr else x.framesErr + 1
    uncorrRun := if bad = 0 then 0 else if x.uncorrRun < 256 then x.uncorrRun + 1 else x.uncorrRun
    uncorrFirst := if bad ≠ 0 && x.uncorrRun = 0 then bad else x.uncorrFirst
    sums := match place with
      | some m => x.sum m fun y => { y with
          bits := y.bits + to0 + to1, coded := y.coded + coded, uncorr := y.uncorr + bad, units := y.units + us.length
          iters := y.iters + (us.map (·.iters)).sum }
      | none => x.sums }
  if bad ≠ 0 && x.uncorrRun = 0 then s.raise c 0x14A0 2 (mkWord [(0, 16, 1), (16, 32, bad)]) else s

/-! ### Block synchronisation of a CLIENT 1 stream (06 R118) -/

/-- The header of one 66-bit block is checked; invalid ones count under block lock only (DESIGN CHOICE, log 130). -/
def Trib.block (t : Trib) (valid : Bool) : Trib :=
  let r := t.blk.header valid
  { t with blk := r.1, blkHdrErr := if t.blk.lock && !valid then t.blkHdrErr + 1 else t.blkHdrErr
           blkSyncLoss := if r.2 then t.blkSyncLoss + 1 else t.blkSyncLoss }

/-- Bits are read as blocks; without lock an invalid header moves the block boundary by one bit. -/
def Trib.readBlocks : Nat → Trib → List Bool → Trib
  | 0, t, bs => { t with blkBits := bs }
  | fuel + 1, t, bs =>
    if bs.length < 66 then { t with blkBits := bs }
    else
      let valid := bs.getD 0 false != bs.getD 1 false
      Trib.readBlocks fuel (t.block valid) (bs.drop (if !valid && !t.blk.lock then 1 else 66))

def Trib.blockSync (t : Trib) (ws : List Word) : Trib :=
  if t.client ≠ 1 then t
  else
    let bs := t.blkBits ++ wordsBits ws
    Trib.readBlocks bs.length t bs

/-! ### Ciphered tributaries (07 R157, R161 to R163) -/

/-- What overhead words carry of the previous frame for a LOCAL index (08 R184). -/
def carriedOf (oh : List Word) (l : Nat) : Carried :=
  { tagLo := wd oh (64 + 2 * l), tagHi := wd oh (65 + 2 * l)
    keyInd := (wd oh (256 + l / 32)).bits (2 * (l % 32) + 1) (2 * (l % 32))
    check := BitVec.ofNat 32 ((wd oh (264 + l / 2)).bits (32 * (l % 2) + 31) (32 * (l % 2))) }

/-- A frame fails authentication: counted, and reported at the first of a run. -/
def State.authFailed (s : State) (i : Nat) (errored : Bool) : State :=
  let x := s.cipherOf i
  let s := s.setCipherOf i { x with
    authFail := x.authFail + 1, authFailErrored := if errored then x.authFailErrored + 1 else x.authFailErrored
    failRun := if x.failRun < 16 then x.failRun + 1 else x.failRun }
  if x.failRun = 0 then s.raise (i / 96) 0x1253 2 (mkWord [(0, 12, i), (16, 16, 1)]) else s

/-- KEY_IND as received: for how many frames in a row the far end has named a parity. -/
def Cipher.named (x : Cipher) (keyInd : Nat) : Cipher :=
  if keyInd = 1 || keyInd = 2 then
    let p := keyInd - 1
    { x with rxParity := p, rxParityRun := if p = x.rxParity then x.rxParityRun + 1 else 1 }
  else { x with rxParityRun := 0 }

/-- The key whose epoch has the parity that KEY_IND names. -/
def Cipher.keyFor (x : Cipher) (keyInd : Nat) : Option LineKey :=
  if keyInd = 1 || keyInd = 2 then
    (x.current.toList ++ x.next.toList ++ x.retiring).find? fun k => k.epoch % 2 = keyInd - 1
  else none

/-- The client words of a frame: as received, decrypted, zeros when authentication fails, or none when the replacement
stands in its place; and whether its stream check can be evaluated. -/
def State.clientWords (s : State) (i : Nat) (count : BitVec 32) (frame jc n : Nat) (ws : List Word) (errored : Bool)
    (tail : Option Carried) : State × Option (List Word) × Bool :=
  if !(s.trib i).cipher then (s, some ws, tail.isSome)
  else
    let x := s.cipherOf i
    let zeros := ws.map fun _ => (0 : Word)
    match tail with
    | none => ((s.setCipherOf i { x with rxParityRun := 0 }).authFailed i errored, some zeros, false)
    | some t =>
      let x := x.named t.keyInd
      match x.keyFor t.keyInd with
      | none => (s.setCipherOf i { x with noKeyRx := x.noKeyRx + 1, failRun := 0 }, none, false)
      | some k =>
        let s := s.drawMasks (i / 96)
        match Crypto.gcmDecrypt (Crypto.keyBytes k.key) (lineIv (!x.endId) (i % 96) k.epoch frame count) (lineAad (i % 96) jc n)
            (Crypto.nats (wordsBytes ws)) (Crypto.nats (wordsBytes [t.tagLo, t.tagHi])) with
        | none => ((s.setCipherOf i { x with rxEpoch := k.epoch }).authFailed i errored, some zeros, false)
        | some p => (s.setCipherOf i { x with rxEpoch := k.epoch, failRun := 0 }, some (bytesWords ws.length (Crypto.bytesOf p)), true)

/-! ### Delivery (06 R112 to R121) -/

/-- The stream check of a frame passes or fails. -/
def Trib.checked (t : Trib) (pass : Bool) : Trib :=
  if pass then { t with passRun := t.passRun + 1, failRun := 0 }
  else { t with failRun := t.failRun + 1, passRun := 0, checkFail := t.checkFail + 1 }

/-- Words enter the justification buffer. -/
def Trib.enqueue (t : Trib) (ws : List Word) : Trib := { t with fifo := t.fifo ++ ws }

/-- What one frame brings of context i: its slots, justification code as received, failed flag, client words as received, and
whether it is errored or not demapped. -/
structure RxTrib where
  i : Nat
  n : Nat
  jc : Nat
  failed : Bool
  words : List Word
  errored : Bool
  replaced : Bool

/-- A frame of a context with its count and number, and what the next overhead, or its record, says of it. -/
def State.deliver (s : State) (x : RxTrib) (count : BitVec 32) (frame : Nat) (tail : Option Carried) : State :=
  let i := x.i
  let t := s.trib i
  if t.state = .free then s
  else if x.replaced || x.n = 0 then s.onTrib i Trib.idled
  else
    let errored := x.errored || (t.cipher && tail.isNone)
    let s := s.onTrib i fun t => { t with
      frames := t.frames + 1, framesErrored := if errored then t.framesErrored + 1 else t.framesErrored
      jcInvalid := if x.jc = 3 then t.jcInvalid + 1 else t.jcInvalid }
    let r := s.clientWords i count frame x.jc x.n x.words errored tail
    let s := match r.2.1, tail with
      | some ws, some k => if r.2.2 && !errored then
          r.1.onTrib i fun t => t.checked (k.check = streamCheck (i % 96) frame count ws) else r.1
      | _, _ => r.1
    match r.2.1 with
    | none => s.onTrib i Trib.idled
    | some ws =>
      if x.failed || (x.jc = 0 && x.words.all (· = idleWord)) then s.onTrib i Trib.idled
      else s.onTrib i fun t => { (t.blockSync ws).enqueue ws with rxIdle := false }

/-- What a held frame brings, demapped; an invalid justification code acts as none. The frame is errored when one of its
client words was uncorrectable (R121). -/
def HeldTrib.demapped (x : HeldTrib) (stuff : Nat) : RxTrib :=
  let jc := if x.nib % 4 = 3 then 0 else x.nib % 4
  let keep := 124 * x.blocks.length - stuff
  { i := x.i, n := x.blocks.length, jc := x.nib % 4, failed := x.nib / 4 = 2, words := demap x.blocks stuff jc
    errored := x.errored || x.bad.any fun q => isClient keep jc q.1 q.2, replaced := x.replaced }

def State.deliverHeld (s : State) (x : HeldTrib) (count : BitVec 32) (frame : Nat) (tail : Option Carried) : State :=
  s.deliver (x.demapped (s.trib x.i).fixedStuff) count frame tail

/-! ### Demapping a frame -/

/-- Contexts that a frame of channel c can carry: its own, and those of its group's anchor; at a hub those with a slot in
the window of the leaf being worked on. -/
def State.rxContexts (s : State) (c : Nat) : List Nat :=
  let ch := s.chan c
  let far : List Nat := match s.groupOf c with
    | some g => match anchorOf (s.group g).members with
      | some a => if a = c then [] else ((s.chan a).locals.map (96 * a + ·)).filter fun i => (s.trib i).group = g + 1
      | none => []
    | none => []
  match ch.pm.pair with
  | some j => (ch.locals.map (96 * c + ·)).filter fun i =>
      [false, true].any fun b => (ch.sl.naming b i).any (ch.pm.leaf j).holds
  | none => ch.locals.map (96 * c + ·) ++ far

/-- Slots of context i in a received frame of S slots, as line slots. -/
def Channel.rxSlotsOf (ch : Channel) (i : Nat) : List Nat :=
  let own := ch.sl.inUse ch.rf.bank ch.rf.bankSw i
  let line := match ch.pm.pair with
    | some j => (own.filter (ch.pm.leaf j).holds).map (· - (ch.pm.leaf j).slotBase)
    | none => own
  line.filter (· < ch.rf.slots)

/-- Words of some slots that are flagged in a frame: the slot's place among them, and the word. -/
def badWords (bad : List Bool) (slots : List Nat) : List (Nat × Nat) :=
  slots.zipIdx.flatMap fun q =>
    (((bad.drop (2048 + 126 * q.1)).take 126).zipIdx.filter Prod.fst).map fun w => (q.2, w.2)

/-- What a received frame, descrambled, holds of context i; a slot that its control field leaves unassigned, or gives the
reserved state, is none of the tributary's (08 R186; DEDUCED, log 115). -/
def State.holdTrib (s : State) (c : Nat) (ws : List Word) (ok : Bool) (bad : List Bool) (i : Nat) : HeldTrib :=
  let ch := s.chan c
  let nib (n : Nat) : Nat := if ok then slotControl 1024 ws n else 4
  let slots := (ch.rxSlotsOf i).filter fun n => nib n / 4 = 1 || nib n / 4 = 2
  { i := i, blocks := slots.map (slotBlock ws), nib := (slots.map nib).headD 4, errored := !ok, bad := badWords bad slots
    replaced := !ch.rf.counts || ch.rx.windowHit = some ch.rf.mfc
      || (ch.pm.mode = .leaf && (s.trib i).burst != ch.pm.burst) }

/-! ### Group frames (06 R135, R136) -/

/-- Words of some parts that were uncorrectable, by place among all their slots. -/
def joinBad : Nat → List HeldTrib → List (Nat × Nat)
  | _, [] => []
  | k, x :: xs => x.bad.map (fun q => (k + q.1, q.2)) ++ joinBad (k + x.blocks.length) xs

/-- Context i's part of a group frame over the members, in rising position. A member with slots of it that has brought no
part leaves it without its words. -/
def State.joinParts (s : State) (g i : Nat) (ps : List GroupPart) : HeldTrib :=
  let cs := membersOf (s.group g).members
  let xs := cs.flatMap fun c => (ps.filter fun p => p.chan = c).flatMap fun p => p.tribs.filter fun x => x.i = i
  let absent := cs.any fun c =>
    (ps.all fun p => p.chan ≠ c) && !((s.chan c).sl.naming (s.chan c).sl.activeB i).isEmpty
  let held := xs.filter fun x => !x.blocks.isEmpty
  { i := i, blocks := xs.flatMap (·.blocks), nib := (held.map (·.nib)).headD 4
    errored := held.any (·.errored), bad := joinBad 0 xs, replaced := absent || held.any (·.replaced) }

/-- A release of parts `ps` of group g is a frame of context i: a member with slots of it has brought a part, or none of them is in
window. A member in window whose frames bear other numbers brings it with those (01 R12). -/
def State.partsHold (s : State) (g i : Nat) (ps : List GroupPart) : Bool :=
  let cs := (membersOf (s.group g).members).filter fun c => !((s.chan c).sl.naming (s.chan c).sl.activeB i).isEmpty
  ps.any (fun p => cs.contains p.chan || p.tribs.any fun x => x.i = i && !x.blocks.isEmpty) || cs.all fun c => (s.chan c).outOfWindow

/-- The frame (count, frame) of group g leaves the skew buffer. -/
def State.releaseFrame (s : State) (g : Nat) (count : BitVec 32) (frame : Nat) : State :=
  let x := s.group g
  let ps := x.parts.filter fun p => p.count = count && p.frame = frame
  let a := (anchorOf x.members).getD 0
  let tails := (ps.find? fun p => p.chan = a).bind (·.tails)
  let s := s.onGroup g fun x =>
    { x with parts := x.parts.filter (fun p => !(p.count = count && p.frame = frame)), last := some (count, frame) }
  (((s.chan a).locals.map (96 * a + ·)).filter fun i => (s.trib i).group = g + 1 && s.partsHold g i ps).foldl (fun s i =>
    s.deliverHeld (s.joinParts g i ps) count frame (tails.bind fun ts => (ts.find? fun t => t.1 = i % 96).map Prod.snd)) s

/-- The release point of a group frame, as its parts give it (R135). -/
def Group.releaseAt (x : Group) (k : BitVec 32 × Nat) : Nat :=
  ((x.parts.filter fun p => p.count = k.1 && p.frame = k.2).map (·.due)).foldl min (x.parts.foldl (fun n p => max n p.due) 0)

/-- Group frames that have reached their release point with the parts of every member in window, or have passed it, are
released in their order. -/
def State.releaseReady (s : State) (g : Nat) : State :=
  let x := s.group g
  let full (k : BitVec 32 × Nat) : Bool := (membersOf x.members).all fun c =>
    (s.chan c).outOfWindow || x.parts.any fun p => p.chan = c && p.count = k.1 && p.frame = k.2
  let keys := (x.parts.map fun p => (p.count, p.frame)).eraseDups
  (keys.filter fun k => x.releaseAt k < s.now || (x.releaseAt k = s.now && full k)).foldl
    (fun s k => s.releaseFrame g k.1 k.2) s

/-- Frame k of group g is not the one released last. -/
def Group.ahead (x : Group) (k : BitVec 32 × Nat) : Bool := x.last ≠ some k

/-- The frame that has been held leaves the receiver, since the next one's overhead has come: `oh` when it can be used. The
release point of its group frame lies the budget after the arrival that the earliest member had at alignment, so a member's
later shift does not move it (R135, R136). A
group tributary's parts go to the skew buffer, which holds at most 64 of them; a member that is out of window, or too late
for the release point, brings none. -/
def State.releaseHeld (s : State) (c : Nat) (oh : Option (List Word)) : State :=
  match (s.chan c).rf.held with
  | none => s
  | some h =>
    let s := s.onChan c fun ch => { ch with rf := { ch.rf with held := none } }
    let own := h.tribs.filter fun x => !s.grouped x.i
    let s' := own.foldl (fun s x => s.deliverHeld x h.mfc h.frame (oh.map fun w => carriedOf w (x.i % 96))) s
    match s.groupOf c with
    | none => s'
    | some g =>
      let tails := oh.map fun w => ((s.chan c).locals.map fun l => (l, carriedOf w l))
      let part : GroupPart := { chan := c, count := h.gcount, frame := h.frame, tails := tails,
                                tribs := h.tribs.filter (fun x => s.grouped x.i)
                                due := ((s.now : Int) - (s.group g).skews.get 0 c + (s.group g).budget).toNat }
      if (s.chan c).outOfWindow || !(s.group g).aligned || !(s.group g).ahead (h.gcount, h.frame) then s'
      else (s'.onGroup g fun x => { x with parts := (x.parts ++ [part]).drop (x.parts.length + 1 - 64) }).releaseReady g

/-! ### The message channel (08 R190, R191) -/

/-- No ring of the channel has a posted buffer: the message is dropped under event 0x0104, counted on the lowest enabled
overhead message receive ring. -/
def State.dropMessage (s : State) (c : Nat) : State :=
  match (s.ringsWhere fun r x => x.kind = .ohmReceive && x.en && ringBlock r = c).head? with
  | some r =>
    let n := (s.ring r).msgDropped + 1
    (s.onRing r fun x => { x with msgDropped := n }).raise c 0x0104 2 (mkWord [(0, 16, r), (16, 32, n)])
  | none => (s.raise c 0x0104 2 (mkWord [(0, 16, s.freeVal 0 16), (16, 32, 1)])).draw

/-- The far end shares LOCAL index l: at a hub only the leaf whose window holds its slots. -/
def Channel.sharedBy (ch : Channel) (c l : Nat) : Bool :=
  match ch.pm.pair with
  | some j => (ch.sl.naming ch.sl.activeB (96 * c + l)).any (ch.pm.leaf j).holds
  | none => true

/-- A message has come whole: host messages go to a ring, latency figures are used, other classes discarded. -/
def State.takeMessage (s : State) (c : Nat) (a : Assembly) : State :=
  let bytes := (wordsBytes a.words).take a.bytes
  let s := s.onChan c fun ch => { ch with rf := { ch.rf with
    assembly := none, msgRx := if a.cls ≤ 1 then ch.rf.msgRx + 1 else ch.rf.msgRx } }
  match a.cls with
  | 0 => match s.messageRing c none with
    | some r => s.fillMessage r bytes a.seq.toNat
    | none => s.dropMessage c
  | 1 => s.farMessage c bytes ((s.chan c).sharedBy c)
  | _ => s

/-- The message's last chunk has come: its length and CRC decide. -/
def State.endMessage (s : State) (c : Nat) (a : Assembly) : State :=
  let n := cdiv a.bytes 8
  if a.bytes = 0 || a.words.length ≠ n + 1 then s.loseMessage c a.seq 3
  else if crc32c ((wordsBytes a.words).take a.bytes) ≠ (wd a.words n).bits 31 0 then s.loseMessage c a.seq 2
  else s.takeMessage c a

/-- A chunk joins a message. -/
def State.addChunk (s : State) (c : Nat) (a : Assembly) (ws : List Word) (last : Bool) : State :=
  let a := { a with words := a.words ++ ws }
  if last then s.endMessage c a
  else if cdiv a.bytes 8 + 1 ≤ a.words.length then s.loseMessage c a.seq 3
  else s.onChan c fun ch => { ch with rf := { ch.rf with assembly := some a } }

/-- Words 1,152 to 1,279 of a frame whose check passed. Later chunks of a message already discarded are passed by until it
ends. -/
def State.chunkIn (s : State) (c : Nat) (ws : List Word) : State :=
  let h := wd ws 0
  let n := h.bits 6 0
  let seq := BitVec.ofNat 16 (h.bits 31 16)
  let body := (ws.drop 1).take n
  let fresh (s : State) : State := s.onChan c fun ch => { ch with rf := { ch.rf with badSeq := none } }
  if n = 0 then fresh (s.breakMessage c 3)
  else if h.bit 7 then
    (fresh (s.breakMessage c 3)).addChunk c { seq := seq, bytes := h.bits 47 32, cls := h.bits 11 9, words := [] } body (h.bit 8)
  else match (s.chan c).rf.assembly with
    | some a => if a.seq = seq && a.bytes = h.bits 47 32 then s.addChunk c a body (h.bit 8) else s.loseMessage c a.seq 3
    | none =>
      if (s.chan c).rf.badSeq ≠ some seq then s.loseMessage c seq 3 else if h.bit 8 then fresh s else s

/-! ### The overhead (08 R178 to R196) -/

/-- RDI of a frame with a passing check, and the runs of R196; frames whose check fails leave them as they are (DESIGN CHOICE, log
162). -/
def RxFrame.defect (x : RxFrame) (rdi : Bool) : RxFrame :=
  { x with rdiFrames := if rdi then x.rdiFrames + 1 else x.rdiFrames, rdiRun := if rdi then x.rdiRun + 1 else 0
           clearRun := if rdi then 0 else x.clearRun + 1 }

/-- Slot control fields with SLOT_STATE 0b11 among the frame's slots. -/
def badControl (ws : List Word) (slots : Nat) : Nat := ((List.range slots).filter fun n => slotControl 1024 ws n / 4 = 3).length

/-- The group marker of a member (R181), with the arrival of its frame, and the windows that follow from them. -/
def State.groupIn (s : State) (c : Nat) (ws : List Word) (arrival : Int) : State :=
  match s.groupOf c with
  | none => s
  | some g =>
    let w := wd ws 4
    let ok := w.bit 0 && w.bits 3 1 = g && w.bits 6 4 = (membersOf (s.group g).members).idxOf c
    let b := BitVec.ofNat 32 (2 ^ c)
    (s.onGroup g fun x => { x with
      marked := if ok then x.marked ||| b else x.marked &&& ~~~b, skews := x.skews.put 0 c arrival }).groupWindow g

/-- What a leaf reads of words 512 to 1,023: the regions of the map of one multiframe until one is missing, and the cells (13 R313,
R314). -/
def State.regionIn (s : State) (c : Nat) (ws : List Word) (frame : Nat) (count : BitVec 32) : State :=
  let region := (ws.drop 512).take 512
  if frame < 32 then
    s.onPm c fun x =>
      if frame = 0 then { x with gmIn := [region], gmMf := count }
      else if x.gmIn.length = frame && x.gmMf = count then { x with gmIn := x.gmIn ++ [region] }
      else x
  else (List.range 23).foldl (fun s k => s.leafCell c ((region.drop (22 * k)).take 22) count) s

/-- The fields of a passing overhead that this end uses. -/
def State.overheadIn (s : State) (c : Nat) (ws : List Word) (arrival : Int) : State :=
  let rf := (s.chan c).rf
  let n := carriedNumbers ws
  let s := s.onChan c fun ch => { ch with rf := { ch.rf.defect ((wd ws 3).bit 32) with
    lastOh := some (n.1, n.2, ws.take 2048), slotCtlErr := ch.rf.slotCtlErr + BitVec.ofNat 32 (badControl ws ch.rf.slots) } }
  let s := if (s.chan c).pm.pair.isNone then s.groupIn c ws arrival else s
  let s := s.chunkIn c ((ws.drop 1152).take 128)
  if !rf.counts then s
  else
    let s := if rf.frame % 128 < 96 && (s.chan c).sharedBy c (rf.frame % 128) then
        s.takeAdvert (96 * c + rf.frame % 128) (wd ws 48) else s
    match (s.chan c).pm.mode with
    | .pointToPoint =>
      let anchor := (s.groupOf c).bind fun g => anchorOf (s.group g).members
      let count := if (wd ws 8).bit 5 then rf.gcount else rf.mfc
      let s := s.bankMessage c (wd ws 8) (wd ws 9) count
      let s := s.bankIndicator c rf.bankSw (if anchor = some c then rf.gcount else rf.mfc)
      (s.lxMessage c ((ws.drop 16).take 12) rf.mfc).takeStatus c ((ws.drop 32).take 5)
    | .leaf => (s.regionIn c ws rf.frame rf.mfc).bankIndicator c rf.bankSw rf.mfc
    | .hub => s

/-! ### One frame -/

/-- What begins with a received multiframe m at a channel of its own. -/
def State.rxBoundary (s : State) (c : Nat) (m : BitVec 32) : State :=
  let s := s.onRx c fun x => { x with windowHit := if x.windowHit = some m then some m else none }
  let s := if (s.chan c).rx.state = .tracking then s.windowBoundary c m else s
  s.lxReceived c m

/-- The receiver's numbers, bank and group count as frame `ws` gives them, with the counts of a failed check. -/
def RxFrame.take (x : RxFrame) (fresh ok : Bool) (ws : List Word) (slots : Nat) : RxFrame × Option (BitVec 32) :=
  let r := x.number fresh ok (carriedNumbers ws)
  let y := r.1
  let w := wd ws 2
  ({ y with
    bank := if ok then w.bit 40 else x.bank, bankSw := if ok then w.bit 41 else x.bankSw && y.frame ≠ 0
    gcount := if ok then BitVec.ofNat 32 ((wd ws 4).bits 63 32) else if y.frame = 0 then x.gcount + 1 else x.gcount
    slots := slots, framesRx := x.framesRx + 1, ohCheckFail := if ok then x.ohCheckFail else x.ohCheckFail + 1
    ohRun := if ok then 0 else if x.ohRun < 256 then x.ohRun + 1 else x.ohRun }, r.2)

/-- A frame has been found: its words as decoded, with those of uncorrectable units marked, whether it is a confirming one, and
what came with it. -/
def State.takeFrame (s : State) (c : Nat) (raw : List (Word × Bool)) (fresh : Bool) (f : FrameIn) : State :=
  let n := carriedNumbers (raw.map Prod.fst)
  let ws := scrambleFrame n.1 n.2 (raw.map Prod.fst)
  let ok := frameOk ws
  let x := (s.chan c).rf
  let own := (s.chan c).pm.pair.isNone
  let r := x.take fresh ok ws (s.chan c).sRx
  let s := s.onChan c fun ch => { ch with rf := r.1 }
  let s := if fresh then
      s.raise c 0x1481 1 (mkWord [(0, 32, n.1.toNat), (32, 8, n.2), (40, 8, satAt 255 x.dropped)]) else s
  let s := match r.2 with
    | some e => s.raise c 0x1482 2 (mkWord [(0, 32, e.toNat)]) r.1.mfc
    | none => s
  let s := if !ok && x.ohRun = 0 then s.raise c 0x1484 2 (mkWord [(0, 16, 1)]) else s
  let s := s.releaseHeld c (if ok then some ws else none)
  let s := if r.1.counts && r.1.frame = 0 then (if own then s.rxBoundary c r.1.mfc else s.lxReceived c r.1.mfc) else s
  let s := if ok then s.overheadIn c ws f.arrival else s.breakMessage c 1
  let s := if fresh then s.deviations c r.1.mfc f.devs else s
  let held : HeldFrame := { mfc := r.1.mfc, gcount := r.1.gcount, frame := r.1.frame,
                            tribs := (s.rxContexts c).map (s.holdTrib c ws ok (raw.map Prod.snd)) }
  s.onChan c fun ch => { ch with rf := { ch.rf with held := some held } }

/-! ### The rows -/

/-- The receiver of the channel itself, or at a hub the frame receiver of a dedicated leaf. -/
def State.via (s : State) (c : Nat) (leaf : Option (Fin 64)) (g : State → State) : State :=
  match leaf with | none => g s | some j => s.inPair c j g

/-- The channel as `via` shows it. -/
def State.viewed (s : State) (c : Nat) (leaf : Option (Fin 64)) : Channel :=
  match leaf with | none => s.chan c | some j => (s.enterPair c j).chan c

/-- The frame receiver is there and takes frames: at a channel that is not a hub from pilot lock on (11 R257), at a hub that of a
dedicated leaf with a number. -/
def State.receives (s : State) (c : Nat) (leaf : Option (Fin 64)) : Bool :=
  let ch := s.chan c
  s.boot.powered && ch.awake && match leaf with
    | none => ch.pm.mode ≠ .hub && (ch.rx.state = .tracking || (ch.rx.state = .pilotLock && ch.rx.locked ≠ 0))
    | some j => ch.pm.mode = .hub && !(ch.pm.leaf j).burst && (ch.pm.leaf j).assigned

/-- Before the frame is read: latencies of the multiframe that begins, and an announced configuration (10 R240). -/
def State.frameStart (s : State) (c : Nat) : State :=
  let x := (s.chan c).rf
  let e := nextNumbers x.mfc x.frame
  let m := if x.numKnown then e.1 else match (s.chan c).ld.pendingRx with | some q => q.at_ | none => 0
  let s := if x.state = .inFrame && x.numKnown && e.2 = 0 && (s.chan c).pm.pair.isNone then s.restate c false true else s
  s.lxAdopt c m

/-- At a hub, what the frame of leaf j says: its bank, which is the one that the last received frame named, its words 1 to 21,
its switch multiframe, and its arrival (06 R140; 13 R308, R317). -/
def State.hubFrame (s : State) (c j : Nat) (raw : List Word) (arrival : Int) : State :=
  let n := carriedNumbers raw
  let ws := scrambleFrame n.1 n.2 raw
  let rf := (s.leaf c j).rf
  let s := (s.onLeaf c j fun x => { x with lostNs := none }).onChan c fun ch =>
    { ch with rf := { ch.rf with bank := rf.bank, bankSw := rf.bankSw } }
  if !frameOk ws || !(s.leaf c j).rf.counts then s
  else
    let w := wd ws 512
    let s := if w.bit 6 && w.bits 5 0 = j then s.hubCellIn c j ((ws.drop 513).take 21) n.1 else s
    (s.hubIndicator c j ((wd ws 2).bit 41) n.1).arrival c j arrival false

/-- The parity of the pilots of the frame period that has been taken. -/
def State.parityIn (s : State) (c : Nat) (odd : Option Bool) : State :=
  let x := (s.chan c).rf
  s.lxParity c odd (if x.state = .inFrame && x.counts then some (x.mfc, x.frame) else none)

/-- A received frame period: its coded frame is decoded, aligned, and the frame that is whole now is taken. It cannot occur once
four consecutive misses are counted. -/
def execRxLineFrame (c : Fin 32) (leaf : Option (Fin 64)) (f : FrameIn) (s : State) : Out :=
  let t := s.via c leaf fun s => s.frameStart c
  let v := t.viewed c leaf
  let off := v.fec.rxOffshore
  occurs s (s.receives c leaf && (s.viewed c leaf).rf.misses < 4 && decodable f off v.sRx) <|
    let us := decodeUnits off v.sRx (codedBits v.ld.rx v.bu.params.rate off v.sRx f.streams) f
    let r := v.rf.align (2048 + 126 * v.sRx) (f.offshore == off) (unitWords v.sRx us)
    let t := t.via c leaf fun s => s.onChan c fun ch => { ch with rf := r.1 }
    let t := match r.2 with
      | some (ws, fresh) => t.via c leaf fun s => s.takeFrame c ws fresh f
      | none => t
    let w := (t.viewed c leaf).rf
    let t := t.onCal c fun x => x.framed false
    let t := t.fecFrame c us (codedSize off v.sRx)
      (if r.2.isSome && w.counts then some (t.chan c).rxMfNow else none)
    let t := t.via c leaf fun s => s.parityIn c f.odd
    match leaf, r.2 with
    | some j, some (ws, _) => t.hubFrame c j (ws.map Prod.fst) f.arrival
    | _, _ => t

/-- Four consecutive misses: loss of frame. -/
def execLossOfFrame (c : Fin 32) (leaf : Option (Fin 64)) (s : State) : Out :=
  let x := (s.viewed c leaf).rf
  occurs s (s.receives c leaf && x.state = .inFrame && 4 ≤ x.misses) <|
    let s := s.via c leaf fun s => s.enterSearch c
    match leaf with
    | some j => s.onLeaf c j fun x => x.missed s.now
    | none => (s.endHit c).lookGroup c

/-- A run of 256 failed overhead checks raises event 0x1484 again. -/
def execOhCheckFailRun (c : Fin 32) (leaf : Option (Fin 64)) (s : State) : Out :=
  occurs s (s.boot.powered && (s.viewed c leaf).rf.ohRun = 256)
    ((s.via c leaf fun s => s.onChan c fun ch => { ch with rf := { ch.rf with ohRun := 257 } }).raise c 0x1484 2
      (mkWord [(0, 16, 256)]))

/-- RDI 1, or RDI 0 after it, in four consecutive frames with passing checks. -/
def execRemoteDefect (c : Fin 32) (leaf : Option (Fin 64)) (s : State) : Out :=
  let x := (s.viewed c leaf).rf
  occursWith s (if s.boot.powered then
      (if !x.rdi && 4 ≤ x.rdiRun then some true else if x.rdi && 4 ≤ x.clearRun then some false else none) else none)
    fun v => (s.via c leaf fun s => s.onChan c fun ch => { ch with rf := { ch.rf with rdi := v } }).raise c 0x1483 2
      (mkWord [(0, 1, bitOf v)])

/-- Sixteen consecutive authentication failures raise event 0x1253 with severity 3. -/
def execAuthFailRun (i : Fin 3072) (s : State) : Out :=
  let x := s.cipherOf i
  occurs s (s.boot.powered && x.failRun = 16)
    ((s.setCipherOf i { x with failRun := 17 }).raise (i.val / 96) 0x1253 3 (mkWord [(0, 12, i), (16, 16, 16)]))

/-! ### The end of a received multiframe (09 R218; 10 R233; 11 R263, R266, R270; 12 R290) -/

/-- A quotient in whole steps: exact, or rounded in the direction that the spec leaves open (log 1); a free value when there
is nothing to divide by. -/
def State.quotient (s : State) (k bits num den : Nat) : Nat :=
  if den = 0 then s.freeVal k bits
  else satAt (2 ^ bits - 1) (if num % den = 0 then num / den else num / den + s.freeVal k 1)

/-- What the frames of received multiframe m have brought. -/
def Fec.sumsOf (x : Fec) (m : BitVec 32) : FecSums := (x.sums.find? fun y => y.mfc = m).getD { mfc := m }

/-- The FEC figures of the multiframe, and the runs of the alarm. -/
def State.fecEnd (s : State) (c : Nat) (m : BitVec 32) : State :=
  let y := (s.chan c).fec.sumsOf m
  let ber := s.quotient 40 48 (y.bits * 1000000000000) y.coded
  let s := s.onFec c fun x => { x with
    berEst := ber, berSat := 0 < y.uncorr, uncorrLast := y.uncorr, mfc := m
    iterAvg := if x.rxOffshore then s.quotient 41 9 (16 * y.iters) y.units else 0
    aboveRun := if x.alarmLevel ≠ 0 && x.alarmLevel < ber then x.aboveRun + 1 else 0
    belowRun := if x.alarmLevel ≠ 0 && ber ≤ x.alarmLevel then x.belowRun + 1 else 0
    sums := x.sums.takeWhile fun y => mfBefore m y.mfc }
  s.draw

/-- Quality figures as measured under the receive set: per stream the SNR code, EVM and margin; off streams read 0, and a
stream without a measurement keeps its last figures. -/
def Loading.measure (x : Loading) (set : LoadSet) (q : QualityIn) (offshore : Bool) (up : Nat → Bool) : Loading :=
  let keep (l : Nat) (o : Option Nat) (old : Nat) : Nat := if set.isLit (l / 2) then o.getD old else 0
  let snr := (List.range 32).map fun l => keep l ((q.snr.getD l none).map (min 255)) (x.snr.getD l 0)
  let evm := (List.range 32).map fun l => keep l ((q.evm.getD l none).map (min 4095)) (x.evm.getD l 0)
  let mar := (List.range 32).map fun l =>
    if set.isActive (l / 2) then Machine.margin offshore (up l) (set.code l) (snr.getD l 0) else 0
  let act := set.streams
  { x with snr := snr, evm := evm, margin := mar
           lq := act.foldl (fun m l => min m (mar.getD l 0)) (mar.getD (act.headD 0) 0) }

/-- The loading figures of the multiframe: held during a calibration, else as measured; the history, the runs of R252 and
the minute's sums follow. -/
def State.qualityEnd (s : State) (c : Nat) (m : BitVec 32) (q : QualityIn) : State :=
  let ch := s.chan c
  let set := ch.rxSet
  let held := ch.cal.holds false m
  let got (l : Nat) : Option Nat := if held || !set.isLit (l / 2) then none else (q.snr.getD l none).map (min 255)
  let none' := set.streams.isEmpty
  let x := if held then ch.ld else ch.ld.measure set q ch.fec.rxOffshore fun l => s.freeVal l 1 = 1
  let lq : Int := if none' then 0 else x.lq
  let x := { x with
    stale := held, lq := lq, noActive := none', mfc := m, history := ((List.range 32).map got :: x.history).take 64
    lowRun := if none' || x.lqAlarm = 0 then x.lowRun else if lq < x.lqAlarm then x.lowRun + 1 else 0
    highRun := if none' || x.lqAlarm = 0 then x.highRun else if x.lqAlarm + 4 ≤ lq then x.highRun + 1 else 0 }
  let sums := (List.range 32).map fun l =>
    let p := ch.age.minute.sums.getD l (0, 0)
    match (got l).filter fun _ => set.isActive (l / 2) with | some v => (p.1 + v, p.2 + 1) | none => p
  s.onChan c fun ch => { ch with
    ld := x, age := { ch.age with minute := { ch.age.minute with sums := sums } } }

/-- The peak rate of rotation over the subcarriers. -/
def peakSop (q : QualityIn) : Nat := q.subs.foldl (fun k p => max k p.2.2.1) 0

/-- The receiver's figures of the multiframe, and event 0x1404 when an equaliser re-converged in it. -/
def State.dspEnd (s : State) (c : Nat) (m : BitVec 32) (q : QualityIn) : State :=
  (s.reconverged c (peakSop q)).onRx c fun x => { x with
    cdMeas := q.cd, freqOfs := q.freq, clkOfs := q.clk
    clks := (s.now, q.clk) :: x.clks.filter fun p => s.now < p.1 + 1000000000, mfc := m, ended := some m
    cycleSlip := x.cycleSlip + BitVec.ofNat 32 q.slips
    figures := q.subs.zipIdx.foldl (fun k p =>
      k.insert p.2 { dgd := min 4095 p.1.1, pdl := min 255 p.1.2.1, sop := min 65535 p.1.2.2.1, evm := min 4095 p.1.2.2.2 }) [] }

/-- The received multiframe that has ended and has not been reported: that of the last frame received, in state 5 or 6, or at a hub
in state 6, whose receive multiframe M begins half a multiframe after transmit multiframe M, the one before the present count
(13 R306). -/
def Channel.endedNow (ch : Channel) : Option (BitVec 32) :=
  let m := if ch.pm.mode = .hub then ch.tf.mfc - 1 else ch.rf.mfc
  let past := if ch.pm.mode = .hub then 128 ≤ ch.tf.frame
    else ch.rf.state = .inFrame && ch.rf.counts && ch.rf.frame = 255
  if ch.awake && (ch.rx.state = .tracking || (ch.rx.state = .pilotLock && ch.pm.mode ≠ .hub)) && past && ch.rx.ended ≠ some m
  then some m else none

/-- FREQ_OFS that a receiver can show: at a leaf, whose one laser is transmitter and local oscillator and follows the received carrier
to ±100 MHz, read to ±20 MHz (12, its opening; 13 R304; 11 R266). -/
def Channel.mayShow (ch : Channel) (freq : Int) : Bool := ch.pm.mode ≠ .leaf || freq.natAbs ≤ 120

/-- In state 5 a multiframe has FEC figures and event 0x1404; loading and receiver figures are those of a receiver that tracks
(10 R236; 11 R274; DEDUCED, log 149). -/
def execRxMultiframeEnd (c : Fin 32) (q : QualityIn) (s : State) : Out :=
  occursWith s (if s.boot.powered && (s.chan c).mayShow q.freq then (s.chan c).endedNow else none) fun m =>
    if (s.chan c).rx.state = .tracking then
      (((s.qualityEnd c m q).fecEnd c m).dspEnd c m q).onCal c fun x =>
        (((x.levels q.adc m).updated false m).framed false).boundary false
    else ((s.fecEnd c m).reconverged c (peakSop q)).onRx c fun x => { x with ended := some m }

/-! ### Commands (08 R189, R197) -/

/-- FRAME_STATUS; a hub's own receiver, which it does not use, stays in Search (DESIGN CHOICE, log 166). -/
def Channel.frameStatus (ch : Channel) : List Word :=
  let x := ch.rf
  let code : Nat := match x.state with | .search => 0 | .candidate => 1 | .inFrame => 2
  [mkWord [(0, 2, code), (2, 3, x.cands.length), (5, 2, satAt 3 x.misses), (7, 1, bitOf x.counts), (8, 1, bitOf ch.remoteDefect),
           (9, 1, bitOf (ch.pm.mode ≠ .hub && x.state ≠ .inFrame)), (10, 1, bitOf x.bank), (11, 1, bitOf x.bankSw),
           (12, 1, bitOf ch.sl.activeB)],
   mkWord [(0, 32, ch.tf.mfc.toNat), (32, 8, satAt 255 ch.tf.frame)],
   mkWord [(0, 32, if x.counts then x.mfc.toNat else 0), (32, 8, x.frame)],
   mkWord [(0, 11, ch.sTx), (16, 11, ch.sRx)]]

def execFrameStatus (id : Nat) (s : State) : Out :=
  withCmd s id 0x1480 fun f => s.answer f (s.chan f.desc.target).frameStatus

def Channel.frameCounters (ch : Channel) : List Word :=
  let x := ch.rf
  [x.framesRx, mkWord [(0, 32, x.ohCheckFail.toNat), (32, 32, x.fawMiss.toNat)],
   mkWord [(0, 16, x.lof.toNat), (16, 16, x.numJump.toNat), (32, 32, x.falseCand.toNat)],
   mkWord [(0, 32, ch.tf.msgTx.toNat), (32, 32, x.msgRx.toNat)], mkWord [(0, 32, x.msgLost.toNat), (32, 32, x.slotCtlErr.toNat)],
   mkWord [(0, 32, x.rdiFrames.toNat)], 0, 0]

def execFrameCounters (id : Nat) (s : State) : Out :=
  withCmd s id 0x1481 fun f => s.answer f (s.chan f.desc.target).frameCounters

/-- The overhead that OH_SNAPSHOT writes, with its numbers. -/
def Channel.snapshot (ch : Channel) (sent : Bool) : Option (BitVec 32 × Nat × List Word) :=
  if sent then ch.tf.lastOh.map fun ws => (BitVec.ofNat 32 ((wd ws 2).bits 39 8), (wd ws 2).bits 7 0, ws) else ch.rf.lastOh

def execOhSnapshot (id : Nat) (s : State) : Out :=
  withCmd s id 0x1482 fun f =>
    match (s.chan f.desc.target).snapshot (f.desc.p0.bit 0) with
    | some (m, n, ws) => s.answer f ws (some m.toNat) (some n)
    | none => s.finish f 0x20

/-- A host message of the bytes read from the buffer waits for the message channel; its command completes when the message
has been sent (04 R76). With TARGET 32, for which no rule gives an outcome, it completes with 0x01 (DEDUCED, log 109). -/
def execOhmSend (id : Nat) (bs : List Byte) (s : State) : Out :=
  withCmd s id 0x0131 fun f =>
    let n := f.desc.bufLen
    if n = 0 || 65535 < n || 32 ≤ f.desc.target then s.finish f 0x01
    else
      (s.onChan f.desc.target fun ch => { ch with tf := { ch.tf with
        queue := ch.tf.queue ++ [{ cmd := some id, cls := 0, bytes := padTo n 0 (bs.take n) }] } }).run f

end Sys2Proof.Machine
end

