-- ==== Sys2Proof/Machine/Bursts.lean ====
section
/-! DEFINITION. Burst subcarriers: the map at a leaf, discovery, bursts sent, the hub's burst receivers, and records (13
R306 to R308, R314, R318 to R326). -/

namespace Sys2Proof.Machine

/-! ### The map at a leaf (R313, R314, R324, R326) -/

/-- The words of a map whose 32 regions have come, when its CRC passes. -/
def P2mp.mapIn (x : P2mp) : Option (List Word) :=
  let ws := x.gmIn.flatten
  let n := (wd ws 0).bits 45 32
  if x.gmIn.length = 32 && n ≤ 8192 && crc32c (wordsBytes (ws.take (160 + n))) = (wd ws (160 + n)).bits 31 0 then some ws else none

def mapGov (ws : List Word) : BitVec 32 := BitVec.ofNat 32 ((wd ws 0).bits 31 0)

/-- The assignment that carries a serial: leaf and EQD. -/
def mapAssign (ws : List Word) (serial : Word) : Option (Nat × Nat) :=
  ((List.range 8).find? fun a => wd ws (144 + 2 * a) = serial && (wd ws (145 + 2 * a)).bit 6).map fun a =>
    ((wd ws (145 + 2 * a)).bits 5 0, (wd ws (145 + 2 * a)).bits 26 7)

def mapGrants (ws : List Word) (j : Nat) : List Grant :=
  (((List.range ((wd ws 0).bits 45 32)).map fun g =>
    let w := wd ws (160 + g)
    ({ subc := w.bits 3 0, start := w.bits 14 4, cells := w.bits 16 15 + 1, leaf := w.bits 22 17 } : Grant)).filter fun g => g.leaf = j)

/-- Why the leaf's own entry ends its assignment: 1 RERANGE, 2 VALID 0, 3 another serial; 0: it stands. -/
def entryReason (a : Word) (serial : Word) : Nat :=
  if !a.bit 0 then 2 else if a.bit 2 then 1 else if a.bits 19 4 ≠ serial.bits 15 0 then 3 else 0

/-- An announced downstream set arms the receiver (R317). -/
def Channel.armDownstream (ch : Channel) (ws : List Word) : Channel :=
  let at_ := BitVec.ofNat 32 ((wd ws 2).bits 63 32)
  let armed := match ch.ld.pendingRx with | some q => q.at_ = at_ | none => false
  if (wd ws 2).bit 0 && mfBefore ch.rf.mfc at_ && !armed then
    let q : PendingRx := { set := LoadSet.ofWords ((ws.drop 3).take 5), offshore := ch.fec.rxOffshore, lsn := ch.ld.lsnRx + 1,
                           at_ := at_, left := periodsTo ch.rf.mfc ch.rf.frame at_ }
    { ch with ld := { ch.ld with pendingRx := some q } }
  else ch

/-- The assignment ends, with event 0x1528, and the leaf waits for discovery again; of the maps that it holds nothing stays its own. -/
def State.dropAssignment (s : State) (c reason : Nat) : State :=
  (s.onPm c fun x => { x with
    join := 1, silent := true, adopt := none, mapsWaited := 0, skip := 0
    maps := x.maps.map fun m => { m with grants := [], entry := none } }).raise c 0x1528 2 (BitVec.ofNat 64 reason)

/-- A leaf's own entry. -/
def leafEntry (a b : Word) : LeafEntry :=
  { burst := a.bit 1, slotBase := a.bits 37 27, slotCount := a.bits 48 38, dedMask := BitVec.ofNat 16 (b.bits 15 0)
    eqd := b.bits 35 16 }

/-- A silent leaf resumes in the multiframe of the first map that its entry lets it resume in (R326). -/
def P2mp.resuming (x : P2mp) (e : LeafEntry) (gov : BitVec 32) : P2mp :=
  if x.silent && x.adopt.isNone then { x with adopt := some (gov, e.eqd) } else x

/-- The leaf takes an assignment, or counts a map without one: after four it skips a random number of windows (R324). -/
def State.seekAssignment (s : State) (c : Nat) (ws : List Word) : State :=
  let x := (s.chan c).pm
  if x.join ≠ 1 && x.join ≠ 2 then s
  else match mapAssign ws x.serial with
    | some (j, eqd) => s.onPm c fun x => { x with
        join := 3, leafNo := j, silent := true, adopt := some (mapGov ws, eqd), mapsWaited := 0, skip := 0 }
    | none =>
      if x.join = 1 then s
      else if x.mapsWaited + 1 < 4 then s.onPm c fun x => { x with mapsWaited := x.mapsWaited + 1 }
      else
        let (k, s) := if s.canDraw then (s.random 1 % 8, s.request 1) else (x.serial.bits 2 0, s)
        s.onPm c fun x => { x with join := 1, mapsWaited := 0, skip := k }

/-- An accepted map; the leaf keeps the last four. -/
def State.acceptMap (s : State) (c : Nat) (ws : List Word) : State :=
  let s := s.onChan c fun ch => ch.armDownstream ws
  let s := s.seekAssignment c ws
  let x := (s.chan c).pm
  let a := wd ws (16 + 2 * x.leafNo)
  let e := leafEntry a (wd ws (17 + 2 * x.leafNo))
  let disc := if (wd ws 1).bit 16 then some ((wd ws 1).bits 20 17) else none
  let keep (mine : Bool) (s : State) : State := s.onPm c fun x =>
    let m : LeafMap := { gov := mapGov ws, grants := if mine then mapGrants ws x.leafNo else [], burstN := a.bits 26 20, disc := disc
                         entry := if mine then some e else none }
    { x with maps := (x.maps ++ [m]).drop (x.maps.length + 1 - 4) }
  if x.join = 3 then
    let r := entryReason a x.serial
    if r ≠ 0 then keep false (s.dropAssignment c r)
    else keep true (s.onPm c fun x => x.resuming e (mapGov ws))
  else keep false s

def execGrantMap (c : Fin 32) (s : State) : Out :=
  let x := (s.chan c).pm
  occursWith s (if s.boot.powered && x.mode = .leaf && x.joining then x.mapIn else none) fun ws =>
    (s.onPm c fun x => { x with gmIn := [] }).acceptMap c ws

/-! ### Bursts sent (R318 to R321, R324) -/

/-- A burst leaves the leaf in a cell of a subcarrier at loading n. -/
def State.sendBurst (s : State) (c leaf subc cell n eqd : Nat) (disc : Bool) (ws : List Word) : State :=
  let h := burstHeader leaf disc (cdiv (64 * ws.length) 910) n (s.chan c).pm.bseq.toNat
  (s.emit (.burst c eqd subc cell h ws ((s.chan c).onLaser (burstStreams (s.chan c).bu subc n h ws)))).onPm c fun x =>
    { x with bseq := x.bseq + 1, burstsTx := x.burstsTx + 1 }

/-- A window for discovery opens in the present transmit multiframe: a joining leaf that skips none sends its discovery burst. Its two records take two rows
(DEDUCED, log 35). -/
def execDiscoverySend (c : Fin 32) (s : State) : Out :=
  let x := (s.chan c).pm
  let m := (s.chan c).tf.mfc
  occursWith s (if s.boot.powered && x.mode = .leaf && x.joining && x.join = 1 && (s.chan c).tf.sending && s.emits c then
      (x.maps.find? fun q => q.gov = m).bind (·.disc) else none)
    fun subc =>
      let s := s.onPm c fun x => { x with maps := x.maps.map fun q => if q.gov = m then { q with disc := none } else q }
      if 0 < x.skip then s.onPm c fun x => { x with skip := x.skip - 1 }
      else
        let ws := mkWord [(0, 3, 3)] :: s.leafBody c ++ [mkWord [(0, 3, 4)], x.serial]
        ((s.sendBurst c 127 subc 1023 32 1024000 true ws).leafBodySent c).onPm c fun x => { x with join := 2, mapsWaited := 0 }

/-- The record of frame (M, k) is ready 1,000 ns after the frame ends, and may go in a window that ends no later than frame
(M + 1, k + 1) begins; times run from the start of multiframe M, `d` multiframes before the present one. -/
def BurstRecord.readyBy (r : BurstRecord) (d start : Nat) : Bool := 8000 * (r.frame + 1) + 1000 ≤ 2048000 * d + 1000 * start
def BurstRecord.inTime (r : BurstRecord) (d stop : Nat) : Bool :=
  !r.limited || 2048000 * d + 1000 * stop ≤ 2048000 + 8000 * (r.frame + 1)

/-- The records that go into a window with room for `room` words, in order, and those that stay. -/
def packRecords (m : BitVec 32) (g : Grant) : Nat → List BurstRecord → List Word × List BurstRecord
  | _, [] => ([], [])
  | room, r :: rs =>
    if r.readyBy (m - r.mfc).toNat g.start && r.words.length ≤ room then
      let q := packRecords m g (room - r.words.length) rs
      (r.words ++ q.1, q.2)
    else ([], r :: rs)

/-- The burst of a granted window: a status record, then the ready records that fit; late records are dropped first. -/
def State.windowBurst (s : State) (c : Nat) (m : LeafMap) (g : Grant) : State :=
  let x := (s.chan c).pm
  let now := (s.chan c).tf.mfc
  let late (r : BurstRecord) : Bool := !r.inTime (now - r.mfc).toNat (g.start + g.cells)
  let q := packRecords now g (windowCap (s.chan c).bu.params.rate m.burstN g.cells - 22) (x.ready.filter fun r => !late r)
  let ws := mkWord [(0, 3, 3)] :: s.leafBody c ++ q.1
  let s := s.onPm c fun x => { x with
    ready := q.2, recDrop := x.recDrop + BitVec.ofNat 32 (x.ready.filter late).length
    maps := x.maps.map fun k => if k.gov = m.gov then { k with grants := k.grants.filter (· ≠ g) } else k }
  (s.sendBurst c x.leafNo g.subc g.start m.burstN x.eqdNow false ws).leafBodySent c

/-- A granted window of the present transmit multiframe begins. -/
def execBurstWindow (c : Fin 32) (subc : Fin 16) (start : Fin 2048) (s : State) : Out :=
  let ch := s.chan c
  let x := ch.pm
  occursWith s (if s.boot.powered && x.mode = .leaf && x.burst && x.upstream && ch.tf.sending && s.emits c then
      (x.maps.find? fun m => m.gov = ch.tf.mfc).bind fun m =>
        (m.grants.find? fun g => g.subc = subc.val && g.start = start.val).map fun g => (m, g) else none)
    fun q => s.windowBurst c q.1 q.2

/-! ### The hub's burst receivers (R322, R323) -/

def State.onReceiver (s : State) (c i : Nat) (g : BurstChan → BurstChan) : State :=
  s.onPm c fun x => { x with receivers := x.receivers.insert i (g (x.receivers.get {} i)) }

def State.receiver (s : State) (c i : Nat) : BurstChan := (s.chan c).pm.receivers.get {} i

/-- The receive multiframe of a hub, which begins half a multiframe after the transmit one (R306). -/
def Channel.hubCount (ch : Channel) : BitVec 32 := if 128 ≤ ch.tf.frame then ch.tf.mfc else ch.tf.mfc - 1

/-- Shared subcarrier i of an awake hub. -/
def State.sharedSub (s : State) (c i : Nat) : Bool :=
  let ch := s.chan c
  s.boot.powered && ch.awake && ch.pm.mode = .hub && ch.pm.shared.getLsbD i

def BurstChan.collide (x : BurstChan) (n : Nat) : BurstChan :=
  { x with collision := x.collision + BitVec.ofNat 32 n, collisionsNow := x.collisionsNow + n }

/-- The full count of which a frame record carries 24 bits: the nearest to the hub's own. -/
def fullCount (own : BitVec 32) (low : Nat) : BitVec 32 :=
  let d := (low + 16777216 - own.toNat % 16777216) % 16777216
  if d < 8388608 then own + BitVec.ofNat 32 d else own - BitVec.ofNat 32 (16777216 - d)

/-- Records of a burst's payload, each with whether every row that holds its words decoded. -/
inductive BurstItem
  | frame (ok : Bool) (h : Word) (ws : List Word)
  | chunk (ok : Bool) (ws : List Word)
  | status (ok : Bool) (ws : List Word)
  | discovery (ok : Bool) (serial : Word)
  deriving DecidableEq, Repr

/-- The records from payload words with their rows' outcome. A lost header, padding and types 5 to 7 end the burst. -/
def burstItems : Nat → List (Word × Bool) → List BurstItem
  | 0, _ => []
  | _, [] => []
  | fuel + 1, (h, ok) :: r =>
    let take (n : Nat) (k : Bool → List Word → BurstItem) : List BurstItem :=
      if r.length < n then [] else k ((r.take n).all (·.2)) ((r.take n).map Prod.fst) :: burstItems fuel (r.drop n)
    if !ok then []
    else match h.bits 2 0 with
      | 1 => take (h.bits 62 48 + (if h.bits 43 42 = 0 then 0 else 2) + 1) fun ok ws => .frame ok h ws
      | 2 => match r with
        | (w, true) :: _ => take (1 + w.bits 6 0) .chunk
        | _ => []
      | 3 => take 21 .status
      | 4 => take 1 fun ok ws => .discovery ok (wd ws 0)
      | _ => []

/-- A frame record that came whole. -/
def frameRecord (own : BitVec 32) (h : Word) (ws : List Word) : FrameRecord :=
  let n := h.bits 62 48
  let tags := if h.bits 43 42 = 0 then 0 else 2
  { loc := h.bits 9 3, frame := h.bits 17 10, mfc := fullCount own (h.bits 41 18), keyInd := h.bits 43 42, jc := h.bits 45 44
    failed := h.bit 46, bank := h.bit 47, words := ws.take n, tag := (ws.drop n).take tags
    check := BitVec.ofNat 32 ((wd ws (n + tags)).bits 31 0) }

/-- Frame (a, f) comes after frame (b, g). -/
def frameAfter (a : BitVec 32) (f : Nat) (b : BitVec 32) (g : Nat) : Bool := mfBefore b a || (a = b && g < f)

/-- A frame record waits for its instant, unless that has passed; the first record under the new bank tells the leaf's
switch multiframe (R317, R321). -/
def State.keepRecord (s : State) (c j : Nat) (r : FrameRecord) : State :=
  let x := (s.chan c).sl
  let newBank := match x.proposal with
    | some p => p.committed && r.bank == (if p.switched.isSome then x.activeB else !x.activeB)
    | none => false
  let s := (s.onChan c fun ch => { ch with rf := { ch.rf with bank := r.bank } }).hubIndicator c j newBank r.mfc
  let late := match (s.leaf c j).delivered with | some d => !frameAfter r.mfc r.frame d.1 d.2 | none => false
  if late then s else s.onLeaf c j fun y => { y with records := y.records ++ [r] }

/-- What a confirmed burst of leaf j holds. -/
def State.leafItem (s : State) (c j : Nat) (it : BurstItem) : State :=
  match it with
  | .frame true h ws => s.keepRecord c j (frameRecord (s.chan c).hubCount h ws)
  | .chunk true ws => s.inPair c j fun s => s.chunkIn c ws
  | .chunk false _ => s.inPair c j fun s => s.breakMessage c 3
  | .status true ws => s.hubCellIn c j ws (s.chan c).hubCount
  | _ => s

/-- A discovery burst with arrival A after cell 1,023: its serial matches an Expected context, or one that has to be ranged
again, or is unknown (R324). -/
def State.discovered (s : State) (c : Nat) (serial : Word) (a : Int) : State :=
  match (s.chan c).pm.leaves.find? fun p => p.2.serial = serial && (p.2.state = .expected || p.2.state = .lost || p.2.rerange) with
  | some (j, _) =>
    let eqd := (1024000 - a).toNat
    (s.onLeaf c j fun x => { x with state := .ranging, eqd := eqd, rerange := false, arrivals := [], fresh := 0, fix := 0, records := []
                                    delivered := none, lostNs := if x.burst then none else some s.now
                                    silent := 0 }).onPm c fun x => { x with assigns := x.assigns ++ [(serial, j, eqd)] }
  | none => s.raise c 0x1522 2 serial

/-- The rows of a confirmed reception have been decoded. -/
def State.burstData (s : State) (c i : Nat) (x : BurstIn) (leaf : Nat) (disc : Bool) (arrival : Int) : State :=
  let s := s.onReceiver c i fun r => { r with rowsUncorr := r.rowsUncorr + BitVec.ofNat 32 ((rowsDecoded x).filter Option.isNone).length }
  let items := burstItems (burstWords x).length (burstWords x)
  if disc then
    match items.findSome? fun | .discovery true w => some w | _ => none with
    | some w => s.discovered c w arrival
    | none => s
  else
    (items.foldl (fun s it => s.leafItem c leaf it) s).onLeaf c leaf fun y => { y with snrs := (min 255 x.snr :: y.snrs).take 16 }

/-- A reception opens with detection (correlation, power), others at the same symbol being lost. -/
def State.openBurst (s : State) (c i : Nat) (d : Nat × Nat) (lost : Nat) (count : BurstChan → BurstChan) : State :=
  s.onReceiver c i fun x => { (count x).collide lost with rx := .unconfirmed d.1 d.2 }

/-- Detections at one symbol, the highest correlation first: `part` is what had been decoded of a reception that is
truncated. -/
def State.detect (s : State) (c i : Nat) (d : Nat × Nat) (lost : Nat) (part : BurstIn) : State :=
  let x := (s.chan c).pm
  match (s.receiver c i).rx with
  | .idle => s.openBurst c i d lost fun x => { x with detect := x.detect + 1 }
  | .unconfirmed _ _ => s.openBurst c i d lost fun x => { x with preempt := x.preempt + 1 }
  | .confirmed power leaf _ disc cell ofs =>
    if x.capOn && power + 100 * x.capThr ≤ d.2 then
      (s.burstData c i part leaf disc (1000 * ((cell : Int) - 1023) + ofs)).openBurst c i d lost fun x =>
        { x with capture := x.capture + 1, trunc := x.trunc + 1 }
    else s.onReceiver c i fun x => x.collide (lost + 1)

/-- The detection of highest correlation. -/
def strongest (ds : List (Nat × Nat)) : Option (Nat × Nat) :=
  ds.foldl (fun m d => match m with | some e => some (if e.1 < d.1 then d else e) | none => some d) none

/-- Preambles are detected at one symbol: each by its correlation in 1/256 and its power in 0.01 dB. -/
def execBurstDetect (c : Fin 32) (i : Fin 16) (ds : List (Nat × Nat)) (part : BurstIn) (s : State) : Out :=
  let ds := ds.filter fun d => (s.chan c).pm.detThr ≤ d.1
  occursWith s (if s.sharedSub c i then strongest ds else none) fun d => s.detect c i d (ds.length - 1) part

/-! ### Header checks (R322) -/

/-- The check word of a burst header. -/
def burstHeaderOk (h : Word) : Bool := crc16ccitt ((Word.bytes h).take 6) = h.bits 63 48

/-- The header names a leaf whose bursts are received, or a discovery burst in an open window (cells from 1,023 on of the
subcarrier that the map of the present receive multiframe opened). -/
def Channel.headerPasses (ch : Channel) (i cell : Nat) (h : Word) : Bool :=
  let j := h.bits 6 0
  burstHeaderOk h && if j = 127 then h.bit 7 && 1023 ≤ cell && ch.pm.discGov.contains (ch.hubCount, i)
    else j < 64 && ((ch.pm.leaf j).state = .ranging || (ch.pm.leaf j).state = .active)

/-- Windows of the map in force for the present receive multiframe. -/
def Channel.inForce (ch : Channel) : List Grant := ((ch.pm.planned.find? fun p => p.1 = ch.hubCount).map Prod.snd).getD []

/-- Offset of an arrival from the start of the leaf's nearest window on subcarrier i, and whether it lies outside every one
of them by more than 32 ns. -/
def Channel.placed (ch : Channel) (i j cell : Nat) (ofs : Int) : Option Int × Bool :=
  let t : Int := 1000 * (cell : Int) + ofs
  let ws := ch.inForce.filter fun g => g.leaf = j && g.subc = i
  let near := ws.foldl (fun (m : Option Int) g =>
    let d := t - 1000 * (g.start : Int)
    match m with | some e => some (if d.natAbs < e.natAbs then d else e) | none => some d) none
  (near, ws.all fun g => t + 32 < 1000 * (g.start : Int) || 1000 * ((g.start : Int) + g.cells) + 32 < t)

/-- A confirmed burst of leaf j: counted, and its arrival measured. -/
def State.confirmBurst (s : State) (c i j cell : Nat) (ofs : Int) : State :=
  let q := (s.chan c).placed i j cell ofs
  let s := s.onReceiver c i fun x => { x with misplaced := if q.2 then x.misplaced + 1 else x.misplaced }
  let s := s.onLeaf c j fun x => { x with bursts := x.bursts + 1, heard := true, silent := 0 }
  match q.1 with
  | some d => s.arrival c j d true
  | none => s

/-- The header copies have been combined: `header` as read, the cell in which the preamble began and its offset in ns. -/
def State.headerCheck (s : State) (c i power : Nat) (h : Word) (cell : Nat) (ofs : Int) : State :=
  let j := h.bits 6 0
  if !(s.chan c).headerPasses i cell h then s.onReceiver c i fun x => { x with rx := .idle, hdrFail := x.hdrFail + 1 }
  else
    let s := s.onReceiver c i fun x => { x with
      rx := .confirmed power j (h.bits 19 8) (j = 127) cell ofs, confirmed := x.confirmed + 1
      discRx := if j = 127 then x.discRx + 1 else x.discRx }
    if j = 127 then s else s.confirmBurst c i j cell ofs

def execBurstHeaderCheck (c : Fin 32) (i : Fin 16) (header : Word) (cell : Fin 2048) (ofs : Int) (s : State) : Out :=
  occursWith s (if s.sharedSub c i then match (s.receiver c i).rx with | .unconfirmed _ p => some p | _ => none else none)
    fun p => s.headerCheck c i p header cell ofs

/-- A confirmed burst has run to its length. -/
def execBurstReceived (c : Fin 32) (i : Fin 16) (x : BurstIn) (s : State) : Out :=
  occursWith s (if s.sharedSub c i then match (s.receiver c i).rx with
      | .confirmed _ leaf len disc cell ofs => if x.rows.length = len then some (leaf, disc, cell, ofs) else none
      | _ => none else none)
    fun q => (s.burstData c i x q.1 q.2.1 (1000 * ((q.2.2.1 : Int) - 1023) + q.2.2.2)).onReceiver c i fun r => { r with rx := .idle }

/-! ### Delivery (R320, R321) -/

/-- Contexts of leaf j, with a slot in its window in a bank. -/
def Channel.leafContexts (ch : Channel) (c j : Nat) (b : Bool) : List Nat :=
  (ch.locals.map (96 * c + ·)).filter fun i => (ch.sl.naming b i).any (ch.pm.leaf j).holds

/-- A frame record as received: N from the slot table under its bank, in use in the leaf's switch multiframe. -/
def Channel.recordTrib (ch : Channel) (c j : Nat) (r : FrameRecord) : RxTrib :=
  let x := ch.pm.leaf j
  { i := 96 * c + r.loc, n := ((ch.sl.inUse r.bank (x.bankFar = some r.mfc) (96 * c + r.loc)).filter x.holds).length, jc := r.jc
    failed := r.failed, words := r.words, errored := r.errored, replaced := ch.rx.windowHit = some r.mfc }

def FrameRecord.carried (r : FrameRecord) : Carried :=
  { tagLo := wd r.tag 0, tagHi := wd r.tag 1, keyInd := r.keyInd, check := r.check }

/-- Frame (m, k) of leaf j is due: each context's record is delivered, or the replacement in its place; older records go. -/
def State.deliverRecords (s : State) (c j : Nat) (m : BitVec 32) (k : Nat) : State :=
  let rs := (s.leaf c j).records.filter fun r => r.mfc = m && r.frame = k
  let bank := match rs.head? with | some r => r.bank | none => (s.chan c).sl.activeB
  let s := ((s.chan c).leafContexts c j bank).foldl (fun s i =>
    match rs.find? fun r => r.loc = i % 96 with
    | some r => s.deliver ((s.chan c).recordTrib c j r) m k (some r.carried)
    | none => (s.onTrib i Trib.idled).onLeaf c j fun x => { x with recLost := x.recLost + 1 }) s
  s.onLeaf c j fun x => { x with delivered := some (m, k), records := x.records.filter fun r => frameAfter r.mfc r.frame m k }

/-- The hub's own timing has reached the instant at which frame (m + 1, k) would be delivered, T_HUB after it was due to
be sent. -/
def Channel.instantPast (ch : Channel) (m : BitVec 32) (k : Nat) : Bool :=
  let d := ch.tf.mfc - (m + 1)
  d.toNat < 2147483648 && k + 128 ≤ 256 * d.toNat + ch.tf.frame

def execBurstRecordDelivery (c : Fin 32) (j : Fin 64) (m : BitVec 32) (k : Fin 256) (s : State) : Out :=
  let ch := s.chan c
  let x := ch.pm.leaf j
  let due := match x.delivered with | some d => nextNumbers d.1 d.2 = (m, k.val) | none => true
  occurs s (s.boot.powered && ch.awake && ch.pm.mode = .hub && x.burst && x.state = .active && due && ch.instantPast m k)
    (s.deliverRecords c j m k)

end Sys2Proof.Machine
end

