-- ==== Sys2Proof/Machine/Shore.lean ====
section
/-! DEFINITION. The shore chain: its frames, forwarding, neighbours, addressing, alarms, laser-off and messages, and its
commands (19 R420 to R435; 22 R465, R476). -/

namespace Sys2Proof.Machine

def State.onShore (s : State) (g : Shore → Shore) : State := { s with shore := g s.shore }

/-! ### Frames (R420, R421) -/

/-- The words of the shore header. -/
def ShoreFrame.header (f : ShoreFrame) : List Word :=
  [mkWord [(0, 11, f.dst), (11, 11, f.src), (22, 4, f.typ), (32, 11, f.hops), (48, 16, f.seq.toNat)],
   mkWord [(0, 11, f.body.length)]]

/-- The MAC frame without its FCS; the serial's 40 bits stand most significant byte first (DEDUCED, log 29). -/
def ShoreFrame.macBytes (f : ShoreFrame) : List Byte :=
  let load := wordsBytes f.header ++ f.body
  List.replicate 6 0xFF ++ 2 :: beBytes 5 Config.serial.toNat ++ [0x88, 0xB5] ++ load ++ List.replicate (46 - load.length) 0

/-- A body's word i. -/
def ShoreFrame.word (f : ShoreFrame) (i : Nat) : Word := byteWord f.body i

/-! ### Queues and forwarding (R423, R424) -/

/-- A frame enters a port's queue: a LASER_OFF ahead of every other, the rest at the end; a full queue drops it. -/
def Shore.enqueue (x : Shore) (down : Bool) (q : ShoreQueued) : Shore :=
  let l := if down then x.downQueue else x.upQueue
  if 32 ≤ l.length then { x with drop := x.drop + 1 }
  else
    let l := if q.frame.typ = 4 then q :: l else l ++ [q]
    if down then { x with downQueue := l } else { x with upQueue := l }

/-- A frame leaves by a port, unless that port has no neighbour. -/
def Shore.sendOut (x : Shore) (down : Bool) (q : ShoreQueued) : Shore :=
  if (if down then x.downNbr else x.upNbr) then x.enqueue down q else { x with unreach := x.unreach + 1 }

/-- The ports by which a frame leaves, upshore and downshore, when it arrived on `port` (upshore false, downshore true),
or was originated here. -/
def Shore.ways (x : Shore) (dst : Nat) (port : Option Bool) : Bool × Bool :=
  if dst = 0 || dst = x.address then (false, false)
  else if dst = 2047 || x.address = 0 then (port ≠ some false, port ≠ some true)
  else if x.address < dst then (false, port ≠ some true)
  else (port ≠ some false, false)

/-- The frame is for this module (DST 0 is handled and never forwarded). -/
def Shore.takes (x : Shore) (dst : Nat) : Bool := dst = 0 || dst = x.address || dst = 2047

def Shore.route (x : Shore) (q : ShoreQueued) (port : Option Bool) : Shore :=
  let (up, down) := x.ways q.frame.dst port
  let x := if up then x.sendOut false q else x
  if down then x.sendOut true q else x

/-- A frame of this module's own: sent by the rules of forwarding, as if it had come from outside. -/
def Shore.newFrame (x : Shore) (dst typ : Nat) (body : List Byte) : ShoreFrame :=
  { dst := dst, src := x.address, typ := typ, hops := 0, seq := x.seq, body := body }

def Shore.originate (x : Shore) (dst typ : Nat) (body : List Byte) (cmd : Option Nat := none) : Shore :=
  ({ x with seq := x.seq + 1 }).route { frame := x.newFrame dst typ body, cmd := cmd } none

/-- A hop-local frame leaves by the port that its rule names, neighbour or not (DEDUCED, log 30). -/
def Shore.sendLocal (x : Shore) (down : Bool) (typ : Nat) (body : List Byte) : Shore :=
  ({ x with seq := x.seq + 1 }).enqueue down { frame := x.newFrame 0 typ body }

/-! ### Alarms (R430) -/

/-- The head consumes an ALARM frame: event 0x1C22. -/
def State.headAlarm (s : State) (src : Nat) (body : Word) : State :=
  if s.shore.head then s.raise 32 0x1C22 2 (mkWord [(0, 11, src), (11, 4, body.bits 3 0), (15, 1, bitOf (body.bit 4))]) else s

/-- An ALARM is sent, by broadcast for cause 5; a frame whose DST takes in this module is consumed by it too. -/
def State.sendAlarm (s : State) (cause : Nat) (raised : Bool) : State :=
  let dst := if cause = 5 then 2047 else 1
  let w := mkWord [(0, 4, cause), (4, 1, bitOf raised), (32, 32, s.sec')]
  let src := s.shore.address
  let s := if s.shore.takes dst then s.headAlarm src w else s
  s.onShore fun x => x.originate dst 3 w.bytes

/-- Cause 1 or 2 begins, or ends. -/
def State.alarm1 (s : State) (on : Bool) : State :=
  if s.shore.alarm1.isSome == on then s
  else (s.onShore fun x => { x with alarm1 := if on then some (s.now + 10000000000) else none }).sendAlarm 1 on
def State.alarm2 (s : State) (on : Bool) : State :=
  if s.shore.alarm2.isSome == on then s
  else (s.onShore fun x => { x with alarm2 := if on then some (s.now + 10000000000) else none }).sendAlarm 2 on

/-- `second`: cause 2, else cause 1. -/
def execAlarmRepeatTimer (second : Bool) (s : State) : Out :=
  occursWith s (if s.boot.powered then (if second then s.shore.alarm2 else s.shore.alarm1) else none) fun due =>
    let s := (s.at due).sendAlarm (if second then 2 else 1) true
    s.onShore fun x => if second then { x with alarm2 := some (due + 10000000000) } else { x with alarm1 := some (due + 10000000000) }

/-- Boot, or a restart, has not ended 2.0 s after it began. -/
def execLighthouseNotRunning (s : State) : Out :=
  occurs s (s.boot.powered && !s.boot.running && s.shore.alarm2.isNone) ((s.at (s.boot.beganNs + 2000000000)).alarm2 true)

/-- T_cp has stayed above 45.0 °C for 10 s (22 R476). -/
def execDeratingBegin (s : State) : Out :=
  occurs s (s.boot.powered && !s.boot.derating) (({ s with boot := { s.boot with derating := true } } : State).sendAlarm 3 true)

/-- T_cp has stayed below 44.0 °C for 10 s. -/
def execDeratingEnd (s : State) : Out :=
  occurs s (s.boot.powered && s.boot.derating)
    (({ s with boot := { s.boot with derating := false, hot := false } } : State).sendAlarm 3 false)

/-- ALERT_N is low (22 R465). -/
def State.alert (s : State) : Bool := s.boot.derating || s.shore.laserOff || s.boot.laserOffN || s.shore.alarm2.isSome

/-! ### Arrivals -/

/-- A valid frame keeps the port's neighbour. -/
def Shore.heard (x : Shore) (down : Bool) (now : Nat) : Shore :=
  if down then { x with downSeen := now } else { x with upSeen := now }

/-- A frame of one type arrives on a port: dropped at HOPS 2,046, consumed when it is for this module, and forwarded with
HOPS one higher. -/
def State.arrive (s : State) (down : Bool) (f : ShoreFrame) (consume : State → State) : State :=
  let s := s.onShore fun x => x.heard down s.now
  if 2046 ≤ f.hops then s
  else
    let way := s.shore.ways f.dst (some down)
    let x := { frame := { f with hops := f.hops + 1 } : ShoreQueued }
    let s := if s.shore.takes f.dst then consume s else s
    let s := if way.1 then s.onShore fun y => y.sendOut false x else s
    if way.2 then s.onShore fun y => y.sendOut true x else s

/-- The frame can stand in the row of one type. -/
def State.shoreRow (s : State) (f : ShoreFrame) (typ : Nat) : Bool :=
  s.boot.powered && f.typ = typ && f.dst < 2048 && f.src < 2048 && f.hops < 2048 && f.body.length ≤ 1456

/-- Bad FCS, another EtherType, or TYPE 7 to 15, on either port. -/
def execShoreFrameBad (_down : Bool) (s : State) : Out :=
  occurs s s.boot.powered (s.onShore fun x => { x with rxBad := x.rxBad + 1 })

/-- Neighbour changed: event 0x1C21. -/
def State.neighbour (s : State) (down lost : Bool) : State :=
  s.raise 32 0x1C21 2 (mkWord [(0, 1, bitOf !down), (1, 1, bitOf lost)])

/-- ADDR_ASSIGN with the next address goes downshore; one second later again (R426). -/
def State.assignDown (s : State) : State :=
  let a := s.shore.address
  if a = 0 then s
  else s.onShore fun x => { x.sendLocal true 0 (mkWord [(0, 11, a + 1)]).bytes with assignDue := s.now + 1000000000 }

def State.regain (s : State) (down : Bool) : State :=
  if down then
    if s.shore.downNbr then s
    else (((s.onShore fun x => { x with downNbr := true }).neighbour true false).alarm1 false).assignDown
  else if s.shore.upNbr then s
  else (s.onShore fun x => { x with upNbr := true }).neighbour false false

/-- A hop-local frame is handled and never forwarded. -/
def execHello (down : Bool) (f : ShoreFrame) (s : State) : Out :=
  occurs s (s.shoreRow f 6 && f.dst = 0) <| s.arrive down f fun s =>
    (s.onShore fun x => { x with upHello := x.upHello || !down }).regain down

def execHelloTimer (s : State) : Out :=
  occurs s s.boot.powered <|
    let s := s.at s.shore.helloDue
    let body := (mkWord [(0, 11, s.shore.address)]).bytes ++ Config.serial.bytes
    s.onShore fun x => { (x.sendLocal false 6 body).sendLocal true 6 body with helloDue := x.helloDue + 100000000 }

def execShoreNeighbourLost (down : Bool) (s : State) : Out :=
  let x := s.shore
  occurs s (s.boot.powered && if down then x.downNbr else x.upNbr) <|
    let s := s.at ((if down then x.downSeen else x.upSeen) + 500000000)
    if down then ((s.onShore fun x => { x with downNbr := false }).neighbour true true).alarm1 true
    else (s.onShore fun x => { x with upNbr := false }).neighbour false true

/-! ### Addresses (R426 to R428) -/

/-- The address v is adopted, 2,047 as address 0: event 0x1C20, and the next module is told. The first one is remembered for the
stagger release unless it comes 3.0 s or later (R428); 2,047 raises ALARM cause 5, which the next other one clears (R427, R430). -/
def State.adoptAddress (s : State) (v : Nat) (head : Bool) : State :=
  let a := if v = 2047 then 0 else v
  let old := s.shore.address
  let first := a ≠ 0 && s.shore.tA.isNone && s.now < s.boot.originNs + 3000000000
  let was := s.shore.beyond
  let s := s.onShore fun x =>
    { x with address := a, head := head, beyond := v = 2047, tA := if first then some s.now else x.tA, aA := if first then a else x.aA }
  let s := (s.raise 32 0x1C20 1 (mkWord [(0, 11, a), (11, 11, old)])).assignDown
  if v = 2047 || was then s.sendAlarm 5 (v = 2047) else s

def execHeadTimeout (s : State) : Out :=
  occurs s (s.boot.powered && s.shore.address = 0 && s.shore.tA.isNone && !s.shore.upHello)
    ((s.at 1000000000).adoptAddress 1 true)

/-- Every ADDR_ASSIGN from upshore that differs from the module's own address is adopted. -/
def execAddrAssign (down : Bool) (f : ShoreFrame) (s : State) : Out :=
  occurs s (s.shoreRow f 0 && f.dst = 0) <| s.arrive down f fun s =>
    let v := (f.word 0).bits 10 0
    if down || v = s.shore.address then s else s.adoptAddress v false

def execAddrAssignTimer (s : State) : Out :=
  occurs s (s.boot.powered && s.shore.address ≠ 0) ((s.at s.shore.assignDue).assignDown)

/-! ### Inventory (R422, R429) -/

def State.inventory (s : State) : List Word :=
  let ver := match (if s.sec.runB then s.sec.slotB else s.sec.slotA) with | some i => i.version.toNat | none => 0
  let up := (List.range 32).foldl (fun m c => m + 2 ^ c * bitOf ((s.chan c).bu.step = 4 && (s.chan c).pw.level.carries)) 0
  [mkWord [(0, 16, Config.vendorId.toNat), (16, 16, 0x5132), (32, 8, 0x42), (40, 8, 1), (48, 1, bitOf s.sec.runB)],
   Config.serial, mkWord [(0, 32, ver), (32, 32, Config.mfgDay.toNat)],
   mkWord [(0, 11, s.shore.address), (11, 1, bitOf s.shore.head), (32, 24, s.powerHours)],
   mkWord [(0, 32, up), (32, 6, s.part.seq)], 0, 0, 0]

/-- A frame that needs the lighthouse controller while it does not run. -/
def State.noFirmware (s : State) (k : State) : State :=
  if s.boot.running then k else s.onShore fun x => { x with noFw := x.noFw + 1 }

def execInvReq (down : Bool) (f : ShoreFrame) (s : State) : Out :=
  occurs s (s.shoreRow f 1) <| s.arrive down f fun s =>
    s.noFirmware (s.onShore fun x => x.originate f.src 2 (wordsBytes s.inventory))

/-- The query that waits longest for a module's record ends with it. -/
def State.queryEnds (s : State) (w : InvWait) (k : Flight → State → State) : State :=
  let s := s.onShore fun x => { x with invWaits := x.invWaits.filter fun q => q.id ≠ w.id }
  match s.flight? w.id with | some f => k f s | none => s

def State.invAnswer (s : State) (src : Nat) (body : List Byte) : State :=
  match s.shore.invWaits.find? fun w => w.dst = src with
  | some w => s.queryEnds w fun f s => (s.writeBuf f 0 (body.take 64)).finish f 0
  | none => s

def execInvResp (down : Bool) (f : ShoreFrame) (s : State) : Out :=
  occurs s (s.shoreRow f 2) <| s.arrive down f fun s => s.invAnswer f.src f.body

def execShoreInvTimeout (id : Nat) (s : State) : Out :=
  occursWith s ((s.shore.invWaits.find? fun w => w.id = id).filter fun _ => s.boot.powered) fun w =>
    (s.at w.due).queryEnds w fun f s => s.finish f 0x21

def execAlarm (down : Bool) (f : ShoreFrame) (s : State) : Out :=
  occurs s (s.shoreRow f 3) <| s.arrive down f fun s => s.headAlarm f.src (f.word 0)

/-! ### Laser-off (R431; 12 R293) -/

/-- Shutdown cause 2 begins, or its hold starts again. -/
def State.shoreOff (s : State) (src hold : Nat) : State :=
  let was := s.shore.laserOff
  let s := s.onShore fun x =>
    { x with laserOff := true, holdDue := if hold = 0 then none else some (s.now + hold * 1000000000) }
  if was then s
  else (List.range 32).foldl (fun s c => s.shutEvent c 2) (s.raise 32 0x1C23 3 (mkWord [(0, 1, 1), (1, 11, src)]))

/-- Cause 2 ends, and the outputs that nothing else blanks open. -/
def State.shoreOn (s : State) (src : Nat) : State :=
  if s.shore.laserOff then
    let s := (s.onShore fun x => { x with laserOff := false, holdDue := none }).raise 32 0x1C23 3 (mkWord [(1, 11, src)])
    (List.range 32).foldl (fun s c => s.openOutput c) s
  else s

def State.laserOrder (s : State) (src : Nat) (on : Bool) (hold : Nat) : State := if on then s.shoreOff src hold else s.shoreOn src

def execLaserOff (down : Bool) (f : ShoreFrame) (s : State) : Out :=
  occurs s (s.shoreRow f 4) <| s.arrive down f fun s => s.laserOrder f.src ((f.word 0).bit 0) ((f.word 0).bits 63 32)

/-- The spec names no source for a release by the end of HOLD_S: a free value (log 1). -/
def execLaserOffHoldExpiry (s : State) : Out :=
  occursWith s (if s.boot.powered && s.shore.laserOff then s.shore.holdDue else none) fun due =>
    ((s.at due).shoreOn (s.freeVal 0 11)).draw

/-- The LASER_OFF_N pin (12 R293; 19 R430; 22 R480). -/
def State.pinOff (s : State) : State :=
  let s : State := { s with boot := { s.boot with laserOffN := true } }
  ((List.range 32).foldl (fun s c => s.shutEvent c 1) s).sendAlarm 4 true

def execLaserOffNAssert (s : State) : Out := occurs s (s.boot.powered && !s.boot.laserOffN) s.pinOff

def execLaserOffNRelease (s : State) : Out :=
  occurs s (s.boot.powered && s.boot.laserOffN) <|
    let s : State := { s with boot := { s.boot with laserOffN := false } }
    ((List.range 32).foldl (fun s c => s.openOutput c) s).sendAlarm 4 false

/-! ### Messages (R432) -/

def State.takeMsg (s : State) (src : Nat) (seq : BitVec 16) (body : List Byte) : State :=
  s.noFirmware <| match s.messageRing 32 (some s.primary) with
    | some r => s.fillMessage r body (src + 65536 * seq.toNat)
    | none => s.raise 32 0x1C24 2 (mkWord [(0, 11, src), (16, 16, seq.toNat)])

def execMsg (down : Bool) (f : ShoreFrame) (s : State) : Out :=
  occurs s (s.shoreRow f 5 && f.body.length ≠ 0) <| s.arrive down f fun s => s.takeMsg f.src f.seq f.body

/-- A SHORE_SEND ends when no copy of its frame waits any more. -/
def State.shoreSent (s : State) (cmd : Option Nat) : State :=
  let waits (l : List ShoreQueued) : Bool := l.any fun q => q.cmd = cmd
  if cmd.isSome && !waits s.shore.upQueue && !waits s.shore.downQueue then s.finishOpt cmd 0 else s

def execShoreFrameSent (down : Bool) (s : State) : Out :=
  occursWith s (if s.boot.powered then (if down then s.shore.downQueue else s.shore.upQueue).head? else none) fun q =>
    let s := s.onShore fun x => if down then { x with downQueue := x.downQueue.drop 1 } else { x with upQueue := x.upQueue.drop 1 }
    (s.emit (.shore down q.frame.macBytes)).shoreSent q.cmd

/-! ### Commands (R434) -/

def Desc.shoreDst (d : Desc) : Nat := d.p0.bits 10 0

def execShoreStatus (id : Nat) (s : State) : Out :=
  withCmd s id 0x1C00 fun f =>
    let x := s.shore
    let left := match x.holdDue with | some d => cdiv (d - s.now) 1000000000 | none => 0
    s.answer f [mkWord [(0, 11, x.address), (11, 1, bitOf x.head), (12, 1, bitOf x.upNbr), (13, 1, bitOf x.downNbr),
                        (14, 1, bitOf s.boot.released), (15, 1, bitOf x.laserOff), (32, 32, left)],
                mkWord [(0, 32, x.rxBad.toNat), (32, 32, x.drop.toNat)],
                mkWord [(0, 32, x.unreach.toNat), (32, 32, x.noFw.toNat)], mkWord [(0, 32, s.boot.releaseMs)]]

def execShoreInventory (id : Nat) (s : State) : Out := withCmd s id 0x1C01 fun f => s.answer f s.inventory

/-- A query to the module's own address is answered by itself. -/
def execShoreInvQuery (id : Nat) (s : State) : Out :=
  withCmd s id 0x1C02 fun f =>
    let dst := f.desc.shoreDst
    if s.shore.address = 0 then s.finish f 0x20
    else if dst = 0 || dst = 2047 then s.finish f 0x01
    else
      let s := s.onShore fun x => x.originate dst 1 []
      if dst = s.shore.address then (s.onShore fun x => { x with seq := x.seq + 1 }).answer f s.inventory
      else (s.onShore fun x =>
        { x with invWaits := x.invWaits ++ [{ id := f.id, dst := dst, due := s.now + 500000000 }] }).run f

/-- A message to the module itself leaves by no port and is consumed at once. -/
def execShoreSend (id : Nat) (bs : List Byte) (s : State) : Out :=
  withCmd s id 0x1C03 fun f =>
    let dst := f.desc.shoreDst
    let body := bs.take f.desc.bufLen
    let n := s.shore.seq
    if s.shore.address = 0 then s.finish f 0x20
    else if dst = 0 || 1456 < f.desc.bufLen || body.length ≠ f.desc.bufLen then s.finish f 0x01
    else
      let s := if s.shore.takes dst then s.takeMsg s.shore.address n body else s
      let s := s.onShore fun x => x.originate dst 5 body (some f.id)
      if dst = s.shore.address then s.finish f 0 else s.run f

/-- A broadcast acts on the module too; the module's own address needs no frame. -/
def execShoreLaserOff (id : Nat) (s : State) : Out :=
  withCmd s id 0x1C04 fun f =>
    let dst := f.desc.shoreDst
    let on := f.desc.p0.bit 16
    let hold := f.desc.p1.bits 31 0
    if s.shore.address = 0 then s.finish f 0x20
    else if dst = 0 then s.finish f 0x01
    else
      let s := if s.shore.takes dst then s.laserOrder s.shore.address on hold else s
      let s := if dst = s.shore.address then s
        else s.onShore fun x => x.originate dst 4 (mkWord [(0, 1, bitOf on), (32, 32, hold)]).bytes
      s.finish f 0

end Sys2Proof.Machine
end

