-- ==== Sys2Proof/Machine/HostPort.lean ====
section
/-! DEFINITION. The host port (03): the registers of the BARs, the MSI-X table, the DMA arbiters, and what a
function-level reset does to a link. -/

namespace Sys2Proof.Machine

/-! ### Arbitration (R51 to R55) -/

/-- EFF = min(BASE + AGE, CEIL) (R52). -/
def Requester.priority (q : Requester) : Nat := min (q.base + q.age) q.ceil

def Arbiter.req (a : Arbiter) (i : Nat) : Requester := a.reqs.getD i { base := 0, ceil := 0 }

/-- The first index with the highest EFF among those that request, in the order of the round. -/
def pickBest (a : Arbiter) (m : BitVec 36) : List Nat → Option Nat → Option Nat
  | [], best => best
  | i :: is, best =>
    pickBest a m is <|
      if m.getLsbD i then
        match best with
        | none => some i
        | some b => if (a.req b).priority < (a.req i).priority then some i else some b
      else best

/-- The round of a decision: from the index after the previous winner, rising, wrapping from 35 to 0. -/
def Arbiter.round (a : Arbiter) : List Nat := (List.range 36).map fun k => (a.prev + 1 + k) % 36

/-- The requester after a decision that `w` wins. One that does not request keeps everything: its AGE by R52, the EFF of the
last decision at which it requested, and its run of lost decisions (DESIGN CHOICE, log 72). -/
def Requester.decided (q : Requester) (i w : Nat) (asks : Bool) : Requester :=
  if i = w then { q with eff := q.priority, age := 0, losing := 0 }
  else if asks then
    { q with eff := q.priority, age := satAt 15 (q.age + 1), losing := q.losing + 1,
             waitMax := satAt 65535 (max q.waitMax (q.losing + 1)) }
  else q

def Arbiter.decide (a : Arbiter) (m : BitVec 36) : Arbiter :=
  match pickBest a m a.round none with
  | none => { a with holder := none }
  | some w => { a with reqs := (List.range 36).map fun i => (a.req i).decided i w (m.getLsbD i), prev := w
                       holder := some (w, 64 * (a.req w).burst) }

/-- Bytes that transfers count: write payload and read request length (R52). -/
def transferBytes (xs : List (Bool × Nat)) : Nat := (xs.map Prod.snd).sum

/-- The link with the largest payload and read request that the host has configured (R36). -/
def Link.configured (l : Link) (x : GrantIn) : Link :=
  { l with maxPayload := 128 * 2 ^ x.mps.val, maxRead := 128 * 2 ^ x.mrrs.val }

/-- The transfers that the holder has issued, reads and writes with their bytes, end its grant: they fit the link's limits
(R36), and with the last of them its BURST is reached or it requests no more (R52). Without a holder there are none. -/
def Link.grantOver (l : Link) (x : GrantIn) : Bool :=
  match l.arb.holder with
  | none => x.past.isEmpty
  | some (h, burst) =>
    (x.past.all fun q => 0 < q.2 && q.2 ≤ (if q.1 then l.maxRead else l.maxPayload))
      && (x.past.isEmpty || transferBytes x.past.dropLast < burst) && (!x.asks.getLsbD h || burst ≤ transferBytes x.past)

/-- Idle, with all AGE 0 (R52). -/
def Arbiter.idle (a : Arbiter) : Arbiter :=
  { a with reqs := a.reqs.map fun q => { q with age := 0 }, holder := none }

/-- A decision is taken when no grant is held: its operands are the transfers with which the last grant ended and the set of
requesters that request now, without which the arbiter is idle (log 13). -/
def execArbiterDecision (n : Fin 4) (x : GrantIn) (s : State) : Out :=
  occurs s (s.reach n && ((s.link n).configured x).grantOver x)
    (s.onLink n fun l => { l.configured x with arb := l.arb.decide x.asks })

/-- A write of ARB_PRIO_n: discarded whole with its ARB_ERR bit set when its values do not fit (R53, R54). -/
def Arbiter.write (a : Arbiter) (i : Nat) (v : Word) : Arbiter :=
  let base := v.bits 3 0
  let ceil := v.bits 11 8
  let burst := v.bits 26 16
  if ceil < base || burst = 0 || 1024 < burst then { a with err := a.err ||| BitVec.ofNat 36 (2 ^ i) }
  else { a with reqs := a.reqs.set i { a.req i with base := base, ceil := ceil, burst := burst } }

def execArbPrioWrite (n : Fin 4) (i : Fin 36) (v : Word) (s : State) : Out :=
  occurs s (s.reach n && !s.sec.rcvMode) (s.onLink n fun l => { l with arb := l.arb.write i v })

/-- ARB_STAT_n of requester q. -/
def Requester.statWord (q : Requester) : Word := BitVec.ofNat 64 q.waitMax

/-- The bytes of a register that a read addresses (R40). -/
def addressed (x : ArbRead) (w : Word) : Word :=
  (w >>> (8 * x.ofs.val)) &&& BitVec.ofNat 64 (2 ^ (8 * (x.size.val + 1)) - 1)

/-- ARB_WAIT_MAX clears with a read of a byte of it (R54; DESIGN CHOICE for one of its two bytes, log 136). -/
def execArbStatRead (n : Fin 4) (x : ArbRead) (s : State) : Out :=
  let i := x.req
  let s' := s.emit (.readData n (addressed x ((s.link n).arb.req i).statWord))
  occurs s (s.reach n && !s.sec.rcvMode) <| if 2 ≤ x.ofs.val then s' else
    s'.onLink n fun l =>
      { l with arb := { l.arb with reqs := l.arb.reqs.set i { l.arb.req i with waitMax := 0, losing := 0 } } }

/-! ### Function-level reset (R38) -/

/-- The commands of a link's rings at its reset: started ones run on without a completion, the others are dropped. -/
def resetFlights (n : Nat) (fs : List Flight) : List Flight :=
  (fs.filter fun f => f.link ≠ n || f.orphan || (f.phase ≠ .fetched && f.desc.opcode ≠ 0x0130)).map fun f =>
    if f.link = n then { f with orphan := true } else f

def State.functionReset (s : State) (n : Nat) : State :=
  let l := s.link n
  let s := (s.ringsWhere fun _ y => y.owner = n && y.en).foldl State.dropCapture s
  let s := { s with flights := resetFlights n s.flights
                    rings := s.rings.map fun (q : Nat × Ring) => if q.2.owner = n && (q.2.en || q.2.draining) || s.flights.any (fun f => f.ring = q.1 && f.link = n)
                      then (q.1, {}) else q }
  s.setLink n { l with halted := false, downLimit := 10, speedMax := 3, arb := { prev := l.arb.prev }, msix := [], deferred := [],
                       reads := [], sweepDue := none }

def execFunctionLevelReset (n : Fin 4) (s : State) : Out :=
  occurs s (s.reach n) (s.functionReset n)

/-! ### MSI-X table (R40, BAR2) -/

/-- One 32-bit write into the MSI-X table. Unmasking a vector with its pending bit set delivers it (04 R75). -/
def State.msixWrite (s : State) (n dword v : Nat) : State :=
  let i := dword / 4
  let e := (s.link n).msix.get {} i
  let put (s : State) (e : MsixEntry) : State := s.onLink n fun l => { l with msix := l.msix.insert i e }
  match dword % 4 with
  | 0 => put s { e with addr := mkWord [(0, 32, v), (32, 32, e.addr.bits 63 32)] }
  | 1 => put s { e with addr := mkWord [(0, 32, e.addr.bits 31 0), (32, 32, v)] }
  | 2 => put s { e with data := BitVec.ofNat 32 v }
  | _ =>
    if v % 2 = 0 && e.pending then (put s { e with masked := false, pending := false }).emit (.interrupt n i)
    else put s { e with masked := v % 2 = 1 }

def State.bar2Write (s : State) (n off width : Nat) (v : Word) : State :=
  if 0x8000 ≤ off then s
  else if width = 4 && off % 4 = 0 then s.msixWrite n (off / 4) (v.bits 31 0)
  else if width = 8 && off % 8 = 0 then (s.msixWrite n (off / 4) (v.bits 31 0)).msixWrite n (off / 4 + 1) (v.bits 63 32)
  else s

/-! ### BAR0 registers (R39 to R41; 04; 20 R443) -/

def State.lnkCtlWrite (s : State) (n : Nat) (v : Word) : State :=
  s.onLink n fun l =>
    let lim := v.bits 6 0
    { l with downLimit := if lim = 0 || 100 < lim then l.downLimit else lim
             speedMax := if v.bits 9 8 = 0 then l.speedMax else v.bits 9 8 }

/-- RING_BASE_r: RING_ADDR is writable while the ring is disabled and not busy (R44, R41). -/
def State.ringBaseWrite (s : State) (r : Nat) (v : Word) : State :=
  if s.posReady && !s.ringBusy r then s.onRing r fun x => { x with addr := BitVec.ofNat 52 (v.bits 63 12) } else s

/-- A write of RCV_CTL: RCV_LEN, and with RCV_GO the start of the recovery, ignored while it is busy. -/
def State.rcvCtlWrite (s : State) (v : Word) : State :=
  if s.sec.rcvBusy then { s with sec := { s.sec with rcvLen := v.bits 24 0 } }
  else { s with sec := { s.sec with rcvLen := v.bits 24 0, rcvBusy := v.bit 63, rcvGoNs := if v.bit 63 then s.now else s.sec.rcvGoNs } }

/-- An aligned 64-bit write at a BAR0 offset; RO fields and reserved offsets discard it. -/
def State.bar0Write (s : State) (n off : Nat) (v : Word) : State :=
  if off = 0x0000 then (if v.bit 13 then s.onLink n fun l => { l with halted := false } else s)
  else if off = 0x0008 then s.lnkCtlWrite n v
  else if s.sec.rcvMode then
    if n = 0 && off = 0x0208 then { s with sec := { s.sec with rcvAddr := v } }
    else if n = 0 && off = 0x0210 then s.rcvCtlWrite v
    else s
  else if off = 0x1000 then
    if (s.ringsWhere fun _ x => x.en && x.owner = n).isEmpty then
      s.onLink n fun l => { l with dbAddr := BitVec.ofNat 52 (v.bits 63 12) }
    else s
  else if off = 0x1008 then s.nudge n v
  else if off = 0x1010 then
    if v.bits 15 0 = 0 then s else s.onLink n fun l => { l with sweepInt := v.bits 15 0 }
  else if off = 0x1018 then
    if v.bits 47 32 = 0 then s else s.onLink n fun l => { l with sweepFound := 0 }
  else if 0x2000 ≤ off && off < 0x2240 && off % 16 = 0 then
    s.onLink n fun l => { l with arb := l.arb.write ((off - 0x2000) / 16) v }
  else if off = 0x2400 then
    s.onLink n fun l => { l with arb := { l.arb with err := l.arb.err &&& ~~~(BitVec.ofNat 36 (v.bits 35 0)) } }
  else if 0x100000 ≤ off && off < 0x200000 then
    if off % 16 = 0 then s.ringBaseWrite ((off - 0x100000) / 16) v
    else s.ringCfgWrite n ((off - 0x100000) / 16) v
  else s

/-- A memory write that hits a BAR: a BAR0 write that is not an aligned 64-bit one is completed and discarded (R40). -/
def execRegisterWrite (n : Fin 4) (bar : Fin 3) (off width : Nat) (v : Word) (s : State) : Out :=
  occurs s (s.reach n) <|
    if bar = 0 then (if width = 8 && off % 8 = 0 then s.bar0Write n off v else s)
    else if bar = 2 then s.bar2Write n off width v
    else s

def execRcvGo (v : Word) (s : State) : Out :=
  occurs s (s.reach 0 && s.sec.rcvMode && v.bit 63) (s.rcvCtlWrite v)

def execUnsupportedRequest (n : Fin 4) (_addr : Word) (s : State) : Out :=
  occurs s (s.reach n) (s.emit (.unsupportedRequest n))

/-! ### What registers read (03; 04; 20 R443). The command table has no row for a read without a side effect; these are
the values that a read by link n returns. -/

/-- LNK_STATUS; a link that is down shows speed 0, and the width of its last training (DESIGN CHOICE, log 164). -/
def State.lnkStatus (s : State) (n : Nat) : Word :=
  let l := s.link n
  mkWord [(0, 2, n), (2, 3, if l.trained && !l.down then l.speed else 0), (5, 5, l.width), (10, 2, s.boot.cfgSplit),
    (12, 1, bitOf l.recovery), (13, 1, bitOf l.halted), (16, 16, l.recovCount)]

def State.lnkCtl (s : State) (n : Nat) : Word := mkWord [(0, 7, (s.link n).downLimit), (8, 2, (s.link n).speedMax)]

def State.posStatus (s : State) (n : Nat) : Word :=
  mkWord [(0, 1, bitOf s.posReady), (1, 1, bitOf s.sec.runB), (2, 1, bitOf (s.primary = n)), (3, 1, bitOf s.orphaned)]

/-- PART_OWNED and PART_OBSERVED as they apply to link n, and the word of PART_PRIMARY, PART_SEQ and PART_REMAIN. -/
def State.partMasks (s : State) (n : Nat) : Word :=
  mkWord (((List.range 32).map fun c => (c, 1, bitOf (s.owns n c))) ++
    ((List.range 32).map fun c => (32 + c, 1, bitOf (s.observes n c))))
def State.partWord (s : State) : Word := mkWord [(0, 2, s.part.primary), (8, 6, s.part.seq), (16, 6, 32 - s.part.seq)]

/-- ARB_PRIO_n of requester q. -/
def Requester.word (q : Requester) : Word :=
  mkWord [(0, 4, q.base), (8, 4, q.ceil), (16, 11, q.burst), (40, 4, q.age), (48, 4, q.eff)]

/-- A dword of the MSI-X table, and a word of the pending bit array. -/
def Link.msixDword (l : Link) (k : Nat) : Nat :=
  let e := l.msix.get {} (k / 4)
  match k % 4 with
  | 0 => e.addr.bits 31 0
  | 1 => e.addr.bits 63 32
  | 2 => e.data.toNat
  | _ => bitOf e.masked
def Link.pendingWord (l : Link) (k : Nat) : Word :=
  mkWord ((List.range 64).map fun i => (i, 1, bitOf (l.msix.get {} (64 * k + i)).pending))

/-- An aligned 64-bit word of BAR2: the table, the pending bits, and 0 elsewhere (R39, R40). -/
def State.bar2Read (s : State) (n off : Nat) : Word :=
  let l := s.link n
  if off < 0x8000 then mkWord [(0, 32, l.msixDword (off / 4)), (32, 32, l.msixDword (off / 4 + 1))]
  else if off < 0x8100 then l.pendingWord ((off - 0x8000) / 8)
  else 0

/-- RCV_STATUS. -/
def Security.rcvStatus (x : Security) : Word :=
  mkWord [(0, 1, bitOf x.rcvMode), (1, 1, bitOf x.rcvBusy), (2, 3, x.rcvErr)]

/-- A BAR0 register at an 8-byte aligned offset; a read of ARB_STAT_n also has the effect of the row ARB_STAT_READ. RCV_GO reads
as 0: 20 R443 gives the effect of writing it and no value that it holds (DESIGN CHOICE, log 107). -/
def State.bar0Read (s : State) (n off : Nat) : Word :=
  let l := s.link n
  if off = 0x0000 then s.lnkStatus n
  else if off = 0x0008 then s.lnkCtl n
  else if off = 0x0010 then s.posStatus n
  else if s.sec.rcvMode then
    if n = 0 && off = 0x0200 then s.sec.rcvStatus
    else if n = 0 && off = 0x0208 then s.sec.rcvAddr
    else if n = 0 && off = 0x0210 then mkWord [(0, 25, s.sec.rcvLen)]
    else 0
  else if off = 0x0100 then s.partMasks n
  else if off = 0x0108 then s.partWord
  else if off = 0x1000 then mkWord [(12, 52, l.dbAddr.toNat)]
  else if off = 0x1008 then mkWord [(0, 10, l.nudgeG)]
  else if off = 0x1010 then mkWord [(0, 16, l.sweepInt)]
  else if off = 0x1018 then mkWord [(0, 32, l.nudgeCount.toNat), (32, 16, l.sweepFound)]
  else if 0x2000 ≤ off && off < 0x2240 then
    if off % 16 = 0 then (l.arb.req ((off - 0x2000) / 16)).word else (l.arb.req ((off - 0x2000) / 16)).statWord
  else if off = 0x2400 then mkWord [(0, 36, l.arb.err.toNat)]
  else if 0x100000 ≤ off && off < 0x200000 then
    if off % 16 = 0 then (s.ring ((off - 0x100000) / 16)).baseWord else s.cfgWord ((off - 0x100000) / 16)
  else 0

/-- What a read of `width` bytes at an offset of BAR0 or BAR2 returns: the addressed bytes (R40). -/
def State.barRead (s : State) (n bar off width : Nat) : List Byte :=
  let word (k : Nat) : Word := if bar = 0 then s.bar0Read n (8 * k) else if bar = 2 then s.bar2Read n (8 * k) else 0
  (List.range width).map fun i => (word ((off + i) / 8)).bytes.getD ((off + i) % 8) 0

/-- Identity of the function in PCI Express configuration space: vendor, device 0x5132, and class 0x028000 (R36). -/
def configIdentity : BitVec 16 × BitVec 16 × BitVec 24 := (Config.vendorId, 0x5132, 0x028000)

end Sys2Proof.Machine
end

