-- ==== Sys2Proof/Machine/Startup.lean ====
section
/-! DEFINITION. Supply, resets, boot, recovery, stagger release, host links going up and down, and the powered hour
(19 R416 to R418, R428; 20 R442, R443; 22 R466 to R468, R477; 02 R32, R33; 03 R35, R38; 21 R459; 00 R493; 04 R495). -/

namespace Sys2Proof.Machine

def State.onBoot (s : State) (g : Boot → Boot) : State := { s with boot := g s.boot }

/-! ### What survives (R418) -/

/-- A ledger write that the supply loss or reset leaves whole has its effect; any other is absent (03 R49; 20 R447). -/
def State.ledgerWhole (s : State) (w : LedgerWrite) : State :=
  let link := match s.flight? w.id with | some f => f.link | none => 0
  match w with
  | .partition _ p => { s with part := p, sec := { s.sec with ledger := s.sec.ledger ++ [s.partLedger link p] } }
  | .floor _ v =>
    if v ≤ s.sec.floor then s
    else
      let ver := match s.sec.running with | some i => i.version.toNat | none => 0
      let e : LedgerEntry := { typ := 3, seq := (s.entriesOf 3).length + 1, link := link, primary := 0, powerH := s.powerHours
                               w1 := mkWord [(0, 7, s.sec.floor), (8, 7, v), (32, 32, ver)], w2 := 0, w3 := 0 }
      let keep (o : Option Image) : Option Image := o.filter fun i => v ≤ i.svn
      s.onSec fun x => { x with floor := v, ledger := x.ledger ++ [e], slotA := keep x.slotA, slotB := keep x.slotB }

/-- What flash and fuses hold of the security section: images, preference and trial flags, the floor and the ledger. -/
def Security.flash (x : Security) : Security :=
  { slotA := x.slotA, slotB := x.slotB, prefB := x.prefB, trial := x.trial, tried := x.tried, floor := x.floor
    ledger := x.ledger }

/-- What flash holds of a channel: its daily ledger records, and what they count since manufacture (16 R376, R383). -/
def Channel.flash (ch : Channel) : Channel :=
  { age := { daily := ch.age.daily, dailySeq := ch.age.dailySeq, bol := ch.age.bol, upMin := ch.age.upMin } }

/-- The state with everything cleared that is not in flash or fuses, after the ledger writes that ended whole. The model's
own counters and log go on. -/
def State.cleared (s : State) (whole : List Nat) : State :=
  let s := (s.sec.ledgerWrites.filter fun w => whole.contains w.id).foldl State.ledgerWhole s
  { now := s.now, sec := s.sec.flash, powerHours := s.powerHours, part := s.part, retireList := s.retireList
    channels := s.channels.map fun p => (p.1, p.2.flash), nextId := s.nextId, out := s.out, free := s.free, pending := s.pending }

/-! ### Supply (22 R466 to R468) -/

/-- `split`, `laserOffN` and `perst` are the pins CFG_SPLIT, LASER_OFF_N asserted and PERST# asserted. -/
def execPowerOn (split : Fin 4) (laserOffN : Bool) (perst : BitVec 4) (s : State) : Out :=
  occurs s (!s.boot.powered) <|
    let s := s.cleared []
    let s : State := { s with now := 0, boot := { cfgSplit := split, laserOffN := laserOffN }
                              links := (List.range 4).map fun n => (n, { perst := perst.getLsbD n }) }
    if laserOffN then s.pinOff else s

/-- An excursion within the ride-through has no effect. -/
def execSupplyDip (s : State) : Out := .next s

/-- `whole`: the commands whose ledger entry in progress is left whole. -/
def execSupplyLossShutdown (whole : List Nat) (s : State) : Out :=
  occurs s s.boot.powered (({ s.cleared whole with boot := { powered := false } } : State))

/-! ### Module reset (R418) -/

/-- The timing core's oscillator keeps running. -/
def Timing.afterReset (t : Timing) : Timing :=
  { oscWarm := t.oscWarm, hoGrade := t.hoGrade, lockedS := t.lockedS, ageing := t.ageing, dayDue := t.dayDue, secDue := t.secDue, lead := t.lead
    lastMean := t.lastMean }

/-- The shore chain works through the reset, with its raised alarms; its counters and SEQ start again, what needs the controller is
gone, and the address counts from the reset's end (R422, R428, R434). -/
def Shore.afterReset (x : Shore) (now : Nat) : Shore :=
  let plain (l : List ShoreQueued) : List ShoreQueued := l.map fun q => { q with cmd := none }
  { x with tA := if x.address = 0 then none else some now, aA := x.address, invWaits := [], seq := 0
           rxBad := 0, drop := 0, unreach := 0, noFw := 0, upQueue := plain x.upQueue, downQueue := plain x.downQueue }

/-- Causes 1 and 2 that outlast the reset blank every channel on: they are no new causes, and end with event 0x14C2 (12 R294). -/
def State.standing (s : State) : State :=
  let r := (if s.boot.laserOffN then causeBit 1 else 0) ||| (if s.shore.laserOff then causeBit 2 else 0)
  if r = 0 then s else (List.range 32).foldl (fun s c => s.onOpt c fun x => { x with raised := r }) s

def State.moduleReset (s : State) (whole : List Nat) : State :=
  State.standing { s.cleared whole with
    sec := { (s.cleared whole).sec with testDue := s.now + 4096000 }, srams := [(32, { visitNs := s.now })]
    boot := { cfgSplit := s.boot.cfgSplit, laserOffN := s.boot.laserOffN, derating := s.boot.derating, hot := s.boot.hot
              beganNs := s.now, originNs := s.now }
    shore := s.shore.afterReset s.now, tm := s.tm.afterReset, hourDue := s.hourDue, since := s.since
    lowWater := s.lowWater, links := (List.range 4).map fun n => (n, { perst := (s.link n).perst }) }

def execModReset (whole : List Nat) (s : State) : Out := occurs s s.boot.powered (s.moduleReset whole)

/-! ### Boot and restart (20 R442, R443, R445, R446) -/

/-- The trial rule, applied before the slots are checked. -/
def Security.trialRule (x : Security) : Security :=
  if x.trial && x.tried then { x with prefB := !x.prefB, trial := false, reverted := true }
  else if x.trial then { x with tried := true }
  else x

/-- The slot that boots: the preferred one, else the other. -/
def Security.bootSlot (x : Security) : Option Bool :=
  if (x.slot x.prefB).isSome then some x.prefB else if (x.slot (!x.prefB)).isSome then some (!x.prefB) else none

/-- The image of slot b runs, with the events of a reverted trial and of a slot that is not preferred. -/
def State.runImage (s : State) (b : Bool) : State :=
  let reverted := s.sec.reverted
  let s := s.onSec fun x => { x with runB := b, reverted := false }
  let s := if reverted then s.raise 32 0x1A22 3 (BitVec.ofNat 64 (bitOf b)) else s
  if b != s.sec.prefB then s.raise 32 0x1A27 3 (BitVec.ofNat 64 (bitOf b)) else s

def execBootDone (s : State) : Out :=
  occursWith s (if s.boot.powered && !s.boot.booted && !s.sec.rcvMode then s.sec.trialRule.bootSlot else none) fun b =>
    let s := ((s.onSec Security.trialRule).runImage b).writeAll
    (s.onBoot fun x => { x with booted := true, running := true, bootNs := s.now }).alarm2 false

/-- 6.0 s after supply-on link 0 alone is released for recovery. -/
def execBootFailedRecovery (s : State) : Out :=
  occurs s (s.boot.powered && !s.boot.booted && !s.sec.rcvMode && s.sec.trialRule.bootSlot.isNone)
    (((s.at (s.boot.originNs + 6000000000)).onSec Security.trialRule).onSec fun x => { x with rcvMode := true })

/-- RCV_ERR for the bytes read; 0: the image is valid. -/
def Security.recoveryErr (x : Security) (bs : List Byte) : Nat :=
  match { x with trial := false }.imageStatus bs with | 0x01 => 1 | 0x20 => 3 | 0x08 => 2 | _ => 0

/-- The recovery ends with the bytes read from RCV_ADDR; none: a read or write failed. 120 s after GO it ends so too. A valid image
goes to slot A, which is preferred, and the module reboots. -/
def execRecoveryDone (image : Option (List Byte)) (whole : List Nat) (s : State) : Out :=
  occurs s (s.boot.powered && s.sec.rcvMode && s.sec.rcvBusy) <|
    let err := match image with
      | none => 4
      | some bs =>
        if s.sec.rcvGoNs + 120000000000 < s.now then 4 else if bs.length ≠ s.sec.rcvLen then 1 else s.sec.recoveryErr bs
    if err = 0 then
      (s.onSec fun x => { x with slotA := image.map imageOf, prefB := false, trial := false }).moduleReset whole
    else s.onSec fun x => { x with slotA := none, rcvBusy := false, rcvErr := err }

/-- The controller restarts under the boot rule: by a trap or the watchdog while it runs, or by the activation or trap that
has stopped it. -/
def execLighthouseRestart (s : State) : Out :=
  occurs s (s.boot.powered && s.boot.booted && !s.boot.restarting)
    ((((if s.boot.running then s.controllerStop else s).onSec Security.trialRule).onBoot fun x => { x with restarting := true }))

/-- Every group with an enabled ring is read at once, and the sweeps start from there (04 R495). -/
def State.resumeRings (s : State) : State :=
  (List.range 4).foldl (fun s n => (s.readAll n true).onLink n fun l =>
    { l with sweepDue := l.sweepDue.map fun _ => s.now + l.sweepInt * 100000 }) s

/-- An activation completes once its image runs. -/
def State.activated (s : State) : State :=
  match s.sec.activate with
  | none => s
  | some id =>
    let ver := match s.sec.running with | some i => i.version.toNat | none => 0
    let s := (s.onSec fun x => { x with activate := none }).raise 32 0x1A21 1
      (mkWord [(0, 1, bitOf s.sec.runB), (1, 1, bitOf s.sec.trial), (32, 32, ver)])
    s.finishId id 0

def execLighthouseRestartEnd (s : State) : Out :=
  occursWith s (if s.boot.powered && s.boot.restarting then s.sec.bootSlot else none) fun b =>
    let s := (s.runImage b).onBoot fun x => { x with running := true, restarting := false }
    ((s.activated).resumeRings).alarm2 false

/-! ### Stagger release (R428) -/

/-- The instant of stagger release. -/
def State.releaseAt (s : State) : Nat :=
  let (t, a) := match s.shore.tA with
    | some t => (t, s.shore.aA)
    | none => (s.boot.originNs + 3000000000, 32)
  max s.boot.bootNs (t + (a - 1) % 32 * 50000000)

def execStaggerRelease (s : State) : Out :=
  occurs s (s.boot.powered && s.boot.booted && !s.boot.released) <|
    let s := s.at s.releaseAt
    s.onBoot fun x => { x with released := true, releaseMs := (s.now - x.originNs) / 1000000 }

/-! ### Host links (R416; 02 R32, R33; 03 R35, R38; 21 R459) -/

/-- The control lanes of link n under the split, the first lane and how many (R35); a link that is absent has none. -/
def hostLanes (split n : Nat) : Nat × Nat :=
  match split, n with
  | 0, n => if n < 4 then (4 * n, 4) else (0, 0)
  | 1, 0 => (0, 8)
  | 1, 1 => (8, 4)
  | 1, 2 => (12, 4)
  | 2, n => if n < 2 then (8 * n, 8) else (0, 0)
  | 3, 0 => (0, 16)
  | _, _ => (0, 0)

/-- Link n may train: it exists, its reset is off, and it has been released, or recovery has released link 0. -/
def State.mayTrain (s : State) (n : Nat) : Bool :=
  s.boot.powered && s.linkPresent n && !(s.link n).perst && !(s.link n).trained
    && (s.boot.released || (s.sec.rcvMode && n = 0))

/-- The rate and width that a training reaches: a rate 1 to 3 up to LNK_SPEED_MAX, a width down to x1 on lane faults
(03 R36). -/
def State.trains (s : State) (n speed width : Nat) : Bool :=
  1 ≤ speed && speed ≤ (s.link n).speedMax && width ∈ [1, 2, 4, 8, 16] && width ≤ (hostLanes s.boot.cfgSplit n).2

def execLinkTrained (n : Fin 4) (speed : Fin 4) (width : Fin 17) (s : State) : Out :=
  occurs s (s.mayTrain n && s.trains n speed width)
    (s.onLink n fun l => { l with trained := true, recovery := false, down := false, exceeded := false, speed := speed, width := width })

/-- LNK_RECOVERY goes from 0 to 1. -/
def Link.drop (l : Link) (now : Nat) (down : Bool) : Link :=
  if l.recovery then { l with down := l.down || down }
  else { l with recovery := true, down := down, recoveryFrom := now, exceeded := false, recovCount := satAt 65535 (l.recovCount + 1) }

def execPerstAssert (n : Fin 4) (s : State) : Out :=
  occurs s (s.boot.powered && s.linkPresent n && !(s.link n).perst) <|
    let was := (s.link n).trained
    ((s.functionReset n).onLink n fun l => if was then l.drop s.now true else l).onLink n fun l =>
      { l with perst := true, trained := false, speed := 0, width := 0 }

def execPerstDeassert (n : Fin 4) (s : State) : Out :=
  occurs s (s.boot.powered && s.linkPresent n && (s.link n).perst) (s.onLink n fun l => { l with perst := false })

/-- The link enters PCI Express recovery, or goes down straight away or out of its recovery; a link-down leaves its arbiter
idle with every AGE at 0 (03 R52). -/
def execLinkRecoveryEntry (x : LinkLoss) (s : State) : Out :=
  let l := s.link x.link
  occurs s (s.boot.powered && l.trained && (!l.recovery || (x.down && !l.down)))
    (s.onLink x.link fun l => let l := l.drop s.now x.down; if x.down then { l with arb := l.arb.idle } else l)

/-- The pause that a period of recovery adds to a command, up to the limit over all its pauses. -/
def Flight.pause (f : Flight) (period limit : Nat) : Flight :=
  let p := min period (limit - f.paused)
  { f with paused := f.paused + p, deadline := f.deadline.map (· + p) }

/-- Completions that fell due while the link was down are written in their order. -/
def State.writeDeferred (s : State) (n : Nat) : State :=
  let ds := (s.link n).deferred
  ds.foldl (fun s d => s.writeCompletion d.cq d.record d.solicit) (s.onLink n fun l => { l with deferred := [] })

/-- Commands that the halt of R33 kept from starting complete with 0x0A. -/
def State.dropLimited (s : State) (n : Nat) : State :=
  s.finishAll ((s.flights.filter fun f => f.link = n && f.limited && f.phase = .fetched).map (·.id)) 0x0A

def State.linkUp (s : State) (n : Nat) : State :=
  let l := s.link n
  let s : State := { s with flights := s.flights.map fun f => if f.link = n then f.pause (s.now - l.recoveryFrom) l.limitNs else f }
  ((s.onLink n fun l => { l with recovery := false, down := false, exceeded := false }).writeDeferred n).dropLimited n

/-- A link that was down has trained again, at the rate and width given; one in recovery keeps its own. -/
def execLinkUp (x : LinkReturn) (s : State) : Out :=
  let l := s.link x.link
  occurs s (s.boot.powered && l.trained && l.recovery && (!l.down || s.trains x.link x.speed x.width))
    ((if l.down then s.onLink x.link fun l => { l with speed := x.speed, width := x.width } else s).linkUp x.link)

/-- The period has exceeded the limit: every ring of the link that has not halted before halts, and every command fetched from them completes with
0x0A once the link is up; so do those whose completion has not been written. Posted buffers are no commands. -/
def State.limitHalt (s : State) (n : Nat) : State :=
  let rs := s.ringsWhere fun _ x => x.en && x.owner = n
  let s : State := { s with flights := s.flights.map fun f =>
    if f.link = n && f.desc.opcode ≠ 0x0130 then { f with limited := true } else f }
  let s := s.onLink n fun l => { l with
    exceeded := true, halted := l.halted || !rs.isEmpty
    deferred := l.deferred.map fun d =>
      if d.record.opcode = 0x0130 then d else { d with record := { d.record with status := 0x0A } } }
  rs.foldl (fun s r => if (s.ring r).halted then s else (s.haltRing r 1).onRing r fun x => { x with limitHalt := true }) s

/-- The halt comes at the first instant after the limit. -/
def execLinkDownLimitExpiry (n : Fin 4) (s : State) : Out :=
  let l := s.link n
  occurs s (s.boot.powered && l.recovery && !l.exceeded) ((s.at (l.recoveryFrom + l.limitNs + 1)).limitHalt n)

/-! ### Thermal shutdown (22 R477) -/

/-- A channel that is not Dark goes Dark by the steps of a Dark entry; the commands of an entry to Slack, an exit or a
level change under way end with the others. -/
def State.thermalDark (s : State) (c : Nat) : State :=
  let ch := s.chan c
  if ch.bu.step = 0 then s
  else if ch.pw.transit = .enteringDark then s.onPw c fun x => { x with thermal := true }
  else
    let was := ch.pw.transit
    let cmd := ch.pw.cmd
    let s := s.onPw c fun x => { x with
      transit := .enteringDark, settling := false, rampBack := false, armed := {}, latched := {}, firstLatched := 0
      timerDue := none, cmd := none, exitCmds := [] }
    let s := if was = .enteringSlack then s.finishOpt cmd 0x06 else s
    if (s.chan c).tf.sending then s else s.stopFrames c s.nextId

/-- T_cp has stayed above 55.0 °C for 10 s. -/
def execThermalShutdown (s : State) : Out :=
  occurs s s.boot.powered ((List.range 32).foldl State.thermalDark (s.onBoot fun x => { x with hot := true }))

/-! ### Powered hours (00 R493) -/

def execPoweredHour (s : State) : Out :=
  occurs s s.boot.powered
    { s.at s.hourDue with powerHours := s.powerHours + 1, hourDue := s.hourDue + 3600000000000 }

end Sys2Proof.Machine
end

