-- ==== Sys2Proof/Machine/Deadline.lean ====
section
/-! DEFINITION. A command's deadline expires: it completes with 0x05 and its class's effect (02 R30 to R32; 21 R459). -/

namespace Sys2Proof.Machine

/-- When the deadline of a command ends: while its link is in recovery, with what its pause has left (R32). -/
def State.dueAt (s : State) (f : Flight) : Option Nat :=
  f.deadline.map fun d =>
    if (s.link f.link).recovery then d + ((s.link f.link).limitNs - f.paused) else d

/-- A command that its deadline can end: one that the link-down limit has kept from starting waits for its link (R33), and a channel
reset begins only when it is Dark before its deadline, so that it ends of its own (19 R419; DEDUCED, log 110). -/
def State.canExpire (s : State) (f : Flight) : Bool :=
  s.boot.powered && !(f.limited && f.phase = .fetched) && !(f.desc.opcode = 0x1410 && f.phase = .running)

/-! ### Negotiated switches (R31) -/

/-- A bank switch: a committed one goes on without its command, another ends, with event 0x1102 and reason 3 (06 R497). -/
def State.bankExpires (s : State) (f : Flight) : State :=
  match s.channels.find? fun p => match p.2.sl.proposal with | some q => q.id = some f.id | none => false with
  | some (c, ch) =>
    match ch.sl.proposal with
    | some q =>
      if !q.committed then (s.onSl c fun x => { x with proposal := none }).lapseEvent c 3
      else if q.switched.isSome then s.onSl c fun x => { x with proposal := none }
      else s.onSl c fun x => { x with proposal := some { q with id := none } }
    | none => s
  | none => s

/-- A loading exchange or profile change of channel c: a committed one goes on without its command, another ends, with event
0x1321 and cause 4 (10 R245). -/
def State.lxExpires (s : State) (c : Nat) (f : Flight) : State :=
  match (s.chan c).ld.proposal with
  | some p =>
    if p.id ≠ some f.id then s
    else if p.committed then s.onLd c fun x => { x with proposal := some { p with id := none } }
    else (s.onLd c fun x => { x with proposal := none, pendingRx := none }).lapse c 4 p.seq
  | none => s

/-- A hub's announced set is withdrawn: no COMMIT has been sent for it, so the previous loading stays in force, which the leaves
keep as well while the parity of the pilots does not change (R30, R31; 10 R240). -/
def State.announceExpires (s : State) (c : Nat) (f : Flight) : State :=
  s.onPm c fun x => { x with downstream := x.downstream.filter fun d => d.1 ≠ some f.id }

/-- LEAF_LOAD stands in the loading of its leaf. -/
def State.leafExpires (s : State) (c : Nat) (f : Flight) : State :=
  match (s.chan c).pm.leaves.find? fun p => match p.2.ld.proposal with | some q => q.id = some f.id | none => false with
  | some (j, _) => s.inPair c j fun s => s.lxExpires c f
  | none => s

/-! ### Other effects -/

/-- A partition change or floor raise whose ledger entry is being written: written whole, with its effect, or absent. -/
def State.ledgerExpires (s : State) (f : Flight) (whole : Bool) : State :=
  let w := s.sec.ledgerWrites.find? fun w => w.id = f.id
  let s := s.onSec fun x => { x with ledgerWrites := x.ledgerWrites.filter fun q => q.id ≠ f.id }
  match w with
  | some (.partition _ p) => if whole then s.recordInForce f p else s
  | _ => s

/-- A level change stops where it is, and the level has not changed. -/
def State.levelExpires (s : State) (c id : Nat) : State :=
  if (s.chan c).pw.cmd = some id then
    s.onPw c fun x => { x with transit := .none, settling := false, rampBack := false, cmd := none }
  else s

/-- A sleep entry or exit runs to its end without its command. -/
def State.sleepExpires (s : State) (c id : Nat) : State :=
  s.onPw c fun x => { x with cmd := x.cmd.filter (· ≠ id), exitCmds := x.exitCmds.filter (· ≠ id) }

/-- The state that a lane position goes to when the command q ends with its states unchanged: what the last command that still waits
has requested, else the state that it had before q. -/
def Kapra.backTo (x : Kapra) (before : List LaneState) (p : Nat) : LaneState :=
  match x.cmds.getLast? with
  | some r => r.2.1.getD p .active
  | none => before.getD p .active

/-- A KAPRA_STATE is withdrawn: its lanes return to the states that they had before it, or go on to what a later one has
requested. -/
def State.lanesExpire (s : State) (c id : Nat) : State :=
  match (s.chan c).kp.cmds.find? fun q => q.1 = id with
  | some q =>
    let s := s.onKp c fun x => { x with cmds := x.cmds.filter fun r => r.1 ≠ id }
    let x := (s.chan c).kp
    (List.range 4).foldl (fun s p => s.onLane (4 * c + p) fun l =>
      { l with want := if l.state = x.backTo q.2.2 p then none else some (x.backTo q.2.2 p) }) s
  | none => s

/-- A self-calibration ends with its factors as they were and the stale flags cleared. -/
def State.selfcalExpires (s : State) (n id : Nat) : State :=
  s.onConv n fun k => if k.selfcal.any (fun q => q.1 = id) then
    { k with selfcal := none, filters := k.filters.map fun p => (p.1, { p.2 with restarted := false }) } else k

/-- A test ends without a result. -/
def State.testExpires (s : State) (n id : Nat) : State :=
  s.onConv n fun k => match k.test.filter fun t => t.id = id with | some t => k.testOver t s.now | none => k

/-- A firmware image write leaves the standby image invalid, and the active one unchanged. -/
def State.imageExpires (s : State) (id : Nat) : State :=
  s.onSec fun x => { x.setSlot (!x.runB) none with imageWrites := x.imageWrites.filter fun q => q.1 ≠ id }

/-- The effect on channel c of a channel command that its deadline ends while it runs. -/
def State.chanExpires (s : State) (f : Flight) : State :=
  let c := f.desc.target
  let id := f.id
  match f.desc.opcode with
  | 0x1002 => (s.chan c).locals.foldl (fun s l => s.onTrib (96 * c + l) fun t => { t with draining := t.draining.filter (· ≠ id) }) s
  | 0x1203 => (s.chan c).locals.foldl (fun s l =>
      s.onChan c fun ch => ch.setCipher l { ch.cipher l with rollCmds := (ch.cipher l).rollCmds.filter (· ≠ id) }) s
  | 0x1300 | 0x14A0 => (s.lxExpires c f).announceExpires c f
  | 0x1504 => s.leafExpires c f
  | 0x1403 => s.onRx c fun x => { x with window := x.window.filter fun w => w.1 ≠ id }
  | 0x1404 => s.onChan c fun ch => { ch with bu := { ch.bu with shapes := ch.bu.shapes.filter fun q => q.1 ≠ id } }
  | 0x1610 => s.onChan c fun ch => { ch with bu := { ch.bu with timingCmds := ch.bu.timingCmds.filter fun q => q.1 ≠ id } }
  | 0x14C1 => s.onCal c fun x => { x with waiters := x.waiters.filter fun w => w.id ≠ id }
  | 0x1440 => s.lanesExpire c id
  | 0x1900 => s.levelExpires c id
  | 0x1901 => s.sleepExpires c id
  | 0x0131 => s.onChan c fun ch => { ch with tf := { ch.tf with
      queue := ch.tf.queue.filter fun m => m.cmd ≠ some id
      current := ch.tf.current.map fun m => if m.msg.cmd = some id then { m with msg := { m.msg with cmd := none } } else m } }
  | _ => s

/-- The effect of any other command: `whole` says that a ledger entry had been written whole, `part` how many words of a
fill had been written. -/
def State.moduleExpires (s : State) (f : Flight) (whole : Bool) (part : Nat) : State :=
  let id := f.id
  let n := f.desc.target
  match f.desc.opcode with
  | 0x0210 | 0x1A13 => s.ledgerExpires f whole
  | 0x1110 => s.bankExpires f
  | 0x1705 => s.testExpires n id
  | 0x1707 => s.selfcalExpires n id
  | 0x1800 => s.storeWindow f.desc.addr ((List.replicate (min part (f.desc.len / 8)) f.desc.p2).flatMap Word.bytes)
  | 0x1802 => { s with copyIns := s.copyIns.erase id }
  | 0x1820 => s.onSram n fun m => { m with retiring := m.retiring.filter fun q => q.1 ≠ id }
  | 0x1C02 => s.onShore fun x => { x with invWaits := x.invWaits.filter fun w => w.id ≠ id }
  | 0x1C03 =>
    let strip (l : List ShoreQueued) : List ShoreQueued := l.map fun q => if q.cmd = some id then { q with cmd := none } else q
    s.onShore fun x => { x with upQueue := strip x.upQueue, downQueue := strip x.downQueue }
  | _ => s.chanExpires f

/-- A crypto job leaves its output zeroed, whether or not it had started (07 R169). -/
def State.jobExpires (s : State) (f : Flight) : State :=
  ({ s with jobs := s.jobs.filter fun j => j.id ≠ f.id } : State).writeAt f f.desc.p0 (List.replicate (f.desc.p1.bits 31 0) 0)

/-- The command completes with 0x05; a bring-up stops where it stands. -/
def State.expire (s : State) (f : Flight) (whole : Bool) (part : Nat) : State :=
  if f.desc.opcode = 0x1230 then (s.jobExpires f).finish f 0x05
  else if f.desc.opcode = 0x1400 && f.phase = .running then s.bringupStops f.desc.target
  else if f.desc.opcode = 0x1A10 then (s.imageExpires f.id).finish f 0x05
  else if f.phase = .running then (s.moduleExpires f whole part).finish f 0x05
  else s.finish f 0x05

def execCommandDeadlineExpiry (id : Nat) (whole : Bool) (part : Nat) (s : State) : Out :=
  occursWith s (((s.flight? id).filter s.canExpire).bind fun f => (s.dueAt f).map (f, ·)) fun q =>
    (s.at q.2).expire q.1 whole part

end Sys2Proof.Machine
end

