-- ==== Sys2Proof/Machine/Faults.lean ====
section
/-! DEFINITION. Uncorrectable memory errors and their consequences, the restart of a channel keeper, and what ends the memory commands
that read or write a range, or retire a unit (17 R396 to R401; 21 R460; 22 R479). -/

namespace Sys2Proof.Machine

def HeldTrib.err (x : HeldTrib) : HeldTrib := { x with errored := true }
def RxFrame.err (r : RxFrame) : RxFrame :=
  { r with held := r.held.map fun h => { h with tribs := h.tribs.map HeldTrib.err } }

/-- The records of a burst leaf's frame that is delivered next are marked. -/
def Leaf.err (x : Leaf) : Leaf :=
  let due := (x.delivered.map fun d => nextNumbers d.1 d.2).or (x.records.head?.map fun r => (r.mfc, r.frame))
  { x with rf := x.rf.err
           records := x.records.map fun r => if due = some (r.mfc, r.frame) then { r with errored := true } else r }

/-- Every tributary with a word in the frame that a receiver of the channel, or of one of its dedicated leaves, holds, or in the frame
of a burst leaf that comes next, is marked errored for it (R396, kinds 4 and 5; 09 R212). -/
def State.errFrame (s : State) (c : Nat) : State :=
  s.onChan c fun ch => { ch with
    rf := ch.rf.err, pm := { ch.pm with leaves := ch.pm.leaves.map fun p => (p.1, p.2.err) } }

/-- The oldest part of a channel in a skew buffer is marked errored. -/
def errPart (c : Nat) : List GroupPart → List GroupPart
  | [] => []
  | x :: xs => if x.chan = c then { x with tribs := x.tribs.map HeldTrib.err } :: xs else x :: errPart c xs

/-- An error in the skew buffer of a group member marks its frame that is released next, and in another channel the frame whose
words wait in the receive justification buffers (DESIGN CHOICE, log 140). -/
def State.errSkew (s : State) (c : Nat) : State :=
  match s.groupOf c with
  | some g => s.setGroup g { s.group g with parts := errPart c (s.group g).parts }
  | none => (s.contextsOf c).foldl (fun s i =>
      if (s.trib i).fifo.isEmpty then s else s.onTrib i fun t => { t with framesErrored := t.framesErrored + 1 }) s

/-- Every tributary of the channel, or with slots in it, is Failed with cause 1 until it is provisioned again (01 R12). -/
def State.breakTribs (s : State) (c : Nat) : State :=
  (s.contextsOf c).foldl (fun s i =>
    let s := if (s.trib i).state = .failed then s else s.failTrib i 1
    s.setTrib i { s.trib i with cause := 1, stuck := true }) s

/-- Negotiations that are not committed lapse with the keeper's trap (21 R460), those of a hub's leaves too: a bank proposal waits for its
deadline, an agreement that does not follow a switch already made ends, an exchange ends as its own chapter has it (DEDUCED, log 31). -/
def State.keeperLapse (s : State) (c : Nat) : State :=
  let x := (s.chan c).sl
  let s := match x.proposal with
    | some p => if p.committed then s else s.onSl c fun x => { x with proposal := some { p with live := false } }
    | none => s
  let s := match x.agreement with
    | some a => if a.committed || a.follow then s else (s.onSl c fun x => { x with agreement := none }).lapseEvent c 1
    | none => s
  let lx (s : State) : State :=
    let s := match (s.chan c).ld.proposal with
      | some p => if p.committed then s else (s.lapse c 1 p.seq).lxAgain c p
      | none => s
    s.agreementLapse c
  (s.chan c).pm.leaves.foldl (fun s q => s.inPair c q.1 lx) (lx s)

/-- The channel keeper traps: calibration runs are abandoned, and traffic goes on. -/
def State.keeperTrap (s : State) (c : Nat) : State :=
  let s := s.onChan c fun ch => { ch with keeperDown := true, opt := { ch.opt with held := s.blanked c } }
  ((s.calAbandon c false).calAbandon c true).keeperLapse c

/-- What an uncorrectable error leads to, by kind; `ring` and `cmd` are what a stopped DMA transfer or a scan served (a command's
ring halts with it, 04 R78), and `copyBad` says that the copy of a table word is also uncorrectable. What reloads or rewrites the
word clears its stored check. -/
def State.uncorrectable (s : State) (k addr kind : Nat) (ring cmd : Option Nat) (copyBad : Bool) : State :=
  match kind with
  | 1 =>
    if k < 32 then (s.keeperTrap k).onSram k fun m => m.rewritten k fun r => r = some .keeperCode || r = some .keeperData else s
  | 2 =>
    (if s.boot.running then s.controllerStop else s).onSram k fun m =>
      m.rewritten k fun r => r = some .lighthouseCode || r = some .lighthouseData
  | 3 => s.stopTransfer ring cmd
  | 4 =>
    (if regionOf k addr = some .skewBuffer then s.errSkew k else s.errFrame k).onSram k fun m => m.setFlaw addr .clean
  | 5 =>
    if copyBad then (s.errFrame k).breakTribs k
    else (s.errFrame k).onSram k fun m => m.setFlaw addr .clean
  | _ => s.finishOpt cmd 0x07

/-- The command that the error ends reads the word: a copy out of a range that holds it or another command under kind 3, a scan
of a range that holds it under kind 6. -/
def State.readerOk (s : State) (k addr kind : Nat) (cmd : Option Nat) : Bool :=
  match cmd with
  | none => true
  | some id => s.flights.any fun f => f.id = id && f.phase ≠ .fetched &&
      let reads := f.phase = .running && f.desc.target = k && f.desc.addr < addr + 8 && addr < f.desc.addr + f.desc.len
      if kind = 3 then (if f.desc.opcode = 0x1803 then reads else f.desc.opcode ≠ 0x1801)
      else kind = 6 && f.desc.opcode = 0x1801 && reads

/-- Where errors of a kind are found (R386, R396): kinds 1, 4 and 5 in a channel's SRAM, kind 4 in its datapath's regions and kind 5 in
its tables, and kind 2 in common SRAM. -/
def kindPlace (kind k addr : Nat) : Bool :=
  match kind with
  | 1 => k < 32
  | 2 => k = 32
  | 4 => k < 32 && (regionOf k addr = some .fecInterleave || regionOf k addr = some .skewBuffer)
  | 5 => k < 32 && regionOf k addr = some .tables
  | _ => true

/-- The address lies in SRAM k, where errors of the kind are found. -/
def execUncorrectableError (k : Fin 33) (addr : BitVec 32) (kind : Fin 7) (ring : Option (Fin 65536)) (cmd : Option Nat)
    (copyBad : Bool) (s : State) : Out :=
  let n := kind.val
  occurs s (s.boot.powered && n ≠ 0 && inside addr.toNat 8 (sramBase k) (sramSize k) && addr.toNat % 8 = 0
      && kindPlace n k addr.toNat
      && s.readerOk k addr.toNat n cmd && (n = 3 || ring.isNone))
    ((s.countUncorr k addr.toNat n).uncorrectable k addr.toNat n (ring.map (·.val)) cmd copyBad)

/-- The keeper restarts with the keeper code of the running image (20 R445). -/
def execKeeperRestartDone (c : Fin 32) (s : State) : Out :=
  occurs s (s.boot.powered && (s.chan c).keeperDown)
    ((((s.onChan c fun ch => { ch with
      keeperDown := false, keeperVer := s.sec.runningVer, opt := { ch.opt with held := false } }).openOutput c).calResume c false
      ).calResume c true)

/-! ### What fills, copies and scans come to, and the switch to spare storage (R398, R400, R401) -/

/-- A byte of a monitor buffer, whose n-th record since power-on stands in place n modulo 16,384 (15 R369; log 141); none where no
record stands. -/
def Converter.bufferByte (k : Converter) (o : Nat) : Option Byte :=
  let back := (k.records.toNat + 16383 - o / 32) % 16384
  (k.buffer[back]?).bind fun ws => (wordsBytes ws)[o % 32]?

/-- The version of the image whose code stands in a code region of SRAM k. -/
def State.codeVersion (s : State) (k : Nat) : Option (BitVec 32) := if k < 32 then (s.chan k).keeperVer else s.sec.runningVer

/-- The byte at an address of SRAM k, where State or the running image gives it. -/
def State.sramByte (s : State) (k a : Nat) : Option Byte :=
  let o := a - sramBase k
  match regionOf k a with
  | some .hostWindow => Memory.read s.mem a
  | some .monitorBuffer => (s.conv k).bufferByte (o - 0x780000)
  | some .captureArea => (s.chan k).cap.taken.bind fun d => d.data[o - 0x600000]?
  | some .commonMonitorBuffer => (s.conv 32).bufferByte (o - 0x1400000)
  | some .keeperCode => (s.codeVersion k).map fun v => Config.codeByte v true (o - 0x900000)
  | some .lighthouseCode => (s.codeVersion k).map fun v => Config.codeByte v false o
  | _ => none

/-- The bytes that a scan of SRAM k reads. What State does not give, the datapath or firmware holds as it pleases: `contents` brings
it, by position in the range (log 141); a byte of the host window that nothing has written is a free value. -/
def State.scanBytes (s : State) (k a len : Nat) (contents : List Byte) : List Byte :=
  (List.range len).map fun i => (s.sramByte k (a + i)).getD <|
    if regionOf k (a + i) = some .hostWindow then Config.freeByte s.free i else contents.getD i (Config.freeByte s.free i)

/-- A memory operation has gone through its range; `corr` lists the words and bits that its reads find in error. -/
def State.memDone (s : State) (f : Flight) (contents : List Byte) (corr : List (Nat × Nat)) : State :=
  let a := f.desc.addr
  let len := f.desc.len
  let k := f.desc.target
  match f.desc.opcode with
  | 0x1800 => (s.storeWindow a ((List.replicate (len / 8) f.desc.p2).flatMap Word.bytes)).finish f 0
  | 0x1802 =>
    let bs := s.copyIns.get [] f.id
    ({ s with copyIns := s.copyIns.erase f.id }.storeWindow a bs).finish f 0
  | 0x1803 =>
    s.dmaRead f 32 a len corr fun s => (s.writeBuf f 0 (s.readMem a len)).finish f 0
  | _ =>
    match s.readRange k a len corr with
    | (s, none) => s.finish f 0 none (some (scanCrc (f.desc.p2.bits 1 0) (s.scanBytes k a len contents))) none
    | (s, some w) => (s.countUncorr k w 6).finish f 0x07

def execMemOperationDone (id : Nat) (contents : List Byte) (corr : List (Nat × Fin 72)) (s : State) : Out :=
  occursWith s (s.flights.find? fun f => f.id = id && f.phase = .running
      && (f.desc.opcode = 0x1800 || f.desc.opcode = 0x1801 || f.desc.opcode = 0x1802 || f.desc.opcode = 0x1803))
    fun f => s.memDone f contents (corr.map fun e => (e.1, e.2.val))

/-- The copy reads every word of the unit: correctable ones reach the spare corrected, uncorrectable ones are counted and keep an
uncorrectable check there. -/
def State.copyUnit (s : State) (k : Nat) (u : Unit_) : State :=
  ((s.sram k).bad.filter fun p => u.holds p.1).foldl (fun s p => match p.2 with
    | .single b => (s.demandError k p.1 b).onSram k fun m => m.setFlaw p.1 .clean
    | .double => s.countUncorr k p.1 6
    | .clean => s) s

/-- The copy of the oldest retirement of an SRAM is complete and the unit switches to its spare. -/
def State.retireSwitch (s : State) (k id : Nat) (u : Unit_) : State :=
  let s := (s.copyUnit k u).onSram k fun m =>
    { m with retiring := m.retiring.filter (fun q => q.1 ≠ id), retired := m.retired ++ [u]
             reef := m.reef.map fun e => if u.holds e.addr then { e with retired := true } else e }
  let l := s.retireList ++ [(u.addr, u.bank, s.powerHours)]
  (({ s with retireList := l.drop (l.length - 4096) }).raise k 0x1843 1
    (mkWord [(0, 32, u.addr), (32, 1, bitOf u.bank)])).finishId id 0

def execRetirementSwitch (k : Fin 33) (s : State) : Out :=
  occursWith s (if s.boot.powered then (s.sram k).retiring.head? else none) fun q => s.retireSwitch k q.1 q.2

end Sys2Proof.Machine
end

