-- ==== Sys2Proof/Machine/FramePeriod.lean ====
section
/-! DEFINITION. The transmit frame period and the transmit multiframe boundary: what the channels in step do together
(06 R106, R130, R134; 07 R155, R156; 08 R173, R177; 13 R307, R324, R326; 14 R346). -/

namespace Sys2Proof.Machine

/-! ### The frame period -/

/-- Disables whose context sends nothing in this frame have nothing to drain (R106). -/
def State.endDrains (s : State) (cs : List Nat) (sent : List Nat) : State :=
  ((cs.flatMap fun c => (s.chan c).locals.map (96 * c + ·)).filter fun i => !sent.contains i).foldl (fun s i =>
    let ids := (s.trib i).draining
    if ids.isEmpty then s
    else (s.onTrib i Trib.drained).finishAll ids 0) s

/-- A hub's receive multiframe begins with frame 128 of its transmit multiframe (13 R306): a dispersion window that waits takes
effect, and the multiframe after that carries the new latencies (11 R273). -/
def State.hubReceiveStart (s : State) (c : Nat) : State :=
  let ch := s.chan c
  if ch.pm.mode ≠ .hub || ch.tf.frame ≠ 128 then s
  else
    let s := if ch.rx.windowHit.any (· ≠ ch.tf.mfc) then (s.onRx c fun x => { x with windowHit := none }).restate c false true else s
    if ch.rx.state = .tracking then s.windowBoundary c ch.tf.mfc else s

/-- One frame period of the channels in step: group frames that have reached their release point, egress host frames, then
what each tributary sends, the line frames, and the counters. -/
def State.framePeriod (s : State) (cs : List Nat) (lv : Levels) (fills : List Nat) : State :=
  let s := match s.groupOf (cs.headD 32) with | some g => s.releaseReady g | none => s
  let s := cs.foldl (fun s c => ((s.firstMap c).hubReceiveEnd c).hubReceiveStart c) s
  let s := cs.foldl State.missHost s
  let r := (s.carriedBy cs).foldl (fun (acc : State × List EgTrib) i =>
    let q := acc.1.egress lv i; (q.1, acc.2 ++ [q.2])) (s, [])
  let s := cs.foldl (fun s c => s.sendHost r.2 fills c) r.1
  let xs := (s.txContexts cs).map s.txTrib
  let s := cs.foldl (fun s c => s.sendFrame xs c) s
  let s := (xs.foldl State.txCounted s).endDrains cs (xs.map (·.i))
  cs.foldl State.usedHost s

/-- A transmit frame period: `lv` measures the receive buffers, `fills` the fill blocks sent on each lane position. It cannot
occur once 256 frames have been sent and the multiframe has not been followed by the next. Before frame 0 of a bring-up, when
host frames have no numbers, an Active lane sends nothing (05 R87, R95; DESIGN CHOICE, log 135). -/
def execTxFramePeriod (c : Fin 32) (lv : List (Nat × Nat × Nat)) (fills : List Nat) (s : State) : Out :=
  occurs s (s.boot.powered && s.leads c && (s.inStep c).all fun m => (s.chan m).tf.frame ≤ 255)
    (s.framePeriod (s.inStep c) lv fills)

/-! ### The multiframe boundary (08 R173) -/

/-- Key rolls that wait take place at multiframe m (07 R155). -/
def State.rollWaiting (s : State) (c : Nat) : State :=
  (s.chan c).locals.foldl (fun s l =>
    if ((s.chan c).cipher l).rollCmds.isEmpty then s else s.rollKey (96 * c + l) (s.countOf (96 * c + l))) s

/-- Every key slot's key is k multiframes older (08 R177). -/
def Cipher.age (k : Nat) (x : Cipher) : Cipher :=
  let g (q : LineKey) : LineKey := { q with ageMf := q.ageMf + k }
  { x with current := x.current.map g, next := x.next.map g, retiring := x.retiring.map g }

/-- CHAN_TIMING settings that wait take effect (14 R346); one that would take a channel which has become a group member out
of system timing completes with 0x01 (06 R134). -/
def State.timingBoundary (s : State) (c : Nat) : State :=
  let all := (s.chan c).bu.timingCmds
  let member := (s.groupOf c).isSome
  let q := all.filter fun p => !member || p.2 = 0
  let s := s.onChan c fun ch => { ch with bu := { ch.bu with timing := ((q.map Prod.snd).getLast?).getD ch.bu.timing, timingCmds := [] } }
  (s.finishAll (q.map Prod.fst) 0).finishAll ((all.filter fun p => member && p.2 ≠ 0).map Prod.fst) 0x01

/-- The count of a leaf's transmit multiframe that begins now: that of the downstream multiframe which began EQD before, at most
half a multiframe (13 R306). -/
def Channel.leafCount (ch : Channel) : Option (BitVec 32) :=
  if ch.rf.state = .inFrame && ch.rf.counts then some (if 192 ≤ ch.rf.frame then ch.rf.mfc + 1 else ch.rf.mfc) else none

/-- A leaf's transmit count becomes m: when m is not greater than the last count, key slots are erased (13 R307); else the keys
age by what it skips (08 R177). -/
def Channel.adoptCount (ch : Channel) (m : BitVec 32) : Channel :=
  if m = ch.tf.mfc then ch
  else
    let x := if m.toNat ≤ (ch.tf.mfc - 1).toNat then ch.eraseKeys
      else { ch with cx := ch.cx.map fun p => (p.1, p.2.age (m - ch.tf.mfc).toNat) }
    { x with tf := { x.tf with mfc := m } }

/-- The entry of the map that governs a multiframe gives the leaf's window, kind and timing from that multiframe on (13 R314). -/
def P2mp.enter (x : P2mp) (m : BitVec 32) : P2mp :=
  match (x.maps.find? fun q => q.gov = m).bind (·.entry) with
  | some e => { x with burst := e.burst, slotBase := e.slotBase, slotCount := e.slotCount, dedMask := e.dedMask, eqd := e.eqd }
  | none => x

/-- A leaf's transmit multiframe begins with the downstream count: from the map's GOV_MF on it uses an assignment's timing and
entry and sends upstream. A leaf that reads maps, or sends upstream, misses the map of a multiframe for which it holds none
(13 R306, R307, R314, R324, R326; which multiframes count while nothing is sent is a DESIGN CHOICE, log 131). -/
def State.leafBoundary (s : State) (c : Nat) : State :=
  if (s.chan c).pm.mode ≠ .leaf then s
  else
    let s := s.onChan c fun ch => match ch.leafCount with | some m => ch.adoptCount m | none => ch
    let m := (s.chan c).tf.mfc
    let s := s.onPm c fun x => match x.adopt with
      | some (g, eqd) => if mfBefore m g then x else { x with adopt := none, silent := false, eqd := eqd, eqdNow := eqd }
      | none => x
    let s := s.onPm c fun x => x.enter m
    let x := (s.chan c).pm
    let reads := x.upstream || (x.joining && (s.chan c).leafCount.isSome)
    let s := if reads && !(x.maps.any fun q => q.gov = m) then
        (s.onPm c fun x => { x with gmLost := x.gmLost + 1 }).raise c 0x1527 2 (mkWord [(0, 32, m.toNat)])
      else s
    s.onPm c fun x => { x with maps := x.maps.filter fun q => !mfBefore q.gov m }

/-- The counts of channel c advance. -/
def State.countUp (s : State) (c : Nat) : State :=
  s.onChan c fun ch => { ch with
    tf := { ch.tf with mfc := ch.tf.mfc + 1, frame := 0, latencyMf := ch.tf.latencyMf + 1 }
    cx := ch.cx.map fun p => (p.1, p.2.age 1) }

/-- A multiframe in which the receiver measures nothing counts among the last 64 all the same (10 R236). -/
def Channel.unmeasured (ch : Channel) : Channel :=
  if ch.rx.state = .tracking && (ch.pm.mode = .hub || (ch.rf.state = .inFrame && ch.rf.counts)) then ch
  else { ch with ld := { ch.ld with history := (List.replicate 32 none :: ch.ld.history).take 64 } }

/-- What the boundary does in one channel once all counts have advanced. -/
def State.channelBoundary (s : State) (merits : List (BitVec 8)) (c : Nat) : State :=
  let s := s.leafBoundary c
  let s := (s.bankTurn c).downstreamBoundary c
  let s := (s.lxBoundary c).hubBoundary c
  let s := (s.chan c).pm.leaves.foldl (fun s p => s.inPair c p.1 fun s => s.lxBoundary c) s
  let s := ((s.rollWaiting c).timingBoundary c).shapeBoundary c
  let s := (s.meritBoundary c merits).onChan c Channel.unmeasured
  let s := s.onCal c fun x => x.txBoundary ((s.chan c).tf.mfc - 1)
  match (s.chan c).pw.transit with
  | .enteringSlack | .enteringDark => s.stopFrames c ((s.chan c).pw.cmd.getD s.nextId)
  | _ => s

/-- The multiframe's count and instant, which time the reports of the channel's filters (15 R366). -/
def State.markStart (s : State) (c : Nat) : State :=
  s.onChan c fun ch => { ch with tf := { ch.tf with starts := ((ch.tf.mfc, s.now) :: ch.tf.starts).take 16 } }

/-- A multiframe of the channels in step begins; the group count of members goes on with it, also while the anchor does
not send (DEDUCED, log 118). The merits are four for each channel, the lowest first. -/
def State.multiframe (s : State) (cs : List Nat) (merits : List (BitVec 8)) : State :=
  let s := cs.foldl State.payOwed s
  let s := cs.foldl State.countUp s
  let s := cs.foldl (fun s c => s.restate c true false) s
  let s := match s.groupOf (cs.headD 32) with
    | some g => s.onGroup g fun x => { x with mfc := x.mfc + 1 }
    | none => s
  let s := cs.foldl State.bankSettle s
  let s := cs.zipIdx.foldl (fun s p => s.channelBoundary (merits.drop (4 * p.2)) p.1) s
  cs.foldl State.markStart s

/-- A transmit multiframe begins in the channels in step, with the merits that their receivers measured over the one that ends, by
channel and lane position. -/
def execTxMultiframeBoundary (c : Fin 32) (x : BoundaryIn) (s : State) : Out :=
  occurs s (s.boot.powered && s.leads c && (s.inStep c).all fun m => (s.chan m).tf.frame = 256)
    ((s.at x.ns).multiframe (s.inStep c) x.merits)

/-- At a boundary a context with AUTO_ROLL past its warning point rolls when the far end holds its next key (07 R156). -/
def execAutoRoll (i : Fin 3072) (s : State) : Out :=
  let x := s.cipherOf i
  let ch := s.chan (i / 96)
  occurs s (s.boot.powered && ch.tf.sending && ch.tf.frame = 0 && x.autoRoll && x.warnAt ≤ x.curFrames && x.rollable s.now)
    (s.rollKey i (s.countOf i))

/-- A key slot is erased 2^32 − 256 multiframes after its load, with event 0x1251 (08 R177). -/
def LineKey.worn (k : LineKey) : Bool := 4294967040 ≤ k.ageMf

def State.wearOut (s : State) (i : Nat) : State :=
  let x := s.cipherOf i
  let live (o : Option LineKey) : Option LineKey := o.filter fun k => !k.worn
  let s := s.setCipherOf i { x with current := live x.current, next := live x.next
                                    retiring := x.retiring.filter fun k => !k.worn }
  ((x.current.toList ++ x.next.toList ++ x.retiring).filter LineKey.worn).foldl (fun s k =>
    s.raise (i / 96) 0x1251 4 (mkWord [(0, 12, i), (12, 24, k.epoch)])) s

def execKeyCountWrapErase (i : Fin 3072) (s : State) : Out :=
  let x := s.cipherOf i
  occurs s (s.boot.powered && (x.current.toList ++ x.next.toList ++ x.retiring).any LineKey.worn) (s.wearOut i)

end Sys2Proof.Machine
end

