-- ==== Sys2Proof/Machine/Pins.lean ====
section
/-! DEFINITION. The host connector, its open-drain outputs, and the fibre ports: which contact or fibre carries what (22
R463 to R465, R470). -/

namespace Sys2Proof.Machine

/-! ### Host connector (R463) -/

/-- A contact Hrr-cc: its row and column. -/
structure Contact where
  row : Nat
  col : Nat
  deriving DecidableEq, Repr

/-- The positive and negative contacts of pair p of a row; the column before them is ground. -/
def pairOf (row p : Nat) : Contact × Contact := ({ row := row, col := 3 * p + 2 }, { row := row, col := 3 * p + 3 })

/-- Kapra lane L, 0 to 127: lane 4 c + p of channel c, into the module and out of it. -/
def laneIngress (l : Nat) : Contact × Contact := pairOf (1 + l / 16) (l % 16)
def laneEgress (l : Nat) : Contact × Contact := pairOf (9 + l / 16) (l % 16)

/-- The control lanes of link n under the sampled split, as numbers of the host connector (03 R35). -/
def State.controlLanes (s : State) (n : Nat) : List Nat :=
  let (first, k) := hostLanes s.boot.cfgSplit n
  (List.range k).map (first + ·)

/-- PCI Express control lane p, received and transmitted, the reference clock of host link p, and host timing reference r. -/
def pcieReceive (p : Nat) : Contact × Contact := pairOf 17 p
def pcieTransmit (p : Nat) : Contact × Contact := pairOf 18 p
def refClock (p : Nat) : Contact × Contact := pairOf 19 p
def timingRef (r : Nat) : Contact × Contact := pairOf 19 (4 + r)

/-- What a contact carries: of a pair `pos` tells its positive contact. Lanes, links and references are numbered as in R463. -/
inductive HostSignal
  | kapraIn (lane : Nat) (pos : Bool) | kapraOut (lane : Nat) (pos : Bool)
  | pcieRx (p : Nat) (pos : Bool) | pcieTx (p : Nat) (pos : Bool)
  | refClk (link : Nat) (pos : Bool) | tref (r : Nat) (pos : Bool)
  | extVref | extVrefRtn
  | perstN (link : Nat) | prsntN (link : Nat) | alertN | modResetN | laserOffN | cfgSplit (bit : Nat)
  | ground | reserved
  deriving DecidableEq, Repr

/-- A contact of row 20. -/
def sideband (col : Nat) : HostSignal :=
  if 2 ≤ col && col ≤ 5 then .perstN (col - 2)
  else if 8 ≤ col && col ≤ 11 then .prsntN (col - 8)
  else match col with
    | 14 => .alertN | 17 => .modResetN | 20 => .laserOffN | 23 => .cfgSplit 0 | 24 => .cfgSplit 1 | _ => .ground

/-- The signal of a pair, by its row and number. -/
def pairSignal (row p : Nat) (pos : Bool) : HostSignal :=
  if row ≤ 8 then .kapraIn (16 * (row - 1) + p) pos
  else if row ≤ 16 then .kapraOut (16 * (row - 9) + p) pos
  else if row = 17 then .pcieRx p pos
  else if row = 18 then .pcieTx p pos
  else if p ≤ 3 then .refClk p pos
  else if p ≤ 5 then .tref (p - 4) pos
  else if p = 6 then (if pos then .extVref else .extVrefRtn)
  else .ground

/-- The signal at a contact of the 24 rows of 48: every contact that the table does not name is ground in rows 1 to 20 and reserved
in rows 21 to 24 (R463). -/
def Contact.signal (x : Contact) : HostSignal :=
  if 21 ≤ x.row then .reserved
  else if x.row = 20 then sideband x.col
  else if x.col % 3 = 1 then .ground
  else pairSignal x.row ((x.col - 2) / 3) (x.col % 3 = 2)

/-- Every contact of the connector. -/
def contacts : List Contact := (List.range 24).flatMap fun r => (List.range 48).map fun c => { row := r + 1, col := c + 1 }

/-! ### Outputs (R464, R465) -/

/-- PRSNT_N[n] is pulled low: the always-on domain runs, and link n exists under the sampled split. -/
def State.prsntLow (s : State) (n : Nat) : Bool := s.boot.powered && s.linkPresent n

/-- ALERT_N is pulled low. -/
def State.alertLow (s : State) : Bool := s.boot.powered && s.alert

/-! ### Fibre ports (R470) -/

/-- A position of an MPO-16 port: the port k of Fk, and the fibre position from 1. -/
structure Fibre where
  port : Nat
  pos : Nat
  deriving DecidableEq, Repr

/-- The fibres that carry the light of channel c out and in. -/
def txFibre (c : Nat) : Fibre := { port := c / 8, pos := c % 8 + 1 }
def rxFibre (c : Nat) : Fibre := { port := c / 8, pos := 16 - c % 8 }

/-- The position at the far end of a trunk with position-reversing polarity. -/
def Fibre.across (f : Fibre) : Fibre := { f with pos := 17 - f.pos }

end Sys2Proof.Machine
end

