-- ==== Sys2Proof/Machine/Dispatch.lean ====
section
/-! DEFINITION. The dispatch of a command to its meaning, one arm for each row of the command table. -/

namespace Sys2Proof.Machine

def exec (i : Instr) (s : State) : Host.Outcome State Fault Refusal :=
  match i with
  | .nop id => Sys2Proof.Machine.execNop id s
  | .ringQuery id => Sys2Proof.Machine.execRingQuery id s
  | .eventFilter id => Sys2Proof.Machine.execEventFilter id s
  | .alarmSummary id => Sys2Proof.Machine.execAlarmSummary id s
  | .bufPost id => Sys2Proof.Machine.execBufPost id s
  | .ohmSend id bs => Sys2Proof.Machine.execOhmSend id bs s
  | .partQuery id => Sys2Proof.Machine.execPartQuery id s
  | .partHistory id => Sys2Proof.Machine.execPartHistory id s
  | .partChange id ws => Sys2Proof.Machine.execPartChange id ws s
  | .tribProvision id ws => Sys2Proof.Machine.execTribProvision id ws s
  | .tribModify id ws => Sys2Proof.Machine.execTribModify id ws s
  | .tribEnable id => Sys2Proof.Machine.execTribEnable id s
  | .tribDisable id => Sys2Proof.Machine.execTribDisable id s
  | .tribDelete id => Sys2Proof.Machine.execTribDelete id s
  | .tribQuery id => Sys2Proof.Machine.execTribQuery id s
  | .tribCounters id => Sys2Proof.Machine.execTribCounters id s
  | .tribShedList id => Sys2Proof.Machine.execTribShedList id s
  | .tribLatencyQuery id => Sys2Proof.Machine.execTribLatencyQuery id s
  | .tribPromiseRelease id ws => Sys2Proof.Machine.execTribPromiseRelease id ws s
  | .tribPromiseReinstate id ws => Sys2Proof.Machine.execTribPromiseReinstate id ws s
  | .slotWrite id ws => Sys2Proof.Machine.execSlotWrite id ws s
  | .slotRead id => Sys2Proof.Machine.execSlotRead id s
  | .slotCopy id => Sys2Proof.Machine.execSlotCopy id s
  | .bankSwitch id => Sys2Proof.Machine.execBankSwitch id s
  | .bankArm id => Sys2Proof.Machine.execBankArm id s
  | .bankDisarm id => Sys2Proof.Machine.execBankDisarm id s
  | .bankStatus id => Sys2Proof.Machine.execBankStatus id s
  | .groupCreate id => Sys2Proof.Machine.execGroupCreate id s
  | .groupDelete id => Sys2Proof.Machine.execGroupDelete id s
  | .groupQuery id => Sys2Proof.Machine.execGroupQuery id s
  | .groupRealign id => Sys2Proof.Machine.execGroupRealign id s
  | .cipherSetup id ws => Sys2Proof.Machine.execCipherSetup id ws s
  | .cipherQuery id => Sys2Proof.Machine.execCipherQuery id s
  | .keyLoad id bs => Sys2Proof.Machine.execKeyLoad id bs s
  | .keyRoll id => Sys2Proof.Machine.execKeyRoll id s
  | .keyErase id => Sys2Proof.Machine.execKeyErase id s
  | .cipherCounters id => Sys2Proof.Machine.execCipherCounters id s
  | .jobKeyLoad id bs => Sys2Proof.Machine.execJobKeyLoad id bs s
  | .jobKeyErase id => Sys2Proof.Machine.execJobKeyErase id s
  | .jobCipher id bs => Sys2Proof.Machine.execJobCipher id bs s
  | .loadChange id ws => Sys2Proof.Machine.execLoadChange id ws s
  | .loadQuery id => Sys2Proof.Machine.execLoadQuery id s
  | .loadQuality id => Sys2Proof.Machine.execLoadQuality id s
  | .loadPlan id => Sys2Proof.Machine.execLoadPlan id s
  | .loadConfig id => Sys2Proof.Machine.execLoadConfig id s
  | .chanBringup id ws plate => Sys2Proof.Machine.execChanBringup id ws plate s
  | .chanStatus id => Sys2Proof.Machine.execChanStatus id s
  | .dspStatus id => Sys2Proof.Machine.execDspStatus id s
  | .cdWindow id => Sys2Proof.Machine.execCdWindow id s
  | .txShape id => Sys2Proof.Machine.execTxShape id s
  | .acqConfig id => Sys2Proof.Machine.execAcqConfig id s
  | .chanReset id => Sys2Proof.Machine.execChanReset id s
  | .kapraState id => Sys2Proof.Machine.execKapraState id s
  | .kapraTxEq id => Sys2Proof.Machine.execKapraTxEq id s
  | .kapraStatus id => Sys2Proof.Machine.execKapraStatus id s
  | .kapraCounters id => Sys2Proof.Machine.execKapraCounters id s
  | .frameStatus id => Sys2Proof.Machine.execFrameStatus id s
  | .frameCounters id => Sys2Proof.Machine.execFrameCounters id s
  | .ohSnapshot id => Sys2Proof.Machine.execOhSnapshot id s
  | .fecProfile id ws => Sys2Proof.Machine.execFecProfile id ws s
  | .fecStatus id => Sys2Proof.Machine.execFecStatus id s
  | .fecCounters id => Sys2Proof.Machine.execFecCounters id s
  | .fecAlarmSet id => Sys2Proof.Machine.execFecAlarmSet id s
  | .calConfig id => Sys2Proof.Machine.execCalConfig id s
  | .calRun id => Sys2Proof.Machine.execCalRun id s
  | .calStatus id => Sys2Proof.Machine.execCalStatus id s
  | .calValues id => Sys2Proof.Machine.execCalValues id s
  | .opticsStatus id locker txOut rxIn current => Sys2Proof.Machine.execOpticsStatus id locker txOut rxIn current s
  | .captureArm id x => Sys2Proof.Machine.execCaptureArm id x s
  | .captureDisarm id => Sys2Proof.Machine.execCaptureDisarm id s
  | .laserBlank id => Sys2Proof.Machine.execLaserBlank id s
  | .laserRestore id tapHigh locker => Sys2Proof.Machine.execLaserRestore id tapHigh locker s
  | .p2mpMode id => Sys2Proof.Machine.execP2mpMode id s
  | .leafSet id ws => Sys2Proof.Machine.execLeafSet id ws s
  | .leafQuery id => Sys2Proof.Machine.execLeafQuery id s
  | .p2mpConfig id => Sys2Proof.Machine.execP2mpConfig id s
  | .leafLoad id ws => Sys2Proof.Machine.execLeafLoad id ws s
  | .burstCounters id => Sys2Proof.Machine.execBurstCounters id s
  | .leafStatus id => Sys2Proof.Machine.execLeafStatus id s
  | .leafJoin id => Sys2Proof.Machine.execLeafJoin id s
  | .timingCandSet x => Sys2Proof.Machine.execTimingCandSet x s
  | .timingConfig id => Sys2Proof.Machine.execTimingConfig id s
  | .timingStatus x => Sys2Proof.Machine.execTimingStatus x s
  | .timingHistory id => Sys2Proof.Machine.execTimingHistory id s
  | .chanTiming id => Sys2Proof.Machine.execChanTiming id s
  | .monScanSet id ws => Sys2Proof.Machine.execMonScanSet id ws s
  | .monFilterSet id ws => Sys2Proof.Machine.execMonFilterSet id ws s
  | .monFilterRun id => Sys2Proof.Machine.execMonFilterRun id s
  | .monStream id => Sys2Proof.Machine.execMonStream id s
  | .monRead id => Sys2Proof.Machine.execMonRead id s
  | .monTest id => Sys2Proof.Machine.execMonTest id s
  | .monRef id extOk => Sys2Proof.Machine.execMonRef id extOk s
  | .monSelfcal id => Sys2Proof.Machine.execMonSelfcal id s
  | .monQuery x => Sys2Proof.Machine.execMonQuery x s
  | .monHistory id => Sys2Proof.Machine.execMonHistory id s
  | .fastCfg id => Sys2Proof.Machine.execFastCfg id s
  | .memFill id => Sys2Proof.Machine.execMemFill id s
  | .memScan id => Sys2Proof.Machine.execMemScan id s
  | .memCopyIn id bs => Sys2Proof.Machine.execMemCopyIn id bs s
  | .memCopyOut id => Sys2Proof.Machine.execMemCopyOut id s
  | .memScrubConfig id => Sys2Proof.Machine.execMemScrubConfig id s
  | .memStatus id => Sys2Proof.Machine.execMemStatus id s
  | .memReefRead id => Sys2Proof.Machine.execMemReefRead id s
  | .memRetire id => Sys2Proof.Machine.execMemRetire id s
  | .memRetireList id => Sys2Proof.Machine.execMemRetireList id s
  | .pwrLevel id => Sys2Proof.Machine.execPwrLevel id s
  | .pwrSleepSlack id => Sys2Proof.Machine.execPwrSleepSlack id s
  | .pwrSleepDark id => Sys2Proof.Machine.execPwrSleepDark id s
  | .pwrSleepExit id => Sys2Proof.Machine.execPwrSleepExit id s
  | .pwrStatus id vcore power => Sys2Proof.Machine.execPwrStatus id vcore power s
  | .pwrModule id input common => Sys2Proof.Machine.execPwrModule id input common s
  | .idCertRead id => Sys2Proof.Machine.execIdCertRead id s
  | .attestReport id nonce => Sys2Proof.Machine.execAttestReport id nonce s
  | .ledgerRead id => Sys2Proof.Machine.execLedgerRead id s
  | .fwStatus id => Sys2Proof.Machine.execFwStatus id s
  | .rngStatus id => Sys2Proof.Machine.execRngStatus id s
  | .fwImageWrite id bs => Sys2Proof.Machine.execFwImageWrite id bs s
  | .fwActivate id => Sys2Proof.Machine.execFwActivate id s
  | .fwConfirm id => Sys2Proof.Machine.execFwConfirm id s
  | .fwFloorRaise id => Sys2Proof.Machine.execFwFloorRaise id s
  | .kekEstablish id bs => Sys2Proof.Machine.execKekEstablish id bs s
  | .ageConfig id => Sys2Proof.Machine.execAgeConfig id s
  | .ageStatus id => Sys2Proof.Machine.execAgeStatus id s
  | .ageLedgerRead id => Sys2Proof.Machine.execAgeLedgerRead id s
  | .ageProposal id => Sys2Proof.Machine.execAgeProposal id s
  | .ageShortfall id => Sys2Proof.Machine.execAgeShortfall id s
  | .shoreStatus id => Sys2Proof.Machine.execShoreStatus id s
  | .shoreInventory id => Sys2Proof.Machine.execShoreInventory id s
  | .shoreInvQuery id => Sys2Proof.Machine.execShoreInvQuery id s
  | .shoreSend id bs => Sys2Proof.Machine.execShoreSend id bs s
  | .shoreLaserOff id => Sys2Proof.Machine.execShoreLaserOff id s
  | .undefinedOpcode id => Sys2Proof.Machine.execUndefinedOpcode id s
  | .ringEnable n r v => Sys2Proof.Machine.execRingEnable n r v s
  | .ringDisable n r v => Sys2Proof.Machine.execRingDisable n r v s
  | .nudgeGroup n v => Sys2Proof.Machine.execNudgeGroup n v s
  | .arbPrioWrite n idx v => Sys2Proof.Machine.execArbPrioWrite n idx v s
  | .arbStatRead n idx => Sys2Proof.Machine.execArbStatRead n idx s
  | .rcvGo v => Sys2Proof.Machine.execRcvGo v s
  | .registerWrite n bar off width v => Sys2Proof.Machine.execRegisterWrite n bar off width v s
  | .unsupportedRequest n addr => Sys2Proof.Machine.execUnsupportedRequest n addr s
  | .doorbellReadDone n g ws => Sys2Proof.Machine.execDoorbellReadDone n g ws s
  | .doorbellSweep n => Sys2Proof.Machine.execDoorbellSweep n s
  | .descriptorFetch r d => Sys2Proof.Machine.execDescriptorFetch r d s
  | .commandStart id => Sys2Proof.Machine.execCommandStart id s
  | .commandDeadlineExpiry id whole part => Sys2Proof.Machine.execCommandDeadlineExpiry id whole part s
  | .dmaError r => Sys2Proof.Machine.execDmaError r s
  | .moderationTimer r => Sys2Proof.Machine.execModerationTimer r s
  | .eventBatchWrite source => Sys2Proof.Machine.execEventBatchWrite source s
  | .powerOn split laserOffN perst => Sys2Proof.Machine.execPowerOn split laserOffN perst s
  | .supplyDip => Sys2Proof.Machine.execSupplyDip s
  | .supplyLossShutdown whole => Sys2Proof.Machine.execSupplyLossShutdown whole s
  | .modReset whole => Sys2Proof.Machine.execModReset whole s
  | .perstAssert n => Sys2Proof.Machine.execPerstAssert n s
  | .perstDeassert n => Sys2Proof.Machine.execPerstDeassert n s
  | .functionLevelReset n => Sys2Proof.Machine.execFunctionLevelReset n s
  | .linkTrained n speed width => Sys2Proof.Machine.execLinkTrained n speed width s
  | .linkRecoveryEntry x => Sys2Proof.Machine.execLinkRecoveryEntry x s
  | .linkUp x => Sys2Proof.Machine.execLinkUp x s
  | .linkDownLimitExpiry n => Sys2Proof.Machine.execLinkDownLimitExpiry n s
  | .arbiterDecision n x => Sys2Proof.Machine.execArbiterDecision n x s
  | .laserOffNAssert => Sys2Proof.Machine.execLaserOffNAssert s
  | .laserOffNRelease => Sys2Proof.Machine.execLaserOffNRelease s
  | .bootDone => Sys2Proof.Machine.execBootDone s
  | .bootFailedRecovery => Sys2Proof.Machine.execBootFailedRecovery s
  | .recoveryDone image whole => Sys2Proof.Machine.execRecoveryDone image whole s
  | .staggerRelease => Sys2Proof.Machine.execStaggerRelease s
  | .lighthouseRestart => Sys2Proof.Machine.execLighthouseRestart s
  | .lighthouseRestartEnd => Sys2Proof.Machine.execLighthouseRestartEnd s
  | .txFramePeriod c lv fills => Sys2Proof.Machine.execTxFramePeriod c lv fills s
  | .txMultiframeBoundary c merits => Sys2Proof.Machine.execTxMultiframeBoundary c merits s
  | .ingressHostFrame c phase ins devs => Sys2Proof.Machine.execIngressHostFrame c phase ins devs s
  | .kapraLaneFault n cause => Sys2Proof.Machine.execKapraLaneFault n cause s
  | .laneStateReached n x => Sys2Proof.Machine.execLaneStateReached n x s
  | .laneMeritLow n => Sys2Proof.Machine.execLaneMeritLow n s
  | .rxLineFrame c leaf f => Sys2Proof.Machine.execRxLineFrame c leaf f s
  | .lossOfFrame c leaf => Sys2Proof.Machine.execLossOfFrame c leaf s
  | .ohCheckFailRun c leaf => Sys2Proof.Machine.execOhCheckFailRun c leaf s
  | .uncorrectableRun c => Sys2Proof.Machine.execUncorrectableRun c s
  | .remoteDefect c leaf => Sys2Proof.Machine.execRemoteDefect c leaf s
  | .tributaryFailed idx => Sys2Proof.Machine.execTributaryFailed idx s
  | .tributaryRecovered idx => Sys2Proof.Machine.execTributaryRecovered idx s
  | .latencyMessageDue c => Sys2Proof.Machine.execLatencyMessageDue c s
  | .authFailRun idx => Sys2Proof.Machine.execAuthFailRun idx s
  | .keyUsageWarning idx => Sys2Proof.Machine.execKeyUsageWarning idx s
  | .keyExhausted idx => Sys2Proof.Machine.execKeyExhausted idx s
  | .autoRoll idx => Sys2Proof.Machine.execAutoRoll idx s
  | .oldKeyErase idx => Sys2Proof.Machine.execOldKeyErase idx s
  | .keyCountWrapErase idx => Sys2Proof.Machine.execKeyCountWrapErase idx s
  | .maskReseed k => Sys2Proof.Machine.execMaskReseed k s
  | .fecBerAlarm c => Sys2Proof.Machine.execFecBerAlarm c s
  | .linkQualityAlarm c => Sys2Proof.Machine.execLinkQualityAlarm c s
  | .rxMultiframeEnd c q => Sys2Proof.Machine.execRxMultiframeEnd c q s
  | .bringupStepDone x => Sys2Proof.Machine.execBringupStepDone x s
  | .lossOfSignal c codes => Sys2Proof.Machine.execLossOfSignal c codes s
  | .signalPresent c least => Sys2Proof.Machine.execSignalPresent c least s
  | .lossOfAcquisition c cause v => Sys2Proof.Machine.execLossOfAcquisition c cause v s
  | .rxStateLimitExpiry c => Sys2Proof.Machine.execRxStateLimitExpiry c s
  | .rxStateAdvance c cd => Sys2Proof.Machine.execRxStateAdvance c cd s
  | .pilotLock c mask odd => Sys2Proof.Machine.execPilotLock c mask odd s
  | .blindSearchRepeat c => Sys2Proof.Machine.execBlindSearchRepeat c s
  | .eqDiverged c idx => Sys2Proof.Machine.execEqDiverged c idx s
  | .subcarrierLockLost c idx => Sys2Proof.Machine.execSubcarrierLockLost c idx s
  | .subcarrierAcquired c idx => Sys2Proof.Machine.execSubcarrierAcquired c idx s
  | .calRunDue c tx => Sys2Proof.Machine.execCalRunDue c tx s
  | .calWindowEnd c tx e => Sys2Proof.Machine.execCalWindowEnd c tx e s
  | .calValuesApply c tx => Sys2Proof.Machine.execCalValuesApply c tx s
  | .outputPowerHigh x => Sys2Proof.Machine.execOutputPowerHigh x s
  | .laserCurrentHigh x => Sys2Proof.Machine.execLaserCurrentHigh x s
  | .lockerError c locker => Sys2Proof.Machine.execLockerError c locker s
  | .captureTaken c x => Sys2Proof.Machine.execCaptureTaken c x s
  | .captureBufferFill c => Sys2Proof.Machine.execCaptureBufferFill c s
  | .grantMap c => Sys2Proof.Machine.execGrantMap c s
  | .discoverySend c => Sys2Proof.Machine.execDiscoverySend c s
  | .burstWindow c subc start => Sys2Proof.Machine.execBurstWindow c subc start s
  | .burstDetect c idx ds part => Sys2Proof.Machine.execBurstDetect c idx ds part s
  | .burstHeaderCheck c idx header cell ofs => Sys2Proof.Machine.execBurstHeaderCheck c idx header cell ofs s
  | .burstReceived c idx x => Sys2Proof.Machine.execBurstReceived c idx x s
  | .burstRecordDelivery c j m k => Sys2Proof.Machine.execBurstRecordDelivery c j m k s
  | .leafLost c j => Sys2Proof.Machine.execLeafLost c j s
  | .timingSecond ofs ctrl mean => Sys2Proof.Machine.execTimingSecond ofs ctrl mean s
  | .holdoffExpiry k => Sys2Proof.Machine.execHoldoffExpiry k s
  | .candidateActivityLoss x => Sys2Proof.Machine.execCandidateActivityLoss x s
  | .candidateQualified k => Sys2Proof.Machine.execCandidateQualified k s
  | .loopBwStep => Sys2Proof.Machine.execLoopBwStep s
  | .oscWarm => Sys2Proof.Machine.execOscWarm s
  | .hoGrade => Sys2Proof.Machine.execHoGrade s
  | .oscAgeingFit => Sys2Proof.Machine.execOscAgeingFit s
  | .decimRecord n idx codes => Sys2Proof.Machine.execDecimRecord n idx codes s
  | .resampleReport n idx count t w => Sys2Proof.Machine.execResampleReport n idx count t w s
  | .selfcalEnd n offset gain => Sys2Proof.Machine.execSelfcalEnd n offset gain s
  | .testEnd n codes => Sys2Proof.Machine.execTestEnd n codes s
  | .extRefLost => Sys2Proof.Machine.execExtRefLost s
  | .trendSample c x => Sys2Proof.Machine.execTrendSample c x s
  | .hourlyRecord c => Sys2Proof.Machine.execHourlyRecord c s
  | .dailyRecord c => Sys2Proof.Machine.execDailyRecord c s
  | .poweredHour => Sys2Proof.Machine.execPoweredHour s
  | .scrubVisit k bit newer => Sys2Proof.Machine.execScrubVisit k bit newer s
  | .uncorrectableError k addr kind ring cmd copyBad => Sys2Proof.Machine.execUncorrectableError k addr kind ring cmd copyBad s
  | .keeperRestartDone c => Sys2Proof.Machine.execKeeperRestartDone c s
  | .retirementSwitch k => Sys2Proof.Machine.execRetirementSwitch k s
  | .levelStep c => Sys2Proof.Machine.execLevelStep c s
  | .railCheck c mv => Sys2Proof.Machine.execRailCheck c mv s
  | .sleepEntryEnd c => Sys2Proof.Machine.execSleepEntryEnd c s
  | .wakeTimer c => Sys2Proof.Machine.execWakeTimer c s
  | .wakeLight c lo hi => Sys2Proof.Machine.execWakeLight c lo hi s
  | .slackExitEnd c => Sys2Proof.Machine.execSlackExitEnd c s
  | .deratingBegin => Sys2Proof.Machine.execDeratingBegin s
  | .deratingEnd => Sys2Proof.Machine.execDeratingEnd s
  | .thermalShutdown => Sys2Proof.Machine.execThermalShutdown s
  | .entropyHealthFailure raw => Sys2Proof.Machine.execEntropyHealthFailure raw s
  | .entropyStartupTest raw => Sys2Proof.Machine.execEntropyStartupTest raw s
  | .drbgReseed => Sys2Proof.Machine.execDrbgReseed s
  | .hello down f => Sys2Proof.Machine.execHello down f s
  | .helloTimer => Sys2Proof.Machine.execHelloTimer s
  | .shoreNeighbourLost down => Sys2Proof.Machine.execShoreNeighbourLost down s
  | .headTimeout => Sys2Proof.Machine.execHeadTimeout s
  | .addrAssign down f => Sys2Proof.Machine.execAddrAssign down f s
  | .addrAssignTimer => Sys2Proof.Machine.execAddrAssignTimer s
  | .invReq down f => Sys2Proof.Machine.execInvReq down f s
  | .invResp down f => Sys2Proof.Machine.execInvResp down f s
  | .alarm down f => Sys2Proof.Machine.execAlarm down f s
  | .alarmRepeatTimer second => Sys2Proof.Machine.execAlarmRepeatTimer second s
  | .lighthouseNotRunning => Sys2Proof.Machine.execLighthouseNotRunning s
  | .laserOff down f => Sys2Proof.Machine.execLaserOff down f s
  | .laserOffHoldExpiry => Sys2Proof.Machine.execLaserOffHoldExpiry s
  | .msg down f => Sys2Proof.Machine.execMsg down f s
  | .shoreFrameBad down => Sys2Proof.Machine.execShoreFrameBad down s
  | .shoreInvTimeout id => Sys2Proof.Machine.execShoreInvTimeout id s
  | .laneSignalReturn n => Sys2Proof.Machine.execLaneSignalReturn n s
  | .bringupStepLimitExpiry c => Sys2Proof.Machine.execBringupStepLimitExpiry c s
  | .urgentRequestDone id codes us => Sys2Proof.Machine.execUrgentRequestDone id codes us s
  | .cryptoJobDone id => Sys2Proof.Machine.execCryptoJobDone id s
  | .memOperationDone id contents corr => Sys2Proof.Machine.execMemOperationDone id contents corr s
  | .ledgerWriteDone id => Sys2Proof.Machine.execLedgerWriteDone id s
  | .imageWriteDone id => Sys2Proof.Machine.execImageWriteDone id s
  | .chanResetDone c => Sys2Proof.Machine.execChanResetDone c s
  | .shoreFrameSent down => Sys2Proof.Machine.execShoreFrameSent down s

end Sys2Proof.Machine
end

