-- ==== Sys2Proof/Machine/Step.lean ====
section
/-! DEFINITION. One step of the block: the command at the front of the queue acts, or the block idles. -/

namespace Sys2Proof.Machine

/-- A step on an empty queue: one always-on microsecond passes while the module has its supply, else nothing does
(DESIGN CHOICE, log 37). -/
def State.idle (s : State) : State := if s.boot.powered then { s with now := s.now + 1000 } else s

/-- The command at the front of the queue is taken from it and acts on the rest of the state (log 37). -/
def step (s : State) : Host.Outcome State Fault Refusal :=
  match s.pending with
  | [] => .next s.idle
  | c :: rest => exec c { s with pending := rest }

/-- The command that a word spells, put at the front of the queue (log 36). -/
def State.withFetchWord (s : State) (nbits w : Nat) : State :=
  match Sys2Proof.decodeTableWord nbits w with
  | some c => { s with pending := c :: s.pending }
  | none => s

end Sys2Proof.Machine
end

