-- ==== Sys2Proof/WellFormed.lean ====
section
/-! DEFINITION. Which commands are well formed: the lengths and ranges of operands that their types leave open, from the
buffer sizes of the command catalogues and the layouts of what the interfaces bring. A meaning is total and also takes an
ill-formed command; no statement relies on what it then does. -/

namespace Sys2Proof

/-- A shore frame's fields fit their places, and its body is at most 1,456 bytes (19 R421). -/
def Machine.ShoreFrame.wf (f : Machine.ShoreFrame) : Bool :=
  f.dst < 2048 && f.src < 2048 && f.typ < 256 && f.hops < 2048 && f.body.length ≤ 1456

/-- Four samples, or components, of each instant. -/
def CapSample.wf (x : CapSample) : Bool := x.ofs < 2 ^ 24 && (x.pre ++ x.post).all (·.length = 4)

/-- The command is well formed. -/
def Instr.wf : Instr → Bool
  | .nop _ => true
  | .ringQuery _ => true
  | .eventFilter _ => true
  | .alarmSummary _ => true
  | .bufPost _ => true
  | .ohmSend _ bs => bs.length ≤ 262144
  | .partQuery _ => true
  | .partHistory _ => true
  | .partChange _ ws => ws.length = 8
  | .tribProvision _ ws => ws.length = 12
  | .tribModify _ ws => ws.length = 8
  | .tribEnable _ => true
  | .tribDisable _ => true
  | .tribDelete _ => true
  | .tribQuery _ => true
  | .tribCounters _ => true
  | .tribShedList _ => true
  | .tribLatencyQuery _ => true
  | .tribPromiseRelease _ ws => ws.length ≤ 32
  | .tribPromiseReinstate _ ws => ws.length ≤ 32
  | .slotWrite _ ws => ws.length ≤ 400
  | .slotRead _ => true
  | .slotCopy _ => true
  | .bankSwitch _ => true
  | .bankArm _ => true
  | .bankDisarm _ => true
  | .bankStatus _ => true
  | .groupCreate _ => true
  | .groupDelete _ => true
  | .groupQuery _ => true
  | .groupRealign _ => true
  | .cipherSetup _ ws => ws.length = 8
  | .cipherQuery _ => true
  | .keyLoad _ bs => bs.length = 80
  | .keyRoll _ => true
  | .keyErase _ => true
  | .cipherCounters _ => true
  | .jobKeyLoad _ bs => bs.length = 80
  | .jobKeyErase _ => true
  | .jobCipher _ _ => true
  | .loadChange _ ws => ws.length = 16
  | .loadQuery _ => true
  | .loadQuality _ => true
  | .loadPlan _ => true
  | .loadConfig _ => true
  | .chanBringup _ ws _ => ws.length = 16
  | .chanStatus _ => true
  | .dspStatus _ => true
  | .cdWindow _ => true
  | .txShape _ => true
  | .acqConfig _ => true
  | .chanReset _ => true
  | .kapraState _ => true
  | .kapraTxEq _ => true
  | .kapraStatus _ => true
  | .kapraCounters _ => true
  | .frameStatus _ => true
  | .frameCounters _ => true
  | .ohSnapshot _ => true
  | .fecProfile _ ws => ws.length = 0 || ws.length = 16
  | .fecStatus _ => true
  | .fecCounters _ => true
  | .fecAlarmSet _ => true
  | .calConfig _ => true
  | .calRun _ => true
  | .calStatus _ => true
  | .calValues _ => true
  | .opticsStatus _ _ _ _ current => current < 2 ^ 16
  | .captureArm _ x => x.wf
  | .captureDisarm _ => true
  | .laserBlank _ => true
  | .laserRestore _ _ _ => true
  | .p2mpMode _ => true
  | .leafSet _ ws => ws.length = 8
  | .leafQuery _ => true
  | .p2mpConfig _ => true
  | .leafLoad _ ws => ws.length = 16
  | .burstCounters _ => true
  | .leafStatus _ => true
  | .leafJoin _ => true
  | .timingCandSet _ => true
  | .timingConfig _ => true
  | .timingStatus _ => true
  | .timingHistory _ => true
  | .chanTiming _ => true
  | .monScanSet _ ws => ws.length ≤ 16
  | .monFilterSet _ ws => ws.length = 0 || ws.length = 256
  | .monFilterRun _ => true
  | .monStream _ => true
  | .monRead _ => true
  | .monTest _ => true
  | .monRef _ _ => true
  | .monSelfcal _ => true
  | .monQuery _ => true
  | .monHistory _ => true
  | .fastCfg _ => true
  | .memFill _ => true
  | .memScan _ => true
  | .memCopyIn _ _ => true
  | .memCopyOut _ => true
  | .memScrubConfig _ => true
  | .memStatus _ => true
  | .memReefRead _ => true
  | .memRetire _ => true
  | .memRetireList _ => true
  | .pwrLevel _ => true
  | .pwrSleepSlack _ => true
  | .pwrSleepDark _ => true
  | .pwrSleepExit _ => true
  | .pwrStatus _ vcore power => vcore < 2 ^ 16 && power < 2 ^ 32
  | .pwrModule _ input common => input < 2 ^ 32 && common < 2 ^ 32
  | .idCertRead _ => true
  | .attestReport _ nonce => nonce.length = 4
  | .ledgerRead _ => true
  | .fwStatus _ => true
  | .rngStatus _ => true
  | .fwImageWrite _ _ => true
  | .fwActivate _ => true
  | .fwConfirm _ => true
  | .fwFloorRaise _ => true
  | .kekEstablish _ bs => bs.length = 196
  | .ageConfig _ => true
  | .ageStatus _ => true
  | .ageLedgerRead _ => true
  | .ageProposal _ => true
  | .ageShortfall _ => true
  | .shoreStatus _ => true
  | .shoreInventory _ => true
  | .shoreInvQuery _ => true
  | .shoreSend _ bs => bs.length ≤ 1456
  | .shoreLaserOff _ => true
  | .undefinedOpcode _ => true
  | .ringEnable _ _ v => v.bit 0
  | .ringDisable _ _ v => !v.bit 0
  | .nudgeGroup _ _ => true
  | .arbPrioWrite _ _ _ => true
  | .arbStatRead _ _ => true
  | .rcvGo v => v.bit 63
  | .registerWrite _ bar off width _ => bar ≠ 1 && (width = 1 || width = 2 || width = 4 || width = 8) && off % width = 0 && off < 2097152
  | .unsupportedRequest _ _ => true
  | .doorbellReadDone _ _ ws => ws.length = 64
  | .doorbellSweep _ => true
  | .descriptorFetch _ _ => true
  | .commandStart _ => true
  | .commandDeadlineExpiry _ _ _ => true
  | .dmaError _ => true
  | .moderationTimer _ => true
  | .eventBatchWrite _ => true
  | .powerOn _ _ _ => true
  | .supplyDip => true
  | .supplyLossShutdown _ => true
  | .modReset _ => true
  | .perstAssert _ => true
  | .perstDeassert _ => true
  | .functionLevelReset _ => true
  | .linkTrained _ speed width => 1 ≤ speed.val && 1 ≤ width.val
  | .linkRecoveryEntry _ => true
  | .linkUp _ => true
  | .linkDownLimitExpiry _ => true
  | .arbiterDecision _ _ => true
  | .laserOffNAssert => true
  | .laserOffNRelease => true
  | .bootDone => true
  | .bootFailedRecovery => true
  | .recoveryDone _ _ => true
  | .staggerRelease => true
  | .lighthouseRestart => true
  | .lighthouseRestartEnd => true
  | .txFramePeriod _ _ _ => true
  | .txMultiframeBoundary _ _ => true
  | .ingressHostFrame _ _ ins _ => ins.length = 4
  | .kapraLaneFault _ _ => true
  | .laneStateReached _ _ => true
  | .laneMeritLow _ => true
  | .rxLineFrame _ _ f => f.codewords.all fun x => x.1.length = 8320 && x.2 ≤ 16
  | .lossOfFrame _ _ => true
  | .ohCheckFailRun _ _ => true
  | .uncorrectableRun _ => true
  | .remoteDefect _ _ => true
  | .tributaryFailed _ => true
  | .tributaryRecovered _ => true
  | .latencyMessageDue _ => true
  | .authFailRun _ => true
  | .keyUsageWarning _ => true
  | .keyExhausted _ => true
  | .autoRoll _ => true
  | .oldKeyErase _ => true
  | .keyCountWrapErase _ => true
  | .maskReseed _ => true
  | .fecBerAlarm _ => true
  | .linkQualityAlarm _ => true
  | .rxMultiframeEnd _ q => q.snr.length = 32 && q.evm.length = 32 && q.subs.length = 16 && q.adc.length = 4
  | .bringupStepDone _ => true
  | .lossOfSignal _ codes => codes.length = 4
  | .signalPresent _ _ => true
  | .lossOfAcquisition _ _ _ => true
  | .rxStateLimitExpiry _ => true
  | .rxStateAdvance _ _ => true
  | .pilotLock _ _ _ => true
  | .blindSearchRepeat _ => true
  | .eqDiverged _ _ => true
  | .subcarrierLockLost _ _ => true
  | .subcarrierAcquired _ _ => true
  | .calRunDue _ _ => true
  | .calWindowEnd _ _ e => e.est.length = e.half1.length && e.est.length = e.half2.length && e.ilRes.length = 4 && e.eye.length = 4
      && e.clip.length = 4 && (e.ilRes ++ e.eye).all (· < 4096)
  | .calValuesApply _ _ => true
  | .outputPowerHigh _ => true
  | .laserCurrentHigh _ => true
  | .lockerError _ _ => true
  | .captureTaken _ x => x.wf
  | .captureBufferFill _ => true
  | .grantMap _ => true
  | .discoverySend _ => true
  | .burstWindow _ _ _ => true
  | .burstDetect _ _ ds _ => !ds.isEmpty
  | .burstHeaderCheck _ _ _ _ _ => true
  | .burstReceived _ _ _ => true
  | .burstRecordDelivery _ _ _ _ => true
  | .leafLost _ _ => true
  | .timingSecond ofs _ _ => ofs.length = 8
  | .holdoffExpiry _ => true
  | .candidateActivityLoss _ => true
  | .candidateQualified _ => true
  | .loopBwStep => true
  | .oscWarm => true
  | .hoGrade => true
  | .oscAgeingFit => true
  | .decimRecord _ _ codes => codes.length ≤ 65536 && codes.all (·.length ≤ 256)
  | .resampleReport _ _ _ _ _ => true
  | .selfcalEnd _ _ _ => true
  | .testEnd _ codes => !codes.isEmpty
  | .extRefLost => true
  | .trendSample _ _ => true
  | .hourlyRecord _ => true
  | .dailyRecord _ => true
  | .poweredHour => true
  | .scrubVisit _ _ _ => true
  | .uncorrectableError _ _ _ _ _ _ => true
  | .keeperRestartDone _ => true
  | .retirementSwitch _ => true
  | .levelStep _ => true
  | .railCheck _ _ => true
  | .sleepEntryEnd _ => true
  | .wakeTimer _ => true
  | .wakeLight _ _ _ => true
  | .slackExitEnd _ => true
  | .deratingBegin => true
  | .deratingEnd => true
  | .thermalShutdown => true
  | .entropyHealthFailure raw => raw.length ≤ 65536
  | .entropyStartupTest raw => raw.length = 4096
  | .drbgReseed => true
  | .hello _ f => f.wf
  | .helloTimer => true
  | .shoreNeighbourLost _ => true
  | .headTimeout => true
  | .addrAssign _ f => f.wf
  | .addrAssignTimer => true
  | .invReq _ f => f.wf
  | .invResp _ f => f.wf
  | .alarm _ f => f.wf
  | .alarmRepeatTimer _ => true
  | .lighthouseNotRunning => true
  | .laserOff _ f => f.wf
  | .laserOffHoldExpiry => true
  | .msg _ f => f.wf
  | .shoreFrameBad _ => true
  | .shoreInvTimeout _ => true
  | .laneSignalReturn _ => true
  | .bringupStepLimitExpiry _ => true
  | .urgentRequestDone _ codes _ => !codes.isEmpty
  | .cryptoJobDone _ => true
  | .memOperationDone _ _ _ => true
  | .ledgerWriteDone _ => true
  | .imageWriteDone _ => true
  | .chanResetDone _ => true
  | .shoreFrameSent _ => true

/-- A queue of well-formed commands. -/
def Instr.allWf (l : List Instr) : Bool := l.all Instr.wf

end Sys2Proof
end

