-- ==== Sys2Proof/Safety.lean ====
section
/-! DEFINITION. The terms in which claims are stated: a command that can act, what a row does, the parts of the state that
a row leaves alone, and the invariant of a run. -/

namespace Sys2Proof.Machine

/-! ### What a row does -/

/-- Fetched command `id` has started and carries opcode `op`; `f` is what the module holds of it. -/
abbrev State.Started (s : State) (id op : Nat) (f : Flight) : Prop :=
  s.flights.find? (fun f => f.id = id && f.phase = .started && f.desc.w0.bits 15 0 = op) = some f

/-- Command `i` answers the next state `u`, with the alarm begin times and the like brought up to date in it. -/
def State.Does (s : State) (i : Instr) (u : State) : Prop := exec i s = .next u.remark

/-! ### What a row leaves alone -/

/-- The host window with its WRITTEN bits, the queue, the partition record, the powered hours and the fetch count. -/
structure Kept where
  mem : List Host.Cell
  written : Sparse Bool
  pending : List Instr
  part : Partition
  powerHours : Nat
  nextId : Nat
  deriving DecidableEq, Repr

def State.kept (s : State) : Kept := ⟨s.mem, s.written, s.pending, s.part, s.powerHours, s.nextId⟩

/-- A channel but for CHAN_HOLD, which follows the receiver's state (14 R347). -/
def Channel.Same (a b : Channel) : Prop := { a with hold := b.hold } = b

/-- Nothing but what carries a command's end to the host differs: its flight, its completion ring or what its link holds
back, the interrupt's pending bit, what has left the block, and the bookkeeping of alarms and free values. -/
structure SameModule (s t : State) : Prop where
  kept : t.kept = s.kept
  now : t.now = s.now
  boot : t.boot = s.boot
  sec : t.sec = s.sec
  shore : t.shore = s.shore
  tm : t.tm = s.tm
  chans : ∀ c, (t.chan c).Same (s.chan c)
  groups : t.groups = s.groups
  convs : t.convs = s.convs
  srams : t.srams = s.srams
  retireList : t.retireList = s.retireList
  jobKeys : t.jobKeys = s.jobKeys
  jobs : t.jobs = s.jobs
  copyIns : t.copyIns = s.copyIns

/-! ### The invariant of a run -/

/-- The host window is in canonical form, and fetch numbers are below the count and never shared. -/
structure State.Inv (s : State) : Prop where
  mem : Memory.wf s.mem = true
  below : ∀ f ∈ s.flights, f.id < s.nextId
  apart : (s.flights.map Flight.id).Nodup

end Sys2Proof.Machine
end

