-- ==== Sys2Proof/Certificates/Slice0/Obligations.lean ====
section
/-! DEFINITION. The statements that the provers prove. A clause `s.Does i u` says that row i answers the next state u, with
the alarm begin times and the like brought up to date in it. -/

open Sys2Proof Sys2Proof.Machine

/-- A step takes the command at the front of the queue and runs it on the state with the queue's rest; on an empty
queue the block idles, and one microsecond passes while the module has its supply (the model's own choice, log 37). -/
def Obligations.StepRunsFront : Prop :=
  (∀ (s : State) (c : Instr) (rest : List Instr), s.pending = c :: rest → step s = exec c { s with pending := rest }) ∧
  (∀ s : State, s.pending = [] → s.boot.powered = true → step s = .next { s with now := s.now + 1000 }) ∧
  (∀ s : State, s.pending = [] → s.boot.powered = false → step s = .next s)

/-- What the power-on reset leaves: nothing booted or running, every channel Dark with bring-up at step 0, no link
trained, no ring enabled, no slot written, no command fetched or waiting. -/
def Obligations.ResetState : Prop :=
  State.reset.boot.powered = true ∧ State.reset.boot.booted = false ∧ State.reset.boot.running = false ∧
  (∀ c, (State.reset.chan c).pw.level = .dark ∧ (State.reset.chan c).bu.step = 0 ∧ (State.reset.chan c).rx.state = .notUp ∧
    (State.reset.chan c).locals = [] ∧ (State.reset.chan c).opt.shutter = true) ∧
  (∀ n, (State.reset.link n).trained = false ∧ (State.reset.link n).arb.holder = none) ∧
  (∀ r, (State.reset.ring r).en = false) ∧ (∀ a, Memory.read State.reset.mem a = none) ∧
  State.reset.flights = [] ∧ State.reset.pending = [] ∧ State.reset.shore.address = 0 ∧ State.reset.sec.kek = none

/-- The invariant of a run holds right after reset. -/
def Obligations.InvAtReset : Prop := State.reset.Inv

/-- Every step keeps the invariant: the host window stays in canonical form, and no two commands in flight ever share
a number. -/
def Obligations.StepKeepsInv : Prop := ∀ (s t : State), s.Inv → step s = .next t → t.Inv

/-- No row of the table stops the module: every command answers a next state in every state. -/
def Obligations.EveryRowAnswers : Prop := ∀ (i : Instr) (s : State), ∃ t, exec i s = .next t

/-- Which rows reach the host window, the partition record, the powered hours, the fetch count and the queue. -/
def Obligations.WritersOfKeptState : Prop :=
  ∀ (i : Instr) (s t : State), exec i s = .next t →
    t.pending = s.pending ∧
    ((∀ split l perst, i ≠ .powerOn split l perst) → (∀ w, i ≠ .supplyLossShutdown w) → (∀ w, i ≠ .modReset w) →
      (∀ im w, i ≠ .recoveryDone im w) →
      ((∀ id bs corr, i ≠ .memOperationDone id bs corr) → (∀ id w p, i ≠ .commandDeadlineExpiry id w p) →
        t.mem = s.mem ∧ t.written = s.written) ∧
      ((∀ id, i ≠ .ledgerWriteDone id) → (∀ id w p, i ≠ .commandDeadlineExpiry id w p) → t.part = s.part)) ∧
    (i ≠ .poweredHour → t.powerHours = s.powerHours) ∧
    ((∀ r d, i ≠ .descriptorFetch r d) → t.nextId = s.nextId)

/-- Always-on time never runs backwards, but for the supply-on that starts it. -/
def Obligations.TimeRunsForward : Prop :=
  ∀ (i : Instr) (s t : State), (∀ split l perst, i ≠ .powerOn split l perst) → exec i s = .next t → s.now ≤ t.now

/-- The commands that only read leave everything but their own completion as it was; a MON_HISTORY does while the SRAMs store no
error, which its read would count (17 R387, R392). -/
def Obligations.QueriesLeaveTheModule : Prop :=
  ∀ (s t : State) (id : Nat) (i : Instr),
    i = .nop id ∨ i = .ringQuery id ∨ i = .alarmSummary id ∨ i = .partQuery id ∨ i = .partHistory id ∨ i = .chanStatus id ∨
    i = .dspStatus id ∨ i = .fecStatus id ∨ i = .fecCounters id ∨ i = .loadQuery id ∨ i = .loadQuality id ∨ i = .loadPlan id ∨
    i = .frameStatus id ∨ i = .frameCounters id ∨ i = .ohSnapshot id ∨ i = .kapraStatus id ∨ i = .kapraCounters id ∨
    i = .calStatus id ∨ i = .calValues id ∨ i = .cipherQuery id ∨ i = .cipherCounters id ∨ i = .memStatus id ∨
    i = .memReefRead id ∨ i = .memRetireList id ∨ i = .ageStatus id ∨ i = .ageLedgerRead id ∨ i = .ageProposal id ∨
    i = .ageShortfall id ∨ i = .shoreStatus id ∨ i = .shoreInventory id ∨ i = .leafQuery id ∨ i = .burstCounters id ∨
    i = .leafStatus id ∨ (∃ a b d n, i = .opticsStatus id a b d n) ∨ (i = .monHistory id ∧ ∀ n, (s.sram n).bad = []) ∨ i = .ledgerRead id ∨ i = .fwStatus id ∨
    i = .rngStatus id ∨ i = .idCertRead id ∨ i = .slotRead id ∨ i = .bankStatus id ∨ i = .groupQuery id ∨
    (∃ x, i = .timingStatus x) ∨ i = .timingHistory id ∨ i = .tribShedList id →
    exec i s = .next t → SameModule s t

/-- Settings of one channel leave the other channels, the groups, the converters, the memories and the timing core
alone. -/
def Obligations.SettingsStayInTheirChannel : Prop :=
  ∀ (s t : State) (id c : Nat) (i : Instr), (∀ f ∈ s.flights, f.id = id → f.desc.target = c) →
    i = .acqConfig id ∨ i = .txShape id ∨ i = .loadConfig id ∨ i = .fecAlarmSet id ∨ i = .kapraTxEq id ∨ i = .kapraState id ∨
    i = .ageConfig id ∨ i = .p2mpMode id ∨ i = .p2mpConfig id ∨ i = .leafJoin id ∨ i = .calConfig id ∨ i = .pwrLevel id →
    exec i s = .next t →
    (∀ d, d ≠ c → (t.chan d).Same (s.chan d)) ∧ t.groups = s.groups ∧ t.convs = s.convs ∧ t.srams = s.srams ∧ t.tm = s.tm ∧
    t.shore = s.shore ∧ t.boot = s.boot ∧ t.sec = s.sec ∧ t.kept = s.kept

/-- A reset leaves no key, no command in flight, no enabled ring and no channel that is not Dark (19 R418; 07 R150). -/
def Obligations.ResetsClearTheModule : Prop :=
  ∀ (s t : State) (i : Instr),
    (∃ split l perst, i = .powerOn split l perst) ∧ s.boot.powered = false ∨
    (∃ w, i = .supplyLossShutdown w) ∧ s.boot.powered = true ∨ (∃ w, i = .modReset w) ∧ s.boot.powered = true →
    exec i s = .next t →
    (∀ k, (t.cipherOf k).current = none ∧ (t.cipherOf k).next = none ∧ (t.cipherOf k).retiring = []) ∧ t.jobKeys = [] ∧
    t.sec.kek = none ∧ t.flights = [] ∧ (∀ r, (t.ring r).en = false) ∧
    (∀ c, (t.chan c).pw.level = .dark ∧ (t.chan c).bu.step = 0 ∧ (t.chan c).opt.shutter = true) ∧ t.mem = []

/-- A command that ends on a trained link with its completion ring enabled leaves one completion record in that ring:
its tag, opcode, target, ring and index, its status, and PHASE of the pass (04 R72). -/
def Obligations.FinishWritesRecord : Prop :=
  ∀ (s : State) (f : Flight) (st r0 r1 r2 : Nat) (q : Nat), q = (s.ring f.ring).cq → f.orphan = false →
    (s.link f.link).recovery = false → f.limited = false → (s.ring q).en = true → (s.ring q).halted = false →
    (s.finish f st (some r0) (some r1) (some r2)).flight? f.id = none ∧
    ((s.finish f st (some r0) (some r1) (some r2)).ring q).written = (s.ring q).written + 1 ∧
    ∃ c : Completion, Output.record (s.ring q).owner ((s.ring q).entryAddr ((s.ring q).written % (s.ring q).entries))
        (wordsBytes c.words) ∈ (s.finish f st (some r0) (some r1) (some r2)).out ∧
      c.tag = f.desc.tag ∧ c.opcode = f.desc.opcode ∧ c.status = st ∧ c.target = f.desc.target ∧ c.ring = f.ring ∧
      c.descIndex = f.index ∧ c.result0 = BitVec.ofNat 32 r0 ∧ c.result1 = BitVec.ofNat 64 r1 ∧
      c.result2 = BitVec.ofNat 32 r2 ∧ (c.phase = true ↔ (s.ring q).written / (s.ring q).entries % 2 = 0)

/-- R57: a descriptor whose opcode its ring kind does not accept completes with status 0x01 and has no other effect. -/
def Obligations.WrongRingKind : Prop :=
  ∀ (s : State) (id : Nat) (f : Flight) (o : OpInfo), s.flights.find? (fun f => f.id = id && s.canStart f) = some f →
    opInfo f.desc.opcode = some o → (s.ring f.ring).kind.accepts f.desc.opcode = false →
    s.Does (.commandStart id) (s.finish f 0x01) ∧ ∀ t, exec (.commandStart id) s = .next t → SameModule s t

/-- R53: a write to ARB_PRIO_n takes effect at the next decision. The current holder keeps its grant, whatever the new
values. A waiting requester keeps its AGE, and its EFF is recomputed as min(new BASE + AGE, new CEIL). -/
def Obligations.ArbiterWriteTakesEffect : Prop :=
  ∀ (s : State) (n : Fin 4) (i : Fin 36) (v : Word), s.reach n = true → s.sec.rcvMode = false →
    (s.link n).arb.reqs.length = 36 → v.bits 3 0 ≤ v.bits 11 8 → v.bits 26 16 ≠ 0 → v.bits 26 16 ≤ 1024 →
    ∃ t, exec (.arbPrioWrite n i v) s = .next t ∧ (t.link n).arb.holder = (s.link n).arb.holder ∧
      ((t.link n).arb.req i).age = ((s.link n).arb.req i).age ∧
      ((t.link n).arb.req i).priority = min (v.bits 3 0 + ((s.link n).arb.req i).age) (v.bits 11 8) ∧
      ((t.link n).arb.req i).burst = v.bits 26 16 ∧
      (∀ k, k ≠ i.val → (t.link n).arb.req k = (s.link n).arb.req k) ∧
      ∀ x u, ((t.link n).configured x).grantOver x = true → exec (.arbiterDecision n x) t = .next u →
        (u.link n).arb = (t.link n).arb.decide x.asks

/-- R54: a write to ARB_PRIO_n with ARB_BASE greater than ARB_CEIL, or with ARB_BURST equal to 0 or above 1,024, is
discarded whole, and ARB_ERR bit n is set. -/
def Obligations.BadArbiterWriteDiscarded : Prop :=
  ∀ (s : State) (n : Fin 4) (i : Fin 36) (v : Word), s.reach n = true → s.sec.rcvMode = false →
    (v.bits 3 0 > v.bits 11 8 ∨ v.bits 26 16 = 0 ∨ v.bits 26 16 > 1024) →
    ∃ t, exec (.arbPrioWrite n i v) s = .next t ∧ (t.link n).arb.reqs = (s.link n).arb.reqs ∧
      (t.link n).arb.holder = (s.link n).arb.holder ∧ (t.link n).arb.prev = (s.link n).arb.prev ∧
      ∀ k : Nat, k < 36 → (t.link n).arb.err.getLsbD k = ((s.link n).arb.err.getLsbD k || decide (k = i.val))

/-- A decision goes to a requester that requests and that no other requester beats: its EFF is the highest, and of
those with an equal EFF it is the first in the round from the index after the previous winner; its AGE becomes 0. A requester that
does not request keeps its AGE (R52), and by the model's own choice its whole record (log 72). -/
def Obligations.ArbiterPicksHighest : Prop :=
  ∀ (a : Arbiter) (m : BitVec 36), a.reqs.length = 36 → m ≠ 0 → a.prev < 36 →
    ∃ w, w < 36 ∧ (a.decide m).holder = some (w, 64 * (a.req w).burst) ∧ (a.decide m).prev = w ∧ m.getLsbD w = true ∧
      ((a.decide m).req w).age = 0 ∧ ((a.decide m).req w).losing = 0 ∧
      (∀ i, i < 36 → m.getLsbD i = true → (a.req i).priority ≤ (a.req w).priority) ∧
      (∀ i, i < 36 → m.getLsbD i = true → (a.req i).priority = (a.req w).priority →
        (w + 36 - (a.prev + 1)) % 36 ≤ (i + 36 - (a.prev + 1)) % 36) ∧
      (∀ i, i < 36 → i ≠ w → m.getLsbD i = true →
        ((a.decide m).req i).age = min 15 ((a.req i).age + 1) ∧ ((a.decide m).req i).losing = (a.req i).losing + 1) ∧
      (∀ i, i < 36 → i ≠ w → m.getLsbD i = false → (a.decide m).req i = a.req i)

/-- R231: the slot count S of a direction is the largest s from 0 to 1,600 whose coded size C(s) is at most G, the sum
of G_ℓ over its Active streams, with C(s) as the rule gives it for each profile: it never falls as s rises, C(0) is
163,622 or 164,352 bits, and a set whose G is below C(0) has no slot count. -/
def Obligations.SlotCountIsLargest : Prop :=
  (∀ (x : LoadSet) (rate : Nat) (off : Bool) (g : Nat), g = (x.streams.map fun l => streamBits rate (x.code l)).sum →
    (∀ n, x.slots rate off = some n ↔ n ≤ 1600 ∧ codedSize off n ≤ g ∧ ∀ m, m ≤ 1600 → codedSize off m ≤ g → m ≤ n) ∧
    (x.slots rate off = none ↔ g < codedSize off 0)) ∧
  (∀ s i r : Nat, i = 131072 + 8064 * s → r = (i + 909) / 910 →
    codedSize false s = i + 30 * r + 28200 * ((r + 909) / 910)) ∧
  (∀ s i : Nat, i = 131072 + 8064 * s → codedSize true s = i + 1664 * ((i + 6655) / 6656)) ∧
  (∀ (off : Bool) (m n : Nat), m ≤ n → codedSize off m ≤ codedSize off n) ∧
  codedSize false 0 = 163622 ∧ codedSize true 0 = 164352

/-- R139: the shed list holds the Carrying and Failed tributaries of the channel, each once, by rising SHED_RANK and
among equal ranks by falling index. -/
def Obligations.ShedListOrder : Prop :=
  ∀ (ch : Channel), ch.tribs.rising 0 = true →
    (∀ l, l ∈ ch.shedOrder ↔ (ch.trib l).state = .carrying ∨ (ch.trib l).state = .failed) ∧
    ch.shedOrder.Nodup ∧
    ch.shedOrder.Pairwise fun a b => (ch.trib a).shedRank < (ch.trib b).shedRank ∨
      ((ch.trib a).shedRank = (ch.trib b).shedRank ∧ b < a)

/-- R48 in its order: the first status that applies, whatever else a proposed record breaks. A refused change has no
effect but its completion. The issuer's role is that of the start; so is the record in force while another change had started, which
is then the change in progress (R45). -/
def Obligations.PartChangeRefusals : Prop :=
  ∀ (s : State) (id : Nat) (f : Flight) (ws : List Word), s.Started id 0x0210 f →
    ∃ st, s.partRefusal f ws = st ∧ (st ≠ 0 → s.Does (.partChange id ws) (s.finish f st)) ∧
      let p := Partition.ofWords ws s.part.seq
      let bad := partReservedClear ws = false ∨ p.ownerObserves = true ∨ p.sameAs (f.rival.getD s.part) = true
      let going := f.rival ≠ none
      (bad → st = 0x01) ∧
      (¬ bad → f.primary = false → st = 0x04) ∧
      (¬ bad → f.primary = true → going → st = 0x02) ∧
      (¬ bad → f.primary = true → ¬ going → s.namesPresent p = false → st = 0x20) ∧
      (¬ bad → f.primary = true → ¬ going → s.namesPresent p = true → s.oldOwnerActive p = true → st = 0x21) ∧
      (¬ bad → f.primary = true → ¬ going → s.namesPresent p = true → s.oldOwnerActive p = false → 32 ≤ s.part.seq → st = 0x09) ∧
      (¬ bad → f.primary = true → ¬ going → s.namesPresent p = true → s.oldOwnerActive p = false → s.part.seq < 32 → st = 0)

/-- R336: the selected candidate after a reselection in revertive mode is an eligible one that no other eligible one
ranks before by QUALITY, PRIORITY and slot; with none eligible nothing is selected. -/
def Obligations.BestCandidateSelected : Prop :=
  ∀ (s : State) (cause : Option Nat), s.tm.revert = true →
    (∀ k, k < 8 → (s.tm.cand k).eligible = true → ∃ j, (s.reselect cause).tm.selected = some j ∧ j < 8 ∧
      (s.tm.cand j).eligible = true ∧ (j = k ∨ s.tm.ranks j k = true)) ∧
    ((∀ k, k < 8 → (s.tm.cand k).eligible = false) → (∀ k, s.tm.selected = some k → k < 8) →
      (s.reselect cause).tm.selected = none)

/-- R283: a tracking run moves a value whose change exceeds its step limit by exactly that limit toward the estimate, and any other
to the estimate; an initial run is subject to no step limit. -/
def Obligations.CalibrationStepIsBounded : Prop :=
  ∀ (i : Nat) (cur est : Int),
    ((calLimits i).2 < valueDist est cur →
      valueDist (calStep true i cur est) cur = (calLimits i).2 ∧
      valueDist est (calStep true i cur est) + (calLimits i).2 = valueDist est cur) ∧
    (valueDist est cur ≤ (calLimits i).2 → calStep true i cur est = est) ∧ calStep false i cur est = est

/-- AES-256-GCM gives back what it was given, and refuses a tag that is not the one made: the line cipher and the job
engine decrypt what they encrypted (07 R161, R166). Counter mode is its own inverse. -/
def Obligations.DecryptionUndoesEncryption : Prop :=
  (∀ (key iv aad text : List Nat), key.length = 32 → iv.length = 12 →
     Crypto.gcmDecrypt key iv aad (Crypto.gcmEncrypt key iv aad text).1 (Crypto.gcmEncrypt key iv aad text).2 = some text ∧
     (∀ tag, tag ≠ (Crypto.gcmEncrypt key iv aad text).2 →
       Crypto.gcmDecrypt key iv aad (Crypto.gcmEncrypt key iv aad text).1 tag = none)) ∧
  (∀ (key first text : List Nat), key.length = 32 → first.length = 16 →
     Crypto.ctr key first (Crypto.ctr key first text) = text)

/-- A fill or a copy into the host window stores exactly its range: every byte of the range reads as the operation
gives it, every other address reads as before, and the memory keeps its canonical form (17 R389, R400, R401). -/
def Obligations.WindowStores : Prop :=
  ∀ (s : State) (id : Nat) (f : Flight) (contents : List Byte) (corr : List (Nat × Fin 72)),
    s.flights.find? (fun f => f.id = id && f.phase = .running && (f.desc.opcode = 0x1800 || f.desc.opcode = 0x1801 ||
      f.desc.opcode = 0x1802 || f.desc.opcode = 0x1803)) = some f →
    (f.desc.opcode = 0x1800 → f.desc.len % 8 = 0 → ∃ t, exec (.memOperationDone id contents corr) s = .next t ∧
      (∀ a, f.desc.addr ≤ a → a < f.desc.addr + f.desc.len →
        Memory.read t.mem a = some (BitVec.ofNat 8 (f.desc.p2.toNat / 256 ^ ((a - f.desc.addr) % 8)))) ∧
      (∀ a, a < f.desc.addr ∨ f.desc.addr + f.desc.len ≤ a → Memory.read t.mem a = Memory.read s.mem a) ∧
      (Memory.wf s.mem = true → Memory.wf t.mem = true) ∧ t.flight? id = none) ∧
    (∀ bs, f.desc.opcode = 0x1802 → s.copyIns.get [] f.id = bs → ∃ t, exec (.memOperationDone id contents corr) s = .next t ∧
      (∀ k, k < bs.length → Memory.read t.mem (f.desc.addr + k) = some (bs.getD k 0)) ∧
      (∀ a, a < f.desc.addr ∨ f.desc.addr + bs.length ≤ a → Memory.read t.mem a = Memory.read s.mem a) ∧
      (Memory.wf s.mem = true → Memory.wf t.mem = true) ∧ t.flight? id = none) ∧
    (f.desc.opcode = 0x1801 ∨ f.desc.opcode = 0x1803 → ∃ t, exec (.memOperationDone id contents corr) s = .next t ∧
      t.mem = s.mem ∧ t.written = s.written ∧ t.flight? id = none)

/-- O: ring administration commands on a started command. -/
def Obligations.RingCommandsComplete : Prop :=
  ∀ (s : State) (id : Nat) (f : Flight),
    (s.Started id 0x0100 f → s.Does (.nop id) (s.finish f 0)) ∧
    (s.Started id 0x0101 f → f.desc.mayName (f.desc.p0.bits 15 0) = true → (s.ring (f.desc.p0.bits 15 0)).owner = f.link → s.ringBusy (f.desc.p0.bits 15 0) = true →
      s.Does (.ringQuery id) (s.answer f (s.ringState (f.desc.p0.bits 15 0)))) ∧
    (s.Started id 0x0110 f → f.desc.mayName (f.desc.p0.bits 15 0) = true → (s.ring (f.desc.p0.bits 15 0)).en = true → (s.ring (f.desc.p0.bits 15 0)).owner = f.link →
      (s.ring (f.desc.p0.bits 15 0)).kind = .event →
      s.Does (.eventFilter id)
        ((s.setRing (f.desc.p0.bits 15 0) { s.ring (f.desc.p0.bits 15 0) with threshold := f.desc.p0.bits 18 16 }).finish f 0)) ∧
    (s.Started id 0x0130 f → (s.ring f.ring).en = true → (s.ring f.ring).halted = false →
      s.Does (.bufPost id) ((s.setRing f.ring { s.ring f.ring with posted := (s.ring f.ring).posted ++ [f.id] }).run f)) ∧
    (s.Started id 0x0120 f →
      s.Does (.alarmSummary id) (s.answer f ((List.range 33).flatMap fun k =>
        if s.hearsEvents f.link k then s.alarmEntry f.link k else [0, 0])))

/-- A ring that a link enables under R58 stands enabled for it at index 0 with the fields of the write. A write of
RING_EN 0 by the owner disables the ring: nothing more is fetched from it. -/
def Obligations.RingSwitching : Prop :=
  (∀ (s : State) (n : Fin 4) (r : Fin 65536) (v : Word),
     s.reach n = true → s.sec.rcvMode = false → v.bit 0 = true → s.boot.booted = true → (s.link n).dbAddr ≠ 0 →
     s.ringBusy r = false → s.mayEnable n (ringBlock r) (RingKind.ofCode (v.bits 3 1)) = true →
     v.bits 7 4 ≤ 10 → (s.ring r).addr ≠ 0 →
     ((RingKind.ofCode (v.bits 3 1)).hostMade = true → s.cqUsable n r (v.bits 23 8) = true) →
     (RingKind.ofCode (v.bits 3 1) = .event → ∀ m, ¬ ((s.ring m).kind = .event ∧ (s.ring m).en = true ∧
       (s.ring m).owner = n ∧ ringBlock m = ringBlock r)) →
     (∀ p ∈ s.rings, s.ring p.1 = p.2) →
     ∃ t, exec (.ringEnable n r v) s = .next t ∧
       t.ring r = { addr := (s.ring r).addr, en := true, kind := RingKind.ofCode (v.bits 3 1), size := v.bits 7 4,
                    cq := v.bits 23 8, vec := v.bits 34 24, modCnt := v.bits 59 56, modTime := v.bits 63 60, owner := n } ∧
       (∀ q, q ≠ r.val → t.ring q = s.ring q) ∧ (∀ c, (t.chan c).Same (s.chan c)) ∧ t.flights = s.flights ∧ t.kept = s.kept) ∧
  (∀ (s : State) (n : Fin 4) (r : Fin 65536) (v : Word),
     s.reach n = true → s.sec.rcvMode = false → v.bit 0 = false → s.boot.booted = true →
     (s.ring r).en = true → (s.ring r).owner = n → ((s.ring r).kind = .completion → s.feeders r = []) →
     ∃ t, exec (.ringDisable n r v) s = .next t ∧ (t.ring r).en = false ∧ t.fetchable r = false ∧ t.kept = s.kept)

/-- Doorbells, fetch, start and the rows of rings that run by themselves. -/
def Obligations.RingRowsComplete : Prop :=
  ∀ (s : State),
    (∀ (n : Fin 4) (v : Word), s.reach n = true → s.sec.rcvMode = false → (s.link n).dbAddr ≠ 0 → s.boot.running = true →
      s.Does (.nudgeGroup n v) (s.setLink n { s.link n with
        nudgeG := v.bits 9 0, nudgeCount := (s.link n).nudgeCount + 1, reads := addRead (v.bits 9 0) true (s.link n).reads })) ∧
    (∀ (n : Fin 4) (g : Fin 1024) (ws : List Word) (q : GroupRead), s.reach n = true → s.boot.running = true →
      (s.link n).reads.find? (fun q => q.group = g.val) = some q →
      s.Does (.doorbellReadDone n g ws) (s.doorbellRead n g q.nudged ws)) ∧
    (∀ (n : Fin 4) (due : Nat), s.reach n = true → s.boot.running = true → (s.link n).sweepDue = some due →
      s.Does (.doorbellSweep n) (((s.at due).onLink n fun l =>
        { l with sweepDue := some (due + l.sweepInt * 100000), sweepHit := false }).readAll n false)) ∧
    (∀ (r : Fin 65536) (d : Desc), s.nextToFetch r = true →
      ∃ t, exec (.descriptorFetch r d) s = .next t ∧ t.nextId = s.nextId + 1 ∧
        (∃ f, t.flights = s.flights ++ [f] ∧ f.id = s.nextId ∧ f.ring = r.val ∧ f.link = (s.ring r).owner ∧ f.desc = d ∧
          f.index = (s.ring r).head ∧ f.phase = .fetched) ∧
        (t.ring (s.ring r).cq).reserved = (s.ring (s.ring r).cq).reserved + 1) ∧
    (∀ (id : Nat) (f : Flight) (o : OpInfo), s.flights.find? (fun f => f.id = id && s.canStart f) = some f →
      opInfo f.desc.opcode = some o → o.wellFormed (s.ring f.ring).kind f.ring f.desc = true → s.targetAllowed f.link f.desc = true →
      s.mayRun f o = true →
      s.Does (.commandStart id) (s.onFlight f.id fun g => { g with
        phase := .started, owned := s.ownedBy f.link, primary := s.primary = f.link, rival := s.rivalFor f })) ∧
    (∀ (id : Nat) (f : Flight), s.flights.find? (fun f => f.id = id && s.canStart f && (opInfo f.desc.opcode).isNone) = some f →
      s.Does (.undefinedOpcode id) (s.finish f 0x01)) ∧
    (∀ (r : Fin 65536), s.reach (s.ring r).owner = true → (s.ring r).en = true → (s.ring r).halted = false →
      ∃ t, exec (.dmaError r) s = .next t ∧ (t.ring r).halted = true ∧ t.kept = s.kept) ∧
    (∀ (r : Fin 65536) (due : Nat), s.boot.powered = true → (s.ring r).en = true → (s.ring r).modDue = some due →
      ∃ t, exec (.moderationTimer r) s = .next t ∧ (t.ring r).unsignalled = 0 ∧ (t.ring r).modDue = none ∧
        s.now ≤ t.now ∧ due ≤ t.now ∧
        (((s.link (s.ring r).owner).msix.get {} (s.ring r).vec).masked = false →
          Output.interrupt (s.ring r).owner (s.ring r).vec ∈ t.out)) ∧
    (∀ (source : Fin 33) (us : Nat), s.boot.powered = true → s.batchUs source = some us → s.batchWaits source us = false →
      s.Does (.eventBatchWrite source) (s.writeBatch source us))

/-- Register writes and reads with an effect, the arbiter, and a function-level reset. That a read of any width at byte offset 0 or 1
of ARB_STAT clears ARB_WAIT_MAX is the model's own choice (log 136). -/
def Obligations.HostPortComplete : Prop :=
  ∀ (s : State) (n : Fin 4),
    (∀ (i : Fin 36) (v : Word), s.reach n = true → s.sec.rcvMode = false →
      s.Does (.arbPrioWrite n i v) (s.setLink n { s.link n with arb := (s.link n).arb.write i v })) ∧
    (∀ (x : ArbRead), s.reach n = true → s.sec.rcvMode = false →
      ∃ t, exec (.arbStatRead n x) s = .next t ∧
        t.out = .readData n (addressed x (BitVec.ofNat 64 ((s.link n).arb.req x.req).waitMax)) :: s.out ∧
        (x.ofs.val < 2 → (s.link n).arb.reqs.length = 36 → ((t.link n).arb.req x.req).waitMax = 0)) ∧
    (∀ (v : Word), s.reach 0 = true → s.sec.rcvMode = true → s.sec.rcvBusy = false → v.bit 63 = true →
      ∃ t, exec (.rcvGo v) s = .next t ∧ t.sec.rcvBusy = true ∧ t.sec.rcvLen = v.bits 24 0 ∧ t.kept = s.kept) ∧
    (∀ (off : Nat) (v : Word), s.reach n = true → off % 8 = 0 →
      s.Does (.registerWrite n 0 off 8 v) (s.bar0Write n off v)) ∧
    (∀ (a : Word), s.reach n = true → s.Does (.unsupportedRequest n a) (s.emit (.unsupportedRequest n))) ∧
    (s.reach n = true → s.Does (.functionLevelReset n) (s.functionReset n)) ∧
    (∀ (x : GrantIn), s.reach n = true → ((s.link n).configured x).grantOver x = true →
      s.Does (.arbiterDecision n x) (s.setLink n { (s.link n).configured x with arb := (s.link n).arb.decide x.asks }))

/-- What a register reads after it has been written: LNK_CTL, NUDGE_DB_BASE while no ring of the link is enabled,
NUDGE_SWEEP, and RING_BASE of a ring that is not busy; a narrower write is discarded (R40). -/
def Obligations.RegistersReadBack : Prop :=
  ∀ (s : State) (n : Fin 4) (v : Word), s.reach n = true → s.sec.rcvMode = false →
    (∃ t, exec (.registerWrite n 0 0x0008 8 v) s = .next t ∧
      (1 ≤ v.bits 6 0 → v.bits 6 0 ≤ 100 → 1 ≤ v.bits 9 8 →
        t.bar0Read n 0x0008 = mkWord [(0, 7, v.bits 6 0), (8, 2, v.bits 9 8)])) ∧
    (∃ t, exec (.registerWrite n 0 0x1000 8 v) s = .next t ∧
      ((∀ p ∈ s.rings, ¬ (p.2.en = true ∧ p.2.owner = n)) → t.bar0Read n 0x1000 = mkWord [(12, 52, v.bits 63 12)])) ∧
    (∃ t, exec (.registerWrite n 0 0x1010 8 v) s = .next t ∧
      t.bar0Read n 0x1010 = mkWord [(0, 16, if v.bits 15 0 = 0 then (s.link n).sweepInt else v.bits 15 0)]) ∧
    (∀ r : Fin 65536, s.boot.booted = true → s.ringBusy r = false →
      ∃ t, exec (.registerWrite n 0 (0x100000 + 16 * r.val) 8 v) s = .next t ∧
        t.bar0Read n (0x100000 + 16 * r.val) = mkWord [(12, 52, v.bits 63 12)]) ∧
    (∀ (off width : Nat), width ≠ 8 → s.Does (.registerWrite n 0 off width v) s)

/-- Supply, resets, boot, recovery and the host links. PERST#, training, recovery and the link-down limit of one host
link. -/
def Obligations.StartupComplete : Prop :=
  (∀ (s : State),
     (∀ (split : Fin 4) (l : Bool) (perst : BitVec 4), s.boot.powered = false →
       ∃ t, exec (.powerOn split l perst) s = .next t ∧ t.now = 0 ∧ t.boot.powered = true ∧ t.boot.booted = false ∧
         t.boot.cfgSplit = split.val ∧ t.boot.laserOffN = l ∧ t.flights = [] ∧ t.rings = [] ∧ t.mem = [] ∧
         (∀ c, (t.chan c).pw.level = .dark) ∧ t.part = s.part ∧ t.powerHours = s.powerHours ∧
         t.sec.ledger = s.sec.ledger ∧ t.sec.floor = s.sec.floor ∧ t.sec.kek = none) ∧
     exec .supplyDip s = .next s ∧
     (s.boot.powered = true → ∃ t, exec (.supplyLossShutdown []) s = .next t ∧ t.boot.powered = false ∧ t.flights = [] ∧
       t.rings = [] ∧ t.part = s.part ∧ t.sec.ledger = s.sec.ledger ∧ (∀ c, (t.chan c).pw.level = .dark)) ∧
     (s.boot.powered = true → ∃ t, exec (.modReset []) s = .next t ∧ t.boot.powered = true ∧ t.boot.booted = false ∧
       t.now = s.now ∧ t.flights = [] ∧ t.rings = [] ∧ t.part = s.part ∧ t.shore.address = s.shore.address ∧
       t.shore.laserOff = s.shore.laserOff ∧ t.tm.oscWarm = s.tm.oscWarm ∧ (∀ c, (t.chan c).pw.level = .dark)) ∧
     (s.boot.powered = true → s.boot.booted = false → s.sec.rcvMode = false → ∀ b, s.sec.trialRule.bootSlot = some b →
       ∃ t, exec .bootDone s = .next t ∧ t.boot.booted = true ∧ t.boot.running = true ∧ t.sec.runB = b) ∧
     (s.boot.powered = true → s.boot.booted = false → s.sec.rcvMode = false → s.sec.trialRule.bootSlot = none →
       ∃ t, exec .bootFailedRecovery s = .next t ∧ t.sec.rcvMode = true ∧ t.boot.booted = false ∧
         s.boot.originNs + 6000000000 ≤ t.now ∧ ∀ n, (t.link n).trained = (s.link n).trained) ∧
     (∀ bs : List Byte, s.boot.powered = true → s.sec.rcvMode = true → s.sec.rcvBusy = true → bs.length = s.sec.rcvLen →
       s.now ≤ s.sec.rcvGoNs + 120000000000 →
       ∃ t, exec (.recoveryDone (some bs) []) s = .next t ∧
         if s.sec.recoveryErr bs = 0 then
           t.sec.slotA = some (imageOf bs) ∧ t.sec.prefB = false ∧ t.sec.trial = false ∧ t.sec.rcvMode = false ∧
             t.boot.booted = false
         else t.sec.slotA = none ∧ t.sec.rcvBusy = false ∧ t.sec.rcvErr = s.sec.recoveryErr bs ∧ t.sec.rcvMode = true) ∧
     (s.boot.powered = true → s.boot.booted = true → s.boot.released = false →
       ∃ t, exec .staggerRelease s = .next t ∧ t.boot.released = true ∧ t.now = max s.now s.releaseAt) ∧
     (s.boot.powered = true → s.boot.booted = true → s.boot.restarting = false →
       ∃ t, exec .lighthouseRestart s = .next t ∧ t.boot.running = false ∧ t.boot.restarting = true ∧
         ∀ c, (t.chan c).Same (s.chan c)) ∧
     (∀ b, s.boot.powered = true → s.boot.restarting = true → s.sec.bootSlot = some b →
       ∃ t, exec .lighthouseRestartEnd s = .next t ∧ t.boot.running = true ∧ t.boot.restarting = false ∧ t.sec.runB = b) ∧
     (s.boot.powered = true → ∃ t, exec .thermalShutdown s = .next t ∧ t.boot.hot = true ∧
       ∀ c, c < 32 → (s.chan c).bu.step ≠ 0 → (t.chan c).pw.transit = .enteringDark) ∧
     (s.boot.powered = true → ∃ t, exec .poweredHour s = .next t ∧ t.powerHours = s.powerHours + 1 ∧
       t.hourDue = s.hourDue + 3600000000000)) ∧
  (∀ (s : State) (n : Fin 4), s.boot.powered = true →
     (s.linkPresent n = true → (s.link n).perst = false →
       ∃ t, exec (.perstAssert n) s = .next t ∧ (t.link n).perst = true ∧ (t.link n).trained = false ∧
         (t.link n).downLimit = 10 ∧ (t.link n).speedMax = 3 ∧ (t.link n).arb = { prev := (s.link n).arb.prev } ∧
         (∀ k, k ≠ n.val → t.link k = s.link k) ∧ (∀ c, c < 32 → (t.chan c).tribs = (s.chan c).tribs)) ∧
     (s.linkPresent n = true → (s.link n).perst = true →
       s.Does (.perstDeassert n) (s.setLink n { s.link n with perst := false })) ∧
     (∀ (v : Fin 4) (w : Fin 17), s.linkPresent n = true → (s.link n).perst = false → (s.link n).trained = false →
       s.boot.released = true → s.trains n v w = true →
       s.Does (.linkTrained n v w) (s.setLink n { s.link n with
         trained := true, recovery := false, down := false, exceeded := false, speed := v, width := w })) ∧
     (∀ down, (s.link n).trained = true → (s.link n).recovery = false →
       ∃ t, exec (.linkRecoveryEntry ⟨n, down⟩) s = .next t ∧ (t.link n).recovery = true ∧ (t.link n).down = down ∧
         (t.link n).recoveryFrom = s.now ∧ (t.link n).recovCount = min 65535 ((s.link n).recovCount + 1) ∧
         t.reach n = false ∧ t.flights = s.flights ∧ (down = false → (t.link n).arb = (s.link n).arb) ∧
         (down = true → (t.link n).arb = (s.link n).arb.idle)) ∧
     ((s.link n).trained = true → (s.link n).recovery = true → (s.link n).down = false →
       ∃ t, exec (.linkRecoveryEntry ⟨n, true⟩) s = .next t ∧ (t.link n).recovery = true ∧ (t.link n).down = true ∧
         (t.link n).recoveryFrom = (s.link n).recoveryFrom ∧ (t.link n).recovCount = (s.link n).recovCount ∧
         (t.link n).arb = (s.link n).arb.idle) ∧
     (∀ (v : Fin 4) (w : Fin 17), (s.link n).trained = true → (s.link n).recovery = true →
       ((s.link n).down = true → s.trains n v w = true) →
       ∃ t, exec (.linkUp ⟨n, v, w⟩) s = .next t ∧ (t.link n).recovery = false ∧ (t.link n).deferred = [] ∧ t.reach n = true ∧
         ((s.link n).down = true → (t.link n).speed = v ∧ (t.link n).width = w) ∧
         ((s.link n).down = false → (t.link n).speed = (s.link n).speed ∧ (t.link n).width = (s.link n).width)) ∧
     ((s.link n).recovery = true → (s.link n).exceeded = false →
       ∃ t, exec (.linkDownLimitExpiry n) s = .next t ∧ (t.link n).exceeded = true ∧
         (s.link n).recoveryFrom + (s.link n).downLimit * 10000000 < t.now ∧
         ∀ r, r < 65536 → (s.ring r).en = true → (s.ring r).owner = n → (r, s.ring r) ∈ s.rings →
           (t.ring r).halted = true))

/-- The partition record's commands (03), and the ledger entry that puts a new record or a new floor in force. -/
def Obligations.PartitionCommandsComplete : Prop :=
  ∀ (s : State) (id : Nat) (f : Flight),
    (s.Started id 0x0200 f → s.Does (.partQuery id) (s.answer f s.part.words)) ∧
    (s.Started id 0x0201 f → ∀ n, n = min (s.entriesOf 2).length (f.desc.bufLen / 32) →
      s.Does (.partHistory id)
        (s.answer f (((s.entriesOf 2).take n).flatMap LedgerEntry.words) (some n) (some (s.entriesOf 2).length))) ∧
    (∀ ws, s.Started id 0x0210 f → s.partRefusal f ws = 0 →
      ∃ t, exec (.partChange id ws) s = .next t ∧ t.part = s.part ∧
        t.sec.ledgerWrites = s.sec.ledgerWrites ++ [.partition id (Partition.ofWords ws (s.part.seq + 1))] ∧
        (∀ g ∈ t.flights, g.id = f.id → g.phase = .running)) ∧
    (∀ p, s.boot.powered = true → s.sec.ledgerWrites.find? (fun w => w.id = id) = some (.partition id p) →
      s.flight? id = some f →
      ∃ t, exec (.ledgerWriteDone id) s = .next t ∧ t.part = p ∧ (∀ w ∈ t.sec.ledgerWrites, w.id ≠ id) ∧
        t.sec.ledger = s.sec.ledger ++ [s.partLedger f.link p] ∧ t.flight? id = none ∧
        (∀ c, (t.chan c).tribs = (s.chan c).tribs ∧ (t.chan c).pw = (s.chan c).pw)) ∧
    (∀ v, s.boot.powered = true → s.sec.ledgerWrites.find? (fun w => w.id = id) = some (.floor id v) → s.flight? id = some f →
      s.sec.floor < v →
      ∃ t, exec (.ledgerWriteDone id) s = .next t ∧ t.sec.floor = v ∧ t.sec.ledger.length = s.sec.ledger.length + 1 ∧
        (∀ i, t.sec.slotA = some i → v ≤ i.svn) ∧ (∀ i, t.sec.slotB = some i → v ≤ i.svn) ∧ t.flight? id = none ∧
        t.part = s.part)

/-- Identity, firmware and random bits (20). The rows of the random bit generator and its entropy source. -/
def Obligations.SecurityComplete : Prop :=
  (∀ (s : State) (id : Nat) (f : Flight),
     (s.Started id 0x1A00 f →
       s.Does (.idCertRead id) ((s.writeBuf f 0 certificate).finish f 0 (some certificate.length))) ∧
     (∀ nonce, s.Started id 0x1A01 f → s.Does (.attestReport id nonce)
       (((s.draw).writeBuf f 32 (wordsBytes (s.attestBody nonce) ++ identitySign s.free (wordsBytes (s.attestBody nonce)))).finish f 0)) ∧
     (s.Started id 0x1A02 f → ∀ n, n = min s.sec.ledger.length (f.desc.bufLen / 32) →
       s.Does (.ledgerRead id)
         (s.answer f ((s.sec.ledger.take n).flatMap LedgerEntry.words) (some n) (some s.sec.ledger.length))) ∧
     (s.Started id 0x1A03 f → ∃ ws t, s.Does (.fwStatus id) t ∧ t = s.answer f ws ∧ ws.length = 4 ∧
       (wd ws 0).bit 0 = s.sec.runB ∧ (wd ws 0).bit 1 = s.sec.prefB ∧ (wd ws 0).bit 2 = s.sec.trial ∧
       (wd ws 0).bit 3 = s.sec.tried ∧ (wd ws 0).bits 63 32 = s.sec.kekGen.toNat ∧
       (s.sec.floor ≤ 64 → (wd ws 0).bits 12 6 = s.sec.floor ∧ (wd ws 0).bits 19 13 = 64 - s.sec.floor)) ∧
     (s.Started id 0x1A04 f → s.Does (.rngStatus id)
       (s.answer f [mkWord [(0, 1, bitOf s.sec.failing), (16, 16, s.sec.failures.toNat), (32, 32, s.sec.lastFail)], 0])) ∧
     (∀ bs, s.Started id 0x1A10 f → ∃ t, exec (.fwImageWrite id bs) s = .next t ∧ t.sec.standby = none ∧
       t.sec.running = s.sec.running ∧ t.sec.imageWrites = s.sec.imageWrites ++ [(id, bs.take f.desc.bufLen)]) ∧
     (∀ i, s.Started id 0x1A11 f → s.sec.standby = some i → s.sec.trial = false → s.allDark = true →
       ∃ t, exec (.fwActivate id) s = .next t ∧ t.sec.prefB = !s.sec.runB ∧ t.sec.trial = true ∧ t.sec.tried = false ∧
         t.sec.activate = some id ∧ t.boot.running = false) ∧
     (s.Started id 0x1A12 f → s.sec.trial = true →
       s.Does (.fwConfirm id) (({ s with sec := { s.sec with trial := false } } : State).finish f 0)) ∧
     (s.Started id 0x1A13 f → s.sec.floorRefusal (f.desc.p0.bits 6 0) = 0 →
       ∃ t, exec (.fwFloorRaise id) s = .next t ∧ t.sec.floor = s.sec.floor ∧
         t.sec.ledgerWrites = s.sec.ledgerWrites ++ [.floor id (f.desc.p0.bits 6 0)]) ∧
     (∀ bs, s.Started id 0x1A14 f → 64 ≤ bs.length → s.canDraw = true →
       Crypto.onCurve (beNat (bs.take 32)) (beNat ((bs.take 64).drop 32)) = true →
       ∃ t, exec (.kekEstablish id bs) s = .next t ∧ t.sec.kek.isSome = true ∧ t.sec.kekGen = s.sec.kekGen + 1 ∧
         t.jobKeys = s.jobKeys ∧ ∀ c, (t.chan c).cx = (s.chan c).cx) ∧
     (∀ bs, s.boot.powered = true → s.sec.imageWrites.find? (fun q => q.1 = id) = some (id, bs) →
       ∃ t, exec (.imageWriteDone id) s = .next t ∧ t.sec.running = s.sec.running ∧
         t.sec.standby = if s.sec.imageStatus bs = 0 then some (imageOf bs) else s.sec.standby)) ∧
  (∀ (s : State), s.boot.powered = true →
     (∀ raw r, s.sec.failing = false → healthFailure raw = some r →
       ∃ t, exec (.entropyHealthFailure raw) s = .next t ∧ t.sec.failing = true ∧
       t.sec.failures = s.sec.failures + 1 ∧ t.sec.lastFail = s.sec' ∧
       ∃ e ∈ t.batch, e.source = 32 ∧ e.code = 0x1A24 ∧ e.severity = 3 ∧ e.detail0 = BitVec.ofNat 64 (bitOf r)) ∧
     (∀ raw, s.sec.failing = true → healthFailure raw = none →
       ∃ t, exec (.entropyStartupTest raw) s = .next t ∧ t.sec.failing = false ∧ s.sec.testDue ≤ t.now ∧
       ∃ e ∈ t.batch, e.source = 32 ∧ e.code = 0x1A25 ∧ e.severity = 1) ∧
     (∀ raw r, s.sec.failing = true → healthFailure raw = some r →
       ∃ t, exec (.entropyStartupTest raw) s = .next t ∧ t.sec.failing = true ∧
         t.sec.testDue = s.sec.testDue + 1000000000) ∧
     (∀ raw, s.sec.failing = false → s.sec.tested = false → healthFailure raw = none →
       ∃ t, exec (.entropyStartupTest raw) s = .next t ∧ t.sec.tested = true ∧ t.sec.drbg = true ∧ t.canDraw = true ∧
         t.sec.requests = 0 ∧ t.sec.failing = false ∧ s.sec.testDue ≤ t.now) ∧
     (s.sec.tested = true → s.sec.failing = false →
       ∃ t, exec .drbgReseed s = .next t ∧ t.sec.drbg = true ∧ t.sec.requests = 0 ∧ t.canDraw = true) ∧
     (s.sec.tested = true → s.sec.failing = true →
       ∃ t, exec .drbgReseed s = .next t ∧ t.sec.drbg = false ∧ t.canDraw = false))

/-- Tributary contexts: provisioning, changes, enabling, deletion, queries, failure and recovery (06 R103 to R107,
R114, R121, R140). That a query of a Free context answers its zeros is the model's inference (log 6). -/
def Obligations.TributaryCommandsComplete : Prop :=
  ∀ (s : State) (id i : Nat) (f : Flight), f.desc.tribIndex = some i →
    (∀ ws x, s.Started id 0x1000 f → x = Trib.ofWords ws → tribClear ws = true → (wd ws 0).bits 11 0 = i →
      s.fieldsOk (i / 96) x = true → (s.trib i).state = .free →
      withinBounds (s.stated i x).1 (s.stated i x).2 x = true →
      ∃ t, exec (.tribProvision id ws) s = .next t ∧ t.flight? f.id = none ∧ (t.trib i).nomRate = (wd ws 0).bits 63 32 ∧
        (t.trib i).state ≠ .free ∧ ((t.trib i).txLat, (t.trib i).rxLat) = s.stated i x ∧
        (t.trib i).shedRank = (wd ws 0).bits 31 24 ∧ (t.chan (i / 96)).cipher (i % 96) = {} ∧
        (t.chan (i / 96)).tf.latencyDue = true ∧ (∀ k, k ≠ i → t.trib k = s.trib k) ∧ t.kept = s.kept) ∧
    (∀ ws x, s.Started id 0x1001 f → x = Trib.ofWords ws → (s.trib i).state ≠ .free → tribClear ws = true →
      (wd ws 0).bits 11 0 = i → x.tolPpm ≤ 1000 → x.keeps (s.trib i) = true → s.bankPending (i / 96) = false →
      (0 < s.slotCountOf i false → rateFits x.nomRate x.tolPpm (s.slotCountOf i false) x.fixedStuff = true) →
      withinBounds (s.trib i).txLat (s.trib i).rxLat x = true →
      s.Does (.tribModify id ws) ((s.setTrib i { s.trib i with
        nomRate := x.nomRate, nextRate := x.nextRate, tolPpm := x.tolPpm, shedRank := x.shedRank,
        txBound := x.txBound, rxBound := x.rxBound }).finish f 0)) ∧
    (s.Started id 0x1002 f → f.desc.p1.bit 0 = true →
      ((s.trib i).state = .disabled →
        s.Does (.tribEnable id) ((s.setTrib i { s.trib i with state := .carrying }).finish f 0)) ∧
      ((s.trib i).state = .carrying ∨ (s.trib i).state = .failed → s.Does (.tribEnable id) (s.finish f 0))) ∧
    (s.Started id 0x1002 f → f.desc.p1.bit 0 = false → (s.trib i).state = .carrying ∨ (s.trib i).state = .failed →
      ((s.chan (i / 96)).tf.sending = true →
        s.Does (.tribDisable id) ((s.setTrib i { s.trib i with draining := (s.trib i).draining ++ [f.id] }).run f)) ∧
      ((s.chan (i / 96)).tf.sending = false →
        s.Does (.tribDisable id) ((s.setTrib i { s.trib i with state := .disabled }).finish f 0))) ∧
    (s.Started id 0x1003 f → s.named i = false →
      ∃ t, exec (.tribDelete id) s = .next t ∧ t.flight? f.id = none ∧ (t.chan (i / 96)).tf.latencyDue = true ∧
        ((s.chan (i / 96)).tribs.rising 0 = true → t.trib i = {}) ∧ (∀ k, k ≠ i → t.trib k = s.trib k)) ∧
    (s.Started id 0x1004 f → s.Does (.tribQuery id) (s.answer f (s.tribWords i))) ∧
    (s.Started id 0x1005 f → s.Does (.tribCounters id) (s.answer f (s.trib i).counterWords)) ∧
    (∀ bytes, s.Started id 0x1006 f →
      bytes = ((s.chan f.desc.target).shedOrder.map (96 * f.desc.target + ·) ++ [0xFFFF]).flatMap (leBytes 2) →
      (bytes.length ≤ f.desc.bufLen → s.Does (.tribShedList id) ((s.writeBuf f 0 bytes).finish f 0)) ∧
      (f.desc.bufLen < bytes.length → s.Does (.tribShedList id) (s.finish f 0x01)))

/-- The delivery promise's commands and the latency message (02 R21, R27, R28; 08 R192). That TRIB_LATENCY_QUERY of a Free context
answers its zeros is the model's inference (log 6). Failure and recovery of a
tributary move it between Carrying and Failed and raise events 0x1020 and 0x1021. -/
def Obligations.PromiseAndFailure : Prop :=
  (∀ (s : State) (id : Nat) (f : Flight),
     (∀ i, s.Started id 0x1010 f → f.desc.tribIndex = some i →
       ∃ t, exec (.tribLatencyQuery id) s = .next t ∧ t.flight? f.id = none ∧ (t.trib i) = { s.trib i with deviation := false } ∧
         (t.chan (i / 96)).kp.phaseReported = (s.chan (i / 96)).kp.phase ∧
         (f.orphan = false → f.desc.bufLen = 32 →
           Output.buffer f.link f.desc.bufAddr 0 (wordsBytes ((s.trib i).report i)) ∈ t.out) ∧ (∀ k, k ≠ i → t.trib k = s.trib k)) ∧
     (∀ ws, s.Started id 0x1011 f → f.desc.p0.bit 8 = false → s.releaseOk f.desc ws = true →
       ∃ t, exec (.tribPromiseRelease id ws) s = .next t ∧ t.flight? f.id = none ∧
         (∀ k, k < f.desc.p0.bits 6 0 → (t.trib (half ws k)).released = true ∧
           ((s.trib (half ws k)).released = false → (t.trib (half ws k)).txBound = 0 ∧ (t.trib (half ws k)).rxBound = 0)) ∧
         (∀ i, (∀ k, k < f.desc.p0.bits 6 0 → half ws k ≠ i) → t.trib i = s.trib i)) ∧
     (∀ ws, s.Started id 0x1011 f → f.desc.p0.bit 8 = true → s.releaseOk f.desc ws = true →
       ∃ t, exec (.tribPromiseReinstate id ws) s = .next t ∧ t.flight? f.id = none ∧
         (∀ k, k < f.desc.p0.bits 6 0 → (t.trib (half ws k)).released = false) ∧
         (∀ i, (∀ k, k < f.desc.p0.bits 6 0 → half ws k ≠ i) → t.trib i = s.trib i)) ∧
     (∀ c : Fin 32, s.boot.powered = true → (s.chan c).tf.sending = true →
       (s.chan c).tf.latencyDue = true ∨ 1024 ≤ (s.chan c).tf.latencyMf →
       ∃ t, exec (.latencyMessageDue c) s = .next t ∧ (t.chan c).tf.latencyDue = false ∧ (t.chan c).tf.latencyMf = 0 ∧
         ((s.chan c).locals ≠ [] → (t.chan c).tf.queue.head? = some { cmd := none, cls := 1, bytes := (s.chan c).latencyBytes }) ∧
         (t.chan c).tf.queue.filter (fun m => m.cls ≠ 1) = (s.chan c).tf.queue.filter (fun m => m.cls ≠ 1))) ∧
  (∀ (s : State) (i : Fin 3072), s.boot.powered = true →
     ((s.trib i).state = .carrying → 4 ≤ (s.trib i).failRun ∨ 4 ≤ (s.trib i).slipRun →
       ∃ t, exec (.tributaryFailed i) s = .next t ∧ (t.trib i).state = .failed ∧
         (t.trib i).cause = (if 4 ≤ (s.trib i).failRun then 1 else 5) ∧
         (∃ e ∈ t.batch, e.source = i.val / 96 ∧ e.code = 0x1020 ∧ e.severity = 3 ∧ e.detail0.bits 11 0 = i.val ∧
           e.detail0.bits 15 12 = (t.trib i).cause) ∧
         (∀ k, k ≠ i.val → t.trib k = s.trib k) ∧ t.kept = s.kept) ∧
     ((s.trib i).state = .failed → (s.trib i).stuck = false →
       4 ≤ (if (s.trib i).cause = 5 then (s.trib i).cleanRun else (s.trib i).passRun) →
       ∃ t, exec (.tributaryRecovered i) s = .next t ∧ (t.trib i).state = .carrying ∧
         (∃ e ∈ t.batch, e.source = i.val / 96 ∧ e.code = 0x1021 ∧ e.severity = 1 ∧ e.detail0.bits 11 0 = i.val) ∧
         (∀ k, k ≠ i.val → t.trib k = s.trib k) ∧ t.kept = s.kept))

/-- The slot table's commands: a legal write leaves each entry as the buffer gives it and no other entry changed (06
R124, R125, R140). -/
def Obligations.SlotTableCommandsComplete : Prop :=
  ∀ (s : State) (id : Nat) (f : Flight) (first n : Nat) (b : Bool), f.desc.slotRange = (first, n, b) →
    (∀ ws, s.Started id 0x1100 f → s.rangeOk f.desc = true → (∀ k, k < n → half ws k < 8192) →
      (f.desc.target < 32 → s.groupOf f.desc.target = none) →
      (f.desc.target = 32 → f.rightsTo (rangeChans first n) = true) →
      (∀ c ∈ rangeChans first n, s.bankWritable c b = true ∧ s.slotsLocked c = false) →
      (∀ c, ((s.chan c).sl.bank b).rising 0 = true) →
      ∃ t, exec (.slotWrite id ws) s = .next t ∧ t.flight? f.id = none ∧
        (∀ k, k < n → (t.chan ((first + k) / 1600)).sl.entry b ((first + k) % 1600) = BitVec.ofNat 16 (half ws k)) ∧
        (∀ q, q < first ∨ first + n ≤ q → (t.chan (q / 1600)).sl.entry b (q % 1600) = (s.chan (q / 1600)).sl.entry b (q % 1600)) ∧
        (∀ c, (t.chan c).sl.bank (!b) = (s.chan c).sl.bank (!b)) ∧ t.kept = s.kept) ∧
    (s.Started id 0x1101 f → s.rangeOk f.desc = true →
      (f.desc.target = 32 → f.rightsTo (rangeChans first n) = true) →
      s.Does (.slotRead id) ((s.writeBuf f 0 ((List.range n).flatMap fun k =>
        leBytes 2 ((s.chan ((first + k) / 1600)).sl.entry b ((first + k) % 1600)).toNat)).finish f 0)) ∧
    (s.Started id 0x1102 f → s.slotsLocked f.desc.target = false →
      ∃ t, exec (.slotCopy id) s = .next t ∧ t.flight? f.id = none ∧
        (t.chan f.desc.target).sl.bank (!(s.chan f.desc.target).sl.activeB) =
          (s.chan f.desc.target).sl.bank (s.chan f.desc.target).sl.activeB ∧
        (t.chan f.desc.target).sl.bank (s.chan f.desc.target).sl.activeB =
          (s.chan f.desc.target).sl.bank (s.chan f.desc.target).sl.activeB ∧
        (t.chan f.desc.target).sl.activeB = (s.chan f.desc.target).sl.activeB ∧
        (∀ c, c ≠ f.desc.target → (t.chan c).Same (s.chan c)))

/-- Proposing, arming and disarming a bank switch, and its status (06 R126, R127, R137). Concatenated groups are made,
dissolved, reported and realigned (06 R133, R135, R138). A GROUP_QUERY of a group that does not exist (log 84) and the checksum of
BANK_STATUS over a whole group (log 125) are the model's own. -/
def Obligations.SwitchesAndGroupsComplete : Prop :=
  (∀ (s : State) (id : Nat) (f : Flight) (c : Nat), s.switchAnchor f.desc = some c →
     (∀ lead, s.Started id 0x1110 f → f.desc.bankLead = some lead → (s.chan c).pm.mode ≠ .leaf →
       (f.desc.switchGroup.isSome = true → f.rightsTo (s.switchers c f.desc.switchGroup) = true) →
       (∀ m ∈ s.switchers c f.desc.switchGroup, s.switchBusy m = false) →
       s.standbyStatus (s.switchers c f.desc.switchGroup) = 0 →
       ∃ t p, exec (.bankSwitch id) s = .next t ∧ (t.chan c).sl.proposal = some p ∧ p.id = some f.id ∧
         p.mI = s.switchCount c f.desc.switchGroup + BitVec.ofNat 32 lead ∧
         p.crc = s.standbyCrc (s.switchers c f.desc.switchGroup) ∧ p.group = f.desc.switchGroup ∧ p.switched = none ∧
         (t.chan c).sl.activeB = (s.chan c).sl.activeB ∧ (t.chan c).tribs = (s.chan c).tribs) ∧
     (s.Started id 0x1111 f → f.desc.p0.bit 0 = true →
       (f.desc.switchGroup.isSome = true → f.rightsTo (s.switchers c f.desc.switchGroup) = true) →
       (∀ m ∈ s.switchers c f.desc.switchGroup, s.switchBusy m = false) →
       s.standbyStatus (s.switchers c f.desc.switchGroup) = 0 →
       BitVec.ofNat 32 (f.desc.p1.bits 31 0) = s.standbyCrc (s.switchers c f.desc.switchGroup) →
       ∃ t, exec (.bankArm id) s = .next t ∧ t.flight? f.id = none ∧
         ∀ m ∈ s.switchers c f.desc.switchGroup, (t.chan m).sl.armed = some (BitVec.ofNat 32 (f.desc.p1.bits 31 0)) ∧
           (t.chan m).sl.armGroup = f.desc.switchGroup ∧ (t.chan m).sl.bankA = (s.chan m).sl.bankA ∧
           (t.chan m).sl.bankB = (s.chan m).sl.bankB) ∧
     (s.Started id 0x1111 f → f.desc.p0.bit 0 = false →
       (f.desc.switchGroup.isSome = true → f.rightsTo (s.switchers c f.desc.switchGroup) = true) →
       (s.chan c).sl.agreement = none →
       ∃ t, exec (.bankDisarm id) s = .next t ∧ t.flight? f.id = none ∧
         ∀ m ∈ s.switchers c f.desc.switchGroup, (t.chan m).sl.armed = none) ∧
     (s.Started id 0x1112 f → ∃ ws, s.Does (.bankStatus id) (s.answer f ws) ∧ ws.length = 4 ∧
       (wd ws 0).bit 0 = (s.chan f.desc.target).sl.activeB ∧ (wd ws 0).bit 1 = (s.chan f.desc.target).rf.bank ∧
       (wd ws 0).bits 63 32 = (s.standbyCrc (s.switchers f.desc.target (s.groupOf f.desc.target))).toNat)) ∧
  (∀ (s : State) (id : Nat) (f : Flight) (g : Nat), g = f.desc.p0.bits 2 0 →
     (∀ m, s.Started id 0x1120 f → m = BitVec.ofNat 32 (f.desc.p1.bits 31 0) → (s.group g).members = 0 →
       2 ≤ (membersOf m).length → (membersOf m).length ≤ 8 → f.desc.p2.bits 14 0 ≤ 20000 →
       (∀ c ∈ membersOf m, s.groupOf c = none ∧ (s.chan c).pm.mode = .pointToPoint ∧ (s.chan c).bu.timing = 0 ∧
         (s.chan c).usedEntry = false) → f.rightsTo (membersOf m) = true →
       (f.desc.p2.bits 14 0 ≠ 0 → ∀ a, anchorOf m = some a → s.groupPromise a g = false) →
       ∃ t a, exec (.groupCreate id) s = .next t ∧ anchorOf m = some a ∧ (t.group g).members = m ∧
         (t.group g).budget = f.desc.p2.bits 14 0 ∧ (t.group g).mfc = (s.chan a).tf.mfc ∧ t.flight? f.id = none ∧
         ∀ h, h ≠ g → t.group h = s.group h) ∧
     (s.Started id 0x1121 f → (s.group g).members ≠ 0 → f.rightsTo (membersOf (s.group g).members) = true →
       s.groupNamed g = false → ((s.group g).budget ≠ 0 → s.groupPromise ((anchorOf (s.group g).members).getD 0) g = false) →
       s.groups.rising 0 = true →
       ∃ t, exec (.groupDelete id) s = .next t ∧ (t.group g).members = 0 ∧ t.flight? f.id = none ∧
         ∀ h, h ≠ g → t.group h = s.group h) ∧
     (s.Started id 0x1122 f → f.rightsTo (membersOf (s.group g).members) = true →
       s.Does (.groupQuery id) (s.answer f (s.groupWords g))) ∧
     (∀ c ∈ membersOf (s.group g).members, s.Started id 0x1123 f → (s.chan c).rf.state = .inFrame →
       (s.group g).marked.getLsbD c = true →
       f.rightsTo (membersOf (s.group g).members) = true →
       ∃ t, exec (.groupRealign id) s = .next t ∧ t.flight? f.id = none ∧ (t.group g).aligned = true ∧
         ∃ e ∈ t.batch, e.code = 0x1121 ∧ e.source = (anchorOf (s.group g).members).getD 0))

/-- The memory commands (17 R389 to R401). The scrubber's visit, and the switch of a retired unit to its spare (17
R390, R391, R398, R399). -/
def Obligations.MemoryComplete : Prop :=
  (∀ (s : State) (id : Nat) (f : Flight),
     (s.Started id 0x1800 f → f.desc.addr % 8 = 0 → f.desc.len % 8 = 0 → windowStatus f.link f.desc.addr f.desc.len = 0 →
       s.Does (.memFill id) (s.run f)) ∧
     (s.Started id 0x1801 f → f.desc.addr % 8 = 0 → f.desc.len % 8 = 0 → f.desc.len ≠ 0 →
       inside f.desc.addr f.desc.len (sramBase f.desc.target) (sramSize f.desc.target) = true →
       (f.desc.target < 32 ∨ f.primary = true ∨ windowStatus f.link f.desc.addr f.desc.len = 0) →
       s.Does (.memScan id) (s.run f)) ∧
     (∀ bs, s.Started id 0x1802 f → f.desc.len ≤ 1048576 → windowStatus f.link f.desc.addr f.desc.len = 0 →
       s.Does (.memCopyIn id bs) (({ s with copyIns := s.copyIns.insert id (bs.take f.desc.len) } : State).run f)) ∧
     (s.Started id 0x1803 f → f.desc.len ≤ 1048576 → windowStatus f.link f.desc.addr f.desc.len = 0 →
       s.Does (.memCopyOut id) (s.run f)) ∧
     (s.Started id 0x1810 f → 1 ≤ f.desc.p0.bits 16 0 → f.desc.p0.bits 16 0 ≤ 86400 →
       s.Does (.memScrubConfig id)
         ((s.setSram f.desc.target { s.sram f.desc.target with sweep := f.desc.p0.bits 16 0 }).finish f 0)) ∧
     (s.Started id 0x1811 f → s.Does (.memStatus id) (s.answer f (s.memStatus f.desc.target))) ∧
     (∀ es, s.Started id 0x1812 f → es = (s.sram f.desc.target).reef.take (f.desc.bufLen / 16) →
       s.Does (.memReefRead id) (s.answer f (es.flatMap Reef.words) (some es.length))) ∧
     (∀ bytes, s.Started id 0x1821 f → bytes = wordsBytes (s.retireList.flatMap fun e =>
         [mkWord [(0, 32, e.1), (32, 1, bitOf e.2.1)], mkWord [(0, 24, e.2.2)]]) →
       (bytes.length ≤ f.desc.bufLen → s.Does (.memRetireList id) ((s.writeBuf f 0 bytes).finish f 0)) ∧
       (f.desc.bufLen < bytes.length → s.Does (.memRetireList id) (s.finish f 0x01))) ∧
     (∀ (k : Nat) (u : Unit_), s.Started id 0x1820 f → k = f.desc.target → u = { addr := f.desc.addr, bank := f.desc.p1.bit 0 } →
       u.addr % (if u.bank then 262144 else 4096) = 0 →
       inside u.addr (if u.bank then 262144 else 4096) (sramBase k) (sramSize k) = true →
       (∀ v ∈ (s.sram k).retired ++ (s.sram k).retiring.map (·.2), v ≠ u ∧ ¬ (v.bank = true ∧ v.holds u.addr = true)) →
       (s.sram k).used u.bank < (if u.bank then spareBanks k else sparePages k) →
       s.Does (.memRetire id) ((s.setSram k { s.sram k with retiring := (s.sram k).retiring ++ [(id, u)] }).run f))) ∧
  (∀ (s : State) (k : Fin 33),
     (s.scrubbing k = true → s.scrubSkip k 6145 (s.sram k).pos = (s.sram k).pos → (s.sram k).pos + 8 < sramSize k →
       (s.sram k).flaw (sramBase k + (s.sram k).pos) = .clean → s.scrubSkip k 6145 ((s.sram k).pos + 8) < sramSize k →
       ∃ t, exec (.scrubVisit k { bit := none } false) s = .next t ∧ (t.sram k).pos = (s.sram k).pos + 8 ∧
         (t.sram k).corrScrub = (s.sram k).corrScrub ∧ (t.sram k).reef = (s.sram k).reef ∧ t.kept = s.kept) ∧
     (∀ b : Fin 72, s.scrubbing k = true → s.scrubSkip k 6145 (s.sram k).pos = (s.sram k).pos →
       (s.sram k).pos + 8 < sramSize k →
       (s.sram k).flaw (sramBase k + (s.sram k).pos) = .clean → s.scrubSkip k 6145 ((s.sram k).pos + 8) < sramSize k →
       ∃ t, exec (.scrubVisit k { bit := some b } false) s = .next t ∧ (t.sram k).pos = (s.sram k).pos + 8 ∧
         (t.sram k).flaw (sramBase k + (s.sram k).pos) = .clean ∧
         (t.sram k).corrScrub = (s.sram k).corrScrub + 1 ∧ t.kept = s.kept) ∧
     (∀ (id : Nat) (u : Unit_), s.boot.powered = true → (s.sram k).retiring.head? = some (id, u) →
       ∃ t, exec (.retirementSwitch k) s = .next t ∧ u ∈ (t.sram k).retired ∧ (∀ q ∈ (t.sram k).retiring, q.1 ≠ id) ∧
         (u.addr, u.bank, s.powerHours) ∈ t.retireList ∧ t.flight? id = none ∧
         ∃ e ∈ t.batch, e.source = k.val ∧ e.code = 0x1843))

/-- Line cipher contexts and their keys (07 R145 to R157). What happens to keys by itself: usage, exhaustion,
automatic roll, erasure, and the mask generators (07 R143, R144, R150, R155 to R160). -/
def Obligations.CipherComplete : Prop :=
  (∀ (s : State) (id i : Nat) (f : Flight), s.cipherIndex f = some i →
     (∀ ws, s.Started id 0x1200 f → (wd ws 0).bits 15 14 = 0 → (wd ws 0).bits 63 48 = 0 → (∀ k, k < 7 → wd ws (k + 1) = 0) →
       (wd ws 0).bits 11 0 = i → (wd ws 0).bits 47 32 < (wd ws 0).bits 31 16 →
       ((wd ws 0).bit 12 = (s.cipherOf i).endId ∨ (s.cipherOf i).keyed = false) →
       s.Does (.cipherSetup id ws) ((s.clash i { s.cipherOf i with
         endId := (wd ws 0).bit 12, autoRoll := (wd ws 0).bit 13
         useLimit := (wd ws 0).bits 31 16, warnDist := (wd ws 0).bits 47 32
         warned := (s.cipherOf i).warned &&
           decide (((wd ws 0).bits 31 16 - (wd ws 0).bits 47 32) * 65536 ≤ (s.cipherOf i).curFrames) }).finish f 0)) ∧
     (s.Started id 0x1201 f → s.Does (.cipherQuery id) (s.answer f ((s.cipherOf i).words i s.now))) ∧
     (∀ bs key, s.Started id 0x1202 f → (byteWord bs 0).bit 12 = false → (byteWord bs 0).bits 11 0 = i →
       (s.cipherOf i).useLimit ≠ 0 → blobReservedClear bs = true → s.sec.unwrap bs = some key →
       (s.cipherOf i).lastEpoch ≠ 0xFFFFFF →
       (if (s.cipherOf i).lastEpoch = 0 then 1 ≤ (byteWord bs 0).bits 39 16
         else (byteWord bs 0).bits 39 16 = (s.cipherOf i).lastEpoch + 1) → (s.cipherOf i).slotsUsed < 2 →
       ∃ t k, exec (.keyLoad id bs) s = .next t ∧ k = { key := key, epoch := (byteWord bs 0).bits 39 16 } ∧
         (t.cipherOf i).lastEpoch = k.epoch ∧ t.flight? f.id = none ∧
         ((s.cipherOf i).current = none → (t.cipherOf i).current = some k ∧ (t.cipherOf i).next = (s.cipherOf i).next) ∧
         ((s.cipherOf i).current ≠ none → (t.cipherOf i).current = (s.cipherOf i).current ∧ (t.cipherOf i).next = some k) ∧
         (∀ j, j ≠ i → t.cipherOf j = s.cipherOf j)) ∧
     (s.Started id 0x1203 f → (s.cipherOf i).rollable s.now = true →
       s.Does (.keyRoll id) ((s.setCipherOf i { s.cipherOf i with rollCmds := (s.cipherOf i).rollCmds ++ [id] }).run f)) ∧
     (s.Started id 0x1204 f → ∃ t, exec (.keyErase id) s = .next t ∧ (t.cipherOf i).next = none ∧ t.flight? f.id = none ∧
       (f.desc.p0.bit 12 = true → (t.cipherOf i).keyed = false) ∧
       (f.desc.p0.bit 12 = false → (t.cipherOf i).current = (s.cipherOf i).current ∧
         (t.cipherOf i).retiring = (s.cipherOf i).retiring) ∧ (∀ j, j ≠ i → t.cipherOf j = s.cipherOf j)) ∧
     (s.Started id 0x1205 f → ∃ ws, s.Does (.cipherCounters id) (s.answer f ws) ∧ ws.length = 4 ∧
       (wd ws 0).bits 31 0 = (s.cipherOf i).authFail.toNat ∧ (wd ws 0).bits 63 32 = (s.cipherOf i).authFailErrored.toNat ∧
       (wd ws 1).bits 31 0 = (s.cipherOf i).noKeyTx.toNat ∧ (wd ws 1).bits 63 32 = (s.cipherOf i).noKeyRx.toNat ∧
       (wd ws 2).bits 31 0 = (s.cipherOf i).rolls.toNat)) ∧
  (∀ (s : State) (i : Fin 3072), s.boot.powered = true →
     (∀ k, (s.cipherOf i).current = some k → (s.cipherOf i).warnAt ≤ (s.cipherOf i).curFrames → (s.cipherOf i).warned = false →
       ∃ t, exec (.keyUsageWarning i) s = .next t ∧ (t.cipherOf i) = { s.cipherOf i with warned := true } ∧
         ∃ e ∈ t.batch, e.source = i.val / 96 ∧ e.code = 0x1250 ∧ e.severity = 2) ∧
     (∀ k, (s.cipherOf i).current = some k → 0 < (s.cipherOf i).useLimit →
       (s.cipherOf i).useLimit * 65536 ≤ (s.cipherOf i).curFrames →
       ∃ t, exec (.keyExhausted i) s = .next t ∧ (t.cipherOf i).current = none ∧ k ∈ (t.cipherOf i).retiring ∧
         (t.cipherOf i).next = (s.cipherOf i).next ∧ ∃ e ∈ t.batch, e.source = i.val / 96 ∧ e.code = 0x1251 ∧ e.severity = 4) ∧
     (∃ t, exec (.oldKeyErase i) s = .next t ∧ (t.cipherOf i).current = (s.cipherOf i).current ∧
       (t.cipherOf i).next = (s.cipherOf i).next ∧
       (∀ k, k ∈ (t.cipherOf i).retiring ↔ k ∈ (s.cipherOf i).retiring ∧ (s.cipherOf i).oldKeyDone k = false)) ∧
     (∀ k : Fin 32, s.sec.tested = true →
       ∃ t, exec (.maskReseed (k.castLE (by omega))) s = .next t ∧ (t.chan k).mask.failing = s.sec.failing ∧
       (s.sec.failing = true → (t.chan k).mask.key = (s.chan k).mask.key ∧ (t.chan k).mask.v = (s.chan k).mask.v) ∧
       (s.sec.failing = false → ∀ d, d = (s.chan k).mask.drbg.reseed (entropyOutput s.free 0) →
         (t.chan k).mask.key = BitVec.ofNat 256 (Crypto.beVal d.key) ∧ (t.chan k).mask.v = BitVec.ofNat 128 (Crypto.beVal d.v)) ∧
       (s.chan k).mask.due ≤ t.now ∧
       (t.chan k).mask.due = t.now + 1000000000 ∧
       (s.sec.failing = true → (s.chan k).mask.failing = false → ∃ e ∈ t.batch, e.source = k.val ∧ e.code = 0x1255)) ∧
     (s.sec.tested = true → ∃ t, exec (.maskReseed 32) s = .next t ∧ s.sec.jobMask.due ≤ t.now ∧ t.sec.jobMask.failing = s.sec.failing))

/-- Job keys and crypto jobs (07 R165 to R170). -/
def Obligations.CryptoJobsComplete : Prop :=
  ∀ (s : State) (id : Nat) (f : Flight),
    (∀ bs key, s.Started id 0x1210 f → f.desc.p0.bits 9 0 / 256 = f.link → (byteWord bs 0).bit 12 = true →
      (byteWord bs 0).bits 11 0 = f.desc.p0.bits 9 0 → (byteWord bs 0).bits 39 16 = 0 → blobReservedClear bs = true →
      s.sec.unwrap bs = some key → (∀ p ∈ s.jobKeys, p.1 ≠ f.desc.p0.bits 9 0) → s.canDraw = true →
      ∃ t k, exec (.jobKeyLoad id bs) s = .next t ∧ (f.desc.p0.bits 9 0, k) ∈ t.jobKeys ∧ k.key = key ∧ k.counter = 0 ∧
        k.used = 0 ∧ t.flight? f.id = none) ∧
    (s.Started id 0x1211 f → f.desc.p0.bits 9 0 / 256 = f.link → s.jobKeys.rising 0 = true →
      ∃ t, exec (.jobKeyErase id) s = .next t ∧ (∀ p ∈ t.jobKeys, p.1 ≠ f.desc.p0.bits 9 0) ∧ t.flight? f.id = none) ∧
    (∀ bs k, s.Started id 0x1230 f → f.desc.jobBad = false → f.desc.keySlot / 256 = f.link →
      s.jobKeys.find? (fun p => p.1 = f.desc.keySlot) = some (f.desc.keySlot, k) →
      (f.desc.jobDecrypts = false → k.used < 4294967296 ∧ (f.desc.jobMode < 2 → s.canDraw = true)) →
      ∃ t j, exec (.jobCipher id bs) s = .next t ∧ t.jobs = s.jobs ++ [j] ∧ j.id = f.id ∧ j.key = k.key ∧
        j.bytes = bs.take f.desc.bufLen ∧
        (f.desc.jobDecrypts = true → t.jobKeys = s.jobKeys ∧ j.v = BitVec.ofNat 96 (f.desc.p3.bits 31 0 * 2 ^ 64 + f.desc.p2.toNat)) ∧
        (f.desc.jobDecrypts = false → 2 ≤ f.desc.jobMode →
          j.v = BitVec.ofNat 96 (k.fixed.toNat * 2 ^ 64 + k.counter.toNat) ∧
          (t.jobKeys.get { key := 0, fixed := 0 } f.desc.keySlot).counter = k.counter + 1)) ∧
    (∀ j o, s.jobs.find? (fun j => j.id = id) = some j → s.flight? id = some f → j.output f.desc = some o → j.id = id →
      ∃ t, exec (.cryptoJobDone id) s = .next t ∧ t.flight? id = none ∧ (∀ q ∈ t.jobs, q.id ≠ id) ∧
        (f.orphan = false → Output.buffer f.link f.desc.p0 0 (Crypto.bytesOf o) ∈ t.out)) ∧
    (∀ j, s.jobs.find? (fun j => j.id = id) = some j → s.flight? id = some f → j.output f.desc = none → j.id = id →
      ∃ t, exec (.cryptoJobDone id) s = .next t ∧ t.flight? id = none ∧
        (f.orphan = false → Output.buffer f.link f.desc.p0 0 (List.replicate (f.desc.p1.bits 31 0) 0) ∈ t.out))

/-- The loading queries, plan and settings, and the FEC queries and alarm level (09 R217, R218; 10 R251). Alarms on
link quality, bit error ratio and uncorrectable runs (09 R214, R218; 10 R252). -/
def Obligations.LoadingComplete : Prop :=
  (∀ (s : State) (id c : Nat) (f : Flight), f.desc.target = c →
     (s.Started id 0x1301 f → s.Does (.loadQuery id) (s.answer f (s.chan c).loadQuery)) ∧
     (s.Started id 0x1302 f → s.Does (.loadQuality id) (s.answer f (s.chan c).loadQuality)) ∧
     (∀ set short stale, s.Started id 0x1303 f →
       (s.chan c).plan (if f.desc.p0.bits 7 0 = 0 then (s.chan c).age.target else f.desc.p0.bits 7 0) (f.desc.p0.bit 8)
         (if f.desc.p0.bits 19 9 = 0 then 1600 else f.desc.p0.bits 19 9) = some (set, short, stale) →
       s.Does (.loadPlan id) (s.answer f
         (List.replicate 8 0 ++ set.words (s.chan c).bu.params.rate (s.chan c).fec.rxOffshore)
         (some (((s.chan c).rxSlots set (s.chan c).fec.rxOffshore).getD 0 + 65536 * bitOf short + 131072 * bitOf stale)))) ∧
     (s.Started id 0x1304 f → ∃ t, exec (.loadConfig id) s = .next t ∧ (t.chan c).ld.farAccept = f.desc.p0.bit 0 ∧
       (t.chan c).ld.lqAlarm = signed 8 (f.desc.p0.bits 15 8) ∧ (f.desc.p0.bits 15 8 = 0 → (t.chan c).ld.lqRaised = false) ∧
       (t.chan c).ld.tx = (s.chan c).ld.tx ∧ (t.chan c).ld.rx = (s.chan c).ld.rx ∧ t.flight? f.id = none) ∧
     (s.Started id 0x14A1 f → s.Does (.fecStatus id) (s.answer f (s.chan c).fecStatus)) ∧
     (s.Started id 0x14A2 f → s.Does (.fecCounters id) (s.answer f (s.chan c).fec.counterWords)) ∧
     (s.Started id 0x14A3 f → ∃ t, exec (.fecAlarmSet id) s = .next t ∧
       (t.chan c).fec = { (s.chan c).fec with alarmLevel := f.desc.p0.bits 47 0 } ∧ t.flight? f.id = none ∧
       ∀ d, d ≠ c → (t.chan d).Same (s.chan d))) ∧
  (∀ (s : State) (c : Fin 32), s.boot.powered = true →
     ((s.chan c).ld.lqAlarm ≠ 0 → (s.chan c).ld.lqRaised = false → 4 ≤ (s.chan c).ld.lowRun →
       ∃ t, exec (.linkQualityAlarm c) s = .next t ∧ (t.chan c).ld.lqRaised = true ∧
         ∃ e ∈ t.batch, e.source = c.val ∧ e.code = 0x1323 ∧ e.detail0.bit 16 = true) ∧
     ((s.chan c).ld.lqAlarm ≠ 0 → (s.chan c).ld.lqRaised = true → 4 ≤ (s.chan c).ld.highRun →
       ∃ t, exec (.linkQualityAlarm c) s = .next t ∧ (t.chan c).ld.lqRaised = false ∧
         ∃ e ∈ t.batch, e.source = c.val ∧ e.code = 0x1323 ∧ e.detail0.bit 16 = false) ∧
     ((s.chan c).fec.alarmLevel ≠ 0 → (s.chan c).fec.alarm = false → 4 ≤ (s.chan c).fec.aboveRun →
       ∃ t, exec (.fecBerAlarm c) s = .next t ∧ (t.chan c).fec.alarm = true ∧
         ∃ e ∈ t.batch, e.source = c.val ∧ e.code = 0x14A1 ∧ e.severity = 2 ∧ e.detail0.bit 48 = true) ∧
     ((s.chan c).fec.uncorrRun = 256 → ∃ t, exec (.uncorrectableRun c) s = .next t ∧
         ∃ e ∈ t.batch, e.source = c.val ∧ e.code = 0x14A0 ∧ e.severity = 3 ∧ e.detail0.bits 15 0 = 256))

/-- A loading or profile change that passes its checks puts a proposal in the overhead: EXCH_SEQ one higher, switch
multiframe LEAD ahead, content as asked (09 R215; 10 R241, R249). -/
def Obligations.ChangeCommandsComplete : Prop :=
  ∀ (s : State) (id c lead : Nat) (f : Flight) (ws : List Word), f.desc.target = c →
    (s.Started id 0x1300 f → lxLead (f.desc.p0.bits 6 0) = some lead → requestClear ws = true → (s.chan c).pm.mode ≠ .hub →
      s.loadStatus c (requestContent ws) = 0 →
      ∃ t p, exec (.loadChange id ws) s = .next t ∧ (t.chan c).ld.proposal = some p ∧ p.id = some f.id ∧
        p.seq = (s.chan c).ld.seq + 1 ∧ p.mI = (s.chan c).tf.mfc + BitVec.ofNat 32 lead ∧ p.content = requestContent ws ∧
        p.accepted = none ∧ p.committed = false ∧ (t.chan c).ld.tx = (s.chan c).ld.tx ∧ (t.chan c).ld.rx = (s.chan c).ld.rx) ∧
    (∀ x, s.Started id 0x1300 f → lxLead (f.desc.p0.bits 6 0) = some lead → requestClear ws = true → (s.chan c).pm.mode = .hub →
      (requestContent ws).rev = none → (requestContent ws).fwd = some x → s.loadStatus c (requestContent ws) = 0 →
      (s.chan c).leafUnacquired x = false →
      ∃ t, exec (.loadChange id ws) s = .next t ∧
        (t.chan c).pm.downstream = some (some f.id, (s.chan c).tf.mfc + BitVec.ofNat 32 lead, x)) ∧
    (∀ y, s.Started id 0x14A0 f → lxLead (f.desc.p0.bits 14 8) = some lead → f.desc.bufAddr = 0 →
      f.desc.p0.bit 0 ≠ (s.chan c).fec.txOffshore → y = { fwd := none, rev := none, profile := some (f.desc.p0.bit 0) } →
      s.profileStatus c false (f.desc.p0.bit 0) y = 0 →
      ∃ t p, exec (.fecProfile id ws) s = .next t ∧ (t.chan c).ld.proposal = some p ∧ p.id = some f.id ∧ p.content = y ∧
        p.mI = (s.chan c).tf.mfc + BitVec.ofNat 32 lead ∧ (t.chan c).fec = (s.chan c).fec) ∧
    (s.Started id 0x14A0 f → lxLead (f.desc.p0.bits 14 8) = some lead → f.desc.bufAddr ≠ 0 → requestClear ws = true →
      f.desc.p0.bit 0 = (s.chan c).fec.txOffshore → (s.chan c).pm.mode ≠ .hub → s.loadStatus c (requestContent ws) = 0 →
      ∃ t p, exec (.fecProfile id ws) s = .next t ∧ (t.chan c).ld.proposal = some p ∧ p.id = some f.id ∧
        p.content = requestContent ws ∧ (t.chan c).fec = (s.chan c).fec)

/-- Calibration: settings, runs, windows, applied values, and queries (12 R279 to R292, R299). That the values of an initial run take
effect without waiting for the boundary of R284, and its grid in bring-up step 3 (log 121), and the response run (log 120) are the
model's own. -/
def Obligations.CalibrationComplete : Prop :=
  ∀ (s : State),
    (∀ (id c : Nat) (f : Flight), f.desc.target = c →
      (s.Started id 0x14C0 f → 1 ≤ f.desc.p0.bits 27 16 → f.desc.p0.bits 27 16 ≤ 3600 → 1 ≤ f.desc.p0.bits 43 32 →
        f.desc.p0.bits 43 32 ≤ 3600 →
        ∃ t, exec (.calConfig id) s = .next t ∧ (t.chan c).cal.rxTrack = f.desc.p0.bit 0 ∧
          (t.chan c).cal.txTrack = f.desc.p0.bit 1 ∧ (t.chan c).cal.rxInt = f.desc.p0.bits 27 16 ∧
          (t.chan c).cal.txInt = f.desc.p0.bits 43 32 ∧ t.flight? f.id = none ∧
          (f.desc.p0.bit 0 = false → (s.chan c).rx.state ≠ .calibration → (t.chan c).cal.rxRun = none) ∧ (t.chan c).cal.values = (s.chan c).cal.values) ∧
      (s.Started id 0x14C1 f → f.desc.p0.bit 0 = true → f.desc.p0.bit 1 = false → (s.chan c).calAllowed false = true →
        ∃ t, exec (.calRun id) s = .next t ∧ ((t.chan c).cal.rxRun).isSome = true ∧
          (∃ w ∈ (t.chan c).cal.waiters, w.id = f.id ∧ w.rx = true ∧ w.tx = false)) ∧
      (s.Started id 0x14C1 f → f.desc.p0.bit 0 = false → f.desc.p0.bit 1 = true → (s.chan c).calAllowed true = true →
        ∃ t, exec (.calRun id) s = .next t ∧ ((t.chan c).cal.txRun).isSome = true ∧
          (∃ w ∈ (t.chan c).cal.waiters, w.id = f.id ∧ w.rx = false ∧ w.tx = true)) ∧
      (s.Started id 0x14C2 f → s.Does (.calStatus id) (s.answer f ((s.chan c).cal.statusWords c))) ∧
      (s.Started id 0x14C3 f → s.Does (.calValues id)
        (s.answer f (calWords (if f.desc.p0.bit 0 then (s.chan c).cal.estimates else (s.chan c).cal.inForce c))))) ∧
    (∀ (c : Fin 32), s.boot.powered = true →
      ((s.chan c).cal.rxTrack = true → (s.chan c).calAllowed false = true → (s.chan c).cal.rxRun = none →
        ∃ t, exec (.calRunDue c false) s = .next t ∧ (t.chan c).cal.rxRun = some { initial := false } ∧
          (t.chan c).cal.txRun = (s.chan c).cal.txRun ∧ (s.chan c).cal.rxNext ≤ t.now) ∧
      (∀ (tx : Bool) (e : CalEstimate) (r : CalRun), (s.chan c).cal.run tx = some r → r.gathered tx = true →
        r.reason tx ((s.chan c).cal.inForce c) e (s.calBad c tx e) = 0 →
        ∃ t, exec (.calWindowEnd c tx e) s = .next t ∧ (t.chan c).cal.run tx = some { r with
          apply := some (r.result tx ((s.chan c).cal.inForce c) e) } ∧ (t.chan c).cal.values = (s.chan c).cal.values ∧
          (r.initial = true → r.openNs + (if tx then 16384000 else 8192000) ≤ t.now)) ∧
      (∀ (e : CalEstimate) (r : CalRun) (k : Nat), (s.chan c).cal.rxRun = some r → r.gathered false = true → k ≠ 0 →
        r.reason false ((s.chan c).cal.inForce c) e (s.calBad c false e) = k →
        ∃ t, exec (.calWindowEnd c false e) s = .next t ∧ (t.chan c).cal.values = (s.chan c).cal.values ∧
          (t.chan c).cal.rxRejects = (s.chan c).cal.rxRejects + 1 ∧ (t.chan c).cal.rxLast = k) ∧
      (∀ (r : CalRun) (q : CalResult), (s.chan c).cal.rxRun = some r → r.ready = true ∨ r.initial = true → r.apply = some q →
        ∃ t, exec (.calValuesApply c false) s = .next t ∧
          (t.chan c).cal.values = some (r.applied false ((s.chan c).cal.inForce c) q.values) ∧
          (t.chan c).cal.rxRuns = (s.chan c).cal.rxRuns + 1 ∧ (t.chan c).cal.rxRejSeq = 0 ∧
          (t.chan c).cal.rxLast = (if q.slewed then 15 else 0)) ∧
      (∀ (r : CalRun) (q : CalResult), (s.chan c).cal.txRun = some r → r.ready = true ∨ r.initial = true → r.apply = some q →
        ∃ t, exec (.calValuesApply c true) s = .next t ∧
          (t.chan c).cal.values = some (r.applied true ((s.chan c).cal.inForce c) q.values) ∧
          (t.chan c).cal.txRuns = (s.chan c).cal.txRuns + 1 ∧ (t.chan c).cal.txRejSeq = 0 ∧
          (r.response = true → (t.chan c).cal.respNow c = q.resp)))

/-- The emergency shutdown, its restoration, and the optics query (12 R293 to R295, R299; 22 R479). Raw capture: arming,
disarming, the trigger and the buffers that carry the data (12 R296 to R298). That LASER_BLANK acts on a channel that is neither Up
nor Dark (log 24) and the output power that cause 3 expects (log 148) are the model's own. -/
def Obligations.OpticsComplete : Prop :=
  (∀ (s : State),
     (∀ (id c : Nat) (f : Flight), f.desc.target = c →
       (s.Started id 0x14C6 f → (s.chan c).keeperDown = false → ∃ t, exec (.laserBlank id) s = .next t ∧ t.blanked c = true ∧
         (t.chan c).opt.latched.getLsbD 4 = true ∧ t.flight? f.id = none ∧
         (∀ d, d ≠ c → (t.chan d).Same (s.chan d))) ∧
       (∀ tap locker, s.Started id 0x14C7 f → (s.chan c).keeperDown = false → (s.chan c).opt.held = false → (s.chan c).awake = true → s.boot.laserOffN = false → s.shore.laserOff = false →
         (s.chan c).opt.latched.getLsbD 0 = false → (s.chan c).opt.latched.getLsbD 1 = false →
         ((s.chan c).opt.latched.getLsbD 2 = true → (s.chan c).tapHigh tap.1 = false ∨ (s.chan c).tapHigh tap.2 = false) →
         ((s.chan c).opt.latched.getLsbD 5 = true → Int.natAbs locker ≤ 150) →
         ∃ t, exec (.laserRestore id tap locker) s = .next t ∧ t.flight? f.id = none ∧
           (t.chan c).opt.latched = (s.chan c).opt.latched &&& 0b001000#6 ∧
           ((s.chan c).opt.latched.getLsbD 3 = false → t.blanked c = false)) ∧
       (∀ locker txOut rxIn current, s.Started id 0x14C4 f → ∃ ws,
         s.Does (.opticsStatus id locker txOut rxIn current) (s.answer f ws) ∧ ws.length = 4 ∧
         (wd ws 0).bits 15 0 = twos 16 locker ∧ (wd ws 1).bits 5 0 = (s.causes c).toNat ∧ (wd ws 1).bit 6 = s.blanked c ∧
         (wd ws 1).bit 7 = (s.chan c).opt.laserOn ∧ (wd ws 1).bits 63 32 = (s.chan c).opt.shutdowns.toNat)) ∧
     (∀ (c : Fin 32), s.boot.powered = true → (s.chan c).opt.laserOn = true →
       (∀ first second, (s.chan c).opt.latched.getLsbD 2 = false → (s.chan c).tapHigh first = true →
         (s.chan c).tapHigh second = true → ∃ t, exec (.outputPowerHigh ⟨c, first, second⟩) s = .next t ∧
         (t.chan c).opt.latched.getLsbD 2 = true ∧ t.blanked c = true) ∧
       (∀ code : BitVec 8, (Config.laserLimit c).val < code.toNat → ∃ t, exec (.laserCurrentHigh ⟨c, code⟩) s = .next t ∧
         (t.chan c).opt.latched.getLsbD 3 = true ∧ t.blanked c = true ∧
         (t.chan c).opt.laserOn = false ∧ (t.chan c).bu.step = 2 ∧ (t.chan c).bu.stopped = true ∧
         (t.chan c).tf.sending = (s.chan c).tf.sending) ∧
       (∀ locker, (s.chan c).keeperDown = false → 250 < Int.natAbs locker → (s.chan c).opt.latched.getLsbD 5 = false →
         ∃ t, exec (.lockerError c locker) s = .next t ∧ (t.chan c).opt.latched.getLsbD 5 = true ∧ t.blanked c = true))) ∧
  (∀ (s : State),
     (∀ (id c : Nat) (f : Flight) (x : CapSample), f.desc.target = c →
       (s.Started id 0x14C5 f → f.desc.p0.bit 25 = false → s.capOk f (CapArm.ofDesc f) = true → (s.chan c).cap.armed = none →
         (s.chan c).cap.taken = none → (CapArm.ofDesc f).trig ≠ 0 →
         ∃ t, exec (.captureArm id x) s = .next t ∧ (t.chan c).cap.armed = some (CapArm.ofDesc f) ∧
           (t.chan c).cap.taken = none ∧ t.flight? f.id = none) ∧
       (s.Started id 0x14C5 f → f.desc.p0.bit 25 = false → s.capOk f (CapArm.ofDesc f) = true → (s.chan c).cap.armed = none →
         (s.chan c).cap.taken = none → (CapArm.ofDesc f).trig = 0 →
         ∃ t d, exec (.captureArm id x) s = .next t ∧ (t.chan c).cap.taken = some d ∧ d.total = 64 * (CapArm.ofDesc f).len ∧
           d.sent = 0 ∧ (t.chan c).cap.capId = (s.chan c).cap.capId + 1 ∧ t.flight? f.id = none) ∧
       (s.Started id 0x14C5 f → f.desc.p0.bit 25 = true →
         ∃ t, exec (.captureDisarm id) s = .next t ∧ (t.chan c).cap.armed = none ∧ (t.chan c).cap.taken = none ∧
           t.flight? f.id = none)) ∧
     (∀ (c : Fin 32) (x : CapSample) (a : CapArm), s.boot.powered = true → (s.chan c).triggered = some a →
       ∃ t d, exec (.captureTaken c x) s = .next t ∧ (t.chan c).cap.taken = some d ∧ d.arm = a ∧ (t.chan c).cap.armed = none ∧
         ∃ e ∈ t.batch, e.source = c.val ∧ e.code = 0x14C3) ∧
     (∀ (c : Fin 32) (d : CapData) (f : Flight) (n : Nat), s.boot.powered = true → (s.chan c).cap.taken = some d →
       (s.ring d.arm.ring).posted.head?.bind s.flight? = some f → 128 ≤ f.desc.bufLen →
       n = min (64 * ((f.desc.bufLen - 64) / 64)) (d.total - d.sent) →
       ∃ t, exec (.captureBufferFill c) s = .next t ∧ t.flight? f.id = none ∧
         ((s.sram c).bad = [] →
           (d.sent + n < d.total → (t.chan c).cap.taken = some { d with sent := d.sent + n }) ∧
           (d.total ≤ d.sent + n → (t.chan c).cap.taken = none))))

/-- The timing core's commands (14 R332, R346, R352). What the timing core does by itself (14 R333 to R345). -/
def Obligations.TimingComplete : Prop :=
  (∀ (s : State) (id : Nat) (f : Flight),
     (∀ (x : TimingIn) (k : Nat) (new : Cand), x.id = id → s.Started id 0x1600 f → k = f.desc.p0.bits 2 0 →
       new = (s.tm.cand k).withFields f.desc → new.fieldsOk = true →
       (∀ j, j < 8 → j ≠ k → (s.tm.cand j).enable = true → (s.tm.cand j).sameSource new = false) →
       ∃ t, exec (.timingCandSet x) s = .next t ∧ t.flight? f.id = none ∧ (t.tm.cand k).enable = f.desc.p0.bit 3 ∧
         (t.tm.cand k).src = f.desc.p0.bits 7 4 ∧ (t.tm.cand k).prio = f.desc.p0.bits 18 15 ∧
         (t.tm.cand k).quality = f.desc.p0.bits 21 19 ∧ (t.tm.cand k).lockout = f.desc.p0.bit 22 ∧
         (t.tm.cand k).tol = f.desc.p1.bits 15 0 ∧
         (new.enable = true → new.src ≠ 4 → (∃ e ∈ x.edges, e.val = k) → (t.tm.cand k).active = true) ∧
         (∀ j, j ≠ k → (∀ e ∈ x.edges, e.val ≠ j) → t.tm.cand j = s.tm.cand j)) ∧
     (s.Started id 0x1601 f → f.desc.p0.bits 2 0 ≤ 6 → 1 ≤ f.desc.p0.bits 14 4 → f.desc.p0.bits 14 4 ≤ 1024 →
       10 ≤ f.desc.p0.bits 28 15 → f.desc.p0.bits 28 15 ≤ 14400 → 60 ≤ f.desc.p0.bits 40 29 → f.desc.p0.bits 40 29 ≤ 3600 →
       1 ≤ f.desc.p0.bits 52 41 → f.desc.p0.bits 52 41 ≤ 3600 →
       ∃ t, exec (.timingConfig id) s = .next t ∧ t.flight? f.id = none ∧ t.tm.bw = f.desc.p0.bits 2 0 ∧
         t.tm.revert = f.desc.p0.bit 3 ∧ t.tm.hoWin = f.desc.p0.bits 14 4 ∧ t.tm.guard = f.desc.p0.bits 28 15 ∧
         t.tm.utWin = f.desc.p0.bits 40 29 ∧ t.tm.holdoff = f.desc.p0.bits 52 41 ∧ t.tm.cands = s.tm.cands) ∧
     (∀ x : TimingIn, x.id = id → s.Started id 0x1602 f →
       s.Does (.timingStatus x) (s.answer f (s.onTm fun t => t.seen x.loop x.edges).timingStatus)) ∧
     (s.Started id 0x1603 f → s.Does (.timingHistory id)
       (s.answer f s.tm.historyWords (s.tm.history.head?.map (·.second)))) ∧
     (s.Started id 0x1610 f → f.desc.p0.bits 1 0 ≠ 3 → (f.desc.p0.bits 1 0 = 0 ∨ s.inGroup f.desc.target = false) →
       ((s.chan f.desc.target).pw.level = .dark ∨ (s.chan f.desc.target).pm.mode = .leaf →
         ∃ t, exec (.chanTiming id) s = .next t ∧ (t.chan f.desc.target).bu.timing = f.desc.p0.bits 1 0 ∧
           t.flight? f.id = none) ∧
       ((s.chan f.desc.target).pw.level ≠ .dark → (s.chan f.desc.target).pm.mode ≠ .leaf →
         ∃ t, exec (.chanTiming id) s = .next t ∧ (t.chan f.desc.target).bu.timing = (s.chan f.desc.target).bu.timing ∧
           (t.chan f.desc.target).bu.timingCmds = (s.chan f.desc.target).bu.timingCmds ++ [(id, f.desc.p0.bits 1 0)]))) ∧
  (∀ (s : State), s.boot.powered = true →
     (∀ ofs ctrl mean, ∃ t, exec (.timingSecond ofs ctrl mean) s = .next t ∧ t.tm.secDue = s.tm.secDue + 1000000000 ∧
       s.tm.secDue ≤ t.now ∧ (s.tm.oscWarm = true → t.tm.history ≠ [])) ∧
     (∀ (k : Fin 8) (p : Nat × Bool) (d : Bool), (s.tm.cand k).enable = true → (s.tm.cand k).active = true →
       (s.tm.cand k).pending = some p → (s.tm.cand k).expired = some d →
       ∃ t, exec (.holdoffExpiry k) s = .next t ∧ (t.tm.cand k).qual = .disqualified ∧
         (t.tm.cand k).cause = (if d then 3 else 2) ∧ (t.tm.cand k).pending = none ∧
         ((∀ j, j < 8 → j ≠ k.val → (s.tm.cand j).passed = false ∧ (s.tm.cand j).expired = none) →
           t.tm.selected ≠ some k.val) ∧
         ∃ e ∈ t.batch, e.source = 32 ∧ e.code = 0x1641) ∧
     (∀ (k : Fin 8) (also : List (Fin 8)) (loop : Int), (s.tm.cand k).enable = true → (s.tm.cand k).src ≠ 4 →
       ∃ t, exec (.candidateActivityLoss ⟨k, also, loop⟩) s = .next t ∧ (t.tm.cand k).active = false ∧
         (t.tm.cand k).qual = .disqualified ∧
         ((∀ j, j < 8 → j ≠ k.val → (s.tm.cand j).passed = false ∧ (s.tm.cand j).expired = none) →
           t.tm.selected ≠ some k.val)) ∧
     (∀ (k : Fin 8), (s.tm.cand k).enable = true → (s.tm.cand k).active = true → (s.tm.cand k).passed = true →
       ∃ t, exec (.candidateQualified k) s = .next t ∧ (t.tm.cand k).qual = .qualified ∧
         ∃ e ∈ t.batch, e.source = 32 ∧ e.code = 0x1640 ∧ e.detail0 = BitVec.ofNat 64 k) ∧
     (s.tm.state = .acquiring → s.tm.bwNow = s.tm.bw → ∃ t, exec .loopBwStep s = .next t ∧ t.tm.state = .locked ∧
       ∃ e ∈ t.batch, e.source = 32 ∧ e.code = 0x1644) ∧
     (s.tm.state = .acquiring → s.tm.bw < s.tm.bwNow → ∃ t, exec .loopBwStep s = .next t ∧ t.tm.state = .acquiring ∧
       t.tm.bwNow = s.tm.bwNow - 1) ∧
     (s.tm.oscWarm = false → ∃ t, exec .oscWarm s = .next t ∧ t.tm.oscWarm = true ∧ 600000000000 ≤ t.now) ∧
     (s.tm.hoGrade = false → 1209600 ≤ s.tm.lockedS → ∃ t, exec .hoGrade s = .next t ∧ t.tm.hoGrade = true) ∧
     (∃ t, exec .oscAgeingFit s = .next t ∧ t.tm.dayDue = s.tm.dayDue + 86400 ∧ t.tm.dayN = 0 ∧
       (s.tm.state ≠ .locked → t.tm.ageing = s.tm.ageing)))

/-- The monitor converters' commands (15 R356 to R373). What a monitor converter does by itself (15 R359 to R369). That the module's
own urgent requests in bring-up come as rows (log 91), the origin of the ticks that time a report (log 145), and that a test waits for
the conversions of its input (log 152) are the model's own. -/
def Obligations.MonitorComplete : Prop :=
  (∀ (s : State) (id n : Nat) (f : Flight), f.desc.target = n →
     (∀ ws, s.Started id 0x1700 f → (s.conv n).anyRunning = false → 1 ≤ f.desc.p0.bits 6 0 → f.desc.p0.bits 6 0 ≤ 64 →
       (∀ k, k < f.desc.p0.bits 6 0 → half ws k % 64 ≤ 39 ∧ half ws k / 64 % 4 = 0) →
       ∃ t, exec (.monScanSet id ws) s = .next t ∧ t.flight? f.id = none ∧
         (t.conv n).scan = ((List.range (f.desc.p0.bits 6 0)).map fun k => (half ws k % 64, half ws k / 256 + 1)) ∧
         (t.conv n).filters = (s.conv n).filters ∧ ∀ m, m ≠ n → t.conv m = s.conv m) ∧
     (∀ ws i, s.Started id 0x1701 f → i = f.desc.p0.bits 5 0 → i ≤ 39 → ((s.conv n).filter i).running = false →
       4 ≤ f.desc.p0.bits 13 9 → f.desc.p0.bits 13 9 ≤ 20 → (f.desc.p0.bit 6 = true ∨ f.desc.p1.bits 15 0 = 0) →
       (f.desc.p0.bit 7 = true ∨ i < 8) → (f.desc.p0.bit 30 = true → coefOk (coefOf ws) = true) →
       ∃ t, exec (.monFilterSet id ws) s = .next t ∧ t.flight? f.id = none ∧
         ((t.conv n).filter i).resample = f.desc.p0.bit 6 ∧ ((t.conv n).filter i).settle = f.desc.p0.bit 7 ∧
         ((t.conv n).filter i).dcb = f.desc.p0.bit 8 ∧ ((t.conv n).filter i).dcbK = f.desc.p0.bits 13 9 ∧
         ((t.conv n).filter i).rM1 = f.desc.p0.bits 29 14 ∧
         ((t.conv n).filter i).coef = (if f.desc.p0.bit 30 then some ((coefOf ws).map (signed 18)) else ((s.conv n).filter i).coef) ∧
         (∀ j, j ≠ i → (t.conv n).filter j = (s.conv n).filter j) ∧ ∀ m, m ≠ n → t.conv m = s.conv m) ∧
     (s.Started id 0x1702 f → f.desc.p0.bit 40 = false →
       s.Does (.monFilterRun id) ((s.setConv n (((s.conv n).runFilters (f.desc.p0.bits 39 0) false s.now).freezeFilters
         (f.desc.p1.bits 39 0) (f.desc.p1.bit 40) s.now)).finish f 0)) ∧
     (∀ r, s.Started id 0x1703 f → r = f.desc.p0.bits 15 0 → (s.ring r).en = true → (s.ring r).kind = .tideline →
       (s.ring r).owner = f.link → ringBlock r = n → (∀ i, ((s.conv n).binds.get [] i).length < 4) →
       ∃ t, exec (.monStream id) s = .next t ∧ t.flight? f.id = none ∧
         ∀ i, i < 40 → f.desc.p1.bit i = true → f.desc.p0.bit 16 = true → r ∈ (t.conv n).binds.get [] i) ∧
     (s.Started id 0x1704 f → f.desc.p0.bits 5 0 ≤ 39 → 1 ≤ f.desc.p0.bits 12 6 → f.desc.p0.bits 12 6 ≤ 64 →
       (s.conv n).selfcal = none → s.Does (.monRead id)
         ((s.onConv n fun k => k.urgent (some f.id) (f.desc.p0.bits 5 0) (f.desc.p0.bits 12 6) s.now).run f)) ∧
     (∀ i, s.Started id 0x1705 f → i = f.desc.p0.bits 5 0 → (s.conv n).ref ≠ 2 → 1 ≤ f.desc.p0.bits 29 18 →
       scanPositions i 0 (s.conv n).scan ≠ [] →
       f.desc.p0.bits 29 18 * (s.conv n).passLen ≤ 16000 * (s.conv n).validPerPass n i → (s.conv n).selfcal = none →
       (s.conv n).test = none →
       ∃ t, exec (.monTest id) s = .next t ∧
         (t.conv n).test = some
           { id := id, input := i, code := f.desc.p0.bits 17 6, count := f.desc.p0.bits 29 18, start := (s.conv n).convEnd s.now }) ∧
     (∀ ext, s.Started id 0x1706 f → f.desc.p0.bits 1 0 ≠ 3 → (f.desc.p0.bits 1 0 = 1 → ext = true) →
       ∃ t, exec (.monRef id ext) s = .next t ∧ (t.conv n).ref = f.desc.p0.bits 1 0 ∧ t.flight? f.id = none) ∧
     (s.Started id 0x1707 f → (s.conv n).selfcal = none → (s.conv n).test = none → s.settling (s.conv n) = false →
       (n < 32 → (s.chan n).bu.stopped = true ∨ ((s.chan n).bu.step ≠ 2 ∧ (s.chan n).bu.step ≠ 3)) →
       ∃ t, exec (.monSelfcal id) s = .next t ∧ (t.conv n).selfcal = some (id, (s.conv n).convEnd s.now)) ∧
     (∀ fast, s.Started id 0x1708 f → s.Does (.monQuery ⟨id, fast⟩) (s.answer f (s.monQuery n fast))) ∧
     (s.Started id 0x1709 f → 1 ≤ f.desc.p0.bits 14 0 → f.desc.p0.bits 14 0 ≤ (s.conv n).buffer.length →
       f.desc.p0.bits 14 0 ≤ 16384 → (s.sram n).bad = [] →
       s.Does (.monHistory id)
         ((s.writeBuf f 0 (wordsBytes ((s.conv n).buffer.take (f.desc.p0.bits 14 0)).reverse.flatten)).finish f 0)) ∧
     (s.Started id 0x1709 f → ∃ t, exec (.monHistory id) s = .next t ∧ t.flight? f.id = none ∧ t.convs = s.convs) ∧
     (s.Started id 0x170A f → n ≠ 32 → factoryLosCode ≤ f.desc.p0.bits 7 0 →
       ∃ t, exec (.fastCfg id) s = .next t ∧ (t.conv n).losCode = some (f.desc.p0.bits 7 0) ∧ t.flight? f.id = none)) ∧
  (∀ (s : State),
     (∀ (id : Nat) (f : Flight) (u : Urgent) (codes : List (BitVec 16)), s.reading id codes.length = some (f, u) →
       ∃ t, exec (.urgentRequestDone id codes {}) s = .next t ∧ t.flight? id = none ∧ u.ends ≤ t.now ∧
         (t.conv f.desc.target).skipped = (s.conv f.desc.target).skipped +
           BitVec.ofNat 32 (codes.length + if u.input < 8 then 0 else 1)) ∧
     (∀ (id ns : Nat) (c : Fin 32) (i : Fin 40) (codes : List (BitVec 16)), s.ownRequest c = true → 0 < codes.length →
       codes.length ≤ 64 →
       ∃ t, exec (.urgentRequestDone id codes { own := some (c, i), ns := ns }) s = .next t ∧ ns ≤ t.now ∧
         (t.conv c).skipped = (s.conv c).skipped + BitVec.ofNat 32 (codes.length + if i.val < 8 then 0 else 1)) ∧
     (∀ (n : Fin 33) (x : MonTest) (codes : List (BitVec 16)), s.converting n = true → (s.conv n).test = some x →
       x.count = codes.length → ((s.conv n).testTimes n x).length = x.count →
       ∃ t, exec (.testEnd n codes) s = .next t ∧ (t.conv n).test = none ∧ t.flight? x.id = none) ∧
     (∀ (n : Fin 33) (id start : Nat) (o : Int) (g : BitVec 32), s.converting n = true → (s.conv n).selfcal = some (id, start) →
       ∃ t, exec (.selfcalEnd n o g) s = .next t ∧ (t.conv n).selfcal = none ∧ start + 18000000 ≤ t.now ∧
         t.flight? id = none ∧ (∃ e ∈ t.batch, e.source = n.val ∧ e.code = 0x1740) ∧
         (Int.natAbs (o - Config.factoryOffset n (s.conv n).ref) ≤ 1024 →
           100 * Int.natAbs ((g.toNat : Int) - (Config.factoryGain n (s.conv n).ref).toNat) ≤
             2 * (Config.factoryGain n (s.conv n).ref).toNat →
           (t.conv n).pair n (s.conv n).ref = (o, g.toNat))) ∧
     (s.boot.powered = true → (s.convs.any fun p => p.2.ref = 1) = true →
       ∃ t, exec .extRefLost s = .next t ∧ ∀ n, n < 33 → (s.conv n).ref = 1 → (t.conv n).ref = 0 ∧ (t.conv n).movedOff = true) ∧
     (∀ (n : Fin 33) (i : Fin 40) (codes : List (List (BitVec 16))), s.converting n = true →
       ((s.conv n).filter i).running = true → ((s.conv n).filter i).resample = false → 0 < (s.conv n).yielding i →
       (s.conv n).brings n i codes = true →
       ∃ t, exec (.decimRecord n i codes) s = .next t ∧ (t.conv n).records = (s.conv n).records + 1 ∧
         ((t.conv n).filter i).rseq = ((s.conv n).filter i).rseq + 1 ∧
         ((t.conv n).filter i).next = ((s.conv n).filter i).next + ((s.conv n).filter i).rM1 + 1 ∧
         (((s.conv n).window n i).any (·.lost) = false → ((t.conv n).filter i).last.isSome = true) ∧
         (((s.conv n).window n i).any (·.lost) = true → ((t.conv n).filter i).last = ((s.conv n).filter i).last)) ∧
     (∀ (n : Fin 33) (i : Fin 40) (count : BitVec 32) (at_ : InstantIn) (w p : Nat) (ds : List DecSample) (x : Filter),
       s.converting n = true → x = (s.conv n).filter i → x.running = true → x.resample = true →
       x.reported.all (· < at_.ns) = true → at_.ns ≤ w → (w : Rat) ≤ (s.conv n).reportBy i at_.ns →
       s.framed n count.toNat at_.ns = true ∨ s.tickAt n count.toNat at_ = true →
       x.around ((at_.ns : Rat) + (x.phaseDly * 125 : Nat) / 16) = some (ds, p) → (∀ d ∈ ds, d.value.isSome = true) →
       ∃ t, exec (.resampleReport n i count at_ w) s = .next t ∧ w ≤ t.now ∧ (t.conv n).records = (s.conv n).records + 1 ∧
         ((t.conv n).filter i).last = some (Config.monitorValue n i (x.interpolate p ds))))

/-- A bring-up that passes R254 starts its step: the parameters are taken, keys are erased, the output stays closed.
The steps of a bring-up: each work done leads to the next one, the third to the channel Up, and a limit that expires
stops the channel with its output closed (11 R255, R256). -/
def Obligations.BringupComplete : Prop :=
  (∀ (s : State) (id c : Nat) (f : Flight) (ws : List Word) (plate : Plate), s.Started id 0x1400 f → f.desc.target = c →
     s.bringupStatus c (BringupParams.ofDesc f.desc ws) ws = 0 → (s.boot.hot = true → coldPlate plate ≤ 500) →
     ∃ t, exec (.chanBringup id ws plate) s = .next t ∧
       (t.chan c).bu.step = (s.chan c).bu.resumeStep (BringupParams.ofDesc f.desc ws) ∧
       (t.chan c).bu.stopped = false ∧ (t.chan c).bu.cmd = some id ∧ (t.chan c).opt.shutter = true ∧
       (t.chan c).bu.params = BringupParams.ofDesc f.desc ws ∧ (t.chan c).ld.lsnTx = 0 ∧ (t.chan c).ld.lsnRx = 0 ∧
       (∃ e ∈ t.batch, e.source = c ∧ e.code = 0x1400) ∧ t.kept = s.kept) ∧
  (∀ (s : State) (c : Fin 32) (locker : Int),
     (s.boot.powered = true → (s.chan c).bu.stopped = false → (s.chan c).pw.transit = .none → (s.chan c).keeperDown = false →
       ((s.chan c).bu.step = 1 ∧ ∀ p, p < 4 → ((s.chan c).kp.lanes.get {} p).state = .active) ∨
         ((s.chan c).bu.step = 2 ∧ locker.natAbs ≤ 150) →
       ∃ t, exec (.bringupStepDone ⟨c, locker⟩) s = .next t ∧ (t.chan c).bu.step = (s.chan c).bu.step + 1 ∧
         (t.chan c).opt.laserOn = true ∧ (t.chan c).opt.shutter = true ∧
         ((s.chan c).bu.step = 1 → (t.chan c).pw.level = (s.chan c).bu.params.level)) ∧
     (s.boot.powered = true → (s.chan c).bu.stopped = false → (s.chan c).pw.transit = .none → (s.chan c).keeperDown = false →
       (s.chan c).bu.step = 3 → 2 ≤ (s.chan c).cal.converged true → (s.chan c).cal.txRun = none →
       ∃ t, exec (.bringupStepDone ⟨c, locker⟩) s = .next t ∧ (t.chan c).bu.step = 4 ∧ (t.chan c).rx.state = .noSignal ∧
         (t.chan c).tf.sending = true ∧ (t.chan c).tf.mfc = 0 ∧ (t.chan c).tf.frame = 0 ∧ (t.chan c).bu.cmd = none) ∧
     (s.boot.powered = true → (s.chan c).bu.stopped = false → (s.chan c).pw.transit = .none →
       1 ≤ (s.chan c).bu.step → (s.chan c).bu.step ≤ 3 →
       ∃ t, exec (.bringupStepLimitExpiry c) s = .next t ∧ (t.chan c).bu.stopped = true ∧
         (t.chan c).bu.step = (s.chan c).bu.step ∧ (t.chan c).opt.shutter = true ∧ (t.chan c).tf.sending = false ∧
         (s.chan c).bu.stepNs + stepLimit (s.chan c).bu.step ≤ t.now ∧
         ∀ id, (s.chan c).bu.cmd = some id → t.flight? id = none))

/-- The receiver's queries and settings, the dispersion window and the transmit shape (11 R262, R273, R274). -/
def Obligations.ReceiverCommandsComplete : Prop :=
  ∀ (s : State) (id c : Nat) (f : Flight), f.desc.target = c →
    (s.Started id 0x1401 f → s.Does (.chanStatus id) (s.answer f ((s.chan c).statusWords s.now))) ∧
    (s.Started id 0x1402 f → s.Does (.dspStatus id) (s.answer f (s.chan c).dspWords)) ∧
    (∀ w, s.Started id 0x1403 f → w = f.desc.p0.bits 9 0 → w ≤ 800 → w ≠ (s.chan c).bu.params.cdCeil →
      (s.chan c).bu.step = 4 → s.breaks c (s.chan c).fec.rxOffshore w = false → (s.chan c).rx.state ≠ .tracking →
      ∃ t, exec (.cdWindow id) s = .next t ∧ (t.chan c).bu.params.cdCeil = w ∧ t.flight? f.id = none) ∧
    (∀ w, s.Started id 0x1403 f → w = f.desc.p0.bits 9 0 → w ≤ 800 → w ≠ (s.chan c).bu.params.cdCeil →
      (s.chan c).bu.step = 4 → s.breaks c (s.chan c).fec.rxOffshore w = false → (s.chan c).rx.state = .tracking →
      (s.chan c).rx.cdMeas.natAbs ≤ 100 * w →
      s.Does (.cdWindow id) ((s.onRx c fun x => { x with window := x.window ++ [(f.id, w)] }).run f)) ∧
    (∀ p, s.Started id 0x1404 f → p = signed 16 (f.desc.p0.bits 15 0) → -120 ≤ p → p ≤ 30 →
      (∀ o ∈ f.desc.offsets, -30 ≤ o ∧ o ≤ 30) → (s.chan c).awake = true →
      s.Does (.txShape id) ((s.onBu c fun b => { b with shapes := b.shapes ++ [(f.id, p, f.desc.offsets)] }).run f)) ∧
    (∀ h, s.Started id 0x1405 f → h = signed 16 (f.desc.p0.bits 31 16) → h.natAbs ≤ 10 * (s.chan c).bu.params.cdCeil →
      s.Does (.acqConfig id)
        ((s.onRx c fun x => { x with blindFirst := f.desc.p0.bit 0, altValid := f.desc.p0.bit 1, altHint := h }).finish f 0))

/-- How the receiver moves forward through its states (11 R257, R258, R267, R269 to R271). How the receiver falls
back: losses of signal, of acquisition and of a subcarrier, the limits of its states, and the repeat of a blind search
(11 R257, R264, R267, R272). -/
def Obligations.ReceiverMoves : Prop :=
  (∀ (s : State) (c : Fin 32), s.boot.powered = true →
     (∀ least : BitVec 8, s.converting c = true → s.losCodeOf c + 2 ≤ least.toNat → (s.chan c).rx.state = .noSignal →
       ∃ t, exec (.signalPresent c least) s = .next t ∧ (t.conv c).los = false ∧
         (t.chan c).rx.state = if (s.chan c).rx.calDone || (s.chan c).rx.skipCal then .search else .calibration) ∧
     (∀ cd : Int, (s.chan c).rx.state = .calibration → 2 ≤ (s.chan c).cal.converged false → (s.chan c).cal.rxRun = none →
       ∃ t, exec (.rxStateAdvance c cd) s = .next t ∧ (t.chan c).rx.state = .search ∧ (t.chan c).rx.calDone = true) ∧
     (∀ cd : Int, (s.chan c).rx.state = .search → (s.chan c).rx.finds cd = true →
       cd.natAbs ≤ 100 * (s.chan c).bu.params.cdCeil →
       ∃ t, exec (.rxStateAdvance c cd) s = .next t ∧ (t.chan c).rx.state = .carrier) ∧
     (∀ cd : Int, (s.chan c).rx.state = .carrier →
       ∃ t, exec (.rxStateAdvance c cd) s = .next t ∧ (t.chan c).rx.state = .pilotLock) ∧
     (∀ cd : Int, (s.chan c).rx.state = .pilotLock → (s.chan c).rx.locked ≠ 0 →
       (s.chan c).rx.acquired &&& (s.chan c).rxSet.lit = (s.chan c).rxSet.lit → cd.natAbs ≤ 100 * (s.chan c).bu.params.cdCeil →
       ∃ t, exec (.rxStateAdvance c cd) s = .next t ∧ (t.chan c).rx.state = .tracking ∧ (t.chan c).rx.cdMeas = cd ∧
         (∃ e ∈ t.batch, e.source = c.val ∧ e.code = 0x1402) ∧
         (∀ b, (s.chan c).rx.cdBefore = some b → 200 < (cd - b).natAbs → ∃ e ∈ t.batch, e.source = c.val ∧ e.code = 0x1405)) ∧
     (∀ (mask : BitVec 16) (odd : Bool), (s.chan c).rx.state = .pilotLock → (s.chan c).rx.locked = 0 →
       mask &&& (s.chan c).rxSet.lit ≠ 0 → odd = ((s.chan c).ld.lsnRx.toNat % 2 == 1) →
       ∃ t, exec (.pilotLock c mask odd) s = .next t ∧ (t.chan c).rx.locked = mask &&& (s.chan c).rxSet.lit ∧
         (t.chan c).ld.seenOdd = odd) ∧
     (∀ i : Fin 16, (s.chan c).rx.state = .pilotLock ∨ (s.chan c).rx.state = .tracking → (s.chan c).rx.locked ≠ 0 →
       (s.chan c).rxSet.isLit i = true → (s.chan c).rx.acquired.getLsbD i = false →
       ∃ t, exec (.subcarrierAcquired c i) s = .next t ∧ (t.chan c).rx.acquired.getLsbD i = true ∧
         (t.chan c).rx.locked.getLsbD i = true ∧
         ((s.chan c).rx.lostSub.getLsbD i = true → ∃ e ∈ t.batch, e.source = c.val ∧ e.code = 0x1403)) ∧
     (∀ i : Fin 16, (s.chan c).rx.state = .pilotLock ∨ (s.chan c).rx.state = .tracking → (s.chan c).rxSet.isLit i = true →
       ∃ t, exec (.eqDiverged c i) s = .next t ∧ (t.chan c).rx.eqReconv = (s.chan c).rx.eqReconv + 1 ∧
         (t.chan c).rx.state = (s.chan c).rx.state)) ∧
  (∀ (s : State) (c : Fin 32), s.boot.powered = true →
     (∀ codes : List (BitVec 8), s.converting c = true → codes.length = 4 → (∀ r ∈ codes, r.toNat ≤ s.losCodeOf c) →
       (s.chan c).rx.state.lit = true →
       ∃ t, exec (.lossOfSignal c codes) s = .next t ∧ (t.conv c).los = true ∧ (t.chan c).rx.state = .noSignal ∧
         (t.chan c).rx.lastCause = 1 ∧ (t.chan c).rx.reacq = (s.chan c).rx.reacq + 1 ∧
         ∃ e ∈ t.batch, e.source = c.val ∧ e.code = 0x1401) ∧
     (∀ (cause : Fin 8) (v : Int), (s.chan c).rx.state.acquiring = true → lossShown cause v = true →
       ∃ t, exec (.lossOfAcquisition c cause v) s = .next t ∧ (t.chan c).rx.state = .search ∧
         (t.chan c).rx.lastCause = cause.val ∧ (t.chan c).rx.reacq = (s.chan c).rx.reacq + 1 ∧
         (t.chan c).rx.locked = 0 ∧ (t.chan c).rx.acquired = 0 ∧ ∃ e ∈ t.batch, e.source = c.val ∧ e.code = 0x1401) ∧
     ((s.chan c).rx.state = .carrier ∨ (s.chan c).rx.state = .pilotLock →
       ∃ t, exec (.rxStateLimitExpiry c) s = .next t ∧ (t.chan c).rx.state = .search ∧ (t.chan c).rx.acquired = 0 ∧
         (s.chan c).rx.limitNs + 40000000 ≤ t.now) ∧
     ((s.chan c).rx.state = .calibration →
       ∃ t, exec (.rxStateLimitExpiry c) s = .next t ∧ (t.chan c).rx.state = .search ∧ (t.chan c).rx.calDone = true ∧
         (s.chan c).rx.limitNs + 3000000000 ≤ t.now) ∧
     (∀ due, (s.chan c).rx.state = .search → (s.chan c).rx.blindDue = some due →
       ∃ t, exec (.blindSearchRepeat c) s = .next t ∧ (t.chan c).rx.state = .search ∧ (t.chan c).rx.searches = [none] ∧
         (t.chan c).rx.blindDue = some (due + 10000000000) ∧ due ≤ t.now) ∧
     (∀ i : Fin 16, (s.chan c).rx.state = .pilotLock ∨ (s.chan c).rx.state = .tracking →
       (s.chan c).rx.locked.getLsbD i = true →
       ∃ t, exec (.subcarrierLockLost c i) s = .next t ∧ (t.chan c).rx.locked.getLsbD i = false ∧
         (t.chan c).rx.acquired.getLsbD i = false ∧ (t.chan c).rx.scLockLoss = (s.chan c).rx.scLockLoss + 1 ∧
         ∃ e ∈ t.batch, e.source = c.val ∧ e.code = 0x1403))

/-- The power and reset commands of a channel and of the module (18 R405 to R415; 19 R418, R419); that a CHAN_RESET which could not end
by its deadline does not begin is the model's inference (log 110). The steps of a level
change, of sleep, of wakes and of the channel reset (18 R406 to R412; 19 R418). -/
def Obligations.PowerComplete : Prop :=
  (∀ (s : State) (id c : Nat) (f : Flight), f.desc.target = c →
     (∀ n, s.Started id 0x1900 f → n = f.desc.p0.bits 1 0 → n ≠ 3 → (s.chan c).bu.step = 4 → (s.chan c).pw.transit = .none →
       (s.chan c).levelFits (Level.ofCode n) = true →
       ((s.chan c).pw.level = .slack →
         s.Does (.pwrLevel id) ((s.onPw c fun x => { x with resume := Level.ofCode n }).finish f 0)) ∧
       ((s.chan c).pw.level = Level.ofCode n → s.Does (.pwrLevel id) (s.finish f 0)) ∧
       ((s.chan c).pw.level ≠ .slack → (s.chan c).pw.level ≠ Level.ofCode n →
         ∃ t, exec (.pwrLevel id) s = .next t ∧ (t.chan c).pw.target = Level.ofCode n ∧ (t.chan c).pw.cmd = some f.id ∧
           (t.chan c).pw.level = (s.chan c).pw.level ∧
           (t.chan c).pw.transit =
             if (Level.ofCode n).volts < (s.chan c).pw.level.volts then .clockDown else .voltageUp)) ∧
     (s.Started id 0x1901 f → f.desc.p0.bits 1 0 = 0 → (s.chan c).awake = true →
       (f.desc.p0.bit 3 = true → f.desc.p1.bits 23 0 ≠ 0) → s.sleepStatus c = 0 →
       ∃ t, exec (.pwrSleepSlack id) s = .next t ∧ (t.chan c).pw.transit = .enteringSlack ∧
         (t.chan c).pw.armed = { command := true, light := f.desc.p0.bit 2, timer := f.desc.p0.bit 3 } ∧
         (t.chan c).pw.timerDue =
           (if f.desc.p0.bit 3 then some (s.now + f.desc.p1.bits 23 0 * 1000000000) else none) ∧
         (t.chan c).pw.cmd = some f.id) ∧
     (s.Started id 0x1901 f → f.desc.p0.bits 1 0 = 1 → f.desc.p0.bits 3 2 = 0 → (s.chan c).bu.step ≠ 0 → s.sleepStatus c = 0 →
       ∃ t, exec (.pwrSleepDark id) s = .next t ∧ (t.chan c).pw.transit = .enteringDark ∧ (t.chan c).pw.cmd = some f.id) ∧
     (s.Started id 0x1901 f → f.desc.p0.bits 1 0 = 2 → (s.chan c).pw.exitSeen.contains f.id = false →
       (s.chan c).pw.transit = .none → (s.chan c).pw.level = .slack →
       ∃ t, exec (.pwrSleepExit id) s = .next t ∧ (t.chan c).pw.transit = .leavingSlack ∧ (t.chan c).pw.lastWake = 1 ∧
         (t.chan c).pw.armed = {} ∧ (t.chan c).pw.exitCmds = [f.id]) ∧
     (∀ vcore power, s.Started id 0x1902 f → ∃ ws, ws.length = 4 ∧ ws.head? =
       some (mkWord [(0, 3, (s.chan c).pw.level.code), (3, 2, (s.chan c).pw.resume.code), (5, 3, (s.chan c).pw.transit.code),
         (8, 3, (s.chan c).pw.armed.code), (11, 3, (s.chan c).pw.latched.code), (14, 2, (s.chan c).pw.lastWake),
         (16, 16, vcore), (32, 32, power)]) ∧ s.Does (.pwrStatus id vcore power) (s.answer f ws)) ∧
     (∀ input common, s.Started id 0x1910 f → ∃ ws, ws.length = 4 ∧
       ws.head? = some (mkWord [(0, 32, input), (32, 32, common)]) ∧ s.Does (.pwrModule id input common) (s.answer f ws)) ∧
     (s.Started id 0x1410 f → (s.chan c).bu.step ≠ 0 →
       (∀ l ∈ (s.chan c).locals, ((s.chan c).trib l).state = .carrying → ((s.chan c).trib l).released = true) →
       s.dueBy f (s.now + 20000000) = true →
       ∃ t, exec (.chanReset id) s = .next t ∧ (t.chan c).pw.transit = .enteringDark ∧ (t.chan c).pw.resetCmd = some f.id ∧
         (t.chan c).tf.sending = false ∧ (t.chan c).opt.laserOn = false ∧ (t.chan c).opt.shutter = true ∧
         (t.chan c).rx.state = .notUp)) ∧
  (∀ (s : State) (c : Fin 32), s.boot.powered = true →
     ((s.chan c).pw.transit = .clockDown → ∃ t, exec (.levelStep c) s = .next t ∧ (t.chan c).pw.transit = .voltageDown ∧
       (t.chan c).pw.level = (s.chan c).pw.level ∧ (s.chan c).pw.stepDue ≤ t.now) ∧
     ((s.chan c).pw.transit = .voltageDown ∨ (s.chan c).pw.transit = .voltageUp → (s.chan c).pw.settling = false →
       ∃ t, exec (.levelStep c) s = .next t ∧ (t.chan c).pw.transit = (s.chan c).pw.transit ∧
         (t.chan c).pw.settling = true ∧ (t.chan c).pw.stepDue = t.now + 50000) ∧
     ((s.chan c).pw.transit = .clockUp ∨
         ((s.chan c).pw.transit = .voltageDown ∧ (s.chan c).pw.settling = true ∧ (s.chan c).pw.rampBack = false) →
       ∃ t, exec (.levelStep c) s = .next t ∧ (t.chan c).pw.level = (s.chan c).pw.target ∧ (t.chan c).pw.transit = .none ∧
         (t.chan c).pw.levelChanges = (s.chan c).pw.levelChanges + 1 ∧
         (∃ e ∈ t.batch, e.source = c.val ∧ e.code = 0x1920) ∧ ∀ id, (s.chan c).pw.cmd = some id → t.flight? id = none) ∧
     ((s.chan c).pw.transit = .voltageDown → (s.chan c).pw.settling = true → (s.chan c).pw.rampBack = true →
       ∃ t, exec (.levelStep c) s = .next t ∧ (t.chan c).pw.level = (s.chan c).pw.level ∧ (t.chan c).pw.transit = .none ∧
         (∃ e ∈ t.batch, e.source = c.val ∧ e.code = 0x1923) ∧ ∀ id, (s.chan c).pw.cmd = some id → t.flight? id = none) ∧
     (∀ mv : BitVec 16, (s.chan c).pw.transit = .voltageUp → (s.chan c).pw.settling = true →
       ∃ t, exec (.railCheck c mv) s = .next t ∧ (t.chan c).pw.vcore = mv.toNat ∧
         (t.chan c).pw.level = (s.chan c).pw.level ∧
         (mv.toNat ≤ (s.chan c).pw.target.volts + 10 → (s.chan c).pw.target.volts ≤ mv.toNat + 10 →
           (t.chan c).pw.transit = .clockUp) ∧
         (¬ (mv.toNat ≤ (s.chan c).pw.target.volts + 10 ∧ (s.chan c).pw.target.volts ≤ mv.toNat + 10) →
           (t.chan c).pw.transit =
             if (s.chan c).pw.rampEnd + 1000000 ≤ max s.now (s.chan c).pw.stepDue then .voltageDown else .voltageUp)) ∧
     ((s.chan c).pw.transit = .enteringSlack → (s.chan c).pw.resetCmd = none → (s.chan c).tf.sending = false →
       ∃ t, exec (.sleepEntryEnd c) s = .next t ∧ (t.chan c).pw.level = .slack ∧
         (t.chan c).pw.slackEntries = (s.chan c).pw.slackEntries + 1 ∧
         (t.chan c).pw.transit = (if (s.chan c).pw.firstLatched = 0 then .none else .leavingSlack) ∧
         (∃ e ∈ t.batch, e.source = c.val ∧ e.code = 0x1921) ∧ ∀ id, (s.chan c).pw.cmd = some id → t.flight? id = none) ∧
     ((s.chan c).pw.transit = .enteringDark → (s.chan c).pw.resetCmd = none → (s.chan c).tf.sending = false →
       ∃ t, exec (.sleepEntryEnd c) s = .next t ∧ (t.chan c).pw.level = .dark ∧ (t.chan c).bu.step = 0 ∧
         (∀ l, ((t.chan c).cipher l).current = none) ∧ (∃ e ∈ t.batch, e.source = c.val ∧ e.code = 0x1921)) ∧
     (∀ due, (s.chan c).pw.level = .slack → (s.chan c).pw.transit = .none → (s.chan c).pw.armed.timer = true →
       (s.chan c).pw.latched.timer = false → (s.chan c).pw.timerDue = some due →
       ∃ t, exec (.wakeTimer c) s = .next t ∧ (t.chan c).pw.transit = .leavingSlack ∧ (t.chan c).pw.lastWake = 3 ∧
         (t.chan c).pw.armed = {} ∧ due ≤ t.now) ∧
     (∀ due, (s.chan c).pw.transit = .enteringSlack → (s.chan c).pw.armed.timer = true →
       (s.chan c).pw.latched.timer = false → (s.chan c).pw.timerDue = some due →
       ∃ t, exec (.wakeTimer c) s = .next t ∧ (t.chan c).pw.transit = .enteringSlack ∧ (t.chan c).pw.latched.timer = true ∧
         (t.chan c).pw.firstLatched = if (s.chan c).pw.firstLatched = 0 then 3 else (s.chan c).pw.firstLatched) ∧
     (∀ lo hi : BitVec 8, (s.chan c).pw.level = .slack → (s.chan c).pw.transit = .none → (s.chan c).pw.armed.light = true →
       (s.chan c).pw.latched.light = false → lo.toNat ≤ (s.chan c).pw.wakeLos → (s.chan c).pw.wakeLos + 2 ≤ hi.toNat →
       ∃ t, exec (.wakeLight c lo hi) s = .next t ∧ (t.chan c).pw.transit = .leavingSlack ∧ (t.chan c).pw.lastWake = 2 ∧
         (t.chan c).pw.armed = {}) ∧
     ((s.chan c).pw.transit = .leavingSlack → (s.chan c).keeperDown = false → (∀ p ∈ (s.chan c).kp.lanes, p.2.want = none) →
       ∃ t, exec (.slackExitEnd c) s = .next t ∧ (t.chan c).pw.level = (s.chan c).pw.resume ∧ (t.chan c).pw.transit = .none ∧
         (t.chan c).tf.sending = true ∧ (t.chan c).tf.frame = 0 ∧ (t.chan c).tf.mfc = (s.chan c).tf.mfc ∧
         (t.chan c).rx.state = .noSignal ∧ (∃ e ∈ t.batch, e.source = c.val ∧ e.code = 0x1922) ∧
         ∀ id ∈ (s.chan c).pw.exitCmds, t.flight? id = none) ∧
     (∀ id, (s.chan c).pw.resetCmd = some id →
       ∃ t, exec (.chanResetDone c) s = .next t ∧ (t.chan c).pw.level = .dark ∧ (t.chan c).bu.step = 0 ∧
         (t.chan c).pw.resetCmd = none ∧ (∀ l, ((t.chan c).cipher l).current = none) ∧ t.flight? id = none))

/-- The Kapra commands (05 R92 to R97, R101). What happens on Kapra lanes by itself (05 R84 to R99). -/
def Obligations.KapraComplete : Prop :=
  (∀ (s : State) (id c : Nat) (f : Flight), f.desc.target = c →
     (s.Started id 0x1440 f → (∀ p, p < 4 → f.desc.laneCode p ≠ 3) → (s.chan c).pw.level.carries = true →
       ((∃ p, p < 4 ∧ ((s.chan c).kp.lane p).state = .active ∧ f.desc.laneCode p ≠ 0) →
         ∀ l ∈ (s.chan c).locals, ((s.chan c).trib l).released = true) →
       ∃ t, exec (.kapraState id) s = .next t ∧ ∀ p, p < 4 →
         ((t.chan c).kp.lane p).want =
           (if ((s.chan c).kp.lane p).state = LaneState.ofCode (f.desc.laneCode p) then none
            else some (LaneState.ofCode (f.desc.laneCode p))) ∧
         ((t.chan c).kp.lane p).state = ((s.chan c).kp.lane p).state) ∧
     (s.Started id 0x1441 f → ∃ t, exec (.kapraTxEq id) s = .next t ∧ t.flight? f.id = none ∧ ∀ p, p < 4 →
       ((t.chan c).kp.lane p).nextPreset = some (f.desc.p0.bits (4 * p + 3) (4 * p)) ∧
       ((t.chan c).kp.lane p).preset = ((s.chan c).kp.lane p).preset) ∧
     (s.Started id 0x1442 f → s.Does (.kapraStatus id) (s.answer f (s.chan c).kp.statusWords)) ∧
     (s.Started id 0x1443 f → s.Does (.kapraCounters id) (s.answer f (s.chan c).kp.counterWords))) ∧
  (∀ (s : State), s.boot.powered = true →
     (∀ (n : Fin 128) (cause : Fin 6), (s.lane n).state ≠ .deep → cause.val ≠ 0 →
       (cause.val = 1 → (s.lane n).signal = true) → (cause.val ≠ 1 → (s.lane n).due = cause.val) →
       ∃ t, exec (.kapraLaneFault n cause) s = .next t ∧ (t.lane n).fault = cause.val ∧ (t.lane n).state = (s.lane n).state ∧
         ∃ e ∈ t.batch, e.source = n.val / 4 ∧ e.code = 0x1460) ∧
     (∀ n : Fin 128, (s.lane n).state ≠ .deep → (s.lane n).fault = 1 → (s.lane n).signal = false →
       ∃ t, exec (.laneSignalReturn n) s = .next t ∧ (t.lane n).signal = true ∧
         (t.lane n).sets = (if (s.lane n).lostNs + 1000000 < s.now then (s.lane n).sets + 1 else (s.lane n).sets)) ∧
     (∀ (n : Fin 128) (w : LaneWake) (x : LaneState), (s.lane n).want = some x →
       ∃ t, exec (.laneStateReached n w) s = .next t ∧ (t.lane n).state = x ∧ (t.lane n).want = none ∧
         (x ≠ .deep → (s.lane n).state = .deep → (t.lane n).descrambler = w.seen) ∧
         (x = .active → (s.lane n).state = .deep → w.fault.val ≠ 0 → (t.lane n).fault = w.fault.val)) ∧
     (∀ n : Fin 128, 4 ≤ (s.lane n).lowRun → (s.lane n).lowArmed = true →
       ∃ t, exec (.laneMeritLow n) s = .next t ∧ (t.lane n).lowArmed = false ∧
         ∃ e ∈ t.batch, e.source = n.val / 4 ∧ e.code = 0x1462) ∧
     (∀ (c : Fin 32) (ws : List Word) (phase : Int) (ins : List LaneIn) (devs : List (Nat × Int)) (rx : Nat → Lane × List Word)
       (ok : Bool), (s.chan c).tf.sending = true → (s.chan c).kp.carrying = true → (s.chan c).kp.taken = false →
       (∀ p, p < 4 → ((s.chan c).kp.lane p).due = 0) →
       (∀ p, p < 4 → rx p = ((s.chan c).kp.lane p).receive (4 * c + p) (ins.getD p { blocks := [], skew := 0 })) →
       ws = fourWay (rx 0).2 (rx 1).2 (rx 2).2 (rx 3).2 →
       ok = (((List.range 4).all fun p => ((s.chan c).kp.lane p).fault = 0 && (rx p).1.due = 0) &&
         (s.chan c).acceptsHost c ws phase) →
       ∃ t, exec (.ingressHostFrame c phase ins devs) s = .next t ∧ (t.chan c).kp.taken = true ∧
         (t.chan c).kp.ingress = (if ok then some ws else none) ∧ (t.chan c).kp.phase = phase ∧
         (t.chan c).kp.replRun = (if ok then 0 else (s.chan c).kp.replRun + 1) ∧
         ∀ p, p < 4 → ((t.chan c).kp.lane p).blocksRx = (rx p).1.blocksRx ∧ ((t.chan c).kp.lane p).blk = (rx p).1.blk))

/-- The commands of the line frame (04 R76; 08 R189, R197). -/
def Obligations.FrameCommandsComplete : Prop :=
  ∀ (s : State) (id c : Nat) (f : Flight), f.desc.target = c →
    (s.Started id 0x1480 f → s.Does (.frameStatus id) (s.answer f (s.chan c).frameStatus)) ∧
    (s.Started id 0x1481 f → s.Does (.frameCounters id) (s.answer f (s.chan c).frameCounters)) ∧
    (∀ m n ws, s.Started id 0x1482 f → (s.chan c).snapshot (f.desc.p0.bit 0) = some (m, n, ws) →
      s.Does (.ohSnapshot id) (s.answer f ws (some m.toNat) (some n))) ∧
    (∀ bs, s.Started id 0x0131 f → f.desc.bufLen ≠ 0 → f.desc.bufLen ≤ 65535 → c < 32 → bs.length = f.desc.bufLen →
      ∃ t, exec (.ohmSend id bs) s = .next t ∧
        (t.chan c).tf.queue = (s.chan c).tf.queue ++ [{ cmd := some id, cls := 0, bytes := bs }] ∧
        (t.chan c).tf.current = (s.chan c).tf.current)

/-- The transmit direction: a frame period advances the frame number of every channel in step, a boundary their
multiframe counts, and keys roll or wear out at their points (06 R119; 07 R155, R156; 08 R173, R177). -/
def Obligations.TransmitRowsComplete : Prop :=
  ∀ (s : State), s.boot.powered = true →
    (∀ (c : Fin 32) (lv : List (Nat × Nat × Nat)) (fills : List Nat), s.leads c = true →
      (∀ m ∈ s.inStep c, (s.chan m).tf.frame ≤ 255) →
      ∃ t, exec (.txFramePeriod c lv fills) s = .next t ∧ ∀ m ∈ s.inStep c,
        (t.chan m).tf.frame = (s.chan m).tf.frame + 1 ∧ (t.chan m).tf.mfc = (s.chan m).tf.mfc ∧
        (t.chan m).kp.taken = false ∧ (t.chan m).kp.ingress = none) ∧
    (∀ (c : Fin 32) (x : BoundaryIn), s.leads c = true → (∀ m ∈ s.inStep c, (s.chan m).tf.frame = 256) →
      ∃ t, exec (.txMultiframeBoundary c x) s = .next t ∧ ∀ m ∈ s.inStep c,
        (t.chan m).tf.frame = 0 ∧ ((s.chan m).pm.mode ≠ .leaf → (t.chan m).tf.mfc = (s.chan m).tf.mfc + 1)) ∧
    (∀ i : Fin 3072, (s.chan (i.val / 96)).tf.sending = true → (s.chan (i.val / 96)).tf.frame = 0 →
      (s.cipherOf i).autoRoll = true → (s.cipherOf i).warnAt ≤ (s.cipherOf i).curFrames →
      (s.cipherOf i).rollable s.now = true →
      ∃ t, exec (.autoRoll i) s = .next t ∧ (t.cipherOf i).current = (s.cipherOf i).next ∧ (t.cipherOf i).next = none ∧
        (t.cipherOf i).curFrames = 0 ∧ (t.cipherOf i).rolls = (s.cipherOf i).rolls + 1 ∧
        ∃ e ∈ t.batch, e.source = i.val / 96 ∧ e.code = 0x1252) ∧
    (∀ (i : Fin 3072) (k : LineKey), (s.cipherOf i).current = some k → k.worn = true →
      ∃ t, exec (.keyCountWrapErase i) s = .next t ∧ (t.cipherOf i).current = none ∧
        (∀ q ∈ (t.cipherOf i).retiring, q.worn = false) ∧ ∃ e ∈ t.batch, e.source = i.val / 96 ∧ e.code = 0x1251)

/-- The receive direction: a frame in step is counted, four misses lose the frame, runs raise their alarms, and the
end of a received multiframe records its figures (08 R193 to R196; 09 R213, R218; 11 R266); that a receiver which does not track yet
records those of FEC alone is the model's inference (log 149). -/
def Obligations.ReceiveRowsComplete : Prop :=
  ∀ (s : State), s.boot.powered = true →
    (∀ (c : Fin 32) (f : FrameIn) (v : Channel) (us : List Decoded) (ws : List (Word × Bool)), s.receives c none = true →
      v = (s.frameStart c).chan c → v.rf.state = .inFrame → (s.chan c).rf.misses < 4 →
      decodable f v.fec.rxOffshore v.sRx = true →
      us = decodeUnits v.fec.rxOffshore v.sRx (codedBits v.ld.rx v.bu.params.rate v.fec.rxOffshore v.sRx f.streams) f →
      ws = v.rf.tail ++ unitWords v.sRx us →
      ∃ t, exec (.rxLineFrame c none f) s = .next t ∧ (t.chan c).rf.framesRx = (s.chan c).rf.framesRx + 1 ∧
        (t.chan c).rf.misses = (if f.offshore = v.fec.rxOffshore ∧ fawErrors (ws.map Prod.fst) ≤ 8 then 0
          else (s.chan c).rf.misses + 1) ∧
        (t.chan c).fec.unitsRx = (s.chan c).fec.unitsRx + BitVec.ofNat 64 us.length) ∧
    (∀ (c : Fin 32) (leaf : Option (Fin 64)), s.receives c leaf = true → (s.viewed c leaf).rf.state = .inFrame →
      4 ≤ (s.viewed c leaf).rf.misses →
      ∃ t, exec (.lossOfFrame c leaf) s = .next t ∧ (t.viewed c leaf).rf.state = .search ∧
        (t.viewed c leaf).rf.lof = (s.viewed c leaf).rf.lof + 1 ∧ ∃ e ∈ t.batch, e.source = c.val ∧ e.code = 0x1480) ∧
    (∀ (c : Fin 32) (leaf : Option (Fin 64)), (s.viewed c leaf).rf.ohRun = 256 →
      ∃ t, exec (.ohCheckFailRun c leaf) s = .next t ∧ (t.viewed c leaf).rf.ohRun = 257 ∧
        ∃ e ∈ t.batch, e.source = c.val ∧ e.code = 0x1484) ∧
    (∀ (c : Fin 32) (leaf : Option (Fin 64)), (s.viewed c leaf).rf.rdi = false → 4 ≤ (s.viewed c leaf).rf.rdiRun →
      ∃ t, exec (.remoteDefect c leaf) s = .next t ∧ (t.viewed c leaf).rf.rdi = true ∧
        ∃ e ∈ t.batch, e.source = c.val ∧ e.code = 0x1483) ∧
    (∀ (c : Fin 32) (leaf : Option (Fin 64)), (s.viewed c leaf).rf.rdi = true → 4 ≤ (s.viewed c leaf).rf.clearRun →
      ∃ t, exec (.remoteDefect c leaf) s = .next t ∧ (t.viewed c leaf).rf.rdi = false ∧
        ∃ e ∈ t.batch, e.source = c.val ∧ e.code = 0x1483) ∧
    (∀ i : Fin 3072, (s.cipherOf i).failRun = 16 →
      ∃ t, exec (.authFailRun i) s = .next t ∧ (t.cipherOf i).failRun = 17 ∧
        ∃ e ∈ t.batch, e.source = i.val / 96 ∧ e.code = 0x1253 ∧ e.severity = 3) ∧
    (∀ (c : Fin 32) (q : QualityIn) (m : BitVec 32), (s.chan c).mayShow q.freq = true → (s.chan c).endedNow = some m →
      ∃ t, exec (.rxMultiframeEnd c q) s = .next t ∧ (t.chan c).fec.mfc = m ∧
        (t.chan c).fec.uncorrLast = ((s.chan c).fec.sumsOf m).uncorr ∧
        (∀ y ∈ (t.chan c).fec.sums, mfBefore m y.mfc = true) ∧ (t.chan c).endedNow = none ∧
        ((s.chan c).rx.state = .tracking → (t.chan c).ld.mfc = m ∧ (t.chan c).rx.mfc = m ∧ (t.chan c).rx.cdMeas = q.cd ∧
          (t.chan c).rx.freqOfs = q.freq))

/-- The point-to-multipoint commands (13 R301, R309 to R311, R317, R327). -/
def Obligations.MultipointCommandsComplete : Prop :=
  ∀ (s : State) (id c : Nat) (f : Flight), f.desc.target = c →
    (s.Started id 0x1500 f → f.desc.p0.bits 1 0 ≠ 3 → (s.chan c).pw.level = .dark → (s.chan c).bu.step = 0 →
      s.groupOf c = none →
      ((s.onPm c fun x => { x with mode := P2Mode.ofCode (f.desc.p0.bits 1 0) }).movesBurst c = false →
        ∃ t, exec (.p2mpMode id) s = .next t ∧ (t.chan c).pm.mode = P2Mode.ofCode (f.desc.p0.bits 1 0) ∧
          t.flight? f.id = none ∧ ∀ m, m ≠ c → (t.chan m).Same (s.chan m)) ∧
      ((s.onPm c fun x => { x with mode := P2Mode.ofCode (f.desc.p0.bits 1 0) }).movesBurst c = true →
        s.Does (.p2mpMode id) (s.finish f 0x03))) ∧
    (∀ ws, s.Started id 0x1501 f → (s.chan c).pm.mode = .hub → (Leaf.ofWords ws).badWords ws = false →
      (Leaf.ofWords ws).state ≠ .free → (s.leaf c ((wd ws 0).bits 5 0)).state = .free →
      (s.chan c).pm.conflicts ((wd ws 0).bits 5 0) (Leaf.ofWords ws) = false →
      P2mp.fits { (s.chan c).pm with
        leaves := (s.chan c).pm.leaves.insert ((wd ws 0).bits 5 0)
          ((s.leaf c ((wd ws 0).bits 5 0)).write (Leaf.ofWords ws)) } (s.chan c).bu.params.rate = true →
      ∃ t, exec (.leafSet id ws) s = .next t ∧
        t.leaf c ((wd ws 0).bits 5 0) = (s.leaf c ((wd ws 0).bits 5 0)).write (Leaf.ofWords ws) ∧
        (∀ j, j ≠ (wd ws 0).bits 5 0 → t.leaf c j = s.leaf c j) ∧ t.flight? f.id = none) ∧
    (s.Started id 0x1502 f → (s.chan c).pm.mode = .hub →
      s.Does (.leafQuery id) (s.answer f ((s.chan c).leafWords (f.desc.p0.bits 5 0)))) ∧
    (s.Started id 0x1503 f → (s.chan c).pm.mode = .hub →
      (f.desc.p0.bits 31 16 = 0 ∨ 16 ≤ f.desc.p0.bits 31 16) → 64 ≤ f.desc.p0.bits 39 32 → f.desc.p0.bits 39 32 ≤ 192 →
      3 ≤ f.desc.p0.bits 44 41 → f.desc.p0.bits 44 41 ≤ 12 →
      (∀ q ∈ (s.chan c).pm.leaves, q.2.state ≠ .free → q.2.dedMask &&& BitVec.ofNat 16 (f.desc.p0.bits 15 0) = 0) →
      (P2mp.plan { (s.chan c).pm with
        shared := BitVec.ofNat 16 (f.desc.p0.bits 15 0), discInt := f.desc.p0.bits 31 16
        detThr := f.desc.p0.bits 39 32, capOn := f.desc.p0.bit 40, capThr := f.desc.p0.bits 44 41 } (s.chan c).bu.params.rate).isSome = true →
      ∃ t, exec (.p2mpConfig id) s = .next t ∧ (t.chan c).pm.shared = BitVec.ofNat 16 (f.desc.p0.bits 15 0) ∧
        (t.chan c).pm.discInt = f.desc.p0.bits 31 16 ∧ (t.chan c).pm.detThr = f.desc.p0.bits 39 32 ∧
        (t.chan c).pm.capOn = f.desc.p0.bit 40 ∧ (t.chan c).pm.capThr = f.desc.p0.bits 44 41 ∧
        (t.chan c).pm.leaves = (s.chan c).pm.leaves ∧ t.flight? f.id = none) ∧
    (∀ ws lead q j, s.Started id 0x1504 f → (s.chan c).pm.mode = .hub → j = f.desc.p0.bits 13 8 →
      lxLead (f.desc.p0.bits 6 0) = some lead → requestClear ws = true → (requestContent ws).fwd = none →
      (requestContent ws).rev = some q → (s.leaf c j).burst = false → (s.leaf c j).assigned = true →
      ((s.enterPair c j).chan c).leafSetReason j ((s.enterPair c j).chan c).ld.rx q = 0 →
      q ≠ ((s.enterPair c j).chan c).ld.rx → (s.enterPair c j).lxBlocked c = false →
      ∃ t p, exec (.leafLoad id ws) s = .next t ∧ (t.leaf c j).ld.proposal = some p ∧ p.id = some f.id ∧
        p.content = requestContent ws ∧ p.mI = (s.chan c).tf.mfc + BitVec.ofNat 32 lead ∧ (t.chan c).ld = (s.chan c).ld) ∧
    (s.Started id 0x1505 f → (s.chan c).pm.mode = .hub → s.Does (.burstCounters id)
      (s.answer f ((List.range 16).flatMap fun i => ((s.chan c).pm.receivers.get {} i).words))) ∧
    (s.Started id 0x1506 f → (s.chan c).pm.mode = .leaf → s.Does (.leafStatus id) (s.answer f (s.chan c).pm.statusWords)) ∧
    (s.Started id 0x1507 f → (s.chan c).pm.mode = .leaf → (f.desc.p0.bit 0 = true → f.desc.p1 ≠ 0) →
      ∃ t, exec (.leafJoin id) s = .next t ∧ (t.chan c).pm.joining = f.desc.p0.bit 0 ∧
        (f.desc.p0.bit 0 = true → (t.chan c).pm.serial = f.desc.p1) ∧
        (f.desc.p0.bit 0 = false → (t.chan c).pm.join = 0 ∧ (t.chan c).pm.silent = true) ∧ t.flight? f.id = none)

/-- What hubs and leaves do by themselves: maps, discovery, bursts sent and received, records delivered, a leaf lost
(13 R313, R314, R319 to R325). A burst leaves the frame records that came whole and are still to be delivered, in their order, and a
discovery burst ranges the leaf of its serial or reports it. That a leaf keeps at most four maps is the model's own choice
(log 57). -/
def Obligations.MultipointRowsComplete : Prop :=
  ∀ (s : State) (c : Fin 32), s.boot.powered = true →
    (∀ ws, (s.chan c).pm.mode = .leaf → (s.chan c).pm.joining = true → (s.chan c).pm.mapIn = some ws →
      ∃ t, exec (.grantMap c) s = .next t ∧ (t.chan c).pm.gmIn = [] ∧ (t.chan c).pm.maps.length ≤ 4 ∧
        ∃ m, (t.chan c).pm.maps.getLast? = some m ∧ m.gov = mapGov ws) ∧
    (∀ subc, (s.chan c).pm.mode = .leaf → (s.chan c).pm.joining = true → (s.chan c).pm.join = 1 → (s.chan c).tf.sending = true →
      s.emits c = true → ((s.chan c).pm.maps.find? fun m => m.gov = (s.chan c).tf.mfc).bind (·.disc) = some subc →
      ∃ t, exec (.discoverySend c) s = .next t ∧ (∀ m ∈ (t.chan c).pm.maps, m.gov = (s.chan c).tf.mfc → m.disc = none) ∧
        ((s.chan c).pm.skip = 0 → (t.chan c).pm.join = 2 ∧ (t.chan c).pm.burstsTx = (s.chan c).pm.burstsTx + 1) ∧
        (0 < (s.chan c).pm.skip → (t.chan c).pm.join = 1 ∧ (t.chan c).pm.skip = (s.chan c).pm.skip - 1 ∧
          (t.chan c).pm.burstsTx = (s.chan c).pm.burstsTx)) ∧
    (∀ (subc : Fin 16) (start : Fin 2048) (m : LeafMap) (g : Grant), (s.chan c).pm.mode = .leaf → (s.chan c).pm.burst = true →
      (s.chan c).pm.upstream = true → (s.chan c).tf.sending = true → s.emits c = true →
      (s.chan c).pm.maps.find? (fun m => m.gov = (s.chan c).tf.mfc) = some m →
      m.grants.find? (fun g => g.subc = subc.val && g.start = start.val) = some g →
      ∃ t, exec (.burstWindow c subc start) s = .next t ∧ (t.chan c).pm.burstsTx = (s.chan c).pm.burstsTx + 1 ∧
        (t.chan c).pm.bseq = (s.chan c).pm.bseq + 1 ∧
        ∀ k ∈ (t.chan c).pm.maps, k.gov = (s.chan c).tf.mfc → g ∉ k.grants) ∧
    (∀ (i : Fin 16) (d : Nat × Nat) (part : BurstIn), s.sharedSub c i = true → (s.receiver c i).rx = .idle →
      (s.chan c).pm.detThr ≤ d.1 →
      ∃ t, exec (.burstDetect c i [d] part) s = .next t ∧ (t.receiver c i).rx = .unconfirmed d.1 d.2 ∧
        (t.receiver c i).detect = (s.receiver c i).detect + 1 ∧ (t.receiver c i).collision = (s.receiver c i).collision) ∧
    (∀ (i : Fin 16) (h : Word) (cell : Fin 2048) (ofs : Int) (corr power : Nat), s.sharedSub c i = true →
      (s.receiver c i).rx = .unconfirmed corr power → (s.chan c).headerPasses i cell h = false →
      ∃ t, exec (.burstHeaderCheck c i h cell ofs) s = .next t ∧ (t.receiver c i).rx = .idle ∧
        (t.receiver c i).hdrFail = (s.receiver c i).hdrFail + 1) ∧
    (∀ (i : Fin 16) (h : Word) (cell : Fin 2048) (ofs : Int) (corr power : Nat), s.sharedSub c i = true →
      (s.receiver c i).rx = .unconfirmed corr power → (s.chan c).headerPasses i cell h = true → h.bits 6 0 ≠ 127 →
      ∃ t, exec (.burstHeaderCheck c i h cell ofs) s = .next t ∧
        (t.receiver c i).rx = .confirmed power (h.bits 6 0) (h.bits 19 8) false cell ofs ∧
        (t.receiver c i).confirmed = (s.receiver c i).confirmed + 1 ∧
        (t.leaf c (h.bits 6 0)).bursts = (s.leaf c (h.bits 6 0)).bursts + 1) ∧
    (∀ (i : Fin 16) (x : BurstIn) (power leaf : Nat) (disc : Bool) (cell : Nat) (ofs : Int), s.sharedSub c i = true →
      (s.receiver c i).rx = .confirmed power leaf x.rows.length disc cell ofs →
      ∃ t, exec (.burstReceived c i x) s = .next t ∧ (t.receiver c i).rx = .idle ∧
        (t.receiver c i).rowsUncorr =
          (s.receiver c i).rowsUncorr + BitVec.ofNat 32 ((rowsDecoded x).filter Option.isNone).length) ∧
    (∀ (i : Fin 16) (x : BurstIn) (power leaf cell : Nat) (ofs : Int) (items : List BurstItem), s.sharedSub c i = true →
      (s.receiver c i).rx = .confirmed power leaf x.rows.length false cell ofs →
      items = burstItems (burstWords x).length (burstWords x) →
      (items.all fun | .frame _ _ _ => true | _ => false) = true →
      ∃ t, exec (.burstReceived c i x) s = .next t ∧
        (t.leaf c leaf).records = (s.leaf c leaf).records ++ (items.filterMap fun
            | .frame true h ws => some (frameRecord (s.chan c).hubCount h ws)
            | _ => none).filter (fun r => (s.leaf c leaf).delivered.all fun d => frameAfter r.mfc r.frame d.1 d.2) ∧
        (t.leaf c leaf).snrs = (min 255 x.snr :: (s.leaf c leaf).snrs).take 16) ∧
    (∀ (i : Fin 16) (x : BurstIn) (power leaf cell : Nat) (ofs : Int) (serial : Word), s.sharedSub c i = true →
      (s.receiver c i).rx = .confirmed power leaf x.rows.length true cell ofs →
      ((burstItems (burstWords x).length (burstWords x)).findSome? fun
          | .discovery true w => some w
          | _ => none) = some serial →
      ∃ t, exec (.burstReceived c i x) s = .next t ∧
        ((∀ q ∈ (s.chan c).pm.leaves, q.2.serial ≠ serial) → ∃ e ∈ t.batch, e.source = c.val ∧ e.code = 0x1522) ∧
        (∀ j y, (s.chan c).pm.leaves.find? (fun q => q.2.serial = serial &&
            (q.2.state = .expected || q.2.state = .lost || q.2.rerange)) = some (j, y) →
          (t.leaf c j).state = .ranging ∧ (t.leaf c j).eqd = (1024000 - (1000 * ((cell : Int) - 1023) + ofs)).toNat ∧
          (t.leaf c j).rerange = false)) ∧
    (∀ (j : Fin 64) (m : BitVec 32) (k : Fin 256), (s.chan c).awake = true → (s.chan c).pm.mode = .hub →
      (s.leaf c j).burst = true → (s.leaf c j).state = .active →
      (∀ d, (s.leaf c j).delivered = some d → nextNumbers d.1 d.2 = (m, k.val)) → (s.chan c).instantPast m k = true →
      ∃ t, exec (.burstRecordDelivery c j m k) s = .next t ∧ (t.leaf c j).delivered = some (m, k.val) ∧
        ∀ r ∈ (t.leaf c j).records, frameAfter r.mfc r.frame m k = true) ∧
    (∀ j : Fin 64, (s.chan c).awake = true → (s.chan c).pm.mode = .hub → (s.leaf c j).state = .active →
      ((s.leaf c j).burst = true ∧ 16 ≤ (s.leaf c j).silent) ∨ ((s.leaf c j).burst = false ∧ (s.leaf c j).lostNs.isSome = true) →
      ∃ t, exec (.leafLost c j) s = .next t ∧ (t.leaf c j).state = .lost ∧
        (t.leaf c j).slotBase = (s.leaf c j).slotBase ∧ (t.leaf c j).dedMask = (s.leaf c j).dedMask ∧
        ∃ e ∈ t.batch, e.source = c.val ∧ e.code = 0x1521)

/-- The shore commands (19 R429, R431, R432, R434): a frame that one sends stands at the end of the queue of every port by which R424
sends it. That SHORE_LASER_OFF completes at once is the model's own choice (log 66). -/
def Obligations.ShoreCommandsComplete : Prop :=
  ∀ (s : State) (id : Nat) (f : Flight),
    (s.Started id 0x1C00 f → ∃ ws, ws.length = 4 ∧
      wd ws 1 = mkWord [(0, 32, s.shore.rxBad.toNat), (32, 32, s.shore.drop.toNat)] ∧
      wd ws 2 = mkWord [(0, 32, s.shore.unreach.toNat), (32, 32, s.shore.noFw.toNat)] ∧
      s.Does (.shoreStatus id) (s.answer f ws)) ∧
    (s.Started id 0x1C01 f → s.Does (.shoreInventory id) (s.answer f s.inventory)) ∧
    (∀ dst, s.Started id 0x1C02 f → dst = f.desc.shoreDst → s.shore.address ≠ 0 → dst ≠ 0 → dst ≠ 2047 →
      dst ≠ s.shore.address →
      ∃ t, exec (.shoreInvQuery id) s = .next t ∧ t.shore.seq = s.shore.seq + 1 ∧
        (∃ w ∈ t.shore.invWaits, w.id = f.id ∧ w.dst = dst ∧ w.due = s.now + 500000000) ∧
        (s.shore.address < dst → s.shore.downNbr = true → s.shore.downQueue.length < 32 →
          t.shore.downQueue = s.shore.downQueue ++ [{ frame := s.shore.newFrame dst 1 [] }] ∧
          t.shore.upQueue = s.shore.upQueue) ∧
        (dst < s.shore.address → s.shore.upNbr = true → s.shore.upQueue.length < 32 →
          t.shore.upQueue = s.shore.upQueue ++ [{ frame := s.shore.newFrame dst 1 [] }] ∧
          t.shore.downQueue = s.shore.downQueue)) ∧
    (s.Started id 0x1C02 f → f.desc.shoreDst = s.shore.address → s.shore.address ≠ 0 → s.shore.address ≠ 2047 →
      ∃ t, exec (.shoreInvQuery id) s = .next t ∧ t.flight? f.id = none ∧ t.shore.invWaits = s.shore.invWaits) ∧
    (∀ bs dst, s.Started id 0x1C03 f → dst = f.desc.shoreDst → s.shore.address ≠ 0 → dst ≠ 0 → 1 ≤ f.desc.bufLen →
      f.desc.bufLen ≤ 1456 → bs.length = f.desc.bufLen → dst ≠ s.shore.address →
      ∃ t, exec (.shoreSend id bs) s = .next t ∧ t.shore.seq = s.shore.seq + 1 ∧ t.shore.address = s.shore.address ∧
        (dst ≠ 2047 → t.shore = ({ s.shore with seq := s.shore.seq + 1 }).route
          { frame := s.shore.newFrame dst 5 bs, cmd := some f.id } none) ∧
        (s.shore.address < dst ∨ dst = 2047 → s.shore.downNbr = true → s.shore.downQueue.length < 32 →
          t.shore.downQueue = s.shore.downQueue ++ [{ frame := s.shore.newFrame dst 5 bs, cmd := some f.id }]) ∧
        (dst < s.shore.address ∨ dst = 2047 → s.shore.upNbr = true → s.shore.upQueue.length < 32 →
          t.shore.upQueue = s.shore.upQueue ++ [{ frame := s.shore.newFrame dst 5 bs, cmd := some f.id }])) ∧
    (∀ bs, s.Started id 0x1C03 f → f.desc.shoreDst = s.shore.address → s.shore.address ≠ 0 → 1 ≤ f.desc.bufLen →
      f.desc.bufLen ≤ 1456 → bs.length = f.desc.bufLen →
      ∃ t, exec (.shoreSend id bs) s = .next t ∧ t.flight? f.id = none ∧ t.shore.seq = s.shore.seq + 1 ∧
        t.shore.downQueue = s.shore.downQueue ∧ t.shore.upQueue = s.shore.upQueue) ∧
    (s.Started id 0x1C04 f → s.shore.address ≠ 0 → f.desc.shoreDst ≠ 0 →
      ∃ t, exec (.shoreLaserOff id) s = .next t ∧ t.flight? f.id = none ∧
        (f.desc.shoreDst = s.shore.address ∨ f.desc.shoreDst = 2047 → t.shore.laserOff = f.desc.p0.bit 16) ∧
        (f.desc.shoreDst ≠ s.shore.address → f.desc.shoreDst ≠ 2047 → t.shore.laserOff = s.shore.laserOff ∧
          t.shore.seq = s.shore.seq + 1) ∧
        (s.shore.address < f.desc.shoreDst → s.shore.downNbr = true → s.shore.downQueue.length < 32 →
          ∃ q, t.shore.downQueue = q :: s.shore.downQueue ∧ q.frame.typ = 4 ∧ q.frame.dst = f.desc.shoreDst ∧
            (q.frame.word 0).bit 0 = f.desc.p0.bit 16 ∧ (q.frame.word 0).bits 63 32 = f.desc.p1.bits 31 0))

/-- Shore frames that arrive (19 R423 to R432). An address of 2,047 is adopted as none, and a MSG fills the oldest buffer posted on
the primary link's receive ring, whose record shows SRC and SEQ. -/
def Obligations.ShoreFramesHandled : Prop :=
  ∀ (s : State) (down : Bool) (f : Machine.ShoreFrame), f.hops < 2046 →
    (s.shoreRow f 6 = true → f.dst = 0 → ∃ t, exec (.hello down f) s = .next t ∧
      (if down then t.shore.downNbr = true ∧ t.shore.downSeen = s.now else t.shore.upNbr = true ∧ t.shore.upSeen = s.now)) ∧
    (s.shoreRow f 0 = true → f.dst = 0 → (f.word 0).bits 10 0 ≠ s.shore.address →
      ∃ t, exec (.addrAssign false f) s = .next t ∧ t.shore.head = false ∧
        t.shore.address = (if (f.word 0).bits 10 0 = 2047 then 0 else (f.word 0).bits 10 0) ∧
        (t.shore.beyond = true ↔ (f.word 0).bits 10 0 = 2047) ∧ ∃ e ∈ t.batch, e.source = 32 ∧ e.code = 0x1C20) ∧
    (s.shoreRow f 1 = true → f.dst = s.shore.address → ∃ t, exec (.invReq down f) s = .next t ∧
      if s.boot.running then t.shore.seq = s.shore.seq + 1 else t.shore.noFw = s.shore.noFw + 1) ∧
    (∀ w, s.shoreRow f 2 = true → f.dst = s.shore.address → s.shore.invWaits.find? (fun w => w.dst = f.src) = some w →
      ∃ t, exec (.invResp down f) s = .next t ∧ t.flight? w.id = none ∧ ∀ q ∈ t.shore.invWaits, q.id ≠ w.id) ∧
    (s.shoreRow f 3 = true → s.shore.takes f.dst = true → s.shore.head = true →
      ∃ t, exec (.alarm down f) s = .next t ∧ ∃ e ∈ t.batch, e.source = 32 ∧ e.code = 0x1C22) ∧
    (s.shoreRow f 4 = true → s.shore.takes f.dst = true →
      ∃ t, exec (.laserOff down f) s = .next t ∧ t.shore.laserOff = (f.word 0).bit 0) ∧
    (s.shoreRow f 5 = true → f.body.length ≠ 0 → s.shore.takes f.dst = true → s.boot.running = true →
      s.messageRing 32 (some s.primary) = none →
      ∃ t, exec (.msg down f) s = .next t ∧ ∃ e ∈ t.batch, e.source = 32 ∧ e.code = 0x1C24) ∧
    (∀ r g, s.shoreRow f 5 = true → f.body.length ≠ 0 → s.shore.takes f.dst = true → s.boot.running = true →
      s.messageRing 32 (some s.primary) = some r → ((s.ring r).posted.head?).bind s.flight? = some g →
      ∃ t, exec (.msg down f) s = .next t ∧ t.flight? g.id = none ∧ (t.ring r).posted = (s.ring r).posted.drop 1 ∧
        (f.dst = s.shore.address →
          s.Does (.msg down f) (((((s.onShore fun x => x.heard down s.now).onRing r fun x => { x with posted := x.posted.drop 1 }
            ).writeBuf g 0 f.body)).finish g (if g.desc.bufLen < f.body.length then 0x20 else 0)
              (some (min g.desc.bufLen f.body.length)) (some (f.src + 65536 * f.seq.toNat))))) ∧
    (s.shoreRow f 5 = true → f.body.length ≠ 0 → s.shore.address ≠ 0 → s.shore.address < f.dst → f.dst ≠ 2047 →
      s.shore.downNbr = true → s.shore.downQueue.length < 32 →
      ∃ t, exec (.msg false f) s = .next t ∧ t.shore.upQueue = s.shore.upQueue ∧
        t.shore.downQueue = s.shore.downQueue ++ [{ frame := { f with hops := f.hops + 1 } }]) ∧
    (s.boot.powered = true → ∃ t, exec (.shoreFrameBad down) s = .next t ∧ t.shore.rxBad = s.shore.rxBad + 1)

/-- The shore chain's timers, queues and alarms, and the module's laser-off pin and derating (19 R424 to R431; 22
R476, R480). -/
def Obligations.ShoreRowsComplete : Prop :=
  ∀ (s : State), s.boot.powered = true →
    (∃ t, exec .helloTimer s = .next t ∧ t.shore.helloDue = s.shore.helloDue + 100000000 ∧
      t.shore.seq = s.shore.seq + 2 ∧ s.shore.helloDue ≤ t.now) ∧
    (s.shore.downNbr = true → ∃ t, exec (.shoreNeighbourLost true) s = .next t ∧ t.shore.downNbr = false ∧
      t.shore.alarm1.isSome = true ∧ ∃ e ∈ t.batch, e.source = 32 ∧ e.code = 0x1C21) ∧
    (s.shore.upNbr = true → ∃ t, exec (.shoreNeighbourLost false) s = .next t ∧ t.shore.upNbr = false ∧
      ∃ e ∈ t.batch, e.source = 32 ∧ e.code = 0x1C21) ∧
    (s.shore.address = 0 → s.shore.tA = none → s.shore.upHello = false →
      ∃ t, exec .headTimeout s = .next t ∧ t.shore.address = 1 ∧ t.shore.head = true ∧ 1000000000 ≤ t.now) ∧
    (s.shore.address ≠ 0 → ∃ t, exec .addrAssignTimer s = .next t ∧ t.shore.assignDue = t.now + 1000000000 ∧
      t.shore.seq = s.shore.seq + 1) ∧
    (∀ due, s.shore.alarm1 = some due → ∃ t, exec (.alarmRepeatTimer false) s = .next t ∧
      t.shore.alarm1 = some (due + 10000000000) ∧ due ≤ t.now) ∧
    (∀ due, s.shore.alarm2 = some due → ∃ t, exec (.alarmRepeatTimer true) s = .next t ∧
      t.shore.alarm2 = some (due + 10000000000) ∧ due ≤ t.now) ∧
    (s.boot.running = false → s.shore.alarm2 = none → ∃ t, exec .lighthouseNotRunning s = .next t ∧
      t.shore.alarm2.isSome = true ∧ s.boot.beganNs + 2000000000 ≤ t.now) ∧
    (∀ due, s.shore.laserOff = true → s.shore.holdDue = some due →
      ∃ t, exec .laserOffHoldExpiry s = .next t ∧ t.shore.laserOff = false ∧ t.shore.holdDue = none ∧ due ≤ t.now) ∧
    (s.boot.laserOffN = false → ∃ t, exec .laserOffNAssert s = .next t ∧ t.boot.laserOffN = true) ∧
    (s.boot.laserOffN = true → ∃ t, exec .laserOffNRelease s = .next t ∧ t.boot.laserOffN = false) ∧
    (s.boot.derating = false → ∃ t, exec .deratingBegin s = .next t ∧ t.boot.derating = true) ∧
    (s.boot.derating = true → ∃ t, exec .deratingEnd s = .next t ∧ t.boot.derating = false ∧ t.boot.hot = false) ∧
    (∀ id w, s.shore.invWaits.find? (fun w => w.id = id) = some w →
      ∃ t, exec (.shoreInvTimeout id) s = .next t ∧ t.flight? id = none ∧ (∀ q ∈ t.shore.invWaits, q.id ≠ id) ∧ w.due ≤ t.now) ∧
    (∀ q, s.shore.downQueue.head? = some q → ∃ t, exec (.shoreFrameSent true) s = .next t ∧
      t.shore.downQueue = s.shore.downQueue.drop 1 ∧ Output.shore true q.frame.macBytes ∈ t.out) ∧
    (∀ q, s.shore.upQueue.head? = some q → ∃ t, exec (.shoreFrameSent false) s = .next t ∧
      t.shore.upQueue = s.shore.upQueue.drop 1 ∧ Output.shore false q.frame.macBytes ∈ t.out)

/-- The ageing commands (16 R378, R384). Trend samples, and the hourly and daily records with the number of them that
are kept (16 R375, R376, R383). -/
def Obligations.AgeingComplete : Prop :=
  (∀ (s : State) (id c : Nat) (f : Flight), f.desc.target = c →
     (s.Started id 0x1B00 f → f.desc.p0.bits 7 0 ≤ 64 → f.desc.p0.bits 9 8 ≠ 3 → (lxLead (f.desc.p0.bits 17 11)).isSome = true →
       (f.desc.p0.bits 9 8 = 0 ∨ (s.chan c).pm.mode = .pointToPoint) →
       s.Does (.ageConfig id) ((s.onAge c fun x => { x with
         target := f.desc.p0.bits 7 0, autonomy := f.desc.p0.bits 9 8, save := f.desc.p0.bit 10
         lead := f.desc.p0.bits 17 11 }).finish f 0)) ∧
     (s.Started id 0x1B01 f → ∃ ws, ws.length = 4 ∧
       wd ws 2 = mkWord [(0, 32, (s.chan c).age.replans.toNat), (32, 32, (s.chan c).age.proposals.toNat)] ∧
       wd ws 3 = mkWord [(0, 32, (s.chan c).age.shortfalls.toNat)] ∧ s.Does (.ageStatus id) (s.answer f ws)) ∧
     (∀ rs n, s.Started id 0x1B02 f → n = f.desc.p0.bits 41 32 → 1 ≤ n → n ≤ 512 →
       rs = (if f.desc.p0.bit 42 then (s.chan c).age.daily else (s.chan c).age.hourly).filter (fun r =>
         f.desc.p0.bits 31 0 ≤ r.seq.toNat && r.seq.toNat < f.desc.p0.bits 31 0 + n) →
       s.Does (.ageLedgerRead id) (s.answer f (rs.flatMap fun r => r.words c) (some rs.length))) ∧
     (∀ ws, s.Started id 0x1B03 f → (s.chan c).age.proposal = some ws →
       s.Does (.ageProposal id) (s.answer f (List.replicate 8 0 ++ ws))) ∧
     (s.Started id 0x1B03 f → (s.chan c).age.proposal = none → s.Does (.ageProposal id) (s.finish f 0x20)) ∧
     (∀ bytes, s.Started id 0x1B04 f → bytes = (((s.chan c).age.shortfall.getD []) ++ [0xFFFF]).flatMap (leBytes 2) →
       (bytes.length ≤ f.desc.bufLen → s.Does (.ageShortfall id) ((s.writeBuf f 0 bytes).finish f 0)) ∧
       (f.desc.bufLen < bytes.length → s.Does (.ageShortfall id) (s.finish f 0x01)))) ∧
  (∀ (s : State) (c : Fin 32), s.boot.powered = true →
     (∀ x : TrendIn, (s.chan c).awake = true → ∃ t, exec (.trendSample c x) s = .next t ∧
       (t.chan c).age.upMin = (s.chan c).age.upMin + 1 ∧
       ∃ q, (t.chan c).age.samples = (s.chan c).age.samples ++ [q]) ∧
     (∃ t r, exec (.hourlyRecord c) s = .next t ∧ (t.chan c).age.hourly.getLast? = some r ∧ r.daily = false ∧
       r.powerH = s.powerHours ∧ r.upH = (s.chan c).age.upMin / 60 ∧ r.mean = Trend.mean (s.chan c).age.samples ∧
       (t.chan c).age.hourly.length ≤ 168 ∧ (t.chan c).age.samples = []) ∧
     (nextMark s (s.chan c).age.days 86400000000000 ≤ (s.chan c).age.hours * 3600000000000 →
       ∃ t r, exec (.dailyRecord c) s = .next t ∧ (t.chan c).age.daily.getLast? = some r ∧ r.daily = true ∧
         r.seq = (s.chan c).age.dailySeq ∧ (t.chan c).age.dailySeq = (s.chan c).age.dailySeq + 1 ∧
         (t.chan c).age.daily.length ≤ 4096 ∧ (t.chan c).age.today = []))

/-- An uncorrectable error is counted and reported with its kind; a keeper that trapped restarts (17 R393, R396; 21
R460). A deadline that expires ends its command, not before its time: it is no longer in flight, and a bring-up stops
where it stands with its output closed (02 R30 to R32; 11 R256). A CHAN_RESET that runs is Dark before its deadline, by the model's
inference (log 110). -/
def Obligations.FaultsAndDeadlines : Prop :=
  (∀ (s : State),
     (∀ (k : Fin 33) (addr : BitVec 32) (kind : Fin 7), s.boot.powered = true → kind.val ≠ 0 →
       inside addr.toNat 8 (sramBase k) (sramSize k) = true → addr.toNat % 8 = 0 →
       kindPlace kind.val k.val addr.toNat = true →
       ∃ t, exec (.uncorrectableError k addr kind none none false) s = .next t ∧
         (t.sram k).uncorr = (s.sram k).uncorr + 1 ∧ (∃ e ∈ t.batch, e.source = k.val ∧ e.code = 0x1840) ∧
         (kind.val = 1 → (t.chan k).keeperDown = true) ∧ (kind.val = 2 → t.boot.running = false)) ∧
     (∀ c : Fin 32, s.boot.powered = true → (s.chan c).keeperDown = true →
       ∃ t, exec (.keeperRestartDone c) s = .next t ∧ (t.chan c).keeperDown = false ∧
         (t.chan c).keeperVer = s.sec.runningVer ∧ (t.chan c).bu = (s.chan c).bu ∧ (t.chan c).tf = (s.chan c).tf ∧
         ∀ m : Fin 32, m ≠ c → (t.chan m).Same (s.chan m))) ∧
  (∀ (s : State) (id : Nat) (f : Flight) (due : Nat) (whole : Bool) (part : Nat),
     s.flight? id = some f → s.boot.powered = true → (f.limited = true → f.phase ≠ .fetched) →
     s.dueAt f = some due →
     (f.desc.opcode ≠ 0x1400 ∨ f.phase ≠ .running → (f.desc.opcode = 0x1410 → f.phase ≠ .running) →
       ∃ t, exec (.commandDeadlineExpiry id whole part) s = .next t ∧ t.flight? id = none ∧ due ≤ t.now) ∧
     (∀ c, f.desc.opcode = 0x1400 → f.phase = .running → f.desc.target = c → (s.chan c).bu.cmd = some id →
       ∃ t, exec (.commandDeadlineExpiry id whole part) s = .next t ∧ t.flight? id = none ∧ due ≤ t.now ∧
         (t.chan c).bu.stopped = true ∧ (t.chan c).bu.step = (s.chan c).bu.step ∧ (t.chan c).opt.shutter = true))
end

