-- ==== Sys2Proof/Laws/Sparse.lean ====
section
/-! SUPPORT. Laws of sparse maps: what a map reads after a change, and that changes keep the canonical form. -/

namespace Sys2Proof.Machine

variable {α : Type}

@[simp] theorem Sparse.get_nil (d : α) (i : Nat) : Sparse.get d [] i = d := rfl

@[simp] theorem Sparse.get_insert_same (d : α) (m : Sparse α) (i : Nat) (x : α) : Sparse.get d (m.insert i x) i = x := by
  induction m with
  | nil => simp [Sparse.insert, Sparse.get]
  | cons p m ih =>
    obtain ⟨k, v⟩ := p
    unfold Sparse.insert
    split
    · simp [Sparse.get]
    · split <;> simp_all [Sparse.get]

@[simp] theorem Sparse.get_insert_ne (d : α) (m : Sparse α) {i j : Nat} (x : α) (h : j ≠ i) :
    Sparse.get d (m.insert i x) j = Sparse.get d m j := by
  induction m with
  | nil => simp [Sparse.insert, Sparse.get, h]
  | cons p m ih =>
    obtain ⟨k, v⟩ := p
    unfold Sparse.insert
    split
    · simp [Sparse.get, h]
    · split
      · rename_i _ hk
        subst hk
        simp [Sparse.get, h]
      · simp [Sparse.get, ih]

theorem Sparse.get_insert (d : α) (m : Sparse α) (i j : Nat) (x : α) :
    Sparse.get d (m.insert i x) j = if j = i then x else Sparse.get d m j := by
  by_cases h : j = i <;> simp [h]

theorem Sparse.rising_mono {m : Sparse α} {n k : Nat} (h : n ≤ k) (hm : m.rising k = true) : m.rising n = true := by
  cases m with
  | nil => rfl
  | cons p m =>
    simp only [Sparse.rising, Bool.and_eq_true, decide_eq_true_eq] at hm ⊢
    exact ⟨by omega, hm.2⟩

theorem Sparse.rising_insert {m : Sparse α} {n : Nat} (i : Nat) (x : α) (h : n ≤ i) (hm : m.rising n = true) :
    (m.insert i x).rising n = true := by
  induction m generalizing n with
  | nil => simp [Sparse.insert, Sparse.rising, h]
  | cons p m ih =>
    obtain ⟨k, v⟩ := p
    simp only [Sparse.rising, Bool.and_eq_true, decide_eq_true_eq] at hm
    unfold Sparse.insert
    split
    · simp only [Sparse.rising, Bool.and_eq_true, decide_eq_true_eq]
      exact ⟨h, by omega, hm.2⟩
    · split
      · rename_i _ hk
        subst hk
        simp [Sparse.rising, h, hm.2]
      · simp only [Sparse.rising, Bool.and_eq_true, decide_eq_true_eq]
        exact ⟨hm.1, ih (by omega) hm.2⟩

theorem Sparse.rising_erase {m : Sparse α} {n : Nat} (i : Nat) (hm : m.rising n = true) : (m.erase i).rising n = true := by
  induction m generalizing n with
  | nil => rfl
  | cons p m ih =>
    obtain ⟨k, v⟩ := p
    simp only [Sparse.rising, Bool.and_eq_true, decide_eq_true_eq] at hm
    unfold Sparse.erase
    split
    · exact Sparse.rising_mono (by omega) hm.2
    · simp only [Sparse.rising, Bool.and_eq_true, decide_eq_true_eq]
      exact ⟨hm.1, ih hm.2⟩

/-- Below its first key a rising map reads the default. -/
theorem Sparse.get_below (d : α) {m : Sparse α} {n i : Nat} (hm : m.rising n = true) (h : i < n) : Sparse.get d m i = d := by
  induction m generalizing n with
  | nil => rfl
  | cons p m ih =>
    obtain ⟨k, v⟩ := p
    simp only [Sparse.rising, Bool.and_eq_true, decide_eq_true_eq] at hm
    have : i ≠ k := by omega
    simp only [Sparse.get, this, if_false]
    exact ih hm.2 (by omega)

theorem Sparse.get_erase_same (d : α) {m : Sparse α} {n : Nat} (hm : m.rising n = true) (i : Nat) :
    Sparse.get d (m.erase i) i = d := by
  induction m generalizing n with
  | nil => rfl
  | cons p m ih =>
    obtain ⟨k, v⟩ := p
    simp only [Sparse.rising, Bool.and_eq_true, decide_eq_true_eq] at hm
    unfold Sparse.erase
    split
    · rename_i hk
      subst hk
      exact Sparse.get_below d hm.2 (by omega)
    · rename_i hk
      simp only [Sparse.get, hk, if_false]
      exact ih hm.2

@[simp] theorem Sparse.get_erase_ne (d : α) (m : Sparse α) {i j : Nat} (h : j ≠ i) :
    Sparse.get d (m.erase i) j = Sparse.get d m j := by
  induction m with
  | nil => rfl
  | cons p m ih =>
    obtain ⟨k, v⟩ := p
    unfold Sparse.erase
    split
    · rename_i hk
      subst hk
      simp [Sparse.get, h]
    · simp [Sparse.get, ih]

/-- A write in canonical form reads back, whatever the value. -/
theorem Sparse.get_put_same [DecidableEq α] (d : α) {m : Sparse α} {n : Nat} (hm : m.rising n = true) (i : Nat) (x : α) :
    Sparse.get d (m.put d i x) i = x := by
  unfold Sparse.put
  split
  · rename_i h
    subst h
    exact Sparse.get_erase_same x hm i
  · exact Sparse.get_insert_same d m i x

@[simp] theorem Sparse.get_put_ne [DecidableEq α] (d : α) (m : Sparse α) {i j : Nat} (x : α) (h : j ≠ i) :
    Sparse.get d (m.put d i x) j = Sparse.get d m j := by
  unfold Sparse.put
  split <;> simp [h]

theorem Sparse.mem_insert {m : Sparse α} {i : Nat} {x : α} {p : Nat × α} (h : p ∈ m.insert i x) : p = (i, x) ∨ p ∈ m := by
  induction m with
  | nil => simp [Sparse.insert] at h; simp [h]
  | cons q m ih =>
    obtain ⟨k, v⟩ := q
    unfold Sparse.insert at h
    split at h
    · simpa using h
    · split at h
      · rcases List.mem_cons.1 h with h | h
        · exact .inl h
        · exact .inr (List.mem_cons_of_mem _ h)
      · simp only [List.mem_cons] at h ⊢
        rcases h with h | h
        · exact .inr (.inl h)
        · exact (ih h).imp_right .inr

theorem Sparse.mem_erase {m : Sparse α} {i : Nat} {p : Nat × α} (h : p ∈ m.erase i) : p ∈ m := by
  induction m with
  | nil => simp [Sparse.erase] at h
  | cons q m ih =>
    obtain ⟨k, v⟩ := q
    unfold Sparse.erase at h
    split at h
    · exact List.mem_cons_of_mem _ h
    · simp only [List.mem_cons] at h ⊢
      exact h.imp_right ih

/-- A write in canonical form keeps it. -/
theorem Sparse.wf_put [DecidableEq α] {d : α} {m : Sparse α} (hm : m.wf d = true) (i : Nat) (x : α) :
    (m.put d i x).wf d = true := by
  simp only [Sparse.wf, Bool.and_eq_true, List.all_eq_true, decide_eq_true_eq] at *
  unfold Sparse.put
  split
  · exact ⟨Sparse.rising_erase i hm.1, fun p hp => hm.2 p (Sparse.mem_erase hp)⟩
  · rename_i hx
    refine ⟨Sparse.rising_insert i x (Nat.zero_le i) hm.1, fun p hp => ?_⟩
    rcases Sparse.mem_insert hp with rfl | hp
    · exact hx
    · exact hm.2 p hp

end Sys2Proof.Machine
end

