-- ==== Sys2Proof/Laws/State.lean ====
section
/-! SUPPORT. What each update of the state leaves as it was, field by field, and what a numbered collection reads after one
of its entries has been set. -/

namespace Sys2Proof.Machine

/-! ### `State.setChan` -/

@[simp] theorem State.setChan_now (s : State) (c : Nat) (x : Channel) : (s.setChan c x).now = s.now := rfl
@[simp] theorem State.setChan_boot (s : State) (c : Nat) (x : Channel) : (s.setChan c x).boot = s.boot := rfl
@[simp] theorem State.setChan_sec (s : State) (c : Nat) (x : Channel) : (s.setChan c x).sec = s.sec := rfl
@[simp] theorem State.setChan_shore (s : State) (c : Nat) (x : Channel) : (s.setChan c x).shore = s.shore := rfl
@[simp] theorem State.setChan_tm (s : State) (c : Nat) (x : Channel) : (s.setChan c x).tm = s.tm := rfl
@[simp] theorem State.setChan_powerHours (s : State) (c : Nat) (x : Channel) : (s.setChan c x).powerHours = s.powerHours := rfl
@[simp] theorem State.setChan_hourDue (s : State) (c : Nat) (x : Channel) : (s.setChan c x).hourDue = s.hourDue := rfl
@[simp] theorem State.setChan_groups (s : State) (c : Nat) (x : Channel) : (s.setChan c x).groups = s.groups := rfl
@[simp] theorem State.setChan_convs (s : State) (c : Nat) (x : Channel) : (s.setChan c x).convs = s.convs := rfl
@[simp] theorem State.setChan_srams (s : State) (c : Nat) (x : Channel) : (s.setChan c x).srams = s.srams := rfl
@[simp] theorem State.setChan_mem (s : State) (c : Nat) (x : Channel) : (s.setChan c x).mem = s.mem := rfl
@[simp] theorem State.setChan_written (s : State) (c : Nat) (x : Channel) : (s.setChan c x).written = s.written := rfl
@[simp] theorem State.setChan_retireList (s : State) (c : Nat) (x : Channel) : (s.setChan c x).retireList = s.retireList := rfl
@[simp] theorem State.setChan_jobKeys (s : State) (c : Nat) (x : Channel) : (s.setChan c x).jobKeys = s.jobKeys := rfl
@[simp] theorem State.setChan_jobs (s : State) (c : Nat) (x : Channel) : (s.setChan c x).jobs = s.jobs := rfl
@[simp] theorem State.setChan_copyIns (s : State) (c : Nat) (x : Channel) : (s.setChan c x).copyIns = s.copyIns := rfl
@[simp] theorem State.setChan_links (s : State) (c : Nat) (x : Channel) : (s.setChan c x).links = s.links := rfl
@[simp] theorem State.setChan_rings (s : State) (c : Nat) (x : Channel) : (s.setChan c x).rings = s.rings := rfl
@[simp] theorem State.setChan_part (s : State) (c : Nat) (x : Channel) : (s.setChan c x).part = s.part := rfl
@[simp] theorem State.setChan_flights (s : State) (c : Nat) (x : Channel) : (s.setChan c x).flights = s.flights := rfl
@[simp] theorem State.setChan_nextId (s : State) (c : Nat) (x : Channel) : (s.setChan c x).nextId = s.nextId := rfl
@[simp] theorem State.setChan_batch (s : State) (c : Nat) (x : Channel) : (s.setChan c x).batch = s.batch := rfl
@[simp] theorem State.setChan_seen (s : State) (c : Nat) (x : Channel) : (s.setChan c x).seen = s.seen := rfl
@[simp] theorem State.setChan_since (s : State) (c : Nat) (x : Channel) : (s.setChan c x).since = s.since := rfl
@[simp] theorem State.setChan_lowWater (s : State) (c : Nat) (x : Channel) : (s.setChan c x).lowWater = s.lowWater := rfl
@[simp] theorem State.setChan_lowReport (s : State) (c : Nat) (x : Channel) : (s.setChan c x).lowReport = s.lowReport := rfl
@[simp] theorem State.setChan_out (s : State) (c : Nat) (x : Channel) : (s.setChan c x).out = s.out := rfl
@[simp] theorem State.setChan_free (s : State) (c : Nat) (x : Channel) : (s.setChan c x).free = s.free := rfl
@[simp] theorem State.setChan_pending (s : State) (c : Nat) (x : Channel) : (s.setChan c x).pending = s.pending := rfl
@[simp] theorem State.setChan_ring (s : State) (c : Nat) (x : Channel) (i : Nat) : (s.setChan c x).ring i = s.ring i := rfl
@[simp] theorem State.setChan_link (s : State) (c : Nat) (x : Channel) (i : Nat) : (s.setChan c x).link i = s.link i := rfl
@[simp] theorem State.setChan_conv (s : State) (c : Nat) (x : Channel) (i : Nat) : (s.setChan c x).conv i = s.conv i := rfl
@[simp] theorem State.setChan_sram (s : State) (c : Nat) (x : Channel) (i : Nat) : (s.setChan c x).sram i = s.sram i := rfl
@[simp] theorem State.setChan_group (s : State) (c : Nat) (x : Channel) (i : Nat) : (s.setChan c x).group i = s.group i := rfl
@[simp] theorem State.setChan_entry (s : State) (c : Nat) (x : Channel) (i : Nat) : (s.setChan c x).entry i = s.entry i := rfl

/-! ### `State.setRing` -/

@[simp] theorem State.setRing_now (s : State) (r : Nat) (x : Ring) : (s.setRing r x).now = s.now := rfl
@[simp] theorem State.setRing_boot (s : State) (r : Nat) (x : Ring) : (s.setRing r x).boot = s.boot := rfl
@[simp] theorem State.setRing_sec (s : State) (r : Nat) (x : Ring) : (s.setRing r x).sec = s.sec := rfl
@[simp] theorem State.setRing_shore (s : State) (r : Nat) (x : Ring) : (s.setRing r x).shore = s.shore := rfl
@[simp] theorem State.setRing_tm (s : State) (r : Nat) (x : Ring) : (s.setRing r x).tm = s.tm := rfl
@[simp] theorem State.setRing_powerHours (s : State) (r : Nat) (x : Ring) : (s.setRing r x).powerHours = s.powerHours := rfl
@[simp] theorem State.setRing_hourDue (s : State) (r : Nat) (x : Ring) : (s.setRing r x).hourDue = s.hourDue := rfl
@[simp] theorem State.setRing_channels (s : State) (r : Nat) (x : Ring) : (s.setRing r x).channels = s.channels := rfl
@[simp] theorem State.setRing_groups (s : State) (r : Nat) (x : Ring) : (s.setRing r x).groups = s.groups := rfl
@[simp] theorem State.setRing_convs (s : State) (r : Nat) (x : Ring) : (s.setRing r x).convs = s.convs := rfl
@[simp] theorem State.setRing_srams (s : State) (r : Nat) (x : Ring) : (s.setRing r x).srams = s.srams := rfl
@[simp] theorem State.setRing_mem (s : State) (r : Nat) (x : Ring) : (s.setRing r x).mem = s.mem := rfl
@[simp] theorem State.setRing_written (s : State) (r : Nat) (x : Ring) : (s.setRing r x).written = s.written := rfl
@[simp] theorem State.setRing_retireList (s : State) (r : Nat) (x : Ring) : (s.setRing r x).retireList = s.retireList := rfl
@[simp] theorem State.setRing_jobKeys (s : State) (r : Nat) (x : Ring) : (s.setRing r x).jobKeys = s.jobKeys := rfl
@[simp] theorem State.setRing_jobs (s : State) (r : Nat) (x : Ring) : (s.setRing r x).jobs = s.jobs := rfl
@[simp] theorem State.setRing_copyIns (s : State) (r : Nat) (x : Ring) : (s.setRing r x).copyIns = s.copyIns := rfl
@[simp] theorem State.setRing_links (s : State) (r : Nat) (x : Ring) : (s.setRing r x).links = s.links := rfl
@[simp] theorem State.setRing_part (s : State) (r : Nat) (x : Ring) : (s.setRing r x).part = s.part := rfl
@[simp] theorem State.setRing_flights (s : State) (r : Nat) (x : Ring) : (s.setRing r x).flights = s.flights := rfl
@[simp] theorem State.setRing_nextId (s : State) (r : Nat) (x : Ring) : (s.setRing r x).nextId = s.nextId := rfl
@[simp] theorem State.setRing_batch (s : State) (r : Nat) (x : Ring) : (s.setRing r x).batch = s.batch := rfl
@[simp] theorem State.setRing_seen (s : State) (r : Nat) (x : Ring) : (s.setRing r x).seen = s.seen := rfl
@[simp] theorem State.setRing_since (s : State) (r : Nat) (x : Ring) : (s.setRing r x).since = s.since := rfl
@[simp] theorem State.setRing_lowWater (s : State) (r : Nat) (x : Ring) : (s.setRing r x).lowWater = s.lowWater := rfl
@[simp] theorem State.setRing_lowReport (s : State) (r : Nat) (x : Ring) : (s.setRing r x).lowReport = s.lowReport := rfl
@[simp] theorem State.setRing_out (s : State) (r : Nat) (x : Ring) : (s.setRing r x).out = s.out := rfl
@[simp] theorem State.setRing_free (s : State) (r : Nat) (x : Ring) : (s.setRing r x).free = s.free := rfl
@[simp] theorem State.setRing_pending (s : State) (r : Nat) (x : Ring) : (s.setRing r x).pending = s.pending := rfl
@[simp] theorem State.setRing_chan (s : State) (r : Nat) (x : Ring) (i : Nat) : (s.setRing r x).chan i = s.chan i := rfl
@[simp] theorem State.setRing_link (s : State) (r : Nat) (x : Ring) (i : Nat) : (s.setRing r x).link i = s.link i := rfl
@[simp] theorem State.setRing_conv (s : State) (r : Nat) (x : Ring) (i : Nat) : (s.setRing r x).conv i = s.conv i := rfl
@[simp] theorem State.setRing_sram (s : State) (r : Nat) (x : Ring) (i : Nat) : (s.setRing r x).sram i = s.sram i := rfl
@[simp] theorem State.setRing_group (s : State) (r : Nat) (x : Ring) (i : Nat) : (s.setRing r x).group i = s.group i := rfl
@[simp] theorem State.setRing_entry (s : State) (r : Nat) (x : Ring) (i : Nat) : (s.setRing r x).entry i = s.entry i := rfl

/-! ### `State.setLink` -/

@[simp] theorem State.setLink_now (s : State) (n : Nat) (x : Link) : (s.setLink n x).now = s.now := rfl
@[simp] theorem State.setLink_boot (s : State) (n : Nat) (x : Link) : (s.setLink n x).boot = s.boot := rfl
@[simp] theorem State.setLink_sec (s : State) (n : Nat) (x : Link) : (s.setLink n x).sec = s.sec := rfl
@[simp] theorem State.setLink_shore (s : State) (n : Nat) (x : Link) : (s.setLink n x).shore = s.shore := rfl
@[simp] theorem State.setLink_tm (s : State) (n : Nat) (x : Link) : (s.setLink n x).tm = s.tm := rfl
@[simp] theorem State.setLink_powerHours (s : State) (n : Nat) (x : Link) : (s.setLink n x).powerHours = s.powerHours := rfl
@[simp] theorem State.setLink_hourDue (s : State) (n : Nat) (x : Link) : (s.setLink n x).hourDue = s.hourDue := rfl
@[simp] theorem State.setLink_channels (s : State) (n : Nat) (x : Link) : (s.setLink n x).channels = s.channels := rfl
@[simp] theorem State.setLink_groups (s : State) (n : Nat) (x : Link) : (s.setLink n x).groups = s.groups := rfl
@[simp] theorem State.setLink_convs (s : State) (n : Nat) (x : Link) : (s.setLink n x).convs = s.convs := rfl
@[simp] theorem State.setLink_srams (s : State) (n : Nat) (x : Link) : (s.setLink n x).srams = s.srams := rfl
@[simp] theorem State.setLink_mem (s : State) (n : Nat) (x : Link) : (s.setLink n x).mem = s.mem := rfl
@[simp] theorem State.setLink_written (s : State) (n : Nat) (x : Link) : (s.setLink n x).written = s.written := rfl
@[simp] theorem State.setLink_retireList (s : State) (n : Nat) (x : Link) : (s.setLink n x).retireList = s.retireList := rfl
@[simp] theorem State.setLink_jobKeys (s : State) (n : Nat) (x : Link) : (s.setLink n x).jobKeys = s.jobKeys := rfl
@[simp] theorem State.setLink_jobs (s : State) (n : Nat) (x : Link) : (s.setLink n x).jobs = s.jobs := rfl
@[simp] theorem State.setLink_copyIns (s : State) (n : Nat) (x : Link) : (s.setLink n x).copyIns = s.copyIns := rfl
@[simp] theorem State.setLink_rings (s : State) (n : Nat) (x : Link) : (s.setLink n x).rings = s.rings := rfl
@[simp] theorem State.setLink_part (s : State) (n : Nat) (x : Link) : (s.setLink n x).part = s.part := rfl
@[simp] theorem State.setLink_flights (s : State) (n : Nat) (x : Link) : (s.setLink n x).flights = s.flights := rfl
@[simp] theorem State.setLink_nextId (s : State) (n : Nat) (x : Link) : (s.setLink n x).nextId = s.nextId := rfl
@[simp] theorem State.setLink_batch (s : State) (n : Nat) (x : Link) : (s.setLink n x).batch = s.batch := rfl
@[simp] theorem State.setLink_seen (s : State) (n : Nat) (x : Link) : (s.setLink n x).seen = s.seen := rfl
@[simp] theorem State.setLink_since (s : State) (n : Nat) (x : Link) : (s.setLink n x).since = s.since := rfl
@[simp] theorem State.setLink_lowWater (s : State) (n : Nat) (x : Link) : (s.setLink n x).lowWater = s.lowWater := rfl
@[simp] theorem State.setLink_lowReport (s : State) (n : Nat) (x : Link) : (s.setLink n x).lowReport = s.lowReport := rfl
@[simp] theorem State.setLink_out (s : State) (n : Nat) (x : Link) : (s.setLink n x).out = s.out := rfl
@[simp] theorem State.setLink_free (s : State) (n : Nat) (x : Link) : (s.setLink n x).free = s.free := rfl
@[simp] theorem State.setLink_pending (s : State) (n : Nat) (x : Link) : (s.setLink n x).pending = s.pending := rfl
@[simp] theorem State.setLink_chan (s : State) (n : Nat) (x : Link) (i : Nat) : (s.setLink n x).chan i = s.chan i := rfl
@[simp] theorem State.setLink_ring (s : State) (n : Nat) (x : Link) (i : Nat) : (s.setLink n x).ring i = s.ring i := rfl
@[simp] theorem State.setLink_conv (s : State) (n : Nat) (x : Link) (i : Nat) : (s.setLink n x).conv i = s.conv i := rfl
@[simp] theorem State.setLink_sram (s : State) (n : Nat) (x : Link) (i : Nat) : (s.setLink n x).sram i = s.sram i := rfl
@[simp] theorem State.setLink_group (s : State) (n : Nat) (x : Link) (i : Nat) : (s.setLink n x).group i = s.group i := rfl
@[simp] theorem State.setLink_entry (s : State) (n : Nat) (x : Link) (i : Nat) : (s.setLink n x).entry i = s.entry i := rfl

/-! ### `State.setConv` -/

@[simp] theorem State.setConv_now (s : State) (k : Nat) (x : Converter) : (s.setConv k x).now = s.now := rfl
@[simp] theorem State.setConv_boot (s : State) (k : Nat) (x : Converter) : (s.setConv k x).boot = s.boot := rfl
@[simp] theorem State.setConv_sec (s : State) (k : Nat) (x : Converter) : (s.setConv k x).sec = s.sec := rfl
@[simp] theorem State.setConv_shore (s : State) (k : Nat) (x : Converter) : (s.setConv k x).shore = s.shore := rfl
@[simp] theorem State.setConv_tm (s : State) (k : Nat) (x : Converter) : (s.setConv k x).tm = s.tm := rfl
@[simp] theorem State.setConv_powerHours (s : State) (k : Nat) (x : Converter) : (s.setConv k x).powerHours = s.powerHours := rfl
@[simp] theorem State.setConv_hourDue (s : State) (k : Nat) (x : Converter) : (s.setConv k x).hourDue = s.hourDue := rfl
@[simp] theorem State.setConv_channels (s : State) (k : Nat) (x : Converter) : (s.setConv k x).channels = s.channels := rfl
@[simp] theorem State.setConv_groups (s : State) (k : Nat) (x : Converter) : (s.setConv k x).groups = s.groups := rfl
@[simp] theorem State.setConv_srams (s : State) (k : Nat) (x : Converter) : (s.setConv k x).srams = s.srams := rfl
@[simp] theorem State.setConv_mem (s : State) (k : Nat) (x : Converter) : (s.setConv k x).mem = s.mem := rfl
@[simp] theorem State.setConv_written (s : State) (k : Nat) (x : Converter) : (s.setConv k x).written = s.written := rfl
@[simp] theorem State.setConv_retireList (s : State) (k : Nat) (x : Converter) : (s.setConv k x).retireList = s.retireList := rfl
@[simp] theorem State.setConv_jobKeys (s : State) (k : Nat) (x : Converter) : (s.setConv k x).jobKeys = s.jobKeys := rfl
@[simp] theorem State.setConv_jobs (s : State) (k : Nat) (x : Converter) : (s.setConv k x).jobs = s.jobs := rfl
@[simp] theorem State.setConv_copyIns (s : State) (k : Nat) (x : Converter) : (s.setConv k x).copyIns = s.copyIns := rfl
@[simp] theorem State.setConv_links (s : State) (k : Nat) (x : Converter) : (s.setConv k x).links = s.links := rfl
@[simp] theorem State.setConv_rings (s : State) (k : Nat) (x : Converter) : (s.setConv k x).rings = s.rings := rfl
@[simp] theorem State.setConv_part (s : State) (k : Nat) (x : Converter) : (s.setConv k x).part = s.part := rfl
@[simp] theorem State.setConv_flights (s : State) (k : Nat) (x : Converter) : (s.setConv k x).flights = s.flights := rfl
@[simp] theorem State.setConv_nextId (s : State) (k : Nat) (x : Converter) : (s.setConv k x).nextId = s.nextId := rfl
@[simp] theorem State.setConv_batch (s : State) (k : Nat) (x : Converter) : (s.setConv k x).batch = s.batch := rfl
@[simp] theorem State.setConv_seen (s : State) (k : Nat) (x : Converter) : (s.setConv k x).seen = s.seen := rfl
@[simp] theorem State.setConv_since (s : State) (k : Nat) (x : Converter) : (s.setConv k x).since = s.since := rfl
@[simp] theorem State.setConv_lowWater (s : State) (k : Nat) (x : Converter) : (s.setConv k x).lowWater = s.lowWater := rfl
@[simp] theorem State.setConv_lowReport (s : State) (k : Nat) (x : Converter) : (s.setConv k x).lowReport = s.lowReport := rfl
@[simp] theorem State.setConv_out (s : State) (k : Nat) (x : Converter) : (s.setConv k x).out = s.out := rfl
@[simp] theorem State.setConv_free (s : State) (k : Nat) (x : Converter) : (s.setConv k x).free = s.free := rfl
@[simp] theorem State.setConv_pending (s : State) (k : Nat) (x : Converter) : (s.setConv k x).pending = s.pending := rfl
@[simp] theorem State.setConv_chan (s : State) (k : Nat) (x : Converter) (i : Nat) : (s.setConv k x).chan i = s.chan i := rfl
@[simp] theorem State.setConv_ring (s : State) (k : Nat) (x : Converter) (i : Nat) : (s.setConv k x).ring i = s.ring i := rfl
@[simp] theorem State.setConv_link (s : State) (k : Nat) (x : Converter) (i : Nat) : (s.setConv k x).link i = s.link i := rfl
@[simp] theorem State.setConv_sram (s : State) (k : Nat) (x : Converter) (i : Nat) : (s.setConv k x).sram i = s.sram i := rfl
@[simp] theorem State.setConv_group (s : State) (k : Nat) (x : Converter) (i : Nat) : (s.setConv k x).group i = s.group i := rfl
@[simp] theorem State.setConv_entry (s : State) (k : Nat) (x : Converter) (i : Nat) : (s.setConv k x).entry i = s.entry i := rfl

/-! ### `State.setSram` -/

@[simp] theorem State.setSram_now (s : State) (k : Nat) (x : Sram) : (s.setSram k x).now = s.now := rfl
@[simp] theorem State.setSram_boot (s : State) (k : Nat) (x : Sram) : (s.setSram k x).boot = s.boot := rfl
@[simp] theorem State.setSram_sec (s : State) (k : Nat) (x : Sram) : (s.setSram k x).sec = s.sec := rfl
@[simp] theorem State.setSram_shore (s : State) (k : Nat) (x : Sram) : (s.setSram k x).shore = s.shore := rfl
@[simp] theorem State.setSram_tm (s : State) (k : Nat) (x : Sram) : (s.setSram k x).tm = s.tm := rfl
@[simp] theorem State.setSram_powerHours (s : State) (k : Nat) (x : Sram) : (s.setSram k x).powerHours = s.powerHours := rfl
@[simp] theorem State.setSram_hourDue (s : State) (k : Nat) (x : Sram) : (s.setSram k x).hourDue = s.hourDue := rfl
@[simp] theorem State.setSram_channels (s : State) (k : Nat) (x : Sram) : (s.setSram k x).channels = s.channels := rfl
@[simp] theorem State.setSram_groups (s : State) (k : Nat) (x : Sram) : (s.setSram k x).groups = s.groups := rfl
@[simp] theorem State.setSram_convs (s : State) (k : Nat) (x : Sram) : (s.setSram k x).convs = s.convs := rfl
@[simp] theorem State.setSram_mem (s : State) (k : Nat) (x : Sram) : (s.setSram k x).mem = s.mem := rfl
@[simp] theorem State.setSram_written (s : State) (k : Nat) (x : Sram) : (s.setSram k x).written = s.written := rfl
@[simp] theorem State.setSram_retireList (s : State) (k : Nat) (x : Sram) : (s.setSram k x).retireList = s.retireList := rfl
@[simp] theorem State.setSram_jobKeys (s : State) (k : Nat) (x : Sram) : (s.setSram k x).jobKeys = s.jobKeys := rfl
@[simp] theorem State.setSram_jobs (s : State) (k : Nat) (x : Sram) : (s.setSram k x).jobs = s.jobs := rfl
@[simp] theorem State.setSram_copyIns (s : State) (k : Nat) (x : Sram) : (s.setSram k x).copyIns = s.copyIns := rfl
@[simp] theorem State.setSram_links (s : State) (k : Nat) (x : Sram) : (s.setSram k x).links = s.links := rfl
@[simp] theorem State.setSram_rings (s : State) (k : Nat) (x : Sram) : (s.setSram k x).rings = s.rings := rfl
@[simp] theorem State.setSram_part (s : State) (k : Nat) (x : Sram) : (s.setSram k x).part = s.part := rfl
@[simp] theorem State.setSram_flights (s : State) (k : Nat) (x : Sram) : (s.setSram k x).flights = s.flights := rfl
@[simp] theorem State.setSram_nextId (s : State) (k : Nat) (x : Sram) : (s.setSram k x).nextId = s.nextId := rfl
@[simp] theorem State.setSram_batch (s : State) (k : Nat) (x : Sram) : (s.setSram k x).batch = s.batch := rfl
@[simp] theorem State.setSram_seen (s : State) (k : Nat) (x : Sram) : (s.setSram k x).seen = s.seen := rfl
@[simp] theorem State.setSram_since (s : State) (k : Nat) (x : Sram) : (s.setSram k x).since = s.since := rfl
@[simp] theorem State.setSram_lowWater (s : State) (k : Nat) (x : Sram) : (s.setSram k x).lowWater = s.lowWater := rfl
@[simp] theorem State.setSram_lowReport (s : State) (k : Nat) (x : Sram) : (s.setSram k x).lowReport = s.lowReport := rfl
@[simp] theorem State.setSram_out (s : State) (k : Nat) (x : Sram) : (s.setSram k x).out = s.out := rfl
@[simp] theorem State.setSram_free (s : State) (k : Nat) (x : Sram) : (s.setSram k x).free = s.free := rfl
@[simp] theorem State.setSram_pending (s : State) (k : Nat) (x : Sram) : (s.setSram k x).pending = s.pending := rfl
@[simp] theorem State.setSram_chan (s : State) (k : Nat) (x : Sram) (i : Nat) : (s.setSram k x).chan i = s.chan i := rfl
@[simp] theorem State.setSram_ring (s : State) (k : Nat) (x : Sram) (i : Nat) : (s.setSram k x).ring i = s.ring i := rfl
@[simp] theorem State.setSram_link (s : State) (k : Nat) (x : Sram) (i : Nat) : (s.setSram k x).link i = s.link i := rfl
@[simp] theorem State.setSram_conv (s : State) (k : Nat) (x : Sram) (i : Nat) : (s.setSram k x).conv i = s.conv i := rfl
@[simp] theorem State.setSram_group (s : State) (k : Nat) (x : Sram) (i : Nat) : (s.setSram k x).group i = s.group i := rfl
@[simp] theorem State.setSram_entry (s : State) (k : Nat) (x : Sram) (i : Nat) : (s.setSram k x).entry i = s.entry i := rfl

/-! ### `State.setGroup` -/

@[simp] theorem State.setGroup_now (s : State) (g : Nat) (x : Group) : (s.setGroup g x).now = s.now := rfl
@[simp] theorem State.setGroup_boot (s : State) (g : Nat) (x : Group) : (s.setGroup g x).boot = s.boot := rfl
@[simp] theorem State.setGroup_sec (s : State) (g : Nat) (x : Group) : (s.setGroup g x).sec = s.sec := rfl
@[simp] theorem State.setGroup_shore (s : State) (g : Nat) (x : Group) : (s.setGroup g x).shore = s.shore := rfl
@[simp] theorem State.setGroup_tm (s : State) (g : Nat) (x : Group) : (s.setGroup g x).tm = s.tm := rfl
@[simp] theorem State.setGroup_powerHours (s : State) (g : Nat) (x : Group) : (s.setGroup g x).powerHours = s.powerHours := rfl
@[simp] theorem State.setGroup_hourDue (s : State) (g : Nat) (x : Group) : (s.setGroup g x).hourDue = s.hourDue := rfl
@[simp] theorem State.setGroup_channels (s : State) (g : Nat) (x : Group) : (s.setGroup g x).channels = s.channels := rfl
@[simp] theorem State.setGroup_convs (s : State) (g : Nat) (x : Group) : (s.setGroup g x).convs = s.convs := rfl
@[simp] theorem State.setGroup_srams (s : State) (g : Nat) (x : Group) : (s.setGroup g x).srams = s.srams := rfl
@[simp] theorem State.setGroup_mem (s : State) (g : Nat) (x : Group) : (s.setGroup g x).mem = s.mem := rfl
@[simp] theorem State.setGroup_written (s : State) (g : Nat) (x : Group) : (s.setGroup g x).written = s.written := rfl
@[simp] theorem State.setGroup_retireList (s : State) (g : Nat) (x : Group) : (s.setGroup g x).retireList = s.retireList := rfl
@[simp] theorem State.setGroup_jobKeys (s : State) (g : Nat) (x : Group) : (s.setGroup g x).jobKeys = s.jobKeys := rfl
@[simp] theorem State.setGroup_jobs (s : State) (g : Nat) (x : Group) : (s.setGroup g x).jobs = s.jobs := rfl
@[simp] theorem State.setGroup_copyIns (s : State) (g : Nat) (x : Group) : (s.setGroup g x).copyIns = s.copyIns := rfl
@[simp] theorem State.setGroup_links (s : State) (g : Nat) (x : Group) : (s.setGroup g x).links = s.links := rfl
@[simp] theorem State.setGroup_rings (s : State) (g : Nat) (x : Group) : (s.setGroup g x).rings = s.rings := rfl
@[simp] theorem State.setGroup_part (s : State) (g : Nat) (x : Group) : (s.setGroup g x).part = s.part := rfl
@[simp] theorem State.setGroup_flights (s : State) (g : Nat) (x : Group) : (s.setGroup g x).flights = s.flights := rfl
@[simp] theorem State.setGroup_nextId (s : State) (g : Nat) (x : Group) : (s.setGroup g x).nextId = s.nextId := rfl
@[simp] theorem State.setGroup_batch (s : State) (g : Nat) (x : Group) : (s.setGroup g x).batch = s.batch := rfl
@[simp] theorem State.setGroup_seen (s : State) (g : Nat) (x : Group) : (s.setGroup g x).seen = s.seen := rfl
@[simp] theorem State.setGroup_since (s : State) (g : Nat) (x : Group) : (s.setGroup g x).since = s.since := rfl
@[simp] theorem State.setGroup_lowWater (s : State) (g : Nat) (x : Group) : (s.setGroup g x).lowWater = s.lowWater := rfl
@[simp] theorem State.setGroup_lowReport (s : State) (g : Nat) (x : Group) : (s.setGroup g x).lowReport = s.lowReport := rfl
@[simp] theorem State.setGroup_out (s : State) (g : Nat) (x : Group) : (s.setGroup g x).out = s.out := rfl
@[simp] theorem State.setGroup_free (s : State) (g : Nat) (x : Group) : (s.setGroup g x).free = s.free := rfl
@[simp] theorem State.setGroup_pending (s : State) (g : Nat) (x : Group) : (s.setGroup g x).pending = s.pending := rfl
@[simp] theorem State.setGroup_chan (s : State) (g : Nat) (x : Group) (i : Nat) : (s.setGroup g x).chan i = s.chan i := rfl
@[simp] theorem State.setGroup_ring (s : State) (g : Nat) (x : Group) (i : Nat) : (s.setGroup g x).ring i = s.ring i := rfl
@[simp] theorem State.setGroup_link (s : State) (g : Nat) (x : Group) (i : Nat) : (s.setGroup g x).link i = s.link i := rfl
@[simp] theorem State.setGroup_conv (s : State) (g : Nat) (x : Group) (i : Nat) : (s.setGroup g x).conv i = s.conv i := rfl
@[simp] theorem State.setGroup_sram (s : State) (g : Nat) (x : Group) (i : Nat) : (s.setGroup g x).sram i = s.sram i := rfl
@[simp] theorem State.setGroup_entry (s : State) (g : Nat) (x : Group) (i : Nat) : (s.setGroup g x).entry i = s.entry i := rfl

/-! ### `State.onSec` -/

@[simp] theorem State.onSec_now (s : State) (g : Security → Security) : (s.onSec g).now = s.now := rfl
@[simp] theorem State.onSec_boot (s : State) (g : Security → Security) : (s.onSec g).boot = s.boot := rfl
@[simp] theorem State.onSec_shore (s : State) (g : Security → Security) : (s.onSec g).shore = s.shore := rfl
@[simp] theorem State.onSec_tm (s : State) (g : Security → Security) : (s.onSec g).tm = s.tm := rfl
@[simp] theorem State.onSec_powerHours (s : State) (g : Security → Security) : (s.onSec g).powerHours = s.powerHours := rfl
@[simp] theorem State.onSec_hourDue (s : State) (g : Security → Security) : (s.onSec g).hourDue = s.hourDue := rfl
@[simp] theorem State.onSec_channels (s : State) (g : Security → Security) : (s.onSec g).channels = s.channels := rfl
@[simp] theorem State.onSec_groups (s : State) (g : Security → Security) : (s.onSec g).groups = s.groups := rfl
@[simp] theorem State.onSec_convs (s : State) (g : Security → Security) : (s.onSec g).convs = s.convs := rfl
@[simp] theorem State.onSec_srams (s : State) (g : Security → Security) : (s.onSec g).srams = s.srams := rfl
@[simp] theorem State.onSec_mem (s : State) (g : Security → Security) : (s.onSec g).mem = s.mem := rfl
@[simp] theorem State.onSec_written (s : State) (g : Security → Security) : (s.onSec g).written = s.written := rfl
@[simp] theorem State.onSec_retireList (s : State) (g : Security → Security) : (s.onSec g).retireList = s.retireList := rfl
@[simp] theorem State.onSec_jobKeys (s : State) (g : Security → Security) : (s.onSec g).jobKeys = s.jobKeys := rfl
@[simp] theorem State.onSec_jobs (s : State) (g : Security → Security) : (s.onSec g).jobs = s.jobs := rfl
@[simp] theorem State.onSec_copyIns (s : State) (g : Security → Security) : (s.onSec g).copyIns = s.copyIns := rfl
@[simp] theorem State.onSec_links (s : State) (g : Security → Security) : (s.onSec g).links = s.links := rfl
@[simp] theorem State.onSec_rings (s : State) (g : Security → Security) : (s.onSec g).rings = s.rings := rfl
@[simp] theorem State.onSec_part (s : State) (g : Security → Security) : (s.onSec g).part = s.part := rfl
@[simp] theorem State.onSec_flights (s : State) (g : Security → Security) : (s.onSec g).flights = s.flights := rfl
@[simp] theorem State.onSec_nextId (s : State) (g : Security → Security) : (s.onSec g).nextId = s.nextId := rfl
@[simp] theorem State.onSec_batch (s : State) (g : Security → Security) : (s.onSec g).batch = s.batch := rfl
@[simp] theorem State.onSec_seen (s : State) (g : Security → Security) : (s.onSec g).seen = s.seen := rfl
@[simp] theorem State.onSec_since (s : State) (g : Security → Security) : (s.onSec g).since = s.since := rfl
@[simp] theorem State.onSec_lowWater (s : State) (g : Security → Security) : (s.onSec g).lowWater = s.lowWater := rfl
@[simp] theorem State.onSec_lowReport (s : State) (g : Security → Security) : (s.onSec g).lowReport = s.lowReport := rfl
@[simp] theorem State.onSec_out (s : State) (g : Security → Security) : (s.onSec g).out = s.out := rfl
@[simp] theorem State.onSec_free (s : State) (g : Security → Security) : (s.onSec g).free = s.free := rfl
@[simp] theorem State.onSec_pending (s : State) (g : Security → Security) : (s.onSec g).pending = s.pending := rfl
@[simp] theorem State.onSec_chan (s : State) (g : Security → Security) (i : Nat) : (s.onSec g).chan i = s.chan i := rfl
@[simp] theorem State.onSec_ring (s : State) (g : Security → Security) (i : Nat) : (s.onSec g).ring i = s.ring i := rfl
@[simp] theorem State.onSec_link (s : State) (g : Security → Security) (i : Nat) : (s.onSec g).link i = s.link i := rfl
@[simp] theorem State.onSec_conv (s : State) (g : Security → Security) (i : Nat) : (s.onSec g).conv i = s.conv i := rfl
@[simp] theorem State.onSec_sram (s : State) (g : Security → Security) (i : Nat) : (s.onSec g).sram i = s.sram i := rfl
@[simp] theorem State.onSec_group (s : State) (g : Security → Security) (i : Nat) : (s.onSec g).group i = s.group i := rfl
@[simp] theorem State.onSec_entry (s : State) (g : Security → Security) (i : Nat) : (s.onSec g).entry i = s.entry i := rfl

/-! ### `State.onTm` -/

@[simp] theorem State.onTm_now (s : State) (g : Timing → Timing) : (s.onTm g).now = s.now := rfl
@[simp] theorem State.onTm_boot (s : State) (g : Timing → Timing) : (s.onTm g).boot = s.boot := rfl
@[simp] theorem State.onTm_sec (s : State) (g : Timing → Timing) : (s.onTm g).sec = s.sec := rfl
@[simp] theorem State.onTm_shore (s : State) (g : Timing → Timing) : (s.onTm g).shore = s.shore := rfl
@[simp] theorem State.onTm_powerHours (s : State) (g : Timing → Timing) : (s.onTm g).powerHours = s.powerHours := rfl
@[simp] theorem State.onTm_hourDue (s : State) (g : Timing → Timing) : (s.onTm g).hourDue = s.hourDue := rfl
@[simp] theorem State.onTm_channels (s : State) (g : Timing → Timing) : (s.onTm g).channels = s.channels := rfl
@[simp] theorem State.onTm_groups (s : State) (g : Timing → Timing) : (s.onTm g).groups = s.groups := rfl
@[simp] theorem State.onTm_convs (s : State) (g : Timing → Timing) : (s.onTm g).convs = s.convs := rfl
@[simp] theorem State.onTm_srams (s : State) (g : Timing → Timing) : (s.onTm g).srams = s.srams := rfl
@[simp] theorem State.onTm_mem (s : State) (g : Timing → Timing) : (s.onTm g).mem = s.mem := rfl
@[simp] theorem State.onTm_written (s : State) (g : Timing → Timing) : (s.onTm g).written = s.written := rfl
@[simp] theorem State.onTm_retireList (s : State) (g : Timing → Timing) : (s.onTm g).retireList = s.retireList := rfl
@[simp] theorem State.onTm_jobKeys (s : State) (g : Timing → Timing) : (s.onTm g).jobKeys = s.jobKeys := rfl
@[simp] theorem State.onTm_jobs (s : State) (g : Timing → Timing) : (s.onTm g).jobs = s.jobs := rfl
@[simp] theorem State.onTm_copyIns (s : State) (g : Timing → Timing) : (s.onTm g).copyIns = s.copyIns := rfl
@[simp] theorem State.onTm_links (s : State) (g : Timing → Timing) : (s.onTm g).links = s.links := rfl
@[simp] theorem State.onTm_rings (s : State) (g : Timing → Timing) : (s.onTm g).rings = s.rings := rfl
@[simp] theorem State.onTm_part (s : State) (g : Timing → Timing) : (s.onTm g).part = s.part := rfl
@[simp] theorem State.onTm_flights (s : State) (g : Timing → Timing) : (s.onTm g).flights = s.flights := rfl
@[simp] theorem State.onTm_nextId (s : State) (g : Timing → Timing) : (s.onTm g).nextId = s.nextId := rfl
@[simp] theorem State.onTm_batch (s : State) (g : Timing → Timing) : (s.onTm g).batch = s.batch := rfl
@[simp] theorem State.onTm_seen (s : State) (g : Timing → Timing) : (s.onTm g).seen = s.seen := rfl
@[simp] theorem State.onTm_since (s : State) (g : Timing → Timing) : (s.onTm g).since = s.since := rfl
@[simp] theorem State.onTm_lowWater (s : State) (g : Timing → Timing) : (s.onTm g).lowWater = s.lowWater := rfl
@[simp] theorem State.onTm_lowReport (s : State) (g : Timing → Timing) : (s.onTm g).lowReport = s.lowReport := rfl
@[simp] theorem State.onTm_out (s : State) (g : Timing → Timing) : (s.onTm g).out = s.out := rfl
@[simp] theorem State.onTm_free (s : State) (g : Timing → Timing) : (s.onTm g).free = s.free := rfl
@[simp] theorem State.onTm_pending (s : State) (g : Timing → Timing) : (s.onTm g).pending = s.pending := rfl
@[simp] theorem State.onTm_chan (s : State) (g : Timing → Timing) (i : Nat) : (s.onTm g).chan i = s.chan i := rfl
@[simp] theorem State.onTm_ring (s : State) (g : Timing → Timing) (i : Nat) : (s.onTm g).ring i = s.ring i := rfl
@[simp] theorem State.onTm_link (s : State) (g : Timing → Timing) (i : Nat) : (s.onTm g).link i = s.link i := rfl
@[simp] theorem State.onTm_conv (s : State) (g : Timing → Timing) (i : Nat) : (s.onTm g).conv i = s.conv i := rfl
@[simp] theorem State.onTm_sram (s : State) (g : Timing → Timing) (i : Nat) : (s.onTm g).sram i = s.sram i := rfl
@[simp] theorem State.onTm_group (s : State) (g : Timing → Timing) (i : Nat) : (s.onTm g).group i = s.group i := rfl
@[simp] theorem State.onTm_entry (s : State) (g : Timing → Timing) (i : Nat) : (s.onTm g).entry i = s.entry i := rfl

/-! ### `State.onShore` -/

@[simp] theorem State.onShore_now (s : State) (g : Shore → Shore) : (s.onShore g).now = s.now := rfl
@[simp] theorem State.onShore_boot (s : State) (g : Shore → Shore) : (s.onShore g).boot = s.boot := rfl
@[simp] theorem State.onShore_sec (s : State) (g : Shore → Shore) : (s.onShore g).sec = s.sec := rfl
@[simp] theorem State.onShore_tm (s : State) (g : Shore → Shore) : (s.onShore g).tm = s.tm := rfl
@[simp] theorem State.onShore_powerHours (s : State) (g : Shore → Shore) : (s.onShore g).powerHours = s.powerHours := rfl
@[simp] theorem State.onShore_hourDue (s : State) (g : Shore → Shore) : (s.onShore g).hourDue = s.hourDue := rfl
@[simp] theorem State.onShore_channels (s : State) (g : Shore → Shore) : (s.onShore g).channels = s.channels := rfl
@[simp] theorem State.onShore_groups (s : State) (g : Shore → Shore) : (s.onShore g).groups = s.groups := rfl
@[simp] theorem State.onShore_convs (s : State) (g : Shore → Shore) : (s.onShore g).convs = s.convs := rfl
@[simp] theorem State.onShore_srams (s : State) (g : Shore → Shore) : (s.onShore g).srams = s.srams := rfl
@[simp] theorem State.onShore_mem (s : State) (g : Shore → Shore) : (s.onShore g).mem = s.mem := rfl
@[simp] theorem State.onShore_written (s : State) (g : Shore → Shore) : (s.onShore g).written = s.written := rfl
@[simp] theorem State.onShore_retireList (s : State) (g : Shore → Shore) : (s.onShore g).retireList = s.retireList := rfl
@[simp] theorem State.onShore_jobKeys (s : State) (g : Shore → Shore) : (s.onShore g).jobKeys = s.jobKeys := rfl
@[simp] theorem State.onShore_jobs (s : State) (g : Shore → Shore) : (s.onShore g).jobs = s.jobs := rfl
@[simp] theorem State.onShore_copyIns (s : State) (g : Shore → Shore) : (s.onShore g).copyIns = s.copyIns := rfl
@[simp] theorem State.onShore_links (s : State) (g : Shore → Shore) : (s.onShore g).links = s.links := rfl
@[simp] theorem State.onShore_rings (s : State) (g : Shore → Shore) : (s.onShore g).rings = s.rings := rfl
@[simp] theorem State.onShore_part (s : State) (g : Shore → Shore) : (s.onShore g).part = s.part := rfl
@[simp] theorem State.onShore_flights (s : State) (g : Shore → Shore) : (s.onShore g).flights = s.flights := rfl
@[simp] theorem State.onShore_nextId (s : State) (g : Shore → Shore) : (s.onShore g).nextId = s.nextId := rfl
@[simp] theorem State.onShore_batch (s : State) (g : Shore → Shore) : (s.onShore g).batch = s.batch := rfl
@[simp] theorem State.onShore_seen (s : State) (g : Shore → Shore) : (s.onShore g).seen = s.seen := rfl
@[simp] theorem State.onShore_since (s : State) (g : Shore → Shore) : (s.onShore g).since = s.since := rfl
@[simp] theorem State.onShore_lowWater (s : State) (g : Shore → Shore) : (s.onShore g).lowWater = s.lowWater := rfl
@[simp] theorem State.onShore_lowReport (s : State) (g : Shore → Shore) : (s.onShore g).lowReport = s.lowReport := rfl
@[simp] theorem State.onShore_out (s : State) (g : Shore → Shore) : (s.onShore g).out = s.out := rfl
@[simp] theorem State.onShore_free (s : State) (g : Shore → Shore) : (s.onShore g).free = s.free := rfl
@[simp] theorem State.onShore_pending (s : State) (g : Shore → Shore) : (s.onShore g).pending = s.pending := rfl
@[simp] theorem State.onShore_chan (s : State) (g : Shore → Shore) (i : Nat) : (s.onShore g).chan i = s.chan i := rfl
@[simp] theorem State.onShore_ring (s : State) (g : Shore → Shore) (i : Nat) : (s.onShore g).ring i = s.ring i := rfl
@[simp] theorem State.onShore_link (s : State) (g : Shore → Shore) (i : Nat) : (s.onShore g).link i = s.link i := rfl
@[simp] theorem State.onShore_conv (s : State) (g : Shore → Shore) (i : Nat) : (s.onShore g).conv i = s.conv i := rfl
@[simp] theorem State.onShore_sram (s : State) (g : Shore → Shore) (i : Nat) : (s.onShore g).sram i = s.sram i := rfl
@[simp] theorem State.onShore_group (s : State) (g : Shore → Shore) (i : Nat) : (s.onShore g).group i = s.group i := rfl
@[simp] theorem State.onShore_entry (s : State) (g : Shore → Shore) (i : Nat) : (s.onShore g).entry i = s.entry i := rfl

/-! ### `State.onBoot` -/

@[simp] theorem State.onBoot_now (s : State) (g : Boot → Boot) : (s.onBoot g).now = s.now := rfl
@[simp] theorem State.onBoot_sec (s : State) (g : Boot → Boot) : (s.onBoot g).sec = s.sec := rfl
@[simp] theorem State.onBoot_shore (s : State) (g : Boot → Boot) : (s.onBoot g).shore = s.shore := rfl
@[simp] theorem State.onBoot_tm (s : State) (g : Boot → Boot) : (s.onBoot g).tm = s.tm := rfl
@[simp] theorem State.onBoot_powerHours (s : State) (g : Boot → Boot) : (s.onBoot g).powerHours = s.powerHours := rfl
@[simp] theorem State.onBoot_hourDue (s : State) (g : Boot → Boot) : (s.onBoot g).hourDue = s.hourDue := rfl
@[simp] theorem State.onBoot_channels (s : State) (g : Boot → Boot) : (s.onBoot g).channels = s.channels := rfl
@[simp] theorem State.onBoot_groups (s : State) (g : Boot → Boot) : (s.onBoot g).groups = s.groups := rfl
@[simp] theorem State.onBoot_convs (s : State) (g : Boot → Boot) : (s.onBoot g).convs = s.convs := rfl
@[simp] theorem State.onBoot_srams (s : State) (g : Boot → Boot) : (s.onBoot g).srams = s.srams := rfl
@[simp] theorem State.onBoot_mem (s : State) (g : Boot → Boot) : (s.onBoot g).mem = s.mem := rfl
@[simp] theorem State.onBoot_written (s : State) (g : Boot → Boot) : (s.onBoot g).written = s.written := rfl
@[simp] theorem State.onBoot_retireList (s : State) (g : Boot → Boot) : (s.onBoot g).retireList = s.retireList := rfl
@[simp] theorem State.onBoot_jobKeys (s : State) (g : Boot → Boot) : (s.onBoot g).jobKeys = s.jobKeys := rfl
@[simp] theorem State.onBoot_jobs (s : State) (g : Boot → Boot) : (s.onBoot g).jobs = s.jobs := rfl
@[simp] theorem State.onBoot_copyIns (s : State) (g : Boot → Boot) : (s.onBoot g).copyIns = s.copyIns := rfl
@[simp] theorem State.onBoot_links (s : State) (g : Boot → Boot) : (s.onBoot g).links = s.links := rfl
@[simp] theorem State.onBoot_rings (s : State) (g : Boot → Boot) : (s.onBoot g).rings = s.rings := rfl
@[simp] theorem State.onBoot_part (s : State) (g : Boot → Boot) : (s.onBoot g).part = s.part := rfl
@[simp] theorem State.onBoot_flights (s : State) (g : Boot → Boot) : (s.onBoot g).flights = s.flights := rfl
@[simp] theorem State.onBoot_nextId (s : State) (g : Boot → Boot) : (s.onBoot g).nextId = s.nextId := rfl
@[simp] theorem State.onBoot_batch (s : State) (g : Boot → Boot) : (s.onBoot g).batch = s.batch := rfl
@[simp] theorem State.onBoot_seen (s : State) (g : Boot → Boot) : (s.onBoot g).seen = s.seen := rfl
@[simp] theorem State.onBoot_since (s : State) (g : Boot → Boot) : (s.onBoot g).since = s.since := rfl
@[simp] theorem State.onBoot_lowWater (s : State) (g : Boot → Boot) : (s.onBoot g).lowWater = s.lowWater := rfl
@[simp] theorem State.onBoot_lowReport (s : State) (g : Boot → Boot) : (s.onBoot g).lowReport = s.lowReport := rfl
@[simp] theorem State.onBoot_out (s : State) (g : Boot → Boot) : (s.onBoot g).out = s.out := rfl
@[simp] theorem State.onBoot_free (s : State) (g : Boot → Boot) : (s.onBoot g).free = s.free := rfl
@[simp] theorem State.onBoot_pending (s : State) (g : Boot → Boot) : (s.onBoot g).pending = s.pending := rfl
@[simp] theorem State.onBoot_chan (s : State) (g : Boot → Boot) (i : Nat) : (s.onBoot g).chan i = s.chan i := rfl
@[simp] theorem State.onBoot_ring (s : State) (g : Boot → Boot) (i : Nat) : (s.onBoot g).ring i = s.ring i := rfl
@[simp] theorem State.onBoot_link (s : State) (g : Boot → Boot) (i : Nat) : (s.onBoot g).link i = s.link i := rfl
@[simp] theorem State.onBoot_conv (s : State) (g : Boot → Boot) (i : Nat) : (s.onBoot g).conv i = s.conv i := rfl
@[simp] theorem State.onBoot_sram (s : State) (g : Boot → Boot) (i : Nat) : (s.onBoot g).sram i = s.sram i := rfl
@[simp] theorem State.onBoot_group (s : State) (g : Boot → Boot) (i : Nat) : (s.onBoot g).group i = s.group i := rfl
@[simp] theorem State.onBoot_entry (s : State) (g : Boot → Boot) (i : Nat) : (s.onBoot g).entry i = s.entry i := rfl

/-! ### `State.at` -/

@[simp] theorem State.at_boot (s : State) (due : Nat) : (s.at due).boot = s.boot := rfl
@[simp] theorem State.at_sec (s : State) (due : Nat) : (s.at due).sec = s.sec := rfl
@[simp] theorem State.at_shore (s : State) (due : Nat) : (s.at due).shore = s.shore := rfl
@[simp] theorem State.at_tm (s : State) (due : Nat) : (s.at due).tm = s.tm := rfl
@[simp] theorem State.at_powerHours (s : State) (due : Nat) : (s.at due).powerHours = s.powerHours := rfl
@[simp] theorem State.at_hourDue (s : State) (due : Nat) : (s.at due).hourDue = s.hourDue := rfl
@[simp] theorem State.at_channels (s : State) (due : Nat) : (s.at due).channels = s.channels := rfl
@[simp] theorem State.at_groups (s : State) (due : Nat) : (s.at due).groups = s.groups := rfl
@[simp] theorem State.at_convs (s : State) (due : Nat) : (s.at due).convs = s.convs := rfl
@[simp] theorem State.at_srams (s : State) (due : Nat) : (s.at due).srams = s.srams := rfl
@[simp] theorem State.at_mem (s : State) (due : Nat) : (s.at due).mem = s.mem := rfl
@[simp] theorem State.at_written (s : State) (due : Nat) : (s.at due).written = s.written := rfl
@[simp] theorem State.at_retireList (s : State) (due : Nat) : (s.at due).retireList = s.retireList := rfl
@[simp] theorem State.at_jobKeys (s : State) (due : Nat) : (s.at due).jobKeys = s.jobKeys := rfl
@[simp] theorem State.at_jobs (s : State) (due : Nat) : (s.at due).jobs = s.jobs := rfl
@[simp] theorem State.at_copyIns (s : State) (due : Nat) : (s.at due).copyIns = s.copyIns := rfl
@[simp] theorem State.at_links (s : State) (due : Nat) : (s.at due).links = s.links := rfl
@[simp] theorem State.at_rings (s : State) (due : Nat) : (s.at due).rings = s.rings := rfl
@[simp] theorem State.at_part (s : State) (due : Nat) : (s.at due).part = s.part := rfl
@[simp] theorem State.at_flights (s : State) (due : Nat) : (s.at due).flights = s.flights := rfl
@[simp] theorem State.at_nextId (s : State) (due : Nat) : (s.at due).nextId = s.nextId := rfl
@[simp] theorem State.at_batch (s : State) (due : Nat) : (s.at due).batch = s.batch := rfl
@[simp] theorem State.at_seen (s : State) (due : Nat) : (s.at due).seen = s.seen := rfl
@[simp] theorem State.at_since (s : State) (due : Nat) : (s.at due).since = s.since := rfl
@[simp] theorem State.at_lowWater (s : State) (due : Nat) : (s.at due).lowWater = s.lowWater := rfl
@[simp] theorem State.at_lowReport (s : State) (due : Nat) : (s.at due).lowReport = s.lowReport := rfl
@[simp] theorem State.at_out (s : State) (due : Nat) : (s.at due).out = s.out := rfl
@[simp] theorem State.at_free (s : State) (due : Nat) : (s.at due).free = s.free := rfl
@[simp] theorem State.at_pending (s : State) (due : Nat) : (s.at due).pending = s.pending := rfl
@[simp] theorem State.at_chan (s : State) (due : Nat) (i : Nat) : (s.at due).chan i = s.chan i := rfl
@[simp] theorem State.at_ring (s : State) (due : Nat) (i : Nat) : (s.at due).ring i = s.ring i := rfl
@[simp] theorem State.at_link (s : State) (due : Nat) (i : Nat) : (s.at due).link i = s.link i := rfl
@[simp] theorem State.at_conv (s : State) (due : Nat) (i : Nat) : (s.at due).conv i = s.conv i := rfl
@[simp] theorem State.at_sram (s : State) (due : Nat) (i : Nat) : (s.at due).sram i = s.sram i := rfl
@[simp] theorem State.at_group (s : State) (due : Nat) (i : Nat) : (s.at due).group i = s.group i := rfl
@[simp] theorem State.at_entry (s : State) (due : Nat) (i : Nat) : (s.at due).entry i = s.entry i := rfl

/-! ### `State.draw` -/

@[simp] theorem State.draw_now (s : State) : (s.draw).now = s.now := rfl
@[simp] theorem State.draw_boot (s : State) : (s.draw).boot = s.boot := rfl
@[simp] theorem State.draw_sec (s : State) : (s.draw).sec = s.sec := rfl
@[simp] theorem State.draw_shore (s : State) : (s.draw).shore = s.shore := rfl
@[simp] theorem State.draw_tm (s : State) : (s.draw).tm = s.tm := rfl
@[simp] theorem State.draw_powerHours (s : State) : (s.draw).powerHours = s.powerHours := rfl
@[simp] theorem State.draw_hourDue (s : State) : (s.draw).hourDue = s.hourDue := rfl
@[simp] theorem State.draw_channels (s : State) : (s.draw).channels = s.channels := rfl
@[simp] theorem State.draw_groups (s : State) : (s.draw).groups = s.groups := rfl
@[simp] theorem State.draw_convs (s : State) : (s.draw).convs = s.convs := rfl
@[simp] theorem State.draw_srams (s : State) : (s.draw).srams = s.srams := rfl
@[simp] theorem State.draw_mem (s : State) : (s.draw).mem = s.mem := rfl
@[simp] theorem State.draw_written (s : State) : (s.draw).written = s.written := rfl
@[simp] theorem State.draw_retireList (s : State) : (s.draw).retireList = s.retireList := rfl
@[simp] theorem State.draw_jobKeys (s : State) : (s.draw).jobKeys = s.jobKeys := rfl
@[simp] theorem State.draw_jobs (s : State) : (s.draw).jobs = s.jobs := rfl
@[simp] theorem State.draw_copyIns (s : State) : (s.draw).copyIns = s.copyIns := rfl
@[simp] theorem State.draw_links (s : State) : (s.draw).links = s.links := rfl
@[simp] theorem State.draw_rings (s : State) : (s.draw).rings = s.rings := rfl
@[simp] theorem State.draw_part (s : State) : (s.draw).part = s.part := rfl
@[simp] theorem State.draw_flights (s : State) : (s.draw).flights = s.flights := rfl
@[simp] theorem State.draw_nextId (s : State) : (s.draw).nextId = s.nextId := rfl
@[simp] theorem State.draw_batch (s : State) : (s.draw).batch = s.batch := rfl
@[simp] theorem State.draw_seen (s : State) : (s.draw).seen = s.seen := rfl
@[simp] theorem State.draw_since (s : State) : (s.draw).since = s.since := rfl
@[simp] theorem State.draw_lowWater (s : State) : (s.draw).lowWater = s.lowWater := rfl
@[simp] theorem State.draw_lowReport (s : State) : (s.draw).lowReport = s.lowReport := rfl
@[simp] theorem State.draw_out (s : State) : (s.draw).out = s.out := rfl
@[simp] theorem State.draw_pending (s : State) : (s.draw).pending = s.pending := rfl
@[simp] theorem State.draw_chan (s : State) (i : Nat) : (s.draw).chan i = s.chan i := rfl
@[simp] theorem State.draw_ring (s : State) (i : Nat) : (s.draw).ring i = s.ring i := rfl
@[simp] theorem State.draw_link (s : State) (i : Nat) : (s.draw).link i = s.link i := rfl
@[simp] theorem State.draw_conv (s : State) (i : Nat) : (s.draw).conv i = s.conv i := rfl
@[simp] theorem State.draw_sram (s : State) (i : Nat) : (s.draw).sram i = s.sram i := rfl
@[simp] theorem State.draw_group (s : State) (i : Nat) : (s.draw).group i = s.group i := rfl
@[simp] theorem State.draw_entry (s : State) (i : Nat) : (s.draw).entry i = s.entry i := rfl

/-! ### `State.emit` -/

@[simp] theorem State.emit_now (s : State) (o : Output) : (s.emit o).now = s.now := rfl
@[simp] theorem State.emit_boot (s : State) (o : Output) : (s.emit o).boot = s.boot := rfl
@[simp] theorem State.emit_sec (s : State) (o : Output) : (s.emit o).sec = s.sec := rfl
@[simp] theorem State.emit_shore (s : State) (o : Output) : (s.emit o).shore = s.shore := rfl
@[simp] theorem State.emit_tm (s : State) (o : Output) : (s.emit o).tm = s.tm := rfl
@[simp] theorem State.emit_powerHours (s : State) (o : Output) : (s.emit o).powerHours = s.powerHours := rfl
@[simp] theorem State.emit_hourDue (s : State) (o : Output) : (s.emit o).hourDue = s.hourDue := rfl
@[simp] theorem State.emit_channels (s : State) (o : Output) : (s.emit o).channels = s.channels := rfl
@[simp] theorem State.emit_groups (s : State) (o : Output) : (s.emit o).groups = s.groups := rfl
@[simp] theorem State.emit_convs (s : State) (o : Output) : (s.emit o).convs = s.convs := rfl
@[simp] theorem State.emit_srams (s : State) (o : Output) : (s.emit o).srams = s.srams := rfl
@[simp] theorem State.emit_mem (s : State) (o : Output) : (s.emit o).mem = s.mem := rfl
@[simp] theorem State.emit_written (s : State) (o : Output) : (s.emit o).written = s.written := rfl
@[simp] theorem State.emit_retireList (s : State) (o : Output) : (s.emit o).retireList = s.retireList := rfl
@[simp] theorem State.emit_jobKeys (s : State) (o : Output) : (s.emit o).jobKeys = s.jobKeys := rfl
@[simp] theorem State.emit_jobs (s : State) (o : Output) : (s.emit o).jobs = s.jobs := rfl
@[simp] theorem State.emit_copyIns (s : State) (o : Output) : (s.emit o).copyIns = s.copyIns := rfl
@[simp] theorem State.emit_links (s : State) (o : Output) : (s.emit o).links = s.links := rfl
@[simp] theorem State.emit_rings (s : State) (o : Output) : (s.emit o).rings = s.rings := rfl
@[simp] theorem State.emit_part (s : State) (o : Output) : (s.emit o).part = s.part := rfl
@[simp] theorem State.emit_flights (s : State) (o : Output) : (s.emit o).flights = s.flights := rfl
@[simp] theorem State.emit_nextId (s : State) (o : Output) : (s.emit o).nextId = s.nextId := rfl
@[simp] theorem State.emit_batch (s : State) (o : Output) : (s.emit o).batch = s.batch := rfl
@[simp] theorem State.emit_seen (s : State) (o : Output) : (s.emit o).seen = s.seen := rfl
@[simp] theorem State.emit_since (s : State) (o : Output) : (s.emit o).since = s.since := rfl
@[simp] theorem State.emit_lowWater (s : State) (o : Output) : (s.emit o).lowWater = s.lowWater := rfl
@[simp] theorem State.emit_lowReport (s : State) (o : Output) : (s.emit o).lowReport = s.lowReport := rfl
@[simp] theorem State.emit_free (s : State) (o : Output) : (s.emit o).free = s.free := rfl
@[simp] theorem State.emit_pending (s : State) (o : Output) : (s.emit o).pending = s.pending := rfl
@[simp] theorem State.emit_chan (s : State) (o : Output) (i : Nat) : (s.emit o).chan i = s.chan i := rfl
@[simp] theorem State.emit_ring (s : State) (o : Output) (i : Nat) : (s.emit o).ring i = s.ring i := rfl
@[simp] theorem State.emit_link (s : State) (o : Output) (i : Nat) : (s.emit o).link i = s.link i := rfl
@[simp] theorem State.emit_conv (s : State) (o : Output) (i : Nat) : (s.emit o).conv i = s.conv i := rfl
@[simp] theorem State.emit_sram (s : State) (o : Output) (i : Nat) : (s.emit o).sram i = s.sram i := rfl
@[simp] theorem State.emit_group (s : State) (o : Output) (i : Nat) : (s.emit o).group i = s.group i := rfl
@[simp] theorem State.emit_entry (s : State) (o : Output) (i : Nat) : (s.emit o).entry i = s.entry i := rfl

/-! ### `State.raise` -/

@[simp] theorem State.raise_now (s : State) (source code sev : Nat) (d0 : Word) (d1 : BitVec 32) (cause : Option Nat) : (s.raise source code sev d0 d1 cause).now = s.now := rfl
@[simp] theorem State.raise_boot (s : State) (source code sev : Nat) (d0 : Word) (d1 : BitVec 32) (cause : Option Nat) : (s.raise source code sev d0 d1 cause).boot = s.boot := rfl
@[simp] theorem State.raise_sec (s : State) (source code sev : Nat) (d0 : Word) (d1 : BitVec 32) (cause : Option Nat) : (s.raise source code sev d0 d1 cause).sec = s.sec := rfl
@[simp] theorem State.raise_shore (s : State) (source code sev : Nat) (d0 : Word) (d1 : BitVec 32) (cause : Option Nat) : (s.raise source code sev d0 d1 cause).shore = s.shore := rfl
@[simp] theorem State.raise_tm (s : State) (source code sev : Nat) (d0 : Word) (d1 : BitVec 32) (cause : Option Nat) : (s.raise source code sev d0 d1 cause).tm = s.tm := rfl
@[simp] theorem State.raise_powerHours (s : State) (source code sev : Nat) (d0 : Word) (d1 : BitVec 32) (cause : Option Nat) : (s.raise source code sev d0 d1 cause).powerHours = s.powerHours := rfl
@[simp] theorem State.raise_hourDue (s : State) (source code sev : Nat) (d0 : Word) (d1 : BitVec 32) (cause : Option Nat) : (s.raise source code sev d0 d1 cause).hourDue = s.hourDue := rfl
@[simp] theorem State.raise_channels (s : State) (source code sev : Nat) (d0 : Word) (d1 : BitVec 32) (cause : Option Nat) : (s.raise source code sev d0 d1 cause).channels = s.channels := rfl
@[simp] theorem State.raise_groups (s : State) (source code sev : Nat) (d0 : Word) (d1 : BitVec 32) (cause : Option Nat) : (s.raise source code sev d0 d1 cause).groups = s.groups := rfl
@[simp] theorem State.raise_convs (s : State) (source code sev : Nat) (d0 : Word) (d1 : BitVec 32) (cause : Option Nat) : (s.raise source code sev d0 d1 cause).convs = s.convs := rfl
@[simp] theorem State.raise_srams (s : State) (source code sev : Nat) (d0 : Word) (d1 : BitVec 32) (cause : Option Nat) : (s.raise source code sev d0 d1 cause).srams = s.srams := rfl
@[simp] theorem State.raise_mem (s : State) (source code sev : Nat) (d0 : Word) (d1 : BitVec 32) (cause : Option Nat) : (s.raise source code sev d0 d1 cause).mem = s.mem := rfl
@[simp] theorem State.raise_written (s : State) (source code sev : Nat) (d0 : Word) (d1 : BitVec 32) (cause : Option Nat) : (s.raise source code sev d0 d1 cause).written = s.written := rfl
@[simp] theorem State.raise_retireList (s : State) (source code sev : Nat) (d0 : Word) (d1 : BitVec 32) (cause : Option Nat) : (s.raise source code sev d0 d1 cause).retireList = s.retireList := rfl
@[simp] theorem State.raise_jobKeys (s : State) (source code sev : Nat) (d0 : Word) (d1 : BitVec 32) (cause : Option Nat) : (s.raise source code sev d0 d1 cause).jobKeys = s.jobKeys := rfl
@[simp] theorem State.raise_jobs (s : State) (source code sev : Nat) (d0 : Word) (d1 : BitVec 32) (cause : Option Nat) : (s.raise source code sev d0 d1 cause).jobs = s.jobs := rfl
@[simp] theorem State.raise_copyIns (s : State) (source code sev : Nat) (d0 : Word) (d1 : BitVec 32) (cause : Option Nat) : (s.raise source code sev d0 d1 cause).copyIns = s.copyIns := rfl
@[simp] theorem State.raise_links (s : State) (source code sev : Nat) (d0 : Word) (d1 : BitVec 32) (cause : Option Nat) : (s.raise source code sev d0 d1 cause).links = s.links := rfl
@[simp] theorem State.raise_rings (s : State) (source code sev : Nat) (d0 : Word) (d1 : BitVec 32) (cause : Option Nat) : (s.raise source code sev d0 d1 cause).rings = s.rings := rfl
@[simp] theorem State.raise_part (s : State) (source code sev : Nat) (d0 : Word) (d1 : BitVec 32) (cause : Option Nat) : (s.raise source code sev d0 d1 cause).part = s.part := rfl
@[simp] theorem State.raise_flights (s : State) (source code sev : Nat) (d0 : Word) (d1 : BitVec 32) (cause : Option Nat) : (s.raise source code sev d0 d1 cause).flights = s.flights := rfl
@[simp] theorem State.raise_nextId (s : State) (source code sev : Nat) (d0 : Word) (d1 : BitVec 32) (cause : Option Nat) : (s.raise source code sev d0 d1 cause).nextId = s.nextId := rfl
@[simp] theorem State.raise_seen (s : State) (source code sev : Nat) (d0 : Word) (d1 : BitVec 32) (cause : Option Nat) : (s.raise source code sev d0 d1 cause).seen = s.seen := rfl
@[simp] theorem State.raise_since (s : State) (source code sev : Nat) (d0 : Word) (d1 : BitVec 32) (cause : Option Nat) : (s.raise source code sev d0 d1 cause).since = s.since := rfl
@[simp] theorem State.raise_lowWater (s : State) (source code sev : Nat) (d0 : Word) (d1 : BitVec 32) (cause : Option Nat) : (s.raise source code sev d0 d1 cause).lowWater = s.lowWater := rfl
@[simp] theorem State.raise_lowReport (s : State) (source code sev : Nat) (d0 : Word) (d1 : BitVec 32) (cause : Option Nat) : (s.raise source code sev d0 d1 cause).lowReport = s.lowReport := rfl
@[simp] theorem State.raise_out (s : State) (source code sev : Nat) (d0 : Word) (d1 : BitVec 32) (cause : Option Nat) : (s.raise source code sev d0 d1 cause).out = s.out := rfl
@[simp] theorem State.raise_free (s : State) (source code sev : Nat) (d0 : Word) (d1 : BitVec 32) (cause : Option Nat) : (s.raise source code sev d0 d1 cause).free = s.free := rfl
@[simp] theorem State.raise_pending (s : State) (source code sev : Nat) (d0 : Word) (d1 : BitVec 32) (cause : Option Nat) : (s.raise source code sev d0 d1 cause).pending = s.pending := rfl
@[simp] theorem State.raise_chan (s : State) (source code sev : Nat) (d0 : Word) (d1 : BitVec 32) (cause : Option Nat) (i : Nat) : (s.raise source code sev d0 d1 cause).chan i = s.chan i := rfl
@[simp] theorem State.raise_ring (s : State) (source code sev : Nat) (d0 : Word) (d1 : BitVec 32) (cause : Option Nat) (i : Nat) : (s.raise source code sev d0 d1 cause).ring i = s.ring i := rfl
@[simp] theorem State.raise_link (s : State) (source code sev : Nat) (d0 : Word) (d1 : BitVec 32) (cause : Option Nat) (i : Nat) : (s.raise source code sev d0 d1 cause).link i = s.link i := rfl
@[simp] theorem State.raise_conv (s : State) (source code sev : Nat) (d0 : Word) (d1 : BitVec 32) (cause : Option Nat) (i : Nat) : (s.raise source code sev d0 d1 cause).conv i = s.conv i := rfl
@[simp] theorem State.raise_sram (s : State) (source code sev : Nat) (d0 : Word) (d1 : BitVec 32) (cause : Option Nat) (i : Nat) : (s.raise source code sev d0 d1 cause).sram i = s.sram i := rfl
@[simp] theorem State.raise_group (s : State) (source code sev : Nat) (d0 : Word) (d1 : BitVec 32) (cause : Option Nat) (i : Nat) : (s.raise source code sev d0 d1 cause).group i = s.group i := rfl
@[simp] theorem State.raise_entry (s : State) (source code sev : Nat) (d0 : Word) (d1 : BitVec 32) (cause : Option Nat) (i : Nat) : (s.raise source code sev d0 d1 cause).entry i = s.entry i := rfl

/-! ### `State.onFlight` -/

@[simp] theorem State.onFlight_now (s : State) (id : Nat) (g : Flight → Flight) : (s.onFlight id g).now = s.now := rfl
@[simp] theorem State.onFlight_boot (s : State) (id : Nat) (g : Flight → Flight) : (s.onFlight id g).boot = s.boot := rfl
@[simp] theorem State.onFlight_sec (s : State) (id : Nat) (g : Flight → Flight) : (s.onFlight id g).sec = s.sec := rfl
@[simp] theorem State.onFlight_shore (s : State) (id : Nat) (g : Flight → Flight) : (s.onFlight id g).shore = s.shore := rfl
@[simp] theorem State.onFlight_tm (s : State) (id : Nat) (g : Flight → Flight) : (s.onFlight id g).tm = s.tm := rfl
@[simp] theorem State.onFlight_powerHours (s : State) (id : Nat) (g : Flight → Flight) : (s.onFlight id g).powerHours = s.powerHours := rfl
@[simp] theorem State.onFlight_hourDue (s : State) (id : Nat) (g : Flight → Flight) : (s.onFlight id g).hourDue = s.hourDue := rfl
@[simp] theorem State.onFlight_channels (s : State) (id : Nat) (g : Flight → Flight) : (s.onFlight id g).channels = s.channels := rfl
@[simp] theorem State.onFlight_groups (s : State) (id : Nat) (g : Flight → Flight) : (s.onFlight id g).groups = s.groups := rfl
@[simp] theorem State.onFlight_convs (s : State) (id : Nat) (g : Flight → Flight) : (s.onFlight id g).convs = s.convs := rfl
@[simp] theorem State.onFlight_srams (s : State) (id : Nat) (g : Flight → Flight) : (s.onFlight id g).srams = s.srams := rfl
@[simp] theorem State.onFlight_mem (s : State) (id : Nat) (g : Flight → Flight) : (s.onFlight id g).mem = s.mem := rfl
@[simp] theorem State.onFlight_written (s : State) (id : Nat) (g : Flight → Flight) : (s.onFlight id g).written = s.written := rfl
@[simp] theorem State.onFlight_retireList (s : State) (id : Nat) (g : Flight → Flight) : (s.onFlight id g).retireList = s.retireList := rfl
@[simp] theorem State.onFlight_jobKeys (s : State) (id : Nat) (g : Flight → Flight) : (s.onFlight id g).jobKeys = s.jobKeys := rfl
@[simp] theorem State.onFlight_jobs (s : State) (id : Nat) (g : Flight → Flight) : (s.onFlight id g).jobs = s.jobs := rfl
@[simp] theorem State.onFlight_copyIns (s : State) (id : Nat) (g : Flight → Flight) : (s.onFlight id g).copyIns = s.copyIns := rfl
@[simp] theorem State.onFlight_links (s : State) (id : Nat) (g : Flight → Flight) : (s.onFlight id g).links = s.links := rfl
@[simp] theorem State.onFlight_rings (s : State) (id : Nat) (g : Flight → Flight) : (s.onFlight id g).rings = s.rings := rfl
@[simp] theorem State.onFlight_part (s : State) (id : Nat) (g : Flight → Flight) : (s.onFlight id g).part = s.part := rfl
@[simp] theorem State.onFlight_nextId (s : State) (id : Nat) (g : Flight → Flight) : (s.onFlight id g).nextId = s.nextId := rfl
@[simp] theorem State.onFlight_batch (s : State) (id : Nat) (g : Flight → Flight) : (s.onFlight id g).batch = s.batch := rfl
@[simp] theorem State.onFlight_seen (s : State) (id : Nat) (g : Flight → Flight) : (s.onFlight id g).seen = s.seen := rfl
@[simp] theorem State.onFlight_since (s : State) (id : Nat) (g : Flight → Flight) : (s.onFlight id g).since = s.since := rfl
@[simp] theorem State.onFlight_lowWater (s : State) (id : Nat) (g : Flight → Flight) : (s.onFlight id g).lowWater = s.lowWater := rfl
@[simp] theorem State.onFlight_lowReport (s : State) (id : Nat) (g : Flight → Flight) : (s.onFlight id g).lowReport = s.lowReport := rfl
@[simp] theorem State.onFlight_out (s : State) (id : Nat) (g : Flight → Flight) : (s.onFlight id g).out = s.out := rfl
@[simp] theorem State.onFlight_free (s : State) (id : Nat) (g : Flight → Flight) : (s.onFlight id g).free = s.free := rfl
@[simp] theorem State.onFlight_pending (s : State) (id : Nat) (g : Flight → Flight) : (s.onFlight id g).pending = s.pending := rfl
@[simp] theorem State.onFlight_chan (s : State) (id : Nat) (g : Flight → Flight) (i : Nat) : (s.onFlight id g).chan i = s.chan i := rfl
@[simp] theorem State.onFlight_ring (s : State) (id : Nat) (g : Flight → Flight) (i : Nat) : (s.onFlight id g).ring i = s.ring i := rfl
@[simp] theorem State.onFlight_link (s : State) (id : Nat) (g : Flight → Flight) (i : Nat) : (s.onFlight id g).link i = s.link i := rfl
@[simp] theorem State.onFlight_conv (s : State) (id : Nat) (g : Flight → Flight) (i : Nat) : (s.onFlight id g).conv i = s.conv i := rfl
@[simp] theorem State.onFlight_sram (s : State) (id : Nat) (g : Flight → Flight) (i : Nat) : (s.onFlight id g).sram i = s.sram i := rfl
@[simp] theorem State.onFlight_group (s : State) (id : Nat) (g : Flight → Flight) (i : Nat) : (s.onFlight id g).group i = s.group i := rfl
@[simp] theorem State.onFlight_entry (s : State) (id : Nat) (g : Flight → Flight) (i : Nat) : (s.onFlight id g).entry i = s.entry i := rfl

/-! ### `State.dropFlight` -/

@[simp] theorem State.dropFlight_now (s : State) (id : Nat) : (s.dropFlight id).now = s.now := rfl
@[simp] theorem State.dropFlight_boot (s : State) (id : Nat) : (s.dropFlight id).boot = s.boot := rfl
@[simp] theorem State.dropFlight_sec (s : State) (id : Nat) : (s.dropFlight id).sec = s.sec := rfl
@[simp] theorem State.dropFlight_shore (s : State) (id : Nat) : (s.dropFlight id).shore = s.shore := rfl
@[simp] theorem State.dropFlight_tm (s : State) (id : Nat) : (s.dropFlight id).tm = s.tm := rfl
@[simp] theorem State.dropFlight_powerHours (s : State) (id : Nat) : (s.dropFlight id).powerHours = s.powerHours := rfl
@[simp] theorem State.dropFlight_hourDue (s : State) (id : Nat) : (s.dropFlight id).hourDue = s.hourDue := rfl
@[simp] theorem State.dropFlight_channels (s : State) (id : Nat) : (s.dropFlight id).channels = s.channels := rfl
@[simp] theorem State.dropFlight_groups (s : State) (id : Nat) : (s.dropFlight id).groups = s.groups := rfl
@[simp] theorem State.dropFlight_convs (s : State) (id : Nat) : (s.dropFlight id).convs = s.convs := rfl
@[simp] theorem State.dropFlight_srams (s : State) (id : Nat) : (s.dropFlight id).srams = s.srams := rfl
@[simp] theorem State.dropFlight_mem (s : State) (id : Nat) : (s.dropFlight id).mem = s.mem := rfl
@[simp] theorem State.dropFlight_written (s : State) (id : Nat) : (s.dropFlight id).written = s.written := rfl
@[simp] theorem State.dropFlight_retireList (s : State) (id : Nat) : (s.dropFlight id).retireList = s.retireList := rfl
@[simp] theorem State.dropFlight_jobKeys (s : State) (id : Nat) : (s.dropFlight id).jobKeys = s.jobKeys := rfl
@[simp] theorem State.dropFlight_jobs (s : State) (id : Nat) : (s.dropFlight id).jobs = s.jobs := rfl
@[simp] theorem State.dropFlight_copyIns (s : State) (id : Nat) : (s.dropFlight id).copyIns = s.copyIns := rfl
@[simp] theorem State.dropFlight_links (s : State) (id : Nat) : (s.dropFlight id).links = s.links := rfl
@[simp] theorem State.dropFlight_rings (s : State) (id : Nat) : (s.dropFlight id).rings = s.rings := rfl
@[simp] theorem State.dropFlight_part (s : State) (id : Nat) : (s.dropFlight id).part = s.part := rfl
@[simp] theorem State.dropFlight_nextId (s : State) (id : Nat) : (s.dropFlight id).nextId = s.nextId := rfl
@[simp] theorem State.dropFlight_batch (s : State) (id : Nat) : (s.dropFlight id).batch = s.batch := rfl
@[simp] theorem State.dropFlight_seen (s : State) (id : Nat) : (s.dropFlight id).seen = s.seen := rfl
@[simp] theorem State.dropFlight_since (s : State) (id : Nat) : (s.dropFlight id).since = s.since := rfl
@[simp] theorem State.dropFlight_lowWater (s : State) (id : Nat) : (s.dropFlight id).lowWater = s.lowWater := rfl
@[simp] theorem State.dropFlight_lowReport (s : State) (id : Nat) : (s.dropFlight id).lowReport = s.lowReport := rfl
@[simp] theorem State.dropFlight_out (s : State) (id : Nat) : (s.dropFlight id).out = s.out := rfl
@[simp] theorem State.dropFlight_free (s : State) (id : Nat) : (s.dropFlight id).free = s.free := rfl
@[simp] theorem State.dropFlight_pending (s : State) (id : Nat) : (s.dropFlight id).pending = s.pending := rfl
@[simp] theorem State.dropFlight_chan (s : State) (id : Nat) (i : Nat) : (s.dropFlight id).chan i = s.chan i := rfl
@[simp] theorem State.dropFlight_ring (s : State) (id : Nat) (i : Nat) : (s.dropFlight id).ring i = s.ring i := rfl
@[simp] theorem State.dropFlight_link (s : State) (id : Nat) (i : Nat) : (s.dropFlight id).link i = s.link i := rfl
@[simp] theorem State.dropFlight_conv (s : State) (id : Nat) (i : Nat) : (s.dropFlight id).conv i = s.conv i := rfl
@[simp] theorem State.dropFlight_sram (s : State) (id : Nat) (i : Nat) : (s.dropFlight id).sram i = s.sram i := rfl
@[simp] theorem State.dropFlight_group (s : State) (id : Nat) (i : Nat) : (s.dropFlight id).group i = s.group i := rfl
@[simp] theorem State.dropFlight_entry (s : State) (id : Nat) (i : Nat) : (s.dropFlight id).entry i = s.entry i := rfl

/-! ### `State.run` -/

@[simp] theorem State.run_now (s : State) (f : Flight) : (s.run f).now = s.now := rfl
@[simp] theorem State.run_boot (s : State) (f : Flight) : (s.run f).boot = s.boot := rfl
@[simp] theorem State.run_sec (s : State) (f : Flight) : (s.run f).sec = s.sec := rfl
@[simp] theorem State.run_shore (s : State) (f : Flight) : (s.run f).shore = s.shore := rfl
@[simp] theorem State.run_tm (s : State) (f : Flight) : (s.run f).tm = s.tm := rfl
@[simp] theorem State.run_powerHours (s : State) (f : Flight) : (s.run f).powerHours = s.powerHours := rfl
@[simp] theorem State.run_hourDue (s : State) (f : Flight) : (s.run f).hourDue = s.hourDue := rfl
@[simp] theorem State.run_channels (s : State) (f : Flight) : (s.run f).channels = s.channels := rfl
@[simp] theorem State.run_groups (s : State) (f : Flight) : (s.run f).groups = s.groups := rfl
@[simp] theorem State.run_convs (s : State) (f : Flight) : (s.run f).convs = s.convs := rfl
@[simp] theorem State.run_srams (s : State) (f : Flight) : (s.run f).srams = s.srams := rfl
@[simp] theorem State.run_mem (s : State) (f : Flight) : (s.run f).mem = s.mem := rfl
@[simp] theorem State.run_written (s : State) (f : Flight) : (s.run f).written = s.written := rfl
@[simp] theorem State.run_retireList (s : State) (f : Flight) : (s.run f).retireList = s.retireList := rfl
@[simp] theorem State.run_jobKeys (s : State) (f : Flight) : (s.run f).jobKeys = s.jobKeys := rfl
@[simp] theorem State.run_jobs (s : State) (f : Flight) : (s.run f).jobs = s.jobs := rfl
@[simp] theorem State.run_copyIns (s : State) (f : Flight) : (s.run f).copyIns = s.copyIns := rfl
@[simp] theorem State.run_links (s : State) (f : Flight) : (s.run f).links = s.links := rfl
@[simp] theorem State.run_rings (s : State) (f : Flight) : (s.run f).rings = s.rings := rfl
@[simp] theorem State.run_part (s : State) (f : Flight) : (s.run f).part = s.part := rfl
@[simp] theorem State.run_nextId (s : State) (f : Flight) : (s.run f).nextId = s.nextId := rfl
@[simp] theorem State.run_batch (s : State) (f : Flight) : (s.run f).batch = s.batch := rfl
@[simp] theorem State.run_seen (s : State) (f : Flight) : (s.run f).seen = s.seen := rfl
@[simp] theorem State.run_since (s : State) (f : Flight) : (s.run f).since = s.since := rfl
@[simp] theorem State.run_lowWater (s : State) (f : Flight) : (s.run f).lowWater = s.lowWater := rfl
@[simp] theorem State.run_lowReport (s : State) (f : Flight) : (s.run f).lowReport = s.lowReport := rfl
@[simp] theorem State.run_out (s : State) (f : Flight) : (s.run f).out = s.out := rfl
@[simp] theorem State.run_free (s : State) (f : Flight) : (s.run f).free = s.free := rfl
@[simp] theorem State.run_pending (s : State) (f : Flight) : (s.run f).pending = s.pending := rfl
@[simp] theorem State.run_chan (s : State) (f : Flight) (i : Nat) : (s.run f).chan i = s.chan i := rfl
@[simp] theorem State.run_ring (s : State) (f : Flight) (i : Nat) : (s.run f).ring i = s.ring i := rfl
@[simp] theorem State.run_link (s : State) (f : Flight) (i : Nat) : (s.run f).link i = s.link i := rfl
@[simp] theorem State.run_conv (s : State) (f : Flight) (i : Nat) : (s.run f).conv i = s.conv i := rfl
@[simp] theorem State.run_sram (s : State) (f : Flight) (i : Nat) : (s.run f).sram i = s.sram i := rfl
@[simp] theorem State.run_group (s : State) (f : Flight) (i : Nat) : (s.run f).group i = s.group i := rfl
@[simp] theorem State.run_entry (s : State) (f : Flight) (i : Nat) : (s.run f).entry i = s.entry i := rfl

/-! ### The entries of a collection -/

@[simp] theorem State.setChan_chan_same (s : State) (i : Nat) (x : Channel) : (s.setChan i x).chan i = x :=
  Sparse.get_insert_same _ _ _ _
@[simp] theorem State.setChan_chan_ne (s : State) {i j : Nat} (x : Channel) (h : j ≠ i) : (s.setChan i x).chan j = s.chan j :=
  Sparse.get_insert_ne _ _ _ h
theorem State.setChan_chan (s : State) (i j : Nat) (x : Channel) : (s.setChan i x).chan j = if j = i then x else s.chan j :=
  Sparse.get_insert _ _ _ _ _
@[simp] theorem State.setRing_ring_same (s : State) (i : Nat) (x : Ring) : (s.setRing i x).ring i = x :=
  Sparse.get_insert_same _ _ _ _
@[simp] theorem State.setRing_ring_ne (s : State) {i j : Nat} (x : Ring) (h : j ≠ i) : (s.setRing i x).ring j = s.ring j :=
  Sparse.get_insert_ne _ _ _ h
theorem State.setRing_ring (s : State) (i j : Nat) (x : Ring) : (s.setRing i x).ring j = if j = i then x else s.ring j :=
  Sparse.get_insert _ _ _ _ _
@[simp] theorem State.setLink_link_same (s : State) (i : Nat) (x : Link) : (s.setLink i x).link i = x :=
  Sparse.get_insert_same _ _ _ _
@[simp] theorem State.setLink_link_ne (s : State) {i j : Nat} (x : Link) (h : j ≠ i) : (s.setLink i x).link j = s.link j :=
  Sparse.get_insert_ne _ _ _ h
theorem State.setLink_link (s : State) (i j : Nat) (x : Link) : (s.setLink i x).link j = if j = i then x else s.link j :=
  Sparse.get_insert _ _ _ _ _
@[simp] theorem State.setConv_conv_same (s : State) (i : Nat) (x : Converter) : (s.setConv i x).conv i = x :=
  Sparse.get_insert_same _ _ _ _
@[simp] theorem State.setConv_conv_ne (s : State) {i j : Nat} (x : Converter) (h : j ≠ i) : (s.setConv i x).conv j = s.conv j :=
  Sparse.get_insert_ne _ _ _ h
theorem State.setConv_conv (s : State) (i j : Nat) (x : Converter) : (s.setConv i x).conv j = if j = i then x else s.conv j :=
  Sparse.get_insert _ _ _ _ _
@[simp] theorem State.setSram_sram_same (s : State) (i : Nat) (x : Sram) : (s.setSram i x).sram i = x :=
  Sparse.get_insert_same _ _ _ _
@[simp] theorem State.setSram_sram_ne (s : State) {i j : Nat} (x : Sram) (h : j ≠ i) : (s.setSram i x).sram j = s.sram j :=
  Sparse.get_insert_ne _ _ _ h
theorem State.setSram_sram (s : State) (i j : Nat) (x : Sram) : (s.setSram i x).sram j = if j = i then x else s.sram j :=
  Sparse.get_insert _ _ _ _ _
@[simp] theorem State.setGroup_group_same (s : State) (i : Nat) (x : Group) : (s.setGroup i x).group i = x :=
  Sparse.get_insert_same _ _ _ _
@[simp] theorem State.setGroup_group_ne (s : State) {i j : Nat} (x : Group) (h : j ≠ i) : (s.setGroup i x).group j = s.group j :=
  Sparse.get_insert_ne _ _ _ h
theorem State.setGroup_group (s : State) (i j : Nat) (x : Group) : (s.setGroup i x).group j = if j = i then x else s.group j :=
  Sparse.get_insert _ _ _ _ _

/-! ### What the updates set -/

@[simp] theorem State.at_now (s : State) (due : Nat) : (s.at due).now = max s.now due := rfl
@[simp] theorem State.draw_free (s : State) : s.draw.free = s.free + 1 := rfl
@[simp] theorem State.emit_out (s : State) (o : Output) : (s.emit o).out = o :: s.out := rfl
@[simp] theorem State.onSec_sec (s : State) (g : Security → Security) : (s.onSec g).sec = g s.sec := rfl
@[simp] theorem State.onTm_tm (s : State) (g : Timing → Timing) : (s.onTm g).tm = g s.tm := rfl
@[simp] theorem State.onShore_shore (s : State) (g : Shore → Shore) : (s.onShore g).shore = g s.shore := rfl
@[simp] theorem State.onBoot_boot (s : State) (g : Boot → Boot) : (s.onBoot g).boot = g s.boot := rfl
@[simp] theorem State.raise_batch (s : State) (source code sev : Nat) (d0 : Word) (d1 : BitVec 32) (cause : Option Nat) :
    (s.raise source code sev d0 d1 cause).batch = s.batch ++
      [{ source := source, code := code, severity := sev, us := s.us, mfc := s.eventMfc source
         detail0 := d0, detail1 := d1, cause := cause }] := rfl

/-! ### Updates of one part of a channel, and of one entry, are updates of the collection -/

@[simp] theorem State.onAge_eq (s : State) (c : Nat) (g : Ageing → Ageing) :
    s.onAge c g = s.setChan c { s.chan c with age := g (s.chan c).age } := rfl
@[simp] theorem State.onBu_eq (s : State) (c : Nat) (g : Bringup → Bringup) :
    s.onBu c g = s.setChan c { s.chan c with bu := g (s.chan c).bu } := rfl
@[simp] theorem State.onPw_eq (s : State) (c : Nat) (g : Power → Power) :
    s.onPw c g = s.setChan c { s.chan c with pw := g (s.chan c).pw } := rfl
@[simp] theorem State.onCal_eq (s : State) (c : Nat) (g : Cal → Cal) :
    s.onCal c g = s.setChan c { s.chan c with cal := g (s.chan c).cal } := rfl
@[simp] theorem State.onFec_eq (s : State) (c : Nat) (g : Fec → Fec) :
    s.onFec c g = s.setChan c { s.chan c with fec := g (s.chan c).fec } := rfl
@[simp] theorem State.onKp_eq (s : State) (c : Nat) (g : Kapra → Kapra) :
    s.onKp c g = s.setChan c { s.chan c with kp := g (s.chan c).kp } := rfl
@[simp] theorem State.onLd_eq (s : State) (c : Nat) (g : Loading → Loading) :
    s.onLd c g = s.setChan c { s.chan c with ld := g (s.chan c).ld } := rfl
@[simp] theorem State.onPm_eq (s : State) (c : Nat) (g : P2mp → P2mp) :
    s.onPm c g = s.setChan c { s.chan c with pm := g (s.chan c).pm } := rfl
@[simp] theorem State.onOpt_eq (s : State) (c : Nat) (g : Optics → Optics) :
    s.onOpt c g = s.setChan c { s.chan c with opt := g (s.chan c).opt } := rfl
@[simp] theorem State.onCap_eq (s : State) (c : Nat) (g : Capture → Capture) :
    s.onCap c g = s.setChan c { s.chan c with cap := g (s.chan c).cap } := rfl
@[simp] theorem State.onRx_eq (s : State) (c : Nat) (g : Receiver → Receiver) :
    s.onRx c g = s.setChan c { s.chan c with rx := g (s.chan c).rx } := rfl
@[simp] theorem State.onSl_eq (s : State) (c : Nat) (g : Slots → Slots) :
    s.onSl c g = s.setChan c { s.chan c with sl := g (s.chan c).sl } := rfl
@[simp] theorem State.onChan_eq (s : State) (c : Nat) (g : Channel → Channel) : s.onChan c g = s.setChan c (g (s.chan c)) := rfl
@[simp] theorem State.onRing_eq (s : State) (r : Nat) (g : Ring → Ring) : s.onRing r g = s.setRing r (g (s.ring r)) := rfl
@[simp] theorem State.onLink_eq (s : State) (n : Nat) (g : Link → Link) : s.onLink n g = s.setLink n (g (s.link n)) := rfl
@[simp] theorem State.onConv_eq (s : State) (k : Nat) (g : Converter → Converter) : s.onConv k g = s.setConv k (g (s.conv k)) := rfl
@[simp] theorem State.onSram_eq (s : State) (k : Nat) (g : Sram → Sram) : s.onSram k g = s.setSram k (g (s.sram k)) := rfl
@[simp] theorem State.onGroup_eq (s : State) (g : Nat) (k : Group → Group) : s.onGroup g k = s.setGroup g (k (s.group g)) := rfl

end Sys2Proof.Machine
end

