-- ==== Sys2Proof/Laws/Rows.lean ====
section
/-! SUPPORT. How a row answers: a command row on its started command, an event row that can occur. -/

namespace Sys2Proof.Machine

theorem State.Started.id_eq {s : State} {id op : Nat} {f : Flight} (h : s.Started id op f) : f.id = id := by
  have := List.find?_some h
  simp only [Bool.and_eq_true, decide_eq_true_eq] at this
  exact this.1.1

theorem State.Started.started {s : State} {id op : Nat} {f : Flight} (h : s.Started id op f) : f.phase = .started := by
  have := List.find?_some h
  simp only [Bool.and_eq_true, decide_eq_true_eq] at this
  exact this.1.2

theorem State.Started.opcode_eq {s : State} {id op : Nat} {f : Flight} (h : s.Started id op f) : f.desc.opcode = op := by
  have := List.find?_some h
  simp only [Bool.and_eq_true, decide_eq_true_eq] at this
  exact this.2

theorem State.Started.mem {s : State} {id op : Nat} {f : Flight} (h : s.Started id op f) : f ∈ s.flights :=
  List.mem_of_find?_eq_some h

/-- A command row acts on its started command. -/
theorem withCmd_started {s : State} {id op : Nat} {f : Flight} (h : s.Started id op f) (k : Flight → State) :
    withCmd s id op k = .next (k f).remark := by
  unfold withCmd
  rw [h]

theorem find?_and {α : Type} {l : List α} {p q : α → Bool} {a : α} (h : l.find? p = some a) (hq : q a = true) :
    l.find? (fun x => p x && q x) = some a := by
  induction l with
  | nil => cases h
  | cons b l ih =>
    rw [List.find?_cons] at h
    split at h
    · rename_i hp
      cases h
      rw [List.find?_cons_of_pos (by simp [hp, hq])]
    · rename_i hp
      rw [List.find?_cons_of_neg (by simp [hp])]
      exact ih h

/-- A row that shares its opcode acts when the descriptor is its own. -/
theorem withCmdIf_started {s : State} {id op : Nat} {f : Flight} {p : Desc → Bool} (h : s.Started id op f)
    (hp : p f.desc = true) (k : Flight → State) : withCmdIf s id op p k = .next (k f).remark := by
  unfold withCmdIf
  rw [find?_and (q := fun f => p f.desc) h hp]

theorem occurs_true {s : State} {p : Bool} (k : State) (h : p = true) : occurs s p k = .next k.remark := by
  simp [occurs, h]

theorem occurs_false {s : State} {p : Bool} (k : State) (h : p = false) : occurs s p k = .next s := by
  simp [occurs, h]

theorem occursWith_some {α : Type} {s : State} {o : Option α} {a : α} (k : α → State) (h : o = some a) :
    occursWith s o k = .next (k a).remark := by
  simp [occursWith, h]

theorem occursWith_none {α : Type} {s : State} {o : Option α} (k : α → State) (h : o = none) : occursWith s o k = .next s := by
  simp [occursWith, h]

/-- What a row can answer: the state as it was, or its effect brought up to date. -/
theorem withCmd_cases {s t : State} {id op : Nat} {k : Flight → State} (h : withCmd s id op k = .next t) :
    t = s ∨ ∃ f, s.Started id op f ∧ t = (k f).remark := by
  unfold withCmd at h
  split at h
  · rename_i f hf
    exact .inr ⟨f, hf, by simpa using h.symm⟩
  · exact .inl (by simpa using h.symm)

theorem withCmdIf_cases {s t : State} {id op : Nat} {p : Desc → Bool} {k : Flight → State}
    (h : withCmdIf s id op p k = .next t) :
    t = s ∨ ∃ f ∈ s.flights, f.id = id ∧ f.desc.opcode = op ∧ t = (k f).remark := by
  unfold withCmdIf at h
  split at h
  · rename_i f hf
    have hm := List.mem_of_find?_eq_some hf
    have hp := List.find?_some hf
    simp only [Bool.and_eq_true, decide_eq_true_eq] at hp
    exact .inr ⟨f, hm, hp.1.1.1, hp.1.2, by simpa using h.symm⟩
  · exact .inl (by simpa using h.symm)

theorem occurs_cases {s k t : State} {p : Bool} (h : occurs s p k = .next t) : t = s ∨ (p = true ∧ t = k.remark) := by
  unfold occurs at h
  cases p
  · exact .inl (by simpa using h.symm)
  · exact .inr ⟨rfl, by simpa using h.symm⟩

theorem occursWith_cases {α : Type} {s t : State} {o : Option α} {k : α → State} (h : occursWith s o k = .next t) :
    t = s ∨ ∃ a, o = some a ∧ t = (k a).remark := by
  cases o with
  | none => exact .inl (by simpa [occursWith] using h.symm)
  | some a => exact .inr ⟨a, rfl, by simpa [occursWith] using h.symm⟩

/-! ### Every form of a row answers a next state -/

theorem withCmd_next (s : State) (id op : Nat) (k : Flight → State) : ∃ t, withCmd s id op k = .next t := by
  unfold withCmd
  split <;> exact ⟨_, rfl⟩

theorem withCmdIf_next (s : State) (id op : Nat) (p : Desc → Bool) (k : Flight → State) :
    ∃ t, withCmdIf s id op p k = .next t := by
  unfold withCmdIf
  split <;> exact ⟨_, rfl⟩

theorem occurs_next (s : State) (p : Bool) (k : State) : ∃ t, occurs s p k = .next t := ⟨_, rfl⟩
theorem occursWith_next {α : Type} (s : State) (o : Option α) (k : α → State) : ∃ t, occursWith s o k = .next t := ⟨_, rfl⟩

end Sys2Proof.Machine
end

