-- ==== Sys2Proof/Laws/Remark.lean ====
section
/-! SUPPORT. What follows every change (`State.remark`): CHAN_HOLD with its event, low water and the alarm begin times follow,
and nothing else moves. -/

namespace Sys2Proof.Machine

/-! ### One part of the state over the steps of a list -/

theorem foldl_eq_of {α β : Type} (obs : State → β) (l : List α) (g : State → α → State) (s : State)
    (h : ∀ s x, obs (g s x) = obs s) : obs (l.foldl g s) = obs s := by
  induction l generalizing s with
  | nil => rfl
  | cons a l ih => rw [List.foldl_cons, ih, h]

theorem foldl_inv_of {α : Type} (P : State → Prop) (l : List α) (g : State → α → State) (s : State)
    (h : ∀ s x, P s → P (g s x)) (hs : P s) : P (l.foldl g s) := by
  induction l generalizing s with
  | nil => exact hs
  | cons a l ih => exact ih _ (h s a hs)

/-! ### Holding channels -/

@[simp] theorem State.watchHold_now (s : State) : s.watchHold.now = s.now :=
  foldl_eq_of (·.now) _ _ _ fun s p => by dsimp only; split <;> rfl
@[simp] theorem State.watchHold_boot (s : State) : s.watchHold.boot = s.boot :=
  foldl_eq_of (·.boot) _ _ _ fun s p => by dsimp only; split <;> rfl
@[simp] theorem State.watchHold_sec (s : State) : s.watchHold.sec = s.sec :=
  foldl_eq_of (·.sec) _ _ _ fun s p => by dsimp only; split <;> rfl
@[simp] theorem State.watchHold_shore (s : State) : s.watchHold.shore = s.shore :=
  foldl_eq_of (·.shore) _ _ _ fun s p => by dsimp only; split <;> rfl
@[simp] theorem State.watchHold_tm (s : State) : s.watchHold.tm = s.tm :=
  foldl_eq_of (·.tm) _ _ _ fun s p => by dsimp only; split <;> rfl
@[simp] theorem State.watchHold_powerHours (s : State) : s.watchHold.powerHours = s.powerHours :=
  foldl_eq_of (·.powerHours) _ _ _ fun s p => by dsimp only; split <;> rfl
@[simp] theorem State.watchHold_hourDue (s : State) : s.watchHold.hourDue = s.hourDue :=
  foldl_eq_of (·.hourDue) _ _ _ fun s p => by dsimp only; split <;> rfl
@[simp] theorem State.watchHold_groups (s : State) : s.watchHold.groups = s.groups :=
  foldl_eq_of (·.groups) _ _ _ fun s p => by dsimp only; split <;> rfl
@[simp] theorem State.watchHold_convs (s : State) : s.watchHold.convs = s.convs :=
  foldl_eq_of (·.convs) _ _ _ fun s p => by dsimp only; split <;> rfl
@[simp] theorem State.watchHold_srams (s : State) : s.watchHold.srams = s.srams :=
  foldl_eq_of (·.srams) _ _ _ fun s p => by dsimp only; split <;> rfl
@[simp] theorem State.watchHold_mem (s : State) : s.watchHold.mem = s.mem :=
  foldl_eq_of (·.mem) _ _ _ fun s p => by dsimp only; split <;> rfl
@[simp] theorem State.watchHold_written (s : State) : s.watchHold.written = s.written :=
  foldl_eq_of (·.written) _ _ _ fun s p => by dsimp only; split <;> rfl
@[simp] theorem State.watchHold_retireList (s : State) : s.watchHold.retireList = s.retireList :=
  foldl_eq_of (·.retireList) _ _ _ fun s p => by dsimp only; split <;> rfl
@[simp] theorem State.watchHold_jobKeys (s : State) : s.watchHold.jobKeys = s.jobKeys :=
  foldl_eq_of (·.jobKeys) _ _ _ fun s p => by dsimp only; split <;> rfl
@[simp] theorem State.watchHold_jobs (s : State) : s.watchHold.jobs = s.jobs :=
  foldl_eq_of (·.jobs) _ _ _ fun s p => by dsimp only; split <;> rfl
@[simp] theorem State.watchHold_copyIns (s : State) : s.watchHold.copyIns = s.copyIns :=
  foldl_eq_of (·.copyIns) _ _ _ fun s p => by dsimp only; split <;> rfl
@[simp] theorem State.watchHold_links (s : State) : s.watchHold.links = s.links :=
  foldl_eq_of (·.links) _ _ _ fun s p => by dsimp only; split <;> rfl
@[simp] theorem State.watchHold_rings (s : State) : s.watchHold.rings = s.rings :=
  foldl_eq_of (·.rings) _ _ _ fun s p => by dsimp only; split <;> rfl
@[simp] theorem State.watchHold_part (s : State) : s.watchHold.part = s.part :=
  foldl_eq_of (·.part) _ _ _ fun s p => by dsimp only; split <;> rfl
@[simp] theorem State.watchHold_flights (s : State) : s.watchHold.flights = s.flights :=
  foldl_eq_of (·.flights) _ _ _ fun s p => by dsimp only; split <;> rfl
@[simp] theorem State.watchHold_nextId (s : State) : s.watchHold.nextId = s.nextId :=
  foldl_eq_of (·.nextId) _ _ _ fun s p => by dsimp only; split <;> rfl
@[simp] theorem State.watchHold_seen (s : State) : s.watchHold.seen = s.seen :=
  foldl_eq_of (·.seen) _ _ _ fun s p => by dsimp only; split <;> rfl
@[simp] theorem State.watchHold_since (s : State) : s.watchHold.since = s.since :=
  foldl_eq_of (·.since) _ _ _ fun s p => by dsimp only; split <;> rfl
@[simp] theorem State.watchHold_lowWater (s : State) : s.watchHold.lowWater = s.lowWater :=
  foldl_eq_of (·.lowWater) _ _ _ fun s p => by dsimp only; split <;> rfl
@[simp] theorem State.watchHold_lowReport (s : State) : s.watchHold.lowReport = s.lowReport :=
  foldl_eq_of (·.lowReport) _ _ _ fun s p => by dsimp only; split <;> rfl
@[simp] theorem State.watchHold_out (s : State) : s.watchHold.out = s.out :=
  foldl_eq_of (·.out) _ _ _ fun s p => by dsimp only; split <;> rfl
@[simp] theorem State.watchHold_free (s : State) : s.watchHold.free = s.free :=
  foldl_eq_of (·.free) _ _ _ fun s p => by dsimp only; split <;> rfl
@[simp] theorem State.watchHold_pending (s : State) : s.watchHold.pending = s.pending :=
  foldl_eq_of (·.pending) _ _ _ fun s p => by dsimp only; split <;> rfl

/-- A channel changes in CHAN_HOLD alone. -/
theorem State.watchHold_chan (s : State) (c : Nat) : ∃ h, s.watchHold.chan c = { s.chan c with hold := h } := by
  unfold State.watchHold
  refine foldl_inv_of (fun u => ∃ h, u.chan c = { s.chan c with hold := h }) _ _ s ?_ ⟨(s.chan c).hold, rfl⟩
  rintro u p ⟨h, hu⟩
  dsimp only
  split
  · exact ⟨h, hu⟩
  · by_cases hc : c = p.1
    · subst hc
      exact ⟨p.2.holds, by simp [hu]⟩
    · exact ⟨h, by simp [hc, hu]⟩

theorem State.watchHold_batch (s : State) (e : Raised) (h : e ∈ s.batch) : e ∈ s.watchHold.batch := by
  unfold State.watchHold
  refine foldl_inv_of (fun u => e ∈ u.batch) _ _ s ?_ h
  intro u p hu
  dsimp only
  split
  · exact hu
  · simp [hu]

/-! ### All of `remark` -/

@[simp] theorem State.remark_now (s : State) : s.remark.now = s.now := by
  unfold State.remark State.watchLow; dsimp only; split <;> simp
@[simp] theorem State.remark_boot (s : State) : s.remark.boot = s.boot := by
  unfold State.remark State.watchLow; dsimp only; split <;> simp
@[simp] theorem State.remark_sec (s : State) : s.remark.sec = s.sec := by
  unfold State.remark State.watchLow; dsimp only; split <;> simp
@[simp] theorem State.remark_shore (s : State) : s.remark.shore = s.shore := by
  unfold State.remark State.watchLow; dsimp only; split <;> simp
@[simp] theorem State.remark_tm (s : State) : s.remark.tm = s.tm := by
  unfold State.remark State.watchLow; dsimp only; split <;> simp
@[simp] theorem State.remark_powerHours (s : State) : s.remark.powerHours = s.powerHours := by
  unfold State.remark State.watchLow; dsimp only; split <;> simp
@[simp] theorem State.remark_hourDue (s : State) : s.remark.hourDue = s.hourDue := by
  unfold State.remark State.watchLow; dsimp only; split <;> simp
@[simp] theorem State.remark_groups (s : State) : s.remark.groups = s.groups := by
  unfold State.remark State.watchLow; dsimp only; split <;> simp
@[simp] theorem State.remark_convs (s : State) : s.remark.convs = s.convs := by
  unfold State.remark State.watchLow; dsimp only; split <;> simp
@[simp] theorem State.remark_srams (s : State) : s.remark.srams = s.srams := by
  unfold State.remark State.watchLow; dsimp only; split <;> simp
@[simp] theorem State.remark_mem (s : State) : s.remark.mem = s.mem := by
  unfold State.remark State.watchLow; dsimp only; split <;> simp
@[simp] theorem State.remark_written (s : State) : s.remark.written = s.written := by
  unfold State.remark State.watchLow; dsimp only; split <;> simp
@[simp] theorem State.remark_retireList (s : State) : s.remark.retireList = s.retireList := by
  unfold State.remark State.watchLow; dsimp only; split <;> simp
@[simp] theorem State.remark_jobKeys (s : State) : s.remark.jobKeys = s.jobKeys := by
  unfold State.remark State.watchLow; dsimp only; split <;> simp
@[simp] theorem State.remark_jobs (s : State) : s.remark.jobs = s.jobs := by
  unfold State.remark State.watchLow; dsimp only; split <;> simp
@[simp] theorem State.remark_copyIns (s : State) : s.remark.copyIns = s.copyIns := by
  unfold State.remark State.watchLow; dsimp only; split <;> simp
@[simp] theorem State.remark_links (s : State) : s.remark.links = s.links := by
  unfold State.remark State.watchLow; dsimp only; split <;> simp
@[simp] theorem State.remark_rings (s : State) : s.remark.rings = s.rings := by
  unfold State.remark State.watchLow; dsimp only; split <;> simp
@[simp] theorem State.remark_part (s : State) : s.remark.part = s.part := by
  unfold State.remark State.watchLow; dsimp only; split <;> simp
@[simp] theorem State.remark_flights (s : State) : s.remark.flights = s.flights := by
  unfold State.remark State.watchLow; dsimp only; split <;> simp
@[simp] theorem State.remark_nextId (s : State) : s.remark.nextId = s.nextId := by
  unfold State.remark State.watchLow; dsimp only; split <;> simp
@[simp] theorem State.remark_seen (s : State) : s.remark.seen = s.seen := by
  unfold State.remark State.watchLow; dsimp only; split <;> simp
@[simp] theorem State.remark_out (s : State) : s.remark.out = s.out := by
  unfold State.remark State.watchLow; dsimp only; split <;> simp
@[simp] theorem State.remark_free (s : State) : s.remark.free = s.free := by
  unfold State.remark State.watchLow; dsimp only; split <;> simp
@[simp] theorem State.remark_pending (s : State) : s.remark.pending = s.pending := by
  unfold State.remark State.watchLow; dsimp only; split <;> simp

@[simp] theorem State.remark_kept (s : State) : s.remark.kept = s.kept := by simp [State.kept]
@[simp] theorem State.remark_ring (s : State) (r : Nat) : s.remark.ring r = s.ring r := by simp [State.ring]
@[simp] theorem State.remark_link (s : State) (n : Nat) : s.remark.link n = s.link n := by simp [State.link]
@[simp] theorem State.remark_conv (s : State) (k : Nat) : s.remark.conv k = s.conv k := by simp [State.conv]
@[simp] theorem State.remark_sram (s : State) (k : Nat) : s.remark.sram k = s.sram k := by simp [State.sram]
@[simp] theorem State.remark_group (s : State) (g : Nat) : s.remark.group g = s.group g := by simp [State.group]
@[simp] theorem State.remark_flight? (s : State) (id : Nat) : s.remark.flight? id = s.flight? id := by simp [State.flight?]

theorem State.remark_channels (s : State) : s.remark.channels = s.watchHold.channels := by
  unfold State.remark State.watchLow; dsimp only; split <;> rfl

theorem State.remark_batch' (s : State) : s.remark.batch = s.watchHold.batch := by
  unfold State.remark State.watchLow; dsimp only; split <;> rfl

/-- A channel changes in CHAN_HOLD alone. -/
theorem State.remark_chan (s : State) (c : Nat) : ∃ h, s.remark.chan c = { s.chan c with hold := h } := by
  obtain ⟨h, e⟩ := s.watchHold_chan c
  exact ⟨h, by rw [← e]; simp [State.chan, State.remark_channels]⟩

theorem State.remark_same (s : State) (c : Nat) : (s.remark.chan c).Same (s.chan c) := by
  obtain ⟨h, e⟩ := s.remark_chan c
  rw [Channel.Same, e]

/-- Events raised before stay raised. -/
theorem State.remark_batch {s : State} {e : Raised} (h : e ∈ s.batch) : e ∈ s.remark.batch := by
  rw [State.remark_batch']
  exact s.watchHold_batch e h

@[simp] theorem State.remark_chan_pw (s : State) (c : Nat) : (s.remark.chan c).pw = (s.chan c).pw := by
  obtain ⟨h, e⟩ := s.remark_chan c
  rw [e]
@[simp] theorem State.remark_chan_bu (s : State) (c : Nat) : (s.remark.chan c).bu = (s.chan c).bu := by
  obtain ⟨h, e⟩ := s.remark_chan c
  rw [e]
@[simp] theorem State.remark_chan_kp (s : State) (c : Nat) : (s.remark.chan c).kp = (s.chan c).kp := by
  obtain ⟨h, e⟩ := s.remark_chan c
  rw [e]
@[simp] theorem State.remark_chan_tribs (s : State) (c : Nat) : (s.remark.chan c).tribs = (s.chan c).tribs := by
  obtain ⟨h, e⟩ := s.remark_chan c
  rw [e]
@[simp] theorem State.remark_chan_sl (s : State) (c : Nat) : (s.remark.chan c).sl = (s.chan c).sl := by
  obtain ⟨h, e⟩ := s.remark_chan c
  rw [e]
@[simp] theorem State.remark_chan_cx (s : State) (c : Nat) : (s.remark.chan c).cx = (s.chan c).cx := by
  obtain ⟨h, e⟩ := s.remark_chan c
  rw [e]
@[simp] theorem State.remark_chan_tf (s : State) (c : Nat) : (s.remark.chan c).tf = (s.chan c).tf := by
  obtain ⟨h, e⟩ := s.remark_chan c
  rw [e]
@[simp] theorem State.remark_chan_rf (s : State) (c : Nat) : (s.remark.chan c).rf = (s.chan c).rf := by
  obtain ⟨h, e⟩ := s.remark_chan c
  rw [e]
@[simp] theorem State.remark_chan_fec (s : State) (c : Nat) : (s.remark.chan c).fec = (s.chan c).fec := by
  obtain ⟨h, e⟩ := s.remark_chan c
  rw [e]
@[simp] theorem State.remark_chan_ld (s : State) (c : Nat) : (s.remark.chan c).ld = (s.chan c).ld := by
  obtain ⟨h, e⟩ := s.remark_chan c
  rw [e]
@[simp] theorem State.remark_chan_rx (s : State) (c : Nat) : (s.remark.chan c).rx = (s.chan c).rx := by
  obtain ⟨h, e⟩ := s.remark_chan c
  rw [e]
@[simp] theorem State.remark_chan_cal (s : State) (c : Nat) : (s.remark.chan c).cal = (s.chan c).cal := by
  obtain ⟨h, e⟩ := s.remark_chan c
  rw [e]
@[simp] theorem State.remark_chan_opt (s : State) (c : Nat) : (s.remark.chan c).opt = (s.chan c).opt := by
  obtain ⟨h, e⟩ := s.remark_chan c
  rw [e]
@[simp] theorem State.remark_chan_cap (s : State) (c : Nat) : (s.remark.chan c).cap = (s.chan c).cap := by
  obtain ⟨h, e⟩ := s.remark_chan c
  rw [e]
@[simp] theorem State.remark_chan_pm (s : State) (c : Nat) : (s.remark.chan c).pm = (s.chan c).pm := by
  obtain ⟨h, e⟩ := s.remark_chan c
  rw [e]
@[simp] theorem State.remark_chan_age (s : State) (c : Nat) : (s.remark.chan c).age = (s.chan c).age := by
  obtain ⟨h, e⟩ := s.remark_chan c
  rw [e]
@[simp] theorem State.remark_chan_outOfWindow (s : State) (c : Nat) : (s.remark.chan c).outOfWindow = (s.chan c).outOfWindow := by
  obtain ⟨h, e⟩ := s.remark_chan c
  rw [e]
@[simp] theorem State.remark_chan_saidTx (s : State) (c : Nat) : (s.remark.chan c).saidTx = (s.chan c).saidTx := by
  obtain ⟨h, e⟩ := s.remark_chan c
  rw [e]
@[simp] theorem State.remark_chan_saidRx (s : State) (c : Nat) : (s.remark.chan c).saidRx = (s.chan c).saidRx := by
  obtain ⟨h, e⟩ := s.remark_chan c
  rw [e]
@[simp] theorem State.remark_chan_mask (s : State) (c : Nat) : (s.remark.chan c).mask = (s.chan c).mask := by
  obtain ⟨h, e⟩ := s.remark_chan c
  rw [e]
@[simp] theorem State.remark_chan_keeperDown (s : State) (c : Nat) : (s.remark.chan c).keeperDown = (s.chan c).keeperDown := by
  obtain ⟨h, e⟩ := s.remark_chan c
  rw [e]
@[simp] theorem State.remark_chan_keeperVer (s : State) (c : Nat) : (s.remark.chan c).keeperVer = (s.chan c).keeperVer := by
  obtain ⟨h, e⟩ := s.remark_chan c
  rw [e]
@[simp] theorem State.remark_chan_trib (s : State) (c l : Nat) : (s.remark.chan c).trib l = (s.chan c).trib l := by
  simp [Channel.trib]
@[simp] theorem State.remark_chan_cipher (s : State) (c l : Nat) : (s.remark.chan c).cipher l = (s.chan c).cipher l := by
  simp [Channel.cipher]
@[simp] theorem State.remark_trib (s : State) (i : Nat) : s.remark.trib i = s.trib i := by simp [State.trib]
@[simp] theorem State.remark_cipherOf (s : State) (i : Nat) : s.remark.cipherOf i = s.cipherOf i := by simp [State.cipherOf]
@[simp] theorem State.remark_leaf (s : State) (c j : Nat) : s.remark.leaf c j = s.leaf c j := by simp [State.leaf]
@[simp] theorem State.remark_lane (s : State) (n : Nat) : s.remark.lane n = s.lane n := by simp [State.lane]
@[simp] theorem State.remark_receiver (s : State) (c i : Nat) : s.remark.receiver c i = s.receiver c i := by simp [State.receiver]

end Sys2Proof.Machine
end

