-- ==== Sys2Proof/Laws/Finish.lean ====
section
/-! SUPPORT. Ending a command: its flight goes, its record reaches its completion ring or waits for its link, and nothing
else of the module moves (04 R72, R75; 21 R459). -/

namespace Sys2Proof.Machine

/-! ### `State.msix` -/

@[simp] theorem State.msix_now (s : State) (n v : Nat) : (s.msix n v).now = s.now := by
  unfold State.msix; split <;> simp
@[simp] theorem State.msix_boot (s : State) (n v : Nat) : (s.msix n v).boot = s.boot := by
  unfold State.msix; split <;> simp
@[simp] theorem State.msix_sec (s : State) (n v : Nat) : (s.msix n v).sec = s.sec := by
  unfold State.msix; split <;> simp
@[simp] theorem State.msix_shore (s : State) (n v : Nat) : (s.msix n v).shore = s.shore := by
  unfold State.msix; split <;> simp
@[simp] theorem State.msix_tm (s : State) (n v : Nat) : (s.msix n v).tm = s.tm := by
  unfold State.msix; split <;> simp
@[simp] theorem State.msix_powerHours (s : State) (n v : Nat) : (s.msix n v).powerHours = s.powerHours := by
  unfold State.msix; split <;> simp
@[simp] theorem State.msix_hourDue (s : State) (n v : Nat) : (s.msix n v).hourDue = s.hourDue := by
  unfold State.msix; split <;> simp
@[simp] theorem State.msix_channels (s : State) (n v : Nat) : (s.msix n v).channels = s.channels := by
  unfold State.msix; split <;> simp
@[simp] theorem State.msix_groups (s : State) (n v : Nat) : (s.msix n v).groups = s.groups := by
  unfold State.msix; split <;> simp
@[simp] theorem State.msix_convs (s : State) (n v : Nat) : (s.msix n v).convs = s.convs := by
  unfold State.msix; split <;> simp
@[simp] theorem State.msix_srams (s : State) (n v : Nat) : (s.msix n v).srams = s.srams := by
  unfold State.msix; split <;> simp
@[simp] theorem State.msix_mem (s : State) (n v : Nat) : (s.msix n v).mem = s.mem := by
  unfold State.msix; split <;> simp
@[simp] theorem State.msix_written (s : State) (n v : Nat) : (s.msix n v).written = s.written := by
  unfold State.msix; split <;> simp
@[simp] theorem State.msix_retireList (s : State) (n v : Nat) : (s.msix n v).retireList = s.retireList := by
  unfold State.msix; split <;> simp
@[simp] theorem State.msix_jobKeys (s : State) (n v : Nat) : (s.msix n v).jobKeys = s.jobKeys := by
  unfold State.msix; split <;> simp
@[simp] theorem State.msix_jobs (s : State) (n v : Nat) : (s.msix n v).jobs = s.jobs := by
  unfold State.msix; split <;> simp
@[simp] theorem State.msix_copyIns (s : State) (n v : Nat) : (s.msix n v).copyIns = s.copyIns := by
  unfold State.msix; split <;> simp
@[simp] theorem State.msix_part (s : State) (n v : Nat) : (s.msix n v).part = s.part := by
  unfold State.msix; split <;> simp
@[simp] theorem State.msix_nextId (s : State) (n v : Nat) : (s.msix n v).nextId = s.nextId := by
  unfold State.msix; split <;> simp
@[simp] theorem State.msix_batch (s : State) (n v : Nat) : (s.msix n v).batch = s.batch := by
  unfold State.msix; split <;> simp
@[simp] theorem State.msix_seen (s : State) (n v : Nat) : (s.msix n v).seen = s.seen := by
  unfold State.msix; split <;> simp
@[simp] theorem State.msix_since (s : State) (n v : Nat) : (s.msix n v).since = s.since := by
  unfold State.msix; split <;> simp
@[simp] theorem State.msix_lowWater (s : State) (n v : Nat) : (s.msix n v).lowWater = s.lowWater := by
  unfold State.msix; split <;> simp
@[simp] theorem State.msix_lowReport (s : State) (n v : Nat) : (s.msix n v).lowReport = s.lowReport := by
  unfold State.msix; split <;> simp
@[simp] theorem State.msix_pending (s : State) (n v : Nat) : (s.msix n v).pending = s.pending := by
  unfold State.msix; split <;> simp
@[simp] theorem State.msix_flights (s : State) (n v : Nat) : (s.msix n v).flights = s.flights := by
  unfold State.msix; split <;> simp
@[simp] theorem State.msix_free (s : State) (n v : Nat) : (s.msix n v).free = s.free := by
  unfold State.msix; split <;> simp
@[simp] theorem State.msix_rings (s : State) (n v : Nat) : (s.msix n v).rings = s.rings := by
  unfold State.msix; split <;> simp
@[simp] theorem State.msix_chan (s : State) (n v : Nat) (i : Nat) : (s.msix n v).chan i = s.chan i := by simp [State.chan]
@[simp] theorem State.msix_conv (s : State) (n v : Nat) (i : Nat) : (s.msix n v).conv i = s.conv i := by simp [State.conv]
@[simp] theorem State.msix_sram (s : State) (n v : Nat) (i : Nat) : (s.msix n v).sram i = s.sram i := by simp [State.sram]
@[simp] theorem State.msix_group (s : State) (n v : Nat) (i : Nat) : (s.msix n v).group i = s.group i := by simp [State.group]
@[simp] theorem State.msix_entry (s : State) (n v : Nat) (i : Nat) : (s.msix n v).entry i = s.entry i := by simp [State.entry]

/-! ### `State.signal` -/

@[simp] theorem State.signal_now (s : State) (r : Nat) : (s.signal r).now = s.now := by
  simp [State.signal]
@[simp] theorem State.signal_boot (s : State) (r : Nat) : (s.signal r).boot = s.boot := by
  simp [State.signal]
@[simp] theorem State.signal_sec (s : State) (r : Nat) : (s.signal r).sec = s.sec := by
  simp [State.signal]
@[simp] theorem State.signal_shore (s : State) (r : Nat) : (s.signal r).shore = s.shore := by
  simp [State.signal]
@[simp] theorem State.signal_tm (s : State) (r : Nat) : (s.signal r).tm = s.tm := by
  simp [State.signal]
@[simp] theorem State.signal_powerHours (s : State) (r : Nat) : (s.signal r).powerHours = s.powerHours := by
  simp [State.signal]
@[simp] theorem State.signal_hourDue (s : State) (r : Nat) : (s.signal r).hourDue = s.hourDue := by
  simp [State.signal]
@[simp] theorem State.signal_channels (s : State) (r : Nat) : (s.signal r).channels = s.channels := by
  simp [State.signal]
@[simp] theorem State.signal_groups (s : State) (r : Nat) : (s.signal r).groups = s.groups := by
  simp [State.signal]
@[simp] theorem State.signal_convs (s : State) (r : Nat) : (s.signal r).convs = s.convs := by
  simp [State.signal]
@[simp] theorem State.signal_srams (s : State) (r : Nat) : (s.signal r).srams = s.srams := by
  simp [State.signal]
@[simp] theorem State.signal_mem (s : State) (r : Nat) : (s.signal r).mem = s.mem := by
  simp [State.signal]
@[simp] theorem State.signal_written (s : State) (r : Nat) : (s.signal r).written = s.written := by
  simp [State.signal]
@[simp] theorem State.signal_retireList (s : State) (r : Nat) : (s.signal r).retireList = s.retireList := by
  simp [State.signal]
@[simp] theorem State.signal_jobKeys (s : State) (r : Nat) : (s.signal r).jobKeys = s.jobKeys := by
  simp [State.signal]
@[simp] theorem State.signal_jobs (s : State) (r : Nat) : (s.signal r).jobs = s.jobs := by
  simp [State.signal]
@[simp] theorem State.signal_copyIns (s : State) (r : Nat) : (s.signal r).copyIns = s.copyIns := by
  simp [State.signal]
@[simp] theorem State.signal_part (s : State) (r : Nat) : (s.signal r).part = s.part := by
  simp [State.signal]
@[simp] theorem State.signal_nextId (s : State) (r : Nat) : (s.signal r).nextId = s.nextId := by
  simp [State.signal]
@[simp] theorem State.signal_batch (s : State) (r : Nat) : (s.signal r).batch = s.batch := by
  simp [State.signal]
@[simp] theorem State.signal_seen (s : State) (r : Nat) : (s.signal r).seen = s.seen := by
  simp [State.signal]
@[simp] theorem State.signal_since (s : State) (r : Nat) : (s.signal r).since = s.since := by
  simp [State.signal]
@[simp] theorem State.signal_lowWater (s : State) (r : Nat) : (s.signal r).lowWater = s.lowWater := by
  simp [State.signal]
@[simp] theorem State.signal_lowReport (s : State) (r : Nat) : (s.signal r).lowReport = s.lowReport := by
  simp [State.signal]
@[simp] theorem State.signal_pending (s : State) (r : Nat) : (s.signal r).pending = s.pending := by
  simp [State.signal]
@[simp] theorem State.signal_flights (s : State) (r : Nat) : (s.signal r).flights = s.flights := by
  simp [State.signal]
@[simp] theorem State.signal_free (s : State) (r : Nat) : (s.signal r).free = s.free := by
  simp [State.signal]
@[simp] theorem State.signal_chan (s : State) (r : Nat) (i : Nat) : (s.signal r).chan i = s.chan i := by simp [State.chan]
@[simp] theorem State.signal_conv (s : State) (r : Nat) (i : Nat) : (s.signal r).conv i = s.conv i := by simp [State.conv]
@[simp] theorem State.signal_sram (s : State) (r : Nat) (i : Nat) : (s.signal r).sram i = s.sram i := by simp [State.sram]
@[simp] theorem State.signal_group (s : State) (r : Nat) (i : Nat) : (s.signal r).group i = s.group i := by simp [State.group]
@[simp] theorem State.signal_entry (s : State) (r : Nat) (i : Nat) : (s.signal r).entry i = s.entry i := by simp [State.entry]

/-! ### `State.wrote` -/

@[simp] theorem State.wrote_now (s : State) (r : Nat) (b : Bool) : (s.wrote r b).now = s.now := by
  unfold State.wrote; dsimp only; split <;> simp
@[simp] theorem State.wrote_boot (s : State) (r : Nat) (b : Bool) : (s.wrote r b).boot = s.boot := by
  unfold State.wrote; dsimp only; split <;> simp
@[simp] theorem State.wrote_sec (s : State) (r : Nat) (b : Bool) : (s.wrote r b).sec = s.sec := by
  unfold State.wrote; dsimp only; split <;> simp
@[simp] theorem State.wrote_shore (s : State) (r : Nat) (b : Bool) : (s.wrote r b).shore = s.shore := by
  unfold State.wrote; dsimp only; split <;> simp
@[simp] theorem State.wrote_tm (s : State) (r : Nat) (b : Bool) : (s.wrote r b).tm = s.tm := by
  unfold State.wrote; dsimp only; split <;> simp
@[simp] theorem State.wrote_powerHours (s : State) (r : Nat) (b : Bool) : (s.wrote r b).powerHours = s.powerHours := by
  unfold State.wrote; dsimp only; split <;> simp
@[simp] theorem State.wrote_hourDue (s : State) (r : Nat) (b : Bool) : (s.wrote r b).hourDue = s.hourDue := by
  unfold State.wrote; dsimp only; split <;> simp
@[simp] theorem State.wrote_channels (s : State) (r : Nat) (b : Bool) : (s.wrote r b).channels = s.channels := by
  unfold State.wrote; dsimp only; split <;> simp
@[simp] theorem State.wrote_groups (s : State) (r : Nat) (b : Bool) : (s.wrote r b).groups = s.groups := by
  unfold State.wrote; dsimp only; split <;> simp
@[simp] theorem State.wrote_convs (s : State) (r : Nat) (b : Bool) : (s.wrote r b).convs = s.convs := by
  unfold State.wrote; dsimp only; split <;> simp
@[simp] theorem State.wrote_srams (s : State) (r : Nat) (b : Bool) : (s.wrote r b).srams = s.srams := by
  unfold State.wrote; dsimp only; split <;> simp
@[simp] theorem State.wrote_mem (s : State) (r : Nat) (b : Bool) : (s.wrote r b).mem = s.mem := by
  unfold State.wrote; dsimp only; split <;> simp
@[simp] theorem State.wrote_written (s : State) (r : Nat) (b : Bool) : (s.wrote r b).written = s.written := by
  unfold State.wrote; dsimp only; split <;> simp
@[simp] theorem State.wrote_retireList (s : State) (r : Nat) (b : Bool) : (s.wrote r b).retireList = s.retireList := by
  unfold State.wrote; dsimp only; split <;> simp
@[simp] theorem State.wrote_jobKeys (s : State) (r : Nat) (b : Bool) : (s.wrote r b).jobKeys = s.jobKeys := by
  unfold State.wrote; dsimp only; split <;> simp
@[simp] theorem State.wrote_jobs (s : State) (r : Nat) (b : Bool) : (s.wrote r b).jobs = s.jobs := by
  unfold State.wrote; dsimp only; split <;> simp
@[simp] theorem State.wrote_copyIns (s : State) (r : Nat) (b : Bool) : (s.wrote r b).copyIns = s.copyIns := by
  unfold State.wrote; dsimp only; split <;> simp
@[simp] theorem State.wrote_part (s : State) (r : Nat) (b : Bool) : (s.wrote r b).part = s.part := by
  unfold State.wrote; dsimp only; split <;> simp
@[simp] theorem State.wrote_nextId (s : State) (r : Nat) (b : Bool) : (s.wrote r b).nextId = s.nextId := by
  unfold State.wrote; dsimp only; split <;> simp
@[simp] theorem State.wrote_batch (s : State) (r : Nat) (b : Bool) : (s.wrote r b).batch = s.batch := by
  unfold State.wrote; dsimp only; split <;> simp
@[simp] theorem State.wrote_seen (s : State) (r : Nat) (b : Bool) : (s.wrote r b).seen = s.seen := by
  unfold State.wrote; dsimp only; split <;> simp
@[simp] theorem State.wrote_since (s : State) (r : Nat) (b : Bool) : (s.wrote r b).since = s.since := by
  unfold State.wrote; dsimp only; split <;> simp
@[simp] theorem State.wrote_lowWater (s : State) (r : Nat) (b : Bool) : (s.wrote r b).lowWater = s.lowWater := by
  unfold State.wrote; dsimp only; split <;> simp
@[simp] theorem State.wrote_lowReport (s : State) (r : Nat) (b : Bool) : (s.wrote r b).lowReport = s.lowReport := by
  unfold State.wrote; dsimp only; split <;> simp
@[simp] theorem State.wrote_pending (s : State) (r : Nat) (b : Bool) : (s.wrote r b).pending = s.pending := by
  unfold State.wrote; dsimp only; split <;> simp
@[simp] theorem State.wrote_flights (s : State) (r : Nat) (b : Bool) : (s.wrote r b).flights = s.flights := by
  unfold State.wrote; dsimp only; split <;> simp
@[simp] theorem State.wrote_free (s : State) (r : Nat) (b : Bool) : (s.wrote r b).free = s.free := by
  unfold State.wrote; dsimp only; split <;> simp
@[simp] theorem State.wrote_chan (s : State) (r : Nat) (b : Bool) (i : Nat) : (s.wrote r b).chan i = s.chan i := by simp [State.chan]
@[simp] theorem State.wrote_conv (s : State) (r : Nat) (b : Bool) (i : Nat) : (s.wrote r b).conv i = s.conv i := by simp [State.conv]
@[simp] theorem State.wrote_sram (s : State) (r : Nat) (b : Bool) (i : Nat) : (s.wrote r b).sram i = s.sram i := by simp [State.sram]
@[simp] theorem State.wrote_group (s : State) (r : Nat) (b : Bool) (i : Nat) : (s.wrote r b).group i = s.group i := by simp [State.group]
@[simp] theorem State.wrote_entry (s : State) (r : Nat) (b : Bool) (i : Nat) : (s.wrote r b).entry i = s.entry i := by simp [State.entry]

/-! ### `State.writeCompletion` -/

@[simp] theorem State.writeCompletion_now (s : State) (q : Nat) (c : Completion) (b : Bool) : (s.writeCompletion q c b).now = s.now := by
  unfold State.writeCompletion; dsimp only; split <;> simp
@[simp] theorem State.writeCompletion_boot (s : State) (q : Nat) (c : Completion) (b : Bool) : (s.writeCompletion q c b).boot = s.boot := by
  unfold State.writeCompletion; dsimp only; split <;> simp
@[simp] theorem State.writeCompletion_sec (s : State) (q : Nat) (c : Completion) (b : Bool) : (s.writeCompletion q c b).sec = s.sec := by
  unfold State.writeCompletion; dsimp only; split <;> simp
@[simp] theorem State.writeCompletion_shore (s : State) (q : Nat) (c : Completion) (b : Bool) : (s.writeCompletion q c b).shore = s.shore := by
  unfold State.writeCompletion; dsimp only; split <;> simp
@[simp] theorem State.writeCompletion_tm (s : State) (q : Nat) (c : Completion) (b : Bool) : (s.writeCompletion q c b).tm = s.tm := by
  unfold State.writeCompletion; dsimp only; split <;> simp
@[simp] theorem State.writeCompletion_powerHours (s : State) (q : Nat) (c : Completion) (b : Bool) : (s.writeCompletion q c b).powerHours = s.powerHours := by
  unfold State.writeCompletion; dsimp only; split <;> simp
@[simp] theorem State.writeCompletion_hourDue (s : State) (q : Nat) (c : Completion) (b : Bool) : (s.writeCompletion q c b).hourDue = s.hourDue := by
  unfold State.writeCompletion; dsimp only; split <;> simp
@[simp] theorem State.writeCompletion_channels (s : State) (q : Nat) (c : Completion) (b : Bool) : (s.writeCompletion q c b).channels = s.channels := by
  unfold State.writeCompletion; dsimp only; split <;> simp
@[simp] theorem State.writeCompletion_groups (s : State) (q : Nat) (c : Completion) (b : Bool) : (s.writeCompletion q c b).groups = s.groups := by
  unfold State.writeCompletion; dsimp only; split <;> simp
@[simp] theorem State.writeCompletion_convs (s : State) (q : Nat) (c : Completion) (b : Bool) : (s.writeCompletion q c b).convs = s.convs := by
  unfold State.writeCompletion; dsimp only; split <;> simp
@[simp] theorem State.writeCompletion_srams (s : State) (q : Nat) (c : Completion) (b : Bool) : (s.writeCompletion q c b).srams = s.srams := by
  unfold State.writeCompletion; dsimp only; split <;> simp
@[simp] theorem State.writeCompletion_mem (s : State) (q : Nat) (c : Completion) (b : Bool) : (s.writeCompletion q c b).mem = s.mem := by
  unfold State.writeCompletion; dsimp only; split <;> simp
@[simp] theorem State.writeCompletion_written (s : State) (q : Nat) (c : Completion) (b : Bool) : (s.writeCompletion q c b).written = s.written := by
  unfold State.writeCompletion; dsimp only; split <;> simp
@[simp] theorem State.writeCompletion_retireList (s : State) (q : Nat) (c : Completion) (b : Bool) : (s.writeCompletion q c b).retireList = s.retireList := by
  unfold State.writeCompletion; dsimp only; split <;> simp
@[simp] theorem State.writeCompletion_jobKeys (s : State) (q : Nat) (c : Completion) (b : Bool) : (s.writeCompletion q c b).jobKeys = s.jobKeys := by
  unfold State.writeCompletion; dsimp only; split <;> simp
@[simp] theorem State.writeCompletion_jobs (s : State) (q : Nat) (c : Completion) (b : Bool) : (s.writeCompletion q c b).jobs = s.jobs := by
  unfold State.writeCompletion; dsimp only; split <;> simp
@[simp] theorem State.writeCompletion_copyIns (s : State) (q : Nat) (c : Completion) (b : Bool) : (s.writeCompletion q c b).copyIns = s.copyIns := by
  unfold State.writeCompletion; dsimp only; split <;> simp
@[simp] theorem State.writeCompletion_part (s : State) (q : Nat) (c : Completion) (b : Bool) : (s.writeCompletion q c b).part = s.part := by
  unfold State.writeCompletion; dsimp only; split <;> simp
@[simp] theorem State.writeCompletion_nextId (s : State) (q : Nat) (c : Completion) (b : Bool) : (s.writeCompletion q c b).nextId = s.nextId := by
  unfold State.writeCompletion; dsimp only; split <;> simp
@[simp] theorem State.writeCompletion_batch (s : State) (q : Nat) (c : Completion) (b : Bool) : (s.writeCompletion q c b).batch = s.batch := by
  unfold State.writeCompletion; dsimp only; split <;> simp
@[simp] theorem State.writeCompletion_seen (s : State) (q : Nat) (c : Completion) (b : Bool) : (s.writeCompletion q c b).seen = s.seen := by
  unfold State.writeCompletion; dsimp only; split <;> simp
@[simp] theorem State.writeCompletion_since (s : State) (q : Nat) (c : Completion) (b : Bool) : (s.writeCompletion q c b).since = s.since := by
  unfold State.writeCompletion; dsimp only; split <;> simp
@[simp] theorem State.writeCompletion_lowWater (s : State) (q : Nat) (c : Completion) (b : Bool) : (s.writeCompletion q c b).lowWater = s.lowWater := by
  unfold State.writeCompletion; dsimp only; split <;> simp
@[simp] theorem State.writeCompletion_lowReport (s : State) (q : Nat) (c : Completion) (b : Bool) : (s.writeCompletion q c b).lowReport = s.lowReport := by
  unfold State.writeCompletion; dsimp only; split <;> simp
@[simp] theorem State.writeCompletion_pending (s : State) (q : Nat) (c : Completion) (b : Bool) : (s.writeCompletion q c b).pending = s.pending := by
  unfold State.writeCompletion; dsimp only; split <;> simp
@[simp] theorem State.writeCompletion_flights (s : State) (q : Nat) (c : Completion) (b : Bool) : (s.writeCompletion q c b).flights = s.flights := by
  unfold State.writeCompletion; dsimp only; split <;> simp
@[simp] theorem State.writeCompletion_free (s : State) (q : Nat) (c : Completion) (b : Bool) : (s.writeCompletion q c b).free = s.free := by
  unfold State.writeCompletion; dsimp only; split <;> simp
@[simp] theorem State.writeCompletion_chan (s : State) (q : Nat) (c : Completion) (b : Bool) (i : Nat) : (s.writeCompletion q c b).chan i = s.chan i := by simp [State.chan]
@[simp] theorem State.writeCompletion_conv (s : State) (q : Nat) (c : Completion) (b : Bool) (i : Nat) : (s.writeCompletion q c b).conv i = s.conv i := by simp [State.conv]
@[simp] theorem State.writeCompletion_sram (s : State) (q : Nat) (c : Completion) (b : Bool) (i : Nat) : (s.writeCompletion q c b).sram i = s.sram i := by simp [State.sram]
@[simp] theorem State.writeCompletion_group (s : State) (q : Nat) (c : Completion) (b : Bool) (i : Nat) : (s.writeCompletion q c b).group i = s.group i := by simp [State.group]
@[simp] theorem State.writeCompletion_entry (s : State) (q : Nat) (c : Completion) (b : Bool) (i : Nat) : (s.writeCompletion q c b).entry i = s.entry i := by simp [State.entry]

/-! ### `State.finish` -/

@[simp] theorem State.finish_now (s : State) (f : Flight) (st : Nat) (r0 r1 r2 : Option Nat) : (s.finish f st r0 r1 r2).now = s.now := by
  unfold State.finish; dsimp only; (repeat' split) <;> simp
@[simp] theorem State.finish_boot (s : State) (f : Flight) (st : Nat) (r0 r1 r2 : Option Nat) : (s.finish f st r0 r1 r2).boot = s.boot := by
  unfold State.finish; dsimp only; (repeat' split) <;> simp
@[simp] theorem State.finish_sec (s : State) (f : Flight) (st : Nat) (r0 r1 r2 : Option Nat) : (s.finish f st r0 r1 r2).sec = s.sec := by
  unfold State.finish; dsimp only; (repeat' split) <;> simp
@[simp] theorem State.finish_shore (s : State) (f : Flight) (st : Nat) (r0 r1 r2 : Option Nat) : (s.finish f st r0 r1 r2).shore = s.shore := by
  unfold State.finish; dsimp only; (repeat' split) <;> simp
@[simp] theorem State.finish_tm (s : State) (f : Flight) (st : Nat) (r0 r1 r2 : Option Nat) : (s.finish f st r0 r1 r2).tm = s.tm := by
  unfold State.finish; dsimp only; (repeat' split) <;> simp
@[simp] theorem State.finish_powerHours (s : State) (f : Flight) (st : Nat) (r0 r1 r2 : Option Nat) : (s.finish f st r0 r1 r2).powerHours = s.powerHours := by
  unfold State.finish; dsimp only; (repeat' split) <;> simp
@[simp] theorem State.finish_hourDue (s : State) (f : Flight) (st : Nat) (r0 r1 r2 : Option Nat) : (s.finish f st r0 r1 r2).hourDue = s.hourDue := by
  unfold State.finish; dsimp only; (repeat' split) <;> simp
@[simp] theorem State.finish_channels (s : State) (f : Flight) (st : Nat) (r0 r1 r2 : Option Nat) : (s.finish f st r0 r1 r2).channels = s.channels := by
  unfold State.finish; dsimp only; (repeat' split) <;> simp
@[simp] theorem State.finish_groups (s : State) (f : Flight) (st : Nat) (r0 r1 r2 : Option Nat) : (s.finish f st r0 r1 r2).groups = s.groups := by
  unfold State.finish; dsimp only; (repeat' split) <;> simp
@[simp] theorem State.finish_convs (s : State) (f : Flight) (st : Nat) (r0 r1 r2 : Option Nat) : (s.finish f st r0 r1 r2).convs = s.convs := by
  unfold State.finish; dsimp only; (repeat' split) <;> simp
@[simp] theorem State.finish_srams (s : State) (f : Flight) (st : Nat) (r0 r1 r2 : Option Nat) : (s.finish f st r0 r1 r2).srams = s.srams := by
  unfold State.finish; dsimp only; (repeat' split) <;> simp
@[simp] theorem State.finish_mem (s : State) (f : Flight) (st : Nat) (r0 r1 r2 : Option Nat) : (s.finish f st r0 r1 r2).mem = s.mem := by
  unfold State.finish; dsimp only; (repeat' split) <;> simp
@[simp] theorem State.finish_written (s : State) (f : Flight) (st : Nat) (r0 r1 r2 : Option Nat) : (s.finish f st r0 r1 r2).written = s.written := by
  unfold State.finish; dsimp only; (repeat' split) <;> simp
@[simp] theorem State.finish_retireList (s : State) (f : Flight) (st : Nat) (r0 r1 r2 : Option Nat) : (s.finish f st r0 r1 r2).retireList = s.retireList := by
  unfold State.finish; dsimp only; (repeat' split) <;> simp
@[simp] theorem State.finish_jobKeys (s : State) (f : Flight) (st : Nat) (r0 r1 r2 : Option Nat) : (s.finish f st r0 r1 r2).jobKeys = s.jobKeys := by
  unfold State.finish; dsimp only; (repeat' split) <;> simp
@[simp] theorem State.finish_jobs (s : State) (f : Flight) (st : Nat) (r0 r1 r2 : Option Nat) : (s.finish f st r0 r1 r2).jobs = s.jobs := by
  unfold State.finish; dsimp only; (repeat' split) <;> simp
@[simp] theorem State.finish_copyIns (s : State) (f : Flight) (st : Nat) (r0 r1 r2 : Option Nat) : (s.finish f st r0 r1 r2).copyIns = s.copyIns := by
  unfold State.finish; dsimp only; (repeat' split) <;> simp
@[simp] theorem State.finish_part (s : State) (f : Flight) (st : Nat) (r0 r1 r2 : Option Nat) : (s.finish f st r0 r1 r2).part = s.part := by
  unfold State.finish; dsimp only; (repeat' split) <;> simp
@[simp] theorem State.finish_nextId (s : State) (f : Flight) (st : Nat) (r0 r1 r2 : Option Nat) : (s.finish f st r0 r1 r2).nextId = s.nextId := by
  unfold State.finish; dsimp only; (repeat' split) <;> simp
@[simp] theorem State.finish_batch (s : State) (f : Flight) (st : Nat) (r0 r1 r2 : Option Nat) : (s.finish f st r0 r1 r2).batch = s.batch := by
  unfold State.finish; dsimp only; (repeat' split) <;> simp
@[simp] theorem State.finish_seen (s : State) (f : Flight) (st : Nat) (r0 r1 r2 : Option Nat) : (s.finish f st r0 r1 r2).seen = s.seen := by
  unfold State.finish; dsimp only; (repeat' split) <;> simp
@[simp] theorem State.finish_since (s : State) (f : Flight) (st : Nat) (r0 r1 r2 : Option Nat) : (s.finish f st r0 r1 r2).since = s.since := by
  unfold State.finish; dsimp only; (repeat' split) <;> simp
@[simp] theorem State.finish_lowWater (s : State) (f : Flight) (st : Nat) (r0 r1 r2 : Option Nat) : (s.finish f st r0 r1 r2).lowWater = s.lowWater := by
  unfold State.finish; dsimp only; (repeat' split) <;> simp
@[simp] theorem State.finish_lowReport (s : State) (f : Flight) (st : Nat) (r0 r1 r2 : Option Nat) : (s.finish f st r0 r1 r2).lowReport = s.lowReport := by
  unfold State.finish; dsimp only; (repeat' split) <;> simp
@[simp] theorem State.finish_pending (s : State) (f : Flight) (st : Nat) (r0 r1 r2 : Option Nat) : (s.finish f st r0 r1 r2).pending = s.pending := by
  unfold State.finish; dsimp only; (repeat' split) <;> simp
@[simp] theorem State.finish_chan (s : State) (f : Flight) (st : Nat) (r0 r1 r2 : Option Nat) (i : Nat) : (s.finish f st r0 r1 r2).chan i = s.chan i := by simp [State.chan]
@[simp] theorem State.finish_conv (s : State) (f : Flight) (st : Nat) (r0 r1 r2 : Option Nat) (i : Nat) : (s.finish f st r0 r1 r2).conv i = s.conv i := by simp [State.conv]
@[simp] theorem State.finish_sram (s : State) (f : Flight) (st : Nat) (r0 r1 r2 : Option Nat) (i : Nat) : (s.finish f st r0 r1 r2).sram i = s.sram i := by simp [State.sram]
@[simp] theorem State.finish_group (s : State) (f : Flight) (st : Nat) (r0 r1 r2 : Option Nat) (i : Nat) : (s.finish f st r0 r1 r2).group i = s.group i := by simp [State.group]
@[simp] theorem State.finish_entry (s : State) (f : Flight) (st : Nat) (r0 r1 r2 : Option Nat) (i : Nat) : (s.finish f st r0 r1 r2).entry i = s.entry i := by simp [State.entry]

/-! ### `State.finishId` -/

@[simp] theorem State.finishId_now (s : State) (id st : Nat) (r0 r1 r2 : Option Nat) : (s.finishId id st r0 r1 r2).now = s.now := by
  unfold State.finishId; split <;> simp
@[simp] theorem State.finishId_boot (s : State) (id st : Nat) (r0 r1 r2 : Option Nat) : (s.finishId id st r0 r1 r2).boot = s.boot := by
  unfold State.finishId; split <;> simp
@[simp] theorem State.finishId_sec (s : State) (id st : Nat) (r0 r1 r2 : Option Nat) : (s.finishId id st r0 r1 r2).sec = s.sec := by
  unfold State.finishId; split <;> simp
@[simp] theorem State.finishId_shore (s : State) (id st : Nat) (r0 r1 r2 : Option Nat) : (s.finishId id st r0 r1 r2).shore = s.shore := by
  unfold State.finishId; split <;> simp
@[simp] theorem State.finishId_tm (s : State) (id st : Nat) (r0 r1 r2 : Option Nat) : (s.finishId id st r0 r1 r2).tm = s.tm := by
  unfold State.finishId; split <;> simp
@[simp] theorem State.finishId_powerHours (s : State) (id st : Nat) (r0 r1 r2 : Option Nat) : (s.finishId id st r0 r1 r2).powerHours = s.powerHours := by
  unfold State.finishId; split <;> simp
@[simp] theorem State.finishId_hourDue (s : State) (id st : Nat) (r0 r1 r2 : Option Nat) : (s.finishId id st r0 r1 r2).hourDue = s.hourDue := by
  unfold State.finishId; split <;> simp
@[simp] theorem State.finishId_channels (s : State) (id st : Nat) (r0 r1 r2 : Option Nat) : (s.finishId id st r0 r1 r2).channels = s.channels := by
  unfold State.finishId; split <;> simp
@[simp] theorem State.finishId_groups (s : State) (id st : Nat) (r0 r1 r2 : Option Nat) : (s.finishId id st r0 r1 r2).groups = s.groups := by
  unfold State.finishId; split <;> simp
@[simp] theorem State.finishId_convs (s : State) (id st : Nat) (r0 r1 r2 : Option Nat) : (s.finishId id st r0 r1 r2).convs = s.convs := by
  unfold State.finishId; split <;> simp
@[simp] theorem State.finishId_srams (s : State) (id st : Nat) (r0 r1 r2 : Option Nat) : (s.finishId id st r0 r1 r2).srams = s.srams := by
  unfold State.finishId; split <;> simp
@[simp] theorem State.finishId_mem (s : State) (id st : Nat) (r0 r1 r2 : Option Nat) : (s.finishId id st r0 r1 r2).mem = s.mem := by
  unfold State.finishId; split <;> simp
@[simp] theorem State.finishId_written (s : State) (id st : Nat) (r0 r1 r2 : Option Nat) : (s.finishId id st r0 r1 r2).written = s.written := by
  unfold State.finishId; split <;> simp
@[simp] theorem State.finishId_retireList (s : State) (id st : Nat) (r0 r1 r2 : Option Nat) : (s.finishId id st r0 r1 r2).retireList = s.retireList := by
  unfold State.finishId; split <;> simp
@[simp] theorem State.finishId_jobKeys (s : State) (id st : Nat) (r0 r1 r2 : Option Nat) : (s.finishId id st r0 r1 r2).jobKeys = s.jobKeys := by
  unfold State.finishId; split <;> simp
@[simp] theorem State.finishId_jobs (s : State) (id st : Nat) (r0 r1 r2 : Option Nat) : (s.finishId id st r0 r1 r2).jobs = s.jobs := by
  unfold State.finishId; split <;> simp
@[simp] theorem State.finishId_copyIns (s : State) (id st : Nat) (r0 r1 r2 : Option Nat) : (s.finishId id st r0 r1 r2).copyIns = s.copyIns := by
  unfold State.finishId; split <;> simp
@[simp] theorem State.finishId_part (s : State) (id st : Nat) (r0 r1 r2 : Option Nat) : (s.finishId id st r0 r1 r2).part = s.part := by
  unfold State.finishId; split <;> simp
@[simp] theorem State.finishId_nextId (s : State) (id st : Nat) (r0 r1 r2 : Option Nat) : (s.finishId id st r0 r1 r2).nextId = s.nextId := by
  unfold State.finishId; split <;> simp
@[simp] theorem State.finishId_batch (s : State) (id st : Nat) (r0 r1 r2 : Option Nat) : (s.finishId id st r0 r1 r2).batch = s.batch := by
  unfold State.finishId; split <;> simp
@[simp] theorem State.finishId_seen (s : State) (id st : Nat) (r0 r1 r2 : Option Nat) : (s.finishId id st r0 r1 r2).seen = s.seen := by
  unfold State.finishId; split <;> simp
@[simp] theorem State.finishId_since (s : State) (id st : Nat) (r0 r1 r2 : Option Nat) : (s.finishId id st r0 r1 r2).since = s.since := by
  unfold State.finishId; split <;> simp
@[simp] theorem State.finishId_lowWater (s : State) (id st : Nat) (r0 r1 r2 : Option Nat) : (s.finishId id st r0 r1 r2).lowWater = s.lowWater := by
  unfold State.finishId; split <;> simp
@[simp] theorem State.finishId_lowReport (s : State) (id st : Nat) (r0 r1 r2 : Option Nat) : (s.finishId id st r0 r1 r2).lowReport = s.lowReport := by
  unfold State.finishId; split <;> simp
@[simp] theorem State.finishId_pending (s : State) (id st : Nat) (r0 r1 r2 : Option Nat) : (s.finishId id st r0 r1 r2).pending = s.pending := by
  unfold State.finishId; split <;> simp
@[simp] theorem State.finishId_chan (s : State) (id st : Nat) (r0 r1 r2 : Option Nat) (i : Nat) : (s.finishId id st r0 r1 r2).chan i = s.chan i := by simp [State.chan]
@[simp] theorem State.finishId_conv (s : State) (id st : Nat) (r0 r1 r2 : Option Nat) (i : Nat) : (s.finishId id st r0 r1 r2).conv i = s.conv i := by simp [State.conv]
@[simp] theorem State.finishId_sram (s : State) (id st : Nat) (r0 r1 r2 : Option Nat) (i : Nat) : (s.finishId id st r0 r1 r2).sram i = s.sram i := by simp [State.sram]
@[simp] theorem State.finishId_group (s : State) (id st : Nat) (r0 r1 r2 : Option Nat) (i : Nat) : (s.finishId id st r0 r1 r2).group i = s.group i := by simp [State.group]
@[simp] theorem State.finishId_entry (s : State) (id st : Nat) (r0 r1 r2 : Option Nat) (i : Nat) : (s.finishId id st r0 r1 r2).entry i = s.entry i := by simp [State.entry]

/-! ### `State.finishOpt` -/

@[simp] theorem State.finishOpt_now (s : State) (id : Option Nat) (st : Nat) (r0 r1 r2 : Option Nat) : (s.finishOpt id st r0 r1 r2).now = s.now := by
  unfold State.finishOpt; split <;> simp
@[simp] theorem State.finishOpt_boot (s : State) (id : Option Nat) (st : Nat) (r0 r1 r2 : Option Nat) : (s.finishOpt id st r0 r1 r2).boot = s.boot := by
  unfold State.finishOpt; split <;> simp
@[simp] theorem State.finishOpt_sec (s : State) (id : Option Nat) (st : Nat) (r0 r1 r2 : Option Nat) : (s.finishOpt id st r0 r1 r2).sec = s.sec := by
  unfold State.finishOpt; split <;> simp
@[simp] theorem State.finishOpt_shore (s : State) (id : Option Nat) (st : Nat) (r0 r1 r2 : Option Nat) : (s.finishOpt id st r0 r1 r2).shore = s.shore := by
  unfold State.finishOpt; split <;> simp
@[simp] theorem State.finishOpt_tm (s : State) (id : Option Nat) (st : Nat) (r0 r1 r2 : Option Nat) : (s.finishOpt id st r0 r1 r2).tm = s.tm := by
  unfold State.finishOpt; split <;> simp
@[simp] theorem State.finishOpt_powerHours (s : State) (id : Option Nat) (st : Nat) (r0 r1 r2 : Option Nat) : (s.finishOpt id st r0 r1 r2).powerHours = s.powerHours := by
  unfold State.finishOpt; split <;> simp
@[simp] theorem State.finishOpt_hourDue (s : State) (id : Option Nat) (st : Nat) (r0 r1 r2 : Option Nat) : (s.finishOpt id st r0 r1 r2).hourDue = s.hourDue := by
  unfold State.finishOpt; split <;> simp
@[simp] theorem State.finishOpt_channels (s : State) (id : Option Nat) (st : Nat) (r0 r1 r2 : Option Nat) : (s.finishOpt id st r0 r1 r2).channels = s.channels := by
  unfold State.finishOpt; split <;> simp
@[simp] theorem State.finishOpt_groups (s : State) (id : Option Nat) (st : Nat) (r0 r1 r2 : Option Nat) : (s.finishOpt id st r0 r1 r2).groups = s.groups := by
  unfold State.finishOpt; split <;> simp
@[simp] theorem State.finishOpt_convs (s : State) (id : Option Nat) (st : Nat) (r0 r1 r2 : Option Nat) : (s.finishOpt id st r0 r1 r2).convs = s.convs := by
  unfold State.finishOpt; split <;> simp
@[simp] theorem State.finishOpt_srams (s : State) (id : Option Nat) (st : Nat) (r0 r1 r2 : Option Nat) : (s.finishOpt id st r0 r1 r2).srams = s.srams := by
  unfold State.finishOpt; split <;> simp
@[simp] theorem State.finishOpt_mem (s : State) (id : Option Nat) (st : Nat) (r0 r1 r2 : Option Nat) : (s.finishOpt id st r0 r1 r2).mem = s.mem := by
  unfold State.finishOpt; split <;> simp
@[simp] theorem State.finishOpt_written (s : State) (id : Option Nat) (st : Nat) (r0 r1 r2 : Option Nat) : (s.finishOpt id st r0 r1 r2).written = s.written := by
  unfold State.finishOpt; split <;> simp
@[simp] theorem State.finishOpt_retireList (s : State) (id : Option Nat) (st : Nat) (r0 r1 r2 : Option Nat) : (s.finishOpt id st r0 r1 r2).retireList = s.retireList := by
  unfold State.finishOpt; split <;> simp
@[simp] theorem State.finishOpt_jobKeys (s : State) (id : Option Nat) (st : Nat) (r0 r1 r2 : Option Nat) : (s.finishOpt id st r0 r1 r2).jobKeys = s.jobKeys := by
  unfold State.finishOpt; split <;> simp
@[simp] theorem State.finishOpt_jobs (s : State) (id : Option Nat) (st : Nat) (r0 r1 r2 : Option Nat) : (s.finishOpt id st r0 r1 r2).jobs = s.jobs := by
  unfold State.finishOpt; split <;> simp
@[simp] theorem State.finishOpt_copyIns (s : State) (id : Option Nat) (st : Nat) (r0 r1 r2 : Option Nat) : (s.finishOpt id st r0 r1 r2).copyIns = s.copyIns := by
  unfold State.finishOpt; split <;> simp
@[simp] theorem State.finishOpt_part (s : State) (id : Option Nat) (st : Nat) (r0 r1 r2 : Option Nat) : (s.finishOpt id st r0 r1 r2).part = s.part := by
  unfold State.finishOpt; split <;> simp
@[simp] theorem State.finishOpt_nextId (s : State) (id : Option Nat) (st : Nat) (r0 r1 r2 : Option Nat) : (s.finishOpt id st r0 r1 r2).nextId = s.nextId := by
  unfold State.finishOpt; split <;> simp
@[simp] theorem State.finishOpt_batch (s : State) (id : Option Nat) (st : Nat) (r0 r1 r2 : Option Nat) : (s.finishOpt id st r0 r1 r2).batch = s.batch := by
  unfold State.finishOpt; split <;> simp
@[simp] theorem State.finishOpt_seen (s : State) (id : Option Nat) (st : Nat) (r0 r1 r2 : Option Nat) : (s.finishOpt id st r0 r1 r2).seen = s.seen := by
  unfold State.finishOpt; split <;> simp
@[simp] theorem State.finishOpt_since (s : State) (id : Option Nat) (st : Nat) (r0 r1 r2 : Option Nat) : (s.finishOpt id st r0 r1 r2).since = s.since := by
  unfold State.finishOpt; split <;> simp
@[simp] theorem State.finishOpt_lowWater (s : State) (id : Option Nat) (st : Nat) (r0 r1 r2 : Option Nat) : (s.finishOpt id st r0 r1 r2).lowWater = s.lowWater := by
  unfold State.finishOpt; split <;> simp
@[simp] theorem State.finishOpt_lowReport (s : State) (id : Option Nat) (st : Nat) (r0 r1 r2 : Option Nat) : (s.finishOpt id st r0 r1 r2).lowReport = s.lowReport := by
  unfold State.finishOpt; split <;> simp
@[simp] theorem State.finishOpt_pending (s : State) (id : Option Nat) (st : Nat) (r0 r1 r2 : Option Nat) : (s.finishOpt id st r0 r1 r2).pending = s.pending := by
  unfold State.finishOpt; split <;> simp
@[simp] theorem State.finishOpt_chan (s : State) (id : Option Nat) (st : Nat) (r0 r1 r2 : Option Nat) (i : Nat) : (s.finishOpt id st r0 r1 r2).chan i = s.chan i := by simp [State.chan]
@[simp] theorem State.finishOpt_conv (s : State) (id : Option Nat) (st : Nat) (r0 r1 r2 : Option Nat) (i : Nat) : (s.finishOpt id st r0 r1 r2).conv i = s.conv i := by simp [State.conv]
@[simp] theorem State.finishOpt_sram (s : State) (id : Option Nat) (st : Nat) (r0 r1 r2 : Option Nat) (i : Nat) : (s.finishOpt id st r0 r1 r2).sram i = s.sram i := by simp [State.sram]
@[simp] theorem State.finishOpt_group (s : State) (id : Option Nat) (st : Nat) (r0 r1 r2 : Option Nat) (i : Nat) : (s.finishOpt id st r0 r1 r2).group i = s.group i := by simp [State.group]
@[simp] theorem State.finishOpt_entry (s : State) (id : Option Nat) (st : Nat) (r0 r1 r2 : Option Nat) (i : Nat) : (s.finishOpt id st r0 r1 r2).entry i = s.entry i := by simp [State.entry]

/-! ### `State.finishAll` -/

@[simp] theorem State.finishAll_now (s : State) (ids : List Nat) (st : Nat) : (s.finishAll ids st).now = s.now := by
  exact foldl_eq_of (·.now) _ _ _ fun s id => by split <;> simp
@[simp] theorem State.finishAll_boot (s : State) (ids : List Nat) (st : Nat) : (s.finishAll ids st).boot = s.boot := by
  exact foldl_eq_of (·.boot) _ _ _ fun s id => by split <;> simp
@[simp] theorem State.finishAll_sec (s : State) (ids : List Nat) (st : Nat) : (s.finishAll ids st).sec = s.sec := by
  exact foldl_eq_of (·.sec) _ _ _ fun s id => by split <;> simp
@[simp] theorem State.finishAll_shore (s : State) (ids : List Nat) (st : Nat) : (s.finishAll ids st).shore = s.shore := by
  exact foldl_eq_of (·.shore) _ _ _ fun s id => by split <;> simp
@[simp] theorem State.finishAll_tm (s : State) (ids : List Nat) (st : Nat) : (s.finishAll ids st).tm = s.tm := by
  exact foldl_eq_of (·.tm) _ _ _ fun s id => by split <;> simp
@[simp] theorem State.finishAll_powerHours (s : State) (ids : List Nat) (st : Nat) : (s.finishAll ids st).powerHours = s.powerHours := by
  exact foldl_eq_of (·.powerHours) _ _ _ fun s id => by split <;> simp
@[simp] theorem State.finishAll_hourDue (s : State) (ids : List Nat) (st : Nat) : (s.finishAll ids st).hourDue = s.hourDue := by
  exact foldl_eq_of (·.hourDue) _ _ _ fun s id => by split <;> simp
@[simp] theorem State.finishAll_channels (s : State) (ids : List Nat) (st : Nat) : (s.finishAll ids st).channels = s.channels := by
  exact foldl_eq_of (·.channels) _ _ _ fun s id => by split <;> simp
@[simp] theorem State.finishAll_groups (s : State) (ids : List Nat) (st : Nat) : (s.finishAll ids st).groups = s.groups := by
  exact foldl_eq_of (·.groups) _ _ _ fun s id => by split <;> simp
@[simp] theorem State.finishAll_convs (s : State) (ids : List Nat) (st : Nat) : (s.finishAll ids st).convs = s.convs := by
  exact foldl_eq_of (·.convs) _ _ _ fun s id => by split <;> simp
@[simp] theorem State.finishAll_srams (s : State) (ids : List Nat) (st : Nat) : (s.finishAll ids st).srams = s.srams := by
  exact foldl_eq_of (·.srams) _ _ _ fun s id => by split <;> simp
@[simp] theorem State.finishAll_mem (s : State) (ids : List Nat) (st : Nat) : (s.finishAll ids st).mem = s.mem := by
  exact foldl_eq_of (·.mem) _ _ _ fun s id => by split <;> simp
@[simp] theorem State.finishAll_written (s : State) (ids : List Nat) (st : Nat) : (s.finishAll ids st).written = s.written := by
  exact foldl_eq_of (·.written) _ _ _ fun s id => by split <;> simp
@[simp] theorem State.finishAll_retireList (s : State) (ids : List Nat) (st : Nat) : (s.finishAll ids st).retireList = s.retireList := by
  exact foldl_eq_of (·.retireList) _ _ _ fun s id => by split <;> simp
@[simp] theorem State.finishAll_jobKeys (s : State) (ids : List Nat) (st : Nat) : (s.finishAll ids st).jobKeys = s.jobKeys := by
  exact foldl_eq_of (·.jobKeys) _ _ _ fun s id => by split <;> simp
@[simp] theorem State.finishAll_jobs (s : State) (ids : List Nat) (st : Nat) : (s.finishAll ids st).jobs = s.jobs := by
  exact foldl_eq_of (·.jobs) _ _ _ fun s id => by split <;> simp
@[simp] theorem State.finishAll_copyIns (s : State) (ids : List Nat) (st : Nat) : (s.finishAll ids st).copyIns = s.copyIns := by
  exact foldl_eq_of (·.copyIns) _ _ _ fun s id => by split <;> simp
@[simp] theorem State.finishAll_part (s : State) (ids : List Nat) (st : Nat) : (s.finishAll ids st).part = s.part := by
  exact foldl_eq_of (·.part) _ _ _ fun s id => by split <;> simp
@[simp] theorem State.finishAll_nextId (s : State) (ids : List Nat) (st : Nat) : (s.finishAll ids st).nextId = s.nextId := by
  exact foldl_eq_of (·.nextId) _ _ _ fun s id => by split <;> simp
@[simp] theorem State.finishAll_batch (s : State) (ids : List Nat) (st : Nat) : (s.finishAll ids st).batch = s.batch := by
  exact foldl_eq_of (·.batch) _ _ _ fun s id => by split <;> simp
@[simp] theorem State.finishAll_seen (s : State) (ids : List Nat) (st : Nat) : (s.finishAll ids st).seen = s.seen := by
  exact foldl_eq_of (·.seen) _ _ _ fun s id => by split <;> simp
@[simp] theorem State.finishAll_since (s : State) (ids : List Nat) (st : Nat) : (s.finishAll ids st).since = s.since := by
  exact foldl_eq_of (·.since) _ _ _ fun s id => by split <;> simp
@[simp] theorem State.finishAll_lowWater (s : State) (ids : List Nat) (st : Nat) : (s.finishAll ids st).lowWater = s.lowWater := by
  exact foldl_eq_of (·.lowWater) _ _ _ fun s id => by split <;> simp
@[simp] theorem State.finishAll_lowReport (s : State) (ids : List Nat) (st : Nat) : (s.finishAll ids st).lowReport = s.lowReport := by
  exact foldl_eq_of (·.lowReport) _ _ _ fun s id => by split <;> simp
@[simp] theorem State.finishAll_pending (s : State) (ids : List Nat) (st : Nat) : (s.finishAll ids st).pending = s.pending := by
  exact foldl_eq_of (·.pending) _ _ _ fun s id => by split <;> simp
@[simp] theorem State.finishAll_chan (s : State) (ids : List Nat) (st : Nat) (i : Nat) : (s.finishAll ids st).chan i = s.chan i := by simp [State.chan]
@[simp] theorem State.finishAll_conv (s : State) (ids : List Nat) (st : Nat) (i : Nat) : (s.finishAll ids st).conv i = s.conv i := by simp [State.conv]
@[simp] theorem State.finishAll_sram (s : State) (ids : List Nat) (st : Nat) (i : Nat) : (s.finishAll ids st).sram i = s.sram i := by simp [State.sram]
@[simp] theorem State.finishAll_group (s : State) (ids : List Nat) (st : Nat) (i : Nat) : (s.finishAll ids st).group i = s.group i := by simp [State.group]
@[simp] theorem State.finishAll_entry (s : State) (ids : List Nat) (st : Nat) (i : Nat) : (s.finishAll ids st).entry i = s.entry i := by simp [State.entry]

/-! ### `State.writeBuf` -/

@[simp] theorem State.writeBuf_now (s : State) (f : Flight) (off : Nat) (bs : List Byte) : (s.writeBuf f off bs).now = s.now := by
  unfold State.writeBuf; split <;> simp
@[simp] theorem State.writeBuf_boot (s : State) (f : Flight) (off : Nat) (bs : List Byte) : (s.writeBuf f off bs).boot = s.boot := by
  unfold State.writeBuf; split <;> simp
@[simp] theorem State.writeBuf_sec (s : State) (f : Flight) (off : Nat) (bs : List Byte) : (s.writeBuf f off bs).sec = s.sec := by
  unfold State.writeBuf; split <;> simp
@[simp] theorem State.writeBuf_shore (s : State) (f : Flight) (off : Nat) (bs : List Byte) : (s.writeBuf f off bs).shore = s.shore := by
  unfold State.writeBuf; split <;> simp
@[simp] theorem State.writeBuf_tm (s : State) (f : Flight) (off : Nat) (bs : List Byte) : (s.writeBuf f off bs).tm = s.tm := by
  unfold State.writeBuf; split <;> simp
@[simp] theorem State.writeBuf_powerHours (s : State) (f : Flight) (off : Nat) (bs : List Byte) : (s.writeBuf f off bs).powerHours = s.powerHours := by
  unfold State.writeBuf; split <;> simp
@[simp] theorem State.writeBuf_hourDue (s : State) (f : Flight) (off : Nat) (bs : List Byte) : (s.writeBuf f off bs).hourDue = s.hourDue := by
  unfold State.writeBuf; split <;> simp
@[simp] theorem State.writeBuf_channels (s : State) (f : Flight) (off : Nat) (bs : List Byte) : (s.writeBuf f off bs).channels = s.channels := by
  unfold State.writeBuf; split <;> simp
@[simp] theorem State.writeBuf_groups (s : State) (f : Flight) (off : Nat) (bs : List Byte) : (s.writeBuf f off bs).groups = s.groups := by
  unfold State.writeBuf; split <;> simp
@[simp] theorem State.writeBuf_convs (s : State) (f : Flight) (off : Nat) (bs : List Byte) : (s.writeBuf f off bs).convs = s.convs := by
  unfold State.writeBuf; split <;> simp
@[simp] theorem State.writeBuf_srams (s : State) (f : Flight) (off : Nat) (bs : List Byte) : (s.writeBuf f off bs).srams = s.srams := by
  unfold State.writeBuf; split <;> simp
@[simp] theorem State.writeBuf_mem (s : State) (f : Flight) (off : Nat) (bs : List Byte) : (s.writeBuf f off bs).mem = s.mem := by
  unfold State.writeBuf; split <;> simp
@[simp] theorem State.writeBuf_written (s : State) (f : Flight) (off : Nat) (bs : List Byte) : (s.writeBuf f off bs).written = s.written := by
  unfold State.writeBuf; split <;> simp
@[simp] theorem State.writeBuf_retireList (s : State) (f : Flight) (off : Nat) (bs : List Byte) : (s.writeBuf f off bs).retireList = s.retireList := by
  unfold State.writeBuf; split <;> simp
@[simp] theorem State.writeBuf_jobKeys (s : State) (f : Flight) (off : Nat) (bs : List Byte) : (s.writeBuf f off bs).jobKeys = s.jobKeys := by
  unfold State.writeBuf; split <;> simp
@[simp] theorem State.writeBuf_jobs (s : State) (f : Flight) (off : Nat) (bs : List Byte) : (s.writeBuf f off bs).jobs = s.jobs := by
  unfold State.writeBuf; split <;> simp
@[simp] theorem State.writeBuf_copyIns (s : State) (f : Flight) (off : Nat) (bs : List Byte) : (s.writeBuf f off bs).copyIns = s.copyIns := by
  unfold State.writeBuf; split <;> simp
@[simp] theorem State.writeBuf_part (s : State) (f : Flight) (off : Nat) (bs : List Byte) : (s.writeBuf f off bs).part = s.part := by
  unfold State.writeBuf; split <;> simp
@[simp] theorem State.writeBuf_nextId (s : State) (f : Flight) (off : Nat) (bs : List Byte) : (s.writeBuf f off bs).nextId = s.nextId := by
  unfold State.writeBuf; split <;> simp
@[simp] theorem State.writeBuf_batch (s : State) (f : Flight) (off : Nat) (bs : List Byte) : (s.writeBuf f off bs).batch = s.batch := by
  unfold State.writeBuf; split <;> simp
@[simp] theorem State.writeBuf_seen (s : State) (f : Flight) (off : Nat) (bs : List Byte) : (s.writeBuf f off bs).seen = s.seen := by
  unfold State.writeBuf; split <;> simp
@[simp] theorem State.writeBuf_since (s : State) (f : Flight) (off : Nat) (bs : List Byte) : (s.writeBuf f off bs).since = s.since := by
  unfold State.writeBuf; split <;> simp
@[simp] theorem State.writeBuf_lowWater (s : State) (f : Flight) (off : Nat) (bs : List Byte) : (s.writeBuf f off bs).lowWater = s.lowWater := by
  unfold State.writeBuf; split <;> simp
@[simp] theorem State.writeBuf_lowReport (s : State) (f : Flight) (off : Nat) (bs : List Byte) : (s.writeBuf f off bs).lowReport = s.lowReport := by
  unfold State.writeBuf; split <;> simp
@[simp] theorem State.writeBuf_pending (s : State) (f : Flight) (off : Nat) (bs : List Byte) : (s.writeBuf f off bs).pending = s.pending := by
  unfold State.writeBuf; split <;> simp
@[simp] theorem State.writeBuf_flights (s : State) (f : Flight) (off : Nat) (bs : List Byte) : (s.writeBuf f off bs).flights = s.flights := by
  unfold State.writeBuf; split <;> simp
@[simp] theorem State.writeBuf_free (s : State) (f : Flight) (off : Nat) (bs : List Byte) : (s.writeBuf f off bs).free = s.free := by
  unfold State.writeBuf; split <;> simp
@[simp] theorem State.writeBuf_links (s : State) (f : Flight) (off : Nat) (bs : List Byte) : (s.writeBuf f off bs).links = s.links := by
  unfold State.writeBuf; split <;> simp
@[simp] theorem State.writeBuf_rings (s : State) (f : Flight) (off : Nat) (bs : List Byte) : (s.writeBuf f off bs).rings = s.rings := by
  unfold State.writeBuf; split <;> simp
@[simp] theorem State.writeBuf_chan (s : State) (f : Flight) (off : Nat) (bs : List Byte) (i : Nat) : (s.writeBuf f off bs).chan i = s.chan i := by simp [State.chan]
@[simp] theorem State.writeBuf_conv (s : State) (f : Flight) (off : Nat) (bs : List Byte) (i : Nat) : (s.writeBuf f off bs).conv i = s.conv i := by simp [State.conv]
@[simp] theorem State.writeBuf_sram (s : State) (f : Flight) (off : Nat) (bs : List Byte) (i : Nat) : (s.writeBuf f off bs).sram i = s.sram i := by simp [State.sram]
@[simp] theorem State.writeBuf_group (s : State) (f : Flight) (off : Nat) (bs : List Byte) (i : Nat) : (s.writeBuf f off bs).group i = s.group i := by simp [State.group]
@[simp] theorem State.writeBuf_entry (s : State) (f : Flight) (off : Nat) (bs : List Byte) (i : Nat) : (s.writeBuf f off bs).entry i = s.entry i := by simp [State.entry]

/-! ### `State.writeAt` -/

@[simp] theorem State.writeAt_now (s : State) (f : Flight) (a : Word) (bs : List Byte) : (s.writeAt f a bs).now = s.now := by
  unfold State.writeAt; split <;> simp
@[simp] theorem State.writeAt_boot (s : State) (f : Flight) (a : Word) (bs : List Byte) : (s.writeAt f a bs).boot = s.boot := by
  unfold State.writeAt; split <;> simp
@[simp] theorem State.writeAt_sec (s : State) (f : Flight) (a : Word) (bs : List Byte) : (s.writeAt f a bs).sec = s.sec := by
  unfold State.writeAt; split <;> simp
@[simp] theorem State.writeAt_shore (s : State) (f : Flight) (a : Word) (bs : List Byte) : (s.writeAt f a bs).shore = s.shore := by
  unfold State.writeAt; split <;> simp
@[simp] theorem State.writeAt_tm (s : State) (f : Flight) (a : Word) (bs : List Byte) : (s.writeAt f a bs).tm = s.tm := by
  unfold State.writeAt; split <;> simp
@[simp] theorem State.writeAt_powerHours (s : State) (f : Flight) (a : Word) (bs : List Byte) : (s.writeAt f a bs).powerHours = s.powerHours := by
  unfold State.writeAt; split <;> simp
@[simp] theorem State.writeAt_hourDue (s : State) (f : Flight) (a : Word) (bs : List Byte) : (s.writeAt f a bs).hourDue = s.hourDue := by
  unfold State.writeAt; split <;> simp
@[simp] theorem State.writeAt_channels (s : State) (f : Flight) (a : Word) (bs : List Byte) : (s.writeAt f a bs).channels = s.channels := by
  unfold State.writeAt; split <;> simp
@[simp] theorem State.writeAt_groups (s : State) (f : Flight) (a : Word) (bs : List Byte) : (s.writeAt f a bs).groups = s.groups := by
  unfold State.writeAt; split <;> simp
@[simp] theorem State.writeAt_convs (s : State) (f : Flight) (a : Word) (bs : List Byte) : (s.writeAt f a bs).convs = s.convs := by
  unfold State.writeAt; split <;> simp
@[simp] theorem State.writeAt_srams (s : State) (f : Flight) (a : Word) (bs : List Byte) : (s.writeAt f a bs).srams = s.srams := by
  unfold State.writeAt; split <;> simp
@[simp] theorem State.writeAt_mem (s : State) (f : Flight) (a : Word) (bs : List Byte) : (s.writeAt f a bs).mem = s.mem := by
  unfold State.writeAt; split <;> simp
@[simp] theorem State.writeAt_written (s : State) (f : Flight) (a : Word) (bs : List Byte) : (s.writeAt f a bs).written = s.written := by
  unfold State.writeAt; split <;> simp
@[simp] theorem State.writeAt_retireList (s : State) (f : Flight) (a : Word) (bs : List Byte) : (s.writeAt f a bs).retireList = s.retireList := by
  unfold State.writeAt; split <;> simp
@[simp] theorem State.writeAt_jobKeys (s : State) (f : Flight) (a : Word) (bs : List Byte) : (s.writeAt f a bs).jobKeys = s.jobKeys := by
  unfold State.writeAt; split <;> simp
@[simp] theorem State.writeAt_jobs (s : State) (f : Flight) (a : Word) (bs : List Byte) : (s.writeAt f a bs).jobs = s.jobs := by
  unfold State.writeAt; split <;> simp
@[simp] theorem State.writeAt_copyIns (s : State) (f : Flight) (a : Word) (bs : List Byte) : (s.writeAt f a bs).copyIns = s.copyIns := by
  unfold State.writeAt; split <;> simp
@[simp] theorem State.writeAt_part (s : State) (f : Flight) (a : Word) (bs : List Byte) : (s.writeAt f a bs).part = s.part := by
  unfold State.writeAt; split <;> simp
@[simp] theorem State.writeAt_nextId (s : State) (f : Flight) (a : Word) (bs : List Byte) : (s.writeAt f a bs).nextId = s.nextId := by
  unfold State.writeAt; split <;> simp
@[simp] theorem State.writeAt_batch (s : State) (f : Flight) (a : Word) (bs : List Byte) : (s.writeAt f a bs).batch = s.batch := by
  unfold State.writeAt; split <;> simp
@[simp] theorem State.writeAt_seen (s : State) (f : Flight) (a : Word) (bs : List Byte) : (s.writeAt f a bs).seen = s.seen := by
  unfold State.writeAt; split <;> simp
@[simp] theorem State.writeAt_since (s : State) (f : Flight) (a : Word) (bs : List Byte) : (s.writeAt f a bs).since = s.since := by
  unfold State.writeAt; split <;> simp
@[simp] theorem State.writeAt_lowWater (s : State) (f : Flight) (a : Word) (bs : List Byte) : (s.writeAt f a bs).lowWater = s.lowWater := by
  unfold State.writeAt; split <;> simp
@[simp] theorem State.writeAt_lowReport (s : State) (f : Flight) (a : Word) (bs : List Byte) : (s.writeAt f a bs).lowReport = s.lowReport := by
  unfold State.writeAt; split <;> simp
@[simp] theorem State.writeAt_pending (s : State) (f : Flight) (a : Word) (bs : List Byte) : (s.writeAt f a bs).pending = s.pending := by
  unfold State.writeAt; split <;> simp
@[simp] theorem State.writeAt_flights (s : State) (f : Flight) (a : Word) (bs : List Byte) : (s.writeAt f a bs).flights = s.flights := by
  unfold State.writeAt; split <;> simp
@[simp] theorem State.writeAt_free (s : State) (f : Flight) (a : Word) (bs : List Byte) : (s.writeAt f a bs).free = s.free := by
  unfold State.writeAt; split <;> simp
@[simp] theorem State.writeAt_links (s : State) (f : Flight) (a : Word) (bs : List Byte) : (s.writeAt f a bs).links = s.links := by
  unfold State.writeAt; split <;> simp
@[simp] theorem State.writeAt_rings (s : State) (f : Flight) (a : Word) (bs : List Byte) : (s.writeAt f a bs).rings = s.rings := by
  unfold State.writeAt; split <;> simp
@[simp] theorem State.writeAt_chan (s : State) (f : Flight) (a : Word) (bs : List Byte) (i : Nat) : (s.writeAt f a bs).chan i = s.chan i := by simp [State.chan]
@[simp] theorem State.writeAt_conv (s : State) (f : Flight) (a : Word) (bs : List Byte) (i : Nat) : (s.writeAt f a bs).conv i = s.conv i := by simp [State.conv]
@[simp] theorem State.writeAt_sram (s : State) (f : Flight) (a : Word) (bs : List Byte) (i : Nat) : (s.writeAt f a bs).sram i = s.sram i := by simp [State.sram]
@[simp] theorem State.writeAt_group (s : State) (f : Flight) (a : Word) (bs : List Byte) (i : Nat) : (s.writeAt f a bs).group i = s.group i := by simp [State.group]
@[simp] theorem State.writeAt_entry (s : State) (f : Flight) (a : Word) (bs : List Byte) (i : Nat) : (s.writeAt f a bs).entry i = s.entry i := by simp [State.entry]

/-! ### `State.answer` -/

@[simp] theorem State.answer_now (s : State) (f : Flight) (ws : List Word) (r0 r1 r2 : Option Nat) : (s.answer f ws r0 r1 r2).now = s.now := by
  simp [State.answer]
@[simp] theorem State.answer_boot (s : State) (f : Flight) (ws : List Word) (r0 r1 r2 : Option Nat) : (s.answer f ws r0 r1 r2).boot = s.boot := by
  simp [State.answer]
@[simp] theorem State.answer_sec (s : State) (f : Flight) (ws : List Word) (r0 r1 r2 : Option Nat) : (s.answer f ws r0 r1 r2).sec = s.sec := by
  simp [State.answer]
@[simp] theorem State.answer_shore (s : State) (f : Flight) (ws : List Word) (r0 r1 r2 : Option Nat) : (s.answer f ws r0 r1 r2).shore = s.shore := by
  simp [State.answer]
@[simp] theorem State.answer_tm (s : State) (f : Flight) (ws : List Word) (r0 r1 r2 : Option Nat) : (s.answer f ws r0 r1 r2).tm = s.tm := by
  simp [State.answer]
@[simp] theorem State.answer_powerHours (s : State) (f : Flight) (ws : List Word) (r0 r1 r2 : Option Nat) : (s.answer f ws r0 r1 r2).powerHours = s.powerHours := by
  simp [State.answer]
@[simp] theorem State.answer_hourDue (s : State) (f : Flight) (ws : List Word) (r0 r1 r2 : Option Nat) : (s.answer f ws r0 r1 r2).hourDue = s.hourDue := by
  simp [State.answer]
@[simp] theorem State.answer_channels (s : State) (f : Flight) (ws : List Word) (r0 r1 r2 : Option Nat) : (s.answer f ws r0 r1 r2).channels = s.channels := by
  simp [State.answer]
@[simp] theorem State.answer_groups (s : State) (f : Flight) (ws : List Word) (r0 r1 r2 : Option Nat) : (s.answer f ws r0 r1 r2).groups = s.groups := by
  simp [State.answer]
@[simp] theorem State.answer_convs (s : State) (f : Flight) (ws : List Word) (r0 r1 r2 : Option Nat) : (s.answer f ws r0 r1 r2).convs = s.convs := by
  simp [State.answer]
@[simp] theorem State.answer_srams (s : State) (f : Flight) (ws : List Word) (r0 r1 r2 : Option Nat) : (s.answer f ws r0 r1 r2).srams = s.srams := by
  simp [State.answer]
@[simp] theorem State.answer_mem (s : State) (f : Flight) (ws : List Word) (r0 r1 r2 : Option Nat) : (s.answer f ws r0 r1 r2).mem = s.mem := by
  simp [State.answer]
@[simp] theorem State.answer_written (s : State) (f : Flight) (ws : List Word) (r0 r1 r2 : Option Nat) : (s.answer f ws r0 r1 r2).written = s.written := by
  simp [State.answer]
@[simp] theorem State.answer_retireList (s : State) (f : Flight) (ws : List Word) (r0 r1 r2 : Option Nat) : (s.answer f ws r0 r1 r2).retireList = s.retireList := by
  simp [State.answer]
@[simp] theorem State.answer_jobKeys (s : State) (f : Flight) (ws : List Word) (r0 r1 r2 : Option Nat) : (s.answer f ws r0 r1 r2).jobKeys = s.jobKeys := by
  simp [State.answer]
@[simp] theorem State.answer_jobs (s : State) (f : Flight) (ws : List Word) (r0 r1 r2 : Option Nat) : (s.answer f ws r0 r1 r2).jobs = s.jobs := by
  simp [State.answer]
@[simp] theorem State.answer_copyIns (s : State) (f : Flight) (ws : List Word) (r0 r1 r2 : Option Nat) : (s.answer f ws r0 r1 r2).copyIns = s.copyIns := by
  simp [State.answer]
@[simp] theorem State.answer_part (s : State) (f : Flight) (ws : List Word) (r0 r1 r2 : Option Nat) : (s.answer f ws r0 r1 r2).part = s.part := by
  simp [State.answer]
@[simp] theorem State.answer_nextId (s : State) (f : Flight) (ws : List Word) (r0 r1 r2 : Option Nat) : (s.answer f ws r0 r1 r2).nextId = s.nextId := by
  simp [State.answer]
@[simp] theorem State.answer_batch (s : State) (f : Flight) (ws : List Word) (r0 r1 r2 : Option Nat) : (s.answer f ws r0 r1 r2).batch = s.batch := by
  simp [State.answer]
@[simp] theorem State.answer_seen (s : State) (f : Flight) (ws : List Word) (r0 r1 r2 : Option Nat) : (s.answer f ws r0 r1 r2).seen = s.seen := by
  simp [State.answer]
@[simp] theorem State.answer_since (s : State) (f : Flight) (ws : List Word) (r0 r1 r2 : Option Nat) : (s.answer f ws r0 r1 r2).since = s.since := by
  simp [State.answer]
@[simp] theorem State.answer_lowWater (s : State) (f : Flight) (ws : List Word) (r0 r1 r2 : Option Nat) : (s.answer f ws r0 r1 r2).lowWater = s.lowWater := by
  simp [State.answer]
@[simp] theorem State.answer_lowReport (s : State) (f : Flight) (ws : List Word) (r0 r1 r2 : Option Nat) : (s.answer f ws r0 r1 r2).lowReport = s.lowReport := by
  simp [State.answer]
@[simp] theorem State.answer_pending (s : State) (f : Flight) (ws : List Word) (r0 r1 r2 : Option Nat) : (s.answer f ws r0 r1 r2).pending = s.pending := by
  simp [State.answer]
@[simp] theorem State.answer_chan (s : State) (f : Flight) (ws : List Word) (r0 r1 r2 : Option Nat) (i : Nat) : (s.answer f ws r0 r1 r2).chan i = s.chan i := by simp [State.chan]
@[simp] theorem State.answer_conv (s : State) (f : Flight) (ws : List Word) (r0 r1 r2 : Option Nat) (i : Nat) : (s.answer f ws r0 r1 r2).conv i = s.conv i := by simp [State.conv]
@[simp] theorem State.answer_sram (s : State) (f : Flight) (ws : List Word) (r0 r1 r2 : Option Nat) (i : Nat) : (s.answer f ws r0 r1 r2).sram i = s.sram i := by simp [State.sram]
@[simp] theorem State.answer_group (s : State) (f : Flight) (ws : List Word) (r0 r1 r2 : Option Nat) (i : Nat) : (s.answer f ws r0 r1 r2).group i = s.group i := by simp [State.group]
@[simp] theorem State.answer_entry (s : State) (f : Flight) (ws : List Word) (r0 r1 r2 : Option Nat) (i : Nat) : (s.answer f ws r0 r1 r2).entry i = s.entry i := by simp [State.entry]

/-! ### The flight is gone -/

theorem find?_filter_ne (l : List Flight) (i : Nat) : (l.filter fun f => f.id ≠ i).find? (fun f => f.id = i) = none := by
  rw [List.find?_eq_none]
  intro f hf
  have := (List.mem_filter.1 hf).2
  simpa using this

theorem State.finish_flights (s : State) (f : Flight) (st : Nat) (r0 r1 r2 : Option Nat) :
    (s.finish f st r0 r1 r2).flights = s.flights.filter fun g => g.id ≠ f.id := by
  unfold State.finish
  dsimp only
  (repeat' split) <;> simp [State.dropFlight]

@[simp] theorem State.finish_flight?_same (s : State) (f : Flight) (st : Nat) (r0 r1 r2 : Option Nat) :
    (s.finish f st r0 r1 r2).flight? f.id = none := by
  rw [State.flight?, State.finish_flights]
  exact find?_filter_ne _ _

@[simp] theorem State.answer_flight?_same (s : State) (f : Flight) (ws : List Word) (r0 r1 r2 : Option Nat) :
    (s.answer f ws r0 r1 r2).flight? f.id = none := by simp [State.answer]

/-- A command that is gone stays gone when another ends. -/
theorem State.finish_flight?_none {s : State} {i : Nat} (h : s.flight? i = none) (f : Flight) (st : Nat) (r0 r1 r2 : Option Nat) :
    (s.finish f st r0 r1 r2).flight? i = none := by
  rw [State.flight?, State.finish_flights, List.find?_eq_none]
  intro g hg
  exact (List.find?_eq_none.1 h) g ((List.mem_filter.1 hg).1)

theorem State.flight?_id {s : State} {i : Nat} {f : Flight} (h : s.flight? i = some f) : f.id = i := by
  simpa using List.find?_some h

theorem State.finishId_flight? (s : State) (i st : Nat) (r0 r1 r2 : Option Nat) :
    (s.finishId i st r0 r1 r2).flight? i = none := by
  unfold State.finishId
  split
  · rename_i f h
    rw [← State.flight?_id h]
    simp
  · assumption

theorem State.finishId_flight?_none {s : State} {i : Nat} (h : s.flight? i = none) (j st : Nat) (r0 r1 r2 : Option Nat) :
    (s.finishId j st r0 r1 r2).flight? i = none := by
  unfold State.finishId
  split
  · exact State.finish_flight?_none h _ _ _ _ _
  · exact h

theorem State.finishAll_flight?_none {s : State} {i : Nat} (h : s.flight? i = none) (ids : List Nat) (st : Nat) :
    (s.finishAll ids st).flight? i = none := by
  refine foldl_inv_of (fun u => u.flight? i = none) _ _ s ?_ h
  intro u j hu
  split
  · exact State.finish_flight?_none hu _ _ _ _ _
  · exact hu

theorem State.finishAll_flight? (s : State) {i : Nat} {ids : List Nat} (h : i ∈ ids) (st : Nat) :
    (s.finishAll ids st).flight? i = none := by
  induction ids generalizing s with
  | nil => cases h
  | cons j ids ih =>
    by_cases hi : i ∈ ids
    · exact ih _ hi
    · have hij : i = j := by simpa [hi] using h
      subst hij
      show (State.finishAll (s.finishId i st) ids st).flight? i = none
      exact State.finishAll_flight?_none (s.finishId_flight? i st none none none) ids st

/-! ### What else is left alone -/

@[simp] theorem State.msix_kept (s : State) (n v : Nat) : (s.msix n v).kept = s.kept := by simp [State.kept]
@[simp] theorem State.signal_kept (s : State) (r : Nat) : (s.signal r).kept = s.kept := by simp [State.kept]
@[simp] theorem State.wrote_kept (s : State) (r : Nat) (b : Bool) : (s.wrote r b).kept = s.kept := by simp [State.kept]
@[simp] theorem State.writeCompletion_kept (s : State) (q : Nat) (c : Completion) (b : Bool) : (s.writeCompletion q c b).kept = s.kept := by simp [State.kept]
@[simp] theorem State.finish_kept (s : State) (f : Flight) (st : Nat) (r0 r1 r2 : Option Nat) : (s.finish f st r0 r1 r2).kept = s.kept := by simp [State.kept]
@[simp] theorem State.finishId_kept (s : State) (id st : Nat) (r0 r1 r2 : Option Nat) : (s.finishId id st r0 r1 r2).kept = s.kept := by simp [State.kept]
@[simp] theorem State.finishOpt_kept (s : State) (id : Option Nat) (st : Nat) (r0 r1 r2 : Option Nat) : (s.finishOpt id st r0 r1 r2).kept = s.kept := by simp [State.kept]
@[simp] theorem State.finishAll_kept (s : State) (ids : List Nat) (st : Nat) : (s.finishAll ids st).kept = s.kept := by simp [State.kept]
@[simp] theorem State.writeBuf_kept (s : State) (f : Flight) (off : Nat) (bs : List Byte) : (s.writeBuf f off bs).kept = s.kept := by simp [State.kept]
@[simp] theorem State.writeAt_kept (s : State) (f : Flight) (a : Word) (bs : List Byte) : (s.writeAt f a bs).kept = s.kept := by simp [State.kept]
@[simp] theorem State.answer_kept (s : State) (f : Flight) (ws : List Word) (r0 r1 r2 : Option Nat) : (s.answer f ws r0 r1 r2).kept = s.kept := by simp [State.kept]

/-- Ending a command leaves the module as it was. -/
theorem State.finish_sameModule (s : State) (f : Flight) (st : Nat) (r0 r1 r2 : Option Nat) :
    SameModule s (s.finish f st r0 r1 r2).remark := by
  constructor <;> simp [Channel.Same]

theorem State.answer_sameModule (s : State) (f : Flight) (ws : List Word) (r0 r1 r2 : Option Nat) :
    SameModule s (s.answer f ws r0 r1 r2).remark := by
  constructor <;> simp [Channel.Same]

end Sys2Proof.Machine
end

