-- ==== Sys2Proof/Laws/Quiet.lean ====
section
/-! SUPPORT. What almost every operation leaves alone: the host window with its WRITTEN bits, the queue, the partition record,
the powered hours and the fetch count stay; time does not run backwards; and of the commands in flight it keeps some, in
their order, and makes none. One lemma per operation. -/

namespace Sys2Proof.Machine

set_option linter.all false

structure State.Quiet (s0 s : State) : Prop where
  kept : s.kept = s0.kept
  now : s0.now ≤ s.now
  ids : (s.flights.map Flight.id).Sublist (s0.flights.map Flight.id)

theorem State.Quiet.refl (s : State) : s.Quiet s := ⟨rfl, Nat.le_refl _, List.Sublist.refl _⟩
theorem State.Quiet.trans {a b c : State} (h : a.Quiet b) (k : b.Quiet c) : a.Quiet c :=
  ⟨k.kept.trans h.kept, Nat.le_trans h.now k.now, k.ids.trans h.ids⟩

theorem State.quiet_of {s0 s t : State} (h : s0.Quiet s) (hk : t.kept = s.kept) (hn : t.now = s.now)
    (hf : t.flights = s.flights) : s0.Quiet t := ⟨hk.trans h.kept, hn ▸ h.now, hf ▸ h.ids⟩

theorem quiet_ite {s0 : State} {c : Prop} [Decidable c] {a b : State} (ha : s0.Quiet a) (hb : s0.Quiet b) :
    s0.Quiet (if c then a else b) := by split <;> assumption

theorem foldl_quiet {α : Type} {s0 : State} (xs : List α) (g : State → α → State) (s : State)
    (h : ∀ s x, s0.Quiet s → s0.Quiet (g s x)) (hs : s0.Quiet s) : s0.Quiet (xs.foldl g s) :=
  foldl_inv_of (State.Quiet s0) xs g s h hs

theorem State.quiet_filter {s0 s : State} (h : s0.Quiet s) (p : Flight → Bool) :
    (((s.flights.filter p).map Flight.id).Sublist (s0.flights.map Flight.id)) :=
  (List.Sublist.map _ List.filter_sublist).trans h.ids

/-- A change of flights that keeps their numbers. -/
theorem State.quiet_map {s0 s t : State} (h : s0.Quiet s) (hk : t.kept = s.kept) (hn : t.now = s.now) (g : Flight → Flight)
    (hf : t.flights = s.flights.map g) (hg : ∀ f, (g f).id = f.id) : s0.Quiet t := by
  refine ⟨hk.trans h.kept, hn ▸ h.now, ?_⟩
  have e : t.flights.map Flight.id = s.flights.map Flight.id := by
    rw [hf, List.map_map]
    exact List.map_congr_left fun f _ => hg f
  rw [e]
  exact h.ids

theorem State.setChan_quiet {s0 s : State} (c : Nat) (x : Channel) (h : s0.Quiet s) : s0.Quiet (s.setChan c x) := ⟨h.kept, h.now, h.ids⟩
theorem State.setRing_quiet {s0 s : State} (r : Nat) (x : Ring) (h : s0.Quiet s) : s0.Quiet (s.setRing r x) := ⟨h.kept, h.now, h.ids⟩
theorem State.setLink_quiet {s0 s : State} (n : Nat) (x : Link) (h : s0.Quiet s) : s0.Quiet (s.setLink n x) := ⟨h.kept, h.now, h.ids⟩
theorem State.setConv_quiet {s0 s : State} (k : Nat) (x : Converter) (h : s0.Quiet s) : s0.Quiet (s.setConv k x) := ⟨h.kept, h.now, h.ids⟩
theorem State.setSram_quiet {s0 s : State} (k : Nat) (x : Sram) (h : s0.Quiet s) : s0.Quiet (s.setSram k x) := ⟨h.kept, h.now, h.ids⟩
theorem State.setGroup_quiet {s0 s : State} (g : Nat) (x : Group) (h : s0.Quiet s) : s0.Quiet (s.setGroup g x) := ⟨h.kept, h.now, h.ids⟩
theorem State.onSec_quiet {s0 s : State} (g : Security → Security) (h : s0.Quiet s) : s0.Quiet (s.onSec g) := ⟨h.kept, h.now, h.ids⟩
theorem State.onTm_quiet {s0 s : State} (g : Timing → Timing) (h : s0.Quiet s) : s0.Quiet (s.onTm g) := ⟨h.kept, h.now, h.ids⟩
theorem State.onShore_quiet {s0 s : State} (g : Shore → Shore) (h : s0.Quiet s) : s0.Quiet (s.onShore g) := ⟨h.kept, h.now, h.ids⟩
theorem State.onBoot_quiet {s0 s : State} (g : Boot → Boot) (h : s0.Quiet s) : s0.Quiet (s.onBoot g) := ⟨h.kept, h.now, h.ids⟩
theorem State.at_quiet {s0 s : State} (due : Nat) (h : s0.Quiet s) : s0.Quiet (s.at due) :=
  ⟨h.kept, Nat.le_trans h.now (Nat.le_max_left _ _), h.ids⟩
theorem State.draw_quiet {s0 s : State}  (h : s0.Quiet s) : s0.Quiet (s.draw ) := ⟨h.kept, h.now, h.ids⟩
theorem State.emit_quiet {s0 s : State} (o : Output) (h : s0.Quiet s) : s0.Quiet (s.emit o) := ⟨h.kept, h.now, h.ids⟩
theorem State.raise_quiet {s0 s : State} (source code sev : Nat) (d0 : Word) (d1 : BitVec 32) (cause : Option Nat) (h : s0.Quiet s) : s0.Quiet (s.raise source code sev d0 d1 cause) := ⟨h.kept, h.now, h.ids⟩
theorem State.onAge_quiet {s0 s : State} (c : Nat) (g : Ageing → Ageing) (h : s0.Quiet s) : s0.Quiet (s.onAge c g) := ⟨h.kept, h.now, h.ids⟩
theorem State.onBu_quiet {s0 s : State} (c : Nat) (g : Bringup → Bringup) (h : s0.Quiet s) : s0.Quiet (s.onBu c g) := ⟨h.kept, h.now, h.ids⟩
theorem State.onPw_quiet {s0 s : State} (c : Nat) (g : Power → Power) (h : s0.Quiet s) : s0.Quiet (s.onPw c g) := ⟨h.kept, h.now, h.ids⟩
theorem State.onCal_quiet {s0 s : State} (c : Nat) (g : Cal → Cal) (h : s0.Quiet s) : s0.Quiet (s.onCal c g) := ⟨h.kept, h.now, h.ids⟩
theorem State.onFec_quiet {s0 s : State} (c : Nat) (g : Fec → Fec) (h : s0.Quiet s) : s0.Quiet (s.onFec c g) := ⟨h.kept, h.now, h.ids⟩
theorem State.onKp_quiet {s0 s : State} (c : Nat) (g : Kapra → Kapra) (h : s0.Quiet s) : s0.Quiet (s.onKp c g) := ⟨h.kept, h.now, h.ids⟩
theorem State.onLd_quiet {s0 s : State} (c : Nat) (g : Loading → Loading) (h : s0.Quiet s) : s0.Quiet (s.onLd c g) := ⟨h.kept, h.now, h.ids⟩
theorem State.onPm_quiet {s0 s : State} (c : Nat) (g : P2mp → P2mp) (h : s0.Quiet s) : s0.Quiet (s.onPm c g) := ⟨h.kept, h.now, h.ids⟩
theorem State.onOpt_quiet {s0 s : State} (c : Nat) (g : Optics → Optics) (h : s0.Quiet s) : s0.Quiet (s.onOpt c g) := ⟨h.kept, h.now, h.ids⟩
theorem State.onCap_quiet {s0 s : State} (c : Nat) (g : Capture → Capture) (h : s0.Quiet s) : s0.Quiet (s.onCap c g) := ⟨h.kept, h.now, h.ids⟩
theorem State.onRx_quiet {s0 s : State} (c : Nat) (g : Receiver → Receiver) (h : s0.Quiet s) : s0.Quiet (s.onRx c g) := ⟨h.kept, h.now, h.ids⟩
theorem State.onSl_quiet {s0 s : State} (c : Nat) (g : Slots → Slots) (h : s0.Quiet s) : s0.Quiet (s.onSl c g) := ⟨h.kept, h.now, h.ids⟩
theorem State.onChan_quiet {s0 s : State} (c : Nat) (g : Channel → Channel) (h : s0.Quiet s) : s0.Quiet (s.onChan c g) := ⟨h.kept, h.now, h.ids⟩
theorem State.onRing_quiet {s0 s : State} (r : Nat) (g : Ring → Ring) (h : s0.Quiet s) : s0.Quiet (s.onRing r g) := ⟨h.kept, h.now, h.ids⟩
theorem State.onLink_quiet {s0 s : State} (n : Nat) (g : Link → Link) (h : s0.Quiet s) : s0.Quiet (s.onLink n g) := ⟨h.kept, h.now, h.ids⟩
theorem State.onConv_quiet {s0 s : State} (k : Nat) (g : Converter → Converter) (h : s0.Quiet s) : s0.Quiet (s.onConv k g) := ⟨h.kept, h.now, h.ids⟩
theorem State.onSram_quiet {s0 s : State} (k : Nat) (g : Sram → Sram) (h : s0.Quiet s) : s0.Quiet (s.onSram k g) := ⟨h.kept, h.now, h.ids⟩
theorem State.onGroup_quiet {s0 s : State} (k : Nat) (g : Group → Group) (h : s0.Quiet s) : s0.Quiet (s.onGroup k g) := ⟨h.kept, h.now, h.ids⟩
theorem State.msix_quiet {s0 s : State} (n v : Nat) (h : s0.Quiet s) : s0.Quiet (s.msix n v) :=
  State.quiet_of h (by simp) (by simp) (by simp)
theorem State.signal_quiet {s0 s : State} (r : Nat) (h : s0.Quiet s) : s0.Quiet (s.signal r) :=
  State.quiet_of h (by simp) (by simp) (by simp)
theorem State.wrote_quiet {s0 s : State} (r : Nat) (b : Bool) (h : s0.Quiet s) : s0.Quiet (s.wrote r b) :=
  State.quiet_of h (by simp) (by simp) (by simp)
theorem State.writeCompletion_quiet {s0 s : State} (q : Nat) (c : Completion) (b : Bool) (h : s0.Quiet s) : s0.Quiet (s.writeCompletion q c b) :=
  State.quiet_of h (by simp) (by simp) (by simp)
theorem State.writeBuf_quiet {s0 s : State} (f : Flight) (off : Nat) (bs : List Byte) (h : s0.Quiet s) : s0.Quiet (s.writeBuf f off bs) :=
  State.quiet_of h (by simp) (by simp) (by simp)
theorem State.writeAt_quiet {s0 s : State} (f : Flight) (a : Word) (bs : List Byte) (h : s0.Quiet s) : s0.Quiet (s.writeAt f a bs) :=
  State.quiet_of h (by simp) (by simp) (by simp)
theorem State.remark_quiet {s0 s : State}  (h : s0.Quiet s) : s0.Quiet (s.remark ) :=
  State.quiet_of h (by simp) (by simp) (by simp)
theorem State.finish_quiet {s0 s : State} (f : Flight) (st : Nat) (r0 r1 r2 : Option Nat) (h : s0.Quiet s) :
    s0.Quiet (s.finish f st r0 r1 r2) := by
  refine ⟨by simp [h.kept], by simp [h.now], ?_⟩
  rw [State.finish_flights]
  exact State.quiet_filter h _
theorem State.dropFlight_quiet {s0 s : State} (id : Nat) (h : s0.Quiet s) : s0.Quiet (s.dropFlight id) :=
  ⟨h.kept, h.now, State.quiet_filter h _⟩
theorem State.finishId_quiet {s0 s : State} (id st : Nat) (r0 r1 r2 : Option Nat) (h : s0.Quiet s) :
    s0.Quiet (s.finishId id st r0 r1 r2) := by
  unfold State.finishId
  split
  · exact State.finish_quiet _ _ _ _ _ h
  · exact h
theorem State.finishOpt_quiet {s0 s : State} (id : Option Nat) (st : Nat) (r0 r1 r2 : Option Nat) (h : s0.Quiet s) :
    s0.Quiet (s.finishOpt id st r0 r1 r2) := by
  unfold State.finishOpt
  split
  · exact State.finishId_quiet _ _ _ _ _ h
  · exact h
theorem State.finishAll_quiet {s0 s : State} (ids : List Nat) (st : Nat) (h : s0.Quiet s) : s0.Quiet (s.finishAll ids st) :=
  foldl_quiet _ _ _ (fun _ id hs => State.finishId_quiet id st none none none hs) h
theorem State.answer_quiet {s0 s : State} (f : Flight) (ws : List Word) (r0 r1 r2 : Option Nat) (h : s0.Quiet s) :
    s0.Quiet (s.answer f ws r0 r1 r2) := State.finish_quiet _ _ _ _ _ (State.writeBuf_quiet _ _ _ h)
theorem State.onFlight_quiet {s0 s : State} (id : Nat) (g : Flight → Flight) (hg : ∀ f, (g f).id = f.id) (h : s0.Quiet s) :
    s0.Quiet (s.onFlight id g) :=
  State.quiet_map h rfl rfl (fun f => if f.id = id then g f else f) rfl fun f => by split <;> simp [hg]
theorem State.run_quiet {s0 s : State} (f : Flight) (h : s0.Quiet s) : s0.Quiet (s.run f) :=
  State.onFlight_quiet _ _ (fun _ => rfl) h

theorem State.setTrib_quiet {s0 : State} {s : State} (i : Nat) (t : Trib) (h : s0.Quiet s) :
    s0.Quiet (State.setTrib s i t) := by
  unfold State.setTrib
  repeat' (first | with_reducible exact h | (intro f s h) | (intro s h) | with_reducible apply State.onChan_quiet | (with_reducible refine foldl_quiet _ _ _ (fun s x h => ?_) ?_) | with_reducible apply quiet_ite | split | exact (fun _ => rfl) | (dsimp only) | exact ⟨h.kept, h.now, h.ids⟩)
theorem State.answerBytes_quiet {s0 : State} {s : State} (f : Flight) (bytes : List Byte) (h : s0.Quiet s) :
    s0.Quiet (State.answerBytes s f bytes) := by
  unfold State.answerBytes
  repeat' (first | with_reducible exact h | (intro f s h) | (intro s h) | with_reducible apply State.writeBuf_quiet | with_reducible apply State.finish_quiet | (with_reducible refine foldl_quiet _ _ _ (fun s x h => ?_) ?_) | with_reducible apply quiet_ite | split | exact (fun _ => rfl) | (dsimp only) | exact ⟨h.kept, h.now, h.ids⟩)
theorem State.flushPosted_quiet {s0 : State} {s : State} (r : Nat) (st : Nat) (h : s0.Quiet s) :
    s0.Quiet (State.flushPosted s r st) := by
  unfold State.flushPosted
  repeat' (first | with_reducible exact h | (intro f s h) | (intro s h) | with_reducible apply State.onRing_quiet | with_reducible apply State.finishAll_quiet | (with_reducible refine foldl_quiet _ _ _ (fun s x h => ?_) ?_) | with_reducible apply quiet_ite | split | exact (fun _ => rfl) | (dsimp only) | exact ⟨h.kept, h.now, h.ids⟩)
theorem State.haltRing_quiet {s0 : State} {s : State} (r : Nat) (cause : Nat) (h : s0.Quiet s) :
    s0.Quiet (State.haltRing s r cause) := by
  unfold State.haltRing
  repeat' (first | with_reducible exact h | (intro f s h) | (intro s h) | with_reducible apply State.raise_quiet | with_reducible apply State.onRing_quiet | with_reducible apply State.flushPosted_quiet | (with_reducible refine foldl_quiet _ _ _ (fun s x h => ?_) ?_) | with_reducible apply quiet_ite | split | exact (fun _ => rfl) | (dsimp only) | exact ⟨h.kept, h.now, h.ids⟩)
theorem State.dropJobs_quiet {s0 : State} {s : State} (p : Flight → Bool) (h : s0.Quiet s) :
    s0.Quiet (State.dropJobs s p) := by
  unfold State.dropJobs
  repeat' (first | with_reducible exact h | (intro f s h) | (intro s h) | with_reducible apply State.finishAll_quiet | (with_reducible refine foldl_quiet _ _ _ (fun s x h => ?_) ?_) | with_reducible apply quiet_ite | split | exact (fun _ => rfl) | (dsimp only) | exact ⟨h.kept, h.now, h.ids⟩)
theorem State.dropCapture_quiet {s0 : State} {s : State} (r : Nat) (h : s0.Quiet s) :
    s0.Quiet (State.dropCapture s r) := by
  unfold State.dropCapture
  repeat' (first | with_reducible exact h | (intro f s h) | (intro s h) | with_reducible apply State.onChan_quiet | (with_reducible refine foldl_quiet _ _ _ (fun s x h => ?_) ?_) | with_reducible apply quiet_ite | split | exact (fun _ => rfl) | (dsimp only) | exact ⟨h.kept, h.now, h.ids⟩)
theorem State.stopRing_quiet {s0 : State} {s : State} (r : Nat) (h : s0.Quiet s) :
    s0.Quiet (State.stopRing s r) := by
  unfold State.stopRing
  repeat' (first | with_reducible exact h | (intro f s h) | (intro s h) | with_reducible apply State.onRing_quiet | with_reducible apply State.flushPosted_quiet | with_reducible apply State.dropCapture_quiet | (with_reducible refine foldl_quiet _ _ _ (fun s x h => ?_) ?_) | with_reducible apply quiet_ite | split | exact (fun _ => rfl) | (dsimp only) | exact ⟨h.kept, h.now, h.ids⟩)
theorem State.disableRing_quiet {s0 : State} {s : State} (r : Nat) (h : s0.Quiet s) :
    s0.Quiet (State.disableRing s r) := by
  unfold State.disableRing
  repeat' (first | with_reducible exact h | (intro f s h) | (intro s h) | with_reducible apply State.dropJobs_quiet | with_reducible apply State.stopRing_quiet | (with_reducible refine foldl_quiet _ _ _ (fun s x h => ?_) ?_) | with_reducible apply quiet_ite | split | exact (fun _ => rfl) | (dsimp only) | exact ⟨h.kept, h.now, h.ids⟩)
theorem State.putEvent_quiet {s0 : State} {s : State} (r : Nat) (e : Raised) (h : s0.Quiet s) :
    s0.Quiet (State.putEvent s r e) := by
  unfold State.putEvent
  repeat' (first | with_reducible exact h | (intro f s h) | (intro s h) | with_reducible apply State.setRing_quiet | with_reducible apply State.emit_quiet | with_reducible apply State.wrote_quiet | (with_reducible refine foldl_quiet _ _ _ (fun s x h => ?_) ?_) | with_reducible apply quiet_ite | split | exact (fun _ => rfl) | (dsimp only) | exact ⟨h.kept, h.now, h.ids⟩)
theorem State.reportLost_quiet {s0 : State} {s : State} (r : Nat) (h : s0.Quiet s) :
    s0.Quiet (State.reportLost s r) := by
  unfold State.reportLost
  repeat' (first | with_reducible exact h | (intro f s h) | (intro s h) | with_reducible apply State.setRing_quiet | with_reducible apply State.putEvent_quiet | (with_reducible refine foldl_quiet _ _ _ (fun s x h => ?_) ?_) | with_reducible apply quiet_ite | split | exact (fun _ => rfl) | (dsimp only) | exact ⟨h.kept, h.now, h.ids⟩)
theorem State.deliverEvent_quiet {s0 : State} {s : State} (r : Nat) (e : Raised) (h : s0.Quiet s) :
    s0.Quiet (State.deliverEvent s r e) := by
  unfold State.deliverEvent
  repeat' (first | with_reducible exact h | (intro f s h) | (intro s h) | with_reducible apply State.putEvent_quiet | with_reducible apply State.reportLost_quiet | (with_reducible refine foldl_quiet _ _ _ (fun s x h => ?_) ?_) | with_reducible apply quiet_ite | split | exact (fun _ => rfl) | (dsimp only) | exact ⟨h.kept, h.now, h.ids⟩)
theorem State.reportGap_quiet {s0 : State} {s : State} (r : Nat) (h : s0.Quiet s) :
    s0.Quiet (State.reportGap s r) := by
  unfold State.reportGap
  repeat' (first | with_reducible exact h | (intro f s h) | (intro s h) | with_reducible apply State.setRing_quiet | (with_reducible refine foldl_quiet _ _ _ (fun s x h => ?_) ?_) | with_reducible apply quiet_ite | split | exact (fun _ => rfl) | (dsimp only) | exact ⟨h.kept, h.now, h.ids⟩)
theorem State.putTideline_quiet {s0 : State} {s : State} (r : Nat) (ws : List Word) (h : s0.Quiet s) :
    s0.Quiet (State.putTideline s r ws) := by
  unfold State.putTideline
  repeat' (first | with_reducible exact h | (intro f s h) | (intro s h) | with_reducible apply State.setRing_quiet | with_reducible apply State.emit_quiet | with_reducible apply State.wrote_quiet | (with_reducible refine foldl_quiet _ _ _ (fun s x h => ?_) ?_) | with_reducible apply quiet_ite | split | exact (fun _ => rfl) | (dsimp only) | exact ⟨h.kept, h.now, h.ids⟩)
theorem State.lqEvent_quiet {s0 : State} {s : State} (c : Nat) (raised : Bool) (h : s0.Quiet s) :
    s0.Quiet (State.lqEvent s c raised) := by
  unfold State.lqEvent
  repeat' (first | with_reducible exact h | (intro f s h) | (intro s h) | with_reducible apply State.raise_quiet | (with_reducible refine foldl_quiet _ _ _ (fun s x h => ?_) ?_) | with_reducible apply quiet_ite | split | exact (fun _ => rfl) | (dsimp only) | exact ⟨h.kept, h.now, h.ids⟩)
theorem State.loadConfig_quiet {s0 : State} {s : State} (c : Nat) (accept : Bool) (alarm : Int) (h : s0.Quiet s) :
    s0.Quiet (State.loadConfig s c accept alarm) := by
  unfold State.loadConfig
  repeat' (first | with_reducible exact h | (intro f s h) | (intro s h) | with_reducible apply State.onLd_quiet | with_reducible apply State.lqEvent_quiet | (with_reducible refine foldl_quiet _ _ _ (fun s x h => ?_) ?_) | with_reducible apply quiet_ite | split | exact (fun _ => rfl) | (dsimp only) | exact ⟨h.kept, h.now, h.ids⟩)
theorem State.reported_quiet {s0 : State} {s : State} (c : Nat) (h : s0.Quiet s) :
    s0.Quiet (State.reported s c) := by
  unfold State.reported
  repeat' (first | with_reducible exact h | (intro f s h) | (intro s h) | with_reducible apply State.onChan_quiet | (with_reducible refine foldl_quiet _ _ _ (fun s x h => ?_) ?_) | with_reducible apply quiet_ite | split | exact (fun _ => rfl) | (dsimp only) | exact ⟨h.kept, h.now, h.ids⟩)
theorem State.latencyEvent_quiet {s0 : State} {s : State} (i : Nat) (h : s0.Quiet s) :
    s0.Quiet (State.latencyEvent s i) := by
  unfold State.latencyEvent
  repeat' (first | with_reducible exact h | (intro f s h) | (intro s h) | with_reducible apply State.raise_quiet | with_reducible apply State.setTrib_quiet | with_reducible apply State.reported_quiet | (with_reducible refine foldl_quiet _ _ _ (fun s x h => ?_) ?_) | with_reducible apply quiet_ite | split | exact (fun _ => rfl) | (dsimp only) | exact ⟨h.kept, h.now, h.ids⟩)
theorem State.latencyChanged_quiet {s0 : State} {s : State} (i : Nat) (h : s0.Quiet s) :
    s0.Quiet (State.latencyChanged s i) := by
  unfold State.latencyChanged
  repeat' (first | with_reducible exact h | (intro f s h) | (intro s h) | with_reducible apply State.setTrib_quiet | with_reducible apply State.latencyEvent_quiet | (with_reducible refine foldl_quiet _ _ _ (fun s x h => ?_) ?_) | with_reducible apply quiet_ite | split | exact (fun _ => rfl) | (dsimp only) | exact ⟨h.kept, h.now, h.ids⟩)
theorem State.payOwed_quiet {s0 : State} {s : State} (c : Nat) (h : s0.Quiet s) :
    s0.Quiet (State.payOwed s c) := by
  unfold State.payOwed
  repeat' (first | with_reducible exact h | (intro f s h) | (intro s h) | with_reducible apply State.latencyEvent_quiet | (with_reducible refine foldl_quiet _ _ _ (fun s x h => ?_) ?_) | with_reducible apply quiet_ite | split | exact (fun _ => rfl) | (dsimp only) | exact ⟨h.kept, h.now, h.ids⟩)
theorem State.oweLatency_quiet {s0 : State} {s : State} (c : Nat) (h : s0.Quiet s) :
    s0.Quiet (State.oweLatency s c) := by
  unfold State.oweLatency
  repeat' (first | with_reducible exact h | (intro f s h) | (intro s h) | with_reducible apply State.onChan_quiet | (with_reducible refine foldl_quiet _ _ _ (fun s x h => ?_) ?_) | with_reducible apply quiet_ite | split | exact (fun _ => rfl) | (dsimp only) | exact ⟨h.kept, h.now, h.ids⟩)
theorem State.restateOne_quiet {s0 : State} {s : State} (c : Nat) (i : Nat) (tx : Bool) (rx : Bool) (h : s0.Quiet s) :
    s0.Quiet (State.restateOne s c i tx rx) := by
  unfold State.restateOne
  repeat' (first | with_reducible exact h | (intro f s h) | (intro s h) | with_reducible apply State.setTrib_quiet | with_reducible apply State.latencyChanged_quiet | with_reducible apply State.oweLatency_quiet | (with_reducible refine foldl_quiet _ _ _ (fun s x h => ?_) ?_) | with_reducible apply quiet_ite | split | exact (fun _ => rfl) | (dsimp only) | exact ⟨h.kept, h.now, h.ids⟩)
theorem State.restateAll_quiet {s0 : State} {s : State} (c : Nat) (tx : Bool) (rx : Bool) (h : s0.Quiet s) :
    s0.Quiet (State.restateAll s c tx rx) := by
  unfold State.restateAll
  repeat' (first | with_reducible exact h | (intro f s h) | (intro s h) | with_reducible apply State.restateOne_quiet | (with_reducible refine foldl_quiet _ _ _ (fun s x h => ?_) ?_) | with_reducible apply quiet_ite | split | exact (fun _ => rfl) | (dsimp only) | exact ⟨h.kept, h.now, h.ids⟩)
theorem State.restate_quiet {s0 : State} {s : State} (c : Nat) (tx : Bool) (rx : Bool) (h : s0.Quiet s) :
    s0.Quiet (State.restate s c tx rx) := by
  unfold State.restate
  repeat' (first | with_reducible exact h | (intro f s h) | (intro s h) | with_reducible apply State.onChan_quiet | with_reducible apply State.restateOne_quiet | (with_reducible refine foldl_quiet _ _ _ (fun s x h => ?_) ?_) | with_reducible apply quiet_ite | split | exact (fun _ => rfl) | (dsimp only) | exact ⟨h.kept, h.now, h.ids⟩)
theorem State.deviations_quiet {s0 : State} {s : State} (c : Nat) (m : BitVec 32) (ds : List (Nat × Bool × Int)) (h : s0.Quiet s) :
    s0.Quiet (State.deviations s c m ds) := by
  unfold State.deviations
  repeat' (first | with_reducible exact h | (intro f s h) | (intro s h) | with_reducible apply State.raise_quiet | with_reducible apply State.setTrib_quiet | (with_reducible refine foldl_quiet _ _ _ (fun s x h => ?_) ?_) | with_reducible apply quiet_ite | split | exact (fun _ => rfl) | (dsimp only) | exact ⟨h.kept, h.now, h.ids⟩)
theorem State.sendLatency_quiet {s0 : State} {s : State} (c : Nat) (h : s0.Quiet s) :
    s0.Quiet (State.sendLatency s c) := by
  unfold State.sendLatency
  repeat' (first | with_reducible exact h | (intro f s h) | (intro s h) | with_reducible apply State.onChan_quiet | (with_reducible refine foldl_quiet _ _ _ (fun s x h => ?_) ?_) | with_reducible apply quiet_ite | split | exact (fun _ => rfl) | (dsimp only) | exact ⟨h.kept, h.now, h.ids⟩)
theorem State.farFigures_quiet {s0 : State} {s : State} (c : Nat) (l : Nat) (far : Option (Nat × Nat)) (h : s0.Quiet s) :
    s0.Quiet (State.farFigures s c l far) := by
  unfold State.farFigures
  repeat' (first | with_reducible exact h | (intro f s h) | (intro s h) | with_reducible apply State.setTrib_quiet | with_reducible apply State.latencyEvent_quiet | with_reducible apply State.latencyChanged_quiet | (with_reducible refine foldl_quiet _ _ _ (fun s x h => ?_) ?_) | with_reducible apply quiet_ite | split | exact (fun _ => rfl) | (dsimp only) | exact ⟨h.kept, h.now, h.ids⟩)
theorem State.farMessage_quiet {s0 : State} {s : State} (c : Nat) (bytes : List Byte) (shared : Nat → Bool) (h : s0.Quiet s) :
    s0.Quiet (State.farMessage s c bytes shared) := by
  unfold State.farMessage
  repeat' (first | with_reducible exact h | (intro f s h) | (intro s h) | with_reducible apply State.farFigures_quiet | (with_reducible refine foldl_quiet _ _ _ (fun s x h => ?_) ?_) | with_reducible apply quiet_ite | split | exact (fun _ => rfl) | (dsimp only) | exact ⟨h.kept, h.now, h.ids⟩)
theorem State.setReleased_quiet {s0 : State} {s : State} (v : Bool) (is : List Nat) (h : s0.Quiet s) :
    s0.Quiet (State.setReleased s v is) := by
  unfold State.setReleased
  repeat' (first | with_reducible exact h | (intro f s h) | (intro s h) | with_reducible apply State.setTrib_quiet | with_reducible apply State.latencyChanged_quiet | (with_reducible refine foldl_quiet _ _ _ (fun s x h => ?_) ?_) | with_reducible apply quiet_ite | split | exact (fun _ => rfl) | (dsimp only) | exact ⟨h.kept, h.now, h.ids⟩)
theorem State.release_quiet {s0 : State} {s : State} (f : Flight) (ws : List Word) (v : Bool) (h : s0.Quiet s) :
    s0.Quiet (State.release s f ws v) := by
  unfold State.release
  repeat' (first | with_reducible exact h | (intro f s h) | (intro s h) | with_reducible apply State.finish_quiet | with_reducible apply State.setReleased_quiet | (with_reducible refine foldl_quiet _ _ _ (fun s x h => ?_) ?_) | with_reducible apply quiet_ite | split | exact (fun _ => rfl) | (dsimp only) | exact ⟨h.kept, h.now, h.ids⟩)
theorem State.refreshTrib_quiet {s0 : State} {s : State} (i : Nat) (h : s0.Quiet s) :
    s0.Quiet (State.refreshTrib s i) := by
  unfold State.refreshTrib
  repeat' (first | with_reducible exact h | (intro f s h) | (intro s h) | with_reducible apply State.setTrib_quiet | (with_reducible refine foldl_quiet _ _ _ (fun s x h => ?_) ?_) | with_reducible apply quiet_ite | split | exact (fun _ => rfl) | (dsimp only) | exact ⟨h.kept, h.now, h.ids⟩)
theorem State.refreshTribs_quiet {s0 : State} {s : State} (c : Nat) (h : s0.Quiet s) :
    s0.Quiet (State.refreshTribs s c) := by
  unfold State.refreshTribs
  repeat' (first | with_reducible exact h | (intro f s h) | (intro s h) | with_reducible apply State.refreshTrib_quiet | (with_reducible refine foldl_quiet _ _ _ (fun s x h => ?_) ?_) | with_reducible apply quiet_ite | split | exact (fun _ => rfl) | (dsimp only) | exact ⟨h.kept, h.now, h.ids⟩)
theorem State.refreshSlots_quiet {s0 : State} {s : State} (c : Nat) (h : s0.Quiet s) :
    s0.Quiet (State.refreshSlots s c) := by
  unfold State.refreshSlots
  repeat' (first | with_reducible exact h | (intro f s h) | (intro s h) | with_reducible apply State.refreshTribs_quiet | (with_reducible refine foldl_quiet _ _ _ (fun s x h => ?_) ?_) | with_reducible apply quiet_ite | split | exact (fun _ => rfl) | (dsimp only) | exact ⟨h.kept, h.now, h.ids⟩)
theorem State.provision_quiet {s0 : State} {s : State} (i : Nat) (t : Trib) (h : s0.Quiet s) :
    s0.Quiet (State.provision s i t) := by
  unfold State.provision
  repeat' (first | with_reducible exact h | (intro f s h) | (intro s h) | with_reducible apply State.onChan_quiet | with_reducible apply State.setTrib_quiet | with_reducible apply State.reported_quiet | with_reducible apply State.oweLatency_quiet | with_reducible apply State.refreshTrib_quiet | (with_reducible refine foldl_quiet _ _ _ (fun s x h => ?_) ?_) | with_reducible apply quiet_ite | split | exact (fun _ => rfl) | (dsimp only) | exact ⟨h.kept, h.now, h.ids⟩)
theorem State.disableTrib_quiet {s0 : State} {s : State} (f : Flight) (i : Nat) (h : s0.Quiet s) :
    s0.Quiet (State.disableTrib s f i) := by
  unfold State.disableTrib
  repeat' (first | with_reducible exact h | (intro f s h) | (intro s h) | with_reducible apply State.finish_quiet | with_reducible apply State.run_quiet | with_reducible apply State.setTrib_quiet | (with_reducible refine foldl_quiet _ _ _ (fun s x h => ?_) ?_) | with_reducible apply quiet_ite | split | exact (fun _ => rfl) | (dsimp only) | exact ⟨h.kept, h.now, h.ids⟩)
theorem State.onTrib_quiet {s0 : State} {s : State} (i : Nat) (g : Trib → Trib) (h : s0.Quiet s) :
    s0.Quiet (State.onTrib s i g) := by
  unfold State.onTrib
  repeat' (first | with_reducible exact h | (intro f s h) | (intro s h) | with_reducible apply State.setTrib_quiet | (with_reducible refine foldl_quiet _ _ _ (fun s x h => ?_) ?_) | with_reducible apply quiet_ite | split | exact (fun _ => rfl) | (dsimp only) | exact ⟨h.kept, h.now, h.ids⟩)
theorem State.failTrib_quiet {s0 : State} {s : State} (i : Nat) (cause : Nat) (h : s0.Quiet s) :
    s0.Quiet (State.failTrib s i cause) := by
  unfold State.failTrib
  repeat' (first | with_reducible exact h | (intro f s h) | (intro s h) | with_reducible apply State.raise_quiet | with_reducible apply State.onTrib_quiet | (with_reducible refine foldl_quiet _ _ _ (fun s x h => ?_) ?_) | with_reducible apply quiet_ite | split | exact (fun _ => rfl) | (dsimp only) | exact ⟨h.kept, h.now, h.ids⟩)
theorem State.advise_quiet {s0 : State} {s : State} (k : Nat) (addr : Nat) (h : s0.Quiet s) :
    s0.Quiet (State.advise s k addr) := by
  unfold State.advise
  repeat' (first | with_reducible exact h | (intro f s h) | (intro s h) | with_reducible apply State.setSram_quiet | with_reducible apply State.raise_quiet | (with_reducible refine foldl_quiet _ _ _ (fun s x h => ?_) ?_) | with_reducible apply quiet_ite | split | exact (fun _ => rfl) | (dsimp only) | exact ⟨h.kept, h.now, h.ids⟩)
theorem State.logSticky_quiet {s0 : State} {s : State} (k : Nat) (addr : Nat) (bit : Nat) (uncorr : Bool) (h : s0.Quiet s) :
    s0.Quiet (State.logSticky s k addr bit uncorr) := by
  unfold State.logSticky
  repeat' (first | with_reducible exact h | (intro f s h) | (intro s h) | with_reducible apply State.setSram_quiet | with_reducible apply State.raise_quiet | (with_reducible refine foldl_quiet _ _ _ (fun s x h => ?_) ?_) | with_reducible apply quiet_ite | split | exact (fun _ => rfl) | (dsimp only) | exact ⟨h.kept, h.now, h.ids⟩)
theorem State.noteError_quiet {s0 : State} {s : State} (k : Nat) (addr : Nat) (bit : Nat) (uncorr : Bool) (h : s0.Quiet s) :
    s0.Quiet (State.noteError s k addr bit uncorr) := by
  unfold State.noteError
  repeat' (first | with_reducible exact h | (intro f s h) | (intro s h) | with_reducible apply State.setSram_quiet | with_reducible apply State.advise_quiet | with_reducible apply State.logSticky_quiet | (with_reducible refine foldl_quiet _ _ _ (fun s x h => ?_) ?_) | with_reducible apply quiet_ite | split | exact (fun _ => rfl) | (dsimp only) | exact ⟨h.kept, h.now, h.ids⟩)
theorem State.writeAll_quiet {s0 : State} {s : State} (h : s0.Quiet s) :
    s0.Quiet (State.writeAll s) := by
  unfold State.writeAll
  repeat' (first | with_reducible exact h | (intro f s h) | (intro s h) | (with_reducible refine foldl_quiet _ _ _ (fun s x h => ?_) ?_) | with_reducible apply quiet_ite | split | exact (fun _ => rfl) | (dsimp only) | exact ⟨h.kept, h.now, h.ids⟩)
theorem State.demandError_quiet {s0 : State} {s : State} (k : Nat) (addr : Nat) (bit : Nat) (h : s0.Quiet s) :
    s0.Quiet (State.demandError s k addr bit) := by
  unfold State.demandError
  repeat' (first | with_reducible exact h | (intro f s h) | (intro s h) | with_reducible apply State.onSram_quiet | with_reducible apply State.noteError_quiet | (with_reducible refine foldl_quiet _ _ _ (fun s x h => ?_) ?_) | with_reducible apply quiet_ite | split | exact (fun _ => rfl) | (dsimp only) | exact ⟨h.kept, h.now, h.ids⟩)
theorem State.demandErrors_quiet {s0 : State} {s : State} (k : Nat) (es : List (Nat × Nat)) (h : s0.Quiet s) :
    s0.Quiet (State.demandErrors s k es) := by
  unfold State.demandErrors
  repeat' (first | with_reducible exact h | (intro f s h) | (intro s h) | with_reducible apply State.onSram_quiet | with_reducible apply State.demandError_quiet | (with_reducible refine foldl_quiet _ _ _ (fun s x h => ?_) ?_) | with_reducible apply quiet_ite | split | exact (fun _ => rfl) | (dsimp only) | exact ⟨h.kept, h.now, h.ids⟩)
theorem State.countUncorr_quiet {s0 : State} {s : State} (k : Nat) (addr : Nat) (kind : Nat) (h : s0.Quiet s) :
    s0.Quiet (State.countUncorr s k addr kind) := by
  unfold State.countUncorr
  repeat' (first | with_reducible exact h | (intro f s h) | (intro s h) | with_reducible apply State.raise_quiet | with_reducible apply State.onSram_quiet | with_reducible apply State.noteError_quiet | (with_reducible refine foldl_quiet _ _ _ (fun s x h => ?_) ?_) | with_reducible apply quiet_ite | split | exact (fun _ => rfl) | (dsimp only) | exact ⟨h.kept, h.now, h.ids⟩)
theorem State.stopTransfer_quiet {s0 : State} {s : State} (ring : Option Nat) (cmd : Option Nat) (h : s0.Quiet s) :
    s0.Quiet (State.stopTransfer s ring cmd) := by
  unfold State.stopTransfer
  repeat' (first | with_reducible exact h | (intro f s h) | (intro s h) | with_reducible apply State.finishOpt_quiet | with_reducible apply State.haltRing_quiet | (with_reducible refine foldl_quiet _ _ _ (fun s x h => ?_) ?_) | with_reducible apply quiet_ite | split | exact (fun _ => rfl) | (dsimp only) | exact ⟨h.kept, h.now, h.ids⟩)
theorem State.readRange_quiet {s0 s : State} (k a len : Nat) (new : List (Nat × Nat)) (h : s0.Quiet s) :
    s0.Quiet (s.readRange k a len new).1 := by
  unfold State.readRange
  refine foldl_quiet _ _ _ (fun s x h => ?_) (foldl_quiet _ _ _ (fun s x h => State.onSram_quiet _ _ h) h)
  split
  · exact State.demandError_quiet _ _ _ h
  · exact h
theorem State.dmaRead_quiet {s0 : State} {s : State} (f : Flight) (k : Nat) (a : Nat) (len : Nat) (new : List (Nat × Nat)) (go : State → State) (hk : ∀ s, s0.Quiet s → s0.Quiet (go s)) (h : s0.Quiet s) :
    s0.Quiet (State.dmaRead s f k a len new go) := by
  unfold State.dmaRead
  have r := State.readRange_quiet k a len new h
  split <;> rename_i e <;> rw [e] at r
  · exact hk _ r
  · exact State.stopTransfer_quiet _ _ (State.countUncorr_quiet _ _ _ r)
theorem State.rewrite_quiet {s0 : State} {s : State} (k : Nat) (a : Nat) (len : Nat) (h : s0.Quiet s) :
    s0.Quiet (State.rewrite s k a len) := by
  unfold State.rewrite
  repeat' (first | with_reducible exact h | (intro f s h) | (intro s h) | with_reducible apply State.onSram_quiet | with_reducible apply State.wrote_quiet | (with_reducible refine foldl_quiet _ _ _ (fun s x h => ?_) ?_) | with_reducible apply quiet_ite | split | exact (fun _ => rfl) | (dsimp only) | exact ⟨h.kept, h.now, h.ids⟩)
theorem State.visitMade_quiet {s0 : State} {s : State} (k : Nat) (h : s0.Quiet s) :
    s0.Quiet (State.visitMade s k) := by
  unfold State.visitMade
  repeat' (first | with_reducible exact h | (intro f s h) | (intro s h) | with_reducible apply State.at_quiet | with_reducible apply State.onSram_quiet | (with_reducible refine foldl_quiet _ _ _ (fun s x h => ?_) ?_) | with_reducible apply quiet_ite | split | exact (fun _ => rfl) | (dsimp only) | exact ⟨h.kept, h.now, h.ids⟩)
theorem State.scrubNext_quiet {s0 : State} {s : State} (k : Nat) (o : Nat) (h : s0.Quiet s) :
    s0.Quiet (State.scrubNext s k o) := by
  unfold State.scrubNext
  repeat' (first | with_reducible exact h | (intro f s h) | (intro s h) | with_reducible apply State.onSram_quiet | (with_reducible refine foldl_quiet _ _ _ (fun s x h => ?_) ?_) | with_reducible apply quiet_ite | split | exact (fun _ => rfl) | (dsimp only) | exact ⟨h.kept, h.now, h.ids⟩)
theorem State.scrubVisit_quiet {s0 : State} {s : State} (k : Nat) (bit : Option Nat) (newer : Bool) (h : s0.Quiet s) :
    s0.Quiet (State.scrubVisit s k bit newer) := by
  unfold State.scrubVisit
  repeat' (first | with_reducible exact h | (intro f s h) | (intro s h) | with_reducible apply State.onSram_quiet | with_reducible apply State.noteError_quiet | with_reducible apply State.countUncorr_quiet | with_reducible apply State.scrubNext_quiet | (with_reducible refine foldl_quiet _ _ _ (fun s x h => ?_) ?_) | with_reducible apply quiet_ite | split | exact (fun _ => rfl) | (dsimp only) | exact ⟨h.kept, h.now, h.ids⟩)
theorem State.writeEntry_quiet {s0 : State} {s : State} (b : Bool) (n : Nat) (e : BitVec 16) (h : s0.Quiet s) :
    s0.Quiet (State.writeEntry s b n e) := by
  unfold State.writeEntry
  repeat' (first | with_reducible exact h | (intro f s h) | (intro s h) | with_reducible apply State.onSl_quiet | (with_reducible refine foldl_quiet _ _ _ (fun s x h => ?_) ?_) | with_reducible apply quiet_ite | split | exact (fun _ => rfl) | (dsimp only) | exact ⟨h.kept, h.now, h.ids⟩)
theorem State.writeEntries_quiet {s0 : State} {s : State} (first : Nat) (n : Nat) (b : Bool) (ws : List Word) (h : s0.Quiet s) :
    s0.Quiet (State.writeEntries s first n b ws) := by
  unfold State.writeEntries
  repeat' (first | with_reducible exact h | (intro f s h) | (intro s h) | with_reducible apply State.refreshSlots_quiet | with_reducible apply State.writeEntry_quiet | (with_reducible refine foldl_quiet _ _ _ (fun s x h => ?_) ?_) | with_reducible apply quiet_ite | split | exact (fun _ => rfl) | (dsimp only) | exact ⟨h.kept, h.now, h.ids⟩)
theorem State.hubCommit_quiet {s0 : State} {s : State} (c : Nat) (h : s0.Quiet s) :
    s0.Quiet (State.hubCommit s c) := by
  unfold State.hubCommit
  repeat' (first | with_reducible exact h | (intro f s h) | (intro s h) | with_reducible apply State.onSl_quiet | (with_reducible refine foldl_quiet _ _ _ (fun s x h => ?_) ?_) | with_reducible apply quiet_ite | split | exact (fun _ => rfl) | (dsimp only) | exact ⟨h.kept, h.now, h.ids⟩)
theorem State.propose_quiet {s0 : State} {s : State} (f : Flight) (c : Nat) (g : Option Nat) (lead : Nat) (h : s0.Quiet s) :
    s0.Quiet (State.propose s f c g lead) := by
  unfold State.propose
  repeat' (first | with_reducible exact h | (intro f s h) | (intro s h) | with_reducible apply State.onChan_quiet | with_reducible apply State.run_quiet | with_reducible apply State.hubCommit_quiet | (with_reducible refine foldl_quiet _ _ _ (fun s x h => ?_) ?_) | with_reducible apply quiet_ite | split | exact (fun _ => rfl) | (dsimp only) | exact ⟨h.kept, h.now, h.ids⟩)
theorem State.lapseEvent_quiet {s0 : State} {s : State} (c : Nat) (reason : Nat) (h : s0.Quiet s) :
    s0.Quiet (State.lapseEvent s c reason) := by
  unfold State.lapseEvent
  repeat' (first | with_reducible exact h | (intro f s h) | (intro s h) | with_reducible apply State.raise_quiet | (with_reducible refine foldl_quiet _ _ _ (fun s x h => ?_) ?_) | with_reducible apply quiet_ite | split | exact (fun _ => rfl) | (dsimp only) | exact ⟨h.kept, h.now, h.ids⟩)
theorem State.bankReject_quiet {s0 : State} {s : State} (c : Nat) (reason : Nat) (mI : BitVec 32) (g : Option Nat) (h : s0.Quiet s) :
    s0.Quiet (State.bankReject s c reason mI g) := by
  unfold State.bankReject
  repeat' (first | with_reducible exact h | (intro f s h) | (intro s h) | with_reducible apply State.onSl_quiet | (with_reducible refine foldl_quiet _ _ _ (fun s x h => ?_) ?_) | with_reducible apply quiet_ite | split | exact (fun _ => rfl) | (dsimp only) | exact ⟨h.kept, h.now, h.ids⟩)
theorem State.answerBank_quiet {s0 : State} {s : State} (c : Nat) (g : Option Nat) (mI : BitVec 32) (crc : BitVec 32) (count : BitVec 32) (h : s0.Quiet s) :
    s0.Quiet (State.answerBank s c g mI crc count) := by
  unfold State.answerBank
  repeat' (first | with_reducible exact h | (intro f s h) | (intro s h) | with_reducible apply State.onSl_quiet | with_reducible apply State.bankReject_quiet | (with_reducible refine foldl_quiet _ _ _ (fun s x h => ?_) ?_) | with_reducible apply quiet_ite | split | exact (fun _ => rfl) | (dsimp only) | exact ⟨h.kept, h.now, h.ids⟩)
theorem State.bankAccepted_quiet {s0 : State} {s : State} (c : Nat) (p : BankProposal) (mR : BitVec 32) (h : s0.Quiet s) :
    s0.Quiet (State.bankAccepted s c p mR) := by
  unfold State.bankAccepted
  repeat' (first | with_reducible exact h | (intro f s h) | (intro s h) | with_reducible apply State.onSl_quiet | (with_reducible refine foldl_quiet _ _ _ (fun s x h => ?_) ?_) | with_reducible apply quiet_ite | split | exact (fun _ => rfl) | (dsimp only) | exact ⟨h.kept, h.now, h.ids⟩)
theorem State.bankPropose_quiet {s0 : State} {s : State} (c : Nat) (g : Option Nat) (mI : BitVec 32) (crc : BitVec 32) (count : BitVec 32) (h : s0.Quiet s) :
    s0.Quiet (State.bankPropose s c g mI crc count) := by
  unfold State.bankPropose
  repeat' (first | with_reducible exact h | (intro f s h) | (intro s h) | with_reducible apply State.onSl_quiet | with_reducible apply State.finishOpt_quiet | with_reducible apply State.lapseEvent_quiet | with_reducible apply State.bankReject_quiet | with_reducible apply State.answerBank_quiet | with_reducible apply State.bankAccepted_quiet | (with_reducible refine foldl_quiet _ _ _ (fun s x h => ?_) ?_) | with_reducible apply quiet_ite | split | exact (fun _ => rfl) | (dsimp only) | exact ⟨h.kept, h.now, h.ids⟩)
theorem State.bankMessage_quiet {s0 : State} {s : State} (c : Nat) (w8 : Word) (w9 : Word) (count : BitVec 32) (h : s0.Quiet s) :
    s0.Quiet (State.bankMessage s c w8 w9 count) := by
  unfold State.bankMessage
  repeat' (first | with_reducible exact h | (intro f s h) | (intro s h) | with_reducible apply State.onSl_quiet | with_reducible apply State.finishOpt_quiet | with_reducible apply State.lapseEvent_quiet | with_reducible apply State.bankAccepted_quiet | with_reducible apply State.bankPropose_quiet | (with_reducible refine foldl_quiet _ _ _ (fun s x h => ?_) ?_) | with_reducible apply quiet_ite | split | exact (fun _ => rfl) | (dsimp only) | exact ⟨h.kept, h.now, h.ids⟩)
theorem State.bankDone_quiet {s0 : State} {s : State} (c : Nat) (h : s0.Quiet s) :
    s0.Quiet (State.bankDone s c) := by
  unfold State.bankDone
  repeat' (first | with_reducible exact h | (intro f s h) | (intro s h) | with_reducible apply State.onSl_quiet | with_reducible apply State.finishOpt_quiet | (with_reducible refine foldl_quiet _ _ _ (fun s x h => ?_) ?_) | with_reducible apply quiet_ite | split | exact (fun _ => rfl) | (dsimp only) | exact ⟨h.kept, h.now, h.ids⟩)
theorem State.bankIndicator_quiet {s0 : State} {s : State} (c : Nat) (sw : Bool) (count : BitVec 32) (h : s0.Quiet s) :
    s0.Quiet (State.bankIndicator s c sw count) := by
  unfold State.bankIndicator
  repeat' (first | with_reducible exact h | (intro f s h) | (intro s h) | with_reducible apply State.onSl_quiet | with_reducible apply State.lapseEvent_quiet | with_reducible apply State.bankDone_quiet | (with_reducible refine foldl_quiet _ _ _ (fun s x h => ?_) ?_) | with_reducible apply quiet_ite | split | exact (fun _ => rfl) | (dsimp only) | exact ⟨h.kept, h.now, h.ids⟩)
theorem State.takeRates_quiet {s0 : State} {s : State} (c : Nat) (lowerOnly : Bool) (h : s0.Quiet s) :
    s0.Quiet (State.takeRates s c lowerOnly) := by
  unfold State.takeRates
  repeat' (first | with_reducible exact h | (intro f s h) | (intro s h) | with_reducible apply State.onTrib_quiet | (with_reducible refine foldl_quiet _ _ _ (fun s x h => ?_) ?_) | with_reducible apply quiet_ite | split | exact (fun _ => rfl) | (dsimp only) | exact ⟨h.kept, h.now, h.ids⟩)
theorem State.flipBank_quiet {s0 : State} {s : State} (c : Nat) (m : BitVec 32) (h : s0.Quiet s) :
    s0.Quiet (State.flipBank s c m) := by
  unfold State.flipBank
  repeat' (first | with_reducible exact h | (intro f s h) | (intro s h) | with_reducible apply State.onSl_quiet | with_reducible apply State.takeRates_quiet | (with_reducible refine foldl_quiet _ _ _ (fun s x h => ?_) ?_) | with_reducible apply quiet_ite | split | exact (fun _ => rfl) | (dsimp only) | exact ⟨h.kept, h.now, h.ids⟩)
theorem State.bankSwitchNow_quiet {s0 : State} {s : State} (c : Nat) (g : Option Nat) (m : BitVec 32) (h : s0.Quiet s) :
    s0.Quiet (State.bankSwitchNow s c g m) := by
  unfold State.bankSwitchNow
  repeat' (first | with_reducible exact h | (intro f s h) | (intro s h) | with_reducible apply State.raise_quiet | with_reducible apply State.onSl_quiet | with_reducible apply State.refreshSlots_quiet | with_reducible apply State.bankDone_quiet | with_reducible apply State.flipBank_quiet | (with_reducible refine foldl_quiet _ _ _ (fun s x h => ?_) ?_) | with_reducible apply quiet_ite | split | exact (fun _ => rfl) | (dsimp only) | exact ⟨h.kept, h.now, h.ids⟩)
theorem State.bankSettle_quiet {s0 : State} {s : State} (c : Nat) (h : s0.Quiet s) :
    s0.Quiet (State.bankSettle s c) := by
  unfold State.bankSettle
  repeat' (first | with_reducible exact h | (intro f s h) | (intro s h) | with_reducible apply State.onSl_quiet | with_reducible apply State.onTrib_quiet | (with_reducible refine foldl_quiet _ _ _ (fun s x h => ?_) ?_) | with_reducible apply quiet_ite | split | exact (fun _ => rfl) | (dsimp only) | exact ⟨h.kept, h.now, h.ids⟩)
theorem State.bankTurn_quiet {s0 : State} {s : State} (c : Nat) (h : s0.Quiet s) :
    s0.Quiet (State.bankTurn s c) := by
  unfold State.bankTurn
  repeat' (first | with_reducible exact h | (intro f s h) | (intro s h) | with_reducible apply State.bankSwitchNow_quiet | (with_reducible refine foldl_quiet _ _ _ (fun s x h => ?_) ?_) | with_reducible apply quiet_ite | split | exact (fun _ => rfl) | (dsimp only) | exact ⟨h.kept, h.now, h.ids⟩)
theorem State.disarm_quiet {s0 : State} {s : State} (c : Nat) (h : s0.Quiet s) :
    s0.Quiet (State.disarm s c) := by
  unfold State.disarm
  repeat' (first | with_reducible exact h | (intro f s h) | (intro s h) | with_reducible apply State.onSl_quiet | (with_reducible refine foldl_quiet _ _ _ (fun s x h => ?_) ?_) | with_reducible apply quiet_ite | split | exact (fun _ => rfl) | (dsimp only) | exact ⟨h.kept, h.now, h.ids⟩)
theorem State.bankSent_quiet {s0 : State} {s : State} (c : Nat) (displaced : Bool) (h : s0.Quiet s) :
    s0.Quiet (State.bankSent s c displaced) := by
  unfold State.bankSent
  repeat' (first | with_reducible exact h | (intro f s h) | (intro s h) | with_reducible apply State.onSl_quiet | (with_reducible refine foldl_quiet _ _ _ (fun s x h => ?_) ?_) | with_reducible apply quiet_ite | split | exact (fun _ => rfl) | (dsimp only) | exact ⟨h.kept, h.now, h.ids⟩)
theorem State.alignFrames_quiet {s0 : State} {s : State} (cs : List Nat) (h : s0.Quiet s) :
    s0.Quiet (State.alignFrames s cs) := by
  unfold State.alignFrames
  repeat' (first | with_reducible exact h | (intro f s h) | (intro s h) | with_reducible apply State.onChan_quiet | (with_reducible refine foldl_quiet _ _ _ (fun s x h => ?_) ?_) | with_reducible apply quiet_ite | split | exact (fun _ => rfl) | (dsimp only) | exact ⟨h.kept, h.now, h.ids⟩)
theorem State.loseMessage_quiet {s0 : State} {s : State} (c : Nat) (seq : BitVec 16) (cause : Nat) (by_ : Option Nat) (h : s0.Quiet s) :
    s0.Quiet (State.loseMessage s c seq cause by_) := by
  unfold State.loseMessage
  repeat' (first | with_reducible exact h | (intro f s h) | (intro s h) | with_reducible apply State.raise_quiet | with_reducible apply State.onChan_quiet | (with_reducible refine foldl_quiet _ _ _ (fun s x h => ?_) ?_) | with_reducible apply quiet_ite | split | exact (fun _ => rfl) | (dsimp only) | exact ⟨h.kept, h.now, h.ids⟩)
theorem State.breakMessage_quiet {s0 : State} {s : State} (c : Nat) (cause : Nat) (by_ : Option Nat) (h : s0.Quiet s) :
    s0.Quiet (State.breakMessage s c cause by_) := by
  unfold State.breakMessage
  repeat' (first | with_reducible exact h | (intro f s h) | (intro s h) | with_reducible apply State.loseMessage_quiet | (with_reducible refine foldl_quiet _ _ _ (fun s x h => ?_) ?_) | with_reducible apply quiet_ite | split | exact (fun _ => rfl) | (dsimp only) | exact ⟨h.kept, h.now, h.ids⟩)
theorem State.reconverged_quiet {s0 : State} {s : State} (c : Nat) (peak : Nat) (cause : Option Nat) (h : s0.Quiet s) :
    s0.Quiet (State.reconverged s c peak cause) := by
  unfold State.reconverged
  repeat' (first | with_reducible exact h | (intro f s h) | (intro s h) | with_reducible apply State.raise_quiet | with_reducible apply State.onChan_quiet | (with_reducible refine foldl_quiet _ _ _ (fun s x h => ?_) ?_) | with_reducible apply quiet_ite | split | exact (fun _ => rfl) | (dsimp only) | exact ⟨h.kept, h.now, h.ids⟩)
theorem State.cutMultiframe_quiet {s0 : State} {s : State} (c : Nat) (cause : Option Nat) (h : s0.Quiet s) :
    s0.Quiet (State.cutMultiframe s c cause) := by
  unfold State.cutMultiframe
  repeat' (first | with_reducible exact h | (intro f s h) | (intro s h) | with_reducible apply State.draw_quiet | with_reducible apply State.reconverged_quiet | (with_reducible refine foldl_quiet _ _ _ (fun s x h => ?_) ?_) | with_reducible apply quiet_ite | split | exact (fun _ => rfl) | (dsimp only) | exact ⟨h.kept, h.now, h.ids⟩)
theorem State.enterSearch_quiet {s0 : State} {s : State} (c : Nat) (cause : Option Nat) (h : s0.Quiet s) :
    s0.Quiet (State.enterSearch s c cause) := by
  unfold State.enterSearch
  repeat' (first | with_reducible exact h | (intro f s h) | (intro s h) | with_reducible apply State.raise_quiet | with_reducible apply State.onChan_quiet | with_reducible apply State.breakMessage_quiet | with_reducible apply State.cutMultiframe_quiet | (with_reducible refine foldl_quiet _ _ _ (fun s x h => ?_) ?_) | with_reducible apply quiet_ite | split | exact (fun _ => rfl) | (dsimp only) | exact ⟨h.kept, h.now, h.ids⟩)
theorem State.failMember_quiet {s0 : State} {s : State} (g : Nat) (c : Nat) (h : s0.Quiet s) :
    s0.Quiet (State.failMember s g c) := by
  unfold State.failMember
  repeat' (first | with_reducible exact h | (intro f s h) | (intro s h) | with_reducible apply State.failTrib_quiet | (with_reducible refine foldl_quiet _ _ _ (fun s x h => ?_) ?_) | with_reducible apply quiet_ite | split | exact (fun _ => rfl) | (dsimp only) | exact ⟨h.kept, h.now, h.ids⟩)
theorem State.alignGroup_quiet {s0 : State} {s : State} (g : Nat) (h : s0.Quiet s) :
    s0.Quiet (State.alignGroup s g) := by
  unfold State.alignGroup
  repeat' (first | with_reducible exact h | (intro f s h) | (intro s h) | with_reducible apply State.setGroup_quiet | with_reducible apply State.raise_quiet | with_reducible apply State.onGroup_quiet | (with_reducible refine foldl_quiet _ _ _ (fun s x h => ?_) ?_) | with_reducible apply quiet_ite | split | exact (fun _ => rfl) | (dsimp only) | exact ⟨h.kept, h.now, h.ids⟩)
theorem State.lookMember_quiet {s0 : State} {s : State} (g : Nat) (cause : Option Nat) (c : Nat) (h : s0.Quiet s) :
    s0.Quiet (State.lookMember s g cause c) := by
  unfold State.lookMember
  repeat' (first | with_reducible exact h | (intro f s h) | (intro s h) | with_reducible apply State.raise_quiet | with_reducible apply State.onChan_quiet | with_reducible apply State.failMember_quiet | (with_reducible refine foldl_quiet _ _ _ (fun s x h => ?_) ?_) | with_reducible apply quiet_ite | split | exact (fun _ => rfl) | (dsimp only) | exact ⟨h.kept, h.now, h.ids⟩)
theorem State.groupWindow_quiet {s0 : State} {s : State} (g : Nat) (cause : Option Nat) (h : s0.Quiet s) :
    s0.Quiet (State.groupWindow s g cause) := by
  unfold State.groupWindow
  repeat' (first | with_reducible exact h | (intro f s h) | (intro s h) | with_reducible apply State.onGroup_quiet | with_reducible apply State.alignGroup_quiet | with_reducible apply State.lookMember_quiet | (with_reducible refine foldl_quiet _ _ _ (fun s x h => ?_) ?_) | with_reducible apply quiet_ite | split | exact (fun _ => rfl) | (dsimp only) | exact ⟨h.kept, h.now, h.ids⟩)
theorem State.withGroups_quiet {s0 s : State} (x : Sparse Group) (h : s0.Quiet s) : s0.Quiet { s with groups := x } :=
  ⟨h.kept, h.now, h.ids⟩
theorem State.dissolve_quiet {s0 : State} {s : State} (g : Nat) (h : s0.Quiet s) :
    s0.Quiet (State.dissolve s g) := by
  unfold State.dissolve
  refine State.restateAll_quiet _ _ _ (foldl_quiet _ _ _
    (fun s _ h => State.enterSearch_quiet _ _ (State.onChan_quiet _ _ h)) (State.withGroups_quiet _ ?_))
  exact foldl_quiet _ _ _ (fun s x h => quiet_ite (State.onChan_quiet _ _ h) h) h
theorem State.lapse_quiet {s0 : State} {s : State} (c : Nat) (cause : Nat) (seq : BitVec 16) (h : s0.Quiet s) :
    s0.Quiet (State.lapse s c cause seq) := by
  unfold State.lapse
  repeat' (first | with_reducible exact h | (intro f s h) | (intro s h) | with_reducible apply State.raise_quiet | (with_reducible refine foldl_quiet _ _ _ (fun s x h => ?_) ?_) | with_reducible apply quiet_ite | split | exact (fun _ => rfl) | (dsimp only) | exact ⟨h.kept, h.now, h.ids⟩)
theorem State.lxSwitched_quiet {s0 : State} {s : State} (c : Nat) (tx : Bool) (prof : Bool) (m : BitVec 32) (h : s0.Quiet s) :
    s0.Quiet (State.lxSwitched s c tx prof m) := by
  unfold State.lxSwitched
  repeat' (first | with_reducible exact h | (intro f s h) | (intro s h) | with_reducible apply State.raise_quiet | (with_reducible refine foldl_quiet _ _ _ (fun s x h => ?_) ?_) | with_reducible apply quiet_ite | split | exact (fun _ => rfl) | (dsimp only) | exact ⟨h.kept, h.now, h.ids⟩)
theorem State.lxPropose_quiet {s0 : State} {s : State} (c : Nat) (p : LxProposal) (far : Nat) (h : s0.Quiet s) :
    s0.Quiet (State.lxPropose s c p far) := by
  unfold State.lxPropose
  repeat' (first | with_reducible exact h | (intro f s h) | (intro s h) | with_reducible apply State.onLd_quiet | (with_reducible refine foldl_quiet _ _ _ (fun s x h => ?_) ?_) | with_reducible apply quiet_ite | split | exact (fun _ => rfl) | (dsimp only) | exact ⟨h.kept, h.now, h.ids⟩)
theorem State.lxEnds_quiet {s0 : State} {s : State} (c : Nat) (p : LxProposal) (st : Nat) (r2 : Option Nat) (reason : Nat) (h : s0.Quiet s) :
    s0.Quiet (State.lxEnds s c p st r2 reason) := by
  unfold State.lxEnds
  repeat' (first | with_reducible exact h | (intro f s h) | (intro s h) | with_reducible apply State.raise_quiet | with_reducible apply State.onLd_quiet | with_reducible apply State.finishOpt_quiet | (with_reducible refine foldl_quiet _ _ _ (fun s x h => ?_) ?_) | with_reducible apply quiet_ite | split | exact (fun _ => rfl) | (dsimp only) | exact ⟨h.kept, h.now, h.ids⟩)
theorem State.lxAgain_quiet {s0 : State} {s : State} (c : Nat) (p : LxProposal) (h : s0.Quiet s) :
    s0.Quiet (State.lxAgain s c p) := by
  unfold State.lxAgain
  repeat' (first | with_reducible exact h | (intro f s h) | (intro s h) | with_reducible apply State.onLd_quiet | with_reducible apply State.lxPropose_quiet | (with_reducible refine foldl_quiet _ _ _ (fun s x h => ?_) ?_) | with_reducible apply quiet_ite | split | exact (fun _ => rfl) | (dsimp only) | exact ⟨h.kept, h.now, h.ids⟩)
theorem State.agreementLapse_quiet {s0 : State} {s : State} (c : Nat) (h : s0.Quiet s) :
    s0.Quiet (State.agreementLapse s c) := by
  unfold State.agreementLapse
  repeat' (first | with_reducible exact h | (intro f s h) | (intro s h) | with_reducible apply State.onLd_quiet | with_reducible apply State.lapse_quiet | (with_reducible refine foldl_quiet _ _ _ (fun s x h => ?_) ?_) | with_reducible apply quiet_ite | split | exact (fun _ => rfl) | (dsimp only) | exact ⟨h.kept, h.now, h.ids⟩)
theorem State.lxStop_quiet {s0 : State} {s : State} (c : Nat) (h : s0.Quiet s) :
    s0.Quiet (State.lxStop s c) := by
  unfold State.lxStop
  repeat' (first | with_reducible exact h | (intro f s h) | (intro s h) | with_reducible apply State.lxEnds_quiet | with_reducible apply State.agreementLapse_quiet | (with_reducible refine foldl_quiet _ _ _ (fun s x h => ?_) ?_) | with_reducible apply quiet_ite | split | exact (fun _ => rfl) | (dsimp only) | exact ⟨h.kept, h.now, h.ids⟩)
theorem State.lxStart_quiet {s0 : State} {s : State} (f : Flight) (lead : Nat) (x : LxContent) (h : s0.Quiet s) :
    s0.Quiet (State.lxStart s f lead x) := by
  unfold State.lxStart
  repeat' (first | with_reducible exact h | (intro f s h) | (intro s h) | with_reducible apply State.run_quiet | with_reducible apply State.lxPropose_quiet | (with_reducible refine foldl_quiet _ _ _ (fun s x h => ?_) ?_) | with_reducible apply quiet_ite | split | exact (fun _ => rfl) | (dsimp only) | exact ⟨h.kept, h.now, h.ids⟩)
theorem State.announce_quiet {s0 : State} {s : State} (f : Flight) (lead : Nat) (x : LoadSet) (h : s0.Quiet s) :
    s0.Quiet (State.announce s f lead x) := by
  unfold State.announce
  repeat' (first | with_reducible exact h | (intro f s h) | (intro s h) | with_reducible apply State.onChan_quiet | with_reducible apply State.run_quiet | (with_reducible refine foldl_quiet _ _ _ (fun s x h => ?_) ?_) | with_reducible apply quiet_ite | split | exact (fun _ => rfl) | (dsimp only) | exact ⟨h.kept, h.now, h.ids⟩)
theorem State.loadChange_quiet {s0 : State} {s : State} (f : Flight) (lead : Nat) (x : LxContent) (h : s0.Quiet s) :
    s0.Quiet (State.loadChange s f lead x) := by
  unfold State.loadChange
  repeat' (first | with_reducible exact h | (intro f s h) | (intro s h) | with_reducible apply State.finish_quiet | with_reducible apply State.lxStart_quiet | with_reducible apply State.announce_quiet | (with_reducible refine foldl_quiet _ _ _ (fun s x h => ?_) ?_) | with_reducible apply quiet_ite | split | exact (fun _ => rfl) | (dsimp only) | exact ⟨h.kept, h.now, h.ids⟩)
theorem State.lxDone_quiet {s0 : State} {s : State} (c : Nat) (h : s0.Quiet s) :
    s0.Quiet (State.lxDone s c) := by
  unfold State.lxDone
  repeat' (first | with_reducible exact h | (intro f s h) | (intro s h) | with_reducible apply State.raise_quiet | with_reducible apply State.onLd_quiet | with_reducible apply State.onChan_quiet | with_reducible apply State.finishOpt_quiet | (with_reducible refine foldl_quiet _ _ _ (fun s x h => ?_) ?_) | with_reducible apply quiet_ite | split | exact (fun _ => rfl) | (dsimp only) | exact ⟨h.kept, h.now, h.ids⟩)
theorem State.lxTxSwitch_quiet {s0 : State} {s : State} (c : Nat) (m : BitVec 32) (h : s0.Quiet s) :
    s0.Quiet (State.lxTxSwitch s c m) := by
  unfold State.lxTxSwitch
  repeat' (first | with_reducible exact h | (intro f s h) | (intro s h) | with_reducible apply State.onChan_quiet | with_reducible apply State.lxSwitched_quiet | with_reducible apply State.lxDone_quiet | (with_reducible refine foldl_quiet _ _ _ (fun s x h => ?_) ?_) | with_reducible apply quiet_ite | split | exact (fun _ => rfl) | (dsimp only) | exact ⟨h.kept, h.now, h.ids⟩)
theorem State.lxRxSwitch_quiet {s0 : State} {s : State} (c : Nat) (m : BitVec 32) (h : s0.Quiet s) :
    s0.Quiet (State.lxRxSwitch s c m) := by
  unfold State.lxRxSwitch
  repeat' (first | with_reducible exact h | (intro f s h) | (intro s h) | with_reducible apply State.onChan_quiet | with_reducible apply State.lxSwitched_quiet | with_reducible apply State.lxDone_quiet | (with_reducible refine foldl_quiet _ _ _ (fun s x h => ?_) ?_) | with_reducible apply quiet_ite | split | exact (fun _ => rfl) | (dsimp only) | exact ⟨h.kept, h.now, h.ids⟩)
theorem State.ownOver_quiet {s0 : State} {s : State} (c : Nat) (h : s0.Quiet s) :
    s0.Quiet (State.ownOver s c) := by
  unfold State.ownOver
  repeat' (first | with_reducible exact h | (intro f s h) | (intro s h) | with_reducible apply State.lxEnds_quiet | (with_reducible refine foldl_quiet _ _ _ (fun s x h => ?_) ?_) | with_reducible apply quiet_ite | split | exact (fun _ => rfl) | (dsimp only) | exact ⟨h.kept, h.now, h.ids⟩)
theorem State.downstreamBoundary_quiet {s0 : State} {s : State} (c : Nat) (h : s0.Quiet s) :
    s0.Quiet (State.downstreamBoundary s c) := by
  unfold State.downstreamBoundary
  repeat' (first | with_reducible exact h | (intro f s h) | (intro s h) | with_reducible apply State.onChan_quiet | with_reducible apply State.finishOpt_quiet | with_reducible apply State.lxSwitched_quiet | (with_reducible refine foldl_quiet _ _ _ (fun s x h => ?_) ?_) | with_reducible apply quiet_ite | split | exact (fun _ => rfl) | (dsimp only) | exact ⟨h.kept, h.now, h.ids⟩)
theorem State.lxBoundary_quiet {s0 : State} {s : State} (c : Nat) (h : s0.Quiet s) :
    s0.Quiet (State.lxBoundary s c) := by
  unfold State.lxBoundary
  repeat' (first | with_reducible exact h | (intro f s h) | (intro s h) | with_reducible apply State.lapse_quiet | with_reducible apply State.lxAgain_quiet | with_reducible apply State.lxDone_quiet | with_reducible apply State.lxTxSwitch_quiet | with_reducible apply State.ownOver_quiet | (with_reducible refine foldl_quiet _ _ _ (fun s x h => ?_) ?_) | with_reducible apply quiet_ite | split | exact (fun _ => rfl) | (dsimp only) | exact ⟨h.kept, h.now, h.ids⟩)
theorem State.indUnexpected_quiet {s0 : State} {s : State} (c : Nat) (odd : Bool) (h : s0.Quiet s) :
    s0.Quiet (State.indUnexpected s c odd) := by
  unfold State.indUnexpected
  repeat' (first | with_reducible exact h | (intro f s h) | (intro s h) | with_reducible apply State.raise_quiet | with_reducible apply State.onLd_quiet | (with_reducible refine foldl_quiet _ _ _ (fun s x h => ?_) ?_) | with_reducible apply quiet_ite | split | exact (fun _ => rfl) | (dsimp only) | exact ⟨h.kept, h.now, h.ids⟩)
theorem State.lxParity_quiet {s0 : State} {s : State} (c : Nat) (odd : Option Bool) (n : Option (BitVec 32 × Nat)) (h : s0.Quiet s) :
    s0.Quiet (State.lxParity s c odd n) := by
  unfold State.lxParity
  repeat' (first | with_reducible exact h | (intro f s h) | (intro s h) | with_reducible apply State.onLd_quiet | with_reducible apply State.indUnexpected_quiet | (with_reducible refine foldl_quiet _ _ _ (fun s x h => ?_) ?_) | with_reducible apply quiet_ite | split | exact (fun _ => rfl) | (dsimp only) | exact ⟨h.kept, h.now, h.ids⟩)
theorem State.lxAdopt_quiet {s0 : State} {s : State} (c : Nat) (m : BitVec 32) (h : s0.Quiet s) :
    s0.Quiet (State.lxAdopt s c m) := by
  unfold State.lxAdopt
  repeat' (first | with_reducible exact h | (intro f s h) | (intro s h) | with_reducible apply State.lxRxSwitch_quiet | (with_reducible refine foldl_quiet _ _ _ (fun s x h => ?_) ?_) | with_reducible apply quiet_ite | split | exact (fun _ => rfl) | (dsimp only) | exact ⟨h.kept, h.now, h.ids⟩)
theorem State.lxReceived_quiet {s0 : State} {s : State} (c : Nat) (m : BitVec 32) (h : s0.Quiet s) :
    s0.Quiet (State.lxReceived s c m) := by
  unfold State.lxReceived
  repeat' (first | with_reducible exact h | (intro f s h) | (intro s h) | with_reducible apply State.onLd_quiet | with_reducible apply State.lapse_quiet | with_reducible apply State.lxAgain_quiet | (with_reducible refine foldl_quiet _ _ _ (fun s x h => ?_) ?_) | with_reducible apply quiet_ite | split | exact (fun _ => rfl) | (dsimp only) | exact ⟨h.kept, h.now, h.ids⟩)
theorem State.lxReject_quiet {s0 : State} {s : State} (c : Nat) (reason : Nat) (seq : BitVec 16) (mI : BitVec 32) (profile : Option Bool) (h : s0.Quiet s) :
    s0.Quiet (State.lxReject s c reason seq mI profile) := by
  unfold State.lxReject
  repeat' (first | with_reducible exact h | (intro f s h) | (intro s h) | with_reducible apply State.raise_quiet | with_reducible apply State.onLd_quiet | (with_reducible refine foldl_quiet _ _ _ (fun s x h => ?_) ?_) | with_reducible apply quiet_ite | split | exact (fun _ => rfl) | (dsimp only) | exact ⟨h.kept, h.now, h.ids⟩)
theorem State.lxAnswer_quiet {s0 : State} {s : State} (c : Nat) (ws : List Word) (count : BitVec 32) (h : s0.Quiet s) :
    s0.Quiet (State.lxAnswer s c ws count) := by
  unfold State.lxAnswer
  repeat' (first | with_reducible exact h | (intro f s h) | (intro s h) | with_reducible apply State.raise_quiet | with_reducible apply State.onLd_quiet | with_reducible apply State.lxReject_quiet | (with_reducible refine foldl_quiet _ _ _ (fun s x h => ?_) ?_) | with_reducible apply quiet_ite | split | exact (fun _ => rfl) | (dsimp only) | exact ⟨h.kept, h.now, h.ids⟩)
theorem State.lxProposed_quiet {s0 : State} {s : State} (c : Nat) (ws : List Word) (count : BitVec 32) (h : s0.Quiet s) :
    s0.Quiet (State.lxProposed s c ws count) := by
  unfold State.lxProposed
  repeat' (first | with_reducible exact h | (intro f s h) | (intro s h) | with_reducible apply State.onLd_quiet | with_reducible apply State.lxEnds_quiet | with_reducible apply State.lxReject_quiet | with_reducible apply State.lxAnswer_quiet | (with_reducible refine foldl_quiet _ _ _ (fun s x h => ?_) ?_) | with_reducible apply quiet_ite | split | exact (fun _ => rfl) | (dsimp only) | exact ⟨h.kept, h.now, h.ids⟩)
theorem State.lxAccepted_quiet {s0 : State} {s : State} (c : Nat) (p : LxProposal) (mR : BitVec 32) (h : s0.Quiet s) :
    s0.Quiet (State.lxAccepted s c p mR) := by
  unfold State.lxAccepted
  repeat' (first | with_reducible exact h | (intro f s h) | (intro s h) | with_reducible apply State.onLd_quiet | with_reducible apply State.lapse_quiet | with_reducible apply State.lxAgain_quiet | (with_reducible refine foldl_quiet _ _ _ (fun s x h => ?_) ?_) | with_reducible apply quiet_ite | split | exact (fun _ => rfl) | (dsimp only) | exact ⟨h.kept, h.now, h.ids⟩)
theorem State.lxMessage_quiet {s0 : State} {s : State} (c : Nat) (ws : List Word) (count : BitVec 32) (h : s0.Quiet s) :
    s0.Quiet (State.lxMessage s c ws count) := by
  unfold State.lxMessage
  repeat' (first | with_reducible exact h | (intro f s h) | (intro s h) | with_reducible apply State.onLd_quiet | with_reducible apply State.lxEnds_quiet | with_reducible apply State.lxProposed_quiet | with_reducible apply State.lxAccepted_quiet | (with_reducible refine foldl_quiet _ _ _ (fun s x h => ?_) ?_) | with_reducible apply quiet_ite | split | exact (fun _ => rfl) | (dsimp only) | exact ⟨h.kept, h.now, h.ids⟩)
theorem State.lxSent_quiet {s0 : State} {s : State} (c : Nat) (h : s0.Quiet s) :
    s0.Quiet (State.lxSent s c) := by
  unfold State.lxSent
  repeat' (first | with_reducible exact h | (intro f s h) | (intro s h) | with_reducible apply State.onLd_quiet | (with_reducible refine foldl_quiet _ _ _ (fun s x h => ?_) ?_) | with_reducible apply quiet_ite | split | exact (fun _ => rfl) | (dsimp only) | exact ⟨h.kept, h.now, h.ids⟩)
theorem State.calTell_quiet {s0 : State} {s : State} (c : Nat) (tx : Bool) (outcome : Nat) (h : s0.Quiet s) :
    s0.Quiet (State.calTell s c tx outcome) := by
  unfold State.calTell
  repeat' (first | with_reducible exact h | (intro f s h) | (intro s h) | with_reducible apply State.onCal_quiet | with_reducible apply State.finishId_quiet | (with_reducible refine foldl_quiet _ _ _ (fun s x h => ?_) ?_) | with_reducible apply quiet_ite | split | exact (fun _ => rfl) | (dsimp only) | exact ⟨h.kept, h.now, h.ids⟩)
theorem State.calStart_quiet {s0 : State} {s : State} (c : Nat) (tx : Bool) (initial : Bool) (response : Bool) (h : s0.Quiet s) :
    s0.Quiet (State.calStart s c tx initial response) := by
  unfold State.calStart
  repeat' (first | with_reducible exact h | (intro f s h) | (intro s h) | with_reducible apply State.onCal_quiet | (with_reducible refine foldl_quiet _ _ _ (fun s x h => ?_) ?_) | with_reducible apply quiet_ite | split | exact (fun _ => rfl) | (dsimp only) | exact ⟨h.kept, h.now, h.ids⟩)
theorem State.startTxCal_quiet {s0 : State} {s : State} (c : Nat) (h : s0.Quiet s) :
    s0.Quiet (State.startTxCal s c) := by
  unfold State.startTxCal
  repeat' (first | with_reducible exact h | (intro f s h) | (intro s h) | with_reducible apply State.onCal_quiet | with_reducible apply State.calStart_quiet | (with_reducible refine foldl_quiet _ _ _ (fun s x h => ?_) ?_) | with_reducible apply quiet_ite | split | exact (fun _ => rfl) | (dsimp only) | exact ⟨h.kept, h.now, h.ids⟩)
theorem State.calAgain_quiet {s0 : State} {s : State} (c : Nat) (tx : Bool) (h : s0.Quiet s) :
    s0.Quiet (State.calAgain s c tx) := by
  unfold State.calAgain
  repeat' (first | with_reducible exact h | (intro f s h) | (intro s h) | with_reducible apply State.onCal_quiet | with_reducible apply State.run_quiet | with_reducible apply State.calStart_quiet | (with_reducible refine foldl_quiet _ _ _ (fun s x h => ?_) ?_) | with_reducible apply quiet_ite | split | exact (fun _ => rfl) | (dsimp only) | exact ⟨h.kept, h.now, h.ids⟩)
theorem State.calNext_quiet {s0 : State} {s : State} (c : Nat) (tx : Bool) (r : CalRun) (slewed : Bool) (due : Bool) (response : Bool) (h : s0.Quiet s) :
    s0.Quiet (State.calNext s c tx r slewed due response) := by
  unfold State.calNext
  repeat' (first | with_reducible exact h | (intro f s h) | (intro s h) | with_reducible apply State.calStart_quiet | with_reducible apply State.calAgain_quiet | (with_reducible refine foldl_quiet _ _ _ (fun s x h => ?_) ?_) | with_reducible apply quiet_ite | split | exact (fun _ => rfl) | (dsimp only) | exact ⟨h.kept, h.now, h.ids⟩)
theorem State.calResume_quiet {s0 : State} {s : State} (c : Nat) (tx : Bool) (h : s0.Quiet s) :
    s0.Quiet (State.calResume s c tx) := by
  unfold State.calResume
  repeat' (first | with_reducible exact h | (intro f s h) | (intro s h) | with_reducible apply State.run_quiet | with_reducible apply State.calStart_quiet | (with_reducible refine foldl_quiet _ _ _ (fun s x h => ?_) ?_) | with_reducible apply quiet_ite | split | exact (fun _ => rfl) | (dsimp only) | exact ⟨h.kept, h.now, h.ids⟩)
theorem State.calEvent_quiet {s0 : State} {s : State} (c : Nat) (tx : Bool) (reason : Nat) (n : Nat) (sev : Nat) (cause : Option Nat) (h : s0.Quiet s) :
    s0.Quiet (State.calEvent s c tx reason n sev cause) := by
  unfold State.calEvent
  repeat' (first | with_reducible exact h | (intro f s h) | (intro s h) | with_reducible apply State.raise_quiet | (with_reducible refine foldl_quiet _ _ _ (fun s x h => ?_) ?_) | with_reducible apply quiet_ite | split | exact (fun _ => rfl) | (dsimp only) | exact ⟨h.kept, h.now, h.ids⟩)
theorem State.calReject_quiet {s0 : State} {s : State} (c : Nat) (tx : Bool) (reason : Nat) (cause : Option Nat) (h : s0.Quiet s) :
    s0.Quiet (State.calReject s c tx reason cause) := by
  unfold State.calReject
  repeat' (first | with_reducible exact h | (intro f s h) | (intro s h) | with_reducible apply State.onCal_quiet | with_reducible apply State.run_quiet | with_reducible apply State.calTell_quiet | with_reducible apply State.calNext_quiet | with_reducible apply State.calEvent_quiet | (with_reducible refine foldl_quiet _ _ _ (fun s x h => ?_) ?_) | with_reducible apply quiet_ite | split | exact (fun _ => rfl) | (dsimp only) | exact ⟨h.kept, h.now, h.ids⟩)
theorem State.calAbandon_quiet {s0 : State} {s : State} (c : Nat) (tx : Bool) (cause : Option Nat) (h : s0.Quiet s) :
    s0.Quiet (State.calAbandon s c tx cause) := by
  unfold State.calAbandon
  repeat' (first | with_reducible exact h | (intro f s h) | (intro s h) | with_reducible apply State.calReject_quiet | (with_reducible refine foldl_quiet _ _ _ (fun s x h => ?_) ?_) | with_reducible apply quiet_ite | split | exact (fun _ => rfl) | (dsimp only) | exact ⟨h.kept, h.now, h.ids⟩)
theorem State.calExpired_quiet {s0 : State} {s : State} (c : Nat) (h : s0.Quiet s) :
    s0.Quiet (State.calExpired s c) := by
  unfold State.calExpired
  repeat' (first | with_reducible exact h | (intro f s h) | (intro s h) | with_reducible apply State.calEvent_quiet | with_reducible apply State.calAbandon_quiet | (with_reducible refine foldl_quiet _ _ _ (fun s x h => ?_) ?_) | with_reducible apply quiet_ite | split | exact (fun _ => rfl) | (dsimp only) | exact ⟨h.kept, h.now, h.ids⟩)
theorem State.calCheck_quiet {s0 : State} {s : State} (c : Nat) (tx : Bool) (r : CalRun) (e : CalEstimate) (h : s0.Quiet s) :
    s0.Quiet (State.calCheck s c tx r e) := by
  unfold State.calCheck
  repeat' (first | with_reducible exact h | (intro f s h) | (intro s h) | with_reducible apply State.onCal_quiet | with_reducible apply State.calReject_quiet | (with_reducible refine foldl_quiet _ _ _ (fun s x h => ?_) ?_) | with_reducible apply quiet_ite | split | exact (fun _ => rfl) | (dsimp only) | exact ⟨h.kept, h.now, h.ids⟩)
theorem State.calValues_quiet {s0 : State} {s : State} (c : Nat) (tx : Bool) (r : CalRun) (q : CalResult) (h : s0.Quiet s) :
    s0.Quiet (State.calValues s c tx r q) := by
  unfold State.calValues
  repeat' (first | with_reducible exact h | (intro f s h) | (intro s h) | with_reducible apply State.draw_quiet | with_reducible apply State.onCal_quiet | with_reducible apply State.calTell_quiet | with_reducible apply State.calNext_quiet | (with_reducible refine foldl_quiet _ _ _ (fun s x h => ?_) ?_) | with_reducible apply quiet_ite | split | exact (fun _ => rfl) | (dsimp only) | exact ⟨h.kept, h.now, h.ids⟩)
theorem State.calJoin_quiet {s0 : State} {s : State} (c : Nat) (tx : Bool) (want : Bool) (h : s0.Quiet s) :
    s0.Quiet (State.calJoin s c tx want) := by
  unfold State.calJoin
  repeat' (first | with_reducible exact h | (intro f s h) | (intro s h) | with_reducible apply State.run_quiet | with_reducible apply State.calStart_quiet | (with_reducible refine foldl_quiet _ _ _ (fun s x h => ?_) ?_) | with_reducible apply quiet_ite | split | exact (fun _ => rfl) | (dsimp only) | exact ⟨h.kept, h.now, h.ids⟩)
theorem State.takeSample_quiet {s0 : State} {s : State} (c : Nat) (x : TrendIn) (h : s0.Quiet s) :
    s0.Quiet (State.takeSample s c x) := by
  unfold State.takeSample
  repeat' (first | with_reducible exact h | (intro f s h) | (intro s h) | with_reducible apply State.at_quiet | with_reducible apply State.draw_quiet | with_reducible apply State.onChan_quiet | (with_reducible refine foldl_quiet _ _ _ (fun s x h => ?_) ?_) | with_reducible apply quiet_ite | split | exact (fun _ => rfl) | (dsimp only) | exact ⟨h.kept, h.now, h.ids⟩)
theorem State.shortfallEvent_quiet {s0 : State} {s : State} (c : Nat) (begun : Bool) (deficit : Int) (list : List Nat) (h : s0.Quiet s) :
    s0.Quiet (State.shortfallEvent s c begun deficit list) := by
  unfold State.shortfallEvent
  repeat' (first | with_reducible exact h | (intro f s h) | (intro s h) | with_reducible apply State.draw_quiet | with_reducible apply State.raise_quiet | (with_reducible refine foldl_quiet _ _ _ (fun s x h => ?_) ?_) | with_reducible apply quiet_ite | split | exact (fun _ => rfl) | (dsimp only) | exact ⟨h.kept, h.now, h.ids⟩)
theorem State.beginShort_quiet {s0 : State} {s : State} (c : Nat) (h : s0.Quiet s) :
    s0.Quiet (State.beginShort s c) := by
  unfold State.beginShort
  repeat' (first | with_reducible exact h | (intro f s h) | (intro s h) | with_reducible apply State.onAge_quiet | with_reducible apply State.shortfallEvent_quiet | (with_reducible refine foldl_quiet _ _ _ (fun s x h => ?_) ?_) | with_reducible apply quiet_ite | split | exact (fun _ => rfl) | (dsimp only) | exact ⟨h.kept, h.now, h.ids⟩)
theorem State.endShort_quiet {s0 : State} {s : State} (c : Nat) (h : s0.Quiet s) :
    s0.Quiet (State.endShort s c) := by
  unfold State.endShort
  repeat' (first | with_reducible exact h | (intro f s h) | (intro s h) | with_reducible apply State.onAge_quiet | with_reducible apply State.shortfallEvent_quiet | (with_reducible refine foldl_quiet _ _ _ (fun s x h => ?_) ?_) | with_reducible apply quiet_ite | split | exact (fun _ => rfl) | (dsimp only) | exact ⟨h.kept, h.now, h.ids⟩)
theorem State.ownExchange_quiet {s0 : State} {s : State} (c : Nat) (x : LoadSet) (h : s0.Quiet s) :
    s0.Quiet (State.ownExchange s c x) := by
  unfold State.ownExchange
  repeat' (first | with_reducible exact h | (intro f s h) | (intro s h) | with_reducible apply State.lxPropose_quiet | (with_reducible refine foldl_quiet _ _ _ (fun s x h => ?_) ?_) | with_reducible apply quiet_ite | split | exact (fun _ => rfl) | (dsimp only) | exact ⟨h.kept, h.now, h.ids⟩)
theorem State.replan_quiet {s0 : State} {s : State} (c : Nat) (x : LoadSet) (codes : List (Option Rat)) (h : s0.Quiet s) :
    s0.Quiet (State.replan s c x codes) := by
  unfold State.replan
  repeat' (first | with_reducible exact h | (intro f s h) | (intro s h) | with_reducible apply State.draw_quiet | with_reducible apply State.raise_quiet | with_reducible apply State.onAge_quiet | with_reducible apply State.ownExchange_quiet | (with_reducible refine foldl_quiet _ _ _ (fun s x h => ?_) ?_) | with_reducible apply quiet_ite | split | exact (fun _ => rfl) | (dsimp only) | exact ⟨h.kept, h.now, h.ids⟩)
theorem State.evaluate_quiet {s0 : State} {s : State} (c : Nat) (codes : List (Option Rat)) (lq : Int) (h : s0.Quiet s) :
    s0.Quiet (State.evaluate s c codes lq) := by
  unfold State.evaluate
  repeat' (first | with_reducible exact h | (intro f s h) | (intro s h) | with_reducible apply State.onAge_quiet | with_reducible apply State.beginShort_quiet | with_reducible apply State.endShort_quiet | with_reducible apply State.replan_quiet | (with_reducible refine foldl_quiet _ _ _ (fun s x h => ?_) ?_) | with_reducible apply quiet_ite | split | exact (fun _ => rfl) | (dsimp only) | exact ⟨h.kept, h.now, h.ids⟩)
theorem State.hourlyRecord_quiet {s0 : State} {s : State} (c : Nat) (h : s0.Quiet s) :
    s0.Quiet (State.hourlyRecord s c) := by
  unfold State.hourlyRecord
  repeat' (first | with_reducible exact h | (intro f s h) | (intro s h) | with_reducible apply State.at_quiet | with_reducible apply State.onAge_quiet | with_reducible apply State.endShort_quiet | with_reducible apply State.evaluate_quiet | (with_reducible refine foldl_quiet _ _ _ (fun s x h => ?_) ?_) | with_reducible apply quiet_ite | split | exact (fun _ => rfl) | (dsimp only) | exact ⟨h.kept, h.now, h.ids⟩)
theorem State.crossLimit_quiet {s0 : State} {s : State} (c : Nat) (q : Nat) (h : s0.Quiet s) :
    s0.Quiet (State.crossLimit s c q) := by
  unfold State.crossLimit
  repeat' (first | with_reducible exact h | (intro f s h) | (intro s h) | with_reducible apply State.raise_quiet | with_reducible apply State.onAge_quiet | (with_reducible refine foldl_quiet _ _ _ (fun s x h => ?_) ?_) | with_reducible apply quiet_ite | split | exact (fun _ => rfl) | (dsimp only) | exact ⟨h.kept, h.now, h.ids⟩)
theorem State.dailyRecord_quiet {s0 : State} {s : State} (c : Nat) (h : s0.Quiet s) :
    s0.Quiet (State.dailyRecord s c) := by
  unfold State.dailyRecord
  repeat' (first | with_reducible exact h | (intro f s h) | (intro s h) | with_reducible apply State.at_quiet | with_reducible apply State.onAge_quiet | with_reducible apply State.crossLimit_quiet | (with_reducible refine foldl_quiet _ _ _ (fun s x h => ?_) ?_) | with_reducible apply quiet_ite | split | exact (fun _ => rfl) | (dsimp only) | exact ⟨h.kept, h.now, h.ids⟩)
theorem State.reportLow_quiet {s0 : State} {s : State} (r : Nat) (h : s0.Quiet s) :
    s0.Quiet (State.reportLow s r) := by
  unfold State.reportLow
  repeat' (first | with_reducible exact h | (intro f s h) | (intro s h) | (with_reducible refine foldl_quiet _ _ _ (fun s x h => ?_) ?_) | with_reducible apply quiet_ite | split | exact (fun _ => rfl) | (dsimp only) | exact ⟨h.kept, h.now, h.ids⟩)
theorem State.ringEnable_quiet {s0 : State} {s : State} (n : Nat) (r : Nat) (v : Word) (h : s0.Quiet s) :
    s0.Quiet (State.ringEnable s n r v) := by
  unfold State.ringEnable
  repeat' (first | with_reducible exact h | (intro f s h) | (intro s h) | with_reducible apply State.setRing_quiet | with_reducible apply State.onLink_quiet | with_reducible apply State.reportLow_quiet | (with_reducible refine foldl_quiet _ _ _ (fun s x h => ?_) ?_) | with_reducible apply quiet_ite | split | exact (fun _ => rfl) | (dsimp only) | exact ⟨h.kept, h.now, h.ids⟩)
theorem State.ringDisable_quiet {s0 : State} {s : State} (n : Nat) (r : Nat) (v : Word) (h : s0.Quiet s) :
    s0.Quiet (State.ringDisable s n r v) := by
  unfold State.ringDisable
  repeat' (first | with_reducible exact h | (intro f s h) | (intro s h) | with_reducible apply State.setRing_quiet | with_reducible apply State.disableRing_quiet | (with_reducible refine foldl_quiet _ _ _ (fun s x h => ?_) ?_) | with_reducible apply quiet_ite | split | exact (fun _ => rfl) | (dsimp only) | exact ⟨h.kept, h.now, h.ids⟩)
theorem State.ringCfgWrite_quiet {s0 : State} {s : State} (n : Nat) (r : Nat) (v : Word) (h : s0.Quiet s) :
    s0.Quiet (State.ringCfgWrite s n r v) := by
  unfold State.ringCfgWrite
  repeat' (first | with_reducible exact h | (intro f s h) | (intro s h) | with_reducible apply State.ringEnable_quiet | with_reducible apply State.ringDisable_quiet | (with_reducible refine foldl_quiet _ _ _ (fun s x h => ?_) ?_) | with_reducible apply quiet_ite | split | exact (fun _ => rfl) | (dsimp only) | exact ⟨h.kept, h.now, h.ids⟩)
theorem State.readAll_quiet {s0 : State} {s : State} (n : Nat) (nudged : Bool) (h : s0.Quiet s) :
    s0.Quiet (State.readAll s n nudged) := by
  unfold State.readAll
  repeat' (first | with_reducible exact h | (intro f s h) | (intro s h) | with_reducible apply State.onLink_quiet | (with_reducible refine foldl_quiet _ _ _ (fun s x h => ?_) ?_) | with_reducible apply quiet_ite | split | exact (fun _ => rfl) | (dsimp only) | exact ⟨h.kept, h.now, h.ids⟩)
theorem State.nudge_quiet {s0 : State} {s : State} (n : Nat) (v : Word) (h : s0.Quiet s) :
    s0.Quiet (State.nudge s n v) := by
  unfold State.nudge
  repeat' (first | with_reducible exact h | (intro f s h) | (intro s h) | with_reducible apply State.onLink_quiet | (with_reducible refine foldl_quiet _ _ _ (fun s x h => ?_) ?_) | with_reducible apply quiet_ite | split | exact (fun _ => rfl) | (dsimp only) | exact ⟨h.kept, h.now, h.ids⟩)
theorem State.ringDoorbell_quiet {s0 : State} {s : State} (n : Nat) (r : Nat) (w : Word) (h : s0.Quiet s) :
    s0.Quiet (State.ringDoorbell s n r w) := by
  unfold State.ringDoorbell
  repeat' (first | with_reducible exact h | (intro f s h) | (intro s h) | with_reducible apply State.setRing_quiet | with_reducible apply State.raise_quiet | with_reducible apply State.haltRing_quiet | with_reducible apply State.reportLost_quiet | with_reducible apply State.reportGap_quiet | (with_reducible refine foldl_quiet _ _ _ (fun s x h => ?_) ?_) | with_reducible apply quiet_ite | split | exact (fun _ => rfl) | (dsimp only) | exact ⟨h.kept, h.now, h.ids⟩)
theorem State.groupDoorbells_quiet {s0 : State} {s : State} (n : Nat) (g : Nat) (ws : List Word) (h : s0.Quiet s) :
    s0.Quiet (State.groupDoorbells s n g ws) := by
  unfold State.groupDoorbells
  repeat' (first | with_reducible exact h | (intro f s h) | (intro s h) | with_reducible apply State.ringDoorbell_quiet | (with_reducible refine foldl_quiet _ _ _ (fun s x h => ?_) ?_) | with_reducible apply quiet_ite | split | exact (fun _ => rfl) | (dsimp only) | exact ⟨h.kept, h.now, h.ids⟩)
theorem State.doorbellRead_quiet {s0 : State} {s : State} (n : Nat) (g : Nat) (nudged : Bool) (ws : List Word) (h : s0.Quiet s) :
    s0.Quiet (State.doorbellRead s n g nudged ws) := by
  unfold State.doorbellRead
  repeat' (first | with_reducible exact h | (intro f s h) | (intro s h) | with_reducible apply State.setLink_quiet | with_reducible apply State.emit_quiet | with_reducible apply State.groupDoorbells_quiet | (with_reducible refine foldl_quiet _ _ _ (fun s x h => ?_) ?_) | with_reducible apply quiet_ite | split | exact (fun _ => rfl) | (dsimp only) | exact ⟨h.kept, h.now, h.ids⟩)
theorem State.renewVisits_quiet {s0 : State} {s : State} (r : Nat) (h : s0.Quiet s) :
    s0.Quiet (State.renewVisits s r) := by
  unfold State.renewVisits
  repeat' (first | with_reducible exact h | (intro f s h) | (intro s h) | with_reducible apply State.onRing_quiet | (with_reducible refine foldl_quiet _ _ _ (fun s x h => ?_) ?_) | with_reducible apply quiet_ite | split | exact (fun _ => rfl) | (dsimp only) | exact ⟨h.kept, h.now, h.ids⟩)
theorem State.start_quiet {s0 : State} {s : State} (f : Flight) (o : OpInfo) (h : s0.Quiet s) :
    s0.Quiet (State.start s f o) := by
  unfold State.start
  refine quiet_ite (State.finish_quiet _ _ _ _ _ h) (quiet_ite (State.finish_quiet _ _ _ _ _ h) ?_)
  exact State.onFlight_quiet _ _ (fun _ => rfl) h
theorem State.writeBatch_quiet {s0 : State} {s : State} (source : Nat) (us : Nat) (h : s0.Quiet s) :
    s0.Quiet (State.writeBatch s source us) := by
  unfold State.writeBatch
  have k := State.at_quiet ((us + 1) * 1000) h
  exact foldl_quiet _ _ _ (fun s _ h => foldl_quiet _ _ _ (fun s _ h => State.deliverEvent_quiet _ _ h) h)
    ⟨k.kept, k.now, k.ids⟩
theorem State.fillMessage_quiet {s0 : State} {s : State} (r : Nat) (bytes : List Byte) (r1 : Nat) (h : s0.Quiet s) :
    s0.Quiet (State.fillMessage s r bytes r1) := by
  unfold State.fillMessage
  repeat' (first | with_reducible exact h | (intro f s h) | (intro s h) | with_reducible apply State.onRing_quiet | with_reducible apply State.writeBuf_quiet | with_reducible apply State.finish_quiet | (with_reducible refine foldl_quiet _ _ _ (fun s x h => ?_) ?_) | with_reducible apply quiet_ite | split | exact (fun _ => rfl) | (dsimp only) | exact ⟨h.kept, h.now, h.ids⟩)
theorem State.onCand_quiet {s0 : State} {s : State} (k : Nat) (g : Cand → Cand) (h : s0.Quiet s) :
    s0.Quiet (State.onCand s k g) := by
  unfold State.onCand
  repeat' (first | with_reducible exact h | (intro f s h) | (intro s h) | with_reducible apply State.onTm_quiet | (with_reducible refine foldl_quiet _ _ _ (fun s x h => ?_) ?_) | with_reducible apply quiet_ite | split | exact (fun _ => rfl) | (dsimp only) | exact ⟨h.kept, h.now, h.ids⟩)
theorem State.enterHoldover_quiet {s0 : State} {s : State} (cause : Option Nat) (h : s0.Quiet s) :
    s0.Quiet (State.enterHoldover s cause) := by
  unfold State.enterHoldover
  repeat' (first | with_reducible exact h | (intro f s h) | (intro s h) | with_reducible apply State.draw_quiet | with_reducible apply State.raise_quiet | (with_reducible refine foldl_quiet _ _ _ (fun s x h => ?_) ?_) | with_reducible apply quiet_ite | split | exact (fun _ => rfl) | (dsimp only) | exact ⟨h.kept, h.now, h.ids⟩)
theorem State.moveTo_quiet {s0 : State} {s : State} (k : Nat) (cause : Option Nat) (h : s0.Quiet s) :
    s0.Quiet (State.moveTo s k cause) := by
  unfold State.moveTo
  repeat' (first | with_reducible exact h | (intro f s h) | (intro s h) | with_reducible apply State.raise_quiet | (with_reducible refine foldl_quiet _ _ _ (fun s x h => ?_) ?_) | with_reducible apply quiet_ite | split | exact (fun _ => rfl) | (dsimp only) | exact ⟨h.kept, h.now, h.ids⟩)
theorem State.reselect_quiet {s0 : State} {s : State} (cause : Option Nat) (h : s0.Quiet s) :
    s0.Quiet (State.reselect s cause) := by
  unfold State.reselect
  repeat' (first | with_reducible exact h | (intro f s h) | (intro s h) | with_reducible apply State.onTm_quiet | with_reducible apply State.enterHoldover_quiet | with_reducible apply State.moveTo_quiet | (with_reducible refine foldl_quiet _ _ _ (fun s x h => ?_) ?_) | with_reducible apply quiet_ite | split | exact (fun _ => rfl) | (dsimp only) | exact ⟨h.kept, h.now, h.ids⟩)
theorem State.disqualify_quiet {s0 : State} {s : State} (k : Nat) (cause : Nat) (undertow : Bool) (h : s0.Quiet s) :
    s0.Quiet (State.disqualify s k cause undertow) := by
  unfold State.disqualify
  repeat' (first | with_reducible exact h | (intro f s h) | (intro s h) | with_reducible apply State.onTm_quiet | with_reducible apply State.raise_quiet | (with_reducible refine foldl_quiet _ _ _ (fun s x h => ?_) ?_) | with_reducible apply quiet_ite | split | exact (fun _ => rfl) | (dsimp only) | exact ⟨h.kept, h.now, h.ids⟩)
theorem State.dropActivity_quiet {s0 : State} {s : State} (k : Nat) (h : s0.Quiet s) :
    s0.Quiet (State.dropActivity s k) := by
  unfold State.dropActivity
  repeat' (first | with_reducible exact h | (intro f s h) | (intro s h) | with_reducible apply State.onCand_quiet | with_reducible apply State.disqualify_quiet | (with_reducible refine foldl_quiet _ _ _ (fun s x h => ?_) ?_) | with_reducible apply quiet_ite | split | exact (fun _ => rfl) | (dsimp only) | exact ⟨h.kept, h.now, h.ids⟩)
theorem State.selectOnce_quiet {s0 : State} {s : State} (cause : Option Nat) (h : s0.Quiet s) :
    s0.Quiet (State.selectOnce s cause) := by
  unfold State.selectOnce
  repeat' (first | with_reducible exact h | (intro f s h) | (intro s h) | with_reducible apply State.reselect_quiet | (with_reducible refine foldl_quiet _ _ _ (fun s x h => ?_) ?_) | with_reducible apply quiet_ite | split | exact (fun _ => rfl) | (dsimp only) | exact ⟨h.kept, h.now, h.ids⟩)
theorem State.clockRises_quiet {s0 : State} {s : State} (c : Nat) (h : s0.Quiet s) :
    s0.Quiet (State.clockRises s c) := by
  unfold State.clockRises
  repeat' (first | with_reducible exact h | (intro f s h) | (intro s h) | with_reducible apply State.onTm_quiet | (with_reducible refine foldl_quiet _ _ _ (fun s x h => ?_) ?_) | with_reducible apply quiet_ite | split | exact (fun _ => rfl) | (dsimp only) | exact ⟨h.kept, h.now, h.ids⟩)
theorem State.evalCand_quiet {s0 : State} {s : State} (sec : Nat) (k : Nat) (h : s0.Quiet s) :
    s0.Quiet (State.evalCand s sec k) := by
  unfold State.evalCand
  repeat' (first | with_reducible exact h | (intro f s h) | (intro s h) | with_reducible apply State.onTm_quiet | with_reducible apply State.raise_quiet | (with_reducible refine foldl_quiet _ _ _ (fun s x h => ?_) ?_) | with_reducible apply quiet_ite | split | exact (fun _ => rfl) | (dsimp only) | exact ⟨h.kept, h.now, h.ids⟩)
theorem State.measureCand_quiet {s0 : State} {s : State} (sec : Nat) (k : Nat) (m : Option Int) (h : s0.Quiet s) :
    s0.Quiet (State.measureCand s sec k m) := by
  unfold State.measureCand
  repeat' (first | with_reducible exact h | (intro f s h) | (intro s h) | with_reducible apply State.onTm_quiet | with_reducible apply State.dropActivity_quiet | (with_reducible refine foldl_quiet _ _ _ (fun s x h => ?_) ?_) | with_reducible apply quiet_ite | split | exact (fun _ => rfl) | (dsimp only) | exact ⟨h.kept, h.now, h.ids⟩)
theorem State.timingSecond_quiet {s0 : State} {s : State} (ofs : List (Option Int)) (ctrl : Int) (mean : Int) (h : s0.Quiet s) :
    s0.Quiet (State.timingSecond s ofs ctrl mean) := by
  unfold State.timingSecond
  repeat' (first | with_reducible exact h | (intro f s h) | (intro s h) | with_reducible apply State.onTm_quiet | with_reducible apply State.at_quiet | with_reducible apply State.draw_quiet | with_reducible apply State.selectOnce_quiet | with_reducible apply State.evalCand_quiet | with_reducible apply State.measureCand_quiet | (with_reducible refine foldl_quiet _ _ _ (fun s x h => ?_) ?_) | with_reducible apply quiet_ite | split | exact (fun _ => rfl) | (dsimp only) | exact ⟨h.kept, h.now, h.ids⟩)
theorem State.bwStep_quiet {s0 : State} {s : State} (h : s0.Quiet s) :
    s0.Quiet (State.bwStep s) := by
  unfold State.bwStep
  have k := State.at_quiet s.tm.bwDue h
  refine quiet_ite (State.raise_quiet _ _ _ _ _ _ ?_) ?_ <;> exact ⟨k.kept, k.now, k.ids⟩
theorem State.ageingFit_quiet {s0 : State} {s : State} (h : s0.Quiet s) :
    s0.Quiet (State.ageingFit s) := by
  unfold State.ageingFit
  have k := State.at_quiet (s.tm.dayDue * 1000000000) h
  exact State.draw_quiet ⟨k.kept, k.now, k.ids⟩
theorem State.setCandidate_quiet {s0 : State} {s : State} (k : Nat) (new : Cand) (edges : Bool) (h : s0.Quiet s) :
    s0.Quiet (State.setCandidate s k new edges) := by
  unfold State.setCandidate
  repeat' (first | with_reducible exact h | (intro f s h) | (intro s h) | with_reducible apply State.onCand_quiet | with_reducible apply State.reselect_quiet | with_reducible apply State.disqualify_quiet | (with_reducible refine foldl_quiet _ _ _ (fun s x h => ?_) ?_) | with_reducible apply quiet_ite | split | exact (fun _ => rfl) | (dsimp only) | exact ⟨h.kept, h.now, h.ids⟩)
theorem State.urgentDone_quiet {s0 : State} {s : State} (f : Flight) (u : Urgent) (codes : List Nat) (h : s0.Quiet s) :
    s0.Quiet (State.urgentDone s f u codes) := by
  unfold State.urgentDone
  repeat' (first | with_reducible exact h | (intro f s h) | (intro s h) | with_reducible apply State.setConv_quiet | with_reducible apply State.at_quiet | with_reducible apply State.finish_quiet | (with_reducible refine foldl_quiet _ _ _ (fun s x h => ?_) ?_) | with_reducible apply quiet_ite | split | exact (fun _ => rfl) | (dsimp only) | exact ⟨h.kept, h.now, h.ids⟩)
theorem State.testEnd_quiet {s0 : State} {s : State} (n : Nat) (t : MonTest) (codes : List Nat) (h : s0.Quiet s) :
    s0.Quiet (State.testEnd s n t codes) := by
  unfold State.testEnd
  repeat' (first | with_reducible exact h | (intro f s h) | (intro s h) | with_reducible apply State.setConv_quiet | with_reducible apply State.at_quiet | with_reducible apply State.raise_quiet | with_reducible apply State.finishId_quiet | (with_reducible refine foldl_quiet _ _ _ (fun s x h => ?_) ?_) | with_reducible apply quiet_ite | split | exact (fun _ => rfl) | (dsimp only) | exact ⟨h.kept, h.now, h.ids⟩)
theorem State.selfcalOver_quiet {s0 : State} {s : State} (n : Nat) (id : Nat) (st : Nat) (h : s0.Quiet s) :
    s0.Quiet (State.selfcalOver s n id st) := by
  unfold State.selfcalOver
  repeat' (first | with_reducible exact h | (intro f s h) | (intro s h) | with_reducible apply State.raise_quiet | with_reducible apply State.onConv_quiet | with_reducible apply State.finishId_quiet | (with_reducible refine foldl_quiet _ _ _ (fun s x h => ?_) ?_) | with_reducible apply quiet_ite | split | exact (fun _ => rfl) | (dsimp only) | exact ⟨h.kept, h.now, h.ids⟩)
theorem State.selfcalEnd_quiet {s0 : State} {s : State} (n : Nat) (id : Nat) (start : Nat) (offset : Int) (gain : Nat) (h : s0.Quiet s) :
    s0.Quiet (State.selfcalEnd s n id start offset gain) := by
  unfold State.selfcalEnd
  repeat' (first | with_reducible exact h | (intro f s h) | (intro s h) | with_reducible apply State.setConv_quiet | with_reducible apply State.at_quiet | with_reducible apply State.selfcalOver_quiet | (with_reducible refine foldl_quiet _ _ _ (fun s x h => ?_) ?_) | with_reducible apply quiet_ite | split | exact (fun _ => rfl) | (dsimp only) | exact ⟨h.kept, h.now, h.ids⟩)
theorem State.extRefLost_quiet {s0 : State} {s : State} (h : s0.Quiet s) :
    s0.Quiet (State.extRefLost s) := by
  unfold State.extRefLost
  repeat' (first | with_reducible exact h | (intro f s h) | (intro s h) | with_reducible apply State.raise_quiet | with_reducible apply State.onConv_quiet | with_reducible apply State.selfcalOver_quiet | (with_reducible refine foldl_quiet _ _ _ (fun s x h => ?_) ?_) | with_reducible apply quiet_ite | split | exact (fun _ => rfl) | (dsimp only) | exact ⟨h.kept, h.now, h.ids⟩)
theorem State.writeRecord_quiet {s0 : State} {s : State} (n : Nat) (i : Nat) (x : Filter) (v : BitVec 32) (g : RecFlags) (h : s0.Quiet s) :
    s0.Quiet (State.writeRecord s n i x v g) := by
  unfold State.writeRecord
  repeat' (first | with_reducible exact h | (intro f s h) | (intro s h) | with_reducible apply State.setConv_quiet | with_reducible apply State.putTideline_quiet | with_reducible apply State.rewrite_quiet | (with_reducible refine foldl_quiet _ _ _ (fun s x h => ?_) ?_) | with_reducible apply quiet_ite | split | exact (fun _ => rfl) | (dsimp only) | exact ⟨h.kept, h.now, h.ids⟩)
theorem State.writeStale_quiet {s0 : State} {s : State} (n : Nat) (i : Nat) (x : Filter) (test : Bool) (mfc : Nat) (t : Nat) (nomf : Bool) (h : s0.Quiet s) :
    s0.Quiet (State.writeStale s n i x test mfc t nomf) := by
  unfold State.writeStale
  repeat' (first | with_reducible exact h | (intro f s h) | (intro s h) | with_reducible apply State.draw_quiet | with_reducible apply State.writeRecord_quiet | (with_reducible refine foldl_quiet _ _ _ (fun s x h => ?_) ?_) | with_reducible apply quiet_ite | split | exact (fun _ => rfl) | (dsimp only) | exact ⟨h.kept, h.now, h.ids⟩)
theorem State.decimated_quiet {s0 : State} {s : State} (n : Nat) (i : Nat) (x : Filter) (v : Option Rat) (g : RecFlags) (h : s0.Quiet s) :
    s0.Quiet (State.decimated s n i x v g) := by
  unfold State.decimated
  repeat' (first | with_reducible exact h | (intro f s h) | (intro s h) | with_reducible apply State.setConv_quiet | with_reducible apply State.writeRecord_quiet | with_reducible apply State.writeStale_quiet | (with_reducible refine foldl_quiet _ _ _ (fun s x h => ?_) ?_) | with_reducible apply quiet_ite | split | exact (fun _ => rfl) | (dsimp only) | exact ⟨h.kept, h.now, h.ids⟩)
theorem State.decimate_quiet {s0 : State} {s : State} (n : Nat) (i : Nat) (codes : List (List Nat)) (h : s0.Quiet s) :
    s0.Quiet (State.decimate s n i codes) := by
  unfold State.decimate
  repeat' (first | with_reducible exact h | (intro f s h) | (intro s h) | with_reducible apply State.draw_quiet | with_reducible apply State.decimated_quiet | (with_reducible refine foldl_quiet _ _ _ (fun s x h => ?_) ?_) | with_reducible apply quiet_ite | split | exact (fun _ => rfl) | (dsimp only) | exact ⟨h.kept, h.now, h.ids⟩)
theorem State.report_quiet {s0 : State} {s : State} (n : Nat) (i : Nat) (count : Nat) (t : Nat) (h : s0.Quiet s) :
    s0.Quiet (State.report s n i count t) := by
  unfold State.report
  repeat' (first | with_reducible exact h | (intro f s h) | (intro s h) | with_reducible apply State.writeRecord_quiet | with_reducible apply State.writeStale_quiet | (with_reducible refine foldl_quiet _ _ _ (fun s x h => ?_) ?_) | with_reducible apply quiet_ite | split | exact (fun _ => rfl) | (dsimp only) | exact ⟨h.kept, h.now, h.ids⟩)
theorem State.answerEntries_quiet {s0 : State} {s : State} (f : Flight) (es : List LedgerEntry) (h : s0.Quiet s) :
    s0.Quiet (State.answerEntries s f es) := by
  unfold State.answerEntries
  repeat' (first | with_reducible exact h | (intro f s h) | (intro s h) | with_reducible apply State.answer_quiet | (with_reducible refine foldl_quiet _ _ _ (fun s x h => ?_) ?_) | with_reducible apply quiet_ite | split | exact (fun _ => rfl) | (dsimp only) | exact ⟨h.kept, h.now, h.ids⟩)
theorem State.revokeRing_quiet {s0 : State} {s : State} (r : Nat) (h : s0.Quiet s) :
    s0.Quiet (State.revokeRing s r) := by
  unfold State.revokeRing
  repeat' (first | with_reducible exact h | (intro f s h) | (intro s h) | with_reducible apply State.onRing_quiet | with_reducible apply State.finish_quiet | with_reducible apply State.stopRing_quiet | (with_reducible refine foldl_quiet _ _ _ (fun s x h => ?_) ?_) | with_reducible apply quiet_ite | split | exact (fun _ => rfl) | (dsimp only) | exact ⟨h.kept, h.now, h.ids⟩)
theorem State.setMaskGen_quiet {s0 : State} {s : State} (k : Nat) (x : MaskGen) (h : s0.Quiet s) :
    s0.Quiet (State.setMaskGen s k x) := by
  unfold State.setMaskGen
  repeat' (first | with_reducible exact h | (intro f s h) | (intro s h) | with_reducible apply State.onSec_quiet | with_reducible apply State.onChan_quiet | (with_reducible refine foldl_quiet _ _ _ (fun s x h => ?_) ?_) | with_reducible apply quiet_ite | split | exact (fun _ => rfl) | (dsimp only) | exact ⟨h.kept, h.now, h.ids⟩)
theorem State.drawMasks_quiet {s0 : State} {s : State} (k : Nat) (h : s0.Quiet s) :
    s0.Quiet (State.drawMasks s k) := by
  unfold State.drawMasks
  repeat' (first | with_reducible exact h | (intro f s h) | (intro s h) | with_reducible apply State.draw_quiet | with_reducible apply State.setMaskGen_quiet | (with_reducible refine foldl_quiet _ _ _ (fun s x h => ?_) ?_) | with_reducible apply quiet_ite | split | exact (fun _ => rfl) | (dsimp only) | exact ⟨h.kept, h.now, h.ids⟩)
theorem State.instantiate_quiet {s0 : State} {s : State} (h : s0.Quiet s) :
    s0.Quiet (State.instantiate s) := by
  unfold State.instantiate
  repeat' (first | with_reducible exact h | (intro f s h) | (intro s h) | with_reducible apply State.onSec_quiet | with_reducible apply State.draw_quiet | with_reducible apply State.setMaskGen_quiet | (with_reducible refine foldl_quiet _ _ _ (fun s x h => ?_) ?_) | with_reducible apply quiet_ite | split | exact (fun _ => rfl) | (dsimp only) | exact ⟨h.kept, h.now, h.ids⟩)
theorem State.reseed_quiet {s0 : State} {s : State} (h : s0.Quiet s) :
    s0.Quiet (State.reseed s) := by
  unfold State.reseed
  repeat' (first | with_reducible exact h | (intro f s h) | (intro s h) | with_reducible apply State.onSec_quiet | with_reducible apply State.draw_quiet | (with_reducible refine foldl_quiet _ _ _ (fun s x h => ?_) ?_) | with_reducible apply quiet_ite | split | exact (fun _ => rfl) | (dsimp only) | exact ⟨h.kept, h.now, h.ids⟩)
theorem State.ready_quiet {s0 : State} {s : State} (h : s0.Quiet s) :
    s0.Quiet (State.ready s) := by
  unfold State.ready
  repeat' (first | with_reducible exact h | (intro f s h) | (intro s h) | with_reducible apply State.reseed_quiet | (with_reducible refine foldl_quiet _ _ _ (fun s x h => ?_) ?_) | with_reducible apply quiet_ite | split | exact (fun _ => rfl) | (dsimp only) | exact ⟨h.kept, h.now, h.ids⟩)
theorem State.request_quiet {s0 : State} {s : State} (n : Nat) (h : s0.Quiet s) :
    s0.Quiet (State.request s n) := by
  unfold State.request
  repeat' (first | with_reducible exact h | (intro f s h) | (intro s h) | with_reducible apply State.onSec_quiet | with_reducible apply State.draw_quiet | with_reducible apply State.ready_quiet | (with_reducible refine foldl_quiet _ _ _ (fun s x h => ?_) ?_) | with_reducible apply quiet_ite | split | exact (fun _ => rfl) | (dsimp only) | exact ⟨h.kept, h.now, h.ids⟩)
theorem State.sourceFails_quiet {s0 : State} {s : State} (repetition : Bool) (h : s0.Quiet s) :
    s0.Quiet (State.sourceFails s repetition) := by
  unfold State.sourceFails
  repeat' (first | with_reducible exact h | (intro f s h) | (intro s h) | with_reducible apply State.onSec_quiet | with_reducible apply State.raise_quiet | (with_reducible refine foldl_quiet _ _ _ (fun s x h => ?_) ?_) | with_reducible apply quiet_ite | split | exact (fun _ => rfl) | (dsimp only) | exact ⟨h.kept, h.now, h.ids⟩)
theorem State.imageDone_quiet {s0 : State} {s : State} (id : Nat) (bs : List Byte) (h : s0.Quiet s) :
    s0.Quiet (State.imageDone s id bs) := by
  unfold State.imageDone
  repeat' (first | with_reducible exact h | (intro f s h) | (intro s h) | with_reducible apply State.onSec_quiet | with_reducible apply State.raise_quiet | with_reducible apply State.finishId_quiet | (with_reducible refine foldl_quiet _ _ _ (fun s x h => ?_) ?_) | with_reducible apply quiet_ite | split | exact (fun _ => rfl) | (dsimp only) | exact ⟨h.kept, h.now, h.ids⟩)
theorem State.controllerStop_quiet {s0 : State} {s : State} (h : s0.Quiet s) :
    s0.Quiet (State.controllerStop s) := by
  unfold State.controllerStop
  repeat' (first | with_reducible exact h | (intro f s h) | (intro s h) | (with_reducible refine foldl_quiet _ _ _ (fun s x h => ?_) ?_) | with_reducible apply quiet_ite | split | exact (fun _ => rfl) | (dsimp only) | exact ⟨h.kept, h.now, h.ids⟩)
theorem State.adoptFloor_quiet {s0 : State} {s : State} (f : Flight) (v : Nat) (h : s0.Quiet s) :
    s0.Quiet (State.adoptFloor s f v) := by
  unfold State.adoptFloor
  repeat' (first | with_reducible exact h | (intro f s h) | (intro s h) | with_reducible apply State.onSec_quiet | with_reducible apply State.raise_quiet | with_reducible apply State.finish_quiet | (with_reducible refine foldl_quiet _ _ _ (fun s x h => ?_) ?_) | with_reducible apply quiet_ite | split | exact (fun _ => rfl) | (dsimp only) | exact ⟨h.kept, h.now, h.ids⟩)
theorem State.kekEstablish_quiet {s0 : State} {s : State} (f : Flight) (qk : List Byte) (k : Nat × Nat) (h : s0.Quiet s) :
    s0.Quiet (State.kekEstablish s f qk k) := by
  unfold State.kekEstablish
  repeat' (first | with_reducible exact h | (intro f s h) | (intro s h) | with_reducible apply State.onSec_quiet | with_reducible apply State.raise_quiet | with_reducible apply State.writeBuf_quiet | with_reducible apply State.finish_quiet | with_reducible apply State.request_quiet | (with_reducible refine foldl_quiet _ _ _ (fun s x h => ?_) ?_) | with_reducible apply quiet_ite | split | exact (fun _ => rfl) | (dsimp only) | exact ⟨h.kept, h.now, h.ids⟩)
theorem State.setCipherOf_quiet {s0 : State} {s : State} (i : Nat) (x : Cipher) (h : s0.Quiet s) :
    s0.Quiet (State.setCipherOf s i x) := by
  unfold State.setCipherOf
  repeat' (first | with_reducible exact h | (intro f s h) | (intro s h) | with_reducible apply State.onChan_quiet | (with_reducible refine foldl_quiet _ _ _ (fun s x h => ?_) ?_) | with_reducible apply quiet_ite | split | exact (fun _ => rfl) | (dsimp only) | exact ⟨h.kept, h.now, h.ids⟩)
theorem State.clash_quiet {s0 : State} {s : State} (i : Nat) (x : Cipher) (h : s0.Quiet s) :
    s0.Quiet (State.clash s i x) := by
  unfold State.clash
  repeat' (first | with_reducible exact h | (intro f s h) | (intro s h) | with_reducible apply State.raise_quiet | with_reducible apply State.setCipherOf_quiet | (with_reducible refine foldl_quiet _ _ _ (fun s x h => ?_) ?_) | with_reducible apply quiet_ite | split | exact (fun _ => rfl) | (dsimp only) | exact ⟨h.kept, h.now, h.ids⟩)
theorem State.rollKey_quiet {s0 : State} {s : State} (i : Nat) (m : BitVec 32) (h : s0.Quiet s) :
    s0.Quiet (State.rollKey s i m) := by
  unfold State.rollKey
  repeat' (first | with_reducible exact h | (intro f s h) | (intro s h) | with_reducible apply State.raise_quiet | with_reducible apply State.finishId_quiet | with_reducible apply State.setCipherOf_quiet | (with_reducible refine foldl_quiet _ _ _ (fun s x h => ?_) ?_) | with_reducible apply quiet_ite | split | exact (fun _ => rfl) | (dsimp only) | exact ⟨h.kept, h.now, h.ids⟩)
theorem State.exhaust_quiet {s0 : State} {s : State} (i : Nat) (k : LineKey) (h : s0.Quiet s) :
    s0.Quiet (State.exhaust s i k) := by
  unfold State.exhaust
  repeat' (first | with_reducible exact h | (intro f s h) | (intro s h) | with_reducible apply State.raise_quiet | with_reducible apply State.setCipherOf_quiet | (with_reducible refine foldl_quiet _ _ _ (fun s x h => ?_) ?_) | with_reducible apply quiet_ite | split | exact (fun _ => rfl) | (dsimp only) | exact ⟨h.kept, h.now, h.ids⟩)
theorem State.jobStart_quiet {s0 : State} {s : State} (f : Flight) (k : JobKey) (bs : List Byte) (h : s0.Quiet s) :
    s0.Quiet (State.jobStart s f k bs) := by
  unfold State.jobStart
  have k := quiet_ite (c := (!f.desc.jobDecrypts && decide (f.desc.jobMode < 2)) = true) (State.request_quiet 12 h) h
  exact State.run_quiet _ ⟨k.kept, k.now, k.ids⟩
theorem State.jobDone_quiet {s0 : State} {s : State} (f : Flight) (j : Job) (h : s0.Quiet s) :
    s0.Quiet (State.jobDone s f j) := by
  unfold State.jobDone
  repeat' (first | with_reducible exact h | (intro f s h) | (intro s h) | with_reducible apply State.writeAt_quiet | with_reducible apply State.finish_quiet | with_reducible apply State.drawMasks_quiet | (with_reducible refine foldl_quiet _ _ _ (fun s x h => ?_) ?_) | with_reducible apply quiet_ite | split | exact (fun _ => rfl) | (dsimp only) | exact ⟨h.kept, h.now, h.ids⟩)
theorem State.onLeaf_quiet {s0 : State} {s : State} (c : Nat) (j : Nat) (g : Leaf → Leaf) (h : s0.Quiet s) :
    s0.Quiet (State.onLeaf s c j g) := by
  unfold State.onLeaf
  repeat' (first | with_reducible exact h | (intro f s h) | (intro s h) | with_reducible apply State.onPm_quiet | (with_reducible refine foldl_quiet _ _ _ (fun s x h => ?_) ?_) | with_reducible apply quiet_ite | split | exact (fun _ => rfl) | (dsimp only) | exact ⟨h.kept, h.now, h.ids⟩)
theorem State.correctEqd_quiet {s0 : State} {s : State} (c : Nat) (j : Nat) (h : s0.Quiet s) :
    s0.Quiet (State.correctEqd s c j) := by
  unfold State.correctEqd
  repeat' (first | with_reducible exact h | (intro f s h) | (intro s h) | with_reducible apply State.raise_quiet | with_reducible apply State.onLeaf_quiet | (with_reducible refine foldl_quiet _ _ _ (fun s x h => ?_) ?_) | with_reducible apply quiet_ite | split | exact (fun _ => rfl) | (dsimp only) | exact ⟨h.kept, h.now, h.ids⟩)
theorem State.hubBoundary_quiet {s0 : State} {s : State} (c : Nat) (h : s0.Quiet s) :
    s0.Quiet (State.hubBoundary s c) := by
  unfold State.hubBoundary
  repeat' (first | with_reducible exact h | (intro f s h) | (intro s h) | with_reducible apply State.raise_quiet | with_reducible apply State.onPm_quiet | with_reducible apply State.correctEqd_quiet | (with_reducible refine foldl_quiet _ _ _ (fun s x h => ?_) ?_) | with_reducible apply quiet_ite | split | exact (fun _ => rfl) | (dsimp only) | exact ⟨h.kept, h.now, h.ids⟩)
theorem State.firstMap_quiet {s0 : State} {s : State} (c : Nat) (h : s0.Quiet s) :
    s0.Quiet (State.firstMap s c) := by
  unfold State.firstMap
  repeat' (first | with_reducible exact h | (intro f s h) | (intro s h) | with_reducible apply State.hubBoundary_quiet | (with_reducible refine foldl_quiet _ _ _ (fun s x h => ?_) ?_) | with_reducible apply quiet_ite | split | exact (fun _ => rfl) | (dsimp only) | exact ⟨h.kept, h.now, h.ids⟩)
theorem State.hubReceiveEnd_quiet {s0 : State} {s : State} (c : Nat) (h : s0.Quiet s) :
    s0.Quiet (State.hubReceiveEnd s c) := by
  unfold State.hubReceiveEnd
  repeat' (first | with_reducible exact h | (intro f s h) | (intro s h) | with_reducible apply State.onPm_quiet | (with_reducible refine foldl_quiet _ _ _ (fun s x h => ?_) ?_) | with_reducible apply quiet_ite | split | exact (fun _ => rfl) | (dsimp only) | exact ⟨h.kept, h.now, h.ids⟩)
theorem State.enterPair_quiet {s0 : State} {s : State} (c : Nat) (j : Nat) (h : s0.Quiet s) :
    s0.Quiet (State.enterPair s c j) := by
  unfold State.enterPair
  repeat' (first | with_reducible exact h | (intro f s h) | (intro s h) | with_reducible apply State.onChan_quiet | (with_reducible refine foldl_quiet _ _ _ (fun s x h => ?_) ?_) | with_reducible apply quiet_ite | split | exact (fun _ => rfl) | (dsimp only) | exact ⟨h.kept, h.now, h.ids⟩)
theorem State.leavePair_quiet {s0 : State} {s : State} (c : Nat) (j : Nat) (old : Channel) (h : s0.Quiet s) :
    s0.Quiet (State.leavePair s c j old) := by
  unfold State.leavePair
  repeat' (first | with_reducible exact h | (intro f s h) | (intro s h) | with_reducible apply State.onChan_quiet | (with_reducible refine foldl_quiet _ _ _ (fun s x h => ?_) ?_) | with_reducible apply quiet_ite | split | exact (fun _ => rfl) | (dsimp only) | exact ⟨h.kept, h.now, h.ids⟩)
theorem State.inPair_quiet {s0 : State} {s : State} (c : Nat) (j : Nat) (g : State → State) (hk : ∀ s, s0.Quiet s → s0.Quiet (g s)) (h : s0.Quiet s) :
    s0.Quiet (State.inPair s c j g) := by
  unfold State.inPair
  repeat' (first | with_reducible exact h | (intro f s h) | (intro s h) | (refine hk _ ?_) | (refine hk _ _ ?_) | with_reducible apply State.enterPair_quiet | with_reducible apply State.leavePair_quiet | (with_reducible refine foldl_quiet _ _ _ (fun s x h => ?_) ?_) | with_reducible apply quiet_ite | split | exact (fun _ => rfl) | (dsimp only) | exact ⟨h.kept, h.now, h.ids⟩)
theorem State.cellsSent_quiet {s0 : State} {s : State} (c : Nat) (f : Nat) (h : s0.Quiet s) :
    s0.Quiet (State.cellsSent s c f) := by
  unfold State.cellsSent
  repeat' (first | with_reducible exact h | (intro f s h) | (intro s h) | with_reducible apply State.onPm_quiet | with_reducible apply State.onLeaf_quiet | (with_reducible refine foldl_quiet _ _ _ (fun s x h => ?_) ?_) | with_reducible apply quiet_ite | split | exact (fun _ => rfl) | (dsimp only) | exact ⟨h.kept, h.now, h.ids⟩)
theorem State.leafBodySent_quiet {s0 : State} {s : State} (c : Nat) (h : s0.Quiet s) :
    s0.Quiet (State.leafBodySent s c) := by
  unfold State.leafBodySent
  repeat' (first | with_reducible exact h | (intro f s h) | (intro s h) | with_reducible apply State.onPm_quiet | (with_reducible refine foldl_quiet _ _ _ (fun s x h => ?_) ?_) | with_reducible apply quiet_ite | split | exact (fun _ => rfl) | (dsimp only) | exact ⟨h.kept, h.now, h.ids⟩)
theorem State.takeAdvert_quiet {s0 : State} {s : State} (i : Nat) (w : Word) (h : s0.Quiet s) :
    s0.Quiet (State.takeAdvert s i w) := by
  unfold State.takeAdvert
  repeat' (first | with_reducible exact h | (intro f s h) | (intro s h) | with_reducible apply State.clash_quiet | (with_reducible refine foldl_quiet _ _ _ (fun s x h => ?_) ?_) | with_reducible apply quiet_ite | split | exact (fun _ => rfl) | (dsimp only) | exact ⟨h.kept, h.now, h.ids⟩)
theorem State.takeStatus_quiet {s0 : State} {s : State} (c : Nat) (ws : List Word) (h : s0.Quiet s) :
    s0.Quiet (State.takeStatus s c ws) := by
  unfold State.takeStatus
  repeat' (first | with_reducible exact h | (intro f s h) | (intro s h) | with_reducible apply State.onLd_quiet | (with_reducible refine foldl_quiet _ _ _ (fun s x h => ?_) ?_) | with_reducible apply quiet_ite | split | exact (fun _ => rfl) | (dsimp only) | exact ⟨h.kept, h.now, h.ids⟩)
theorem State.leafCell_quiet {s0 : State} {s : State} (c : Nat) (ws : List Word) (count : BitVec 32) (h : s0.Quiet s) :
    s0.Quiet (State.leafCell s c ws count) := by
  unfold State.leafCell
  repeat' (first | with_reducible exact h | (intro f s h) | (intro s h) | with_reducible apply State.bankMessage_quiet | with_reducible apply State.lxMessage_quiet | with_reducible apply State.takeAdvert_quiet | with_reducible apply State.takeStatus_quiet | (with_reducible refine foldl_quiet _ _ _ (fun s x h => ?_) ?_) | with_reducible apply quiet_ite | split | exact (fun _ => rfl) | (dsimp only) | exact ⟨h.kept, h.now, h.ids⟩)
theorem State.hubBankMessage_quiet {s0 : State} {s : State} (c : Nat) (j : Nat) (w8 : Word) (w9 : Word) (h : s0.Quiet s) :
    s0.Quiet (State.hubBankMessage s c j w8 w9) := by
  unfold State.hubBankMessage
  repeat' (first | with_reducible exact h | (intro f s h) | (intro s h) | with_reducible apply State.onSl_quiet | with_reducible apply State.finishOpt_quiet | with_reducible apply State.hubCommit_quiet | with_reducible apply State.lapseEvent_quiet | with_reducible apply State.onLeaf_quiet | (with_reducible refine foldl_quiet _ _ _ (fun s x h => ?_) ?_) | with_reducible apply quiet_ite | split | exact (fun _ => rfl) | (dsimp only) | exact ⟨h.kept, h.now, h.ids⟩)
theorem State.hubCellIn_quiet {s0 : State} {s : State} (c : Nat) (j : Nat) (ws : List Word) (count : BitVec 32) (h : s0.Quiet s) :
    s0.Quiet (State.hubCellIn s c j ws count) := by
  unfold State.hubCellIn
  repeat' (first | with_reducible exact h | (intro f s h) | (intro s h) | with_reducible apply State.lxMessage_quiet | with_reducible apply State.onLeaf_quiet | with_reducible apply State.inPair_quiet | with_reducible apply State.takeAdvert_quiet | with_reducible apply State.takeStatus_quiet | with_reducible apply State.hubBankMessage_quiet | (with_reducible refine foldl_quiet _ _ _ (fun s x h => ?_) ?_) | with_reducible apply quiet_ite | split | exact (fun _ => rfl) | (dsimp only) | exact ⟨h.kept, h.now, h.ids⟩)
theorem State.hubIndicator_quiet {s0 : State} {s : State} (c : Nat) (j : Nat) (sw : Bool) (count : BitVec 32) (h : s0.Quiet s) :
    s0.Quiet (State.hubIndicator s c j sw count) := by
  unfold State.hubIndicator
  repeat' (first | with_reducible exact h | (intro f s h) | (intro s h) | with_reducible apply State.bankDone_quiet | with_reducible apply State.onLeaf_quiet | (with_reducible refine foldl_quiet _ _ _ (fun s x h => ?_) ?_) | with_reducible apply quiet_ite | split | exact (fun _ => rfl) | (dsimp only) | exact ⟨h.kept, h.now, h.ids⟩)
theorem State.missLeaves_quiet {s0 : State} {s : State} (c : Nat) (h : s0.Quiet s) :
    s0.Quiet (State.missLeaves s c) := by
  unfold State.missLeaves
  repeat' (first | with_reducible exact h | (intro f s h) | (intro s h) | with_reducible apply State.onPm_quiet | (with_reducible refine foldl_quiet _ _ _ (fun s x h => ?_) ?_) | with_reducible apply quiet_ite | split | exact (fun _ => rfl) | (dsimp only) | exact ⟨h.kept, h.now, h.ids⟩)
theorem State.searchLeaves_quiet {s0 : State} {s : State} (c : Nat) (cause : Option Nat) (h : s0.Quiet s) :
    s0.Quiet (State.searchLeaves s c cause) := by
  unfold State.searchLeaves
  repeat' (first | with_reducible exact h | (intro f s h) | (intro s h) | with_reducible apply State.enterSearch_quiet | with_reducible apply State.inPair_quiet | with_reducible apply State.missLeaves_quiet | (with_reducible refine foldl_quiet _ _ _ (fun s x h => ?_) ?_) | with_reducible apply quiet_ite | split | exact (fun _ => rfl) | (dsimp only) | exact ⟨h.kept, h.now, h.ids⟩)
theorem State.arrival_quiet {s0 : State} {s : State} (c : Nat) (j : Nat) (ofs : Int) (burst : Bool) (h : s0.Quiet s) :
    s0.Quiet (State.arrival s c j ofs burst) := by
  unfold State.arrival
  repeat' (first | with_reducible exact h | (intro f s h) | (intro s h) | with_reducible apply State.draw_quiet | with_reducible apply State.raise_quiet | with_reducible apply State.onLeaf_quiet | (with_reducible refine foldl_quiet _ _ _ (fun s x h => ?_) ?_) | with_reducible apply quiet_ite | split | exact (fun _ => rfl) | (dsimp only) | exact ⟨h.kept, h.now, h.ids⟩)
theorem State.loseLeaf_quiet {s0 : State} {s : State} (c : Nat) (j : Nat) (cause : Nat) (h : s0.Quiet s) :
    s0.Quiet (State.loseLeaf s c j cause) := by
  unfold State.loseLeaf
  repeat' (first | with_reducible exact h | (intro f s h) | (intro s h) | with_reducible apply State.raise_quiet | with_reducible apply State.onTrib_quiet | with_reducible apply State.onLeaf_quiet | (with_reducible refine foldl_quiet _ _ _ (fun s x h => ?_) ?_) | with_reducible apply quiet_ite | split | exact (fun _ => rfl) | (dsimp only) | exact ⟨h.kept, h.now, h.ids⟩)
theorem State.leavesPair_quiet {s0 : State} {s : State} (c : Nat) (j : Nat) (h : s0.Quiet s) :
    s0.Quiet (State.leavesPair s c j) := by
  unfold State.leavesPair
  repeat' (first | with_reducible exact h | (intro f s h) | (intro s h) | with_reducible apply State.breakMessage_quiet | with_reducible apply State.lxStop_quiet | with_reducible apply State.inPair_quiet | (with_reducible refine foldl_quiet _ _ _ (fun s x h => ?_) ?_) | with_reducible apply quiet_ite | split | exact (fun _ => rfl) | (dsimp only) | exact ⟨h.kept, h.now, h.ids⟩)
theorem State.lookGroup_quiet {s0 : State} {s : State} (c : Nat) (cause : Option Nat) (h : s0.Quiet s) :
    s0.Quiet (State.lookGroup s c cause) := by
  unfold State.lookGroup
  repeat' (first | with_reducible exact h | (intro f s h) | (intro s h) | with_reducible apply State.groupWindow_quiet | (with_reducible refine foldl_quiet _ _ _ (fun s x h => ?_) ?_) | with_reducible apply quiet_ite | split | exact (fun _ => rfl) | (dsimp only) | exact ⟨h.kept, h.now, h.ids⟩)
theorem State.rxEnter_quiet {s0 : State} {s : State} (c : Nat) (x : RxState) (h : s0.Quiet s) :
    s0.Quiet (State.rxEnter s c x) := by
  unfold State.rxEnter
  repeat' (first | with_reducible exact h | (intro f s h) | (intro s h) | with_reducible apply State.draw_quiet | with_reducible apply State.onRx_quiet | (with_reducible refine foldl_quiet _ _ _ (fun s x h => ?_) ?_) | with_reducible apply quiet_ite | split | exact (fun _ => rfl) | (dsimp only) | exact ⟨h.kept, h.now, h.ids⟩)
theorem State.startSearch_quiet {s0 : State} {s : State} (c : Nat) (h : s0.Quiet s) :
    s0.Quiet (State.startSearch s c) := by
  unfold State.startSearch
  repeat' (first | with_reducible exact h | (intro f s h) | (intro s h) | with_reducible apply State.onRx_quiet | with_reducible apply State.rxEnter_quiet | (with_reducible refine foldl_quiet _ _ _ (fun s x h => ?_) ?_) | with_reducible apply quiet_ite | split | exact (fun _ => rfl) | (dsimp only) | exact ⟨h.kept, h.now, h.ids⟩)
theorem State.acquire_quiet {s0 : State} {s : State} (c : Nat) (h : s0.Quiet s) :
    s0.Quiet (State.acquire s c) := by
  unfold State.acquire
  repeat' (first | with_reducible exact h | (intro f s h) | (intro s h) | with_reducible apply State.onRx_quiet | with_reducible apply State.startSearch_quiet | (with_reducible refine foldl_quiet _ _ _ (fun s x h => ?_) ?_) | with_reducible apply quiet_ite | split | exact (fun _ => rfl) | (dsimp only) | exact ⟨h.kept, h.now, h.ids⟩)
theorem State.endHit_quiet {s0 : State} {s : State} (c : Nat) (h : s0.Quiet s) :
    s0.Quiet (State.endHit s c) := by
  unfold State.endHit
  repeat' (first | with_reducible exact h | (intro f s h) | (intro s h) | with_reducible apply State.onRx_quiet | with_reducible apply State.restate_quiet | (with_reducible refine foldl_quiet _ _ _ (fun s x h => ?_) ?_) | with_reducible apply quiet_ite | split | exact (fun _ => rfl) | (dsimp only) | exact ⟨h.kept, h.now, h.ids⟩)
theorem State.nextSearch_quiet {s0 : State} {s : State} (c : Nat) (h : s0.Quiet s) :
    s0.Quiet (State.nextSearch s c) := by
  unfold State.nextSearch
  repeat' (first | with_reducible exact h | (intro f s h) | (intro s h) | with_reducible apply State.raise_quiet | with_reducible apply State.onRx_quiet | with_reducible apply State.enterSearch_quiet | with_reducible apply State.lookGroup_quiet | with_reducible apply State.rxEnter_quiet | with_reducible apply State.endHit_quiet | (with_reducible refine foldl_quiet _ _ _ (fun s x h => ?_) ?_) | with_reducible apply quiet_ite | split | exact (fun _ => rfl) | (dsimp only) | exact ⟨h.kept, h.now, h.ids⟩)
theorem State.startRxCal_quiet {s0 : State} {s : State} (c : Nat) (h : s0.Quiet s) :
    s0.Quiet (State.startRxCal s c) := by
  unfold State.startRxCal
  repeat' (first | with_reducible exact h | (intro f s h) | (intro s h) | with_reducible apply State.onCal_quiet | with_reducible apply State.calStart_quiet | with_reducible apply State.rxEnter_quiet | (with_reducible refine foldl_quiet _ _ _ (fun s x h => ?_) ?_) | with_reducible apply quiet_ite | split | exact (fun _ => rfl) | (dsimp only) | exact ⟨h.kept, h.now, h.ids⟩)
theorem State.setWindow_quiet {s0 : State} {s : State} (c : Nat) (ceil : Nat) (now' : Bool) (h : s0.Quiet s) :
    s0.Quiet (State.setWindow s c ceil now') := by
  unfold State.setWindow
  repeat' (first | with_reducible exact h | (intro f s h) | (intro s h) | with_reducible apply State.onChan_quiet | with_reducible apply State.restate_quiet | with_reducible apply State.startSearch_quiet | (with_reducible refine foldl_quiet _ _ _ (fun s x h => ?_) ?_) | with_reducible apply quiet_ite | split | exact (fun _ => rfl) | (dsimp only) | exact ⟨h.kept, h.now, h.ids⟩)
theorem State.applyWindows_quiet {s0 : State} {s : State} (c : Nat) (now' : Bool) (h : s0.Quiet s) :
    s0.Quiet (State.applyWindows s c now') := by
  unfold State.applyWindows
  repeat' (first | with_reducible exact h | (intro f s h) | (intro s h) | with_reducible apply State.onRx_quiet | with_reducible apply State.finishId_quiet | with_reducible apply State.setWindow_quiet | (with_reducible refine foldl_quiet _ _ _ (fun s x h => ?_) ?_) | with_reducible apply quiet_ite | split | exact (fun _ => rfl) | (dsimp only) | exact ⟨h.kept, h.now, h.ids⟩)
theorem State.windowBoundary_quiet {s0 : State} {s : State} (c : Nat) (m : BitVec 32) (h : s0.Quiet s) :
    s0.Quiet (State.windowBoundary s c m) := by
  unfold State.windowBoundary
  repeat' (first | with_reducible exact h | (intro f s h) | (intro s h) | with_reducible apply State.onRx_quiet | with_reducible apply State.applyWindows_quiet | (with_reducible refine foldl_quiet _ _ _ (fun s x h => ?_) ?_) | with_reducible apply quiet_ite | split | exact (fun _ => rfl) | (dsimp only) | exact ⟨h.kept, h.now, h.ids⟩)
theorem State.loseAcq_quiet {s0 : State} {s : State} (c : Nat) (cause : Nat) (by_ : Option Nat) (h : s0.Quiet s) :
    s0.Quiet (State.loseAcq s c cause by_) := by
  unfold State.loseAcq
  repeat' (first | with_reducible exact h | (intro f s h) | (intro s h) | with_reducible apply State.raise_quiet | with_reducible apply State.onChan_quiet | with_reducible apply State.enterSearch_quiet | with_reducible apply State.calAbandon_quiet | with_reducible apply State.searchLeaves_quiet | with_reducible apply State.lookGroup_quiet | with_reducible apply State.rxEnter_quiet | with_reducible apply State.startSearch_quiet | with_reducible apply State.endHit_quiet | with_reducible apply State.applyWindows_quiet | (with_reducible refine foldl_quiet _ _ _ (fun s x h => ?_) ?_) | with_reducible apply quiet_ite | split | exact (fun _ => rfl) | (dsimp only) | exact ⟨h.kept, h.now, h.ids⟩)
theorem State.endRxCal_quiet {s0 : State} {s : State} (c : Nat) (h : s0.Quiet s) :
    s0.Quiet (State.endRxCal s c) := by
  unfold State.endRxCal
  repeat' (first | with_reducible exact h | (intro f s h) | (intro s h) | with_reducible apply State.onRx_quiet | with_reducible apply State.acquire_quiet | (with_reducible refine foldl_quiet _ _ _ (fun s x h => ?_) ?_) | with_reducible apply quiet_ite | split | exact (fun _ => rfl) | (dsimp only) | exact ⟨h.kept, h.now, h.ids⟩)
theorem State.track_quiet {s0 : State} {s : State} (c : Nat) (cd : Int) (h : s0.Quiet s) :
    s0.Quiet (State.track s c cd) := by
  unfold State.track
  repeat' (first | with_reducible exact h | (intro f s h) | (intro s h) | with_reducible apply State.raise_quiet | with_reducible apply State.onRx_quiet | with_reducible apply State.clockRises_quiet | with_reducible apply State.rxEnter_quiet | (with_reducible refine foldl_quiet _ _ _ (fun s x h => ?_) ?_) | with_reducible apply quiet_ite | split | exact (fun _ => rfl) | (dsimp only) | exact ⟨h.kept, h.now, h.ids⟩)
theorem State.pilotLocked_quiet {s0 : State} {s : State} (c : Nat) (mask : BitVec 16) (odd : Bool) (h : s0.Quiet s) :
    s0.Quiet (State.pilotLocked s c mask odd) := by
  unfold State.pilotLocked
  repeat' (first | with_reducible exact h | (intro f s h) | (intro s h) | with_reducible apply State.onLd_quiet | with_reducible apply State.onRx_quiet | with_reducible apply State.lxRxSwitch_quiet | with_reducible apply State.indUnexpected_quiet | (with_reducible refine foldl_quiet _ _ _ (fun s x h => ?_) ?_) | with_reducible apply quiet_ite | split | exact (fun _ => rfl) | (dsimp only) | exact ⟨h.kept, h.now, h.ids⟩)
theorem State.lockEvent_quiet {s0 : State} {s : State} (c : Nat) (i : Nat) (lost : Bool) (h : s0.Quiet s) :
    s0.Quiet (State.lockEvent s c i lost) := by
  unfold State.lockEvent
  repeat' (first | with_reducible exact h | (intro f s h) | (intro s h) | with_reducible apply State.raise_quiet | (with_reducible refine foldl_quiet _ _ _ (fun s x h => ?_) ?_) | with_reducible apply quiet_ite | split | exact (fun _ => rfl) | (dsimp only) | exact ⟨h.kept, h.now, h.ids⟩)
theorem State.shutEvent_quiet {s0 : State} {s : State} (c : Nat) (k : Nat) (h : s0.Quiet s) :
    s0.Quiet (State.shutEvent s c k) := by
  unfold State.shutEvent
  repeat' (first | with_reducible exact h | (intro f s h) | (intro s h) | with_reducible apply State.raise_quiet | with_reducible apply State.onOpt_quiet | (with_reducible refine foldl_quiet _ _ _ (fun s x h => ?_) ?_) | with_reducible apply quiet_ite | split | exact (fun _ => rfl) | (dsimp only) | exact ⟨h.kept, h.now, h.ids⟩)
theorem State.latchCause_quiet {s0 : State} {s : State} (c : Nat) (k : Nat) (h : s0.Quiet s) :
    s0.Quiet (State.latchCause s c k) := by
  unfold State.latchCause
  repeat' (first | with_reducible exact h | (intro f s h) | (intro s h) | with_reducible apply State.onOpt_quiet | with_reducible apply State.shutEvent_quiet | (with_reducible refine foldl_quiet _ _ _ (fun s x h => ?_) ?_) | with_reducible apply quiet_ite | split | exact (fun _ => rfl) | (dsimp only) | exact ⟨h.kept, h.now, h.ids⟩)
theorem State.openOutput_quiet {s0 : State} {s : State} (c : Nat) (h : s0.Quiet s) :
    s0.Quiet (State.openOutput s c) := by
  unfold State.openOutput
  repeat' (first | with_reducible exact h | (intro f s h) | (intro s h) | with_reducible apply State.raise_quiet | with_reducible apply State.onOpt_quiet | (with_reducible refine foldl_quiet _ _ _ (fun s x h => ?_) ?_) | with_reducible apply quiet_ite | split | exact (fun _ => rfl) | (dsimp only) | exact ⟨h.kept, h.now, h.ids⟩)
theorem State.stopChannel_quiet {s0 : State} {s : State} (c : Nat) (step : Nat) (h : s0.Quiet s) :
    s0.Quiet (State.stopChannel s c step) := by
  unfold State.stopChannel
  repeat' (first | with_reducible exact h | (intro f s h) | (intro s h) | with_reducible apply State.onChan_quiet | with_reducible apply State.calAbandon_quiet | (with_reducible refine foldl_quiet _ _ _ (fun s x h => ?_) ?_) | with_reducible apply quiet_ite | split | exact (fun _ => rfl) | (dsimp only) | exact ⟨h.kept, h.now, h.ids⟩)
theorem State.laserTrip_quiet {s0 : State} {s : State} (c : Nat) (h : s0.Quiet s) :
    s0.Quiet (State.laserTrip s c) := by
  unfold State.laserTrip
  repeat' (first | with_reducible exact h | (intro f s h) | (intro s h) | with_reducible apply State.onOpt_quiet | with_reducible apply State.finishOpt_quiet | with_reducible apply State.loseAcq_quiet | with_reducible apply State.latchCause_quiet | with_reducible apply State.stopChannel_quiet | (with_reducible refine foldl_quiet _ _ _ (fun s x h => ?_) ?_) | with_reducible apply quiet_ite | split | exact (fun _ => rfl) | (dsimp only) | exact ⟨h.kept, h.now, h.ids⟩)
theorem State.takeCapture_quiet {s0 : State} {s : State} (c : Nat) (a : CapArm) (x : CapSample) (h : s0.Quiet s) :
    s0.Quiet (State.takeCapture s c a x) := by
  unfold State.takeCapture
  repeat' (first | with_reducible exact h | (intro f s h) | (intro s h) | with_reducible apply State.raise_quiet | with_reducible apply State.onCap_quiet | with_reducible apply State.rewrite_quiet | (with_reducible refine foldl_quiet _ _ _ (fun s x h => ?_) ?_) | with_reducible apply quiet_ite | split | exact (fun _ => rfl) | (dsimp only) | exact ⟨h.kept, h.now, h.ids⟩)
theorem State.fillCapture_quiet {s0 : State} {s : State} (c : Nat) (d : CapData) (f : Flight) (h : s0.Quiet s) :
    s0.Quiet (State.fillCapture s c d f) := by
  unfold State.fillCapture
  repeat' (first | with_reducible exact h | (intro f s h) | (intro s h) | with_reducible apply State.onCap_quiet | with_reducible apply State.onRing_quiet | with_reducible apply State.writeBuf_quiet | with_reducible apply State.finish_quiet | with_reducible apply State.dmaRead_quiet | (with_reducible refine foldl_quiet _ _ _ (fun s x h => ?_) ?_) | with_reducible apply quiet_ite | split | exact (fun _ => rfl) | (dsimp only) | exact ⟨h.kept, h.now, h.ids⟩)
theorem State.startStep_quiet {s0 : State} {s : State} (c : Nat) (k : Nat) (h : s0.Quiet s) :
    s0.Quiet (State.startStep s c k) := by
  unfold State.startStep
  repeat' (first | with_reducible exact h | (intro f s h) | (intro s h) | with_reducible apply State.raise_quiet | with_reducible apply State.onChan_quiet | with_reducible apply State.startTxCal_quiet | (with_reducible refine foldl_quiet _ _ _ (fun s x h => ?_) ?_) | with_reducible apply quiet_ite | split | exact (fun _ => rfl) | (dsimp only) | exact ⟨h.kept, h.now, h.ids⟩)
theorem State.powerUp_quiet {s0 : State} {s : State} (c : Nat) (h : s0.Quiet s) :
    s0.Quiet (State.powerUp s c) := by
  unfold State.powerUp
  repeat' (first | with_reducible exact h | (intro f s h) | (intro s h) | with_reducible apply State.onPw_quiet | with_reducible apply State.onConv_quiet | with_reducible apply State.onSram_quiet | (with_reducible refine foldl_quiet _ _ _ (fun s x h => ?_) ?_) | with_reducible apply quiet_ite | split | exact (fun _ => rfl) | (dsimp only) | exact ⟨h.kept, h.now, h.ids⟩)
theorem State.goUp_quiet {s0 : State} {s : State} (c : Nat) (h : s0.Quiet s) :
    s0.Quiet (State.goUp s c) := by
  unfold State.goUp
  repeat' (first | with_reducible exact h | (intro f s h) | (intro s h) | with_reducible apply State.onChan_quiet | with_reducible apply State.finishOpt_quiet | with_reducible apply State.restate_quiet | with_reducible apply State.refreshSlots_quiet | with_reducible apply State.openOutput_quiet | (with_reducible refine foldl_quiet _ _ _ (fun s x h => ?_) ?_) | with_reducible apply quiet_ite | split | exact (fun _ => rfl) | (dsimp only) | exact ⟨h.kept, h.now, h.ids⟩)
theorem State.stepDone_quiet {s0 : State} {s : State} (c : Nat) (h : s0.Quiet s) :
    s0.Quiet (State.stepDone s c) := by
  unfold State.stepDone
  repeat' (first | with_reducible exact h | (intro f s h) | (intro s h) | with_reducible apply State.startStep_quiet | with_reducible apply State.powerUp_quiet | with_reducible apply State.goUp_quiet | (with_reducible refine foldl_quiet _ _ _ (fun s x h => ?_) ?_) | with_reducible apply quiet_ite | split | exact (fun _ => rfl) | (dsimp only) | exact ⟨h.kept, h.now, h.ids⟩)
theorem State.bringupStops_quiet {s0 : State} {s : State} (c : Nat) (h : s0.Quiet s) :
    s0.Quiet (State.bringupStops s c) := by
  unfold State.bringupStops
  repeat' (first | with_reducible exact h | (intro f s h) | (intro s h) | with_reducible apply State.finishOpt_quiet | with_reducible apply State.stopChannel_quiet | (with_reducible refine foldl_quiet _ _ _ (fun s x h => ?_) ?_) | with_reducible apply quiet_ite | split | exact (fun _ => rfl) | (dsimp only) | exact ⟨h.kept, h.now, h.ids⟩)
theorem State.shapeBoundary_quiet {s0 : State} {s : State} (c : Nat) (h : s0.Quiet s) :
    s0.Quiet (State.shapeBoundary s c) := by
  unfold State.shapeBoundary
  repeat' (first | with_reducible exact h | (intro f s h) | (intro s h) | with_reducible apply State.onBu_quiet | with_reducible apply State.finishId_quiet | (with_reducible refine foldl_quiet _ _ _ (fun s x h => ?_) ?_) | with_reducible apply quiet_ite | split | exact (fun _ => rfl) | (dsimp only) | exact ⟨h.kept, h.now, h.ids⟩)
theorem State.onLane_quiet {s0 : State} {s : State} (n : Nat) (g : Lane → Lane) (h : s0.Quiet s) :
    s0.Quiet (State.onLane s n g) := by
  unfold State.onLane
  repeat' (first | with_reducible exact h | (intro f s h) | (intro s h) | with_reducible apply State.onKp_quiet | (with_reducible refine foldl_quiet _ _ _ (fun s x h => ?_) ?_) | with_reducible apply quiet_ite | split | exact (fun _ => rfl) | (dsimp only) | exact ⟨h.kept, h.now, h.ids⟩)
theorem State.faultLane_quiet {s0 : State} {s : State} (n : Nat) (cause : Nat) (h : s0.Quiet s) :
    s0.Quiet (State.faultLane s n cause) := by
  unfold State.faultLane
  repeat' (first | with_reducible exact h | (intro f s h) | (intro s h) | with_reducible apply State.raise_quiet | with_reducible apply State.onLane_quiet | (with_reducible refine foldl_quiet _ _ _ (fun s x h => ?_) ?_) | with_reducible apply quiet_ite | split | exact (fun _ => rfl) | (dsimp only) | exact ⟨h.kept, h.now, h.ids⟩)
theorem State.lanesDone_quiet {s0 : State} {s : State} (c : Nat) (h : s0.Quiet s) :
    s0.Quiet (State.lanesDone s c) := by
  unfold State.lanesDone
  repeat' (first | with_reducible exact h | (intro f s h) | (intro s h) | with_reducible apply State.onKp_quiet | with_reducible apply State.finishAll_quiet | (with_reducible refine foldl_quiet _ _ _ (fun s x h => ?_) ?_) | with_reducible apply quiet_ite | split | exact (fun _ => rfl) | (dsimp only) | exact ⟨h.kept, h.now, h.ids⟩)
theorem State.meritBoundary_quiet {s0 : State} {s : State} (c : Nat) (merits : List (BitVec 8)) (h : s0.Quiet s) :
    s0.Quiet (State.meritBoundary s c merits) := by
  unfold State.meritBoundary
  repeat' (first | with_reducible exact h | (intro f s h) | (intro s h) | with_reducible apply State.onLane_quiet | (with_reducible refine foldl_quiet _ _ _ (fun s x h => ?_) ?_) | with_reducible apply quiet_ite | split | exact (fun _ => rfl) | (dsimp only) | exact ⟨h.kept, h.now, h.ids⟩)
theorem State.recovered_quiet {s0 : State} {s : State} (c : Nat) (h : s0.Quiet s) :
    s0.Quiet (State.recovered s c) := by
  unfold State.recovered
  repeat' (first | with_reducible exact h | (intro f s h) | (intro s h) | with_reducible apply State.raise_quiet | with_reducible apply State.onLane_quiet | (with_reducible refine foldl_quiet _ _ _ (fun s x h => ?_) ?_) | with_reducible apply quiet_ite | split | exact (fun _ => rfl) | (dsimp only) | exact ⟨h.kept, h.now, h.ids⟩)
theorem State.phase_quiet {s0 : State} {s : State} (c : Nat) (phase : Int) (h : s0.Quiet s) :
    s0.Quiet (State.phase s c phase) := by
  unfold State.phase
  repeat' (first | with_reducible exact h | (intro f s h) | (intro s h) | with_reducible apply State.raise_quiet | with_reducible apply State.onKp_quiet | (with_reducible refine foldl_quiet _ _ _ (fun s x h => ?_) ?_) | with_reducible apply quiet_ite | split | exact (fun _ => rfl) | (dsimp only) | exact ⟨h.kept, h.now, h.ids⟩)
theorem State.hostIn_quiet {s0 : State} {s : State} (c : Nat) (ws : List Word) (clear : Bool) (phase : Int) (devs : List (Nat × Int)) (h : s0.Quiet s) :
    s0.Quiet (State.hostIn s c ws clear phase devs) := by
  unfold State.hostIn
  repeat' (first | with_reducible exact h | (intro f s h) | (intro s h) | with_reducible apply State.raise_quiet | with_reducible apply State.onKp_quiet | with_reducible apply State.deviations_quiet | with_reducible apply State.onLane_quiet | with_reducible apply State.recovered_quiet | with_reducible apply State.phase_quiet | (with_reducible refine foldl_quiet _ _ _ (fun s x h => ?_) ?_) | with_reducible apply quiet_ite | split | exact (fun _ => rfl) | (dsimp only) | exact ⟨h.kept, h.now, h.ids⟩)
theorem State.takeHost_quiet {s0 : State} {s : State} (c : Nat) (phase : Int) (ins : List LaneIn) (devs : List (Nat × Int)) (h : s0.Quiet s) :
    s0.Quiet (State.takeHost s c phase ins devs) := by
  unfold State.takeHost
  repeat' (first | with_reducible exact h | (intro f s h) | (intro s h) | with_reducible apply State.onKp_quiet | with_reducible apply State.recovered_quiet | with_reducible apply State.hostIn_quiet | (with_reducible refine foldl_quiet _ _ _ (fun s x h => ?_) ?_) | with_reducible apply quiet_ite | split | exact (fun _ => rfl) | (dsimp only) | exact ⟨h.kept, h.now, h.ids⟩)
theorem State.beginLevel_quiet {s0 : State} {s : State} (c : Nat) (l : Level) (id : Nat) (h : s0.Quiet s) :
    s0.Quiet (State.beginLevel s c l id) := by
  unfold State.beginLevel
  repeat' (first | with_reducible exact h | (intro f s h) | (intro s h) | with_reducible apply State.onPw_quiet | with_reducible apply State.calResume_quiet | with_reducible apply State.calAbandon_quiet | (with_reducible refine foldl_quiet _ _ _ (fun s x h => ?_) ?_) | with_reducible apply quiet_ite | split | exact (fun _ => rfl) | (dsimp only) | exact ⟨h.kept, h.now, h.ids⟩)
theorem State.levelDone_quiet {s0 : State} {s : State} (c : Nat) (h : s0.Quiet s) :
    s0.Quiet (State.levelDone s c) := by
  unfold State.levelDone
  repeat' (first | with_reducible exact h | (intro f s h) | (intro s h) | with_reducible apply State.raise_quiet | with_reducible apply State.onPw_quiet | with_reducible apply State.finishOpt_quiet | (with_reducible refine foldl_quiet _ _ _ (fun s x h => ?_) ?_) | with_reducible apply quiet_ite | split | exact (fun _ => rfl) | (dsimp only) | exact ⟨h.kept, h.now, h.ids⟩)
theorem State.levelFailed_quiet {s0 : State} {s : State} (c : Nat) (h : s0.Quiet s) :
    s0.Quiet (State.levelFailed s c) := by
  unfold State.levelFailed
  repeat' (first | with_reducible exact h | (intro f s h) | (intro s h) | with_reducible apply State.raise_quiet | with_reducible apply State.onPw_quiet | with_reducible apply State.finishOpt_quiet | (with_reducible refine foldl_quiet _ _ _ (fun s x h => ?_) ?_) | with_reducible apply quiet_ite | split | exact (fun _ => rfl) | (dsimp only) | exact ⟨h.kept, h.now, h.ids⟩)
theorem State.railCheck_quiet {s0 : State} {s : State} (c : Nat) (mv : Nat) (h : s0.Quiet s) :
    s0.Quiet (State.railCheck s c mv) := by
  unfold State.railCheck
  repeat' (first | with_reducible exact h | (intro f s h) | (intro s h) | with_reducible apply State.at_quiet | with_reducible apply State.onPw_quiet | with_reducible apply State.onConv_quiet | (with_reducible refine foldl_quiet _ _ _ (fun s x h => ?_) ?_) | with_reducible apply quiet_ite | split | exact (fun _ => rfl) | (dsimp only) | exact ⟨h.kept, h.now, h.ids⟩)
theorem State.withdraw_quiet {s0 : State} {s : State} (c : Nat) (ids : List Nat) (h : s0.Quiet s) :
    s0.Quiet (State.withdraw s c ids) := by
  unfold State.withdraw
  repeat' (first | with_reducible exact h | (intro f s h) | (intro s h) | with_reducible apply State.onSram_quiet | (with_reducible refine foldl_quiet _ _ _ (fun s x h => ?_) ?_) | with_reducible apply quiet_ite | split | exact (fun _ => rfl) | (dsimp only) | exact ⟨h.kept, h.now, h.ids⟩)
theorem State.cut_quiet {s0 : State} {s : State} (c : Nat) (keep : Nat) (h : s0.Quiet s) :
    s0.Quiet (State.cut s c keep) := by
  unfold State.cut
  repeat' (first | with_reducible exact h | (intro f s h) | (intro s h) | with_reducible apply State.finishAll_quiet | with_reducible apply State.withdraw_quiet | (with_reducible refine foldl_quiet _ _ _ (fun s x h => ?_) ?_) | with_reducible apply quiet_ite | split | exact (fun _ => rfl) | (dsimp only) | exact ⟨h.kept, h.now, h.ids⟩)
theorem State.stopReports_quiet {s0 : State} {s : State} (c : Nat) (h : s0.Quiet s) :
    s0.Quiet (State.stopReports s c) := by
  unfold State.stopReports
  repeat' (first | with_reducible exact h | (intro f s h) | (intro s h) | with_reducible apply State.breakMessage_quiet | with_reducible apply State.cutMultiframe_quiet | with_reducible apply State.lxStop_quiet | with_reducible apply State.selfcalOver_quiet | with_reducible apply State.inPair_quiet | (with_reducible refine foldl_quiet _ _ _ (fun s x h => ?_) ?_) | with_reducible apply quiet_ite | split | exact (fun _ => rfl) | (dsimp only) | exact ⟨h.kept, h.now, h.ids⟩)
theorem State.stopFrames_quiet {s0 : State} {s : State} (c : Nat) (keep : Nat) (h : s0.Quiet s) :
    s0.Quiet (State.stopFrames s c keep) := by
  unfold State.stopFrames
  repeat' (first | with_reducible exact h | (intro f s h) | (intro s h) | with_reducible apply State.draw_quiet | with_reducible apply State.onChan_quiet | with_reducible apply State.onConv_quiet | with_reducible apply State.payOwed_quiet | with_reducible apply State.onTrib_quiet | with_reducible apply State.calAbandon_quiet | with_reducible apply State.lookGroup_quiet | with_reducible apply State.cut_quiet | with_reducible apply State.stopReports_quiet | (with_reducible refine foldl_quiet _ _ _ (fun s x h => ?_) ?_) | with_reducible apply quiet_ite | split | exact (fun _ => rfl) | (dsimp only) | exact ⟨h.kept, h.now, h.ids⟩)
theorem State.lanesSleep_quiet {s0 : State} {s : State} (c : Nat) (h : s0.Quiet s) :
    s0.Quiet (State.lanesSleep s c) := by
  unfold State.lanesSleep
  repeat' (first | with_reducible exact h | (intro f s h) | (intro s h) | with_reducible apply State.onKp_quiet | with_reducible apply State.finishAll_quiet | (with_reducible refine foldl_quiet _ _ _ (fun s x h => ?_) ?_) | with_reducible apply quiet_ite | split | exact (fun _ => rfl) | (dsimp only) | exact ⟨h.kept, h.now, h.ids⟩)
theorem State.goDark_quiet {s0 : State} {s : State} (c : Nat) (h : s0.Quiet s) :
    s0.Quiet (State.goDark s c) := by
  unfold State.goDark
  repeat' (first | with_reducible exact h | (intro f s h) | (intro s h) | with_reducible apply State.onChan_quiet | with_reducible apply State.onConv_quiet | with_reducible apply State.disarm_quiet | with_reducible apply State.lanesSleep_quiet | (with_reducible refine foldl_quiet _ _ _ (fun s x h => ?_) ?_) | with_reducible apply quiet_ite | split | exact (fun _ => rfl) | (dsimp only) | exact ⟨h.kept, h.now, h.ids⟩)
theorem State.beginSleep_quiet {s0 : State} {s : State} (f : Flight) (t : Transit) (w : Wakes) (timer : Option Nat) (h : s0.Quiet s) :
    s0.Quiet (State.beginSleep s f t w timer) := by
  unfold State.beginSleep
  repeat' (first | with_reducible exact h | (intro f s h) | (intro s h) | with_reducible apply State.onPw_quiet | with_reducible apply State.run_quiet | with_reducible apply State.stopFrames_quiet | (with_reducible refine foldl_quiet _ _ _ (fun s x h => ?_) ?_) | with_reducible apply quiet_ite | split | exact (fun _ => rfl) | (dsimp only) | exact ⟨h.kept, h.now, h.ids⟩)
theorem State.beginExit_quiet {s0 : State} {s : State} (c : Nat) (cause : Nat) (latched : Bool) (h : s0.Quiet s) :
    s0.Quiet (State.beginExit s c cause latched) := by
  unfold State.beginExit
  repeat' (first | with_reducible exact h | (intro f s h) | (intro s h) | with_reducible apply State.onChan_quiet | (with_reducible refine foldl_quiet _ _ _ (fun s x h => ?_) ?_) | with_reducible apply quiet_ite | split | exact (fun _ => rfl) | (dsimp only) | exact ⟨h.kept, h.now, h.ids⟩)
theorem State.hwWake_quiet {s0 : State} {s : State} (c : Nat) (cause : Nat) (h : s0.Quiet s) :
    s0.Quiet (State.hwWake s c cause) := by
  unfold State.hwWake
  repeat' (first | with_reducible exact h | (intro f s h) | (intro s h) | with_reducible apply State.onPw_quiet | with_reducible apply State.beginExit_quiet | (with_reducible refine foldl_quiet _ _ _ (fun s x h => ?_) ?_) | with_reducible apply quiet_ite | split | exact (fun _ => rfl) | (dsimp only) | exact ⟨h.kept, h.now, h.ids⟩)
theorem State.sleepDone_quiet {s0 : State} {s : State} (c : Nat) (h : s0.Quiet s) :
    s0.Quiet (State.sleepDone s c) := by
  unfold State.sleepDone
  repeat' (first | with_reducible exact h | (intro f s h) | (intro s h) | with_reducible apply State.raise_quiet | with_reducible apply State.onPw_quiet | with_reducible apply State.finishOpt_quiet | with_reducible apply State.lanesSleep_quiet | with_reducible apply State.goDark_quiet | with_reducible apply State.beginExit_quiet | (with_reducible refine foldl_quiet _ _ _ (fun s x h => ?_) ?_) | with_reducible apply quiet_ite | split | exact (fun _ => rfl) | (dsimp only) | exact ⟨h.kept, h.now, h.ids⟩)
theorem State.exitDone_quiet {s0 : State} {s : State} (c : Nat) (h : s0.Quiet s) :
    s0.Quiet (State.exitDone s c) := by
  unfold State.exitDone
  repeat' (first | with_reducible exact h | (intro f s h) | (intro s h) | with_reducible apply State.raise_quiet | with_reducible apply State.onChan_quiet | with_reducible apply State.onConv_quiet | with_reducible apply State.finishAll_quiet | with_reducible apply State.bankSettle_quiet | with_reducible apply State.missLeaves_quiet | with_reducible apply State.openOutput_quiet | (with_reducible refine foldl_quiet _ _ _ (fun s x h => ?_) ?_) | with_reducible apply quiet_ite | split | exact (fun _ => rfl) | (dsimp only) | exact ⟨h.kept, h.now, h.ids⟩)
theorem State.beginReset_quiet {s0 : State} {s : State} (f : Flight) (h : s0.Quiet s) :
    s0.Quiet (State.beginReset s f) := by
  unfold State.beginReset
  repeat' (first | with_reducible exact h | (intro f s h) | (intro s h) | with_reducible apply State.onPw_quiet | with_reducible apply State.run_quiet | with_reducible apply State.stopFrames_quiet | (with_reducible refine foldl_quiet _ _ _ (fun s x h => ?_) ?_) | with_reducible apply quiet_ite | split | exact (fun _ => rfl) | (dsimp only) | exact ⟨h.kept, h.now, h.ids⟩)
theorem State.txCounted_quiet {s0 : State} {s : State} (x : TxTrib) (h : s0.Quiet s) :
    s0.Quiet (State.txCounted s x) := by
  unfold State.txCounted
  repeat' (first | with_reducible exact h | (intro f s h) | (intro s h) | with_reducible apply State.finishAll_quiet | with_reducible apply State.onTrib_quiet | with_reducible apply State.drawMasks_quiet | with_reducible apply State.setCipherOf_quiet | (with_reducible refine foldl_quiet _ _ _ (fun s x h => ?_) ?_) | with_reducible apply quiet_ite | split | exact (fun _ => rfl) | (dsimp only) | exact ⟨h.kept, h.now, h.ids⟩)
theorem State.chunkSent_quiet {s0 : State} {s : State} (c : Nat) (h : s0.Quiet s) :
    s0.Quiet (State.chunkSent s c) := by
  unfold State.chunkSent
  repeat' (first | with_reducible exact h | (intro f s h) | (intro s h) | with_reducible apply State.onChan_quiet | with_reducible apply State.finishOpt_quiet | (with_reducible refine foldl_quiet _ _ _ (fun s x h => ?_) ?_) | with_reducible apply quiet_ite | split | exact (fun _ => rfl) | (dsimp only) | exact ⟨h.kept, h.now, h.ids⟩)
theorem State.bodySent_quiet {s0 : State} {s : State} (c : Nat) (h : s0.Quiet s) :
    s0.Quiet (State.bodySent s c) := by
  unfold State.bodySent
  repeat' (first | with_reducible exact h | (intro f s h) | (intro s h) | with_reducible apply State.bankSent_quiet | with_reducible apply State.lxSent_quiet | (with_reducible refine foldl_quiet _ _ _ (fun s x h => ?_) ?_) | with_reducible apply quiet_ite | split | exact (fun _ => rfl) | (dsimp only) | exact ⟨h.kept, h.now, h.ids⟩)
theorem State.sendFrame_quiet {s0 : State} {s : State} (xs : List TxTrib) (c : Nat) (h : s0.Quiet s) :
    s0.Quiet (State.sendFrame s xs c) := by
  unfold State.sendFrame
  repeat' (first | with_reducible exact h | (intro f s h) | (intro s h) | with_reducible apply State.emit_quiet | with_reducible apply State.onPm_quiet | with_reducible apply State.onChan_quiet | with_reducible apply State.ready_quiet | with_reducible apply State.cellsSent_quiet | with_reducible apply State.leafBodySent_quiet | with_reducible apply State.chunkSent_quiet | with_reducible apply State.bodySent_quiet | (with_reducible refine foldl_quiet _ _ _ (fun s x h => ?_) ?_) | with_reducible apply quiet_ite | split | exact (fun _ => rfl) | (dsimp only) | exact ⟨h.kept, h.now, h.ids⟩)
theorem State.sendLane_quiet {s0 : State} {s : State} (c : Nat) (host : List Word) (p : Nat) (fill : Nat) (h : s0.Quiet s) :
    s0.Quiet (State.sendLane s c host p fill) := by
  unfold State.sendLane
  repeat' (first | with_reducible exact h | (intro f s h) | (intro s h) | with_reducible apply State.emit_quiet | with_reducible apply State.onLane_quiet | (with_reducible refine foldl_quiet _ _ _ (fun s x h => ?_) ?_) | with_reducible apply quiet_ite | split | exact (fun _ => rfl) | (dsimp only) | exact ⟨h.kept, h.now, h.ids⟩)
theorem State.sendHost_quiet {s0 : State} {s : State} (es : List EgTrib) (fills : List Nat) (c : Nat) (h : s0.Quiet s) :
    s0.Quiet (State.sendHost s es fills c) := by
  unfold State.sendHost
  repeat' (first | with_reducible exact h | (intro f s h) | (intro s h) | with_reducible apply State.emit_quiet | with_reducible apply State.sendLane_quiet | (with_reducible refine foldl_quiet _ _ _ (fun s x h => ?_) ?_) | with_reducible apply quiet_ite | split | exact (fun _ => rfl) | (dsimp only) | exact ⟨h.kept, h.now, h.ids⟩)
theorem State.missHost_quiet {s0 : State} {s : State} (c : Nat) (h : s0.Quiet s) :
    s0.Quiet (State.missHost s c) := by
  unfold State.missHost
  repeat' (first | with_reducible exact h | (intro f s h) | (intro s h) | with_reducible apply State.raise_quiet | with_reducible apply State.onKp_quiet | (with_reducible refine foldl_quiet _ _ _ (fun s x h => ?_) ?_) | with_reducible apply quiet_ite | split | exact (fun _ => rfl) | (dsimp only) | exact ⟨h.kept, h.now, h.ids⟩)
theorem State.usedHost_quiet {s0 : State} {s : State} (c : Nat) (h : s0.Quiet s) :
    s0.Quiet (State.usedHost s c) := by
  unfold State.usedHost
  repeat' (first | with_reducible exact h | (intro f s h) | (intro s h) | with_reducible apply State.onKp_quiet | (with_reducible refine foldl_quiet _ _ _ (fun s x h => ?_) ?_) | with_reducible apply quiet_ite | split | exact (fun _ => rfl) | (dsimp only) | exact ⟨h.kept, h.now, h.ids⟩)
theorem State.fecFrame_quiet {s0 : State} {s : State} (c : Nat) (us : List Decoded) (coded : Nat) (place : Option (BitVec 32)) (h : s0.Quiet s) :
    s0.Quiet (State.fecFrame s c us coded place) := by
  unfold State.fecFrame
  repeat' (first | with_reducible exact h | (intro f s h) | (intro s h) | with_reducible apply State.raise_quiet | with_reducible apply State.onFec_quiet | (with_reducible refine foldl_quiet _ _ _ (fun s x h => ?_) ?_) | with_reducible apply quiet_ite | split | exact (fun _ => rfl) | (dsimp only) | exact ⟨h.kept, h.now, h.ids⟩)
theorem State.authFailed_quiet {s0 : State} {s : State} (i : Nat) (errored : Bool) (h : s0.Quiet s) :
    s0.Quiet (State.authFailed s i errored) := by
  unfold State.authFailed
  repeat' (first | with_reducible exact h | (intro f s h) | (intro s h) | with_reducible apply State.raise_quiet | with_reducible apply State.setCipherOf_quiet | (with_reducible refine foldl_quiet _ _ _ (fun s x h => ?_) ?_) | with_reducible apply quiet_ite | split | exact (fun _ => rfl) | (dsimp only) | exact ⟨h.kept, h.now, h.ids⟩)
theorem State.clientWords_quiet {s0 s : State} (i : Nat) (count : BitVec 32) (frame jc n : Nat) (ws : List Word)
    (errored : Bool) (tail : Option Carried) (h : s0.Quiet s) :
    s0.Quiet (s.clientWords i count frame jc n ws errored tail).1 := by
  unfold State.clientWords
  split
  · exact h
  · dsimp only
    split
    · exact State.authFailed_quiet _ _ (State.setCipherOf_quiet _ _ h)
    · split
      · exact State.setCipherOf_quiet _ _ h
      · split
        · exact State.authFailed_quiet _ _ (State.setCipherOf_quiet _ _ (State.drawMasks_quiet _ h))
        · exact State.setCipherOf_quiet _ _ (State.drawMasks_quiet _ h)
theorem State.deliver_quiet {s0 : State} {s : State} (x : RxTrib) (count : BitVec 32) (frame : Nat) (tail : Option Carried) (h : s0.Quiet s) :
    s0.Quiet (State.deliver s x count frame tail) := by
  have k (s : State) (errored : Bool) (h : s0.Quiet s) :
      s0.Quiet (s.clientWords x.i count frame x.jc x.n x.words errored tail).1 := State.clientWords_quiet _ _ _ _ _ _ _ _ h
  have w (s : State) (h : s0.Quiet s) : s0.Quiet (s.onTrib x.i Trib.idled) := State.onTrib_quiet _ _ h
  unfold State.deliver
  dsimp only
  refine quiet_ite h (quiet_ite (w _ h) ?_)
  split
  · refine w _ ?_
    split
    · exact quiet_ite (State.onTrib_quiet _ _ (k _ _ (State.onTrib_quiet _ _ h))) (k _ _ (State.onTrib_quiet _ _ h))
    · exact k _ _ (State.onTrib_quiet _ _ h)
  · have z (b : Bool) : ∀ t, s0.Quiet t → ∀ ws, s0.Quiet (if b then t.onTrib x.i Trib.idled
        else t.onTrib x.i fun t => { (t.blockSync ws).enqueue ws with rxIdle := false }) :=
      fun t ht ws => quiet_ite (w _ ht) (State.onTrib_quiet _ _ ht)
    refine z _ _ ?_ _
    split
    · exact quiet_ite (State.onTrib_quiet _ _ (k _ _ (State.onTrib_quiet _ _ h))) (k _ _ (State.onTrib_quiet _ _ h))
    · exact k _ _ (State.onTrib_quiet _ _ h)
theorem State.deliverHeld_quiet {s0 : State} {s : State} (x : HeldTrib) (count : BitVec 32) (frame : Nat) (tail : Option Carried) (h : s0.Quiet s) :
    s0.Quiet (State.deliverHeld s x count frame tail) := by
  unfold State.deliverHeld
  repeat' (first | with_reducible exact h | (intro f s h) | (intro s h) | with_reducible apply State.deliver_quiet | (with_reducible refine foldl_quiet _ _ _ (fun s x h => ?_) ?_) | with_reducible apply quiet_ite | split | exact (fun _ => rfl) | (dsimp only) | exact ⟨h.kept, h.now, h.ids⟩)
theorem State.releaseFrame_quiet {s0 : State} {s : State} (g : Nat) (count : BitVec 32) (frame : Nat) (h : s0.Quiet s) :
    s0.Quiet (State.releaseFrame s g count frame) := by
  unfold State.releaseFrame
  repeat' (first | with_reducible exact h | (intro f s h) | (intro s h) | with_reducible apply State.onGroup_quiet | with_reducible apply State.deliverHeld_quiet | (with_reducible refine foldl_quiet _ _ _ (fun s x h => ?_) ?_) | with_reducible apply quiet_ite | split | exact (fun _ => rfl) | (dsimp only) | exact ⟨h.kept, h.now, h.ids⟩)
theorem State.releaseReady_quiet {s0 : State} {s : State} (g : Nat) (h : s0.Quiet s) :
    s0.Quiet (State.releaseReady s g) := by
  unfold State.releaseReady
  repeat' (first | with_reducible exact h | (intro f s h) | (intro s h) | with_reducible apply State.releaseFrame_quiet | (with_reducible refine foldl_quiet _ _ _ (fun s x h => ?_) ?_) | with_reducible apply quiet_ite | split | exact (fun _ => rfl) | (dsimp only) | exact ⟨h.kept, h.now, h.ids⟩)
theorem State.releaseHeld_quiet {s0 : State} {s : State} (c : Nat) (oh : Option (List Word)) (h : s0.Quiet s) :
    s0.Quiet (State.releaseHeld s c oh) := by
  unfold State.releaseHeld
  repeat' (first | with_reducible exact h | (intro f s h) | (intro s h) | with_reducible apply State.onChan_quiet | with_reducible apply State.onGroup_quiet | with_reducible apply State.deliverHeld_quiet | with_reducible apply State.releaseReady_quiet | (with_reducible refine foldl_quiet _ _ _ (fun s x h => ?_) ?_) | with_reducible apply quiet_ite | split | exact (fun _ => rfl) | (dsimp only) | exact ⟨h.kept, h.now, h.ids⟩)
theorem State.dropMessage_quiet {s0 : State} {s : State} (c : Nat) (h : s0.Quiet s) :
    s0.Quiet (State.dropMessage s c) := by
  unfold State.dropMessage
  repeat' (first | with_reducible exact h | (intro f s h) | (intro s h) | with_reducible apply State.draw_quiet | with_reducible apply State.raise_quiet | with_reducible apply State.onRing_quiet | (with_reducible refine foldl_quiet _ _ _ (fun s x h => ?_) ?_) | with_reducible apply quiet_ite | split | exact (fun _ => rfl) | (dsimp only) | exact ⟨h.kept, h.now, h.ids⟩)
theorem State.takeMessage_quiet {s0 : State} {s : State} (c : Nat) (a : Assembly) (h : s0.Quiet s) :
    s0.Quiet (State.takeMessage s c a) := by
  unfold State.takeMessage
  repeat' (first | with_reducible exact h | (intro f s h) | (intro s h) | with_reducible apply State.onChan_quiet | with_reducible apply State.farMessage_quiet | with_reducible apply State.fillMessage_quiet | with_reducible apply State.dropMessage_quiet | (with_reducible refine foldl_quiet _ _ _ (fun s x h => ?_) ?_) | with_reducible apply quiet_ite | split | exact (fun _ => rfl) | (dsimp only) | exact ⟨h.kept, h.now, h.ids⟩)
theorem State.endMessage_quiet {s0 : State} {s : State} (c : Nat) (a : Assembly) (h : s0.Quiet s) :
    s0.Quiet (State.endMessage s c a) := by
  unfold State.endMessage
  repeat' (first | with_reducible exact h | (intro f s h) | (intro s h) | with_reducible apply State.loseMessage_quiet | with_reducible apply State.takeMessage_quiet | (with_reducible refine foldl_quiet _ _ _ (fun s x h => ?_) ?_) | with_reducible apply quiet_ite | split | exact (fun _ => rfl) | (dsimp only) | exact ⟨h.kept, h.now, h.ids⟩)
theorem State.addChunk_quiet {s0 : State} {s : State} (c : Nat) (a : Assembly) (ws : List Word) (last : Bool) (h : s0.Quiet s) :
    s0.Quiet (State.addChunk s c a ws last) := by
  unfold State.addChunk
  repeat' (first | with_reducible exact h | (intro f s h) | (intro s h) | with_reducible apply State.onChan_quiet | with_reducible apply State.loseMessage_quiet | with_reducible apply State.endMessage_quiet | (with_reducible refine foldl_quiet _ _ _ (fun s x h => ?_) ?_) | with_reducible apply quiet_ite | split | exact (fun _ => rfl) | (dsimp only) | exact ⟨h.kept, h.now, h.ids⟩)
theorem State.chunkIn_quiet {s0 : State} {s : State} (c : Nat) (ws : List Word) (h : s0.Quiet s) :
    s0.Quiet (State.chunkIn s c ws) := by
  unfold State.chunkIn
  repeat' (first | with_reducible exact h | (intro f s h) | (intro s h) | with_reducible apply State.onChan_quiet | with_reducible apply State.loseMessage_quiet | with_reducible apply State.breakMessage_quiet | with_reducible apply State.addChunk_quiet | (with_reducible refine foldl_quiet _ _ _ (fun s x h => ?_) ?_) | with_reducible apply quiet_ite | split | exact (fun _ => rfl) | (dsimp only) | exact ⟨h.kept, h.now, h.ids⟩)
theorem State.groupIn_quiet {s0 : State} {s : State} (c : Nat) (ws : List Word) (arrival : Int) (h : s0.Quiet s) :
    s0.Quiet (State.groupIn s c ws arrival) := by
  unfold State.groupIn
  repeat' (first | with_reducible exact h | (intro f s h) | (intro s h) | with_reducible apply State.onGroup_quiet | with_reducible apply State.groupWindow_quiet | (with_reducible refine foldl_quiet _ _ _ (fun s x h => ?_) ?_) | with_reducible apply quiet_ite | split | exact (fun _ => rfl) | (dsimp only) | exact ⟨h.kept, h.now, h.ids⟩)
theorem State.regionIn_quiet {s0 : State} {s : State} (c : Nat) (ws : List Word) (frame : Nat) (count : BitVec 32) (h : s0.Quiet s) :
    s0.Quiet (State.regionIn s c ws frame count) := by
  unfold State.regionIn
  repeat' (first | with_reducible exact h | (intro f s h) | (intro s h) | with_reducible apply State.onPm_quiet | with_reducible apply State.leafCell_quiet | (with_reducible refine foldl_quiet _ _ _ (fun s x h => ?_) ?_) | with_reducible apply quiet_ite | split | exact (fun _ => rfl) | (dsimp only) | exact ⟨h.kept, h.now, h.ids⟩)
theorem State.overheadIn_quiet {s0 : State} {s : State} (c : Nat) (ws : List Word) (arrival : Int) (h : s0.Quiet s) :
    s0.Quiet (State.overheadIn s c ws arrival) := by
  unfold State.overheadIn
  repeat' (first | with_reducible exact h | (intro f s h) | (intro s h) | with_reducible apply State.onChan_quiet | with_reducible apply State.bankMessage_quiet | with_reducible apply State.bankIndicator_quiet | with_reducible apply State.lxMessage_quiet | with_reducible apply State.takeAdvert_quiet | with_reducible apply State.takeStatus_quiet | with_reducible apply State.chunkIn_quiet | with_reducible apply State.groupIn_quiet | with_reducible apply State.regionIn_quiet | (with_reducible refine foldl_quiet _ _ _ (fun s x h => ?_) ?_) | with_reducible apply quiet_ite | split | exact (fun _ => rfl) | (dsimp only) | exact ⟨h.kept, h.now, h.ids⟩)
theorem State.rxBoundary_quiet {s0 : State} {s : State} (c : Nat) (m : BitVec 32) (h : s0.Quiet s) :
    s0.Quiet (State.rxBoundary s c m) := by
  unfold State.rxBoundary
  repeat' (first | with_reducible exact h | (intro f s h) | (intro s h) | with_reducible apply State.onRx_quiet | with_reducible apply State.lxReceived_quiet | with_reducible apply State.windowBoundary_quiet | (with_reducible refine foldl_quiet _ _ _ (fun s x h => ?_) ?_) | with_reducible apply quiet_ite | split | exact (fun _ => rfl) | (dsimp only) | exact ⟨h.kept, h.now, h.ids⟩)
theorem State.takeFrame_quiet {s0 : State} {s : State} (c : Nat) (raw : List (Word × Bool)) (fresh : Bool) (f : FrameIn) (h : s0.Quiet s) :
    s0.Quiet (State.takeFrame s c raw fresh f) := by
  unfold State.takeFrame
  repeat' (first | with_reducible exact h | (intro f s h) | (intro s h) | with_reducible apply State.raise_quiet | with_reducible apply State.onChan_quiet | with_reducible apply State.deviations_quiet | with_reducible apply State.breakMessage_quiet | with_reducible apply State.lxReceived_quiet | with_reducible apply State.arrival_quiet | with_reducible apply State.releaseHeld_quiet | with_reducible apply State.overheadIn_quiet | with_reducible apply State.rxBoundary_quiet | (with_reducible refine foldl_quiet _ _ _ (fun s x h => ?_) ?_) | with_reducible apply quiet_ite | split | exact (fun _ => rfl) | (dsimp only) | exact ⟨h.kept, h.now, h.ids⟩)
theorem State.via_quiet {s0 : State} {s : State} (c : Nat) (leaf : Option (Fin 64)) (g : State → State) (hk : ∀ s, s0.Quiet s → s0.Quiet (g s)) (h : s0.Quiet s) :
    s0.Quiet (State.via s c leaf g) := by
  unfold State.via
  repeat' (first | with_reducible exact h | (intro f s h) | (intro s h) | (refine hk _ ?_) | (refine hk _ _ ?_) | with_reducible apply State.inPair_quiet | (with_reducible refine foldl_quiet _ _ _ (fun s x h => ?_) ?_) | with_reducible apply quiet_ite | split | exact (fun _ => rfl) | (dsimp only) | exact ⟨h.kept, h.now, h.ids⟩)
theorem State.frameStart_quiet {s0 : State} {s : State} (c : Nat) (h : s0.Quiet s) :
    s0.Quiet (State.frameStart s c) := by
  unfold State.frameStart
  repeat' (first | with_reducible exact h | (intro f s h) | (intro s h) | with_reducible apply State.restate_quiet | with_reducible apply State.lxAdopt_quiet | (with_reducible refine foldl_quiet _ _ _ (fun s x h => ?_) ?_) | with_reducible apply quiet_ite | split | exact (fun _ => rfl) | (dsimp only) | exact ⟨h.kept, h.now, h.ids⟩)
theorem State.hubFrame_quiet {s0 : State} {s : State} (c : Nat) (j : Nat) (raw : List Word) (arrival : Int) (h : s0.Quiet s) :
    s0.Quiet (State.hubFrame s c j raw arrival) := by
  unfold State.hubFrame
  repeat' (first | with_reducible exact h | (intro f s h) | (intro s h) | with_reducible apply State.onChan_quiet | with_reducible apply State.onLeaf_quiet | with_reducible apply State.hubCellIn_quiet | with_reducible apply State.hubIndicator_quiet | with_reducible apply State.arrival_quiet | (with_reducible refine foldl_quiet _ _ _ (fun s x h => ?_) ?_) | with_reducible apply quiet_ite | split | exact (fun _ => rfl) | (dsimp only) | exact ⟨h.kept, h.now, h.ids⟩)
theorem State.parityIn_quiet {s0 : State} {s : State} (c : Nat) (odd : Option Bool) (h : s0.Quiet s) :
    s0.Quiet (State.parityIn s c odd) := by
  unfold State.parityIn
  repeat' (first | with_reducible exact h | (intro f s h) | (intro s h) | with_reducible apply State.lxParity_quiet | (with_reducible refine foldl_quiet _ _ _ (fun s x h => ?_) ?_) | with_reducible apply quiet_ite | split | exact (fun _ => rfl) | (dsimp only) | exact ⟨h.kept, h.now, h.ids⟩)
theorem State.fecEnd_quiet {s0 : State} {s : State} (c : Nat) (m : BitVec 32) (h : s0.Quiet s) :
    s0.Quiet (State.fecEnd s c m) := by
  unfold State.fecEnd
  repeat' (first | with_reducible exact h | (intro f s h) | (intro s h) | with_reducible apply State.draw_quiet | with_reducible apply State.onFec_quiet | (with_reducible refine foldl_quiet _ _ _ (fun s x h => ?_) ?_) | with_reducible apply quiet_ite | split | exact (fun _ => rfl) | (dsimp only) | exact ⟨h.kept, h.now, h.ids⟩)
theorem State.qualityEnd_quiet {s0 : State} {s : State} (c : Nat) (m : BitVec 32) (q : QualityIn) (h : s0.Quiet s) :
    s0.Quiet (State.qualityEnd s c m q) := by
  unfold State.qualityEnd
  repeat' (first | with_reducible exact h | (intro f s h) | (intro s h) | with_reducible apply State.onChan_quiet | (with_reducible refine foldl_quiet _ _ _ (fun s x h => ?_) ?_) | with_reducible apply quiet_ite | split | exact (fun _ => rfl) | (dsimp only) | exact ⟨h.kept, h.now, h.ids⟩)
theorem State.dspEnd_quiet {s0 : State} {s : State} (c : Nat) (m : BitVec 32) (q : QualityIn) (h : s0.Quiet s) :
    s0.Quiet (State.dspEnd s c m q) := by
  unfold State.dspEnd
  repeat' (first | with_reducible exact h | (intro f s h) | (intro s h) | with_reducible apply State.onRx_quiet | with_reducible apply State.reconverged_quiet | (with_reducible refine foldl_quiet _ _ _ (fun s x h => ?_) ?_) | with_reducible apply quiet_ite | split | exact (fun _ => rfl) | (dsimp only) | exact ⟨h.kept, h.now, h.ids⟩)
theorem State.dropAssignment_quiet {s0 : State} {s : State} (c : Nat) (reason : Nat) (h : s0.Quiet s) :
    s0.Quiet (State.dropAssignment s c reason) := by
  unfold State.dropAssignment
  repeat' (first | with_reducible exact h | (intro f s h) | (intro s h) | with_reducible apply State.raise_quiet | with_reducible apply State.onPm_quiet | (with_reducible refine foldl_quiet _ _ _ (fun s x h => ?_) ?_) | with_reducible apply quiet_ite | split | exact (fun _ => rfl) | (dsimp only) | exact ⟨h.kept, h.now, h.ids⟩)
theorem State.seekAssignment_quiet {s0 : State} {s : State} (c : Nat) (ws : List Word) (h : s0.Quiet s) :
    s0.Quiet (State.seekAssignment s c ws) := by
  unfold State.seekAssignment
  repeat' (first | with_reducible exact h | (intro f s h) | (intro s h) | with_reducible apply State.onPm_quiet | with_reducible apply State.request_quiet | (with_reducible refine foldl_quiet _ _ _ (fun s x h => ?_) ?_) | with_reducible apply quiet_ite | split | exact (fun _ => rfl) | (dsimp only) | exact ⟨h.kept, h.now, h.ids⟩)
theorem State.acceptMap_quiet {s0 : State} {s : State} (c : Nat) (ws : List Word) (h : s0.Quiet s) :
    s0.Quiet (State.acceptMap s c ws) := by
  unfold State.acceptMap
  repeat' (first | with_reducible exact h | (intro f s h) | (intro s h) | with_reducible apply State.onPm_quiet | with_reducible apply State.onChan_quiet | with_reducible apply State.dropAssignment_quiet | with_reducible apply State.seekAssignment_quiet | (with_reducible refine foldl_quiet _ _ _ (fun s x h => ?_) ?_) | with_reducible apply quiet_ite | split | exact (fun _ => rfl) | (dsimp only) | exact ⟨h.kept, h.now, h.ids⟩)
theorem State.sendBurst_quiet {s0 : State} {s : State} (c : Nat) (leaf : Nat) (subc : Nat) (cell : Nat) (n : Nat) (eqd : Nat) (disc : Bool) (ws : List Word) (h : s0.Quiet s) :
    s0.Quiet (State.sendBurst s c leaf subc cell n eqd disc ws) := by
  unfold State.sendBurst
  repeat' (first | with_reducible exact h | (intro f s h) | (intro s h) | with_reducible apply State.emit_quiet | with_reducible apply State.onPm_quiet | (with_reducible refine foldl_quiet _ _ _ (fun s x h => ?_) ?_) | with_reducible apply quiet_ite | split | exact (fun _ => rfl) | (dsimp only) | exact ⟨h.kept, h.now, h.ids⟩)
theorem State.windowBurst_quiet {s0 : State} {s : State} (c : Nat) (m : LeafMap) (g : Grant) (h : s0.Quiet s) :
    s0.Quiet (State.windowBurst s c m g) := by
  unfold State.windowBurst
  repeat' (first | with_reducible exact h | (intro f s h) | (intro s h) | with_reducible apply State.onPm_quiet | with_reducible apply State.start_quiet | with_reducible apply State.ready_quiet | with_reducible apply State.leafBodySent_quiet | with_reducible apply State.sendBurst_quiet | (with_reducible refine foldl_quiet _ _ _ (fun s x h => ?_) ?_) | with_reducible apply quiet_ite | split | exact (fun _ => rfl) | (dsimp only) | exact ⟨h.kept, h.now, h.ids⟩)
theorem State.onReceiver_quiet {s0 : State} {s : State} (c : Nat) (i : Nat) (g : BurstChan → BurstChan) (h : s0.Quiet s) :
    s0.Quiet (State.onReceiver s c i g) := by
  unfold State.onReceiver
  repeat' (first | with_reducible exact h | (intro f s h) | (intro s h) | with_reducible apply State.onPm_quiet | (with_reducible refine foldl_quiet _ _ _ (fun s x h => ?_) ?_) | with_reducible apply quiet_ite | split | exact (fun _ => rfl) | (dsimp only) | exact ⟨h.kept, h.now, h.ids⟩)
theorem State.keepRecord_quiet {s0 : State} {s : State} (c : Nat) (j : Nat) (r : FrameRecord) (h : s0.Quiet s) :
    s0.Quiet (State.keepRecord s c j r) := by
  unfold State.keepRecord
  repeat' (first | with_reducible exact h | (intro f s h) | (intro s h) | with_reducible apply State.onChan_quiet | with_reducible apply State.onLeaf_quiet | with_reducible apply State.hubIndicator_quiet | (with_reducible refine foldl_quiet _ _ _ (fun s x h => ?_) ?_) | with_reducible apply quiet_ite | split | exact (fun _ => rfl) | (dsimp only) | exact ⟨h.kept, h.now, h.ids⟩)
theorem State.leafItem_quiet {s0 : State} {s : State} (c : Nat) (j : Nat) (it : BurstItem) (h : s0.Quiet s) :
    s0.Quiet (State.leafItem s c j it) := by
  unfold State.leafItem
  repeat' (first | with_reducible exact h | (intro f s h) | (intro s h) | with_reducible apply State.breakMessage_quiet | with_reducible apply State.inPair_quiet | with_reducible apply State.hubCellIn_quiet | with_reducible apply State.chunkIn_quiet | with_reducible apply State.keepRecord_quiet | (with_reducible refine foldl_quiet _ _ _ (fun s x h => ?_) ?_) | with_reducible apply quiet_ite | split | exact (fun _ => rfl) | (dsimp only) | exact ⟨h.kept, h.now, h.ids⟩)
theorem State.discovered_quiet {s0 : State} {s : State} (c : Nat) (serial : Word) (a : Int) (h : s0.Quiet s) :
    s0.Quiet (State.discovered s c serial a) := by
  unfold State.discovered
  repeat' (first | with_reducible exact h | (intro f s h) | (intro s h) | with_reducible apply State.raise_quiet | with_reducible apply State.onPm_quiet | with_reducible apply State.onLeaf_quiet | (with_reducible refine foldl_quiet _ _ _ (fun s x h => ?_) ?_) | with_reducible apply quiet_ite | split | exact (fun _ => rfl) | (dsimp only) | exact ⟨h.kept, h.now, h.ids⟩)
theorem State.burstData_quiet {s0 : State} {s : State} (c : Nat) (i : Nat) (x : BurstIn) (leaf : Nat) (disc : Bool) (arrival : Int) (h : s0.Quiet s) :
    s0.Quiet (State.burstData s c i x leaf disc arrival) := by
  unfold State.burstData
  repeat' (first | with_reducible exact h | (intro f s h) | (intro s h) | with_reducible apply State.onLeaf_quiet | with_reducible apply State.onReceiver_quiet | with_reducible apply State.leafItem_quiet | with_reducible apply State.discovered_quiet | (with_reducible refine foldl_quiet _ _ _ (fun s x h => ?_) ?_) | with_reducible apply quiet_ite | split | exact (fun _ => rfl) | (dsimp only) | exact ⟨h.kept, h.now, h.ids⟩)
theorem State.openBurst_quiet {s0 : State} {s : State} (c : Nat) (i : Nat) (d : Nat × Nat) (lost : Nat) (count : BurstChan → BurstChan) (h : s0.Quiet s) :
    s0.Quiet (State.openBurst s c i d lost count) := by
  unfold State.openBurst
  repeat' (first | with_reducible exact h | (intro f s h) | (intro s h) | with_reducible apply State.onReceiver_quiet | (with_reducible refine foldl_quiet _ _ _ (fun s x h => ?_) ?_) | with_reducible apply quiet_ite | split | exact (fun _ => rfl) | (dsimp only) | exact ⟨h.kept, h.now, h.ids⟩)
theorem State.detect_quiet {s0 : State} {s : State} (c : Nat) (i : Nat) (d : Nat × Nat) (lost : Nat) (part : BurstIn) (h : s0.Quiet s) :
    s0.Quiet (State.detect s c i d lost part) := by
  unfold State.detect
  repeat' (first | with_reducible exact h | (intro f s h) | (intro s h) | with_reducible apply State.onReceiver_quiet | with_reducible apply State.burstData_quiet | with_reducible apply State.openBurst_quiet | (with_reducible refine foldl_quiet _ _ _ (fun s x h => ?_) ?_) | with_reducible apply quiet_ite | split | exact (fun _ => rfl) | (dsimp only) | exact ⟨h.kept, h.now, h.ids⟩)
theorem State.confirmBurst_quiet {s0 : State} {s : State} (c : Nat) (i : Nat) (j : Nat) (cell : Nat) (ofs : Int) (h : s0.Quiet s) :
    s0.Quiet (State.confirmBurst s c i j cell ofs) := by
  unfold State.confirmBurst
  repeat' (first | with_reducible exact h | (intro f s h) | (intro s h) | with_reducible apply State.onLeaf_quiet | with_reducible apply State.arrival_quiet | with_reducible apply State.onReceiver_quiet | (with_reducible refine foldl_quiet _ _ _ (fun s x h => ?_) ?_) | with_reducible apply quiet_ite | split | exact (fun _ => rfl) | (dsimp only) | exact ⟨h.kept, h.now, h.ids⟩)
theorem State.headerCheck_quiet {s0 : State} {s : State} (c : Nat) (i : Nat) (power : Nat) (h : Word) (cell : Nat) (ofs : Int) (hs : s0.Quiet s) :
    s0.Quiet (State.headerCheck s c i power h cell ofs) := by
  unfold State.headerCheck
  refine quiet_ite (State.onReceiver_quiet _ _ _ hs) (quiet_ite ?_ (State.confirmBurst_quiet _ _ _ _ _ ?_)) <;>
    exact State.onReceiver_quiet _ _ _ hs
theorem State.deliverRecords_quiet {s0 : State} {s : State} (c : Nat) (j : Nat) (m : BitVec 32) (k : Nat) (h : s0.Quiet s) :
    s0.Quiet (State.deliverRecords s c j m k) := by
  unfold State.deliverRecords
  repeat' (first | with_reducible exact h | (intro f s h) | (intro s h) | with_reducible apply State.onTrib_quiet | with_reducible apply State.onLeaf_quiet | with_reducible apply State.deliver_quiet | (with_reducible refine foldl_quiet _ _ _ (fun s x h => ?_) ?_) | with_reducible apply quiet_ite | split | exact (fun _ => rfl) | (dsimp only) | exact ⟨h.kept, h.now, h.ids⟩)
theorem State.headAlarm_quiet {s0 : State} {s : State} (src : Nat) (body : Word) (h : s0.Quiet s) :
    s0.Quiet (State.headAlarm s src body) := by
  unfold State.headAlarm
  repeat' (first | with_reducible exact h | (intro f s h) | (intro s h) | with_reducible apply State.raise_quiet | (with_reducible refine foldl_quiet _ _ _ (fun s x h => ?_) ?_) | with_reducible apply quiet_ite | split | exact (fun _ => rfl) | (dsimp only) | exact ⟨h.kept, h.now, h.ids⟩)
theorem State.sendAlarm_quiet {s0 : State} {s : State} (cause : Nat) (raised : Bool) (h : s0.Quiet s) :
    s0.Quiet (State.sendAlarm s cause raised) := by
  unfold State.sendAlarm
  repeat' (first | with_reducible exact h | (intro f s h) | (intro s h) | with_reducible apply State.onShore_quiet | with_reducible apply State.headAlarm_quiet | (with_reducible refine foldl_quiet _ _ _ (fun s x h => ?_) ?_) | with_reducible apply quiet_ite | split | exact (fun _ => rfl) | (dsimp only) | exact ⟨h.kept, h.now, h.ids⟩)
theorem State.alarm1_quiet {s0 : State} {s : State} (on : Bool) (h : s0.Quiet s) :
    s0.Quiet (State.alarm1 s on) := by
  unfold State.alarm1
  repeat' (first | with_reducible exact h | (intro f s h) | (intro s h) | with_reducible apply State.onShore_quiet | with_reducible apply State.sendAlarm_quiet | (with_reducible refine foldl_quiet _ _ _ (fun s x h => ?_) ?_) | with_reducible apply quiet_ite | split | exact (fun _ => rfl) | (dsimp only) | exact ⟨h.kept, h.now, h.ids⟩)
theorem State.alarm2_quiet {s0 : State} {s : State} (on : Bool) (h : s0.Quiet s) :
    s0.Quiet (State.alarm2 s on) := by
  unfold State.alarm2
  repeat' (first | with_reducible exact h | (intro f s h) | (intro s h) | with_reducible apply State.onShore_quiet | with_reducible apply State.sendAlarm_quiet | (with_reducible refine foldl_quiet _ _ _ (fun s x h => ?_) ?_) | with_reducible apply quiet_ite | split | exact (fun _ => rfl) | (dsimp only) | exact ⟨h.kept, h.now, h.ids⟩)
theorem State.arrive_quiet {s0 : State} {s : State} (down : Bool) (f : ShoreFrame) (consume : State → State) (hk : ∀ s, s0.Quiet s → s0.Quiet (consume s)) (h : s0.Quiet s) :
    s0.Quiet (State.arrive s down f consume) := by
  unfold State.arrive
  repeat' (first | with_reducible exact h | (intro f s h) | (intro s h) | (refine hk _ ?_) | (refine hk _ _ ?_) | with_reducible apply State.onShore_quiet | (with_reducible refine foldl_quiet _ _ _ (fun s x h => ?_) ?_) | with_reducible apply quiet_ite | split | exact (fun _ => rfl) | (dsimp only) | exact ⟨h.kept, h.now, h.ids⟩)
theorem State.neighbour_quiet {s0 : State} {s : State} (down : Bool) (lost : Bool) (h : s0.Quiet s) :
    s0.Quiet (State.neighbour s down lost) := by
  unfold State.neighbour
  repeat' (first | with_reducible exact h | (intro f s h) | (intro s h) | with_reducible apply State.raise_quiet | (with_reducible refine foldl_quiet _ _ _ (fun s x h => ?_) ?_) | with_reducible apply quiet_ite | split | exact (fun _ => rfl) | (dsimp only) | exact ⟨h.kept, h.now, h.ids⟩)
theorem State.assignDown_quiet {s0 : State} {s : State} (h : s0.Quiet s) :
    s0.Quiet (State.assignDown s) := by
  unfold State.assignDown
  repeat' (first | with_reducible exact h | (intro f s h) | (intro s h) | with_reducible apply State.onShore_quiet | (with_reducible refine foldl_quiet _ _ _ (fun s x h => ?_) ?_) | with_reducible apply quiet_ite | split | exact (fun _ => rfl) | (dsimp only) | exact ⟨h.kept, h.now, h.ids⟩)
theorem State.regain_quiet {s0 : State} {s : State} (down : Bool) (h : s0.Quiet s) :
    s0.Quiet (State.regain s down) := by
  unfold State.regain
  repeat' (first | with_reducible exact h | (intro f s h) | (intro s h) | with_reducible apply State.onShore_quiet | with_reducible apply State.alarm1_quiet | with_reducible apply State.neighbour_quiet | with_reducible apply State.assignDown_quiet | (with_reducible refine foldl_quiet _ _ _ (fun s x h => ?_) ?_) | with_reducible apply quiet_ite | split | exact (fun _ => rfl) | (dsimp only) | exact ⟨h.kept, h.now, h.ids⟩)
theorem State.adoptAddress_quiet {s0 : State} {s : State} (v : Nat) (head : Bool) (h : s0.Quiet s) :
    s0.Quiet (State.adoptAddress s v head) := by
  unfold State.adoptAddress
  repeat' (first | with_reducible exact h | (intro f s h) | (intro s h) | with_reducible apply State.onShore_quiet | with_reducible apply State.raise_quiet | with_reducible apply State.sendAlarm_quiet | with_reducible apply State.assignDown_quiet | (with_reducible refine foldl_quiet _ _ _ (fun s x h => ?_) ?_) | with_reducible apply quiet_ite | split | exact (fun _ => rfl) | (dsimp only) | exact ⟨h.kept, h.now, h.ids⟩)
theorem State.noFirmware_quiet {s0 : State} {s : State} (k : State) (hqk : s0.Quiet k) (h : s0.Quiet s) :
    s0.Quiet (State.noFirmware s k) := by
  unfold State.noFirmware
  exact quiet_ite hqk (State.onShore_quiet _ h)
theorem State.queryEnds_quiet {s0 : State} {s : State} (w : InvWait) (k : Flight → State → State) (hk : ∀ f s, s0.Quiet s → s0.Quiet (k f s)) (h : s0.Quiet s) :
    s0.Quiet (State.queryEnds s w k) := by
  unfold State.queryEnds
  repeat' (first | with_reducible exact h | (intro f s h) | (intro s h) | (refine hk _ ?_) | (refine hk _ _ ?_) | with_reducible apply State.onShore_quiet | (with_reducible refine foldl_quiet _ _ _ (fun s x h => ?_) ?_) | with_reducible apply quiet_ite | split | exact (fun _ => rfl) | (dsimp only) | exact ⟨h.kept, h.now, h.ids⟩)
theorem State.invAnswer_quiet {s0 : State} {s : State} (src : Nat) (body : List Byte) (h : s0.Quiet s) :
    s0.Quiet (State.invAnswer s src body) := by
  unfold State.invAnswer
  repeat' (first | with_reducible exact h | (intro f s h) | (intro s h) | with_reducible apply State.writeBuf_quiet | with_reducible apply State.finish_quiet | with_reducible apply State.queryEnds_quiet | (with_reducible refine foldl_quiet _ _ _ (fun s x h => ?_) ?_) | with_reducible apply quiet_ite | split | exact (fun _ => rfl) | (dsimp only) | exact ⟨h.kept, h.now, h.ids⟩)
theorem State.shoreOff_quiet {s0 : State} {s : State} (src : Nat) (hold : Nat) (h : s0.Quiet s) :
    s0.Quiet (State.shoreOff s src hold) := by
  unfold State.shoreOff
  repeat' (first | with_reducible exact h | (intro f s h) | (intro s h) | with_reducible apply State.onShore_quiet | with_reducible apply State.raise_quiet | with_reducible apply State.shutEvent_quiet | (with_reducible refine foldl_quiet _ _ _ (fun s x h => ?_) ?_) | with_reducible apply quiet_ite | split | exact (fun _ => rfl) | (dsimp only) | exact ⟨h.kept, h.now, h.ids⟩)
theorem State.shoreOn_quiet {s0 : State} {s : State} (src : Nat) (h : s0.Quiet s) :
    s0.Quiet (State.shoreOn s src) := by
  unfold State.shoreOn
  repeat' (first | with_reducible exact h | (intro f s h) | (intro s h) | with_reducible apply State.onShore_quiet | with_reducible apply State.raise_quiet | with_reducible apply State.openOutput_quiet | (with_reducible refine foldl_quiet _ _ _ (fun s x h => ?_) ?_) | with_reducible apply quiet_ite | split | exact (fun _ => rfl) | (dsimp only) | exact ⟨h.kept, h.now, h.ids⟩)
theorem State.laserOrder_quiet {s0 : State} {s : State} (src : Nat) (on : Bool) (hold : Nat) (h : s0.Quiet s) :
    s0.Quiet (State.laserOrder s src on hold) := by
  unfold State.laserOrder
  repeat' (first | with_reducible exact h | (intro f s h) | (intro s h) | with_reducible apply State.shoreOff_quiet | with_reducible apply State.shoreOn_quiet | (with_reducible refine foldl_quiet _ _ _ (fun s x h => ?_) ?_) | with_reducible apply quiet_ite | split | exact (fun _ => rfl) | (dsimp only) | exact ⟨h.kept, h.now, h.ids⟩)
theorem State.pinOff_quiet {s0 : State} {s : State} (h : s0.Quiet s) :
    s0.Quiet (State.pinOff s) := by
  unfold State.pinOff
  repeat' (first | with_reducible exact h | (intro f s h) | (intro s h) | with_reducible apply State.shutEvent_quiet | with_reducible apply State.sendAlarm_quiet | (with_reducible refine foldl_quiet _ _ _ (fun s x h => ?_) ?_) | with_reducible apply quiet_ite | split | exact (fun _ => rfl) | (dsimp only) | exact ⟨h.kept, h.now, h.ids⟩)
theorem State.takeMsg_quiet {s0 : State} {s : State} (src : Nat) (seq : BitVec 16) (body : List Byte) (h : s0.Quiet s) :
    s0.Quiet (State.takeMsg s src seq body) := by
  unfold State.takeMsg
  repeat' (first | with_reducible exact h | (intro f s h) | (intro s h) | with_reducible apply State.raise_quiet | with_reducible apply State.fillMessage_quiet | with_reducible apply State.noFirmware_quiet | (with_reducible refine foldl_quiet _ _ _ (fun s x h => ?_) ?_) | with_reducible apply quiet_ite | split | exact (fun _ => rfl) | (dsimp only) | exact ⟨h.kept, h.now, h.ids⟩)
theorem State.shoreSent_quiet {s0 : State} {s : State} (cmd : Option Nat) (h : s0.Quiet s) :
    s0.Quiet (State.shoreSent s cmd) := by
  unfold State.shoreSent
  repeat' (first | with_reducible exact h | (intro f s h) | (intro s h) | with_reducible apply State.finishOpt_quiet | (with_reducible refine foldl_quiet _ _ _ (fun s x h => ?_) ?_) | with_reducible apply quiet_ite | split | exact (fun _ => rfl) | (dsimp only) | exact ⟨h.kept, h.now, h.ids⟩)
theorem State.functionReset_quiet {s0 : State} {s : State} (n : Nat) (h : s0.Quiet s) :
    s0.Quiet (State.functionReset s n) := by
  unfold State.functionReset
  refine State.setLink_quiet _ _ ?_
  have k := foldl_quiet (s.ringsWhere fun _ y => y.owner = n && y.en) State.dropCapture s
    (fun s x h => State.dropCapture_quiet _ h) h
  refine ⟨k.kept, k.now, ?_⟩
  refine List.Sublist.trans ?_ k.ids
  dsimp only [resetFlights]
  rw [List.map_map]
  rw [show (Flight.id ∘ fun f : Flight => if f.link = n then { f with orphan := true } else f) = Flight.id from
    funext fun f => by dsimp only [Function.comp]; split <;> rfl]
  exact List.Sublist.map _ List.filter_sublist
theorem State.msixWrite_quiet {s0 : State} {s : State} (n : Nat) (dword : Nat) (v : Nat) (h : s0.Quiet s) :
    s0.Quiet (State.msixWrite s n dword v) := by
  unfold State.msixWrite
  repeat' (first | with_reducible exact h | (intro f s h) | (intro s h) | with_reducible apply State.emit_quiet | with_reducible apply State.onLink_quiet | with_reducible apply State.msix_quiet | (with_reducible refine foldl_quiet _ _ _ (fun s x h => ?_) ?_) | with_reducible apply quiet_ite | split | exact (fun _ => rfl) | (dsimp only) | exact ⟨h.kept, h.now, h.ids⟩)
theorem State.bar2Write_quiet {s0 : State} {s : State} (n : Nat) (off : Nat) (width : Nat) (v : Word) (h : s0.Quiet s) :
    s0.Quiet (State.bar2Write s n off width v) := by
  unfold State.bar2Write
  repeat' (first | with_reducible exact h | (intro f s h) | (intro s h) | with_reducible apply State.msixWrite_quiet | (with_reducible refine foldl_quiet _ _ _ (fun s x h => ?_) ?_) | with_reducible apply quiet_ite | split | exact (fun _ => rfl) | (dsimp only) | exact ⟨h.kept, h.now, h.ids⟩)
theorem State.lnkCtlWrite_quiet {s0 : State} {s : State} (n : Nat) (v : Word) (h : s0.Quiet s) :
    s0.Quiet (State.lnkCtlWrite s n v) := by
  unfold State.lnkCtlWrite
  repeat' (first | with_reducible exact h | (intro f s h) | (intro s h) | with_reducible apply State.onLink_quiet | (with_reducible refine foldl_quiet _ _ _ (fun s x h => ?_) ?_) | with_reducible apply quiet_ite | split | exact (fun _ => rfl) | (dsimp only) | exact ⟨h.kept, h.now, h.ids⟩)
theorem State.ringBaseWrite_quiet {s0 : State} {s : State} (r : Nat) (v : Word) (h : s0.Quiet s) :
    s0.Quiet (State.ringBaseWrite s r v) := by
  unfold State.ringBaseWrite
  repeat' (first | with_reducible exact h | (intro f s h) | (intro s h) | with_reducible apply State.onRing_quiet | (with_reducible refine foldl_quiet _ _ _ (fun s x h => ?_) ?_) | with_reducible apply quiet_ite | split | exact (fun _ => rfl) | (dsimp only) | exact ⟨h.kept, h.now, h.ids⟩)
theorem State.rcvCtlWrite_quiet {s0 : State} {s : State} (v : Word) (h : s0.Quiet s) :
    s0.Quiet (State.rcvCtlWrite s v) := by
  unfold State.rcvCtlWrite
  repeat' (first | with_reducible exact h | (intro f s h) | (intro s h) | (with_reducible refine foldl_quiet _ _ _ (fun s x h => ?_) ?_) | with_reducible apply quiet_ite | split | exact (fun _ => rfl) | (dsimp only) | exact ⟨h.kept, h.now, h.ids⟩)
theorem State.bar0Write_quiet {s0 : State} {s : State} (n : Nat) (off : Nat) (v : Word) (h : s0.Quiet s) :
    s0.Quiet (State.bar0Write s n off v) := by
  unfold State.bar0Write
  repeat' (first | with_reducible exact h | (intro f s h) | (intro s h) | with_reducible apply State.onLink_quiet | with_reducible apply State.ringCfgWrite_quiet | with_reducible apply State.nudge_quiet | with_reducible apply State.lnkCtlWrite_quiet | with_reducible apply State.ringBaseWrite_quiet | with_reducible apply State.rcvCtlWrite_quiet | (with_reducible refine foldl_quiet _ _ _ (fun s x h => ?_) ?_) | with_reducible apply quiet_ite | split | exact (fun _ => rfl) | (dsimp only) | exact ⟨h.kept, h.now, h.ids⟩)
theorem State.standing_quiet {s0 : State} {s : State} (h : s0.Quiet s) :
    s0.Quiet (State.standing s) := by
  unfold State.standing
  repeat' (first | with_reducible exact h | (intro f s h) | (intro s h) | with_reducible apply State.onOpt_quiet | (with_reducible refine foldl_quiet _ _ _ (fun s x h => ?_) ?_) | with_reducible apply quiet_ite | split | exact (fun _ => rfl) | (dsimp only) | exact ⟨h.kept, h.now, h.ids⟩)
theorem State.runImage_quiet {s0 : State} {s : State} (b : Bool) (h : s0.Quiet s) :
    s0.Quiet (State.runImage s b) := by
  unfold State.runImage
  repeat' (first | with_reducible exact h | (intro f s h) | (intro s h) | with_reducible apply State.onSec_quiet | with_reducible apply State.raise_quiet | (with_reducible refine foldl_quiet _ _ _ (fun s x h => ?_) ?_) | with_reducible apply quiet_ite | split | exact (fun _ => rfl) | (dsimp only) | exact ⟨h.kept, h.now, h.ids⟩)
theorem State.resumeRings_quiet {s0 : State} {s : State} (h : s0.Quiet s) :
    s0.Quiet (State.resumeRings s) := by
  unfold State.resumeRings
  repeat' (first | with_reducible exact h | (intro f s h) | (intro s h) | with_reducible apply State.onLink_quiet | with_reducible apply State.readAll_quiet | (with_reducible refine foldl_quiet _ _ _ (fun s x h => ?_) ?_) | with_reducible apply quiet_ite | split | exact (fun _ => rfl) | (dsimp only) | exact ⟨h.kept, h.now, h.ids⟩)
theorem State.activated_quiet {s0 : State} {s : State} (h : s0.Quiet s) :
    s0.Quiet (State.activated s) := by
  unfold State.activated
  repeat' (first | with_reducible exact h | (intro f s h) | (intro s h) | with_reducible apply State.onSec_quiet | with_reducible apply State.raise_quiet | with_reducible apply State.finishId_quiet | (with_reducible refine foldl_quiet _ _ _ (fun s x h => ?_) ?_) | with_reducible apply quiet_ite | split | exact (fun _ => rfl) | (dsimp only) | exact ⟨h.kept, h.now, h.ids⟩)
theorem State.writeDeferred_quiet {s0 : State} {s : State} (n : Nat) (h : s0.Quiet s) :
    s0.Quiet (State.writeDeferred s n) := by
  unfold State.writeDeferred
  repeat' (first | with_reducible exact h | (intro f s h) | (intro s h) | with_reducible apply State.onLink_quiet | with_reducible apply State.writeCompletion_quiet | (with_reducible refine foldl_quiet _ _ _ (fun s x h => ?_) ?_) | with_reducible apply quiet_ite | split | exact (fun _ => rfl) | (dsimp only) | exact ⟨h.kept, h.now, h.ids⟩)
theorem State.dropLimited_quiet {s0 : State} {s : State} (n : Nat) (h : s0.Quiet s) :
    s0.Quiet (State.dropLimited s n) := by
  unfold State.dropLimited
  repeat' (first | with_reducible exact h | (intro f s h) | (intro s h) | with_reducible apply State.finishAll_quiet | with_reducible apply State.phase_quiet | (with_reducible refine foldl_quiet _ _ _ (fun s x h => ?_) ?_) | with_reducible apply quiet_ite | split | exact (fun _ => rfl) | (dsimp only) | exact ⟨h.kept, h.now, h.ids⟩)
theorem State.linkUp_quiet {s0 : State} {s : State} (n : Nat) (h : s0.Quiet s) :
    s0.Quiet (State.linkUp s n) := by
  unfold State.linkUp
  refine State.dropLimited_quiet _ (State.writeDeferred_quiet _ (State.onLink_quiet _ _ ?_))
  exact State.quiet_map h rfl rfl _ rfl fun f => by dsimp only [Flight.pause]; split <;> rfl
theorem State.limitHalt_quiet {s0 : State} {s : State} (n : Nat) (h : s0.Quiet s) :
    s0.Quiet (State.limitHalt s n) := by
  unfold State.limitHalt
  refine foldl_quiet _ _ _ (fun s x h => quiet_ite h (State.onRing_quiet _ _ (State.haltRing_quiet _ _ h))) (State.onLink_quiet _ _ ?_)
  exact State.quiet_map h rfl rfl _ rfl fun f => by split <;> rfl
theorem State.thermalDark_quiet {s0 : State} {s : State} (c : Nat) (h : s0.Quiet s) :
    s0.Quiet (State.thermalDark s c) := by
  unfold State.thermalDark
  repeat' (first | with_reducible exact h | (intro f s h) | (intro s h) | with_reducible apply State.onPw_quiet | with_reducible apply State.finishOpt_quiet | with_reducible apply State.stopFrames_quiet | (with_reducible refine foldl_quiet _ _ _ (fun s x h => ?_) ?_) | with_reducible apply quiet_ite | split | exact (fun _ => rfl) | (dsimp only) | exact ⟨h.kept, h.now, h.ids⟩)
theorem State.bankExpires_quiet {s0 : State} {s : State} (f : Flight) (h : s0.Quiet s) :
    s0.Quiet (State.bankExpires s f) := by
  unfold State.bankExpires
  repeat' (first | with_reducible exact h | (intro f s h) | (intro s h) | with_reducible apply State.onSl_quiet | with_reducible apply State.lapseEvent_quiet | (with_reducible refine foldl_quiet _ _ _ (fun s x h => ?_) ?_) | with_reducible apply quiet_ite | split | exact (fun _ => rfl) | (dsimp only) | exact ⟨h.kept, h.now, h.ids⟩)
theorem State.lxExpires_quiet {s0 : State} {s : State} (c : Nat) (f : Flight) (h : s0.Quiet s) :
    s0.Quiet (State.lxExpires s c f) := by
  unfold State.lxExpires
  repeat' (first | with_reducible exact h | (intro f s h) | (intro s h) | with_reducible apply State.onLd_quiet | with_reducible apply State.lapse_quiet | (with_reducible refine foldl_quiet _ _ _ (fun s x h => ?_) ?_) | with_reducible apply quiet_ite | split | exact (fun _ => rfl) | (dsimp only) | exact ⟨h.kept, h.now, h.ids⟩)
theorem State.announceExpires_quiet {s0 : State} {s : State} (c : Nat) (f : Flight) (h : s0.Quiet s) :
    s0.Quiet (State.announceExpires s c f) := by
  unfold State.announceExpires
  repeat' (first | with_reducible exact h | (intro f s h) | (intro s h) | with_reducible apply State.onPm_quiet | (with_reducible refine foldl_quiet _ _ _ (fun s x h => ?_) ?_) | with_reducible apply quiet_ite | split | exact (fun _ => rfl) | (dsimp only) | exact ⟨h.kept, h.now, h.ids⟩)
theorem State.leafExpires_quiet {s0 : State} {s : State} (c : Nat) (f : Flight) (h : s0.Quiet s) :
    s0.Quiet (State.leafExpires s c f) := by
  unfold State.leafExpires
  repeat' (first | with_reducible exact h | (intro f s h) | (intro s h) | with_reducible apply State.inPair_quiet | with_reducible apply State.lxExpires_quiet | (with_reducible refine foldl_quiet _ _ _ (fun s x h => ?_) ?_) | with_reducible apply quiet_ite | split | exact (fun _ => rfl) | (dsimp only) | exact ⟨h.kept, h.now, h.ids⟩)
theorem State.levelExpires_quiet {s0 : State} {s : State} (c : Nat) (id : Nat) (h : s0.Quiet s) :
    s0.Quiet (State.levelExpires s c id) := by
  unfold State.levelExpires
  repeat' (first | with_reducible exact h | (intro f s h) | (intro s h) | with_reducible apply State.onPw_quiet | (with_reducible refine foldl_quiet _ _ _ (fun s x h => ?_) ?_) | with_reducible apply quiet_ite | split | exact (fun _ => rfl) | (dsimp only) | exact ⟨h.kept, h.now, h.ids⟩)
theorem State.sleepExpires_quiet {s0 : State} {s : State} (c : Nat) (id : Nat) (h : s0.Quiet s) :
    s0.Quiet (State.sleepExpires s c id) := by
  unfold State.sleepExpires
  repeat' (first | with_reducible exact h | (intro f s h) | (intro s h) | with_reducible apply State.onPw_quiet | (with_reducible refine foldl_quiet _ _ _ (fun s x h => ?_) ?_) | with_reducible apply quiet_ite | split | exact (fun _ => rfl) | (dsimp only) | exact ⟨h.kept, h.now, h.ids⟩)
theorem State.lanesExpire_quiet {s0 : State} {s : State} (c : Nat) (id : Nat) (h : s0.Quiet s) :
    s0.Quiet (State.lanesExpire s c id) := by
  unfold State.lanesExpire
  repeat' (first | with_reducible exact h | (intro f s h) | (intro s h) | with_reducible apply State.onKp_quiet | with_reducible apply State.onLane_quiet | (with_reducible refine foldl_quiet _ _ _ (fun s x h => ?_) ?_) | with_reducible apply quiet_ite | split | exact (fun _ => rfl) | (dsimp only) | exact ⟨h.kept, h.now, h.ids⟩)
theorem State.selfcalExpires_quiet {s0 : State} {s : State} (n : Nat) (id : Nat) (h : s0.Quiet s) :
    s0.Quiet (State.selfcalExpires s n id) := by
  unfold State.selfcalExpires
  repeat' (first | with_reducible exact h | (intro f s h) | (intro s h) | with_reducible apply State.onConv_quiet | (with_reducible refine foldl_quiet _ _ _ (fun s x h => ?_) ?_) | with_reducible apply quiet_ite | split | exact (fun _ => rfl) | (dsimp only) | exact ⟨h.kept, h.now, h.ids⟩)
theorem State.testExpires_quiet {s0 : State} {s : State} (n : Nat) (id : Nat) (h : s0.Quiet s) :
    s0.Quiet (State.testExpires s n id) := by
  unfold State.testExpires
  repeat' (first | with_reducible exact h | (intro f s h) | (intro s h) | with_reducible apply State.onConv_quiet | (with_reducible refine foldl_quiet _ _ _ (fun s x h => ?_) ?_) | with_reducible apply quiet_ite | split | exact (fun _ => rfl) | (dsimp only) | exact ⟨h.kept, h.now, h.ids⟩)
theorem State.imageExpires_quiet {s0 : State} {s : State} (id : Nat) (h : s0.Quiet s) :
    s0.Quiet (State.imageExpires s id) := by
  unfold State.imageExpires
  repeat' (first | with_reducible exact h | (intro f s h) | (intro s h) | with_reducible apply State.onSec_quiet | (with_reducible refine foldl_quiet _ _ _ (fun s x h => ?_) ?_) | with_reducible apply quiet_ite | split | exact (fun _ => rfl) | (dsimp only) | exact ⟨h.kept, h.now, h.ids⟩)
theorem State.chanExpires_quiet {s0 : State} {s : State} (f : Flight) (h : s0.Quiet s) :
    s0.Quiet (State.chanExpires s f) := by
  unfold State.chanExpires
  repeat' (first | with_reducible exact h | (intro f s h) | (intro s h) | with_reducible apply State.onCal_quiet | with_reducible apply State.onRx_quiet | with_reducible apply State.onChan_quiet | with_reducible apply State.onTrib_quiet | with_reducible apply State.lxExpires_quiet | with_reducible apply State.announceExpires_quiet | with_reducible apply State.leafExpires_quiet | with_reducible apply State.levelExpires_quiet | with_reducible apply State.sleepExpires_quiet | with_reducible apply State.lanesExpire_quiet | (with_reducible refine foldl_quiet _ _ _ (fun s x h => ?_) ?_) | with_reducible apply quiet_ite | split | exact (fun _ => rfl) | (dsimp only) | exact ⟨h.kept, h.now, h.ids⟩)
theorem State.jobExpires_quiet {s0 : State} {s : State} (f : Flight) (h : s0.Quiet s) :
    s0.Quiet (State.jobExpires s f) := by
  unfold State.jobExpires
  repeat' (first | with_reducible exact h | (intro f s h) | (intro s h) | with_reducible apply State.writeAt_quiet | (with_reducible refine foldl_quiet _ _ _ (fun s x h => ?_) ?_) | with_reducible apply quiet_ite | split | exact (fun _ => rfl) | (dsimp only) | exact ⟨h.kept, h.now, h.ids⟩)
theorem State.errFrame_quiet {s0 : State} {s : State} (c : Nat) (h : s0.Quiet s) :
    s0.Quiet (State.errFrame s c) := by
  unfold State.errFrame
  repeat' (first | with_reducible exact h | (intro f s h) | (intro s h) | with_reducible apply State.onChan_quiet | (with_reducible refine foldl_quiet _ _ _ (fun s x h => ?_) ?_) | with_reducible apply quiet_ite | split | exact (fun _ => rfl) | (dsimp only) | exact ⟨h.kept, h.now, h.ids⟩)
theorem State.errSkew_quiet {s0 : State} {s : State} (c : Nat) (h : s0.Quiet s) :
    s0.Quiet (State.errSkew s c) := by
  unfold State.errSkew
  repeat' (first | with_reducible exact h | (intro f s h) | (intro s h) | with_reducible apply State.setGroup_quiet | with_reducible apply State.onTrib_quiet | (with_reducible refine foldl_quiet _ _ _ (fun s x h => ?_) ?_) | with_reducible apply quiet_ite | split | exact (fun _ => rfl) | (dsimp only) | exact ⟨h.kept, h.now, h.ids⟩)
theorem State.breakTribs_quiet {s0 : State} {s : State} (c : Nat) (h : s0.Quiet s) :
    s0.Quiet (State.breakTribs s c) := by
  unfold State.breakTribs
  repeat' (first | with_reducible exact h | (intro f s h) | (intro s h) | with_reducible apply State.setTrib_quiet | with_reducible apply State.failTrib_quiet | (with_reducible refine foldl_quiet _ _ _ (fun s x h => ?_) ?_) | with_reducible apply quiet_ite | split | exact (fun _ => rfl) | (dsimp only) | exact ⟨h.kept, h.now, h.ids⟩)
theorem State.keeperLapse_quiet {s0 : State} {s : State} (c : Nat) (h : s0.Quiet s) :
    s0.Quiet (State.keeperLapse s c) := by
  unfold State.keeperLapse
  repeat' (first | with_reducible exact h | (intro f s h) | (intro s h) | with_reducible apply State.onSl_quiet | with_reducible apply State.lapseEvent_quiet | with_reducible apply State.lapse_quiet | with_reducible apply State.lxAgain_quiet | with_reducible apply State.agreementLapse_quiet | with_reducible apply State.inPair_quiet | (with_reducible refine foldl_quiet _ _ _ (fun s x h => ?_) ?_) | with_reducible apply quiet_ite | split | exact (fun _ => rfl) | (dsimp only) | exact ⟨h.kept, h.now, h.ids⟩)
theorem State.keeperTrap_quiet {s0 : State} {s : State} (c : Nat) (h : s0.Quiet s) :
    s0.Quiet (State.keeperTrap s c) := by
  unfold State.keeperTrap
  repeat' (first | with_reducible exact h | (intro f s h) | (intro s h) | with_reducible apply State.onChan_quiet | with_reducible apply State.calAbandon_quiet | with_reducible apply State.keeperLapse_quiet | (with_reducible refine foldl_quiet _ _ _ (fun s x h => ?_) ?_) | with_reducible apply quiet_ite | split | exact (fun _ => rfl) | (dsimp only) | exact ⟨h.kept, h.now, h.ids⟩)
theorem State.uncorrectable_quiet {s0 : State} {s : State} (k : Nat) (addr : Nat) (kind : Nat) (ring : Option Nat) (cmd : Option Nat) (copyBad : Bool) (h : s0.Quiet s) :
    s0.Quiet (State.uncorrectable s k addr kind ring cmd copyBad) := by
  unfold State.uncorrectable
  repeat' (first | with_reducible exact h | (intro f s h) | (intro s h) | with_reducible apply State.onSram_quiet | with_reducible apply State.finishOpt_quiet | with_reducible apply State.stopTransfer_quiet | with_reducible apply State.controllerStop_quiet | with_reducible apply State.errFrame_quiet | with_reducible apply State.errSkew_quiet | with_reducible apply State.breakTribs_quiet | with_reducible apply State.keeperTrap_quiet | (with_reducible refine foldl_quiet _ _ _ (fun s x h => ?_) ?_) | with_reducible apply quiet_ite | split | exact (fun _ => rfl) | (dsimp only) | exact ⟨h.kept, h.now, h.ids⟩)
theorem State.copyUnit_quiet {s0 : State} {s : State} (k : Nat) (u : Unit_) (h : s0.Quiet s) :
    s0.Quiet (State.copyUnit s k u) := by
  unfold State.copyUnit
  repeat' (first | with_reducible exact h | (intro f s h) | (intro s h) | with_reducible apply State.onSram_quiet | with_reducible apply State.demandError_quiet | with_reducible apply State.countUncorr_quiet | (with_reducible refine foldl_quiet _ _ _ (fun s x h => ?_) ?_) | with_reducible apply quiet_ite | split | exact (fun _ => rfl) | (dsimp only) | exact ⟨h.kept, h.now, h.ids⟩)
theorem State.retireSwitch_quiet {s0 : State} {s : State} (k : Nat) (id : Nat) (u : Unit_) (h : s0.Quiet s) :
    s0.Quiet (State.retireSwitch s k id u) := by
  unfold State.retireSwitch
  have m := State.copyUnit_quiet k u h
  exact State.finishId_quiet _ _ _ _ _ (State.raise_quiet _ _ _ _ _ _ ⟨m.kept, m.now, m.ids⟩)
theorem State.endDrains_quiet {s0 : State} {s : State} (cs : List Nat) (sent : List Nat) (h : s0.Quiet s) :
    s0.Quiet (State.endDrains s cs sent) := by
  unfold State.endDrains
  repeat' (first | with_reducible exact h | (intro f s h) | (intro s h) | with_reducible apply State.finishAll_quiet | with_reducible apply State.onTrib_quiet | (with_reducible refine foldl_quiet _ _ _ (fun s x h => ?_) ?_) | with_reducible apply quiet_ite | split | exact (fun _ => rfl) | (dsimp only) | exact ⟨h.kept, h.now, h.ids⟩)
theorem State.hubReceiveStart_quiet {s0 : State} {s : State} (c : Nat) (h : s0.Quiet s) :
    s0.Quiet (State.hubReceiveStart s c) := by
  unfold State.hubReceiveStart
  repeat' (first | with_reducible exact h | (intro f s h) | (intro s h) | with_reducible apply State.onRx_quiet | with_reducible apply State.restate_quiet | with_reducible apply State.windowBoundary_quiet | (with_reducible refine foldl_quiet _ _ _ (fun s x h => ?_) ?_) | with_reducible apply quiet_ite | split | exact (fun _ => rfl) | (dsimp only) | exact ⟨h.kept, h.now, h.ids⟩)
theorem State.egress_quiet {s0 s : State} (lv : Levels) (i : Nat) (h : s0.Quiet s) : s0.Quiet (s.egress lv i).1 := by
  unfold State.egress
  dsimp only
  split
  · exact State.setTrib_quiet _ _ h
  · split <;> exact State.setTrib_quiet _ _
      (quiet_ite (State.raise_quiet _ _ _ _ _ _ (State.draw_quiet h)) h)
theorem State.framePeriod_quiet {s0 : State} {s : State} (cs : List Nat) (lv : Levels) (fills : List Nat) (h : s0.Quiet s) :
    s0.Quiet (State.framePeriod s cs lv fills) := by
  unfold State.framePeriod
  refine foldl_quiet _ _ _ (fun s x h => State.usedHost_quiet _ h) (State.endDrains_quiet _ _
    (foldl_quiet _ _ _ (fun s x h => State.txCounted_quiet _ h) (foldl_quiet _ _ _ (fun s x h => State.sendFrame_quiet _ _ h) (foldl_quiet _ _ _ (fun s x h => State.sendHost_quiet _ _ _ h) ?_))))
  have k (is : List Nat) : ∀ acc : State × List EgTrib, s0.Quiet acc.1 →
      s0.Quiet (is.foldl (fun acc i => let q := acc.1.egress lv i; (q.1, acc.2 ++ [q.2])) acc).1 := by
    induction is with
    | nil => exact fun _ h => h
    | cons i is ih => exact fun acc h => ih _ (State.egress_quiet lv i h)
  refine k _ _ (foldl_quiet _ _ _ (fun s x h => State.missHost_quiet _ h) ?_)
  refine foldl_quiet _ _ _ (fun s x h => State.hubReceiveStart_quiet _ (State.hubReceiveEnd_quiet _ (State.firstMap_quiet _ h))) ?_
  split
  · exact State.releaseReady_quiet _ h
  · exact h
theorem State.rollWaiting_quiet {s0 : State} {s : State} (c : Nat) (h : s0.Quiet s) :
    s0.Quiet (State.rollWaiting s c) := by
  unfold State.rollWaiting
  repeat' (first | with_reducible exact h | (intro f s h) | (intro s h) | with_reducible apply State.rollKey_quiet | (with_reducible refine foldl_quiet _ _ _ (fun s x h => ?_) ?_) | with_reducible apply quiet_ite | split | exact (fun _ => rfl) | (dsimp only) | exact ⟨h.kept, h.now, h.ids⟩)
theorem State.timingBoundary_quiet {s0 : State} {s : State} (c : Nat) (h : s0.Quiet s) :
    s0.Quiet (State.timingBoundary s c) := by
  unfold State.timingBoundary
  repeat' (first | with_reducible exact h | (intro f s h) | (intro s h) | with_reducible apply State.onChan_quiet | with_reducible apply State.finishAll_quiet | (with_reducible refine foldl_quiet _ _ _ (fun s x h => ?_) ?_) | with_reducible apply quiet_ite | split | exact (fun _ => rfl) | (dsimp only) | exact ⟨h.kept, h.now, h.ids⟩)
theorem State.leafBoundary_quiet {s0 : State} {s : State} (c : Nat) (h : s0.Quiet s) :
    s0.Quiet (State.leafBoundary s c) := by
  unfold State.leafBoundary
  repeat' (first | with_reducible exact h | (intro f s h) | (intro s h) | with_reducible apply State.raise_quiet | with_reducible apply State.onPm_quiet | with_reducible apply State.onChan_quiet | (with_reducible refine foldl_quiet _ _ _ (fun s x h => ?_) ?_) | with_reducible apply quiet_ite | split | exact (fun _ => rfl) | (dsimp only) | exact ⟨h.kept, h.now, h.ids⟩)
theorem State.countUp_quiet {s0 : State} {s : State} (c : Nat) (h : s0.Quiet s) :
    s0.Quiet (State.countUp s c) := by
  unfold State.countUp
  repeat' (first | with_reducible exact h | (intro f s h) | (intro s h) | with_reducible apply State.onChan_quiet | (with_reducible refine foldl_quiet _ _ _ (fun s x h => ?_) ?_) | with_reducible apply quiet_ite | split | exact (fun _ => rfl) | (dsimp only) | exact ⟨h.kept, h.now, h.ids⟩)
theorem State.channelBoundary_quiet {s0 : State} {s : State} (merits : List (BitVec 8)) (c : Nat) (h : s0.Quiet s) :
    s0.Quiet (State.channelBoundary s merits c) := by
  unfold State.channelBoundary
  repeat' (first | with_reducible exact h | (intro f s h) | (intro s h) | with_reducible apply State.onCal_quiet | with_reducible apply State.onChan_quiet | with_reducible apply State.bankTurn_quiet | with_reducible apply State.downstreamBoundary_quiet | with_reducible apply State.lxBoundary_quiet | with_reducible apply State.hubBoundary_quiet | with_reducible apply State.inPair_quiet | with_reducible apply State.shapeBoundary_quiet | with_reducible apply State.meritBoundary_quiet | with_reducible apply State.stopFrames_quiet | with_reducible apply State.rollWaiting_quiet | with_reducible apply State.timingBoundary_quiet | with_reducible apply State.leafBoundary_quiet | (with_reducible refine foldl_quiet _ _ _ (fun s x h => ?_) ?_) | with_reducible apply quiet_ite | split | exact (fun _ => rfl) | (dsimp only) | exact ⟨h.kept, h.now, h.ids⟩)
theorem State.markStart_quiet {s0 : State} {s : State} (c : Nat) (h : s0.Quiet s) :
    s0.Quiet (State.markStart s c) := by
  unfold State.markStart
  repeat' (first | with_reducible exact h | (intro f s h) | (intro s h) | with_reducible apply State.onChan_quiet | (with_reducible refine foldl_quiet _ _ _ (fun s x h => ?_) ?_) | with_reducible apply quiet_ite | split | exact (fun _ => rfl) | (dsimp only) | exact ⟨h.kept, h.now, h.ids⟩)
theorem State.multiframe_quiet {s0 : State} {s : State} (cs : List Nat) (merits : List (BitVec 8)) (h : s0.Quiet s) :
    s0.Quiet (State.multiframe s cs merits) := by
  unfold State.multiframe
  repeat' (first | with_reducible exact h | (intro f s h) | (intro s h) | with_reducible apply State.onGroup_quiet | with_reducible apply State.payOwed_quiet | with_reducible apply State.restate_quiet | with_reducible apply State.bankSettle_quiet | with_reducible apply State.countUp_quiet | with_reducible apply State.channelBoundary_quiet | with_reducible apply State.markStart_quiet | (with_reducible refine foldl_quiet _ _ _ (fun s x h => ?_) ?_) | with_reducible apply quiet_ite | split | exact (fun _ => rfl) | (dsimp only) | exact ⟨h.kept, h.now, h.ids⟩)
theorem State.wearOut_quiet {s0 : State} {s : State} (i : Nat) (h : s0.Quiet s) :
    s0.Quiet (State.wearOut s i) := by
  unfold State.wearOut
  repeat' (first | with_reducible exact h | (intro f s h) | (intro s h) | with_reducible apply State.raise_quiet | with_reducible apply State.setCipherOf_quiet | (with_reducible refine foldl_quiet _ _ _ (fun s x h => ?_) ?_) | with_reducible apply quiet_ite | split | exact (fun _ => rfl) | (dsimp only) | exact ⟨h.kept, h.now, h.ids⟩)
theorem State.idle_quiet {s0 : State} {s : State} (h : s0.Quiet s) :
    s0.Quiet (State.idle s) := by
  unfold State.idle
  exact quiet_ite ⟨h.kept, Nat.le_trans h.now (Nat.le_add_right _ _), h.ids⟩ h

end Sys2Proof.Machine
end

