-- ==== Sys2Proof/Laws/Memory.lean ====
section
/-! SUPPORT. The host window as memory: what a write reads back as, that it leaves every other address alone, and that every
operation keeps the canonical form (17 R386 to R389). -/

namespace Sys2Proof.Machine

@[simp] theorem Memory.read_nil (a : Nat) : Memory.read [] a = none := rfl

theorem Memory.read_append (m n : Memory) (a : Nat) :
    Memory.read (m ++ n) a = match Memory.read m a with | some v => some v | none => Memory.read n a := by
  induction m with
  | nil => rfl
  | cons p m ih => simp only [List.cons_append, Memory.read]; split <;> simp_all

theorem Memory.read_filter_keep (m : Memory) (p : Nat → Bool) (a : Nat) (h : p a = true) :
    Memory.read (m.filter fun c => p c.1) a = Memory.read m a := by
  induction m with
  | nil => rfl
  | cons q m ih =>
    simp only [List.filter_cons, Memory.read]
    split
    · simp only [Memory.read, ih]
    · next k => rw [ih, if_neg (fun e => k (by rw [← e]; exact h))]

theorem Memory.read_filter_drop (m : Memory) (p : Nat → Bool) (a : Nat) (h : p a = false) :
    Memory.read (m.filter fun c => p c.1) a = none := by
  induction m with
  | nil => rfl
  | cons q m ih =>
    simp only [List.filter_cons]
    split
    · next k => rw [Memory.read, ih, if_neg (fun e => by rw [e, k] at h; cases h)]
    · exact ih

theorem Memory.read_cellsAt (bs : List Byte) (a b : Nat) :
    Memory.read (cellsAt a bs) b = if a ≤ b then bs[b - a]? else none := by
  induction bs generalizing a with
  | nil => simp [cellsAt]
  | cons x bs ih =>
    simp only [cellsAt, Memory.read, ih]
    by_cases h : b = a
    · subst h; simp
    · by_cases k : a ≤ b
      · rw [if_neg h, if_pos (by omega), if_pos k, show b - a = (b - (a + 1)) + 1 by omega, List.getElem?_cons_succ]
      · rw [if_neg h, if_neg (by omega), if_neg k]

/-- What an address reads as after a write: the byte written there, else as before. -/
theorem Memory.read_write (m : Memory) (a b : Nat) (bs : List Byte) :
    Memory.read (Memory.write m a bs) b = if a ≤ b ∧ b < a + bs.length then bs[b - a]? else Memory.read m b := by
  have hlow := fun h => Memory.read_filter_keep m (fun k => decide (k < a)) b h
  have hlow' := fun h => Memory.read_filter_drop m (fun k => decide (k < a)) b h
  have hup := fun h => Memory.read_filter_keep m (fun k => decide (a + bs.length ≤ k)) b h
  have hup' := fun h => Memory.read_filter_drop m (fun k => decide (a + bs.length ≤ k)) b h
  unfold Memory.write
  rw [Memory.read_append, Memory.read_append, Memory.read_cellsAt]
  by_cases h1 : b < a
  · rw [hlow (by simpa using h1), hup' (by simp; omega), if_neg (by omega), if_neg (by omega)]
    cases Memory.read m b <;> rfl
  · rw [hlow' (by simpa using h1), if_pos (by omega)]
    by_cases h2 : b < a + bs.length
    · rw [if_pos ⟨by omega, h2⟩, hup' (by simp; omega)]
      cases bs[b - a]? <;> rfl
    · rw [if_neg (by omega), hup (by simp; omega), List.getElem?_eq_none (by omega)]

theorem Memory.read_write_other (m : Memory) (a b : Nat) (bs : List Byte) (h : b < a ∨ a + bs.length ≤ b) :
    Memory.read (Memory.write m a bs) b = Memory.read m b := by
  rw [Memory.read_write, if_neg (by omega)]

theorem Memory.read_write_same (m : Memory) (a k : Nat) (bs : List Byte) (h : k < bs.length) :
    Memory.read (Memory.write m a bs) (a + k) = some (bs.getD k 0) := by
  rw [Memory.read_write, if_pos (by omega), show a + k - a = k by omega]
  simp [List.getD, List.getElem?_eq_getElem h]

/-! ### The canonical form -/

theorem rising_cellsAt_append (bs : List Byte) (a : Nat) (m : Memory) (hm : Sparse.rising (a + bs.length) m = true) :
    Sparse.rising a (cellsAt a bs ++ m) = true := by
  induction bs generalizing a with
  | nil => simpa [cellsAt] using hm
  | cons b bs ih =>
    simp only [cellsAt, List.cons_append, Sparse.rising, Nat.le_refl, decide_true, Bool.true_and]
    exact ih _ (by simpa [Nat.add_comm, Nat.add_left_comm, Nat.add_assoc] using hm)

theorem rising_filter {n : Nat} {m : Memory} (p : Host.Cell → Bool) (hm : Sparse.rising n m = true) :
    Sparse.rising n (m.filter p) = true := by
  induction m generalizing n with
  | nil => rfl
  | cons q m ih =>
    simp only [Sparse.rising, Bool.and_eq_true, decide_eq_true_eq] at hm
    rw [List.filter_cons]
    split
    · simp [Sparse.rising, hm.1, ih hm.2]
    · exact Sparse.rising_mono (by omega) (ih hm.2)

theorem rising_filter_ge {n k : Nat} {m : Memory} (hm : Sparse.rising n m = true) :
    Sparse.rising k (m.filter fun c => k ≤ c.1) = true := by
  induction m generalizing n with
  | nil => rfl
  | cons q m ih =>
    simp only [Sparse.rising, Bool.and_eq_true, decide_eq_true_eq] at hm
    rw [List.filter_cons]
    split
    · next h => simpa [Sparse.rising, of_decide_eq_true h] using rising_filter _ hm.2
    · exact ih hm.2

theorem rising_filter_lt_append {n a : Nat} {m x : Memory} (hm : Sparse.rising n m = true) (hna : n ≤ a)
    (hx : Sparse.rising a x = true) : Sparse.rising n (m.filter (fun c => c.1 < a) ++ x) = true := by
  induction m generalizing n with
  | nil => exact Sparse.rising_mono hna hx
  | cons q m ih =>
    simp only [Sparse.rising, Bool.and_eq_true, decide_eq_true_eq] at hm
    rw [List.filter_cons]
    split
    · next h =>
      have h := of_decide_eq_true h
      simp only [List.cons_append, Sparse.rising, Bool.and_eq_true, decide_eq_true_eq]
      exact ⟨hm.1, ih hm.2 (by omega)⟩
    · next h =>
      have h : ¬ q.1 < a := by simpa using h
      rw [show m.filter (fun c => decide (c.1 < a)) = [] from ?_]
      · exact Sparse.rising_mono hna hx
      · have z : ∀ (k : Nat) (l : Memory), Sparse.rising k l = true → a ≤ k → l.filter (fun c => decide (c.1 < a)) = [] := by
          intro k l
          induction l generalizing k with
          | nil => exact fun _ _ => rfl
          | cons r l ih =>
            intro hl hk
            simp only [Sparse.rising, Bool.and_eq_true, decide_eq_true_eq] at hl
            rw [List.filter_cons, if_neg (by simp; omega)]
            exact ih _ hl.2 (by omega)
        exact z _ _ hm.2 (by omega)

/-- A write keeps the canonical form. -/
theorem Memory.wf_write {m : Memory} (a : Nat) (bs : List Byte) (hm : Memory.wf m = true) :
    Memory.wf (Memory.write m a bs) = true := by
  unfold Memory.wf Memory.write
  rw [List.append_assoc]
  exact rising_filter_lt_append hm (Nat.zero_le a) (rising_cellsAt_append bs a _ (rising_filter_ge hm))

theorem State.reset_mem_wf : Memory.wf State.reset.mem = true := rfl

/-! ### The store operations of the module -/

@[simp] theorem State.markWritten_mem (s : State) (a len : Nat) : (s.markWritten a len).mem = s.mem := rfl
@[simp] theorem State.storeWindow_mem (s : State) (a : Nat) (bs : List Byte) :
    (s.storeWindow a bs).mem = Memory.write s.mem a bs := rfl
@[simp] theorem State.storeWindow_flights (s : State) (a : Nat) (bs : List Byte) : (s.storeWindow a bs).flights = s.flights := rfl
@[simp] theorem State.storeWindow_channels (s : State) (a : Nat) (bs : List Byte) : (s.storeWindow a bs).channels = s.channels := rfl
@[simp] theorem State.storeWindow_rings (s : State) (a : Nat) (bs : List Byte) : (s.storeWindow a bs).rings = s.rings := rfl
@[simp] theorem State.storeWindow_now (s : State) (a : Nat) (bs : List Byte) : (s.storeWindow a bs).now = s.now := rfl
@[simp] theorem State.storeWindow_pending (s : State) (a : Nat) (bs : List Byte) : (s.storeWindow a bs).pending = s.pending := rfl

/-- A quiet operation keeps the host window. -/
theorem State.Quiet.mem {s0 s : State} (h : s0.Quiet s) : s.mem = s0.mem := congrArg Kept.mem h.kept
theorem State.Quiet.pending {s0 s : State} (h : s0.Quiet s) : s.pending = s0.pending := congrArg Kept.pending h.kept

/-- Fill, copy and scan complete: the window stays in canonical form. -/
theorem State.memDone_wf {s : State} (f : Flight) (contents : List Byte) (corr : List (Nat × Nat)) (h : Memory.wf s.mem = true) :
    Memory.wf (s.memDone f contents corr).mem = true := by
  have keep (t : State) (k : s.Quiet t) : Memory.wf t.mem = true := k.mem ▸ h
  have r (k : Nat) := State.readRange_quiet k f.desc.addr f.desc.len corr (State.Quiet.refl s)
  unfold State.memDone
  dsimp only
  split
  · simpa using Memory.wf_write _ _ h
  · simpa using Memory.wf_write _ _ h
  · exact keep _ (State.dmaRead_quiet _ _ _ _ _ _ (fun _ q => State.finish_quiet _ _ _ _ _ (State.writeBuf_quiet _ _ _ q))
      (State.Quiet.refl s))
  · have q := r f.desc.target
    split <;> rename_i e <;> rw [e] at q
    · exact keep _ (State.finish_quiet _ _ _ _ _ q)
    · exact keep _ (State.finish_quiet _ _ _ _ _ (State.countUncorr_quiet _ _ _ q))

end Sys2Proof.Machine
end

