-- ==== Sys2Proof/Tests/Slice0.lean ====
section
/-! SUPPORT. Tests: ill-formed commands that the check refuses, published check values, one step, and for each statement
states and operands that meet its hypotheses, clause by clause. -/

namespace Sys2Proof.Tests
open Sys2Proof.Machine
set_option maxRecDepth 4000

/-- The module running, link 0 trained, a command ring and its completion ring enabled in the common block. -/
def up : State :=
  let b : Boot := { booted := true, running := true, released := true, laserOffN := false }
  let l : Link := { trained := true, dbAddr := 1 }
  { State.reset with
    boot := b, links := [(0, l)], nextId := 6
    rings := [(49152, { addr := 1, en := true, cq := 49153 }), (49153, { addr := 2, en := true, kind := .completion, size := 1 })] }

/-- A descriptor. -/
def desc (op tgt len : Nat) (p0 : Word := 0) (p1 : Word := 0) (p2 : Word := 0) : Desc :=
  { w0 := mkWord [(0, 16, op), (16, 6, tgt), (32, 32, 7)], w1 := if len = 0 then 0 else 4096, w2 := BitVec.ofNat 64 len
    w3 := p0, w4 := p1, w5 := p2 }

/-- A command fetched from ring 49152, started. -/
def cmd (op tgt len : Nat) (p0 : Word := 0) (p1 : Word := 0) (p2 : Word := 0) : Flight :=
  { id := 5, link := 0, ring := 49152, index := 0, desc := desc op tgt len p0 p1 p2, phase := .started
    owned := 0xFFFFFFFF, primary := true }

/-- A state with one command in flight. -/
def holding (s : State) (f : Flight) : State := { s with flights := [f] }

/-- Channel 0 at step 4 of bring-up, sending. -/
def live : Channel := { pw := { level := .spring }, bu := { step := 4 }, tf := { sending := true } }

/-- All subcarriers Active at one loading. -/
def fullSet (code : Nat) : LoadSet := { lit := 0xFFFF, active := 0xFFFF, codes := List.replicate 32 code }

/-- A channel that carries, at 32 GBd on every subcarrier, tracking and In-frame. -/
def carry : Channel :=
  { live with
    bu := { step := 4, params := { rate := 32 } }, ld := { tx := fullSet 64, rx := fullSet 64 }
    rx := { state := .tracking, acquired := 0xFFFF }, rf := { state := .inFrame, numKnown := true } }

/-- A loading request for a full transmit set. -/
def setWords (code : Nat) : List Word :=
  0x1FFFFFFFF :: List.replicate 4 (BitVec.ofNat 64 (0x0101010101010101 * code)) ++ [0, 0, 0]

/-- The running module with channel 0 as given. -/
def chan0 (ch : Channel) : State := up.setChan 0 ch

/-- A sealed key of 32 bytes of 5, wrapped under the key of number 258. -/
def wrapped (w0 : Word) : List Byte :=
  let r := Crypto.gcmEncrypt (Crypto.keyBytes 258) (List.replicate 12 0) (Crypto.nats (Word.bytes w0)) (List.replicate 32 5)
  Word.bytes w0 ++ List.replicate 16 0 ++ Crypto.bytesOf r.1 ++ Crypto.bytesOf r.2 ++ List.replicate 8 0

/-- A map with no assignment and no grant. -/
def noGrants : List Word := mkWord [(0, 32, 9)] :: List.replicate 159 0
def emptyMap : List Word := noGrants ++ [BitVec.ofNat 64 (crc32c (wordsBytes noGrants))]

/-- A received line frame with nothing in it. -/
def aFrame : FrameIn :=
  { streams := [], codewords := [], offshore := false, odd := none, devs := [], arrival := 0 }

/-- The figures of a received multiframe. -/
def quality : QualityIn :=
  { snr := List.replicate 32 none, evm := List.replicate 32 none, subs := List.replicate 16 (0, 0, 0, 0), cd := 0, freq := 0
    clk := 0, slips := 0, adc := List.replicate 4 (0, 0) }

/-- The estimates of a calibration window without positions. -/
def window : CalEstimate :=
  { est := [], half1 := [], half2 := [], resp := [], ilRes := List.replicate 4 0, eye := List.replicate 4 0, low := false
    clip := List.replicate 4 0 }

/-- Readings of the base plate, and the samples of a capture. -/
def plate : Plate := { t4 := 200, t5 := 200, t6 := 200, t7 := 200 }
def sample : CapSample := { num := none, ofs := 3, pre := [], post := [] }

/-! ### Well-formed commands -/

/-- A shore frame with nothing in it. -/
def hop : ShoreFrame := { dst := 0, src := 0, typ := 0, hops := 0, seq := 0, body := [] }

theorem test_wellFormed_accepts :
    Instr.allWf [.partChange 0 (List.replicate 8 0), .fecProfile 0 [], .ringEnable 0 0 1, .registerWrite 0 0 8 8 0, .hello true hop] =
      true := by decide

/-- One ill-formed command for each check. -/
theorem test_illFormed_refused :
    Instr.wf (.ohmSend 0 (List.replicate 262145 0)) = false ∧
    Instr.wf (.decimRecord 0 0 (List.replicate 65537 [])) = false ∧
    Instr.wf (.entropyHealthFailure (List.replicate 65537 true)) = false ∧
    [Instr.partChange 0 [], .tribProvision 0 [], .tribModify 0 [], .tribPromiseRelease 0 (List.replicate 33 0),
      .tribPromiseReinstate 0 (List.replicate 33 0), .slotWrite 0 (List.replicate 401 0), .cipherSetup 0 [], .keyLoad 0 [],
      .jobKeyLoad 0 [], .loadChange 0 [], .chanBringup 0 [] plate, .fecProfile 0 [0], .opticsStatus 0 0 0 0 65536,
      .captureArm 0 { sample with ofs := 16777216 }, .captureArm 0 { sample with pre := [[1]] },
      .captureTaken 0 { sample with post := [[1, 2, 3]] }, .leafSet 0 [], .leafLoad 0 [],
      .monScanSet 0 (List.replicate 17 0), .monFilterSet 0 [0], .pwrStatus 0 65536 0, .pwrStatus 0 0 4294967296,
      .pwrModule 0 4294967296 0, .pwrModule 0 0 4294967296, .attestReport 0 [], .kekEstablish 0 [],
      .shoreSend 0 (List.replicate 1457 0), .ringEnable 0 0 0, .ringDisable 0 0 1, .rcvGo 0, .registerWrite 0 1 0 8 0,
      .registerWrite 0 0 0 3 0, .registerWrite 0 0 4 8 0, .registerWrite 0 0 2097152 8 0, .doorbellReadDone 0 0 [],
      .linkTrained 0 0 1, .linkTrained 0 1 0, .ingressHostFrame 0 0 [] [],
      .rxLineFrame 0 none { aFrame with codewords := [([true], 1)] },
      .rxLineFrame 0 none { aFrame with codewords := [(List.replicate 8320 false, 17)] },
      .rxMultiframeEnd 0 { quality with snr := [] }, .rxMultiframeEnd 0 { quality with evm := [] },
      .rxMultiframeEnd 0 { quality with subs := [] }, .rxMultiframeEnd 0 { quality with adc := [] }, .lossOfSignal 0 [],
      .calWindowEnd 0 true { window with half1 := [0] }, .calWindowEnd 0 true { window with half2 := [0] },
      .calWindowEnd 0 true { window with ilRes := [] }, .calWindowEnd 0 true { window with eye := [] },
      .calWindowEnd 0 true { window with clip := [] }, .calWindowEnd 0 true { window with eye := List.replicate 4 4096 },
      .entropyStartupTest [], .decimRecord 0 0 [List.replicate 257 0], .burstDetect 0 0 [] { rows := [], snr := 0 },
      .timingSecond [] 0 0, .testEnd 0 [], .hello true { hop with dst := 2048 },
      .addrAssign true { hop with src := 2048 }, .invReq true { hop with typ := 256 }, .invResp true { hop with hops := 2048 },
      .alarm true { hop with body := List.replicate 1457 0 }, .laserOff true { hop with dst := 2048 },
      .msg true { hop with dst := 2048 }, .urgentRequestDone 0 [] {}].all (fun i => !i.wf) = true :=
  ⟨by rw [Instr.wf, List.length_replicate]; decide, by rw [Instr.wf, List.length_replicate]; rfl,
    by rw [Instr.wf, List.length_replicate]; decide, by decide +kernel⟩

/-! ### Published values and one step -/

/-- The nine ASCII digits. -/
def digits : List Byte := [0x31, 0x32, 0x33, 0x34, 0x35, 0x36, 0x37, 0x38, 0x39]

/-- The usual check values of the four CRCs of R400. -/
theorem test_crc_values : crc32 digits = 0xCBF43926 ∧ crc32c digits = 0xE3069283 ∧ crc16 digits = 0x29B1 ∧
    crc64 digits = 0x6C40DF5F0B497347 := by decide +kernel

/-- FIPS 197, appendix C.3. -/
theorem test_aes_vector : Crypto.aesEncrypt (List.range 32) ((List.range 16).map (· * 17)) =
    [0x8E, 0xA2, 0xB7, 0xCA, 0x51, 0x67, 0x45, 0xBF, 0xEA, 0xFC, 0x49, 0x90, 0x4B, 0x49, 0x60, 0x89] := by decide +kernel

/-- FIPS 180-4: the digest of "abc". -/
theorem test_sha_vector : Crypto.sha256N [0x61, 0x62, 0x63] =
    Crypto.beBytesN 32 0xBA7816BF8F01CFEA414140DE5DAE2223B00361A396177A9CB410FF61F20015AD := by decide +kernel

/-- A component word of Harbour with up to three errors decodes, with four it does not (R205, R208): the word of zeros is one of
the code, and at most three errors are corrected. -/
def hit (ks : List Nat) : List Bool := (List.range 60).map ks.contains
theorem test_component_decode :
    (harbourField.correct 3 [] (hit [7, 30, 59]) = some (hit [], true)) ∧ (harbourField.correct 3 [] (hit []) = some (hit [], false)) ∧
      (harbourField.correct 3 (hit [30]) (hit [7, 30]) = none) ∧ (harbourField.correct 3 [] (hit [7, 20, 30, 59]) = none) := by
  decide +kernel

/-- No row of the table has bits, so no word spells a command. -/
theorem test_decode_none : decodeTableWord 64 0 = none := rfl

/-- The command at the front of the queue runs: a NOP ends, its completion waits for its ring, the rest stays queued. -/
theorem test_step_nop :
    let s : State := { holding up (cmd 0x100 32 0) with pending := [.nop 5, .supplyDip] }
    (match step s with | .next t => decide (t.pending = [.supplyDip]) && t.flights.isEmpty | _ => false) = true := by decide

/-! ### Helpers for two witnesses -/

theorem low32 (x : BitVec 32) : BitVec.ofNat 32 (Word.bits (BitVec.ofNat 64 x.toNat) 31 0) = x := by
  apply BitVec.eq_of_toNat_eq
  simp [Word.bits]
  omega

theorem standbyCrc_holding (s : State) (f : Flight) (l : List Nat) : (holding s f).standbyCrc l = s.standbyCrc l := by
  have h : ∀ c, (holding s f).chan c = s.chan c := fun _ => rfl
  simp only [State.standbyCrc, h]

theorem switch_crc (x : BitVec 32) (s : State) (f : Flight) (h : s.standbyCrc [0] = x) :
    BitVec.ofNat 32 ((cmd 0x1111 0 0 1 (BitVec.ofNat 64 x.toNat)).desc.p1.bits 31 0) = (holding s f).standbyCrc [0] :=
  (low32 x).trans (h.symm.trans (standbyCrc_holding s f _).symm)

theorem crcByteLsb_lt {p r : Nat} (b : Byte) (hp : p < 2 ^ 32) (hr : r < 2 ^ 32) : crcByteLsb p r b < 2 ^ 32 := by
  unfold crcByteLsb
  generalize List.range 8 = l
  induction l generalizing r with
  | nil => exact hr
  | cons i l ih =>
    apply ih
    have h2 : r / 2 < 2 ^ 32 := by omega
    simp only []
    split
    · exact Nat.xor_lt_two_pow h2 hp
    · exact h2

theorem crc32c_lt (bs : List Byte) : crc32c bs < 2 ^ 32 := by
  have h : ∀ r, r < 2 ^ 32 → bs.foldl (crcByteLsb 0x82F63B78) r < 2 ^ 32 := by
    induction bs with
    | nil => exact fun _ h => h
    | cons b bs ih => exact fun r hr => ih _ (crcByteLsb_lt b (by decide) hr)
  exact Nat.xor_lt_two_pow (h _ (by decide)) (by decide)

theorem mapIn_of (x : P2mp) (m : List Word) (hm : m.length = 160) (h0 : (wd m 0).bits 45 32 = 0) :
    P2mp.mapIn { x with gmIn := (m ++ [BitVec.ofNat 64 (crc32c (wordsBytes m))]) :: List.replicate 31 [] } =
      some (m ++ [BitVec.ofNat 64 (crc32c (wordsBytes m))]) := by
  have hc := crc32c_lt (wordsBytes m)
  have h2 : ∀ x : Word, (m ++ [x]).take 160 = m := fun x => by rw [← hm]; simp
  have h3 : ∀ x : Word, wd (m ++ [x]) 160 = x := fun x => by simp [wd, ← hm]
  have h1 : ∀ x : Word, wd (m ++ [x]) 0 = wd m 0 := fun x => by
    cases m with
    | nil => cases hm
    | cons a m => rfl
  generalize hce : crc32c (wordsBytes m) = c at *
  have h4 : Word.bits (BitVec.ofNat 64 c) 31 0 = c := by simp [Word.bits]; omega
  have h5 : ∀ l : List Word, (l :: List.replicate 31 []).flatten = l := fun l => by simp
  simp only [P2mp.mapIn, h5, h1, h0, Nat.add_zero, h2, hce, h3, h4]
  rfl

theorem emptyMap_in (x : P2mp) : P2mp.mapIn { x with gmIn := emptyMap :: List.replicate 31 [] } = some emptyMap :=
  mapIn_of x noGrants rfl (by decide)

/-- What a lookup gives is the default or a listed value. -/

theorem get_of {α : Type} {P : α → Prop} {d : α} {m : Sparse α} (hd : P d) (hm : ∀ p ∈ m, P p.2) (i : Nat) : P (m.get d i) := by
  induction m with
  | nil => exact hd
  | cons p m ih =>
    unfold Sparse.get
    split
    · exact hm _ (List.mem_cons_self ..)
    · exact ih fun q hq => hm q (List.mem_cons_of_mem _ hq)

theorem some_getD {α β γ : Type} {o : Option (α × β × γ)} (d : α × β × γ) (h : o.isSome = true) :
    o = some ((o.getD d).1, (o.getD d).2.1, (o.getD d).2.2) := by
  cases o with
  | none => cases h
  | some x => rfl

/-! ### Witnesses -/

/-- States and operands that meet the hypotheses of `Obligations.RingCommandsComplete`, clause by clause. -/
theorem test_RingCommandsComplete_met :
  (let f : Flight := cmd 0x100 32 0;
   let s : State := holding up f;
   s.Started 5 256 f) ∧
  (let f : Flight := cmd 0x101 32 32 49153;
   let s : State := holding up f;
   s.Started 5 257 f ∧ f.desc.mayName (f.desc.p0.bits 15 0) = true ∧ (s.ring (f.desc.p0.bits 15 0)).owner = f.link ∧
     s.ringBusy (f.desc.p0.bits 15 0) = true) ∧
  (let f : Flight := cmd 0x110 32 0 0x4C002;
   let s : State := holding (up.setRing 49154 { en := true, kind := .event }) f;
   s.Started 5 272 f ∧ f.desc.mayName (f.desc.p0.bits 15 0) = true ∧ (s.ring (f.desc.p0.bits 15 0)).en = true ∧
     (s.ring (f.desc.p0.bits 15 0)).owner = f.link ∧ (s.ring (f.desc.p0.bits 15 0)).kind = RingKind.event) ∧
  (let f : Flight := { cmd 0x130 32 4096 with ring := 49155 };
   let s : State := holding (up.setRing 49155 { en := true, kind := .ohmReceive, cq := 49153 }) f;
   s.Started 5 304 f ∧ (s.ring f.ring).en = true ∧ (s.ring f.ring).halted = false) ∧
  (let f : Flight := cmd 0x120 32 528;
   let s : State := holding up f;
   s.Started 5 288 f) :=
  ⟨by decide, by decide, by decide, by decide, by decide⟩

/-- States and operands that meet the hypotheses of `Obligations.RingSwitching`, clause by clause. -/
theorem test_RingSwitching_met :
  (let s : State := up.setRing 49156 { addr := 3 };
   let v : Word := mkWord [(0,1,1),(1,3,0),(4,4,10),(8,16,49153),(24,11,5),(56,4,2),(60,4,3)];
   s.reach 0 = true ∧ s.sec.rcvMode = false ∧ v.bit 0 = true ∧ s.boot.booted = true ∧ (s.link 0).dbAddr ≠ 0 ∧
     s.ringBusy 49156 = false ∧ s.mayEnable 0 (ringBlock 49156) (RingKind.ofCode (v.bits 3 1)) = true ∧ v.bits 7 4 ≤
     10 ∧ (s.ring 49156).addr ≠ 0 ∧ ((RingKind.ofCode (v.bits 3 1)).hostMade = true → s.cqUsable 0 49156 (v.bits 23 8)
     = true) ∧ (RingKind.ofCode (v.bits 3 1) = RingKind.event → ∀ (m : Nat), ¬((s.ring m).kind = RingKind.event ∧
     (s.ring m).en = true ∧ (s.ring m).owner = 0 ∧ ringBlock m = ringBlock 49156)) ∧ (∀ p ∈ s.rings, s.ring p.fst =
     p.snd)) ∧
  (let s : State := up.setRing 49156 { addr := 3 };
   let v : Word := mkWord [(0,1,1),(1,3,2),(4,4,0)];
   s.reach 0 = true ∧ s.sec.rcvMode = false ∧ v.bit 0 = true ∧ s.boot.booted = true ∧ (s.link 0).dbAddr ≠ 0 ∧
     s.ringBusy 49156 = false ∧ s.mayEnable 0 (ringBlock 49156) (RingKind.ofCode (v.bits 3 1)) = true ∧ v.bits 7 4 ≤
     10 ∧ (s.ring 49156).addr ≠ 0 ∧ ((RingKind.ofCode (v.bits 3 1)).hostMade = true → s.cqUsable 0 49156 (v.bits 23 8)
     = true) ∧ (RingKind.ofCode (v.bits 3 1) = RingKind.event → ∀ (m : Nat), ¬((s.ring m).kind = RingKind.event ∧
     (s.ring m).en = true ∧ (s.ring m).owner = 0 ∧ ringBlock m = ringBlock 49156)) ∧ (∀ p ∈ s.rings, s.ring p.fst =
     p.snd)) ∧
  (let s : State := holding up (cmd 0x100 32 0);
   let v : Word := 0;
   s.reach 0 = true ∧ s.sec.rcvMode = false ∧ v.bit 0 = false ∧ s.boot.booted = true ∧ (s.ring 49152).en = true ∧
     (s.ring 49152).owner = 0 ∧ ((s.ring 49152).kind = RingKind.completion → s.feeders 49152 = [])) ∧
  (let s : State := up.setRing 49152 {};
   let v : Word := 2;
   s.reach 0 = true ∧ s.sec.rcvMode = false ∧ v.bit 0 = false ∧ s.boot.booted = true ∧ (s.ring 49153).en = true ∧
     (s.ring 49153).owner = 0 ∧ ((s.ring 49153).kind = RingKind.completion → s.feeders 49153 = [])) :=
  ⟨⟨by decide, by decide, by decide, by decide, by decide, by decide, by decide, by decide, by decide, by decide, fun
    h => absurd h (by decide), by decide⟩, ⟨by decide, by decide, by decide, by decide, by decide, by decide, by
    decide, by decide, by decide, by decide, fun _ m hm => absurd hm.1 (get_of (P := fun x : Ring => x.kind ≠ .event)
    (by decide) (by decide) m), by decide⟩, by decide, by decide⟩

/-- States and operands that meet the hypotheses of `Obligations.RingRowsComplete`, clause by clause. -/
theorem test_RingRowsComplete_met :
  (let s : State := up;
   s.reach 0 = true ∧ s.sec.rcvMode = false ∧ (s.link 0).dbAddr ≠ 0 ∧ s.boot.running = true) ∧
  (let s : State := up.onLink 0 fun l => { l with reads := [{ group := 768, nudged := true }] };
   let q : GroupRead := { group := 768, nudged := true };
   s.reach 0 = true ∧ s.boot.running = true ∧ List.find? (fun q => decide (q.group = 768)) (s.link 0).reads = some q) ∧
  (let s : State := up.onLink 0 fun l => { l with sweepDue := some 5000 };
   s.reach 0 = true ∧ s.boot.running = true ∧ (s.link 0).sweepDue = some 5000) ∧
  (let s : State := up.setRing 49152 { addr := 1, en := true, cq := 49153, db := 1, visit := 1 };
   s.nextToFetch 49152 = true) ∧
  (let f : Flight := { cmd 0x100 32 0 with phase := .fetched };
   let s : State := holding up f;
   let o : OpInfo := (opInfo 0x100).getD { op := 0, ro := true, cls := .rings, tgt := .either };
   List.find? (fun f => decide (f.id = 5) && s.canStart f) s.flights = some f ∧ opInfo f.desc.opcode = some o ∧
     o.wellFormed (s.ring f.ring).kind f.ring f.desc = true ∧ s.targetAllowed f.link f.desc = true ∧ s.mayRun f o =
     true) :=
  ⟨by decide, by decide, by decide, by decide, ⟨by decide, rfl, by decide, by decide, by decide⟩⟩

/-- States and operands that meet the hypotheses of `Obligations.RingRowsComplete`, clause by clause. -/
theorem test_RingRowsComplete_met2 :
  (let f : Flight := { cmd 0x777 32 0 with phase := .fetched };
   let s : State := holding up f;
   List.find? (fun f => decide (f.id = 5) && s.canStart f && (opInfo f.desc.opcode).isNone) s.flights = some f) ∧
  (let s : State := up;
   s.reach (s.ring 49152).owner = true ∧ (s.ring 49152).en = true ∧ (s.ring 49152).halted = false) ∧
  (let s : State := up.onRing 49153 fun r => { r with modDue := some 700, unsignalled := 2 };
   s.boot.powered = true ∧ (s.ring 49153).en = true ∧ (s.ring 49153).modDue = some 700) ∧
  (let s : State := (up.onRing 49153 fun r => { r with modDue := some 700, unsignalled := 2 }).onLink 0 fun l =>
     { l with msix := [(0, { masked := false })] };
   s.boot.powered = true ∧ (s.ring 49153).en = true ∧ (s.ring 49153).modDue = some 700) ∧
  (let s : State := up.raise 3 0x1400 1 0;
   s.boot.powered = true ∧ s.batchUs 3 = some 0 ∧ s.batchWaits 3 0 = false) :=
  ⟨by decide, by decide, by decide, by decide, by decide⟩

/-- States and operands that meet the hypotheses of `Obligations.FinishWritesRecord`, clause by clause. -/
theorem test_FinishWritesRecord_met :
  (let f : Flight := cmd 0x100 32 0;
   let s : State := holding up f;
   49153 = (s.ring f.ring).cq ∧ f.orphan = false ∧ (s.link f.link).recovery = false ∧ f.limited = false ∧ (s.ring
     49153).en = true ∧ (s.ring 49153).halted = false) ∧
  (let f : Flight := cmd 0x100 32 0;
   let s : State := holding (up.setRing 49153
     { addr := 2, en := true, kind := .completion, size := 0, written := 127 }) f;
   49153 = (s.ring f.ring).cq ∧ f.orphan = false ∧ (s.link f.link).recovery = false ∧ f.limited = false ∧ (s.ring
     49153).en = true ∧ (s.ring 49153).halted = false) :=
  ⟨by decide, by decide⟩

/-- States and operands that meet the hypotheses of `Obligations.WrongRingKind`, clause by clause. -/
theorem test_WrongRingKind_met :
  (let f : Flight := { cmd 0x14C5 3 0 with phase := .fetched, ring := 49155 };
   let s : State := holding (up.setRing 49155 { en := true, kind := .ohmReceive, cq := 49153 }) f;
   let o : OpInfo := (opInfo 0x14C5).getD { op := 0, ro := true, cls := .rings, tgt := .either };
   List.find? (fun f => decide (f.id = 5) && s.canStart f) s.flights = some f ∧ opInfo f.desc.opcode = some o ∧
     (s.ring f.ring).kind.accepts f.desc.opcode = false) :=
  ⟨by decide, rfl, by decide⟩

/-- States and operands that meet the hypotheses of `Obligations.ArbiterWriteTakesEffect`, clause by clause. -/
theorem test_ArbiterWriteTakesEffect_met :
  (let s : State := up;
   let v : Word := mkWord [(0,4,3),(8,4,3),(16,11,1024)];
   s.reach 0 = true ∧ s.sec.rcvMode = false ∧ (s.link 0).arb.reqs.length = 36 ∧ v.bits 3 0 ≤ v.bits 11 8 ∧ v.bits 26
     16 ≠ 0 ∧ v.bits 26 16 ≤ 1024) ∧
  (let s : State := up;
   let v : Word := mkWord [(0,4,0),(8,4,15),(16,11,1)];
   s.reach 0 = true ∧ s.sec.rcvMode = false ∧ (s.link 0).arb.reqs.length = 36 ∧ v.bits 3 0 ≤ v.bits 11 8 ∧ v.bits 26
     16 ≠ 0 ∧ v.bits 26 16 ≤ 1024) :=
  ⟨by decide, by decide⟩

/-- States and operands that meet the hypotheses of `Obligations.BadArbiterWriteDiscarded`, clause by clause. -/
theorem test_BadArbiterWriteDiscarded_met :
  (let s : State := up;
   let v : Word := mkWord [(0,4,4),(8,4,3),(16,11,1024)];
   s.reach 0 = true ∧ s.sec.rcvMode = false ∧ (v.bits 3 0 > v.bits 11 8 ∨ v.bits 26 16 = 0 ∨ v.bits 26 16 > 1024)) ∧
  (let s : State := up;
   let v : Word := mkWord [(0,4,4),(8,4,5),(16,11,1025)];
   s.reach 0 = true ∧ s.sec.rcvMode = false ∧ (v.bits 3 0 > v.bits 11 8 ∨ v.bits 26 16 = 0 ∨ v.bits 26 16 > 1024)) ∧
  (let s : State := up;
   let v : Word := mkWord [(0,4,4),(8,4,5),(16,11,0)];
   s.reach 0 = true ∧ s.sec.rcvMode = false ∧ (v.bits 3 0 > v.bits 11 8 ∨ v.bits 26 16 = 0 ∨ v.bits 26 16 > 1024)) :=
  ⟨by decide, by decide, by decide⟩

/-- States and operands that meet the hypotheses of `Obligations.ArbiterPicksHighest`, clause by clause. -/
theorem test_ArbiterPicksHighest_met :
  (let a : Arbiter := {};
   let m : BitVec 36 := 0x800000001;
   a.reqs.length = 36 ∧ m ≠ 0 ∧ a.prev < 36) ∧
  (let a : Arbiter := { prev := 3 };
   let m : BitVec 36 := 0x00000001F;
   a.reqs.length = 36 ∧ m ≠ 0 ∧ a.prev < 36) :=
  ⟨by decide, by decide⟩

/-- States and operands that meet the hypotheses of `Obligations.SlotCountIsLargest`, clause by clause. -/
theorem test_SlotCountIsLargest_met :
  (let x : LoadSet := { lit := 0xFFFF, active := 0xFFFF, codes := List.replicate 32 8 };
   let g : Nat := (x.streams.map fun l => streamBits 1 (x.code l)).sum;
   g = (List.map (fun l => streamBits 1 (x.code l)) x.streams).sum) ∧
  (let x : LoadSet := { lit := 1, active := 1, codes := List.replicate 32 0 };
   let g : Nat := (x.streams.map fun l => streamBits 1 (x.code l)).sum;
   g = (List.map (fun l => streamBits 1 (x.code l)) x.streams).sum) :=
  ⟨by decide, by decide⟩

/-- States and operands that meet the hypotheses of `Obligations.ShedListOrder`, clause by clause. -/
theorem test_ShedListOrder_met :
  (let ch : Channel :=
     { tribs := [(0, { state := .carrying, shedRank := 255 }), (1, { state := .failed, shedRank := 1 }), (2, { state := .carrying, shedRank := 255 }), (95, { state := .ready })] };
   Sparse.rising 0 ch.tribs = true) :=
  by decide

/-- States and operands that meet the hypotheses of `Obligations.PartChangeRefusals`, clause by clause. -/
theorem test_PartChangeRefusals_met :
  (let f : Flight := { cmd 0x210 32 64 with link := 0 };
   let s : State := holding up f;
   s.Started 5 528 f) ∧
  (let f : Flight := { cmd 0x210 32 64 with link := 1 };
   let s : State := holding up f;
   s.Started 5 528 f) ∧
  (let f : Flight := cmd 0x210 32 64;
   let s : State := holding up f;
   s.Started 5 528 f) ∧
  (let f : Flight := { cmd 0x210 32 64 with primary := true };
   let s : State := holding (up.onLink 1 fun l => { l with trained := true }) f;
   s.Started 5 528 f) ∧
  (let f : Flight := { cmd 0x210 32 64 with primary := true };
   let s : State := holding
     { (up.onLink 1 fun l => { l with trained := true }) with part := { up.part with seq := 32 } } f;
   s.Started 5 528 f) :=
  ⟨by decide, by decide, by decide, by decide, by decide⟩

/-- States and operands that meet the hypotheses of `Obligations.BestCandidateSelected`, clause by clause. -/
theorem test_BestCandidateSelected_met :
  (let s : State := up.onTm fun t => { t with revert := true };
   s.tm.revert = true) ∧
  (let s : State := up.onTm fun t =>
     { t with revert := true, cands := [(3, { enable := true, active := true, qual := .qualified, prio := 2 }), (5, { enable := true, active := true, qual := .qualified, prio := 1 })] };
   s.tm.revert = true ∧ 3 < 8 ∧ (s.tm.cand 3).eligible = true) :=
  ⟨by decide, by decide⟩

/-- States and operands that meet the hypotheses of `Obligations.WindowStores`, clause by clause. -/
theorem test_WindowStores_met :
  (let f : Flight := { cmd 0x1800 32 0 0x15800008 16 0x0102030405060708 with phase := .running };
   let s : State := holding ({up with mem := [(0x15800007, 9), (0x1580000A, 9), (0x15800018, 8)] }) f;
   List.find? (fun f => decide (f.id = 5) && decide (f.phase = Phase.running) && (decide (f.desc.opcode = 6144) ||
     decide (f.desc.opcode = 6145) || decide (f.desc.opcode = 6146) || decide (f.desc.opcode = 6147))) s.flights =
     some f ∧ f.desc.opcode = 6144 ∧ f.desc.len % 8 = 0) ∧
  (let f : Flight := { cmd 0x1802 32 5 0x15800008 5 with phase := .running };
   let s : State := holding
     ({up with copyIns := [(5, [1,2,3,4,5])], mem := [(0x15800007, 9), (0x1580000A, 9), (0x15800018, 8)] }) f;
   let bs : List Byte := [1,2,3,4,5];
   List.find? (fun f => decide (f.id = 5) && decide (f.phase = Phase.running) && (decide (f.desc.opcode = 6144) ||
     decide (f.desc.opcode = 6145) || decide (f.desc.opcode = 6146) || decide (f.desc.opcode = 6147))) s.flights =
     some f ∧ f.desc.opcode = 6146 ∧ Sparse.get [] s.copyIns f.id = bs) ∧
  (let f : Flight := { cmd 0x1801 32 0 0 8 with phase := .running };
   let s : State := holding up f;
   List.find? (fun f => decide (f.id = 5) && decide (f.phase = Phase.running) && (decide (f.desc.opcode = 6144) ||
     decide (f.desc.opcode = 6145) || decide (f.desc.opcode = 6146) || decide (f.desc.opcode = 6147))) s.flights =
     some f ∧ (f.desc.opcode = 6145 ∨ f.desc.opcode = 6147)) ∧
  (let f : Flight := { cmd 0x1803 32 8 0x15800008 8 with phase := .running };
   let s : State := holding up f;
   List.find? (fun f => decide (f.id = 5) && decide (f.phase = Phase.running) && (decide (f.desc.opcode = 6144) ||
     decide (f.desc.opcode = 6145) || decide (f.desc.opcode = 6146) || decide (f.desc.opcode = 6147))) s.flights =
     some f ∧ (f.desc.opcode = 6145 ∨ f.desc.opcode = 6147)) ∧
  (let f : Flight := { cmd 0x1800 32 0 0x15800008 16 0x0102030405060708 with phase := .running };
   let s : State := holding ({up with mem := [(0x15800007, 9), (0x1580000A, 9), (0x15800018, 8)] }) f;
   List.find? (fun f => decide (f.id = 5) && decide (f.phase = Phase.running) && (decide (f.desc.opcode = 6144) ||
     decide (f.desc.opcode = 6145) || decide (f.desc.opcode = 6146) || decide (f.desc.opcode = 6147))) s.flights =
     some f ∧ f.desc.opcode = 6144 ∧ f.desc.len % 8 = 0) ∧
  (let f : Flight := { cmd 0x1802 32 5 0x15800008 5 with phase := .running };
   let s : State := holding
     ({up with copyIns := [(5, [1,2,3,4,5])], mem := [(0x15800007, 9), (0x1580000A, 9), (0x15800018, 8)] }) f;
   let bs : List Byte := [1,2,3,4,5];
   List.find? (fun f => decide (f.id = 5) && decide (f.phase = Phase.running) && (decide (f.desc.opcode = 6144) ||
     decide (f.desc.opcode = 6145) || decide (f.desc.opcode = 6146) || decide (f.desc.opcode = 6147))) s.flights =
     some f ∧ f.desc.opcode = 6146 ∧ Sparse.get [] s.copyIns f.id = bs) ∧
  (let f : Flight := { cmd 0x1801 32 0 0 8 with phase := .running };
   let s : State := holding up f;
   List.find? (fun f => decide (f.id = 5) && decide (f.phase = Phase.running) && (decide (f.desc.opcode = 6144) ||
     decide (f.desc.opcode = 6145) || decide (f.desc.opcode = 6146) || decide (f.desc.opcode = 6147))) s.flights =
     some f ∧ (f.desc.opcode = 6145 ∨ f.desc.opcode = 6147)) ∧
  (let f : Flight := { cmd 0x1803 32 8 0x15800008 8 with phase := .running };
   let s : State := holding up f;
   List.find? (fun f => decide (f.id = 5) && decide (f.phase = Phase.running) && (decide (f.desc.opcode = 6144) ||
     decide (f.desc.opcode = 6145) || decide (f.desc.opcode = 6146) || decide (f.desc.opcode = 6147))) s.flights =
     some f ∧ (f.desc.opcode = 6145 ∨ f.desc.opcode = 6147)) :=
  ⟨by decide, by decide, by decide, by decide, by decide, by decide, by decide, by decide⟩

/-- States and operands that meet the hypotheses of `Obligations.HostPortComplete`, clause by clause. -/
theorem test_HostPortComplete_met :
  (let s : State := up;
   s.reach 0 = true ∧ s.sec.rcvMode = false) ∧
  (let s : State := up.onLink 0 fun l =>
     { l with arb := ({ reqs := l.arb.reqs.set 35 { base := 4, ceil := 12, waitMax := 9 } } : Arbiter) };
   s.reach 0 = true ∧ s.sec.rcvMode = false) ∧
  (let s : State := up.onSec fun x => { x with rcvMode := true };
   let v : Word := 0x8000000001000100;
   s.reach 0 = true ∧ s.sec.rcvMode = true ∧ s.sec.rcvBusy = false ∧ v.bit 63 = true) ∧
  (let s : State := up;
   s.reach 0 = true ∧ 4112 % 8 = 0) ∧
  (let s : State := up;
   s.reach 0 = true) ∧
  (let s : State := holding up (cmd 0x100 32 0);
   s.reach 0 = true) ∧
  (let s : State := up;
   s.reach 0 = true ∧ ((s.link 0).configured { asks := 34359738369, past := [], mps := 2, mrrs := 5 }).grantOver
     { asks := 34359738369, past := [], mps := 2, mrrs := 5 } = true) ∧
  (let s : State := up.onLink 0 fun l => { l with arb := { holder := some (35, 64) } };
   s.reach 0 = true ∧ ((s.link 0).configured { asks := 34359738369, past := [(true, 64)] }).grantOver
     { asks := 34359738369, past := [(true, 64)] } = true) :=
  ⟨by decide, by decide, by decide, by decide, by decide, by decide, by decide, by decide⟩

/-- States and operands that meet the hypotheses of `Obligations.RegistersReadBack`, clause by clause. -/
theorem test_RegistersReadBack_met :
  (let s : State := up;
   s.reach 0 = true ∧ s.sec.rcvMode = false) ∧
  (let s : State := up;
   s.reach 0 = true ∧ s.sec.rcvMode = false) ∧
  (let s : State := { up with rings := [] };
   s.reach 0 = true ∧ s.sec.rcvMode = false) ∧
  (let s : State := up;
   s.reach 0 = true ∧ s.sec.rcvMode = false) ∧
  (let s : State := up;
   s.reach 0 = true ∧ s.sec.rcvMode = false) ∧
  (let s : State := up;
   s.reach 0 = true ∧ s.sec.rcvMode = false ∧ s.boot.booted = true ∧ s.ringBusy 65535 = false) ∧
  (let s : State := up;
   s.reach 0 = true ∧ s.sec.rcvMode = false ∧ 4 ≠ 8) :=
  ⟨by decide, by decide, by decide, by decide, by decide, by decide, by decide⟩

/-- States and operands that meet the hypotheses of `Obligations.StartupComplete`, clause by clause. -/
theorem test_StartupComplete_met :
  (let s : State :=
     { chan0 live with boot := { powered := false }, powerHours := 8, now := 9000, mem := [(0x15800000, 4)] };
   s.boot.powered = false) ∧
  (let s : State :=
     { holding (chan0 live) (cmd 0x100 32 0) with powerHours := 8, now := 9000, mem := [(0x15800000, 4)] };
   s.boot.powered = true) ∧
  (let s : State :=
     { holding (chan0 live) (cmd 0x100 32 0) with powerHours := 8, now := 9000, mem := [(0x15800000, 4)] };
   s.boot.powered = true) ∧
  (let s : State := State.reset;
   s.boot.powered = true ∧ s.boot.booted = false ∧ s.sec.rcvMode = false ∧ s.sec.trialRule.bootSlot = some false) ∧
  (let s : State := State.reset.onSec fun x => { x with slotA := none };
   s.boot.powered = true ∧ s.boot.booted = false ∧ s.sec.rcvMode = false ∧ s.sec.trialRule.bootSlot = none) ∧
  (let s : State := State.reset.onSec fun x => { x with rcvMode := true, rcvBusy := true, rcvLen := 3 };
   let bs : List Byte := [1, 2, 3];
   s.boot.powered = true ∧ s.sec.rcvMode = true ∧ s.sec.rcvBusy = true ∧ bs.length = s.sec.rcvLen ∧ s.now ≤
     s.sec.rcvGoNs + 120000000000) ∧
  (let s : State := { up with boot := { up.boot with released := false } };
   s.boot.powered = true ∧ s.boot.booted = true ∧ s.boot.released = false) :=
  ⟨by decide, by decide, by decide, by decide, by decide, by decide, by decide⟩

/-- States and operands that meet the hypotheses of `Obligations.StartupComplete`, clause by clause. -/
theorem test_StartupComplete_met2 :
  (let s : State := chan0 live;
   s.boot.powered = true ∧ s.boot.booted = true ∧ s.boot.restarting = false) ∧
  (let s : State := { up with boot := { up.boot with running := false, restarting := true } };
   s.boot.powered = true ∧ s.boot.restarting = true ∧ s.sec.bootSlot = some false) ∧
  (let s : State := chan0 live;
   s.boot.powered = true) ∧
  (let s : State := up;
   s.boot.powered = true) ∧
  (let s : State := holding (chan0 live) (cmd 0x100 32 0);
   s.boot.powered = true ∧ s.linkPresent 0 = true ∧ (s.link 0).perst = false) ∧
  (let s : State := up.onLink 0 fun l => { l with perst := true };
   s.boot.powered = true ∧ s.linkPresent 0 = true ∧ (s.link 0).perst = true) ∧
  (let s : State := { up with links := [] };
   s.boot.powered = true ∧ s.linkPresent 0 = true ∧ (s.link 0).perst = false ∧ (s.link 0).trained = false ∧
     s.boot.released = true ∧ s.trains 0 3 16 = true) :=
  ⟨by decide, by decide, by decide, by decide, by decide, by decide, by decide⟩

/-- States and operands that meet the hypotheses of `Obligations.StartupComplete`, clause by clause. -/
theorem test_StartupComplete_met3 :
  (let s : State := { up with links := [] };
   s.boot.powered = true ∧ s.linkPresent 0 = true ∧ (s.link 0).perst = false ∧ (s.link 0).trained = false ∧
     s.boot.released = true ∧ s.trains 0 1 1 = true) ∧
  (let s : State := holding (chan0 live) (cmd 0x100 32 0);
   s.boot.powered = true ∧ (s.link 0).trained = true ∧ (s.link 0).recovery = false) ∧
  (let s : State := holding (chan0 live) (cmd 0x100 32 0);
   s.boot.powered = true ∧ (s.link 0).trained = true ∧ (s.link 0).recovery = false) ∧
  (let s : State := (holding (chan0 live) (cmd 0x100 32 0)).onLink 0 fun l =>
     { l with recovery := true, exceeded := true };
   s.boot.powered = true ∧ (s.link 0).trained = true ∧ (s.link 0).recovery = true ∧ (s.link 0).down = false) ∧
  (let s : State := (holding (chan0 live) (cmd 0x100 32 0)).onLink 0 fun l =>
     { l with recovery := true, exceeded := true, down := true };
   s.boot.powered = true ∧ (s.link 0).trained = true ∧ (s.link 0).recovery = true ∧ ((s.link 0).down = true → s.trains
     0 1 1 = true)) ∧
  (let s : State := (holding (chan0 live) (cmd 0x100 32 0)).onLink 0 fun l =>
     { l with recovery := true, exceeded := true };
   s.boot.powered = true ∧ (s.link 0).trained = true ∧ (s.link 0).recovery = true ∧ ((s.link 0).down = true → s.trains
     0 1 1 = true)) ∧
  (let s : State := (holding (chan0 live) (cmd 0x100 32 0)).onLink 0 fun l =>
     { l with recovery := true, downLimit := 1, recoveryFrom := 77 };
   s.boot.powered = true ∧ (s.link 0).recovery = true ∧ (s.link 0).exceeded = false) :=
  ⟨by decide, by decide, by decide, by decide, by decide, by decide, by decide⟩

/-- States and operands that meet the hypotheses of `Obligations.PartitionCommandsComplete`, clause by clause. -/
theorem test_PartitionCommandsComplete_met :
  (let f : Flight := cmd 0x200 32 64;
   let s : State := holding up f;
   s.Started 5 512 f) ∧
  (let f : Flight := cmd 0x201 32 64;
   let s : State := holding (up.onSec fun x =>
     { x with ledger := x.ledger ++ [{ typ := 2, seq := 1, link := 0, primary := 0, powerH := 3, w1 := 0, w2 := 1, w3 := 2 }] })
     f;
   s.Started 5 513 f ∧ 1 = min (s.entriesOf 2).length (f.desc.bufLen / 32)) ∧
  (let f : Flight := cmd 0x210 32 64;
   let s : State := holding ({up with boot := { up.boot with cfgSplit := 0}}) f;
   let ws : List Word := ({ up.part with primary := 1, entries := [(0, { owner := 1 })] } : Partition).words;
   s.Started 5 528 f ∧ s.partRefusal f ws = 0) ∧
  (let f : Flight := { cmd 0x210 32 64 with phase := .running };
   let s : State := holding ((chan0 { live with tribs := [(0, { state := .carrying })] }).onSec fun x =>
     { x with ledgerWrites := [.partition 5 { seq := 1, primary := 1}] }) f;
   let p : Partition := { seq := 1, primary := 1};
   s.boot.powered = true ∧ List.find? (fun w => decide (w.id = 5)) s.sec.ledgerWrites = some (LedgerWrite.partition 5
     p) ∧ s.flight? 5 = some f) ∧
  (let f : Flight := { cmd 0x1A13 32 64 with phase := .running };
   let s : State := holding (up.onSec fun x =>
     { x with slotB := some { version := 1, svn := 0, meas := [] }, slotA := some { version := 1, svn := 1, meas := [] },  ledgerWrites := [.floor 5 1] })
     f;
   s.boot.powered = true ∧ List.find? (fun w => decide (w.id = 5)) s.sec.ledgerWrites = some (LedgerWrite.floor 5 1) ∧
     s.flight? 5 = some f ∧ s.sec.floor < 1) :=
  ⟨by decide, by decide, by decide, by decide, by decide⟩

/-- States and operands that meet the hypotheses of `Obligations.SecurityComplete`, clause by clause. -/
theorem test_SecurityComplete_met :
  (let f : Flight := cmd 0x1A00 32 4096;
   let s : State := holding up f;
   s.Started 5 6656 f) ∧
  (let f : Flight := cmd 0x1A01 32 352;
   let s : State := holding up f;
   s.Started 5 6657 f) ∧
  (let f : Flight := cmd 0x1A02 32 32;
   let s : State := holding up f;
   s.Started 5 6658 f ∧ 1 = min s.sec.ledger.length (f.desc.bufLen / 32)) ∧
  (let f : Flight := cmd 0x1A03 32 32;
   let s : State := holding up f;
   s.Started 5 6659 f) ∧
  (let f : Flight := cmd 0x1A04 32 16;
   let s : State := holding up f;
   s.Started 5 6660 f) :=
  ⟨by decide, by decide, by decide, by decide, by decide⟩

/-- States and operands that meet the hypotheses of `Obligations.SecurityComplete`, clause by clause. -/
theorem test_SecurityComplete_met2 :
  (let f : Flight := cmd 0x1A10 32 3;
   let s : State := holding up f;
   s.Started 5 6672 f) ∧
  (let i : Image := { version := 5, svn := 1, meas := [] };
   let f : Flight := cmd 0x1A11 32 0;
   let s : State := holding (up.onSec fun x => { x with slotB := some i }) f;
   s.Started 5 6673 f ∧ s.sec.standby = some i ∧ s.sec.trial = false ∧ s.allDark = true) ∧
  (let f : Flight := cmd 0x1A12 32 0;
   let s : State := holding (up.onSec fun x => { x with trial := true }) f;
   s.Started 5 6674 f ∧ s.sec.trial = true) ∧
  (let f : Flight := cmd 0x1A13 32 0 1;
   let s : State := holding (up.onSec fun x => { x with slotA := some { version := 5, svn := 1, meas := [] } }) f;
   s.Started 5 6675 f ∧ s.sec.floorRefusal (f.desc.p0.bits 6 0) = 0) ∧
  (let f : Flight := cmd 0x1A14 32 64;
   let s : State := holding (up.onSec fun x => { x with drbg := true, tested := true, reseedDue := 1000000000 }) f;
   let bs : List Byte := beBytes 32 0x6B17D1F2E12C4247F8BCE6E563A440F277037D812DEB33A0F4A13945D898C296 ++ beBytes 32
     0x4FE342E2FE1A7F9B8EE7EB4A7C0F9E162BCE33576B315ECECBB6406837BF51F5;
   s.Started 5 6676 f ∧ 64 ≤ bs.length ∧ s.canDraw = true ∧ Crypto.onCurve (beNat (List.take 32 bs)) (beNat (List.drop
     32 (List.take 64 bs))) = true) ∧
  (let f : Flight := { cmd 0x1A10 32 3 with phase := .running };
   let s : State := holding (up.onSec fun x => { x with imageWrites := [(5, [1, 2, 3])] }) f;
   let bs : List Byte := [1, 2, 3];
   s.boot.powered = true ∧ List.find? (fun q => decide (q.fst = 5)) s.sec.imageWrites = some (5, bs)) :=
  ⟨by decide, by decide, by decide, by decide, by decide, by decide⟩

/-- States and operands that meet the hypotheses of `Obligations.SecurityComplete`, clause by clause. -/
theorem test_SecurityComplete_met3 :
  (let s : State := up;
   let raw : List Bool := List.replicate 41 true;
   s.boot.powered = true ∧ s.sec.failing = false ∧ healthFailure raw = some true) ∧
  (let s : State := up.onSec fun x => { x with failing := true };
   let raw : List Bool := [true, false];
   s.boot.powered = true ∧ s.sec.failing = true ∧ healthFailure raw = none) ∧
  (let s : State := up.onSec fun x => { x with failing := true };
   let raw : List Bool := List.replicate 41 true;
   s.boot.powered = true ∧ s.sec.failing = true ∧ healthFailure raw = some true) ∧
  (let s : State := up;
   let raw : List Bool := [true, false];
   s.boot.powered = true ∧ s.sec.failing = false ∧ s.sec.tested = false ∧ healthFailure raw = none) ∧
  (let s : State := up.onSec fun x => { x with tested := true };
   s.boot.powered = true ∧ s.sec.tested = true ∧ s.sec.failing = false) ∧
  (let s : State := up.onSec fun x => { x with tested := true, failing := true };
   s.boot.powered = true ∧ s.sec.tested = true ∧ s.sec.failing = true) :=
  ⟨by decide, by decide, by decide, by decide, by decide, by decide⟩

/-- States and operands that meet the hypotheses of `Obligations.TributaryCommandsComplete`, clause by clause. -/
theorem test_TributaryCommandsComplete_met :
  (let i : Nat := 1;
   let f : Flight := cmd 0x1000 0 64 1;
   let s : State := holding (chan0
     ({ live with tribs := [(0, { state := .carrying }), (1, { state := .free, nomRate := 1000000, txBound := 0, rxBound := 0 })] }))
     f;
   let ws : List Word := [mkWord [(0,12,1),(16,2,0),(24,8,255),(32,32,1000000)], mkWord [(16,10,100)], 0,0,0,0,0,0];
   let x : Trib := Trib.ofWords ws;
   f.desc.tribIndex = some i ∧ s.Started 5 4096 f ∧ x = Trib.ofWords ws ∧ tribClear ws = true ∧ (wd ws 0).bits 11 0 =
     i ∧ s.fieldsOk (i / 96) x = true ∧ (s.trib i).state = TribState.free ∧ withinBounds (s.stated i x).fst (s.stated
     i x).snd x = true) ∧
  (let i : Nat := 1;
   let f : Flight := cmd 0x1001 0 64 1;
   let s : State := holding (chan0
     ({ live with tribs := [(0, { state := .carrying }), (1, { state := .carrying, nomRate := 1000000, txBound := 0, rxBound := 0 })] }))
     f;
   let ws : List Word := [mkWord [(0,12,1),(16,2,0),(24,8,255),(32,32,1000000)], mkWord [(16,10,100)], 0,0,0,0,0,0];
   let x : Trib := Trib.ofWords ws;
   f.desc.tribIndex = some i ∧ s.Started 5 4097 f ∧ x = Trib.ofWords ws ∧ (s.trib i).state ≠ TribState.free ∧
     tribClear ws = true ∧ (wd ws 0).bits 11 0 = i ∧ x.tolPpm ≤ 1000 ∧ x.keeps (s.trib i) = true ∧ s.bankPending (i /
     96) = false ∧ (0 < s.slotCountOf i false → rateFits x.nomRate x.tolPpm (s.slotCountOf i false) x.fixedStuff =
     true) ∧ withinBounds (s.trib i).txLat (s.trib i).rxLat x = true) ∧
  (let i : Nat := 1;
   let f : Flight := cmd 0x1002 0 0 1 1;
   let s : State := holding (chan0
     ({ live with tribs := [(0, { state := .carrying }), (1, { state := .disabled, nomRate := 1000000, txBound := 0, rxBound := 0 })] }))
     f;
   f.desc.tribIndex = some i ∧ s.Started 5 4098 f ∧ f.desc.p1.bit 0 = true ∧ (s.trib i).state = TribState.disabled) ∧
  (let i : Nat := 1;
   let f : Flight := cmd 0x1002 0 0 1 1;
   let s : State := holding (chan0
     ({ live with tribs := [(0, { state := .carrying }), (1, { state := .carrying, nomRate := 1000000, txBound := 0, rxBound := 0 })] }))
     f;
   f.desc.tribIndex = some i ∧ s.Started 5 4098 f ∧ f.desc.p1.bit 0 = true ∧ ((s.trib i).state = TribState.carrying ∨
     (s.trib i).state = TribState.failed)) ∧
  (let i : Nat := 1;
   let f : Flight := cmd 0x1002 0 0 1 1;
   let s : State := holding (chan0
     ({ live with tribs := [(0, { state := .carrying }), (1, { state := .failed, nomRate := 1000000, txBound := 0, rxBound := 0 })] }))
     f;
   f.desc.tribIndex = some i ∧ s.Started 5 4098 f ∧ f.desc.p1.bit 0 = true ∧ ((s.trib i).state = TribState.carrying ∨
     (s.trib i).state = TribState.failed)) ∧
  (let i : Nat := 1;
   let f : Flight := cmd 0x1002 0 0 1 0;
   let s : State := holding ((chan0
     ({ live with tribs := [(0, { state := .carrying }), (1, { state := .carrying, nomRate := 1000000, txBound := 0, rxBound := 0 })] })).onChan
     0 fun ch => { ch with tf := { sending := true } }) f;
   f.desc.tribIndex = some i ∧ s.Started 5 4098 f ∧ f.desc.p1.bit 0 = false ∧ ((s.trib i).state = TribState.carrying ∨
     (s.trib i).state = TribState.failed) ∧ (s.chan (i / 96)).tf.sending = true) ∧
  (let i : Nat := 1;
   let f : Flight := cmd 0x1002 0 0 1 0;
   let s : State := holding ((chan0
     ({ live with tribs := [(0, { state := .carrying }), (1, { state := .carrying, nomRate := 1000000, txBound := 0, rxBound := 0 })] })).onChan
     0 fun ch => { ch with tf := { sending := false } }) f;
   f.desc.tribIndex = some i ∧ s.Started 5 4098 f ∧ f.desc.p1.bit 0 = false ∧ ((s.trib i).state = TribState.carrying ∨
     (s.trib i).state = TribState.failed) ∧ (s.chan (i / 96)).tf.sending = false) :=
  ⟨by decide, by decide, by decide, by decide, by decide, by decide, by decide⟩

/-- States and operands that meet the hypotheses of `Obligations.TributaryCommandsComplete`, clause by clause. -/
theorem test_TributaryCommandsComplete_met2 :
  (let i : Nat := 1;
   let f : Flight := cmd 0x1002 0 0 1 0;
   let s : State := holding ((chan0
     ({ live with tribs := [(0, { state := .carrying }), (1, { state := .failed, nomRate := 1000000, txBound := 0, rxBound := 0 })] })).onChan
     0 fun ch => { ch with tf := { sending := true } }) f;
   f.desc.tribIndex = some i ∧ s.Started 5 4098 f ∧ f.desc.p1.bit 0 = false ∧ ((s.trib i).state = TribState.carrying ∨
     (s.trib i).state = TribState.failed) ∧ (s.chan (i / 96)).tf.sending = true) ∧
  (let i : Nat := 1;
   let f : Flight := cmd 0x1002 0 0 1 0;
   let s : State := holding ((chan0
     ({ live with tribs := [(0, { state := .carrying }), (1, { state := .failed, nomRate := 1000000, txBound := 0, rxBound := 0 })] })).onChan
     0 fun ch => { ch with tf := { sending := false } }) f;
   f.desc.tribIndex = some i ∧ s.Started 5 4098 f ∧ f.desc.p1.bit 0 = false ∧ ((s.trib i).state = TribState.carrying ∨
     (s.trib i).state = TribState.failed) ∧ (s.chan (i / 96)).tf.sending = false) ∧
  (let i : Nat := 1;
   let f : Flight := cmd 0x1003 0 0 1;
   let s : State := holding (chan0
     ({ live with tribs := [(0, { state := .carrying }), (1, { state := .ready, nomRate := 1000000, txBound := 0, rxBound := 0 })] }))
     f;
   f.desc.tribIndex = some i ∧ s.Started 5 4099 f ∧ s.named i = false) ∧
  (let i : Nat := 1;
   let f : Flight := cmd 0x1004 0 64 1;
   let s : State := holding (chan0
     ({ live with tribs := [(0, { state := .carrying }), (1, { state := .ready, nomRate := 1000000, txBound := 0, rxBound := 0 })] }))
     f;
   f.desc.tribIndex = some i ∧ s.Started 5 4100 f) ∧
  (let i : Nat := 1;
   let f : Flight := cmd 0x1005 0 64 1;
   let s : State := holding (chan0
     ({ live with tribs := [(0, { state := .carrying }), (1, { state := .ready, nomRate := 1000000, txBound := 0, rxBound := 0 })] }))
     f;
   f.desc.tribIndex = some i ∧ s.Started 5 4101 f) ∧
  (let i : Nat := 1;
   let f : Flight := cmd 0x1006 0 256 1;
   let s : State := holding (chan0
     ({ live with tribs := [(0, { state := .carrying }), (1, { state := .ready, nomRate := 1000000, txBound := 0, rxBound := 0 })] }))
     f;
   let bs : List Byte := ([0, 0xFFFF] : List Nat).flatMap (leBytes 2);
   f.desc.tribIndex = some i ∧ s.Started 5 4102 f ∧ bs = List.flatMap (leBytes 2) (List.map (fun x => 96 *
     f.desc.target + x) (s.chan f.desc.target).shedOrder ++ [65535]) ∧ bs.length ≤ f.desc.bufLen) ∧
  (let i : Nat := 1;
   let f : Flight := cmd 0x1006 0 8 1;
   let s : State := holding (chan0 ({ live with tribs := (List.range 4).map fun i => (i, { state := .carrying }) }))
     f;
   let bs : List Byte := ([3, 2, 1, 0, 0xFFFF] : List Nat).flatMap (leBytes 2);
   f.desc.tribIndex = some i ∧ s.Started 5 4102 f ∧ bs = List.flatMap (leBytes 2) (List.map (fun x => 96 *
     f.desc.target + x) (s.chan f.desc.target).shedOrder ++ [65535]) ∧ f.desc.bufLen < bs.length) :=
  ⟨by decide, by decide, by decide, by decide, by decide, by decide, by decide⟩

/-- States and operands that meet the hypotheses of `Obligations.PromiseAndFailure`, clause by clause. -/
theorem test_PromiseAndFailure_met :
  (let f : Flight := cmd 0x1010 0 32 1;
   let s : State := holding (chan0
     ({ live with tribs := [(0, { state := .carrying }), (1, { state := .carrying, nomRate := 1000000, txBound := 0, rxBound := 0 })] }))
     f;
   s.Started 5 4112 f ∧ f.desc.tribIndex = some 1) ∧
  (let f : Flight := cmd 0x1011 0 192 2;
   let s : State := holding (chan0
     ({ live with tribs := [(0, { state := .carrying }), (1, { state := .carrying, nomRate := 1000000, txBound := 0, rxBound := 0 })] }))
     f;
   let ws : List Word := [0x10000];
   s.Started 5 4113 f ∧ f.desc.p0.bit 8 = false ∧ s.releaseOk f.desc ws = true) ∧
  (let f : Flight := cmd 0x1011 0 192 0x102;
   let s : State := holding (chan0
     ({ live with tribs := [(0, { state := .carrying }), (1, { state := .carrying, nomRate := 1000000, txBound := 0, rxBound := 0 })] }))
     f;
   let ws : List Word := [0x10000];
   s.Started 5 4113 f ∧ f.desc.p0.bit 8 = true ∧ s.releaseOk f.desc ws = true) ∧
  (let s : State := (chan0
     ({ live with tribs := [(0, { state := .carrying }), (1, { state := .carrying, nomRate := 1000000, txBound := 0, rxBound := 0 })] })).onChan
     0 fun ch => { ch with tf := { ch.tf with latencyMf := 1024 } };
   s.boot.powered = true ∧ (s.chan 0).tf.sending = true ∧ ((s.chan 0).tf.latencyDue = true ∨ 1024 ≤ (s.chan
     0).tf.latencyMf)) ∧
  (let s : State := (chan0
     ({ live with tribs := [(0, { state := .carrying }), (1, { state := .carrying, nomRate := 1000000, txBound := 0, rxBound := 0 })] })).onTrib
     1 fun t => { t with slipRun := 4 };
   s.boot.powered = true ∧ (s.trib 1).state = TribState.carrying ∧ (4 ≤ (s.trib 1).failRun ∨ 4 ≤ (s.trib 1).slipRun)) ∧
  (let s : State := (chan0
     ({ live with tribs := [(0, { state := .carrying }), (1, { state := .carrying, nomRate := 1000000, txBound := 0, rxBound := 0 })] })).onTrib
     1 fun t => { t with failRun := 4 };
   s.boot.powered = true ∧ (s.trib 1).state = TribState.carrying ∧ (4 ≤ (s.trib 1).failRun ∨ 4 ≤ (s.trib 1).slipRun)) ∧
  (let s : State := (chan0
     ({ live with tribs := [(0, { state := .carrying }), (1, { state := .carrying, nomRate := 1000000, txBound := 0, rxBound := 0 })] })).onTrib
     1 fun t => { t with state := .failed, cause := 5, cleanRun := 4 };
   s.boot.powered = true ∧ (s.trib 1).state = TribState.failed ∧ (s.trib 1).stuck = false ∧ (4 ≤ if (s.trib 1).cause =
     5 then (s.trib 1).cleanRun else (s.trib 1).passRun)) ∧
  (let s : State := (chan0
     ({ live with tribs := [(0, { state := .carrying }), (1, { state := .carrying, nomRate := 1000000, txBound := 0, rxBound := 0 })] })).onTrib
     1 fun t => { t with state := .failed, cause := 1, passRun := 4 };
   s.boot.powered = true ∧ (s.trib 1).state = TribState.failed ∧ (s.trib 1).stuck = false ∧ (4 ≤ if (s.trib 1).cause =
     5 then (s.trib 1).cleanRun else (s.trib 1).passRun)) :=
  ⟨by decide, by decide, by decide, by decide, by decide, by decide, by decide, by decide⟩

/-- States and operands that meet the hypotheses of `Obligations.SlotTableCommandsComplete`, clause by clause. -/
theorem test_SlotTableCommandsComplete_met :
  (let first : Nat := 1597;
   let n : Nat := 3;
   let b : Bool := true;
   let f : Flight := cmd 0x1100 0 8 0x10003063D;
   let s : State := holding (chan0
     ({ live with tribs := [(0, { state := .carrying }), (1, { state := .carrying, nomRate := 1000000, txBound := 0, rxBound := 0 })] }))
     f;
   let ws : List Word := [0x000300021FFF0000];
   f.desc.slotRange = (first, n, b) ∧ s.Started 5 4352 f ∧ s.rangeOk f.desc = true ∧ (∀ (k : Nat), k < n → half ws k <
     8192) ∧ (f.desc.target < 32 → s.groupOf f.desc.target = none) ∧ (f.desc.target = 32 → f.rightsTo (rangeChans
     first n) = true) ∧ (∀ c ∈ rangeChans first n, s.bankWritable c b = true ∧ s.slotsLocked c = false) ∧ (∀ (c :
     Nat), Sparse.rising 0 ((s.chan c).sl.bank b) = true)) ∧
  (let first : Nat := 1597;
   let n : Nat := 3;
   let b : Bool := true;
   let f : Flight := cmd 0x1101 0 8 0x10003063D;
   let s : State := holding (chan0
     ({ live with tribs := [(0, { state := .carrying }), (1, { state := .carrying, nomRate := 1000000, txBound := 0, rxBound := 0 })] }))
     f;
   f.desc.slotRange = (first, n, b) ∧ s.Started 5 4353 f ∧ s.rangeOk f.desc = true ∧ (f.desc.target = 32 → f.rightsTo
     (rangeChans first n) = true)) ∧
  (let first : Nat := 0;
   let n : Nat := 0;
   let b : Bool := false;
   let f : Flight := cmd 0x1102 0 0;
   let s : State := holding (chan0 { live with sl := { bankA := [(5, 1)], bankB := [(6, 0)] } }) f;
   f.desc.slotRange = (first, n, b) ∧ s.Started 5 4354 f ∧ s.slotsLocked f.desc.target = false) :=
  ⟨⟨by decide, by decide, by decide, by decide, by decide, by decide, by decide, fun c => get_of (P := fun x : Channel
    => Sparse.rising 0 (x.sl.bank true) = true) (by decide) (by decide) c⟩, by decide, by decide⟩

/-- States and operands that meet the hypotheses of `Obligations.SwitchesAndGroupsComplete`, clause by clause. -/
theorem test_SwitchesAndGroupsComplete_met :
  (let f : Flight := cmd 0x1110 0 0 40;
   let s : State := holding (chan0
     ({ live with tribs := [(0, { state := .carrying }), (1, { state := .carrying, nomRate := 1000000, txBound := 0, rxBound := 0 })] }))
     f;
   s.switchAnchor f.desc = some 0 ∧ s.Started 5 4368 f ∧ f.desc.bankLead = some 40 ∧ (s.chan 0).pm.mode ≠ P2Mode.leaf
     ∧ (f.desc.switchGroup.isSome = true → f.rightsTo (s.switchers 0 f.desc.switchGroup) = true) ∧ (∀ m ∈ s.switchers
     0 f.desc.switchGroup, s.switchBusy m = false) ∧ s.standbyStatus (s.switchers 0 f.desc.switchGroup) = 0) ∧
  (let crc : Word := BitVec.ofNat 64 ((chan0
     ({ live with tribs := [(0, { state := .carrying }), (1, { state := .carrying, nomRate := 1000000, txBound := 0, rxBound := 0 })] })).standbyCrc
     [0]).toNat;
   let f : Flight := cmd 0x1111 0 0 1 crc;
   let s : State := holding (chan0
     ({ live with tribs := [(0, { state := .carrying }), (1, { state := .carrying, nomRate := 1000000, txBound := 0, rxBound := 0 })] }))
     f;
   s.switchAnchor f.desc = some 0 ∧ s.Started 5 4369 f ∧ f.desc.p0.bit 0 = true ∧ (f.desc.switchGroup.isSome = true →
     f.rightsTo (s.switchers 0 f.desc.switchGroup) = true) ∧ (∀ m ∈ s.switchers 0 f.desc.switchGroup, s.switchBusy m =
     false) ∧ s.standbyStatus (s.switchers 0 f.desc.switchGroup) = 0 ∧ BitVec.ofNat 32 (f.desc.p1.bits 31 0) =
     s.standbyCrc (s.switchers 0 f.desc.switchGroup)) ∧
  (let f : Flight := cmd 0x1111 0 0 0;
   let s : State := holding (chan0 { live with sl := { armed := some 3 } }) f;
   s.switchAnchor f.desc = some 0 ∧ s.Started 5 4369 f ∧ f.desc.p0.bit 0 = false ∧ (f.desc.switchGroup.isSome = true →
     f.rightsTo (s.switchers 0 f.desc.switchGroup) = true) ∧ (s.chan 0).sl.agreement = none) ∧
  (let f : Flight := cmd 0x1112 0 32;
   let s : State := holding (chan0 { live with sl := { armed := some 3 } }) f;
   s.switchAnchor f.desc = some 0 ∧ s.Started 5 4370 f) ∧
  (let f : Flight := cmd 0x1120 32 0 7 0x80000001 20000;
   let s : State := holding ((chan0 live).setChan 31 live) f;
   let m : BitVec 32 := 0x80000001;
   7 = f.desc.p0.bits 2 0 ∧ s.Started 5 4384 f ∧ m = BitVec.ofNat 32 (f.desc.p1.bits 31 0) ∧ (s.group 7).members = 0 ∧
     2 ≤ (membersOf m).length ∧ (membersOf m).length ≤ 8 ∧ f.desc.p2.bits 14 0 ≤ 20000 ∧ (∀ c ∈ membersOf m, s.groupOf
     c = none ∧ (s.chan c).pm.mode = P2Mode.pointToPoint ∧ (s.chan c).bu.timing = 0 ∧ (s.chan c).usedEntry = false) ∧
     f.rightsTo (membersOf m) = true ∧ (f.desc.p2.bits 14 0 ≠ 0 → ∀ (a : Nat), anchorOf m = some a → s.groupPromise a
     7 = false)) ∧
  (let f : Flight := cmd 0x1121 32 0 7;
   let s : State := holding
     ({ (chan0 live).setChan 31 live with groups := [(3, {}), (7, { members := 0x80000001, budget := 20000 })] }) f;
   7 = f.desc.p0.bits 2 0 ∧ s.Started 5 4385 f ∧ (s.group 7).members ≠ 0 ∧ f.rightsTo (membersOf (s.group 7).members)
     = true ∧ s.groupNamed 7 = false ∧ ((s.group 7).budget ≠ 0 → s.groupPromise ((anchorOf (s.group 7).members).getD
     0) 7 = false) ∧ Sparse.rising 0 s.groups = true) ∧
  (let f : Flight := cmd 0x1122 32 64 7;
   let s : State := holding
     ({ (chan0 live).setChan 31 live with groups := [(3, {}), (7, { members := 0x80000001, budget := 20000 })] }) f;
   7 = f.desc.p0.bits 2 0 ∧ s.Started 5 4386 f ∧ f.rightsTo (membersOf (s.group 7).members) = true) ∧
  (let f : Flight := cmd 0x1123 32 64 7;
   let s : State := holding
     (({ (chan0 live).setChan 31 live with groups := [(3, {}), (7, { members := 0x80000001, budget := 20000, marked := 1 })] }).onChan
     0 fun ch => { ch with rf := { state := .inFrame } }) f;
   7 = f.desc.p0.bits 2 0 ∧ 0 ∈ membersOf (s.group 7).members ∧ s.Started 5 4387 f ∧ (s.chan 0).rf.state =
     AlignState.inFrame ∧ (s.group 7).marked.getLsbD 0 = true ∧ f.rightsTo (membersOf (s.group 7).members) = true) :=
  ⟨by decide, ⟨by decide, rfl, by decide, by decide, by decide, by decide, switch_crc _ _ _ rfl⟩, by decide, by
    decide, by decide, by decide, by decide, by decide⟩

/-- States and operands that meet the hypotheses of `Obligations.MemoryComplete`, clause by clause. -/
theorem test_MemoryComplete_met :
  (let f : Flight := cmd 0x1800 32 0 0x15800008 16 3;
   let s : State := holding up f;
   s.Started 5 6144 f ∧ f.desc.addr % 8 = 0 ∧ f.desc.len % 8 = 0 ∧ windowStatus f.link f.desc.addr f.desc.len = 0) ∧
  (let f : Flight := cmd 0x1801 31 0 0x13600000 0xA00000 3;
   let s : State := holding up f;
   s.Started 5 6145 f ∧ f.desc.addr % 8 = 0 ∧ f.desc.len % 8 = 0 ∧ f.desc.len ≠ 0 ∧ inside f.desc.addr f.desc.len
     (sramBase f.desc.target) (sramSize f.desc.target) = true ∧ (f.desc.target < 32 ∨ f.primary = true ∨ windowStatus
     f.link f.desc.addr f.desc.len = 0)) ∧
  (let f : Flight := cmd 0x1801 32 0 0x15800008 16 3;
   let s : State := holding up f;
   s.Started 5 6145 f ∧ f.desc.addr % 8 = 0 ∧ f.desc.len % 8 = 0 ∧ f.desc.len ≠ 0 ∧ inside f.desc.addr f.desc.len
     (sramBase f.desc.target) (sramSize f.desc.target) = true ∧ (f.desc.target < 32 ∨ f.primary = true ∨ windowStatus
     f.link f.desc.addr f.desc.len = 0)) ∧
  (let f : Flight := cmd 0x1802 32 5 0x15DFFFFB 5;
   let s : State := holding up f;
   s.Started 5 6146 f ∧ f.desc.len ≤ 1048576 ∧ windowStatus f.link f.desc.addr f.desc.len = 0) ∧
  (let f : Flight := cmd 0x1803 32 5 0x15800000 5;
   let s : State := holding up f;
   s.Started 5 6147 f ∧ f.desc.len ≤ 1048576 ∧ windowStatus f.link f.desc.addr f.desc.len = 0) ∧
  (let f : Flight := cmd 0x1810 32 0 86400;
   let s : State := holding up f;
   s.Started 5 6160 f ∧ 1 ≤ f.desc.p0.bits 16 0 ∧ f.desc.p0.bits 16 0 ≤ 86400) ∧
  (let f : Flight := cmd 0x1811 32 64;
   let s : State := holding up f;
   s.Started 5 6161 f) :=
  ⟨by decide, by decide, by decide, by decide, by decide, by decide, by decide⟩

/-- States and operands that meet the hypotheses of `Obligations.MemoryComplete`, clause by clause. -/
theorem test_MemoryComplete_met2 :
  (let f : Flight := cmd 0x1812 32 16;
   let s : State := holding (up.setSram 32
     { reef := [{ addr := 64, bit := 3, uncorr := false, retired := false, code := false, count := 2, first := 1, last := 2 }, { addr := 64, bit := 3, uncorr := false, retired := false, code := false, count := 2, first := 1, last := 2 }] })
     f;
   let es : List Reef :=
     [{ addr := 64, bit := 3, uncorr := false, retired := false, code := false, count := 2, first := 1, last := 2 }];
   s.Started 5 6162 f ∧ es = List.take (f.desc.bufLen / 16) (s.sram f.desc.target).reef) ∧
  (let f : Flight := cmd 0x1821 32 16;
   let s : State := holding { up with retireList := [(4096, false, 9)] } f;
   let bs : List Byte := wordsBytes [4096, 9];
   s.Started 5 6177 f ∧ bs = wordsBytes (List.flatMap (fun e => [mkWord [(0, 32, e.fst), (32, 1, bitOf e.snd.fst)],
     mkWord [(0, 24, e.snd.snd)]]) s.retireList) ∧ bs.length ≤ f.desc.bufLen) ∧
  (let f : Flight := cmd 0x1821 32 8;
   let s : State := holding { up with retireList := [(4096, false, 9)] } f;
   let bs : List Byte := wordsBytes [4096, 9];
   s.Started 5 6177 f ∧ bs = wordsBytes (List.flatMap (fun e => [mkWord [(0, 32, e.fst), (32, 1, bitOf e.snd.fst)],
     mkWord [(0, 24, e.snd.snd)]]) s.retireList) ∧ f.desc.bufLen < bs.length) ∧
  (let f : Flight := cmd 0x1820 32 0 0x14001000 0;
   let s : State := holding up f;
   let u : Unit_ := { addr := 0x14001000, bank := false };
   s.Started 5 6176 f ∧ 32 = f.desc.target ∧ u = { addr := f.desc.addr, bank := f.desc.p1.bit 0 } ∧ ((u.addr % if
     u.bank = true then 262144 else 4096) = 0) ∧ (inside u.addr (if u.bank = true then 262144 else 4096) (sramBase 32)
     (sramSize 32) = true) ∧ (∀ v ∈ (s.sram 32).retired ++ List.map (fun x => x.snd) (s.sram 32).retiring, v ≠ u ∧
     ¬(v.bank = true ∧ v.holds u.addr = true)) ∧ ((s.sram 32).used u.bank < if u.bank = true then spareBanks 32 else
     sparePages 32)) ∧
  (let f : Flight := cmd 0x1820 3 0 0x1E40000 1;
   let s : State := holding (up.setSram 3 { retired := [{ addr := 0x1E01000, bank := false }] }) f;
   let u : Unit_ := { addr := 0x1E40000, bank := true };
   s.Started 5 6176 f ∧ 3 = f.desc.target ∧ u = { addr := f.desc.addr, bank := f.desc.p1.bit 0 } ∧ ((u.addr % if
     u.bank = true then 262144 else 4096) = 0) ∧ (inside u.addr (if u.bank = true then 262144 else 4096) (sramBase 3)
     (sramSize 3) = true) ∧ (∀ v ∈ (s.sram 3).retired ++ List.map (fun x => x.snd) (s.sram 3).retiring, v ≠ u ∧
     ¬(v.bank = true ∧ v.holds u.addr = true)) ∧ ((s.sram 3).used u.bank < if u.bank = true then spareBanks 3 else
     sparePages 3)) ∧
  (let s : State := up;
   s.scrubbing 32 = true ∧ s.scrubSkip 32 6145 (s.sram 32).pos = (s.sram 32).pos ∧ (s.sram 32).pos + 8 < sramSize 32 ∧
     (s.sram 32).flaw (sramBase 32 + (s.sram 32).pos) = Flaw.clean ∧ s.scrubSkip 32 6145 ((s.sram 32).pos + 8) <
     sramSize 32) ∧
  (let s : State := up;
   s.scrubbing 32 = true ∧ s.scrubSkip 32 6145 (s.sram 32).pos = (s.sram 32).pos ∧ (s.sram 32).pos + 8 < sramSize 32 ∧
     (s.sram 32).flaw (sramBase 32 + (s.sram 32).pos) = Flaw.clean ∧ s.scrubSkip 32 6145 ((s.sram 32).pos + 8) <
     sramSize 32) ∧
  (let u : Unit_ := { addr := 0x14001000, bank := false };
   let s : State := holding (up.setSram 32 { retiring := [(5, u), (6, { addr := 8192, bank := false })] }) (cmd 0x1820
     32 0);
   s.boot.powered = true ∧ (s.sram 32).retiring.head? = some (5, u)) :=
  ⟨by decide, by decide, by decide, by decide, by decide, by decide, by decide, by decide⟩

/-- States and operands that meet the hypotheses of `Obligations.CipherComplete`, clause by clause. -/
theorem test_CipherComplete_met :
  (let f : Flight := cmd 0x1200 0 64 1;
   let s : State := holding (chan0
     { live with tribs := [(1, { state := .carrying, cipher := true })], cx := [(1, { useLimit := 9 })] }) f;
   let ws : List Word := [mkWord [(0,12,1),(12,1,1),(13,1,1),(16,16,0xFFFF),(32,16,0xFFFE)],0,0,0,0,0,0,0];
   s.cipherIndex f = some 1 ∧ s.Started 5 4608 f ∧ (wd ws 0).bits 15 14 = 0 ∧ (wd ws 0).bits 63 48 = 0 ∧ (∀ (k : Nat),
     k < 7 → wd ws (k + 1) = 0) ∧ (wd ws 0).bits 11 0 = 1 ∧ (wd ws 0).bits 47 32 < (wd ws 0).bits 31 16 ∧ ((wd ws
     0).bit 12 = (s.cipherOf 1).endId ∨ (s.cipherOf 1).keyed = false)) ∧
  (let f : Flight := cmd 0x1201 0 64 1;
   let s : State := holding (chan0
     { live with tribs := [(1, { state := .carrying, cipher := true })], cx := [(1, { useLimit := 9 })] }) f;
   s.cipherIndex f = some 1 ∧ s.Started 5 4609 f) ∧
  (let w0 : Word := mkWord [(0,12,1),(16,24,5)];
   let f : Flight := cmd 0x1202 0 80 1;
   let s : State := (holding (chan0
     { live with tribs := [(1, { state := .carrying, cipher := true })], cx := [(1, { useLimit := 9, current := some { key := 7, epoch := 4 }, lastEpoch := 4 })] })
     f).onSec fun x => { x with kek := some 258 };
   let bs : List Byte := wrapped w0;
   let key : BitVec 256 := BitVec.ofNat 256 (Crypto.beVal (List.replicate 32 5));
   s.cipherIndex f = some 1 ∧ s.Started 5 4610 f ∧ (byteWord bs 0).bit 12 = false ∧ (byteWord bs 0).bits 11 0 = 1 ∧
     (s.cipherOf 1).useLimit ≠ 0 ∧ blobReservedClear bs = true ∧ s.sec.unwrap bs = some key ∧ (s.cipherOf 1).lastEpoch
     ≠ 16777215 ∧ (if (s.cipherOf 1).lastEpoch = 0 then 1 ≤ (byteWord bs 0).bits 39 16 else (byteWord bs 0).bits 39 16
     = (s.cipherOf 1).lastEpoch + 1) ∧ (s.cipherOf 1).slotsUsed < 2) ∧
  (let f : Flight := cmd 0x1203 0 0 1;
   let s : State := holding (chan0
     { live with tribs := [(1, { state := .carrying, cipher := true })], cx := [(1, { useLimit := 9, next := some { key := 7, epoch := 4 }, farNs := some 0, farNextEpoch := 4, farKcv := Crypto.keyCheck 7 })] })
     f;
   s.cipherIndex f = some 1 ∧ s.Started 5 4611 f ∧ (s.cipherOf 1).rollable s.now = true) ∧
  (let f : Flight := cmd 0x1204 0 0 1;
   let s : State := holding (chan0
     { live with tribs := [(1, { state := .carrying, cipher := true })], cx := [(1, { useLimit := 9, next := some { key := 7, epoch := 4 }, current := some { key := 7, epoch := 4 }, retiring := [{ key := 7, epoch := 4 }] })] })
     f;
   s.cipherIndex f = some 1 ∧ s.Started 5 4612 f) ∧
  (let f : Flight := cmd 0x1204 0 0 0x1001;
   let s : State := holding (chan0
     { live with tribs := [(1, { state := .carrying, cipher := true })], cx := [(1, { useLimit := 9, next := some { key := 7, epoch := 4 }, current := some { key := 7, epoch := 4 }, retiring := [{ key := 7, epoch := 4 }] })] })
     f;
   s.cipherIndex f = some 1 ∧ s.Started 5 4612 f) :=
  ⟨by decide, by decide, by decide +kernel, by decide +kernel, by decide, by decide⟩

/-- States and operands that meet the hypotheses of `Obligations.CipherComplete`, clause by clause. -/
theorem test_CipherComplete_met2 :
  (let f : Flight := cmd 0x1205 0 32 1;
   let s : State := holding (chan0
     { live with tribs := [(1, { state := .carrying, cipher := true })], cx := [(1, { authFail := 1, authFailErrored := 2, rolls := 5 })] })
     f;
   s.cipherIndex f = some 1 ∧ s.Started 5 4613 f) ∧
  (let s : State := chan0
     { live with tribs := [(1, { state := .carrying, cipher := true })], cx := [(1, { useLimit := 9, warnDist := 8, curFrames := 65536, current := some { key := 7, epoch := 4 } })] };
   let k : LineKey := { key := 7, epoch := 4 };
   s.boot.powered = true ∧ (s.cipherOf 1).current = some k ∧ (s.cipherOf 1).warnAt ≤ (s.cipherOf 1).curFrames ∧
     (s.cipherOf 1).warned = false) ∧
  (let s : State := chan0
     { live with tribs := [(1, { state := .carrying, cipher := true })], cx := [(1, { useLimit := 9, warnDist := 8, curFrames := 589824, current := some { key := 7, epoch := 4 } })] };
   let k : LineKey := { key := 7, epoch := 4 };
   s.boot.powered = true ∧ (s.cipherOf 1).current = some k ∧ 0 < (s.cipherOf 1).useLimit ∧ (s.cipherOf 1).useLimit *
     65536 ≤ (s.cipherOf 1).curFrames) ∧
  (let s : State := chan0
     { live with tribs := [(1, { state := .carrying, cipher := true })], cx := [(1, { useLimit := 9, warnDist := 8, curFrames := 589824, current := some { key := 7, epoch := 4 }, retiring := [{ key := 7, epoch := 4 }] })] };
   s.boot.powered = true) ∧
  (let s : State := (chan0
     { live with tribs := [(1, { state := .carrying, cipher := true })], cx := [(1, {})] }).onSec fun x =>
     { x with failing := true, tested := true };
   s.boot.powered = true ∧ s.sec.tested = true) ∧
  (let s : State := (chan0
     { live with tribs := [(1, { state := .carrying, cipher := true })], cx := [(1, {})] }).onSec fun x =>
     { x with tested := true };
   s.boot.powered = true ∧ s.sec.tested = true) ∧
  (let s : State := (chan0
     { live with tribs := [(1, { state := .carrying, cipher := true })], cx := [(1, {})] }).onSec fun x =>
     { x with failing := true, tested := true };
   s.boot.powered = true ∧ s.sec.tested = true) :=
  ⟨by decide, by decide, by decide, by decide, by decide, by decide, by decide⟩

/-- States and operands that meet the hypotheses of `Obligations.CryptoJobsComplete`, clause by clause. -/
theorem test_CryptoJobsComplete_met :
  (let w0 : Word := mkWord [(0,12,255),(12,1,1)];
   let f : Flight := cmd 0x1210 32 80 255;
   let s : State := (holding up f).onSec fun x =>
     { x with kek := some 258, drbg := true, tested := true, reseedDue := 1000000000 };
   let bs : List Byte := wrapped w0;
   let key : BitVec 256 := BitVec.ofNat 256 (Crypto.beVal (List.replicate 32 5));
   s.Started 5 4624 f ∧ f.desc.p0.bits 9 0 / 256 = f.link ∧ (byteWord bs 0).bit 12 = true ∧ (byteWord bs 0).bits 11 0
     = f.desc.p0.bits 9 0 ∧ (byteWord bs 0).bits 39 16 = 0 ∧ blobReservedClear bs = true ∧ s.sec.unwrap bs = some key
     ∧ (∀ p ∈ s.jobKeys, p.fst ≠ f.desc.p0.bits 9 0) ∧ s.canDraw = true) ∧
  (let f : Flight := cmd 0x1211 32 0 255;
   let s : State := holding { up with jobKeys := [(255, { key := 3, fixed := 2 })] } f;
   s.Started 5 4625 f ∧ f.desc.p0.bits 9 0 / 256 = f.link ∧ Sparse.rising 0 s.jobKeys = true) ∧
  (let f : Flight :=
     { cmd 0x1230 32 0 with desc := { desc 0x1230 32 5 0x8000 (mkWord [(0,32,21),(32,32,0)]) 9 with w2 := mkWord [(0,32,5),(32,32,16323)] } };
   let s : State := (holding { up with jobKeys := [(255, { key := 3, fixed := 2, counter := 8 })] } f).onSec fun x =>
     { x with drbg := true, tested := true, reseedDue := 1000000000 };
   let k : JobKey := { key := 3, fixed := 2, counter := 8 };
   s.Started 5 4656 f ∧ f.desc.jobBad = false ∧ f.desc.keySlot / 256 = f.link ∧ List.find? (fun p => decide (p.fst =
     f.desc.keySlot)) s.jobKeys = some (f.desc.keySlot, k) ∧ (f.desc.jobDecrypts = false → k.used < 4294967296 ∧
     (f.desc.jobMode < 2 → s.canDraw = true))) ∧
  (let f : Flight :=
     { cmd 0x1230 32 0 with desc := { desc 0x1230 32 21 0x8000 (mkWord [(0,32,5),(32,32,0)]) 9 with w2 := mkWord [(0,32,21),(32,32,16327)] } };
   let s : State := (holding { up with jobKeys := [(255, { key := 3, fixed := 2, counter := 8 })] } f).onSec fun x =>
     { x with drbg := true, tested := true, reseedDue := 1000000000 };
   let k : JobKey := { key := 3, fixed := 2, counter := 8 };
   s.Started 5 4656 f ∧ f.desc.jobBad = false ∧ f.desc.keySlot / 256 = f.link ∧ List.find? (fun p => decide (p.fst =
     f.desc.keySlot)) s.jobKeys = some (f.desc.keySlot, k) ∧ (f.desc.jobDecrypts = false → k.used < 4294967296 ∧
     (f.desc.jobMode < 2 → s.canDraw = true))) ∧
  (let f : Flight :=
     { cmd 0x1230 32 0 with desc := { desc 0x1230 32 16 0x8000 (mkWord [(0,32,16),(32,32,0)]) 9 with w2 := mkWord [(0,32,16),(32,32,16320)] } };
   let s : State := (holding { up with jobKeys := [(255, { key := 3, fixed := 2, counter := 8 })] } f).onSec fun x =>
     { x with drbg := true, tested := true, reseedDue := 1000000000 };
   let k : JobKey := { key := 3, fixed := 2, counter := 8 };
   s.Started 5 4656 f ∧ f.desc.jobBad = false ∧ f.desc.keySlot / 256 = f.link ∧ List.find? (fun p => decide (p.fst =
     f.desc.keySlot)) s.jobKeys = some (f.desc.keySlot, k) ∧ (f.desc.jobDecrypts = false → k.used < 4294967296 ∧
     (f.desc.jobMode < 2 → s.canDraw = true))) ∧
  (let f : Flight :=
     { cmd 0x1230 32 0 with desc := { desc 0x1230 32 7 0x8000 (mkWord [(0,32,7),(32,32,0)]) 9 with w2 := mkWord [(0,32,7),(32,32,16322)] } };
   let s : State := (holding { up with jobKeys := [(255, { key := 3, fixed := 2, counter := 8 })] } f).onSec fun x =>
     { x with drbg := true, tested := true, reseedDue := 1000000000 };
   let k : JobKey := { key := 3, fixed := 2, counter := 8 };
   s.Started 5 4656 f ∧ f.desc.jobBad = false ∧ f.desc.keySlot / 256 = f.link ∧ List.find? (fun p => decide (p.fst =
     f.desc.keySlot)) s.jobKeys = some (f.desc.keySlot, k) ∧ (f.desc.jobDecrypts = false → k.used < 4294967296 ∧
     (f.desc.jobMode < 2 → s.canDraw = true))) ∧
  (let j : Job := { id := 5, key := 3, v := 8, bytes := [1,2,3,4,5,6,7] };
   let f : Flight :=
     { { cmd 0x1230 32 0 with desc := { desc 0x1230 32 7 0x8000 (mkWord [(0,32,7),(32,32,0)]) 9 with w2 := mkWord [(0,32,7),(32,32,16322)] } } with phase := .running };
   let s : State := holding { up with jobs := [j] } f;
   let o : List Nat := (j.output f.desc).getD [];
   List.find? (fun j => decide (j.id = 5)) s.jobs = some j ∧ s.flight? 5 = some f ∧ j.output f.desc = some o ∧ j.id =
     5) ∧
  (let j : Job := { id := 5, key := 3, v := 8, bytes := List.replicate 21 1 };
   let f : Flight :=
     { { cmd 0x1230 32 0 with desc := { desc 0x1230 32 21 0x8000 (mkWord [(0,32,5),(32,32,0)]) 9 with w2 := mkWord [(0,32,21),(32,32,16327)] } } with phase := .running };
   let s : State := holding { up with jobs := [j] } f;
   List.find? (fun j => decide (j.id = 5)) s.jobs = some j ∧ s.flight? 5 = some f ∧ j.output f.desc = none ∧ j.id = 5) :=
  ⟨by decide +kernel, by decide, by decide, by decide, by decide, by decide, by decide +kernel, by decide +kernel⟩

/-- States and operands that meet the hypotheses of `Obligations.LoadingComplete`, clause by clause. -/
theorem test_LoadingComplete_met :
  (let f : Flight := cmd 0x1301 0 256;
   let s : State := holding (chan0 carry) f;
   f.desc.target = 0 ∧ s.Started 5 4865 f) ∧
  (let f : Flight := cmd 0x1302 0 256;
   let s : State := holding (chan0 carry) f;
   f.desc.target = 0 ∧ s.Started 5 4866 f) ∧
  (let f : Flight := cmd 0x1303 0 256 0x1000;
   let s : State := holding (chan0
     { carry with ld := { tx := fullSet 64, rx := fullSet 64, history := [List.replicate 32 (some 50)] } }) f;
   let pl : LoadSet × Bool × Bool := ((s.chan 0).plan (if f.desc.p0.bits 7 0 = 0 then (s.chan 0).age.target else
     f.desc.p0.bits 7 0) (f.desc.p0.bit 8) (if f.desc.p0.bits 19 9 = 0 then 1600 else f.desc.p0.bits 19 9)).getD ({},
     false, false);
   f.desc.target = 0 ∧ s.Started 5 4867 f ∧ ((s.chan 0).plan (if f.desc.p0.bits 7 0 = 0 then (s.chan 0).age.target
     else f.desc.p0.bits 7 0) (f.desc.p0.bit 8) (if f.desc.p0.bits 19 9 = 0 then 1600 else f.desc.p0.bits 19 9) = some
     (pl.fst, pl.snd.fst, pl.snd.snd))) ∧
  (let f : Flight := cmd 0x1304 0 0 0x8000;
   let s : State := holding (chan0 carry) f;
   f.desc.target = 0 ∧ s.Started 5 4868 f) ∧
  (let f : Flight := cmd 0x14A1 0 64;
   let s : State := holding (chan0 carry) f;
   f.desc.target = 0 ∧ s.Started 5 5281 f) :=
  ⟨by decide, by decide, ⟨by decide, by decide, some_getD _ (by decide +kernel)⟩, by decide, by decide⟩

/-- States and operands that meet the hypotheses of `Obligations.LoadingComplete`, clause by clause. -/
theorem test_LoadingComplete_met2 :
  (let f : Flight := cmd 0x14A2 0 64;
   let s : State := holding (chan0 carry) f;
   f.desc.target = 0 ∧ s.Started 5 5282 f) ∧
  (let f : Flight := cmd 0x14A3 0 64 0xFFFFFFFFFFFF;
   let s : State := holding (chan0 carry) f;
   f.desc.target = 0 ∧ s.Started 5 5283 f) ∧
  (let s : State := chan0 { carry with ld := { lqAlarm := -128, lowRun := 4 } };
   s.boot.powered = true ∧ (s.chan 0).ld.lqAlarm ≠ 0 ∧ (s.chan 0).ld.lqRaised = false ∧ 4 ≤ (s.chan 0).ld.lowRun) ∧
  (let s : State := chan0 { carry with ld := { lqAlarm := 127, highRun := 4, lqRaised := true } };
   s.boot.powered = true ∧ (s.chan 0).ld.lqAlarm ≠ 0 ∧ (s.chan 0).ld.lqRaised = true ∧ 4 ≤ (s.chan 0).ld.highRun) ∧
  (let s : State := chan0 { carry with fec := { alarmLevel := 1, aboveRun := 4 } };
   s.boot.powered = true ∧ (s.chan 0).fec.alarmLevel ≠ 0 ∧ (s.chan 0).fec.alarm = false ∧ 4 ≤ (s.chan 0).fec.aboveRun) ∧
  (let s : State := chan0 { carry with fec := { uncorrRun := 256 } };
   s.boot.powered = true ∧ (s.chan 0).fec.uncorrRun = 256) :=
  ⟨by decide, by decide, by decide, by decide, by decide, by decide⟩

/-- States and operands that meet the hypotheses of `Obligations.ChangeCommandsComplete`, clause by clause. -/
theorem test_ChangeCommandsComplete_met :
  (let ws : List Word := setWords 48 ++ List.replicate 8 0;
   let f : Flight := cmd 0x1300 0 128 100;
   let s : State := holding (chan0 carry) f;
   f.desc.target = 0 ∧ s.Started 5 4864 f ∧ lxLead (f.desc.p0.bits 6 0) = some 100 ∧ requestClear ws = true ∧ (s.chan
     0).pm.mode ≠ P2Mode.hub ∧ s.loadStatus 0 (requestContent ws) = 0) ∧
  (let ws : List Word := setWords 48 ++ setWords 112;
   let f : Flight := cmd 0x1300 0 128 100;
   let s : State := holding (chan0 carry) f;
   f.desc.target = 0 ∧ s.Started 5 4864 f ∧ lxLead (f.desc.p0.bits 6 0) = some 100 ∧ requestClear ws = true ∧ (s.chan
     0).pm.mode ≠ P2Mode.hub ∧ s.loadStatus 0 (requestContent ws) = 0) ∧
  (let ws : List Word := setWords 48 ++ List.replicate 8 0;
   let f : Flight := cmd 0x1300 0 128 100;
   let s : State := holding (chan0 { carry with pm := { mode := .hub } }) f;
   let x : LoadSet := fullSet 48;
   f.desc.target = 0 ∧ s.Started 5 4864 f ∧ lxLead (f.desc.p0.bits 6 0) = some 100 ∧ requestClear ws = true ∧ (s.chan
     0).pm.mode = P2Mode.hub ∧ (requestContent ws).rev = none ∧ (requestContent ws).fwd = some x ∧ s.loadStatus 0
     (requestContent ws) = 0 ∧ (s.chan 0).leafUnacquired x = false) ∧
  (let f : Flight := { cmd 0x14A0 0 0 0x6401 with desc := { desc 0x14A0 0 0 0x6401 with w1 := 0 } };
   let s : State := holding (chan0 carry) f;
   let y : LxContent := { fwd := none, rev := none, profile := some true };
   f.desc.target = 0 ∧ s.Started 5 5280 f ∧ lxLead (f.desc.p0.bits 14 8) = some 100 ∧ f.desc.bufAddr = 0 ∧
     f.desc.p0.bit 0 ≠ (s.chan 0).fec.txOffshore ∧ y = { fwd := none, rev := none, profile := some (f.desc.p0.bit 0) }
     ∧ s.profileStatus 0 false (f.desc.p0.bit 0) y = 0) ∧
  (let ws : List Word := setWords 48 ++ List.replicate 8 0;
   let f : Flight := cmd 0x14A0 0 128 0x6400;
   let s : State := holding (chan0 carry) f;
   f.desc.target = 0 ∧ s.Started 5 5280 f ∧ lxLead (f.desc.p0.bits 14 8) = some 100 ∧ f.desc.bufAddr ≠ 0 ∧
     requestClear ws = true ∧ f.desc.p0.bit 0 = (s.chan 0).fec.txOffshore ∧ (s.chan 0).pm.mode ≠ P2Mode.hub ∧
     s.loadStatus 0 (requestContent ws) = 0) :=
  ⟨by decide, by decide, by decide, by decide, by decide⟩

/-- States and operands that meet the hypotheses of `Obligations.CalibrationComplete`, clause by clause. -/
theorem test_CalibrationComplete_met :
  (let f : Flight := cmd 0x14C0 0 0 0xE1000010002;
   let s : State := holding (chan0 { carry with cal := { rxRun := some { initial := false } } }) f;
   f.desc.target = 0 ∧ s.Started 5 5312 f ∧ 1 ≤ f.desc.p0.bits 27 16 ∧ f.desc.p0.bits 27 16 ≤ 3600 ∧ 1 ≤
     f.desc.p0.bits 43 32 ∧ f.desc.p0.bits 43 32 ≤ 3600) ∧
  (let f : Flight := cmd 0x14C1 0 0 1;
   let s : State := holding (chan0 carry) f;
   f.desc.target = 0 ∧ s.Started 5 5313 f ∧ f.desc.p0.bit 0 = true ∧ f.desc.p0.bit 1 = false ∧ (s.chan 0).calAllowed
     false = true) ∧
  (let f : Flight := cmd 0x14C1 0 0 2;
   let s : State := holding (chan0 carry) f;
   f.desc.target = 0 ∧ s.Started 5 5313 f ∧ f.desc.p0.bit 0 = false ∧ f.desc.p0.bit 1 = true ∧ (s.chan 0).calAllowed
     true = true) ∧
  (let f : Flight := cmd 0x14C2 0 112;
   let s : State := holding (chan0 carry) f;
   f.desc.target = 0 ∧ s.Started 5 5314 f) ∧
  (let f : Flight := cmd 0x14C3 0 1600;
   let s : State := holding (chan0 carry) f;
   f.desc.target = 0 ∧ s.Started 5 5315 f) :=
  ⟨by decide, by decide, by decide, by decide, by decide⟩

/-- States and operands that meet the hypotheses of `Obligations.CalibrationComplete`, clause by clause. -/
theorem test_CalibrationComplete_met2 :
  (let f : Flight := cmd 0x14C3 0 1600 1;
   let s : State := holding (chan0 carry) f;
   f.desc.target = 0 ∧ s.Started 5 5315 f) ∧
  (let s : State := chan0 { carry with cal := { rxTrack := true, rxNext := 400 } };
   s.boot.powered = true ∧ (s.chan 0).cal.rxTrack = true ∧ (s.chan 0).calAllowed false = true ∧ (s.chan 0).cal.rxRun =
     none) ∧
  (let r : CalRun := { initial := false, opened := true, mfs := 4 };
   let e : CalEstimate :=
     { est := [1], half1 := [1], half2 := [1], resp := [], low := false, clip := [], ilRes := [], eye := [] };
   let s : State := chan0 { carry with cal := { rxRun := some r, values := some ([2]) } };
   s.boot.powered = true ∧ (s.chan 0).cal.run false = some r ∧ r.gathered false = true ∧ r.reason false ((s.chan
     0).cal.inForce 0) e (s.calBad 0 false e) = 0) ∧
  (let r : CalRun := { initial := false, opened := true, mfs := 4 };
   let e : CalEstimate :=
     { est := [1000000], half1 := [0], half2 := [0], resp := [], low := false, clip := [], ilRes := [], eye := [] };
   let s : State := chan0 { carry with cal := { rxRun := some r, values := some ([2]) } };
   s.boot.powered = true ∧ (s.chan 0).cal.rxRun = some r ∧ r.gathered false = true ∧ 1 ≠ 0 ∧ r.reason false ((s.chan
     0).cal.inForce 0) e (s.calBad 0 false e) = 1) ∧
  (let q : CalResult :=
     { values := [3], slewed := true, small := false, errors := [], resp := [], ilRes := [], eye := [] };
   let r : CalRun := { initial := false, opened := true, mfs := 4, apply := some q, ready := true };
   let s : State := chan0 { carry with cal := { rxRun := some r, values := some (List.replicate 399 0) } };
   s.boot.powered = true ∧ (s.chan 0).cal.rxRun = some r ∧ (r.ready = true ∨ r.initial = true) ∧ r.apply = some q) ∧
  (let q : CalResult :=
     { values := [3], slewed := false, small := false, errors := [], resp := [9], ilRes := [], eye := [] };
   let r : CalRun := { initial := true, response := true, apply := some q };
   let s : State := chan0
     { carry with bu := { step := 3 }, cal := { txRun := some r, respDue := true, values := some (List.replicate 399 0) } };
   s.boot.powered = true ∧ (s.chan 0).cal.txRun = some r ∧ (r.ready = true ∨ r.initial = true) ∧ r.apply = some q) :=
  ⟨by decide, by decide, by decide +kernel, by decide, by decide, by decide⟩

/-- States and operands that meet the hypotheses of `Obligations.OpticsComplete`, clause by clause. -/
theorem test_OpticsComplete_met :
  (let f : Flight := cmd 0x14C6 0 0;
   let s : State := holding (chan0 { carry with opt := { laserOn := true, shutter := false } }) f;
   f.desc.target = 0 ∧ s.Started 5 5318 f ∧ (s.chan 0).keeperDown = false) ∧
  (let f : Flight := cmd 0x14C7 0 0;
   let s : State := holding (chan0 { carry with opt := { laserOn := true, shutter := false, latched := 0b110100 } })
     f;
   f.desc.target = 0 ∧ s.Started 5 5319 f ∧ (s.chan 0).keeperDown = false ∧ (s.chan 0).opt.held = false ∧ (s.chan
     0).awake = true ∧ s.boot.laserOffN = false ∧ s.shore.laserOff = false ∧ (s.chan 0).opt.latched.getLsbD 0 = false
     ∧ (s.chan 0).opt.latched.getLsbD 1 = false ∧ ((s.chan 0).opt.latched.getLsbD 2 = true → (s.chan 0).tapHigh (0,
     255).fst = false ∨ (s.chan 0).tapHigh (0, 255).snd = false) ∧ ((s.chan 0).opt.latched.getLsbD 5 = true →
     (-150).natAbs ≤ 150)) ∧
  (let f : Flight := cmd 0x14C4 0 32;
   let s : State := holding (chan0 { carry with opt := { laserOn := true, shutter := false, latched := 0b110100 } })
     f;
   f.desc.target = 0 ∧ s.Started 5 5316 f) ∧
  (let s : State := chan0 { carry with opt := { laserOn := true, shutter := false } };
   s.boot.powered = true ∧ (s.chan 0).opt.laserOn = true ∧ (s.chan 0).opt.latched.getLsbD 2 = false ∧ (s.chan
     0).tapHigh 246 = true ∧ (s.chan 0).tapHigh 255 = true) ∧
  (let s : State := chan0 { carry with opt := { laserOn := true, shutter := false } };
   s.boot.powered = true ∧ (s.chan 0).opt.laserOn = true ∧ (Config.laserLimit 0).val < 255) ∧
  (let s : State := chan0 { carry with opt := { laserOn := true, shutter := false } };
   s.boot.powered = true ∧ (s.chan 0).opt.laserOn = true ∧ (s.chan 0).keeperDown = false ∧ 250 < (-251).natAbs ∧
     (s.chan 0).opt.latched.getLsbD 5 = false) :=
  ⟨by decide, by decide, by decide, by decide, ⟨by decide, by decide, (Config.laserLimit 0).isLt⟩, by decide⟩

/-- States and operands that meet the hypotheses of `Obligations.OpticsComplete`, clause by clause. -/
theorem test_OpticsComplete_met2 :
  (let f : Flight := cmd 0x14C5 0 0 (mkWord [(0,16,1),(19,2,1),(26,15,24576)]) 9;
   let s : State := holding ((chan0 { carry with cap := {} }).setRing 1 { en := true, kind := .capture }) f;
   f.desc.target = 0 ∧ s.Started 5 5317 f ∧ f.desc.p0.bit 25 = false ∧ s.capOk f (CapArm.ofDesc f) = true ∧ (s.chan
     0).cap.armed = none ∧ (s.chan 0).cap.taken = none ∧ (CapArm.ofDesc f).trig ≠ 0) ∧
  (let f : Flight := cmd 0x14C5 0 0 (mkWord [(0,16,1),(26,15,1)]);
   let s : State := holding ((chan0 { carry with cap := {} }).setRing 1 { en := true, kind := .capture }) f;
   f.desc.target = 0 ∧ s.Started 5 5317 f ∧ f.desc.p0.bit 25 = false ∧ s.capOk f (CapArm.ofDesc f) = true ∧ (s.chan
     0).cap.armed = none ∧ (s.chan 0).cap.taken = none ∧ (CapArm.ofDesc f).trig = 0) ∧
  (let f : Flight := cmd 0x14C5 0 0 (mkWord [(25,1,1)]);
   let s : State := holding (chan0
     { carry with cap := { armed := some { link := 0, ring := 1, source := 0, point := false, trig := 1, subc := 0, len := 1, mfc := 9 } } })
     f;
   f.desc.target = 0 ∧ s.Started 5 5317 f ∧ f.desc.p0.bit 25 = true) ∧
  (let a : CapArm := { link := 0, ring := 1, source := 0, point := false, trig := 1, subc := 0, len := 2, mfc := 0 };
   let s : State := chan0 { carry with cap := { armed := some a } };
   s.boot.powered = true ∧ (s.chan 0).triggered = some a) ∧
  (let d : CapData :=
     { arm := { link := 0, ring := 1, source := 0, point := false, trig := 1, subc := 0, len := 2, mfc := 0 }, numValid := false, mfc := 0, frame := 0, ofs := 0, total := 128, sent := 0, data := List.replicate 128 1 };
   let f : Flight := { cmd 0x130 0 128 with ring := 1 };
   let s : State := holding ((chan0 { carry with cap := { taken := some d } }).setRing 1
     { en := true, kind := .capture, posted := [5] }) f;
   s.boot.powered = true ∧ (s.chan 0).cap.taken = some d ∧ (s.ring d.arm.ring).posted.head?.bind s.flight? = some f ∧
     128 ≤ f.desc.bufLen ∧ 64 = min (64 * ((f.desc.bufLen - 64) / 64)) (d.total - d.sent)) ∧
  (let d : CapData :=
     { arm := { link := 0, ring := 1, source := 0, point := false, trig := 1, subc := 0, len := 2, mfc := 0 }, numValid := false, mfc := 0, frame := 0, ofs := 0, total := 128, sent := 64, data := List.replicate 128 1 };
   let f : Flight := { cmd 0x130 0 4096 with ring := 1 };
   let s : State := holding ((chan0 { carry with cap := { taken := some d } }).setRing 1
     { en := true, kind := .capture, posted := [5] }) f;
   s.boot.powered = true ∧ (s.chan 0).cap.taken = some d ∧ (s.ring d.arm.ring).posted.head?.bind s.flight? = some f ∧
     128 ≤ f.desc.bufLen ∧ 64 = min (64 * ((f.desc.bufLen - 64) / 64)) (d.total - d.sent)) :=
  ⟨by decide, by decide, by decide, by decide, by decide, by decide⟩

/-- States and operands that meet the hypotheses of `Obligations.TimingComplete`, clause by clause. -/
theorem test_TimingComplete_met :
  (let x : TimingIn := { id := 5, edges := [7] };
   let f : Flight := cmd 0x1600 32 0 (mkWord [(0,3,7),(3,1,1),(4,4,1),(15,4,15),(19,3,7),(22,1,1)]) (mkWord
     [(0,16,100),(16,14,60),(30,14,60)]);
   let s : State := holding up f;
   let new : Cand := (s.tm.cand 7).withFields f.desc;
   x.id = 5 ∧ s.Started 5 5632 f ∧ 7 = f.desc.p0.bits 2 0 ∧ new = (s.tm.cand 7).withFields f.desc ∧ new.fieldsOk =
     true ∧ (∀ (j : Nat), j < 8 → j ≠ 7 → (s.tm.cand j).enable = true → (s.tm.cand j).sameSource new = false)) ∧
  (let f : Flight := cmd 0x1601 32 0 (mkWord [(0,3,6),(3,1,0),(4,11,1024),(15,14,14400),(29,12,3600),(41,12,3600)]);
   let s : State := holding up f;
   s.Started 5 5633 f ∧ f.desc.p0.bits 2 0 ≤ 6 ∧ 1 ≤ f.desc.p0.bits 14 4 ∧ f.desc.p0.bits 14 4 ≤ 1024 ∧ 10 ≤
     f.desc.p0.bits 28 15 ∧ f.desc.p0.bits 28 15 ≤ 14400 ∧ 60 ≤ f.desc.p0.bits 40 29 ∧ f.desc.p0.bits 40 29 ≤ 3600 ∧ 1
     ≤ f.desc.p0.bits 52 41 ∧ f.desc.p0.bits 52 41 ≤ 3600) ∧
  (let f : Flight := cmd 0x1601 32 0 (mkWord [(0,3,0),(3,1,1),(4,11,1),(15,14,10),(29,12,60),(41,12,1)]);
   let s : State := holding up f;
   s.Started 5 5633 f ∧ f.desc.p0.bits 2 0 ≤ 6 ∧ 1 ≤ f.desc.p0.bits 14 4 ∧ f.desc.p0.bits 14 4 ≤ 1024 ∧ 10 ≤
     f.desc.p0.bits 28 15 ∧ f.desc.p0.bits 28 15 ≤ 14400 ∧ 60 ≤ f.desc.p0.bits 40 29 ∧ f.desc.p0.bits 40 29 ≤ 3600 ∧ 1
     ≤ f.desc.p0.bits 52 41 ∧ f.desc.p0.bits 52 41 ≤ 3600) ∧
  (let x : TimingIn := { id := 5, loop := 3 };
   let f : Flight := cmd 0x1602 32 192;
   let s : State := holding up f;
   x.id = 5 ∧ s.Started 5 5634 f) ∧
  (let f : Flight := cmd 0x1603 32 131072;
   let s : State := holding (up.onTm fun t =>
     { t with history := [{ second := 4, ctrl := 1, slot := 8, locked := false }] }) f;
   s.Started 5 5635 f) ∧
  (let f : Flight := cmd 0x1610 0 0 2;
   let s : State := holding up f;
   s.Started 5 5648 f ∧ f.desc.p0.bits 1 0 ≠ 3 ∧ (f.desc.p0.bits 1 0 = 0 ∨ s.inGroup f.desc.target = false) ∧ ((s.chan
     f.desc.target).pw.level = Level.dark ∨ (s.chan f.desc.target).pm.mode = P2Mode.leaf)) ∧
  (let f : Flight := cmd 0x1610 0 0 1;
   let s : State := holding (chan0 carry) f;
   s.Started 5 5648 f ∧ f.desc.p0.bits 1 0 ≠ 3 ∧ (f.desc.p0.bits 1 0 = 0 ∨ s.inGroup f.desc.target = false) ∧ (s.chan
     f.desc.target).pw.level ≠ Level.dark ∧ (s.chan f.desc.target).pm.mode ≠ P2Mode.leaf) ∧
  (let p : Nat × Bool := (4, true);
   let s : State := up.onTm fun t =>
     { t with selected := some 3, state := .locked, cands := [(3, { enable := true, active := true, src := 1, qualTime := 60, qual := .qualified, pending := some (4, true), expired := some true })] };
   s.boot.powered = true ∧ (s.tm.cand 3).enable = true ∧ (s.tm.cand 3).active = true ∧ (s.tm.cand 3).pending = some p
     ∧ (s.tm.cand 3).expired = some true) :=
  ⟨by decide, by decide, by decide, by decide, by decide, by decide, by decide, by decide⟩

/-- States and operands that meet the hypotheses of `Obligations.TimingComplete`, clause by clause. -/
theorem test_TimingComplete_met2 :
  (let s : State := up.onTm fun t =>
     { t with selected := some 3, state := .locked, cands := [(3, { enable := true, active := true, src := 1, qualTime := 60, qual := .qualified })] };
   s.boot.powered = true ∧ (s.tm.cand 3).enable = true ∧ (s.tm.cand 3).src ≠ 4) ∧
  (let s : State := up.onTm fun t =>
     { t with cands := [(3, { enable := true, active := true, src := 1, qualTime := 60, passed := true })] };
   s.boot.powered = true ∧ (s.tm.cand 3).enable = true ∧ (s.tm.cand 3).active = true ∧ (s.tm.cand 3).passed = true) ∧
  (let s : State := up.onTm fun t => { t with state := .acquiring, bwNow := 2, bw := 2 };
   s.boot.powered = true ∧ s.tm.state = CoreState.acquiring ∧ s.tm.bwNow = s.tm.bw) ∧
  (let s : State := up.onTm fun t => { t with state := .acquiring, bwNow := 2, bw := 0 };
   s.boot.powered = true ∧ s.tm.state = CoreState.acquiring ∧ s.tm.bw < s.tm.bwNow) ∧
  (let s : State := up.onTm fun t => { t with oscWarm := false };
   s.boot.powered = true ∧ s.tm.oscWarm = false) ∧
  (let s : State := up.onTm fun t => { t with state := .locked, lockedS := 1209600 };
   s.boot.powered = true ∧ s.tm.hoGrade = false ∧ 1209600 ≤ s.tm.lockedS) ∧
  (let s : State := up.onTm fun t => { t with state := .freeRun };
   s.boot.powered = true) ∧
  (let s : State := up.onTm fun t => { t with oscWarm := true };
   s.boot.powered = true) :=
  ⟨by decide, by decide, by decide, by decide, by decide, by decide, by decide, by decide⟩

/-- States and operands that meet the hypotheses of `Obligations.BringupComplete`, clause by clause. -/
theorem test_BringupComplete_met :
  (let ws : List Word := setWords 64 ++ setWords 64;
   let plate : Plate := { t4 := 500, t5 := 410, t6 := -50, t7 := 420 };
   let f : Flight := cmd 0x1400 0 128 (mkWord [(0,6,32),(6,1,1),(10,1,1),(16,10,800)]) (mkWord
     [(0,10,800),(16,16,100),(32,16,30)]);
   let s : State := holding up f;
   s.Started 5 5120 f ∧ f.desc.target = 0 ∧ s.bringupStatus 0 (BringupParams.ofDesc f.desc ws) ws = 0 ∧ (s.boot.hot =
     true → coldPlate plate ≤ 500)) ∧
  (let ws : List Word := setWords 64 ++ setWords 64;
   let plate : Plate := { t4 := 500, t5 := 410, t6 := -50, t7 := 420 };
   let f : Flight := cmd 0x1400 0 128 (mkWord [(0,6,16),(6,1,1),(10,1,1),(16,10,800)]) (mkWord
     [(0,10,800),(16,16,100),(32,16,30)]);
   let s : State := holding (chan0
     { bu := { step := 3, stopped := true, params := { level := .spring, freqIdx := 7 } } }) f;
   s.Started 5 5120 f ∧ f.desc.target = 0 ∧ s.bringupStatus 0 (BringupParams.ofDesc f.desc ws) ws = 0 ∧ (s.boot.hot =
     true → coldPlate plate ≤ 500)) ∧
  (let s : State := chan0
     { bu := { step := 1, params := { level := .neap } }, kp := { lanes := (List.range 4).map fun p => (p, { state := .active }) } };
   s.boot.powered = true ∧ (s.chan 0).bu.stopped = false ∧ (s.chan 0).pw.transit = Transit.none ∧ (s.chan
     0).keeperDown = false ∧ (((s.chan 0).bu.step = 1 ∧ ∀ (p : Nat), p < 4 → (Sparse.get { } (s.chan 0).kp.lanes
     p).state = LaneState.active) ∨ (s.chan 0).bu.step = 2 ∧ Int.natAbs 150 ≤ 150)) ∧
  (let s : State := chan0 { pw := { level := .neap }, bu := { step := 2, params := { level := .neap } } };
   s.boot.powered = true ∧ (s.chan 0).bu.stopped = false ∧ (s.chan 0).pw.transit = Transit.none ∧ (s.chan
     0).keeperDown = false ∧ (((s.chan 0).bu.step = 1 ∧ ∀ (p : Nat), p < 4 → (Sparse.get { } (s.chan 0).kp.lanes
     p).state = LaneState.active) ∨ (s.chan 0).bu.step = 2 ∧ Int.natAbs 150 ≤ 150)) ∧
  (let s : State := holding (chan0
     { pw := { level := .neap }, bu := { step := 3, params := { level := .neap }, cmd := some 5 }, cal := { txConverged := 2 } })
     (cmd 0x1400 0 128);
   s.boot.powered = true ∧ (s.chan 0).bu.stopped = false ∧ (s.chan 0).pw.transit = Transit.none ∧ (s.chan
     0).keeperDown = false ∧ (s.chan 0).bu.step = 3 ∧ 2 ≤ (s.chan 0).cal.converged true ∧ (s.chan 0).cal.txRun = none) ∧
  (let s : State := holding (chan0
     { pw := { level := .neap }, bu := { step := 1, params := { level := .neap }, cmd := some 5 } }) (cmd 0x1400 0
     128);
   s.boot.powered = true ∧ (s.chan 0).bu.stopped = false ∧ (s.chan 0).pw.transit = Transit.none ∧ 1 ≤ (s.chan
     0).bu.step ∧ (s.chan 0).bu.step ≤ 3) ∧
  (let s : State := holding (chan0
     { pw := { level := .neap }, bu := { step := 3, params := { level := .neap }, cmd := some 5 } }) (cmd 0x1400 0
     128);
   s.boot.powered = true ∧ (s.chan 0).bu.stopped = false ∧ (s.chan 0).pw.transit = Transit.none ∧ 1 ≤ (s.chan
     0).bu.step ∧ (s.chan 0).bu.step ≤ 3) :=
  ⟨by decide, by decide, by decide, by decide, by decide, by decide, by decide⟩

/-- States and operands that meet the hypotheses of `Obligations.ReceiverCommandsComplete`, clause by clause. -/
theorem test_ReceiverCommandsComplete_met :
  (let f : Flight := cmd 0x1401 0 64;
   let s : State := holding (chan0 carry) f;
   f.desc.target = 0 ∧ s.Started 5 5121 f) ∧
  (let f : Flight := cmd 0x1402 0 256;
   let s : State := holding (chan0 carry) f;
   f.desc.target = 0 ∧ s.Started 5 5122 f) ∧
  (let f : Flight := cmd 0x1403 0 0 800;
   let s : State := holding (chan0 { carry with rx := { state := .search } }) f;
   f.desc.target = 0 ∧ s.Started 5 5123 f ∧ 800 = f.desc.p0.bits 9 0 ∧ 800 ≤ 800 ∧ 800 ≠ (s.chan 0).bu.params.cdCeil ∧
     (s.chan 0).bu.step = 4 ∧ s.breaks 0 (s.chan 0).fec.rxOffshore 800 = false ∧ (s.chan 0).rx.state ≠
     RxState.tracking) ∧
  (let f : Flight := cmd 0x1403 0 0 0;
   let s : State := holding (chan0 { carry with bu := { step := 4, params := { cdCeil := 5 } } }) f;
   f.desc.target = 0 ∧ s.Started 5 5123 f ∧ 0 = f.desc.p0.bits 9 0 ∧ 0 ≤ 800 ∧ 0 ≠ (s.chan 0).bu.params.cdCeil ∧
     (s.chan 0).bu.step = 4 ∧ s.breaks 0 (s.chan 0).fec.rxOffshore 0 = false ∧ (s.chan 0).rx.state = RxState.tracking
     ∧ (s.chan 0).rx.cdMeas.natAbs ≤ 100 * 0) ∧
  (let f : Flight := { cmd 0x1404 0 0 (mkWord [(0,16,twos 16 (-120))]) with id := 5 };
   let s : State := holding (chan0 carry) f;
   f.desc.target = 0 ∧ s.Started 5 5124 f ∧ -120 = signed 16 (f.desc.p0.bits 15 0) ∧ -120 ≤ -120 ∧ -120 ≤ 30 ∧ (∀ o ∈
     f.desc.offsets, -30 ≤ o ∧ o ≤ 30) ∧ (s.chan 0).awake = true) ∧
  (let f : Flight := { cmd 0x1404 0 0 (mkWord [(0,16,twos 16 (30))]) with id := 5 };
   let s : State := holding (chan0 carry) f;
   f.desc.target = 0 ∧ s.Started 5 5124 f ∧ 30 = signed 16 (f.desc.p0.bits 15 0) ∧ -120 ≤ 30 ∧ 30 ≤ 30 ∧ (∀ o ∈
     f.desc.offsets, -30 ≤ o ∧ o ≤ 30) ∧ (s.chan 0).awake = true) ∧
  (let f : Flight := cmd 0x1405 0 0 (mkWord [(0,1,1),(16,16,twos 16 (-50))]);
   let s : State := holding (chan0 { carry with bu := { step := 4, params := { cdCeil := 5 } } }) f;
   f.desc.target = 0 ∧ s.Started 5 5125 f ∧ -50 = signed 16 (f.desc.p0.bits 31 16) ∧ (-50).natAbs ≤ 10 * (s.chan
     0).bu.params.cdCeil) :=
  ⟨by decide, by decide, by decide, by decide, by decide, by decide, by decide⟩

/-- States and operands that meet the hypotheses of `Obligations.ReceiverMoves`, clause by clause. -/
theorem test_ReceiverMoves_met :
  (let s : State := (chan0 { carry with rx := { state := .noSignal } }).setConv 0 { losCode := some 40 };
   s.boot.powered = true ∧ s.converting 0 = true ∧ s.losCodeOf 0 + 2 ≤ 42 ∧ (s.chan 0).rx.state = RxState.noSignal) ∧
  (let s : State := (chan0 { carry with rx := { state := .noSignal, calDone := true } }).setConv 0
     { losCode := some 40 };
   s.boot.powered = true ∧ s.converting 0 = true ∧ s.losCodeOf 0 + 2 ≤ 255 ∧ (s.chan 0).rx.state = RxState.noSignal) ∧
  (let s : State := chan0 { carry with rx := { state := .calibration }, cal := { rxConverged := 2 } };
   s.boot.powered = true ∧ (s.chan 0).rx.state = RxState.calibration ∧ 2 ≤ (s.chan 0).cal.converged false ∧ (s.chan
     0).cal.rxRun = none) ∧
  (let s : State := chan0
     { carry with rx := { state := .search, searches := [some 0] }, bu := { step := 4, params := { cdCeil := 5 } } };
   s.boot.powered = true ∧ (s.chan 0).rx.state = RxState.search ∧ (s.chan 0).rx.finds (-500) = true ∧ (-500).natAbs ≤
     100 * (s.chan 0).bu.params.cdCeil) ∧
  (let s : State := chan0 { carry with rx := { state := .carrier } };
   s.boot.powered = true ∧ (s.chan 0).rx.state = RxState.carrier) ∧
  (let s : State := chan0
     { carry with rx := { state := .pilotLock, locked := 1, acquired := 0xFFFF, cdBefore := some 299 }, bu := { step := 4, params := { cdCeil := 5 } } };
   s.boot.powered = true ∧ (s.chan 0).rx.state = RxState.pilotLock ∧ (s.chan 0).rx.locked ≠ 0 ∧ (s.chan 0).rx.acquired
     &&& (s.chan 0).rxSet.lit = (s.chan 0).rxSet.lit ∧ Int.natAbs 500 ≤ 100 * (s.chan 0).bu.params.cdCeil) :=
  ⟨by decide, by decide, by decide, by decide, by decide, by decide⟩

/-- States and operands that meet the hypotheses of `Obligations.ReceiverMoves`, clause by clause. -/
theorem test_ReceiverMoves_met2 :
  (let s : State := chan0 { carry with rx := { state := .pilotLock }, ld := { lsnRx := 1, rx := { lit := 2 } } };
   s.boot.powered = true ∧ (s.chan 0).rx.state = RxState.pilotLock ∧ (s.chan 0).rx.locked = 0 ∧ 3 &&& (s.chan
     0).rxSet.lit ≠ 0 ∧ true = ((s.chan 0).ld.lsnRx.toNat % 2 == 1)) ∧
  (let s : State := chan0 { carry with rx := { state := .pilotLock, locked := 1, lostSub := 0x8000 } };
   s.boot.powered = true ∧ ((s.chan 0).rx.state = RxState.pilotLock ∨ (s.chan 0).rx.state = RxState.tracking) ∧
     (s.chan 0).rx.locked ≠ 0 ∧ (s.chan 0).rxSet.isLit 15 = true ∧ (s.chan 0).rx.acquired.getLsbD 15 = false) ∧
  (let s : State := chan0 { carry with rx := { state := .tracking, locked := 1 } };
   s.boot.powered = true ∧ ((s.chan 0).rx.state = RxState.pilotLock ∨ (s.chan 0).rx.state = RxState.tracking) ∧
     (s.chan 0).rx.locked ≠ 0 ∧ (s.chan 0).rxSet.isLit 0 = true ∧ (s.chan 0).rx.acquired.getLsbD 0 = false) ∧
  (let s : State := chan0 { carry with rx := { state := .tracking, locked := 1 } };
   s.boot.powered = true ∧ ((s.chan 0).rx.state = RxState.pilotLock ∨ (s.chan 0).rx.state = RxState.tracking) ∧
     (s.chan 0).rxSet.isLit 0 = true) ∧
  (let s : State := (chan0 { carry with rx := { state := .tracking } }).setConv 0 { losCode := some 40 };
   let codes : List (BitVec 8) := [40, 0, 3, 40];
   s.boot.powered = true ∧ s.converting 0 = true ∧ codes.length = 4 ∧ (∀ r ∈ codes, r.toNat ≤ s.losCodeOf 0) ∧ (s.chan
     0).rx.state.lit = true) ∧
  (let s : State := chan0 { carry with rx := { state := .tracking, locked := 3 } };
   s.boot.powered = true ∧ (s.chan 0).rx.state.acquiring = true ∧ lossShown 2 1000 = true) :=
  ⟨by decide, by decide, by decide, by decide, by decide, by decide⟩

/-- States and operands that meet the hypotheses of `Obligations.ReceiverMoves`, clause by clause. -/
theorem test_ReceiverMoves_met3 :
  (let s : State := chan0 { carry with rx := { state := .tracking, locked := 3 } };
   s.boot.powered = true ∧ (s.chan 0).rx.state.acquiring = true ∧ lossShown 3 (-3501) = true) ∧
  (let s : State := chan0 { carry with rx := { state := .tracking, locked := 3 } };
   s.boot.powered = true ∧ (s.chan 0).rx.state.acquiring = true ∧ lossShown 5 50001 = true) ∧
  (let s : State := chan0 { carry with rx := { state := .carrier } };
   s.boot.powered = true ∧ ((s.chan 0).rx.state = RxState.carrier ∨ (s.chan 0).rx.state = RxState.pilotLock)) ∧
  (let s : State := chan0 { carry with rx := { state := .pilotLock } };
   s.boot.powered = true ∧ ((s.chan 0).rx.state = RxState.carrier ∨ (s.chan 0).rx.state = RxState.pilotLock)) ∧
  (let s : State := chan0 { carry with rx := { state := .calibration } };
   s.boot.powered = true ∧ (s.chan 0).rx.state = RxState.calibration) ∧
  (let s : State := chan0 { carry with rx := { state := .search, blindDue := some 9 } };
   s.boot.powered = true ∧ (s.chan 0).rx.state = RxState.search ∧ (s.chan 0).rx.blindDue = some 9) ∧
  (let s : State := chan0 { carry with rx := { state := .tracking, locked := 0xFFFF, acquired := 0xFFFF } };
   s.boot.powered = true ∧ ((s.chan 0).rx.state = RxState.pilotLock ∨ (s.chan 0).rx.state = RxState.tracking) ∧
     (s.chan 0).rx.locked.getLsbD 15 = true) :=
  ⟨by decide, by decide, by decide, by decide, by decide, by decide, by decide⟩

/-- States and operands that meet the hypotheses of `Obligations.PowerComplete`, clause by clause. -/
theorem test_PowerComplete_met :
  (let f : Flight := cmd 0x1900 0 0 1;
   let s : State := holding (chan0
     { carry with bu := {step := 4, params := { rate := 16 }}, pw := { level := .slack } }) f;
   f.desc.target = 0 ∧ s.Started 5 6400 f ∧ 1 = f.desc.p0.bits 1 0 ∧ 1 ≠ 3 ∧ (s.chan 0).bu.step = 4 ∧ (s.chan
     0).pw.transit = Transit.none ∧ (s.chan 0).levelFits (Level.ofCode 1) = true ∧ (s.chan 0).pw.level = Level.slack) ∧
  (let f : Flight := cmd 0x1900 0 0 1;
   let s : State := holding (chan0
     { carry with bu := {step := 4, params := { rate := 16 }}, pw := { level := .mean } }) f;
   f.desc.target = 0 ∧ s.Started 5 6400 f ∧ 1 = f.desc.p0.bits 1 0 ∧ 1 ≠ 3 ∧ (s.chan 0).bu.step = 4 ∧ (s.chan
     0).pw.transit = Transit.none ∧ (s.chan 0).levelFits (Level.ofCode 1) = true ∧ (s.chan 0).pw.level = Level.ofCode
     1) ∧
  (let f : Flight := cmd 0x1900 0 0 1;
   let s : State := holding (chan0
     { carry with bu := {step := 4, params := { rate := 16 }}, pw := { level := .spring } }) f;
   f.desc.target = 0 ∧ s.Started 5 6400 f ∧ 1 = f.desc.p0.bits 1 0 ∧ 1 ≠ 3 ∧ (s.chan 0).bu.step = 4 ∧ (s.chan
     0).pw.transit = Transit.none ∧ (s.chan 0).levelFits (Level.ofCode 1) = true ∧ (s.chan 0).pw.level ≠ Level.slack ∧
     (s.chan 0).pw.level ≠ Level.ofCode 1) ∧
  (let f : Flight := cmd 0x1900 0 0 0;
   let s : State := holding (chan0
     { carry with bu := {step := 4, params := { rate := 16 }}, pw := { level := .neap } }) f;
   f.desc.target = 0 ∧ s.Started 5 6400 f ∧ 0 = f.desc.p0.bits 1 0 ∧ 0 ≠ 3 ∧ (s.chan 0).bu.step = 4 ∧ (s.chan
     0).pw.transit = Transit.none ∧ (s.chan 0).levelFits (Level.ofCode 0) = true ∧ (s.chan 0).pw.level ≠ Level.slack ∧
     (s.chan 0).pw.level ≠ Level.ofCode 0) ∧
  (let f : Flight := cmd 0x1901 0 0 0xC 0xFFFFFF;
   let s : State := holding (chan0 carry) f;
   f.desc.target = 0 ∧ s.Started 5 6401 f ∧ f.desc.p0.bits 1 0 = 0 ∧ (s.chan 0).awake = true ∧ (f.desc.p0.bit 3 = true
     → f.desc.p1.bits 23 0 ≠ 0) ∧ s.sleepStatus 0 = 0) ∧
  (let f : Flight := cmd 0x1901 0 0 1;
   let s : State := holding (chan0 carry) f;
   f.desc.target = 0 ∧ s.Started 5 6401 f ∧ f.desc.p0.bits 1 0 = 1 ∧ f.desc.p0.bits 3 2 = 0 ∧ (s.chan 0).bu.step ≠ 0 ∧
     s.sleepStatus 0 = 0) ∧
  (let f : Flight := cmd 0x1901 0 0 2;
   let s : State := holding (chan0 { carry with pw := { level := .slack, armed := { light := true } } }) f;
   f.desc.target = 0 ∧ s.Started 5 6401 f ∧ f.desc.p0.bits 1 0 = 2 ∧ (s.chan 0).pw.exitSeen.contains f.id = false ∧
     (s.chan 0).pw.transit = Transit.none ∧ (s.chan 0).pw.level = Level.slack) :=
  ⟨by decide, by decide, by decide, by decide, by decide, by decide, by decide⟩

/-- States and operands that meet the hypotheses of `Obligations.PowerComplete`, clause by clause. -/
theorem test_PowerComplete_met2 :
  (let f : Flight := cmd 0x1902 0 32;
   let s : State := holding (chan0 carry) f;
   f.desc.target = 0 ∧ s.Started 5 6402 f) ∧
  (let f : Flight := cmd 0x1910 0 32;
   let s : State := holding (chan0 carry) f;
   f.desc.target = 0 ∧ s.Started 5 6416 f) ∧
  (let f : Flight := cmd 0x1410 0 32;
   let s : State := holding (chan0 carry) f;
   f.desc.target = 0 ∧ s.Started 5 5136 f ∧ (s.chan 0).bu.step ≠ 0 ∧ (∀ l ∈ (s.chan 0).locals, ((s.chan 0).trib
     l).state = TribState.carrying → ((s.chan 0).trib l).released = true) ∧ s.dueBy f (s.now + 20000000) = true) ∧
  (let s : State := holding (chan0 { carry with pw := { level := .spring, transit := .clockDown, target := .neap } })
     (cmd 0x1900 0 0);
   s.boot.powered = true ∧ (s.chan 0).pw.transit = Transit.clockDown) ∧
  (let s : State := holding (chan0
     { carry with pw := { level := .spring, transit := .voltageDown, target := .neap } }) (cmd 0x1900 0 0);
   s.boot.powered = true ∧ ((s.chan 0).pw.transit = Transit.voltageDown ∨ (s.chan 0).pw.transit = Transit.voltageUp) ∧
     (s.chan 0).pw.settling = false) ∧
  (let s : State := holding (chan0 { carry with pw := { level := .neap, transit := .voltageUp, target := .spring } })
     (cmd 0x1900 0 0);
   s.boot.powered = true ∧ ((s.chan 0).pw.transit = Transit.voltageDown ∨ (s.chan 0).pw.transit = Transit.voltageUp) ∧
     (s.chan 0).pw.settling = false) ∧
  (let s : State := holding (chan0
     { carry with pw := { level := .neap, transit := .clockUp, target := .spring, cmd := some 5 } }) (cmd 0x1900 0 0);
   s.boot.powered = true ∧ ((s.chan 0).pw.transit = Transit.clockUp ∨ (s.chan 0).pw.transit = Transit.voltageDown ∧
     (s.chan 0).pw.settling = true ∧ (s.chan 0).pw.rampBack = false)) ∧
  (let s : State := holding (chan0
     { carry with pw := { level := .spring, transit := .voltageDown, settling := true, target := .neap, cmd := some 5 } })
     (cmd 0x1900 0 0);
   s.boot.powered = true ∧ ((s.chan 0).pw.transit = Transit.clockUp ∨ (s.chan 0).pw.transit = Transit.voltageDown ∧
     (s.chan 0).pw.settling = true ∧ (s.chan 0).pw.rampBack = false)) :=
  ⟨by decide, by decide, by decide, by decide, by decide, by decide, by decide, by decide⟩

/-- States and operands that meet the hypotheses of `Obligations.PowerComplete`, clause by clause. -/
theorem test_PowerComplete_met3 :
  (let s : State := holding (chan0
     { carry with pw := { level := .neap, transit := .voltageDown, settling := true, rampBack := true, target := .spring, cmd := some 5 } })
     (cmd 0x1900 0 0);
   s.boot.powered = true ∧ (s.chan 0).pw.transit = Transit.voltageDown ∧ (s.chan 0).pw.settling = true ∧ (s.chan
     0).pw.rampBack = true) ∧
  (let s : State := holding (chan0
     { carry with pw := { level := .neap, transit := .voltageUp, settling := true, target := .spring, cmd := some 5 } })
     (cmd 0x1900 0 0);
   s.boot.powered = true ∧ (s.chan 0).pw.transit = Transit.voltageUp ∧ (s.chan 0).pw.settling = true) ∧
  (let s : State := holding (chan0
     { carry with pw := { level := .neap, transit := .voltageUp, settling := true, target := .spring, cmd := some 5 } })
     (cmd 0x1900 0 0);
   s.boot.powered = true ∧ (s.chan 0).pw.transit = Transit.voltageUp ∧ (s.chan 0).pw.settling = true) ∧
  (let s : State := holding (chan0
     { carry with pw := { level := .neap, transit := .voltageUp, settling := true, target := .spring, cmd := some 5 } })
     (cmd 0x1900 0 0);
   s.boot.powered = true ∧ (s.chan 0).pw.transit = Transit.voltageUp ∧ (s.chan 0).pw.settling = true) ∧
  (let s : State := holding (chan0
     { carry with pw := { level := .neap, transit := .voltageUp, settling := true, target := .spring, cmd := some 5 } })
     (cmd 0x1900 0 0);
   s.boot.powered = true ∧ (s.chan 0).pw.transit = Transit.voltageUp ∧ (s.chan 0).pw.settling = true) ∧
  (let s : State := holding (chan0
     { carry with pw := { level := .neap, transit := .voltageUp, settling := true, target := .spring, cmd := some 5 } })
     (cmd 0x1900 0 0);
   s.boot.powered = true ∧ (s.chan 0).pw.transit = Transit.voltageUp ∧ (s.chan 0).pw.settling = true) ∧
  (let s : State := holding (chan0
     { carry with pw := { level := .neap, transit := .voltageUp, settling := true, target := .spring, cmd := some 5 } })
     (cmd 0x1900 0 0);
   s.boot.powered = true ∧ (s.chan 0).pw.transit = Transit.voltageUp ∧ (s.chan 0).pw.settling = true) :=
  ⟨by decide, by decide, by decide, by decide, by decide, by decide, by decide⟩

/-- States and operands that meet the hypotheses of `Obligations.PowerComplete`, clause by clause. -/
theorem test_PowerComplete_met4 :
  (let s : State := holding (chan0
     { carry with tf := {}, pw := { level := .spring, transit := .enteringSlack, cmd := some 5 } }) (cmd 0x1900 0 0);
   s.boot.powered = true ∧ (s.chan 0).pw.transit = Transit.enteringSlack ∧ (s.chan 0).pw.resetCmd = none ∧ (s.chan
     0).tf.sending = false) ∧
  (let s : State := holding (chan0
     { carry with tf := {}, pw := { level := .spring, transit := .enteringSlack, cmd := some 5, firstLatched := 3 } })
     (cmd 0x1900 0 0);
   s.boot.powered = true ∧ (s.chan 0).pw.transit = Transit.enteringSlack ∧ (s.chan 0).pw.resetCmd = none ∧ (s.chan
     0).tf.sending = false) ∧
  (let s : State := holding (chan0
     { carry with tf := {}, pw := { level := .spring, transit := .enteringDark, cmd := some 5 } }) (cmd 0x1900 0 0);
   s.boot.powered = true ∧ (s.chan 0).pw.transit = Transit.enteringDark ∧ (s.chan 0).pw.resetCmd = none ∧ (s.chan
     0).tf.sending = false) ∧
  (let s : State := holding (chan0
     { carry with tf := {}, pw := { level := .slack, armed := { timer := true }, timerDue := some 99 } }) (cmd 0x1900
     0 0);
   s.boot.powered = true ∧ (s.chan 0).pw.level = Level.slack ∧ (s.chan 0).pw.transit = Transit.none ∧ (s.chan
     0).pw.armed.timer = true ∧ (s.chan 0).pw.latched.timer = false ∧ (s.chan 0).pw.timerDue = some 99) ∧
  (let s : State := holding (chan0
     { carry with tf := {}, pw := { level := .spring, transit := .enteringSlack, armed := { timer := true }, timerDue := some 99 } })
     (cmd 0x1900 0 0);
   s.boot.powered = true ∧ (s.chan 0).pw.transit = Transit.enteringSlack ∧ (s.chan 0).pw.armed.timer = true ∧ (s.chan
     0).pw.latched.timer = false ∧ (s.chan 0).pw.timerDue = some 99) ∧
  (let s : State := holding (chan0
     { carry with tf := {}, pw := { level := .slack, armed := { light := true }, wakeLos := 40 } }) (cmd 0x1900 0 0);
   s.boot.powered = true ∧ (s.chan 0).pw.level = Level.slack ∧ (s.chan 0).pw.transit = Transit.none ∧ (s.chan
     0).pw.armed.light = true ∧ (s.chan 0).pw.latched.light = false ∧ 40 ≤ (s.chan 0).pw.wakeLos ∧ (s.chan
     0).pw.wakeLos + 2 ≤ 42) ∧
  (let s : State := holding (chan0
     { carry with tf := {}, pw := { level := .slack, transit := .leavingSlack, resume := .mean, exitCmds := [5] } })
     (cmd 0x1900 0 0);
   s.boot.powered = true ∧ (s.chan 0).pw.transit = Transit.leavingSlack ∧ (s.chan 0).keeperDown = false ∧ (∀ p ∈
     (s.chan 0).kp.lanes, p.snd.want = none)) ∧
  (let s : State := holding (chan0
     { carry with tf := {}, pw := { level := .spring, transit := .enteringDark, resetCmd := some 5 } }) (cmd 0x1900 0
     0);
   s.boot.powered = true ∧ (s.chan 0).pw.resetCmd = some 5) :=
  ⟨by decide, by decide, by decide, by decide, by decide, by decide, by decide, by decide⟩

/-- States and operands that meet the hypotheses of `Obligations.MonitorComplete`, clause by clause. -/
theorem test_MonitorComplete_met :
  (let f : Flight := cmd 0x1700 32 8 2;
   let s : State := holding up f;
   let ws : List Word := [mkWord [(0,16,0x0127),(16,16,0xFF00)]];
   f.desc.target = 32 ∧ s.Started 5 5888 f ∧ (s.conv 32).anyRunning = false ∧ 1 ≤ f.desc.p0.bits 6 0 ∧ f.desc.p0.bits
     6 0 ≤ 64 ∧ (∀ (k : Nat), k < f.desc.p0.bits 6 0 → half ws k % 64 ≤ 39 ∧ half ws k / 64 % 4 = 0)) ∧
  (let f : Flight := cmd 0x1701 32 2048 (mkWord [(0,6,39),(6,1,0),(7,1,1),(9,5,20),(14,16,65535)]);
   let s : State := holding up f;
   let ws : List Word := [];
   f.desc.target = 32 ∧ s.Started 5 5889 f ∧ 39 = f.desc.p0.bits 5 0 ∧ 39 ≤ 39 ∧ ((s.conv 32).filter 39).running =
     false ∧ 4 ≤ f.desc.p0.bits 13 9 ∧ f.desc.p0.bits 13 9 ≤ 20 ∧ (f.desc.p0.bit 6 = true ∨ f.desc.p1.bits 15 0 = 0) ∧
     (f.desc.p0.bit 7 = true ∨ 39 < 8) ∧ (f.desc.p0.bit 30 = true → coefOk (coefOf ws) = true)) ∧
  (let f : Flight := cmd 0x1701 32 2048 (mkWord [(0,6,39),(6,1,1),(7,1,1),(9,5,4),(14,16,65535),(30,1,1)]) 0xFFFF;
   let s : State := holding up f;
   let ws : List Word := List.replicate 256 (mkWord [(0,32,16384),(32,32,16384)]);
   f.desc.target = 32 ∧ s.Started 5 5889 f ∧ 39 = f.desc.p0.bits 5 0 ∧ 39 ≤ 39 ∧ ((s.conv 32).filter 39).running =
     false ∧ 4 ≤ f.desc.p0.bits 13 9 ∧ f.desc.p0.bits 13 9 ≤ 20 ∧ (f.desc.p0.bit 6 = true ∨ f.desc.p1.bits 15 0 = 0) ∧
     (f.desc.p0.bit 7 = true ∨ 39 < 8) ∧ (f.desc.p0.bit 30 = true → coefOk (coefOf ws) = true)) ∧
  (let f : Flight := cmd 0x1702 32 0 0x8000000001 0x8000000001;
   let s : State := holding (up.setConv 32 { selfcal := none }) f;
   f.desc.target = 32 ∧ s.Started 5 5890 f ∧ f.desc.p0.bit 40 = false) ∧
  (let f : Flight := cmd 0x1703 32 0 0x1C002 1;
   let s : State := holding (up.setRing 49154 { en := true, kind := .tideline }) f;
   f.desc.target = 32 ∧ s.Started 5 5891 f ∧ 49154 = f.desc.p0.bits 15 0 ∧ (s.ring 49154).en = true ∧ (s.ring
     49154).kind = RingKind.tideline ∧ (s.ring 49154).owner = f.link ∧ ringBlock 49154 = 32 ∧ (∀ (i : Nat),
     (Sparse.get [] (s.conv 32).binds i).length < 4)) ∧
  (let f : Flight := cmd 0x1704 32 0 (mkWord [(0,6,39),(6,7,64)]);
   let s : State := holding up f;
   f.desc.target = 32 ∧ s.Started 5 5892 f ∧ f.desc.p0.bits 5 0 ≤ 39 ∧ 1 ≤ f.desc.p0.bits 12 6 ∧ f.desc.p0.bits 12 6 ≤
     64 ∧ (s.conv 32).selfcal = none) ∧
  (let f : Flight := cmd 0x1705 32 0 (mkWord [(0,6,0),(6,12,4095),(18,12,100)]);
   let s : State := holding up f;
   f.desc.target = 32 ∧ s.Started 5 5893 f ∧ 0 = f.desc.p0.bits 5 0 ∧ (s.conv 32).ref ≠ 2 ∧ 1 ≤ f.desc.p0.bits 29 18 ∧
     scanPositions 0 0 (s.conv 32).scan ≠ [] ∧ f.desc.p0.bits 29 18 * (s.conv 32).passLen ≤ 16000 * (s.conv
     32).validPerPass 32 0 ∧ (s.conv 32).selfcal = none ∧ (s.conv 32).test = none) :=
  ⟨by decide, by decide, by decide +kernel, by decide, ⟨by decide, by decide, by decide, by decide, by decide, by
    decide, by decide, fun _ => Nat.zero_lt_succ _⟩, by decide, by decide⟩

/-- States and operands that meet the hypotheses of `Obligations.MonitorComplete`, clause by clause. -/
theorem test_MonitorComplete_met2 :
  (let f : Flight := cmd 0x1706 32 0 1;
   let s : State := holding up f;
   f.desc.target = 32 ∧ s.Started 5 5894 f ∧ f.desc.p0.bits 1 0 ≠ 3 ∧ (f.desc.p0.bits 1 0 = 1 → true = true)) ∧
  (let f : Flight := cmd 0x1707 32 0;
   let s : State := holding up f;
   f.desc.target = 32 ∧ s.Started 5 5895 f ∧ (s.conv 32).selfcal = none ∧ (s.conv 32).test = none ∧ s.settling (s.conv
     32) = false ∧ (32 < 32 → (s.chan 32).bu.stopped = true ∨ (s.chan 32).bu.step ≠ 2 ∧ (s.chan 32).bu.step ≠ 3)) ∧
  (let f : Flight := cmd 0x1708 32 64;
   let s : State := holding up f;
   f.desc.target = 32 ∧ s.Started 5 5896 f) ∧
  (let f : Flight := cmd 0x1709 32 32 1;
   let s : State := holding (up.setConv 32 { buffer := [[1,2,3,4]] }) f;
   f.desc.target = 32 ∧ s.Started 5 5897 f ∧ 1 ≤ f.desc.p0.bits 14 0 ∧ f.desc.p0.bits 14 0 ≤ (s.conv 32).buffer.length
     ∧ f.desc.p0.bits 14 0 ≤ 16384 ∧ (s.sram 32).bad = []) ∧
  (let f : Flight := cmd 0x1709 32 32 1;
   let s : State := holding ((up.setConv 32 { buffer := [[1,2,3,4]] }).onSram 32 fun m => m.setFlaw 0x15700000
     .double) f;
   f.desc.target = 32 ∧ s.Started 5 5897 f) ∧
  (let f : Flight := cmd 0x170A 31 0 255;
   let s : State := holding up f;
   f.desc.target = 31 ∧ s.Started 5 5898 f ∧ 31 ≠ 32 ∧ factoryLosCode ≤ f.desc.p0.bits 7 0) ∧
  (let u : Urgent := { id := some 5, input := 39, from_ := 500, convs := 3 };
   let f : Flight := { cmd 0x1704 32 0 (mkWord [(0,6,39),(6,7,2)]) with phase := .running };
   let s : State := holding (up.setConv 32 { urgents := [u] }) f;
   let codes : List (BitVec 16) := [3,4];
   s.reading 5 codes.length = some (f, u)) ∧
  (let s : State := chan0 { carry with bu := { step := 2 } };
   let codes : List (BitVec 16) := [3,4];
   s.ownRequest 0 = true ∧ 0 < codes.length ∧ codes.length ≤ 64) :=
  ⟨by decide, by decide, by decide, by decide, by decide, by decide, by decide, by decide⟩

/-- States and operands that meet the hypotheses of `Obligations.MonitorComplete`, clause by clause. -/
theorem test_MonitorComplete_met3 :
  (let s : State := chan0 { carry with bu := { step := 2 } };
   let codes : List (BitVec 16) := List.replicate 64 9;
   s.ownRequest 0 = true ∧ 0 < codes.length ∧ codes.length ≤ 64) ∧
  (let x : MonTest := { id := 5, input := 0, code := 3, count := 2, start := 0 };
   let s : State := holding (up.setConv 32 { test := some x }) (cmd 0x1708 32 64);
   s.converting 32 = true ∧ (s.conv 32).test = some x ∧ x.count = [1, 2].length ∧ ((s.conv 32).testTimes 32 x).length
     = x.count) ∧
  (let s : State := holding (up.setConv 32 { selfcal := some (5, 100) }) (cmd 0x1708 32 64);
   s.converting 32 = true ∧ (s.conv 32).selfcal = some (5, 100)) ∧
  (let s : State := holding (up.setConv 32 { selfcal := some (5, 100) }) (cmd 0x1708 32 64);
   s.converting 32 = true ∧ (s.conv 32).selfcal = some (5, 100)) ∧
  (let s : State := holding (up.setConv 32 { ref := 1 }) (cmd 0x1708 32 64);
   s.boot.powered = true ∧ (List.any s.convs fun p => decide (p.snd.ref = 1)) = true) ∧
  (let s : State := up.setConv 32 { filters := [(39, { running := true, rM1 := 1, last := some 7 })] };
   let codes : List (List (BitVec 16)) := (((s.conv 32).window 32 39).map fun w => if w.lost then [] else
     List.replicate w.times.length 700 : List (List (BitVec 16)));
   s.converting 32 = true ∧ ((s.conv 32).filter 39).running = true ∧ ((s.conv 32).filter 39).resample = false ∧ 0 <
     (s.conv 32).yielding 39 ∧ (s.conv 32).brings 32 39 codes = true) ∧
  (let s : State := up.setConv 32
     { filters := [(39, { running := true, rM1 := 1, last := some 7, tests := [(0, 9000000000)] })] };
   let codes : List (List (BitVec 16)) := (((s.conv 32).window 32 39).map fun w => if w.lost then [] else
     List.replicate w.times.length 700 : List (List (BitVec 16)));
   s.converting 32 = true ∧ ((s.conv 32).filter 39).running = true ∧ ((s.conv 32).filter 39).resample = false ∧ 0 <
     (s.conv 32).yielding 39 ∧ (s.conv 32).brings 32 39 codes = true) ∧
  (let at_ : InstantIn := { ns := 4096000 };
   let ds : List DecSample := (List.range 8).map fun k =>
     { time := 4091500 + 1000 * (8 - k), value := some 1, uncal := false, clip := false, settling := false };
   let x : Filter := { running := true, resample := true, dec := ds };
   let s : State := holding (up.setConv 32 { filters := [(39, x)] }) (cmd 0x1708 32 64);
   s.converting 32 = true ∧ x = (s.conv 32).filter 39 ∧ x.running = true ∧ x.resample = true ∧ Option.all (fun x =>
     decide (x < at_.ns)) x.reported = true ∧ at_.ns ≤ 4200000 ∧ 4200000 ≤ (s.conv 32).reportBy 39 at_.ns ∧ (s.framed
     32 (2) at_.ns = true ∨ s.tickAt 32 (2) at_ = true) ∧ x.around (↑at_.ns + ↑(x.phaseDly * 125) / 16) = some (ds,
     32) ∧ (∀ d ∈ ds, d.value.isSome = true)) :=
  ⟨by decide, by decide, by decide, by decide, by decide, by decide, by decide, by decide +kernel⟩

/-- States and operands that meet the hypotheses of `Obligations.KapraComplete`, clause by clause. -/
theorem test_KapraComplete_met :
  (let f : Flight := cmd 0x1440 0 0 0xAA;
   let s : State := holding (chan0 { carry with kp := { lanes := [(0, { state := .active })] } }) f;
   f.desc.target = 0 ∧ s.Started 5 5184 f ∧ (∀ (p : Nat), p < 4 → f.desc.laneCode p ≠ 3) ∧ (s.chan 0).pw.level.carries
     = true ∧ ((∃ p, p < 4 ∧ ((s.chan 0).kp.lane p).state = LaneState.active ∧ f.desc.laneCode p ≠ 0) → ∀ (l : Nat), l
     ∈ (s.chan 0).locals → ((s.chan 0).trib l).released = true)) ∧
  (let f : Flight := cmd 0x1440 0 0 0x00;
   let s : State := holding (chan0 { carry with kp := { lanes := [(0, { state := .active })] } }) f;
   f.desc.target = 0 ∧ s.Started 5 5184 f ∧ (∀ (p : Nat), p < 4 → f.desc.laneCode p ≠ 3) ∧ (s.chan 0).pw.level.carries
     = true ∧ ((∃ p, p < 4 ∧ ((s.chan 0).kp.lane p).state = LaneState.active ∧ f.desc.laneCode p ≠ 0) → ∀ (l : Nat), l
     ∈ (s.chan 0).locals → ((s.chan 0).trib l).released = true)) ∧
  (let f : Flight := cmd 0x1441 0 0 0xF0F0;
   let s : State := holding (chan0 carry) f;
   f.desc.target = 0 ∧ s.Started 5 5185 f) ∧
  (let f : Flight := cmd 0x1442 0 64;
   let s : State := holding (chan0 carry) f;
   f.desc.target = 0 ∧ s.Started 5 5186 f) ∧
  (let f : Flight := cmd 0x1443 0 128;
   let s : State := holding (chan0 carry) f;
   f.desc.target = 0 ∧ s.Started 5 5187 f) ∧
  (let s : State := chan0
     { carry with kp := { lanes := [(0, { state := .active, due := 5 }), (3, { state := .active, due := 5 })] } };
   s.boot.powered = true ∧ (s.lane 3).state ≠ LaneState.deep ∧ 5 ≠ 0 ∧ (5 = 1 → (s.lane 3).signal = true) ∧ (5 ≠ 1 →
     (s.lane 3).due = 5)) ∧
  (let s : State := chan0
     { carry with kp := { lanes := [(0, { state := .active, fault := 2, signal := true }), (3, { state := .active, fault := 2, signal := true })] } };
   s.boot.powered = true ∧ (s.lane 3).state ≠ LaneState.deep ∧ 1 ≠ 0 ∧ (1 = 1 → (s.lane 3).signal = true) ∧ (1 ≠ 1 →
     (s.lane 3).due = 1)) :=
  ⟨by decide, by decide, by decide, by decide, by decide, by decide, by decide⟩

/-- States and operands that meet the hypotheses of `Obligations.KapraComplete`, clause by clause. -/
theorem test_KapraComplete_met2 :
  (let s : State := chan0
     { carry with kp := { lanes := [(0, { state := .active, fault := 1, lostNs := 0 }), (3, { state := .active, fault := 1, lostNs := 0 })] } };
   s.boot.powered = true ∧ (s.lane 3).state ≠ LaneState.deep ∧ (s.lane 3).fault = 1 ∧ (s.lane 3).signal = false) ∧
  (let s : State := chan0
     { carry with kp := { lanes := [(0, { state := .active, want := some .deep }), (3, { state := .active, want := some .deep })] } };
   s.boot.powered = true ∧ (s.lane 3).want = some LaneState.deep) ∧
  (let s : State := chan0
     { carry with kp := { lanes := [(0, { state := .active, want := some .active }), (3, { state := .active, want := some .active })] } };
   s.boot.powered = true ∧ (s.lane 3).want = some LaneState.active) ∧
  (let s : State := chan0 { carry with kp := { lanes := [(3, { state := .deep, want := some .active })] } };
   s.boot.powered = true ∧ (s.lane 3).want = some LaneState.active) ∧
  (let s : State := chan0
     { carry with kp := { lanes := [(0, { state := .active, lowRun := 4 }), (3, { state := .active, lowRun := 4 })] } };
   s.boot.powered = true ∧ 4 ≤ (s.lane 3).lowRun ∧ (s.lane 3).lowArmed = true) ∧
  (let s : State := chan0
     { carry with kp := { lanes := (List.range 4).map fun p => (p, { state := .active, signal := true, blk := { lock := true }, aligned := true }) } };
   let ins : List LaneIn := (List.range 4).map fun p =>
     { blocks := (2, markerWord p 0 0 0) :: [(1, BitVec.ofNat 64 (descramble58 64 0 0 0).1)], skew := 5 };
   let rx : Nat → Lane × List Word := fun p => ((s.chan 0).kp.lane p).receive p (ins.getD p
     { blocks := [], skew := 0 });
   let ws : List Word := fourWay (rx 0).2 (rx 1).2 (rx 2).2 (rx 3).2;
   let ok : Bool := ((List.range 4).all fun p => ((s.chan 0).kp.lane p).fault = 0 && (rx p).1.due = 0) && (s.chan
     0).acceptsHost 0 ws 40;
   s.boot.powered = true ∧ (s.chan 0).tf.sending = true ∧ (s.chan 0).kp.carrying = true ∧ (s.chan 0).kp.taken = false
     ∧ (∀ (p : Nat), p < 4 → ((s.chan 0).kp.lane p).due = 0) ∧ (∀ (p : Nat), p < 4 → rx p = ((s.chan 0).kp.lane
     p).receive (4 * 0 + p) (ins.getD p { blocks := [], skew := 0 })) ∧ ws = fourWay (rx 0).snd (rx 1).snd (rx 2).snd
     (rx 3).snd ∧ ok = (((List.range 4).all fun p => decide (((s.chan 0).kp.lane p).fault = 0) && decide ((rx
     p).fst.due = 0)) && (s.chan 0).acceptsHost 0 ws 40)) ∧
  (let s : State := chan0
     { carry with kp := { lanes := (List.range 4).map fun p => (p, { state := .active, signal := true, blk := { lock := true }, aligned := true }) } };
   let ins : List LaneIn := (List.range 4).map fun p =>
     { blocks := (2, markerWord p 0 0 0) :: [(1, BitVec.ofNat 64 (descramble58 64 0 0 0).1)], skew := 5 };
   let rx : Nat → Lane × List Word := fun p => ((s.chan 0).kp.lane p).receive p (ins.getD p
     { blocks := [], skew := 0 });
   let ws : List Word := fourWay (rx 0).2 (rx 1).2 (rx 2).2 (rx 3).2;
   let ok : Bool := ((List.range 4).all fun p => ((s.chan 0).kp.lane p).fault = 0 && (rx p).1.due = 0) && (s.chan
     0).acceptsHost 0 ws 41;
   s.boot.powered = true ∧ (s.chan 0).tf.sending = true ∧ (s.chan 0).kp.carrying = true ∧ (s.chan 0).kp.taken = false
     ∧ (∀ (p : Nat), p < 4 → ((s.chan 0).kp.lane p).due = 0) ∧ (∀ (p : Nat), p < 4 → rx p = ((s.chan 0).kp.lane
     p).receive (4 * 0 + p) (ins.getD p { blocks := [], skew := 0 })) ∧ ws = fourWay (rx 0).snd (rx 1).snd (rx 2).snd
     (rx 3).snd ∧ ok = (((List.range 4).all fun p => decide (((s.chan 0).kp.lane p).fault = 0) && decide ((rx
     p).fst.due = 0)) && (s.chan 0).acceptsHost 0 ws 41)) :=
  ⟨by decide, by decide, by decide, by decide, by decide, by decide, by decide⟩

/-- States and operands that meet the hypotheses of `Obligations.FrameCommandsComplete`, clause by clause. -/
theorem test_FrameCommandsComplete_met :
  (let f : Flight := cmd 0x1480 0 64;
   let s : State := holding (chan0 carry) f;
   f.desc.target = 0 ∧ s.Started 5 5248 f) ∧
  (let f : Flight := cmd 0x1481 0 128;
   let s : State := holding (chan0 carry) f;
   f.desc.target = 0 ∧ s.Started 5 5249 f) ∧
  (let f : Flight := cmd 0x1482 0 16384 0;
   let s : State := holding (chan0 { carry with rf := { lastOh := some (9, 8, [1,2]) } }) f;
   f.desc.target = 0 ∧ s.Started 5 5250 f ∧ (s.chan 0).snapshot (f.desc.p0.bit 0) = some (9, 8, [1, 2])) ∧
  (let f : Flight := cmd 0x131 0 2;
   let s : State := holding (chan0 carry) f;
   let bs : List Byte := [1,2];
   f.desc.target = 0 ∧ s.Started 5 305 f ∧ f.desc.bufLen ≠ 0 ∧ f.desc.bufLen ≤ 65535 ∧ 0 < 32 ∧ bs.length =
     f.desc.bufLen) :=
  ⟨by decide, by decide, by decide, by decide⟩

/-- States and operands that meet the hypotheses of `Obligations.TransmitRowsComplete`, clause by clause. -/
theorem test_TransmitRowsComplete_met :
  (let s : State := chan0
     { carry with kp := { lanes := (List.range 4).map fun p => (p, { state := .active }) }, tribs := [(1, { state := .carrying, cipher := true, nomRate := 1000000 })], sl := { bankA := [(0, 0x1001)] } };
   s.boot.powered = true ∧ s.leads 0 = true ∧ (∀ m ∈ s.inStep 0, (s.chan m).tf.frame ≤ 255)) ∧
  (let s : State := chan0
     { carry with kp := { lanes := (List.range 4).map fun p => (p, { state := .active }) }, tribs := [(1, { state := .carrying, cipher := true, nomRate := 1000000 })], sl := { bankA := [(0, 0x1001)] }, tf := { sending := true, frame := 255 }, cx := [(1, { useLimit := 9, current := some { key := 7, epoch := 4 } })] };
   s.boot.powered = true ∧ s.leads 0 = true ∧ (∀ m ∈ s.inStep 0, (s.chan m).tf.frame ≤ 255)) ∧
  (let s : State := chan0
     { carry with kp := { lanes := (List.range 4).map fun p => (p, { state := .active }) }, tribs := [(1, { state := .carrying, cipher := true, nomRate := 1000000 })], sl := { bankA := [(0, 0x1001)] }, tf := { sending := true, frame := 256, mfc := 0xFFFFFFFF } };
   s.boot.powered = true ∧ s.leads 0 = true ∧ (∀ m ∈ s.inStep 0, (s.chan m).tf.frame = 256)) ∧
  (let s : State := chan0
     { carry with cx := [(1, { autoRoll := true, useLimit := 9, next := some { key := 7, epoch := 4 }, farNs := some 0, farNextEpoch := 4, farKcv := Crypto.keyCheck 7, curFrames := 589824 })] };
   s.boot.powered = true ∧ (s.chan (1 / 96)).tf.sending = true ∧ (s.chan (1 / 96)).tf.frame = 0 ∧ (s.cipherOf
     1).autoRoll = true ∧ (s.cipherOf 1).warnAt ≤ (s.cipherOf 1).curFrames ∧ (s.cipherOf 1).rollable s.now = true) ∧
  (let k : LineKey := { key := 7, epoch := 4, ageMf := 4294967040 };
   let s : State := chan0 { carry with cx := [(1, { autoRoll := true, useLimit := 9, current := some k })] };
   s.boot.powered = true ∧ (s.cipherOf 1).current = some k ∧ k.worn = true) :=
  ⟨by decide, by decide, by decide, by decide, by decide⟩

/-- States and operands that meet the hypotheses of `Obligations.ReceiveRowsComplete`, clause by clause. -/
theorem test_ReceiveRowsComplete_met :
  (let s : State := chan0 { carry with rf := { state := .inFrame, misses := 4 } };
   s.boot.powered = true ∧ s.receives 0 none = true ∧ (s.viewed 0 none).rf.state = AlignState.inFrame ∧ 4 ≤ (s.viewed
     0 none).rf.misses) ∧
  (let s : State := chan0 { carry with rf := { state := .inFrame, ohRun := 256 } };
   s.boot.powered = true ∧ (s.viewed 0 none).rf.ohRun = 256) ∧
  (let s : State := chan0 { carry with rf := { state := .inFrame, rdiRun := 4 } };
   s.boot.powered = true ∧ (s.viewed 0 none).rf.rdi = false ∧ 4 ≤ (s.viewed 0 none).rf.rdiRun) ∧
  (let s : State := chan0 { carry with rf := { state := .inFrame, rdi := true, clearRun := 4 } };
   s.boot.powered = true ∧ (s.viewed 0 none).rf.rdi = true ∧ 4 ≤ (s.viewed 0 none).rf.clearRun) ∧
  (let s : State := chan0
     { carry with pm := { mode := .hub, shared := 8, leaves := [(63, { state := .active, rf := { state := .inFrame, misses := 4 } })] } };
   s.boot.powered = true ∧ s.receives 0 (some 63) = true ∧ (s.viewed 0 (some 63)).rf.state = AlignState.inFrame ∧ 4 ≤
     (s.viewed 0 (some 63)).rf.misses) :=
  ⟨by decide, by decide, by decide, by decide, by decide⟩

/-- States and operands that meet the hypotheses of `Obligations.ReceiveRowsComplete`, clause by clause. -/
theorem test_ReceiveRowsComplete_met2 :
  (let s : State := chan0
     { carry with pm := { mode := .hub, shared := 8, leaves := [(63, { state := .active, rf := { state := .inFrame, ohRun := 256 } })] } };
   s.boot.powered = true ∧ (s.viewed 0 (some 63)).rf.ohRun = 256) ∧
  (let s : State := chan0
     { carry with pm := { mode := .hub, shared := 8, leaves := [(63, { state := .active, rf := { state := .inFrame, rdiRun := 4 } })] } };
   s.boot.powered = true ∧ (s.viewed 0 (some 63)).rf.rdi = false ∧ 4 ≤ (s.viewed 0 (some 63)).rf.rdiRun) ∧
  (let s : State := chan0
     { carry with pm := { mode := .hub, shared := 8, leaves := [(63, { state := .active, rf := { state := .inFrame, rdi := true, clearRun := 4 } })] } };
   s.boot.powered = true ∧ (s.viewed 0 (some 63)).rf.rdi = true ∧ 4 ≤ (s.viewed 0 (some 63)).rf.clearRun) ∧
  (let s : State := chan0 { carry with cx := [(1, { failRun := 16 })] };
   s.boot.powered = true ∧ (s.cipherOf 1).failRun = 16) ∧
  (let s : State := chan0 { carry with rf := { state := .inFrame, numKnown := true, mfc := 77, frame := 255 } };
   let q : QualityIn :=
     { snr := List.replicate 32 (some 3), evm := [], subs := [], cd := 4, freq := 1, clk := 2, slips := 3, adc := [(1, 2)] };
   s.boot.powered = true ∧ (s.chan 0).mayShow q.freq = true ∧ (s.chan 0).endedNow = some 77) :=
  ⟨by decide, by decide, by decide, by decide, by decide⟩

/-- States and operands that meet the hypotheses of `Obligations.MultipointCommandsComplete`, clause by clause. -/
theorem test_MultipointCommandsComplete_met :
  (let f : Flight := cmd 0x1500 0 0 1;
   let s : State := holding up f;
   f.desc.target = 0 ∧ s.Started 5 5376 f ∧ f.desc.p0.bits 1 0 ≠ 3 ∧ (s.chan 0).pw.level = Level.dark ∧ (s.chan
     0).bu.step = 0 ∧ s.groupOf 0 = none ∧ (s.onPm 0 fun x =>
     { x with mode := P2Mode.ofCode (f.desc.p0.bits 1 0) }).movesBurst 0 = false) ∧
  (let f : Flight := cmd 0x1500 0 0 2;
   let s : State := holding up f;
   f.desc.target = 0 ∧ s.Started 5 5376 f ∧ f.desc.p0.bits 1 0 ≠ 3 ∧ (s.chan 0).pw.level = Level.dark ∧ (s.chan
     0).bu.step = 0 ∧ s.groupOf 0 = none ∧ (s.onPm 0 fun x =>
     { x with mode := P2Mode.ofCode (f.desc.p0.bits 1 0) }).movesBurst 0 = false) ∧
  (let f : Flight := cmd 0x1500 0 0 1;
   let s : State := holding (chan0
     { tribs := [(1, { state := .carrying, burst := true, txBound := 5, txLat := 7 })] }) f;
   f.desc.target = 0 ∧ s.Started 5 5376 f ∧ f.desc.p0.bits 1 0 ≠ 3 ∧ (s.chan 0).pw.level = Level.dark ∧ (s.chan
     0).bu.step = 0 ∧ s.groupOf 0 = none ∧ (s.onPm 0 fun x =>
     { x with mode := P2Mode.ofCode (f.desc.p0.bits 1 0) }).movesBurst 0 = true) ∧
  (let f : Flight := cmd 0x1501 0 64;
   let s : State := holding (chan0 { carry with pm := { mode := .hub, shared := 8 } }) f;
   let ws : List Word := [mkWord [(0,6,63),(6,3,1),(9,1,1),(10,7,96),(17,11,1599),(28,11,1)], 7];
   f.desc.target = 0 ∧ s.Started 5 5377 f ∧ (s.chan 0).pm.mode = P2Mode.hub ∧ (Leaf.ofWords ws).badWords ws = false ∧
     (Leaf.ofWords ws).state ≠ LeafState.free ∧ (s.leaf 0 ((wd ws 0).bits 5 0)).state = LeafState.free ∧ (s.chan
     0).pm.conflicts ((wd ws 0).bits 5 0) (Leaf.ofWords ws) = false ∧ P2mp.fits
     { (s.chan 0).pm with leaves := (s.chan 0).pm.leaves.insert ((wd ws 0).bits 5 0) ((s.leaf 0 ((wd ws 0).bits 5 0)).write (Leaf.ofWords ws)) }
     (s.chan 0).bu.params.rate = true) ∧
  (let f : Flight := cmd 0x1501 0 64;
   let s : State := holding (chan0 { carry with pm := { mode := .hub, shared := 8 } }) f;
   let ws : List Word := [mkWord [(0,6,0),(6,3,1),(9,1,0),(17,11,0),(28,11,1600),(39,16,1)], 7];
   f.desc.target = 0 ∧ s.Started 5 5377 f ∧ (s.chan 0).pm.mode = P2Mode.hub ∧ (Leaf.ofWords ws).badWords ws = false ∧
     (Leaf.ofWords ws).state ≠ LeafState.free ∧ (s.leaf 0 ((wd ws 0).bits 5 0)).state = LeafState.free ∧ (s.chan
     0).pm.conflicts ((wd ws 0).bits 5 0) (Leaf.ofWords ws) = false ∧ P2mp.fits
     { (s.chan 0).pm with leaves := (s.chan 0).pm.leaves.insert ((wd ws 0).bits 5 0) ((s.leaf 0 ((wd ws 0).bits 5 0)).write (Leaf.ofWords ws)) }
     (s.chan 0).bu.params.rate = true) ∧
  (let f : Flight := cmd 0x1502 0 256 63;
   let s : State := holding (chan0
     { carry with pm := { mode := .hub, shared := 8, leaves := [(63, { state := .active, burst := true })] } }) f;
   f.desc.target = 0 ∧ s.Started 5 5378 f ∧ (s.chan 0).pm.mode = P2Mode.hub) :=
  ⟨by decide, by decide, by decide, by decide, by decide, by decide⟩

/-- States and operands that meet the hypotheses of `Obligations.MultipointCommandsComplete`, clause by clause. -/
theorem test_MultipointCommandsComplete_met2 :
  (let f : Flight := cmd 0x1503 0 0 (mkWord [(0,16,0xFFFF),(16,16,16),(32,8,192),(41,4,12)]);
   let s : State := holding (chan0
     { carry with pm := { mode := .hub, shared := 8, leaves := [(63, { state := .active, burst := true, burstN := 32 })] } })
     f;
   f.desc.target = 0 ∧ s.Started 5 5379 f ∧ (s.chan 0).pm.mode = P2Mode.hub ∧ (f.desc.p0.bits 31 16 = 0 ∨ 16 ≤
     f.desc.p0.bits 31 16) ∧ 64 ≤ f.desc.p0.bits 39 32 ∧ f.desc.p0.bits 39 32 ≤ 192 ∧ 3 ≤ f.desc.p0.bits 44 41 ∧
     f.desc.p0.bits 44 41 ≤ 12 ∧ (∀ q ∈ (s.chan 0).pm.leaves, q.snd.state ≠ LeafState.free → q.snd.dedMask &&&
     BitVec.ofNat 16 (f.desc.p0.bits 15 0) = 0) ∧ (P2mp.plan
     { (s.chan 0).pm with shared := BitVec.ofNat 16 (f.desc.p0.bits 15 0), discInt := f.desc.p0.bits 31 16, detThr := f.desc.p0.bits 39 32, capOn := f.desc.p0.bit 40, capThr := f.desc.p0.bits 44 41 }
     (s.chan 0).bu.params.rate).isSome = true) ∧
  (let f : Flight := cmd 0x1503 0 0 (mkWord [(0,16,1),(16,16,0),(32,8,64),(41,4,3)]);
   let s : State := holding (chan0
     { carry with pm := { mode := .hub, shared := 8, leaves := [(63, { state := .active, burst := true, burstN := 96 })] } })
     f;
   f.desc.target = 0 ∧ s.Started 5 5379 f ∧ (s.chan 0).pm.mode = P2Mode.hub ∧ (f.desc.p0.bits 31 16 = 0 ∨ 16 ≤
     f.desc.p0.bits 31 16) ∧ 64 ≤ f.desc.p0.bits 39 32 ∧ f.desc.p0.bits 39 32 ≤ 192 ∧ 3 ≤ f.desc.p0.bits 44 41 ∧
     f.desc.p0.bits 44 41 ≤ 12 ∧ (∀ q ∈ (s.chan 0).pm.leaves, q.snd.state ≠ LeafState.free → q.snd.dedMask &&&
     BitVec.ofNat 16 (f.desc.p0.bits 15 0) = 0) ∧ (P2mp.plan
     { (s.chan 0).pm with shared := BitVec.ofNat 16 (f.desc.p0.bits 15 0), discInt := f.desc.p0.bits 31 16, detThr := f.desc.p0.bits 39 32, capOn := f.desc.p0.bit 40, capThr := f.desc.p0.bits 44 41 }
     (s.chan 0).bu.params.rate).isSome = true) ∧
  (let f : Flight := cmd 0x1504 0 128 0x3F64;
   let s : State := holding (chan0
     { carry with pm := { mode := .hub, leaves := [(63, { state := .active, slotCount := 0, dedMask := 0xFFFF, ld := { rx := fullSet 64 } })] } })
     f;
   let ws : List Word := List.replicate 8 0 ++ setWords 48;
   let q : LoadSet := fullSet 48;
   f.desc.target = 0 ∧ s.Started 5 5380 f ∧ (s.chan 0).pm.mode = P2Mode.hub ∧ 63 = f.desc.p0.bits 13 8 ∧ lxLead
     (f.desc.p0.bits 6 0) = some 100 ∧ requestClear ws = true ∧ (requestContent ws).fwd = none ∧ (requestContent
     ws).rev = some q ∧ (s.leaf 0 63).burst = false ∧ (s.leaf 0 63).assigned = true ∧ ((s.enterPair 0 63).chan
     0).leafSetReason 63 ((s.enterPair 0 63).chan 0).ld.rx q = 0 ∧ q ≠ ((s.enterPair 0 63).chan 0).ld.rx ∧
     (s.enterPair 0 63).lxBlocked 0 = false) ∧
  (let f : Flight := cmd 0x1505 0 256 0;
   let s : State := holding (chan0
     { carry with pm := { mode := .hub, shared := 8, leaves := [(63, { state := .active, burst := true })] } }) f;
   f.desc.target = 0 ∧ s.Started 5 5381 f ∧ (s.chan 0).pm.mode = P2Mode.hub) ∧
  (let f : Flight := cmd 0x1506 0 256 0;
   let s : State := holding (chan0 { carry with pm := { mode := .leaf } }) f;
   f.desc.target = 0 ∧ s.Started 5 5382 f ∧ (s.chan 0).pm.mode = P2Mode.leaf) ∧
  (let f : Flight := cmd 0x1507 0 0 1 7;
   let s : State := holding (chan0 { carry with pm := { mode := .leaf } }) f;
   f.desc.target = 0 ∧ s.Started 5 5383 f ∧ (s.chan 0).pm.mode = P2Mode.leaf ∧ (f.desc.p0.bit 0 = true → f.desc.p1 ≠
     0)) ∧
  (let f : Flight := cmd 0x1507 0 0 0 0;
   let s : State := holding (chan0 { carry with pm := { mode := .leaf, joining := true, join := 3 } }) f;
   f.desc.target = 0 ∧ s.Started 5 5383 f ∧ (s.chan 0).pm.mode = P2Mode.leaf ∧ (f.desc.p0.bit 0 = true → f.desc.p1 ≠
     0)) :=
  ⟨by decide, by decide, by decide, by decide, by decide, by decide, by decide⟩

/-- States and operands that meet the hypotheses of `Obligations.MultipointRowsComplete`, clause by clause. -/
theorem test_MultipointRowsComplete_met :
  (let ws : List Word := emptyMap;
   let s : State := chan0 { carry with pm := { mode := .leaf, joining := true, gmIn := ws :: List.replicate 31 [] } };
   s.boot.powered = true ∧ (s.chan 0).pm.mode = P2Mode.leaf ∧ (s.chan 0).pm.joining = true ∧ (s.chan 0).pm.mapIn =
     some ws) ∧
  (let s : State := chan0
     { carry with opt := { laserOn := true, shutter := false }, pm := { mode := .leaf, joining := true, join := 1, serial := 5, maps := [{ gov := 0, grants := [], burstN := 32, disc := some 3 }] } };
   s.boot.powered = true ∧ (s.chan 0).pm.mode = P2Mode.leaf ∧ (s.chan 0).pm.joining = true ∧ (s.chan 0).pm.join = 1 ∧
     (s.chan 0).tf.sending = true ∧ s.emits 0 = true ∧ ((List.find? (fun m => decide (m.gov = (s.chan 0).tf.mfc))
     (s.chan 0).pm.maps).bind fun x => x.disc) = some 3) ∧
  (let s : State := chan0
     { carry with opt := { laserOn := true, shutter := false }, pm := { mode := .leaf, joining := true, join := 1, serial := 5, skip := 2, maps := [{ gov := 0, grants := [], burstN := 32, disc := some 3 }] } };
   s.boot.powered = true ∧ (s.chan 0).pm.mode = P2Mode.leaf ∧ (s.chan 0).pm.joining = true ∧ (s.chan 0).pm.join = 1 ∧
     (s.chan 0).tf.sending = true ∧ s.emits 0 = true ∧ ((List.find? (fun m => decide (m.gov = (s.chan 0).tf.mfc))
     (s.chan 0).pm.maps).bind fun x => x.disc) = some 3) ∧
  (let g : Grant := { subc := 3, start := 2000, cells := 2, leaf := 63 };
   let m : LeafMap := { gov := 0, grants := [g], burstN := 32, disc := none };
   let s : State := chan0
     { carry with opt := { laserOn := true, shutter := false }, pm := { mode := .leaf, joining := true, join := 3, silent := false, burst := true, leafNo := 63, maps := [m] } };
   s.boot.powered = true ∧ (s.chan 0).pm.mode = P2Mode.leaf ∧ (s.chan 0).pm.burst = true ∧ (s.chan 0).pm.upstream =
     true ∧ (s.chan 0).tf.sending = true ∧ s.emits 0 = true ∧ List.find? (fun m => decide (m.gov = (s.chan 0).tf.mfc))
     (s.chan 0).pm.maps = some m ∧ List.find? (fun g => decide (g.subc = 3) && decide (g.start = 2000)) m.grants =
     some g) ∧
  (let s : State := chan0
     { carry with pm := { mode := .hub, shared := 8, leaves := [(63, { state := .active, burst := true, burstN := 32 })] } };
   s.boot.powered = true ∧ s.sharedSub 0 3 = true ∧ (s.receiver 0 3).rx = BurstRx.idle ∧ (s.chan 0).pm.detThr ≤ (102,
     7).fst) ∧
  (let s : State := chan0
     { carry with pm := { mode := .hub, shared := 8, leaves := [(63, { state := .active, burst := true, burstN := 32, bursts := 0 })], receivers := [(3, { rx := .unconfirmed 102 7 })] } };
   s.boot.powered = true ∧ s.sharedSub 0 3 = true ∧ (s.receiver 0 3).rx = BurstRx.unconfirmed 102 7 ∧ (s.chan
     0).headerPasses 3 2047 1 = false) :=
  ⟨⟨by decide, by decide, by decide, emptyMap_in { mode := .leaf, joining := true }⟩, by decide, by decide, by decide,
    by decide, by decide⟩

/-- States and operands that meet the hypotheses of `Obligations.MultipointRowsComplete`, clause by clause; the rows of a burst are
codewords shorter than 940 bits here, which the kernel evaluates soon. -/
theorem test_MultipointRowsComplete_met2 :
  (let w : Word := (let w := mkWord [(0,7,63),(8,12,4095)]; w ||| mkWord [(48,16,crc16ccitt ((Word.bytes w).take
     6))]);
   let s : State := chan0
     { carry with pm := { mode := .hub, shared := 8, leaves := [(63, { state := .active, burst := true, burstN := 32, bursts := 0 })], receivers := [(3, { rx := .unconfirmed 102 7 })] } };
   s.boot.powered = true ∧ s.sharedSub 0 3 = true ∧ (s.receiver 0 3).rx = BurstRx.unconfirmed 102 7 ∧ (s.chan
     0).headerPasses 3 2047 w = true ∧ w.bits 6 0 ≠ 127) ∧
  (let x : BurstIn := { rows := [[], []], snr := 40 };
   let s : State := chan0
     { carry with pm := { mode := .hub, shared := 8, leaves := [(63, { state := .active, burst := true, burstN := 32, bursts := 0 })], receivers := [(3, { rx := .confirmed 102 63 2 false 5 0 })] } };
   s.boot.powered = true ∧ s.sharedSub 0 3 = true ∧ (s.receiver 0 3).rx = BurstRx.confirmed 102 63 x.rows.length false
     5 0) ∧
  (let x : BurstIn :=
     { rows := [harbourRow (wordsBits [mkWord [(0,3,1),(3,7,95),(10,8,10),(18,24,5),(48,15,1)], 0x77, 0x9999])], snr := 300 };
   let s : State := holding (chan0
     { carry with tf := { sending := true, mfc := 9 }, pm := { mode := .hub, shared := 8, leaves := [(63, { state := .active, burst := true, burstN := 32, delivered := some (5, 9) }), (2, { state := .expected, serial := 0x1234 })], receivers := [(3, { rx := .confirmed 102 63 1 false 1025 7 })] } })
     (cmd 0x100 32 0);
   let items : List BurstItem := burstItems (burstWords x).length (burstWords x);
   s.boot.powered = true ∧ s.sharedSub 0 3 = true ∧ (s.receiver 0 3).rx = BurstRx.confirmed 102 63 x.rows.length false
     1025 7 ∧ items = burstItems (burstWords x).length (burstWords x) ∧
     (items.all fun | .frame _ _ _ => true | _ => false) = true) ∧
  (let x : BurstIn := { rows := [harbourRow (wordsBits [4, 4660])], snr := 300 };
   let s : State := holding (chan0
     { carry with tf := { sending := true, mfc := 9 }, pm := { mode := .hub, shared := 8, leaves := [(63, { state := .active, burst := true, burstN := 32, delivered := some (5, 9) }), (2, { state := .expected, serial := 0x1234 })], receivers := [(3, { rx := .confirmed 102 63 1 true 1025 7 })] } })
     (cmd 0x100 32 0);
   s.boot.powered = true ∧ s.sharedSub 0 3 = true ∧ (s.receiver 0 3).rx = BurstRx.confirmed 102 63 x.rows.length true
     1025 7 ∧ List.findSome? (fun x => match x with | BurstItem.discovery true w => some w | x => none) (burstItems
     (burstWords x).length (burstWords x)) = some 4660) ∧
  (let s : State := chan0
     { carry with tf := { sending := true, mfc := 10 }, pm := { mode := .hub, shared := 8, leaves := [(63, { state := .active, burst := true, burstN := 32, delivered := some (4, 254) })] } };
   s.boot.powered = true ∧ (s.chan 0).awake = true ∧ (s.chan 0).pm.mode = P2Mode.hub ∧ (s.leaf 0 63).burst = true ∧
     (s.leaf 0 63).state = LeafState.active ∧ (∀ (d : BitVec 32 × Nat), (s.leaf 0 63).delivered = some d → nextNumbers
     d.fst d.snd = (4, 255)) ∧ (s.chan 0).instantPast 4 255 = true) ∧
  (let s : State := chan0
     { carry with pm := { mode := .hub, shared := 8, leaves := [(63, { state := .active, burst := true, burstN := 32, silent := 16 })] } };
   s.boot.powered = true ∧ (s.chan 0).awake = true ∧ (s.chan 0).pm.mode = P2Mode.hub ∧ (s.leaf 0 63).state =
     LeafState.active ∧ ((s.leaf 0 63).burst = true ∧ 16 ≤ (s.leaf 0 63).silent ∨ (s.leaf 0 63).burst = false ∧
     (s.leaf 0 63).lostNs.isSome = true)) ∧
  (let s : State := chan0
     { carry with pm := { mode := .hub, shared := 8, leaves := [(63, { state := .active, burst := false, dedMask := 1, lostNs := some 5 })] } };
   s.boot.powered = true ∧ (s.chan 0).awake = true ∧ (s.chan 0).pm.mode = P2Mode.hub ∧ (s.leaf 0 63).state =
     LeafState.active ∧ ((s.leaf 0 63).burst = true ∧ 16 ≤ (s.leaf 0 63).silent ∨ (s.leaf 0 63).burst = false ∧
     (s.leaf 0 63).lostNs.isSome = true)) :=
  ⟨by decide, by decide, ⟨by decide, by decide, by decide, rfl, by decide +kernel⟩, ⟨by decide, by decide, by decide,
    by decide +kernel⟩, by decide, by decide, by decide⟩

/-- States and operands that meet the hypotheses of `Obligations.ShoreCommandsComplete`, clause by clause. -/
theorem test_ShoreCommandsComplete_met :
  (let f : Flight := cmd 0x1C00 32 32;
   let s : State := holding (up.onShore fun x => { x with address := 3, downNbr := true, upNbr := true }) f;
   s.Started 5 7168 f) ∧
  (let f : Flight := cmd 0x1C01 32 64;
   let s : State := holding (up.onShore fun x => { x with address := 3, downNbr := true, upNbr := true }) f;
   s.Started 5 7169 f) ∧
  (let f : Flight := cmd 0x1C02 32 64 2046;
   let s : State := holding (up.onShore fun x => { x with address := 3, downNbr := true, upNbr := true }) f;
   s.Started 5 7170 f ∧ 2046 = f.desc.shoreDst ∧ s.shore.address ≠ 0 ∧ 2046 ≠ 0 ∧ 2046 ≠ 2047 ∧ 2046 ≠ s.shore.address) ∧
  (let f : Flight := cmd 0x1C02 32 64 3;
   let s : State := holding (up.onShore fun x => { x with address := 3, downNbr := true, upNbr := true }) f;
   s.Started 5 7170 f ∧ f.desc.shoreDst = s.shore.address ∧ s.shore.address ≠ 0 ∧ s.shore.address ≠ 2047) ∧
  (let f : Flight := cmd 0x1C03 32 3 2046;
   let s : State := holding (up.onShore fun x => { x with address := 3, downNbr := true, upNbr := true }) f;
   let bs : List Byte := [1,2,3];
   s.Started 5 7171 f ∧ 2046 = f.desc.shoreDst ∧ s.shore.address ≠ 0 ∧ 2046 ≠ 0 ∧ 1 ≤ f.desc.bufLen ∧ f.desc.bufLen ≤
     1456 ∧ bs.length = f.desc.bufLen ∧ 2046 ≠ s.shore.address) ∧
  (let f : Flight := cmd 0x1C03 32 3 2;
   let s : State := holding (up.onShore fun x => { x with address := 3, downNbr := true, upNbr := true }) f;
   let bs : List Byte := [1,2,3];
   s.Started 5 7171 f ∧ 2 = f.desc.shoreDst ∧ s.shore.address ≠ 0 ∧ 2 ≠ 0 ∧ 1 ≤ f.desc.bufLen ∧ f.desc.bufLen ≤ 1456 ∧
     bs.length = f.desc.bufLen ∧ 2 ≠ s.shore.address) :=
  ⟨by decide, by decide, by decide, by decide, by decide, by decide⟩

/-- States and operands that meet the hypotheses of `Obligations.ShoreCommandsComplete`, clause by clause. -/
theorem test_ShoreCommandsComplete_met2 :
  (let f : Flight := cmd 0x1C03 32 3 2047;
   let s : State := holding (up.onShore fun x => { x with address := 3, downNbr := true, upNbr := true }) f;
   let bs : List Byte := [1,2,3];
   s.Started 5 7171 f ∧ 2047 = f.desc.shoreDst ∧ s.shore.address ≠ 0 ∧ 2047 ≠ 0 ∧ 1 ≤ f.desc.bufLen ∧ f.desc.bufLen ≤
     1456 ∧ bs.length = f.desc.bufLen ∧ 2047 ≠ s.shore.address) ∧
  (let f : Flight := cmd 0x1C03 32 3 3;
   let s : State := holding (up.onShore fun x => { x with address := 3, downNbr := true, upNbr := true }) f;
   let bs : List Byte := [1,2,3];
   s.Started 5 7171 f ∧ f.desc.shoreDst = s.shore.address ∧ s.shore.address ≠ 0 ∧ 1 ≤ f.desc.bufLen ∧ f.desc.bufLen ≤
     1456 ∧ bs.length = f.desc.bufLen) ∧
  (let f : Flight := cmd 0x1C04 32 0 0x10003;
   let s : State := holding (up.onShore fun x => { x with address := 3, downNbr := true, upNbr := true }) f;
   s.Started 5 7172 f ∧ s.shore.address ≠ 0 ∧ f.desc.shoreDst ≠ 0) ∧
  (let f : Flight := cmd 0x1C04 32 0 0x107FF;
   let s : State := holding (up.onShore fun x => { x with address := 3, downNbr := true, upNbr := true }) f;
   s.Started 5 7172 f ∧ s.shore.address ≠ 0 ∧ f.desc.shoreDst ≠ 0) ∧
  (let f : Flight := cmd 0x1C04 32 0 0x10002;
   let s : State := holding (up.onShore fun x => { x with address := 3, downNbr := true, upNbr := true }) f;
   s.Started 5 7172 f ∧ s.shore.address ≠ 0 ∧ f.desc.shoreDst ≠ 0) ∧
  (let f : Flight := cmd 0x1C04 32 0 0x10004 9;
   let s : State := holding (up.onShore fun x => { x with address := 3, downNbr := true, upNbr := true }) f;
   s.Started 5 7172 f ∧ s.shore.address ≠ 0 ∧ f.desc.shoreDst ≠ 0) :=
  ⟨by decide, by decide, by decide, by decide, by decide, by decide⟩

/-- States and operands that meet the hypotheses of `Obligations.ShoreFramesHandled`, clause by clause. -/
theorem test_ShoreFramesHandled_met :
  (let q : Machine.ShoreFrame := { dst := 0, src := 2, typ := 6, hops := 2045, seq := 4, body := [] };
   let s : State := up.onShore fun x => { x with address := 3, downNbr := true, upNbr := true };
   q.hops < 2046 ∧ s.shoreRow q 6 = true ∧ q.dst = 0) ∧
  (let q : Machine.ShoreFrame := { dst := 0, src := 2, typ := 6, hops := 2045, seq := 4, body := [] };
   let s : State := up.onShore fun x => { x with address := 3, downNbr := true, upNbr := true };
   q.hops < 2046 ∧ s.shoreRow q 6 = true ∧ q.dst = 0) ∧
  (let q : Machine.ShoreFrame := { dst := 0, src := 2, typ := 0, hops := 2045, seq := 4, body := leBytes 8 2046 };
   let s : State := up.onShore fun x => { x with address := 3, downNbr := true, upNbr := true };
   q.hops < 2046 ∧ s.shoreRow q 0 = true ∧ q.dst = 0 ∧ (q.word 0).bits 10 0 ≠ s.shore.address) ∧
  (let q : Machine.ShoreFrame := { dst := 0, src := 2, typ := 0, hops := 2045, seq := 4, body := leBytes 8 2047 };
   let s : State := up.onShore fun x => { x with address := 3, downNbr := true, upNbr := true };
   q.hops < 2046 ∧ s.shoreRow q 0 = true ∧ q.dst = 0 ∧ (q.word 0).bits 10 0 ≠ s.shore.address) ∧
  (let q : Machine.ShoreFrame := { dst := 3, src := 2, typ := 1, hops := 2045, seq := 4, body := [] };
   let s : State := up.onShore fun x => { x with address := 3, downNbr := true, upNbr := true };
   q.hops < 2046 ∧ s.shoreRow q 1 = true ∧ q.dst = s.shore.address) ∧
  (let q : Machine.ShoreFrame := { dst := 3, src := 2, typ := 2, hops := 2045, seq := 4, body := [1] };
   let w : InvWait := { id := 5, dst := 2, due := 9 };
   let s : State := up.onShore fun x => { x with address := 3, invWaits := [w] };
   q.hops < 2046 ∧ s.shoreRow q 2 = true ∧ q.dst = s.shore.address ∧ List.find? (fun w => decide (w.dst = q.src))
     s.shore.invWaits = some w) ∧
  (let q : Machine.ShoreFrame := { dst := 2047, src := 2, typ := 3, hops := 2045, seq := 4, body := leBytes 8 1 };
   let s : State := up.onShore fun x => { x with address := 1, head := true };
   q.hops < 2046 ∧ s.shoreRow q 3 = true ∧ s.shore.takes q.dst = true ∧ s.shore.head = true) :=
  ⟨by decide, by decide, by decide, by decide, by decide, by decide, by decide⟩

/-- States and operands that meet the hypotheses of `Obligations.ShoreFramesHandled`, clause by clause. -/
theorem test_ShoreFramesHandled_met2 :
  (let q : Machine.ShoreFrame := { dst := 2047, src := 2, typ := 4, hops := 2045, seq := 4, body := leBytes 8 1 };
   let s : State := up.onShore fun x => { x with address := 3, downNbr := true, upNbr := true };
   q.hops < 2046 ∧ s.shoreRow q 4 = true ∧ s.shore.takes q.dst = true) ∧
  (let q : Machine.ShoreFrame := { dst := 3, src := 2, typ := 4, hops := 2045, seq := 4, body := leBytes 8 0 };
   let s : State := up.onShore fun x => { x with address := 3, laserOff := true };
   q.hops < 2046 ∧ s.shoreRow q 4 = true ∧ s.shore.takes q.dst = true) ∧
  (let q : Machine.ShoreFrame := { dst := 3, src := 2, typ := 5, hops := 2045, seq := 4, body := [1] };
   let s : State := up.onShore fun x => { x with address := 3, downNbr := true, upNbr := true };
   q.hops < 2046 ∧ s.shoreRow q 5 = true ∧ q.body.length ≠ 0 ∧ s.shore.takes q.dst = true ∧ s.boot.running = true ∧
     s.messageRing 32 (some s.primary) = none) ∧
  (let q : Machine.ShoreFrame := { dst := 3, src := 2, typ := 5, hops := 2045, seq := 4, body := [1, 2, 3] };
   let g : Flight := { cmd 0x130 32 4096 with ring := 49155, phase := .running };
   let s : State := (holding (up.setRing 49155 { en := true, kind := .ohmReceive, cq := 49153, posted := [5, 7] })
     g).onShore fun x => { x with address := 3, downNbr := true, upNbr := true };
   q.hops < 2046 ∧ s.shoreRow q 5 = true ∧ q.body.length ≠ 0 ∧ s.shore.takes q.dst = true ∧ s.boot.running = true ∧
     s.messageRing 32 (some s.primary) = some 49155 ∧ (s.ring 49155).posted.head?.bind s.flight? = some g) ∧
  (let q : Machine.ShoreFrame := { dst := 2047, src := 2, typ := 5, hops := 2045, seq := 4, body := [1, 2, 3] };
   let g : Flight := { cmd 0x130 32 4096 with ring := 49155, phase := .running };
   let s : State := (holding (up.setRing 49155 { en := true, kind := .ohmReceive, cq := 49153, posted := [5, 7] })
     g).onShore fun x => { x with address := 3, downNbr := true, upNbr := true };
   q.hops < 2046 ∧ s.shoreRow q 5 = true ∧ q.body.length ≠ 0 ∧ s.shore.takes q.dst = true ∧ s.boot.running = true ∧
     s.messageRing 32 (some s.primary) = some 49155 ∧ (s.ring 49155).posted.head?.bind s.flight? = some g) ∧
  (let q : Machine.ShoreFrame := { dst := 2046, src := 2, typ := 5, hops := 2045, seq := 4, body := [1] };
   let s : State := up.onShore fun x => { x with address := 3, downNbr := true, upNbr := true };
   q.hops < 2046 ∧ s.shoreRow q 5 = true ∧ q.body.length ≠ 0 ∧ s.shore.address ≠ 0 ∧ s.shore.address < q.dst ∧ q.dst ≠
     2047 ∧ s.shore.downNbr = true ∧ s.shore.downQueue.length < 32) ∧
  (let q : Machine.ShoreFrame := { dst := 2046, src := 2, typ := 5, hops := 2045, seq := 4, body := [1] };
   let s : State := up.onShore fun x => { x with address := 3, downNbr := true, upNbr := true };
   q.hops < 2046 ∧ s.boot.powered = true) :=
  ⟨by decide, by decide, by decide, by decide, by decide, by decide, by decide⟩

/-- States and operands that meet the hypotheses of `Obligations.ShoreRowsComplete`, clause by clause. -/
theorem test_ShoreRowsComplete_met :
  (let s : State := holding (up.onShore fun x => { x with address := 1 }) (cmd 0x1C02 32 64);
   s.boot.powered = true) ∧
  (let s : State := holding (up.onShore fun x => { x with address := 1, downNbr := true }) (cmd 0x1C02 32 64);
   s.boot.powered = true ∧ s.shore.downNbr = true) ∧
  (let s : State := holding (up.onShore fun x => { x with address := 1, upNbr := true }) (cmd 0x1C02 32 64);
   s.boot.powered = true ∧ s.shore.upNbr = true) ∧
  (let s : State := holding (up.onShore fun x => { x with address := 0 }) (cmd 0x1C02 32 64);
   s.boot.powered = true ∧ s.shore.address = 0 ∧ s.shore.tA = none ∧ s.shore.upHello = false) ∧
  (let s : State := holding (up.onShore fun x => { x with address := 2046 }) (cmd 0x1C02 32 64);
   s.boot.powered = true ∧ s.shore.address ≠ 0) ∧
  (let s : State := holding (up.onShore fun x => { x with alarm1 := some 9 }) (cmd 0x1C02 32 64);
   s.boot.powered = true ∧ s.shore.alarm1 = some 9) ∧
  (let s : State := holding (up.onShore fun x => { x with alarm2 := some 9 }) (cmd 0x1C02 32 64);
   s.boot.powered = true ∧ s.shore.alarm2 = some 9) ∧
  (let s : State := { up with boot := { up.boot with running := false } };
   s.boot.powered = true ∧ s.boot.running = false ∧ s.shore.alarm2 = none) :=
  ⟨by decide, by decide, by decide, by decide, by decide, by decide, by decide, by decide⟩

/-- States and operands that meet the hypotheses of `Obligations.ShoreRowsComplete`, clause by clause. -/
theorem test_ShoreRowsComplete_met2 :
  (let s : State := holding (up.onShore fun x => { x with laserOff := true, holdDue := some 9 }) (cmd 0x1C02 32 64);
   s.boot.powered = true ∧ s.shore.laserOff = true ∧ s.shore.holdDue = some 9) ∧
  (let s : State := holding (up.onShore fun x => { x with address := 0 }) (cmd 0x1C02 32 64);
   s.boot.powered = true ∧ s.boot.laserOffN = false) ∧
  (let s : State := { up with boot := { up.boot with laserOffN := true } };
   s.boot.powered = true ∧ s.boot.laserOffN = true) ∧
  (let s : State := holding (up.onShore fun x => { x with address := 0 }) (cmd 0x1C02 32 64);
   s.boot.powered = true ∧ s.boot.derating = false) ∧
  (let s : State := { up with boot := { up.boot with derating := true, hot := true } };
   s.boot.powered = true ∧ s.boot.derating = true) ∧
  (let w : InvWait := { id := 5, dst := 2, due := 9 };
   let s : State := holding (up.onShore fun x => { x with invWaits := [w] }) (cmd 0x1C02 32 64);
   s.boot.powered = true ∧ List.find? (fun w => decide (w.id = 5)) s.shore.invWaits = some w) ∧
  (let q : ShoreQueued := { frame := { dst := 2, src := 3, typ := 5, hops := 1, seq := 3, body := [1] } };
   let s : State := holding (up.onShore fun x => { x with downQueue := [q] }) (cmd 0x1C02 32 64);
   s.boot.powered = true ∧ s.shore.downQueue.head? = some q) ∧
  (let q : ShoreQueued := { frame := { dst := 2, src := 3, typ := 5, hops := 1, seq := 3, body := [1] } };
   let s : State := holding (up.onShore fun x => { x with upQueue := [q] }) (cmd 0x1C02 32 64);
   s.boot.powered = true ∧ s.shore.upQueue.head? = some q) :=
  ⟨by decide, by decide, by decide, by decide, by decide, by decide, by decide, by decide⟩

/-- States and operands that meet the hypotheses of `Obligations.AgeingComplete`, clause by clause. -/
theorem test_AgeingComplete_met :
  (let f : Flight := cmd 0x1B00 0 0 (mkWord [(0,8,64),(8,2,2),(10,1,1),(11,7,100)]);
   let s : State := holding (chan0 carry) f;
   f.desc.target = 0 ∧ s.Started 5 6912 f ∧ f.desc.p0.bits 7 0 ≤ 64 ∧ f.desc.p0.bits 9 8 ≠ 3 ∧ (lxLead (f.desc.p0.bits
     17 11)).isSome = true ∧ (f.desc.p0.bits 9 8 = 0 ∨ (s.chan 0).pm.mode = P2Mode.pointToPoint)) ∧
  (let f : Flight := cmd 0x1B01 0 32;
   let s : State := holding (chan0 carry) f;
   f.desc.target = 0 ∧ s.Started 5 6913 f) ∧
  (let f : Flight := cmd 0x1B02 0 256 (mkWord [(0,32,7),(32,10,1)]);
   let s : State := holding (chan0
     { carry with age := { hourly := [{ seq := 7, daily := false, powerH := 1, upH := 1, mean := {} }, { seq := 8, daily := false, powerH := 1, upH := 1, mean := {} }] } })
     f;
   let rs : List TideRecord := [{ seq := 7, daily := false, powerH := 1, upH := 1, mean := {} }];
   f.desc.target = 0 ∧ s.Started 5 6914 f ∧ 1 = f.desc.p0.bits 41 32 ∧ 1 ≤ 1 ∧ 1 ≤ 512 ∧ (rs = List.filter (fun r =>
     decide (f.desc.p0.bits 31 0 ≤ r.seq.toNat) && decide (r.seq.toNat < f.desc.p0.bits 31 0 + 1)) (if f.desc.p0.bit
     42 = true then (s.chan 0).age.daily else (s.chan 0).age.hourly))) ∧
  (let ws : List Word := setWords 40;
   let f : Flight := cmd 0x1B03 0 128;
   let s : State := holding (chan0 { carry with age := { proposal := some ws } }) f;
   f.desc.target = 0 ∧ s.Started 5 6915 f ∧ (s.chan 0).age.proposal = some ws) ∧
  (let f : Flight := cmd 0x1B03 0 128;
   let s : State := holding (chan0 carry) f;
   f.desc.target = 0 ∧ s.Started 5 6915 f ∧ (s.chan 0).age.proposal = none) :=
  ⟨by decide, by decide, by decide, by decide, by decide⟩

/-- States and operands that meet the hypotheses of `Obligations.AgeingComplete`, clause by clause. -/
theorem test_AgeingComplete_met2 :
  (let f : Flight := cmd 0x1B04 0 256;
   let s : State := holding (chan0 { carry with age := { shortfall := some [1, 2, 3, 4] } }) f;
   let bs : List Byte := [1, 0, 2, 0, 3, 0, 4, 0, 255, 255];
   f.desc.target = 0 ∧ s.Started 5 6916 f ∧ bs = List.flatMap (leBytes 2) ((s.chan 0).age.shortfall.getD [] ++
     [65535]) ∧ bs.length ≤ f.desc.bufLen) ∧
  (let f : Flight := cmd 0x1B04 0 8;
   let s : State := holding (chan0 { carry with age := { shortfall := some [1, 2, 3, 4] } }) f;
   let bs : List Byte := [1, 0, 2, 0, 3, 0, 4, 0, 255, 255];
   f.desc.target = 0 ∧ s.Started 5 6916 f ∧ bs = List.flatMap (leBytes 2) ((s.chan 0).age.shortfall.getD [] ++
     [65535]) ∧ f.desc.bufLen < bs.length) ∧
  (let s : State := chan0 { carry with age := { samples := [{}] } };
   s.boot.powered = true ∧ (s.chan 0).awake = true) ∧
  (let s : State := chan0 { carry with age := { samples := [{}], upMin := 119 } };
   s.boot.powered = true) ∧
  (let s : State := chan0
     { carry with age := { hours := 24, dailySeq := 4, today := [{ seq := 7, daily := false, powerH := 1, upH := 1, mean := {} }] } };
   s.boot.powered = true ∧ nextMark s (s.chan 0).age.days 86400000000000 ≤ (s.chan 0).age.hours * 3600000000000) :=
  ⟨by decide, by decide, by decide, by decide, by decide⟩

/-- States and operands that meet the hypotheses of `Obligations.FaultsAndDeadlines`, clause by clause. -/
theorem test_FaultsAndDeadlines_met :
  (let s : State := (chan0 carry);
   s.boot.powered = true ∧ 1 ≠ 0 ∧ inside (325058560) 8 (sramBase 31) (sramSize 31) = true ∧ 325058560 % 8 = 0 ∧
     kindPlace 1 31 (325058560) = true) ∧
  (let s : State := (chan0 carry);
   s.boot.powered = true ∧ 2 ≠ 0 ∧ inside (335544328) 8 (sramBase 32) (sramSize 32) = true ∧ 335544328 % 8 = 0 ∧
     kindPlace 2 32 (335544328) = true) ∧
  (let s : State := (chan0 carry);
   s.boot.powered = true ∧ 6 ≠ 0 ∧ inside (385875960) 8 (sramBase 32) (sramSize 32) = true ∧ 385875960 % 8 = 0 ∧
     kindPlace 6 32 (385875960) = true) ∧
  (let s : State := (chan0 carry);
   s.boot.powered = true ∧ 4 ≠ 0 ∧ inside (256) 8 (sramBase 0) (sramSize 0) = true ∧ 256 % 8 = 0 ∧ kindPlace 4 0 (256)
     = true) ∧
  (let s : State := (chan0 carry);
   s.boot.powered = true ∧ 5 ≠ 0 ∧ inside (9437176) 8 (sramBase 0) (sramSize 0) = true ∧ 9437176 % 8 = 0 ∧ kindPlace 5
     0 (9437176) = true) ∧
  (let s : State := (chan0 carry);
   s.boot.powered = true ∧ 3 ≠ 0 ∧ inside (360710144) 8 (sramBase 32) (sramSize 32) = true ∧ 360710144 % 8 = 0 ∧
     kindPlace 3 32 (360710144) = true) :=
  ⟨by decide, by decide, by decide, by decide, by decide, by decide⟩

/-- States and operands that meet the hypotheses of `Obligations.FaultsAndDeadlines`, clause by clause. -/
theorem test_FaultsAndDeadlines_met2 :
  (let s : State := chan0 { carry with keeperDown := true };
   s.boot.powered = true ∧ (s.chan 0).keeperDown = true) ∧
  (let f : Flight := { cmd 0x1B03 0 128 with deadline := some 100 };
   let s : State := holding (chan0 carry) f;
   s.flight? 5 = some f ∧ s.boot.powered = true ∧ (f.limited = true → f.phase ≠ Phase.fetched) ∧ s.dueAt f = some 100
     ∧ (f.desc.opcode ≠ 5120 ∨ f.phase ≠ Phase.running) ∧ (f.desc.opcode = 5136 → f.phase ≠ Phase.running)) ∧
  (let f : Flight := { cmd 0x1440 0 0 0xAA with deadline := some 100, phase := .running };
   let s : State := holding (chan0
     { carry with kp := { lanes := [(0, { state := .active, want := some .deep })], cmds := [(5, List.replicate 4 .deep, List.replicate 4 .active)] } })
     f;
   s.flight? 5 = some f ∧ s.boot.powered = true ∧ (f.limited = true → f.phase ≠ Phase.fetched) ∧ s.dueAt f = some 100
     ∧ (f.desc.opcode ≠ 5120 ∨ f.phase ≠ Phase.running) ∧ (f.desc.opcode = 5136 → f.phase ≠ Phase.running)) ∧
  (let f : Flight := { cmd 0x1410 0 0 with deadline := some 100, phase := .fetched };
   let s : State := holding (chan0 carry) f;
   s.flight? 5 = some f ∧ s.boot.powered = true ∧ (f.limited = true → f.phase ≠ Phase.fetched) ∧ s.dueAt f = some 100
     ∧ (f.desc.opcode ≠ 5120 ∨ f.phase ≠ Phase.running) ∧ (f.desc.opcode = 5136 → f.phase ≠ Phase.running)) ∧
  (let f : Flight := { cmd 0x1110 0 0 40 with deadline := some 100, phase := .running };
   let s : State := holding (chan0 carry) f;
   s.flight? 5 = some f ∧ s.boot.powered = true ∧ (f.limited = true → f.phase ≠ Phase.fetched) ∧ s.dueAt f = some 100
     ∧ (f.desc.opcode ≠ 5120 ∨ f.phase ≠ Phase.running) ∧ (f.desc.opcode = 5136 → f.phase ≠ Phase.running)) ∧
  (let f : Flight := { cmd 0x1400 0 128 with deadline := some 100, phase := .running };
   let s : State := holding (chan0 { pw := { level := .neap }, bu := { step := 3, cmd := some 5 } }) f;
   s.flight? 5 = some f ∧ s.boot.powered = true ∧ (f.limited = true → f.phase ≠ Phase.fetched) ∧ s.dueAt f = some 100
     ∧ f.desc.opcode = 5120 ∧ f.phase = Phase.running ∧ f.desc.target = 0 ∧ (s.chan 0).bu.cmd = some 5) :=
  ⟨by decide, by decide, by decide, by decide, by decide, by decide⟩

/-- A frame period of zeros that meets the hypotheses of the first clause of `Obligations.ReceiveRowsComplete`. -/
theorem test_ReceiveRowsComplete_frame_met :
    let s : State := chan0 { carry with ld := { rx := { lit := 1, active := 1, codes := [32, 32] } } }
    let v : Channel := (s.frameStart 0).chan 0
    s.receives 0 none = true ∧ v.rf.state = .inFrame ∧ (s.chan 0).rf.misses < 4 ∧ decodable aFrame v.fec.rxOffshore v.sRx = true :=
  by decide

/-- States and commands that meet the hypotheses of `Obligations.StepRunsFront`. -/
theorem test_StepRunsFront_met :
  (let s : State := { up with pending := [.supplyDip] };
   s.pending = .supplyDip :: []) ∧
  (up.pending = [] ∧ up.boot.powered = true) ∧
  (let s : State := { up with boot := { powered := false } };
   s.pending = [] ∧ s.boot.powered = false) :=
  ⟨by decide, by decide, by decide⟩

/-- The running module meets the invariant and steps. -/
theorem test_StepKeepsInv_met : up.Inv ∧ ∃ t, step up = .next t :=
  ⟨⟨by decide, by decide, by decide⟩, _, rfl⟩

/-- The dip of the supply is none of the rows that `Obligations.WritersOfKeptState` and `Obligations.TimeRunsForward` set
apart, and it answers. -/
theorem test_WritersOfKeptState_met :
    let i : Instr := .supplyDip
    (∀ split l perst, i ≠ .powerOn split l perst) ∧ (∀ w, i ≠ .supplyLossShutdown w) ∧ (∀ w, i ≠ .modReset w) ∧
    (∀ im w, i ≠ .recoveryDone im w) ∧ (∀ id bs corr, i ≠ .memOperationDone id bs corr) ∧
    (∀ id w p, i ≠ .commandDeadlineExpiry id w p) ∧ (∀ id, i ≠ .ledgerWriteDone id) ∧ i ≠ .poweredHour ∧
    (∀ r d, i ≠ .descriptorFetch r d) ∧ ∃ t, exec i up = .next t := by
  refine ⟨?_, ?_, ?_, ?_, ?_, ?_, ?_, ?_, ?_, _, rfl⟩ <;> intros <;> nofun

theorem test_TimeRunsForward_met :
    (∀ split l perst, Instr.supplyDip ≠ .powerOn split l perst) ∧ ∃ t, exec .supplyDip up = .next t := by
  refine ⟨?_, _, rfl⟩; intros; nofun

/-- A query, and a setting whose command names channel 0. -/
theorem test_QueriesLeaveTheModule_met : ∃ i t, i = Instr.nop 5 ∧ exec i (holding up (cmd 0x100 32 0)) = .next t :=
  ⟨_, _, rfl, rfl⟩

theorem test_SettingsStayInTheirChannel_met :
    let s : State := holding (chan0 live) (cmd 0x1402 0 0)
    (∀ f ∈ s.flights, f.id = 5 → f.desc.target = 0) ∧ ∃ t, exec (.acqConfig 5) s = .next t :=
  ⟨by decide, _, rfl⟩

/-- The three resets. -/
theorem test_ResetsClearTheModule_met :
    (let s : State := { up with boot := { powered := false } }
     s.boot.powered = false ∧ ∃ t, exec (.powerOn 0 false 0) s = .next t) ∧
    (up.boot.powered = true ∧ (∃ t, exec (.supplyLossShutdown []) up = .next t) ∧ ∃ t, exec (.modReset []) up = .next t) :=
  ⟨⟨by decide, _, rfl⟩, by decide, ⟨_, rfl⟩, _, rfl⟩

/-- Keys and nonces of the lengths that `Obligations.DecryptionUndoesEncryption` asks for. -/
theorem test_DecryptionUndoesEncryption_met :
    (List.replicate 32 0 : List Nat).length = 32 ∧ (List.replicate 12 0 : List Nat).length = 12 ∧
    (List.replicate 16 0 : List Nat).length = 16 := by decide


end Sys2Proof.Tests
end

section
/-! Every row of the command table answers a next state (log 2). A row is written in one of a few forms, and a form answers
whatever its row does, since a row that cannot occur leaves the state as it was. -/

namespace Sys2Proof.Machine

/-! ### The forms that a chapter builds on `withCmd` -/

theorem withTrib_next (s : State) (id op : Nat) (k : Flight → Nat → Trib → State) : ∃ t, withTrib s id op k = .next t :=
  withCmd_next ..

theorem withCipher_next (s : State) (id op : Nat) (k : Flight → Nat → Cipher → State) :
    ∃ t, withCipher s id op k = .next t :=
  withCmd_next ..

theorem withMode_next (s : State) (id op : Nat) (m : P2Mode) (k : Flight → Nat → State) :
    ∃ t, withMode s id op m k = .next t :=
  withCmd_next ..

/-! ### The two rows of another form -/

/-- A dip that the module rides through can always occur and changes nothing (22 R467). -/
theorem execSupplyDip_next (s : State) : ∃ t, execSupplyDip s = .next t := ⟨s, rfl⟩

/-- The row ends the urgent request of a converter itself or that of a MON_READ (15 R359), and is of another form for each. -/
theorem execUrgentRequestDone_next (id : Nat) (codes : List (BitVec 16)) (x : UrgentIn) (s : State) :
    ∃ t, execUrgentRequestDone id codes x s = .next t := by
  unfold execUrgentRequestDone
  split
  · exact occurs_next ..
  · exact occursWith_next ..

/-! ### The rows by their form -/

/-- Settles O5, by a case split over the rows, gathered by the form in which each is written: the form answers a next state
whatever the row's effect is. -/
theorem everyRowAnswers : Obligations.EveryRowAnswers := by
  unfold Obligations.EveryRowAnswers
  intro i s
  cases i <;> unfold exec
  -- Commands.
  case nop | ringQuery | eventFilter | alarmSummary | bufPost | ohmSend | partQuery | partHistory | partChange |
    tribShedList | tribLatencyQuery | slotWrite | slotRead | slotCopy | bankSwitch | bankStatus | groupCreate |
    groupDelete | groupQuery | groupRealign | jobKeyLoad | jobKeyErase | jobCipher | loadChange | loadQuery |
    loadQuality | loadPlan | loadConfig | chanBringup | chanStatus | dspStatus | cdWindow | txShape | acqConfig |
    chanReset | kapraState | kapraTxEq | kapraStatus | kapraCounters | frameStatus | frameCounters | ohSnapshot |
    fecProfile | fecStatus | fecCounters | fecAlarmSet | calConfig | calRun | calStatus | calValues | opticsStatus |
    p2mpMode | leafSet | timingCandSet | timingConfig | timingStatus | timingHistory | chanTiming | monScanSet |
    monFilterSet | monFilterRun | monStream | monRead | monTest | monRef | monSelfcal | monQuery | monHistory |
    fastCfg | memFill | memScan | memCopyIn | memCopyOut | memScrubConfig | memStatus | memReefRead | memRetire |
    memRetireList | pwrLevel | pwrStatus | pwrModule | idCertRead | attestReport | ledgerRead | fwStatus | rngStatus |
    fwImageWrite | fwActivate | fwConfirm | fwFloorRaise | kekEstablish | ageConfig | ageStatus | ageLedgerRead |
    ageProposal | ageShortfall | shoreStatus | shoreInventory | shoreInvQuery | shoreSend | shoreLaserOff =>
    exact withCmd_next ..
  -- Commands of one opcode that the descriptor tells apart.
  case tribEnable | tribDisable | tribPromiseRelease | tribPromiseReinstate | bankArm | bankDisarm | captureArm |
    captureDisarm | laserBlank | laserRestore | pwrSleepSlack | pwrSleepDark | pwrSleepExit =>
    exact withCmdIf_next ..
  -- Commands on a tributary context, on a line cipher context, and at a channel of one mode.
  case tribProvision | tribModify | tribDelete | tribQuery | tribCounters =>
    exact withTrib_next ..
  case cipherSetup | cipherQuery | keyLoad | keyRoll | keyErase | cipherCounters =>
    exact withCipher_next ..
  case leafQuery | p2mpConfig | leafLoad | burstCounters | leafStatus | leafJoin =>
    exact withMode_next ..
  -- Events that a condition on the state lets occur.
  case ringEnable | ringDisable | nudgeGroup | arbPrioWrite | arbStatRead | rcvGo | registerWrite | unsupportedRequest
    | descriptorFetch | dmaError | powerOn | supplyLossShutdown | modReset | perstAssert | perstDeassert |
    functionLevelReset | linkTrained | linkRecoveryEntry | linkUp | linkDownLimitExpiry | arbiterDecision |
    laserOffNAssert | laserOffNRelease | bootFailedRecovery | recoveryDone | staggerRelease | lighthouseRestart |
    txFramePeriod | txMultiframeBoundary | ingressHostFrame | kapraLaneFault | laneMeritLow | rxLineFrame |
    lossOfFrame | ohCheckFailRun | uncorrectableRun | tributaryRecovered | latencyMessageDue | authFailRun | autoRoll
    | oldKeyErase | keyCountWrapErase | maskReseed | bringupStepDone | lossOfSignal | signalPresent |
    lossOfAcquisition | pilotLock | eqDiverged | subcarrierLockLost | subcarrierAcquired | calRunDue | outputPowerHigh
    | laserCurrentHigh | lockerError | burstRecordDelivery | timingSecond | candidateActivityLoss | candidateQualified
    | loopBwStep | oscWarm | hoGrade | oscAgeingFit | decimRecord | resampleReport | extRefLost | trendSample |
    hourlyRecord | dailyRecord | poweredHour | scrubVisit | uncorrectableError | keeperRestartDone | railCheck |
    sleepEntryEnd | wakeLight | slackExitEnd | deratingBegin | deratingEnd | thermalShutdown | entropyStartupTest |
    drbgReseed | hello | helloTimer | shoreNeighbourLost | headTimeout | addrAssign | addrAssignTimer | invReq |
    invResp | alarm | lighthouseNotRunning | laserOff | msg | shoreFrameBad | laneSignalReturn |
    bringupStepLimitExpiry =>
    exact occurs_next ..
  -- Events that a value of the state lets occur.
  case undefinedOpcode | doorbellReadDone | doorbellSweep | commandStart | commandDeadlineExpiry | moderationTimer |
    eventBatchWrite | bootDone | lighthouseRestartEnd | laneStateReached | remoteDefect | tributaryFailed |
    keyUsageWarning | keyExhausted | fecBerAlarm | linkQualityAlarm | rxMultiframeEnd | rxStateLimitExpiry |
    rxStateAdvance | blindSearchRepeat | calWindowEnd | calValuesApply | captureTaken | captureBufferFill | grantMap |
    discoverySend | burstWindow | burstDetect | burstHeaderCheck | burstReceived | leafLost | holdoffExpiry |
    selfcalEnd | testEnd | retirementSwitch | levelStep | wakeTimer | entropyHealthFailure | alarmRepeatTimer |
    laserOffHoldExpiry | shoreInvTimeout | cryptoJobDone | memOperationDone | ledgerWriteDone | imageWriteDone |
    chanResetDone | shoreFrameSent =>
    exact occursWith_next ..
  case supplyDip => exact execSupplyDip_next s
  case urgentRequestDone id codes x => exact execUrgentRequestDone_next id codes x s

end Sys2Proof.Machine
end

section
/-! What a command of one channel leaves alone. `State.outside c` is all that such a command must not touch, and each operation
that works on channel c alone keeps it: an equation, by which `simp` rewrites a chain of operations away. -/

namespace Sys2Proof.Machine

/-! ### All but one channel -/

/-- The other channels, each but for CHAN_HOLD, and the state that all channels share. -/
structure Outside where
  chans : Nat → Channel
  groups : Sparse Group
  convs : Sparse Converter
  srams : Sparse Sram
  tm : Timing
  shore : Shore
  boot : Boot
  sec : Security
  kept : Kept

/-- A channel's hold bit is read as false, and channel c itself as a channel at reset. -/
def State.outside (s : State) (c : Nat) : Outside where
  chans d := if d = c then {} else { s.chan d with hold := false }
  groups := s.groups
  convs := s.convs
  srams := s.srams
  tm := s.tm
  shore := s.shore
  boot := s.boot
  sec := s.sec
  kept := s.kept

theorem Channel.same_of_hold_eq {a b : Channel} (h : { a with hold := false } = { b with hold := false }) : a.Same b := by
  have e := congrArg (fun x : Channel => { x with hold := b.hold }) h
  exact e

/-- Equal outsides are the frame that is claimed of a channel's command. -/
theorem State.frame_of_outside_eq {s t : State} {c : Nat} (h : t.outside c = s.outside c) :
    (∀ d, d ≠ c → (t.chan d).Same (s.chan d)) ∧ t.groups = s.groups ∧ t.convs = s.convs ∧ t.srams = s.srams ∧ t.tm = s.tm ∧
      t.shore = s.shore ∧ t.boot = s.boot ∧ t.sec = s.sec ∧ t.kept = s.kept := by
  simp only [State.outside, Outside.mk.injEq] at h
  obtain ⟨hchans, hrest⟩ := h
  refine ⟨fun d hd => Channel.same_of_hold_eq ?_, hrest⟩
  simpa [hd] using congrFun hchans d

/-! ### Operations that the commands share -/

@[simp] theorem State.setChan_outside (s : State) (c : Nat) (x : Channel) : (s.setChan c x).outside c = s.outside c := by
  have hchans : ∀ d, (if d = c then ({} : Channel) else { (s.setChan c x).chan d with hold := false }) =
      if d = c then {} else { s.chan d with hold := false } := by
    intro d
    split
    · rfl
    · rw [State.setChan_chan_ne s x ‹_›]
  simp only [State.outside, hchans]
  rfl

@[simp] theorem State.raise_outside (s : State) (source code sev : Nat) (d0 : Word) (d1 : BitVec 32) (cause : Option Nat)
    (c : Nat) : (s.raise source code sev d0 d1 cause).outside c = s.outside c := rfl

@[simp] theorem State.run_outside (s : State) (f : Flight) (c : Nat) : (s.run f).outside c = s.outside c := rfl

@[simp] theorem State.finish_outside (s : State) (f : Flight) (st : Nat) (r0 r1 r2 : Option Nat) (c : Nat) :
    (s.finish f st r0 r1 r2).outside c = s.outside c := by
  simp [State.outside]

@[simp] theorem State.finishId_outside (s : State) (id st : Nat) (r0 r1 r2 : Option Nat) (c : Nat) :
    (s.finishId id st r0 r1 r2).outside c = s.outside c := by
  simp [State.outside]

@[simp] theorem State.finishAll_outside (s : State) (ids : List Nat) (st c : Nat) :
    (s.finishAll ids st).outside c = s.outside c := by
  simp [State.outside]

@[simp] theorem State.remark_outside (s : State) (c : Nat) : s.remark.outside c = s.outside c := by
  simp [State.outside]

theorem State.ite_outside {s a b : State} {c : Nat} {p : Prop} [Decidable p] (ha : a.outside c = s.outside c)
    (hb : b.outside c = s.outside c) : (if p then a else b).outside c = s.outside c := by
  split <;> assumption

/-- A refusal ends the command, and what else it would do is left to show. -/
theorem State.ite_finish_outside {s b : State} {f : Flight} {st c : Nat} {p : Prop} [Decidable p]
    (hb : b.outside c = s.outside c) : (if p then s.finish f st else b).outside c = s.outside c :=
  State.ite_outside (by simp) hb

/-- A command row keeps what lies outside channel c when its meaning keeps what lies outside the command's target. -/
theorem withCmd_outside {s t : State} {id op c : Nat} {k : Flight → State} (h : withCmd s id op k = .next t)
    (htarget : ∀ f ∈ s.flights, f.id = id → f.desc.target = c)
    (hk : ∀ f, (k f).outside f.desc.target = s.outside f.desc.target) : t.outside c = s.outside c := by
  obtain rfl | ⟨f, hf, rfl⟩ := withCmd_cases h
  · rfl
  · obtain rfl := htarget f hf.mem hf.id_eq
    rw [State.remark_outside, hk f]

/-- As `withCmd_outside` for a row of a channel in one mode, which refuses elsewhere. -/
theorem withMode_outside {s t : State} {id op c : Nat} {m : P2Mode} {k : Flight → Nat → State}
    (h : withMode s id op m k = .next t) (htarget : ∀ f ∈ s.flights, f.id = id → f.desc.target = c)
    (hk : ∀ f d, (k f d).outside d = s.outside d) : t.outside c = s.outside c :=
  withCmd_outside h htarget fun f => State.ite_outside (hk f _) (by simp)

/-! ### Link quality (10 R252) -/

@[simp] theorem State.lqEvent_outside (s : State) (c : Nat) (raised : Bool) : (s.lqEvent c raised).outside c = s.outside c := rfl

@[simp] theorem State.loadConfig_outside (s : State) (c : Nat) (accept : Bool) (alarm : Int) :
    (s.loadConfig c accept alarm).outside c = s.outside c := by
  unfold State.loadConfig
  dsimp only
  split <;> simp

/-! ### Calibration runs (12 R285 to R288, R299, R300) -/

@[simp] theorem State.calTell_outside (s : State) (c : Nat) (tx : Bool) (outcome : Nat) :
    (s.calTell c tx outcome).outside c = s.outside c := by
  unfold State.calTell
  dsimp only
  rw [foldl_eq_of (State.outside · c) _ _ _ fun u w => u.finishId_outside ..]
  simp

@[simp] theorem State.calStart_outside (s : State) (c : Nat) (tx initial response : Bool) :
    (s.calStart c tx initial response).outside c = s.outside c := by
  simp [State.calStart]

@[simp] theorem State.calAgain_outside (s : State) (c : Nat) (tx : Bool) : (s.calAgain c tx).outside c = s.outside c := by
  simp [State.calAgain]

@[simp] theorem State.calNext_outside (s : State) (c : Nat) (tx : Bool) (r : CalRun) (slewed due response : Bool) :
    (s.calNext c tx r slewed due response).outside c = s.outside c := by
  unfold State.calNext
  dsimp only
  split
  · exact State.ite_outside (by simp) rfl -- an initial run
  · exact State.ite_outside (by simp) rfl -- a tracking run

@[simp] theorem State.calResume_outside (s : State) (c : Nat) (tx : Bool) : (s.calResume c tx).outside c = s.outside c := by
  unfold State.calResume
  exact State.ite_outside (by simp) rfl

@[simp] theorem State.calEvent_outside (s : State) (c : Nat) (tx : Bool) (reason n sev : Nat) (cause : Option Nat) :
    (s.calEvent c tx reason n sev cause).outside c = s.outside c := rfl

/-- A rejection is counted, raises its event or none, tells the waiting commands, and may lead to the next run. -/
@[simp] theorem State.calReject_outside (s : State) (c : Nat) (tx : Bool) (reason : Nat) (cause : Option Nat) :
    (s.calReject c tx reason cause).outside c = s.outside c := by
  unfold State.calReject
  dsimp only
  split
  · rfl
  · simp only [apply_ite (State.outside · c), State.calNext_outside, State.calTell_outside, State.calEvent_outside,
      State.onCal_eq, State.setChan_outside, ite_self]

@[simp] theorem State.calAbandon_outside (s : State) (c : Nat) (tx : Bool) (cause : Option Nat) :
    (s.calAbandon c tx cause).outside c = s.outside c :=
  s.calReject_outside c tx 4 cause

@[simp] theorem State.beginLevel_outside (s : State) (c : Nat) (l : Level) (id : Nat) :
    (s.beginLevel c l id).outside c = s.outside c := by
  simp [State.beginLevel]

/-! ### Lanes (05 R95 to R97) -/

/-- Lane position p of channel c is of that channel (01 R16). -/
theorem State.onLane_outside (s : State) {c p : Nat} (hp : p < 4) (g : Lane → Lane) :
    (s.onLane (4 * c + p) g).outside c = s.outside c := by
  have hc : (4 * c + p) / 4 = c := by omega
  simp [State.onLane, hc]

/-- A change of the four lanes of a channel. -/
@[simp] theorem State.fourLanes_outside (s : State) (c : Nat) (g : Nat → Lane → Lane) :
    ((List.range 4).foldl (fun s p => s.onLane (4 * c + p) (g p)) s).outside c = s.outside c :=
  List.foldlRecOn (motive := fun u : State => u.outside c = s.outside c) _ _ rfl fun u hu _ hp =>
    (u.onLane_outside (List.mem_range.mp hp) _).trans hu

@[simp] theorem State.lanesDone_outside (s : State) (c : Nat) : (s.lanesDone c).outside c = s.outside c := by
  simp [State.lanesDone]

/-! ### Restated figures (02 R27, R456) -/

/-- Context i lies in the block of channel i / 96 (01 R16). -/
@[simp] theorem State.setTrib_outside (s : State) (i : Nat) (t : Trib) :
    (s.setTrib i t).outside (i / 96) = s.outside (i / 96) := by
  simp [State.setTrib]

@[simp] theorem State.latencyEvent_outside (s : State) (i : Nat) :
    (s.latencyEvent i).outside (i / 96) = s.outside (i / 96) := by
  simp [State.latencyEvent, State.reported]

@[simp] theorem State.latencyChanged_outside (s : State) (i : Nat) :
    (s.latencyChanged i).outside (i / 96) = s.outside (i / 96) := by
  unfold State.latencyChanged
  split <;> simp

@[simp] theorem State.oweLatency_outside (s : State) (c : Nat) : (s.oweLatency c).outside c = s.outside c := by
  simp [State.oweLatency]

/-- The figures of a context are its own channel's, whichever channel carries it. -/
theorem State.restateOne_outside (s : State) (c i : Nat) (tx rx : Bool) :
    (s.restateOne c i tx rx).outside (i / 96) = s.outside (i / 96) := by
  unfold State.restateOne
  exact State.ite_outside rfl (by simp)

/-- A channel of no group carries the contexts of its own block alone (01 R12). -/
theorem State.contextsOf_own {s : State} {c i : Nat} (hgroup : s.groupOf c = none) (hi : i ∈ s.contextsOf c) : i / 96 = c := by
  have hfind : (s.groups.find? fun q => q.2.members.getLsbD c) = none := Option.map_eq_none_iff.mp hgroup
  simp only [State.contextsOf, hfind, Option.bind_none, Channel.locals, List.mem_filter, List.mem_map] at hi
  obtain ⟨⟨l, ⟨p, ⟨_, hp⟩, rfl⟩, rfl⟩, _⟩ := hi
  have hl : p.1 < 96 := by
    simp only [Bool.and_eq_true, decide_eq_true_eq] at hp
    exact hp.1
  omega

theorem State.restate_outside {s : State} {c : Nat} (hgroup : s.groupOf c = none) (tx rx : Bool) :
    (s.restate c tx rx).outside c = s.outside c := by
  unfold State.restate
  dsimp only
  refine List.foldlRecOn (motive := fun u : State => u.outside c = s.outside c) _ _ (by simp) fun u hu i hi => ?_
  obtain rfl : i / 96 = c := State.contextsOf_own (by exact hgroup) hi
  exact (u.restateOne_outside ..).trans hu

/-! ### The commands

Each refuses or acts on its target, and what a refusal leaves to show is that the act keeps what lies outside. -/

section
variable {s t : State} {id c : Nat} (htarget : ∀ f ∈ s.flights, f.id = id → f.desc.target = c)
include htarget

theorem execAcqConfig_outside (h : execAcqConfig id s = .next t) : t.outside c = s.outside c :=
  withCmd_outside h htarget fun _ => State.ite_finish_outside <| by simp

theorem execTxShape_outside (h : execTxShape id s = .next t) : t.outside c = s.outside c :=
  withCmd_outside h htarget fun _ => State.ite_finish_outside <| State.ite_finish_outside <| by simp

theorem execLoadConfig_outside (h : execLoadConfig id s = .next t) : t.outside c = s.outside c :=
  withCmd_outside h htarget fun _ => by simp

theorem execFecAlarmSet_outside (h : execFecAlarmSet id s = .next t) : t.outside c = s.outside c :=
  withCmd_outside h htarget fun _ => by simp

theorem execKapraTxEq_outside (h : execKapraTxEq id s = .next t) : t.outside c = s.outside c :=
  withCmd_outside h htarget fun _ => by simp

theorem execKapraState_outside (h : execKapraState id s = .next t) : t.outside c = s.outside c :=
  withCmd_outside h htarget fun _ => State.ite_finish_outside <| State.ite_finish_outside <| by simp

theorem execAgeConfig_outside (h : execAgeConfig id s = .next t) : t.outside c = s.outside c :=
  withCmd_outside h htarget fun _ => State.ite_finish_outside <| by simp

/-- A change of mode restates figures; it is refused in a group, whose anchor's figures it would reach (13 R301). -/
theorem execP2mpMode_outside (h : execP2mpMode id s = .next t) : t.outside c = s.outside c := by
  refine withCmd_outside h htarget fun f => State.ite_finish_outside <| State.ite_finish_outside ?_
  split
  · simp
  · have hgroup : s.groupOf f.desc.target = none := by simpa using ‹¬(s.groupOf f.desc.target).isSome = true›
    refine State.ite_finish_outside ?_
    -- The mode is no part of the groups, so the changed channel is of none either.
    rw [State.finish_outside, State.restate_outside (by exact hgroup), State.onPm_eq, State.setChan_outside]

theorem execP2mpConfig_outside (h : execP2mpConfig id s = .next t) : t.outside c = s.outside c :=
  withMode_outside h htarget fun _ _ => State.ite_finish_outside <| State.ite_finish_outside <|
    State.ite_finish_outside <| by simp

theorem execLeafJoin_outside (h : execLeafJoin id s = .next t) : t.outside c = s.outside c :=
  withMode_outside h htarget fun _ _ => State.ite_finish_outside <| by simp

theorem execCalConfig_outside (h : execCalConfig id s = .next t) : t.outside c = s.outside c := by
  refine withCmd_outside h htarget fun f => State.ite_finish_outside ?_
  simp only [apply_ite (State.outside · f.desc.target), State.finish_outside, State.calResume_outside,
    State.calAbandon_outside, State.onCal_eq, State.setChan_outside, ite_self]

theorem execPwrLevel_outside (h : execPwrLevel id s = .next t) : t.outside c = s.outside c :=
  withCmd_outside h htarget fun _ => State.ite_finish_outside <| State.ite_finish_outside <| State.ite_finish_outside <|
    State.ite_outside (by simp) <| State.ite_finish_outside <| by simp

end

/-- Settles O9: each of the commands keeps what lies outside the channel that it names. -/
theorem settingsStayInTheirChannel : Obligations.SettingsStayInTheirChannel := by
  unfold Obligations.SettingsStayInTheirChannel
  intro s t id c i htarget hi h
  apply State.frame_of_outside_eq
  rcases hi with rfl | rfl | rfl | rfl | rfl | rfl | rfl | rfl | rfl | rfl | rfl | rfl
  · exact execAcqConfig_outside htarget h
  · exact execTxShape_outside htarget h
  · exact execLoadConfig_outside htarget h
  · exact execFecAlarmSet_outside htarget h
  · exact execKapraTxEq_outside htarget h
  · exact execKapraState_outside htarget h
  · exact execAgeConfig_outside htarget h
  · exact execP2mpMode_outside htarget h
  · exact execP2mpConfig_outside htarget h
  · exact execLeafJoin_outside htarget h
  · exact execCalConfig_outside htarget h
  · exact execPwrLevel_outside htarget h

end Sys2Proof.Machine
end

section
/-! What a tributary context reads after a write, output that stays left, the fields of an event's word; and on these the
delivery promise's commands, the latency message, failure and recovery (02 R21, R22, R27, R28; 06 R114, R121; 08 R192). -/

namespace Sys2Proof.Machine

/-! ### A tributary context after a write -/

@[simp] theorem State.setTrib_trib_same (s : State) (i : Nat) (x : Trib) : (s.setTrib i x).trib i = x := by
  simp [State.trib, State.setTrib, Channel.trib, Channel.setTrib]

@[simp] theorem State.setTrib_trib_ne (s : State) {i j : Nat} (x : Trib) (h : j ≠ i) : (s.setTrib i x).trib j = s.trib j := by
  unfold State.trib State.setTrib
  by_cases hc : j / 96 = i / 96
  · have hl : j % 96 ≠ i % 96 := by omega
    simp [hc, Channel.trib, Channel.setTrib, hl]
  · simp [hc]

/-- A change of a channel that spares its contexts. -/
theorem State.setChan_trib (s : State) {c : Nat} {x : Channel} (h : x.tribs = (s.chan c).tribs) (i : Nat) :
    (s.setChan c x).trib i = s.trib i := by
  unfold State.trib Channel.trib
  by_cases hc : i / 96 = c
  · simp [hc, h]
  · simp [hc]

/-- A write to a context changes nothing else of its channel. -/
theorem State.setTrib_chan (s : State) (i c : Nat) (x : Trib) :
    ∃ ts, (s.setTrib i x).chan c = { s.chan c with tribs := ts } := by
  by_cases hc : c = i / 96
  · subst hc
    exact ⟨_, State.setChan_chan_same ..⟩
  · exact ⟨_, State.setChan_chan_ne _ _ hc⟩

@[simp] theorem State.setTrib_chan_kp (s : State) (i c : Nat) (x : Trib) : ((s.setTrib i x).chan c).kp = (s.chan c).kp := by
  obtain ⟨ts, h⟩ := s.setTrib_chan i c x
  rw [h]

@[simp] theorem State.raise_trib (s : State) (source code sev : Nat) (d0 : Word) (d1 : BitVec 32) (cause : Option Nat)
    (i : Nat) : (s.raise source code sev d0 d1 cause).trib i = s.trib i := rfl

@[simp] theorem State.finish_trib (s : State) (f : Flight) (st : Nat) (r0 r1 r2 : Option Nat) (i : Nat) :
    (s.finish f st r0 r1 r2).trib i = s.trib i := by
  simp [State.trib]

@[simp] theorem State.answer_trib (s : State) (f : Flight) (ws : List Word) (r0 r1 r2 : Option Nat) (i : Nat) :
    (s.answer f ws r0 r1 r2).trib i = s.trib i := by
  simp [State.trib]

@[simp] theorem State.reported_trib (s : State) (c i : Nat) : (s.reported c).trib i = s.trib i :=
  s.setChan_trib (by rfl) i

@[simp] theorem State.reported_chan_same (s : State) (c : Nat) :
    (s.reported c).chan c = { s.chan c with kp := { (s.chan c).kp with phaseReported := (s.chan c).kp.phase } } :=
  State.setChan_chan_same ..

/-! ### Output that has left stays left -/

theorem State.msix_out (s : State) (n v : Nat) : s.out ⊆ (s.msix n v).out := by
  unfold State.msix
  split <;> simp

theorem State.signal_out (s : State) (r : Nat) : s.out ⊆ (s.signal r).out :=
  State.msix_out (s.onRing r _) ..

theorem State.wrote_out (s : State) (r : Nat) (b : Bool) : s.out ⊆ (s.wrote r b).out := by
  unfold State.wrote
  dsimp only
  split
  · exact State.signal_out (s.setRing r _) r
  · exact fun _ h => h

theorem State.writeCompletion_out (s : State) (q : Nat) (c : Completion) (b : Bool) :
    s.out ⊆ (s.writeCompletion q c b).out := by
  unfold State.writeCompletion
  dsimp only
  split
  · exact fun _ h => State.wrote_out _ _ _ (List.mem_cons_of_mem _ h)
  · exact fun _ h => h

theorem State.finish_out (s : State) (f : Flight) (st : Nat) (r0 r1 r2 : Option Nat) :
    s.out ⊆ (s.finish f st r0 r1 r2).out := by
  unfold State.finish
  dsimp only
  split
  · exact fun _ h => h -- no record
  · split
    · exact fun _ h => h -- kept back by its link
    · exact State.writeCompletion_out (s.dropFlight f.id).draw ..

theorem wordsBytes_length (ws : List Word) : (wordsBytes ws).length = 8 * ws.length := by
  induction ws with
  | nil => rfl
  | cons w ws ih =>
    have hcons : wordsBytes (w :: ws) = w.bytes ++ wordsBytes ws := List.flatMap_cons
    have hw : w.bytes.length = 8 := by rw [Word.bytes, List.length_map, List.length_range]
    rw [hcons, List.length_append, hw, ih, List.length_cons]
    omega

/-- Words that fill the buffer exactly reach it whole. -/
theorem State.answer_buffer (s : State) {f : Flight} {ws : List Word} (r0 r1 r2 : Option Nat) (horphan : f.orphan = false)
    (hlen : f.desc.bufLen = 8 * ws.length) :
    Output.buffer f.link f.desc.bufAddr 0 (wordsBytes ws) ∈ (s.answer f ws r0 r1 r2).out := by
  apply State.finish_out
  have htake : (wordsBytes ws).take f.desc.bufLen = wordsBytes ws := List.take_of_length_le (Nat.le_of_eq ((wordsBytes_length ws).trans hlen.symm))
  simp [State.writeBuf, horphan, htake]

/-! ### Fields of a word -/

/-- Two fields side by side, the upper one above the lower. -/
theorem mkWord_two_toNat {m n a b : Nat} (hmn : m + n ≤ 64) :
    (mkWord [(0, m, a), (m, n, b)]).toNat = b % 2 ^ n * 2 ^ m + a % 2 ^ m := by
  have ha : a % 2 ^ m < 2 ^ m := Nat.mod_lt _ (Nat.two_pow_pos m)
  have hb : b % 2 ^ n < 2 ^ n := Nat.mod_lt _ (Nat.two_pow_pos n)
  have hlt : b % 2 ^ n * 2 ^ m + a % 2 ^ m < 2 ^ 64 := calc
    b % 2 ^ n * 2 ^ m + a % 2 ^ m < (b % 2 ^ n + 1) * 2 ^ m := by rw [Nat.succ_mul]; omega
    _ ≤ 2 ^ n * 2 ^ m := Nat.mul_le_mul_right _ hb
    _ = 2 ^ (m + n) := by rw [← Nat.pow_add, Nat.add_comm]
    _ ≤ 2 ^ 64 := Nat.pow_le_pow_right (by decide) hmn
  have hor : a % 2 ^ m ||| (b % 2 ^ n) <<< m = b % 2 ^ n * 2 ^ m + a % 2 ^ m := by
    rw [Nat.or_comm, ← Nat.shiftLeft_add_eq_or_of_lt ha, Nat.shiftLeft_eq]
  simpa [mkWord, hor] using hlt

/-- DETAIL_0 of event 0x1020 reads back: the tributary and the cause (06 R114). -/
theorem tribCause_bits {i cause : Nat} (hi : i < 4096) (hc : cause < 16) :
    (mkWord [(0, 12, i), (12, 4, cause)]).bits 11 0 = i ∧ (mkWord [(0, 12, i), (12, 4, cause)]).bits 15 12 = cause := by
  unfold Word.bits
  rw [mkWord_two_toNat (by decide)]
  omega

/-- DETAIL_0 of event 0x1021 reads back: the tributary (06 R121). -/
theorem tribOnly_bits {i : Nat} (hi : i < 4096) : (mkWord [(0, 12, i)]).bits 11 0 = i := by
  simp [mkWord, Word.bits]
  omega

/-! ### Figures that have changed (21 R456) -/

theorem State.latencyEvent_trib_same (s : State) (i : Nat) :
    (s.latencyEvent i).trib i = { s.trib i with owed := false, flipped := false } := by
  simp [State.latencyEvent]

/-- That an event is owed or has been raised is the context's bookkeeping alone. -/
theorem State.latencyChanged_trib_same (s : State) (i : Nat) :
    ∃ o p, (s.latencyChanged i).trib i = { s.trib i with owed := o, flipped := p } := by
  unfold State.latencyChanged
  split
  · exact ⟨true, (s.trib i).flipped, State.setTrib_trib_same ..⟩
  · exact ⟨false, false, s.latencyEvent_trib_same i⟩

theorem State.latencyChanged_trib_ne (s : State) {i j : Nat} (h : j ≠ i) : (s.latencyChanged i).trib j = s.trib j := by
  unfold State.latencyChanged
  split <;> simp [State.latencyEvent, h]

/-! ### Release and reinstatement (02 R27) -/

/-- A context that already stands so is left as it is. -/
theorem State.setReleased_trib_of_eq {v : Bool} {is : List Nat} {s : State} {i : Nat} (h : (s.trib i).released = v ∨ i ∉ is) :
    (s.setReleased v is).trib i = s.trib i := by
  induction is generalizing s with
  | nil => rfl
  | cons j is ih =>
    have hstep : (s.setReleased v [j]).trib i = s.trib i := by
      dsimp only [State.setReleased, List.foldl]
      split
      · rfl
      · have hij : i ≠ j := by
          rintro rfl
          simp_all
        simp [State.latencyChanged_trib_ne, hij]
    calc (s.setReleased v (j :: is)).trib i
        = ((s.setReleased v [j]).setReleased v is).trib i := rfl
      _ = (s.setReleased v [j]).trib i := ih (by rw [hstep]; exact h.imp_right fun hn hm => hn (List.mem_cons_of_mem _ hm))
      _ = s.trib i := hstep

/-- One context turns: RELEASED is set, and a release drops its bounds. -/
theorem State.setReleased_single_trib {v : Bool} {s : State} {i : Nat} (h : (s.trib i).released ≠ v) :
    ((s.setReleased v [i]).trib i).released = v ∧
    (v = true → ((s.setReleased v [i]).trib i).txBound = 0 ∧ ((s.setReleased v [i]).trib i).rxBound = 0) := by
  dsimp only [State.setReleased, List.foldl]
  rw [if_neg h]
  obtain ⟨o, p, htrib⟩ := State.latencyChanged_trib_same (s.setTrib i { s.trib i with
    released := v, txBound := if v then 0 else (s.trib i).txBound, rxBound := if v then 0 else (s.trib i).rxBound
    latMfc := (s.chan (i / 96)).tf.mfc }) i
  rw [htrib, State.setTrib_trib_same]
  exact ⟨rfl, fun hv => by simp [hv]⟩

/-- RELEASED of a named context turns, and a release drops its bounds. -/
theorem State.setReleased_trib_of_mem {v : Bool} {is : List Nat} {s : State} {i : Nat} (hi : i ∈ is) :
    ((s.setReleased v is).trib i).released = v ∧
    (v = true → (s.trib i).released = false →
      ((s.setReleased v is).trib i).txBound = 0 ∧ ((s.setReleased v is).trib i).rxBound = 0) := by
  by_cases heq : (s.trib i).released = v
  · rw [State.setReleased_trib_of_eq (.inl heq)]
    exact ⟨heq, fun hv hr => by simp_all⟩
  induction is generalizing s with
  | nil => cases hi
  | cons j is ih =>
    have hcons : s.setReleased v (j :: is) = (s.setReleased v [j]).setReleased v is := rfl
    by_cases hij : i = j
    · subst hij
      obtain ⟨hturned, hbounds⟩ := State.setReleased_single_trib heq
      -- The first naming turns it, and the rest find it turned.
      rw [hcons, State.setReleased_trib_of_eq (.inl hturned)]
      exact ⟨hturned, fun hv _ => hbounds hv⟩
    · have hsame : (s.setReleased v [j]).trib i = s.trib i := State.setReleased_trib_of_eq (.inr (by simpa using hij))
      rw [hcons, ← hsame]
      exact ih (by simpa [hij] using hi) (by rwa [hsame])

/-- Both commands act on the contexts that the buffer names, and on no other (02 R28). -/
theorem State.release_trib {s : State} {f : Flight} {ws : List Word} {v : Bool} (h : s.releaseOk f.desc ws = true) :
    (∀ k, k < f.desc.p0.bits 6 0 → ((s.release f ws v).trib (half ws k)).released = v ∧
      (v = true → (s.trib (half ws k)).released = false →
        ((s.release f ws v).trib (half ws k)).txBound = 0 ∧ ((s.release f ws v).trib (half ws k)).rxBound = 0)) ∧
    (∀ i, (∀ k, k < f.desc.p0.bits 6 0 → half ws k ≠ i) → (s.release f ws v).trib i = s.trib i) := by
  simp only [State.release, h, if_true, State.finish_trib]
  refine ⟨fun k hk => ?_, fun i hi => ?_⟩
  · exact State.setReleased_trib_of_mem (List.mem_map_of_mem (List.mem_range.2 hk))
  · refine State.setReleased_trib_of_eq (.inr ?_)
    simpa using hi

theorem State.release_flight? {s : State} {f : Flight} {ws : List Word} {v : Bool} : (s.release f ws v).flight? f.id = none := by
  unfold State.release
  split <;> simp

/-! ### The commands and the latency message -/

theorem execTribLatencyQuery_answers {s : State} {id i : Nat} {f : Flight} (h : s.Started id 0x1010 f)
    (hi : f.desc.tribIndex = some i) :
    ∃ t, exec (.tribLatencyQuery id) s = .next t ∧ t.flight? f.id = none ∧ (t.trib i) = { s.trib i with deviation := false } ∧
      (t.chan (i / 96)).kp.phaseReported = (s.chan (i / 96)).kp.phase ∧
      (f.orphan = false → f.desc.bufLen = 32 →
        Output.buffer f.link f.desc.bufAddr 0 (wordsBytes ((s.trib i).report i)) ∈ t.out) ∧
      (∀ k, k ≠ i → t.trib k = s.trib k) := by
  refine ⟨_, withCmd_started h _, ?_⟩
  simp only [hi]
  refine ⟨by simp, by simp, by simp, fun horphan hlen => ?_, fun k hk => by simp [hk]⟩
  rw [State.remark_out]
  exact State.answer_buffer _ _ _ _ horphan hlen

theorem execTribPromiseRelease_releases {s : State} {id : Nat} {f : Flight} {ws : List Word} (h : s.Started id 0x1011 f)
    (hrow : f.desc.p0.bit 8 = false) (hok : s.releaseOk f.desc ws = true) :
    ∃ t, exec (.tribPromiseRelease id ws) s = .next t ∧ t.flight? f.id = none ∧
      (∀ k, k < f.desc.p0.bits 6 0 → (t.trib (half ws k)).released = true ∧
        ((s.trib (half ws k)).released = false → (t.trib (half ws k)).txBound = 0 ∧ (t.trib (half ws k)).rxBound = 0)) ∧
      (∀ i, (∀ k, k < f.desc.p0.bits 6 0 → half ws k ≠ i) → t.trib i = s.trib i) := by
  refine ⟨_, withCmdIf_started (p := fun d => !d.p0.bit 8) h (by simp [hrow]) fun f => s.release f ws true, ?_⟩
  obtain ⟨hnamed, hothers⟩ := State.release_trib (v := true) hok
  simpa [State.release_flight?] using ⟨fun k hk => (hnamed k hk).imp_right fun h => h rfl, hothers⟩

theorem execTribPromiseReinstate_reinstates {s : State} {id : Nat} {f : Flight} {ws : List Word} (h : s.Started id 0x1011 f)
    (hrow : f.desc.p0.bit 8 = true) (hok : s.releaseOk f.desc ws = true) :
    ∃ t, exec (.tribPromiseReinstate id ws) s = .next t ∧ t.flight? f.id = none ∧
      (∀ k, k < f.desc.p0.bits 6 0 → (t.trib (half ws k)).released = false) ∧
      (∀ i, (∀ k, k < f.desc.p0.bits 6 0 → half ws k ≠ i) → t.trib i = s.trib i) := by
  refine ⟨_, withCmdIf_started (p := fun d => d.p0.bit 8) h hrow fun f => s.release f ws false, ?_⟩
  obtain ⟨hnamed, hothers⟩ := State.release_trib (v := false) hok
  simpa [State.release_flight?] using ⟨fun k hk => (hnamed k hk).1, hothers⟩

/-- The message takes the place of one that still waits, ahead of the host's (08 R192). -/
theorem State.sendLatency_chan (s : State) (c : Nat) :
    (s.sendLatency c).chan c = { s.chan c with tf := { (s.chan c).tf with
      latencyDue := false, latencyMf := 0
      queue := (if (s.chan c).locals.isEmpty then [] else [{ cmd := none, cls := 1, bytes := (s.chan c).latencyBytes }]) ++
        (s.chan c).tf.queue.filter fun m => m.cls ≠ 1 } } :=
  State.setChan_chan_same ..

theorem execLatencyMessageDue_queues {s : State} {c : Fin 32} (hpower : s.boot.powered = true)
    (hsending : (s.chan c).tf.sending = true) (hdue : (s.chan c).tf.latencyDue = true ∨ 1024 ≤ (s.chan c).tf.latencyMf) :
    ∃ t, exec (.latencyMessageDue c) s = .next t ∧ (t.chan c).tf.latencyDue = false ∧ (t.chan c).tf.latencyMf = 0 ∧
      ((s.chan c).locals ≠ [] → (t.chan c).tf.queue.head? = some { cmd := none, cls := 1, bytes := (s.chan c).latencyBytes }) ∧
      (t.chan c).tf.queue.filter (fun m => m.cls ≠ 1) = (s.chan c).tf.queue.filter (fun m => m.cls ≠ 1) := by
  refine ⟨_, occurs_true _ (by simpa [hpower, hsending] using hdue), ?_⟩
  rw [State.remark_chan_tf, State.sendLatency_chan]
  refine ⟨rfl, rfl, fun hlocals => by simp [hlocals], ?_⟩
  dsimp only
  split <;> simp

/-! ### Failure and recovery (06 R114, R121) -/

theorem State.failTrib_kept (s : State) (i cause : Nat) : (s.failTrib i cause).kept = s.kept :=
  (State.failTrib_quiet i cause (.refl s)).kept

theorem execTributaryFailed_fails {s : State} {i : Fin 3072} (hpower : s.boot.powered = true)
    (hstate : (s.trib i).state = .carrying) (hruns : 4 ≤ (s.trib i).failRun ∨ 4 ≤ (s.trib i).slipRun) :
    ∃ t, exec (.tributaryFailed i) s = .next t ∧ (t.trib i).state = .failed ∧
      (t.trib i).cause = (if 4 ≤ (s.trib i).failRun then 1 else 5) ∧
      (∃ e ∈ t.batch, e.source = i.val / 96 ∧ e.code = 0x1020 ∧ e.severity = 3 ∧ e.detail0.bits 11 0 = i.val ∧
        e.detail0.bits 15 12 = (t.trib i).cause) ∧
      (∀ k, k ≠ i.val → t.trib k = s.trib k) ∧ t.kept = s.kept := by
  have hcause : (if s.boot.powered && (s.trib i).state = .carrying then
      (if 4 ≤ (s.trib i).failRun then some 1 else if 4 ≤ (s.trib i).slipRun then some 5 else none) else none) =
      some (if 4 ≤ (s.trib i).failRun then 1 else 5) := by
    by_cases hf : 4 ≤ (s.trib i).failRun
    · simp [hpower, hstate, hf]
    · simp [hpower, hstate, hf, hruns.resolve_left hf]
  refine ⟨_, occursWith_some _ hcause, ?_⟩
  generalize hv : (if 4 ≤ (s.trib i).failRun then 1 else 5) = cause
  have hlt : cause < 16 := by split at hv <;> omega
  obtain ⟨htrib, hbits⟩ := tribCause_bits (i := i) (by omega) hlt
  refine ⟨by simp [State.failTrib, State.onTrib], by simp [State.failTrib, State.onTrib],
    ⟨_, State.remark_batch (List.mem_append_right _ (List.mem_singleton_self _)), rfl, rfl, rfl, htrib, ?_⟩,
    fun k hk => by simp [State.failTrib, State.onTrib, hk], by rw [State.remark_kept, State.failTrib_kept]⟩
  simpa [State.failTrib, State.onTrib] using hbits

theorem execTributaryRecovered_carries {s : State} {i : Fin 3072} (hpower : s.boot.powered = true)
    (hstate : (s.trib i).state = .failed) (hstuck : (s.trib i).stuck = false)
    (hrun : 4 ≤ (if (s.trib i).cause = 5 then (s.trib i).cleanRun else (s.trib i).passRun)) :
    ∃ t, exec (.tributaryRecovered i) s = .next t ∧ (t.trib i).state = .carrying ∧
      (∃ e ∈ t.batch, e.source = i.val / 96 ∧ e.code = 0x1021 ∧ e.severity = 1 ∧ e.detail0.bits 11 0 = i.val) ∧
      (∀ k, k ≠ i.val → t.trib k = s.trib k) ∧ t.kept = s.kept := by
  refine ⟨_, occurs_true _ (by simp [hpower, hstate, hstuck, hrun]), by simp [State.onTrib],
    ⟨_, State.remark_batch (List.mem_append_right _ (List.mem_singleton_self _)), rfl, rfl, rfl, tribOnly_bits (by omega)⟩,
    fun k hk => by simp [State.onTrib, hk], ?_⟩
  rw [State.remark_kept]
  rfl

/-- Settles O32, each clause by the lemma of its row. That cause 1 wins where both runs have reached four is the model's own order. -/
theorem promiseAndFailure : Obligations.PromiseAndFailure := by
  unfold Obligations.PromiseAndFailure
  refine ⟨fun s id f => ⟨fun i h hi => ?_, fun ws h hrow hok => ?_, fun ws h hrow hok => ?_, fun c hpower hsend hdue => ?_⟩,
    fun s i hpower => ⟨fun hstate hruns => ?_, fun hstate hstuck hrun => ?_⟩⟩
  · exact execTribLatencyQuery_answers h hi
  · exact execTribPromiseRelease_releases h hrow hok
  · exact execTribPromiseReinstate_reinstates h hrow hok
  · exact execLatencyMessageDue_queues hpower hsend hdue
  · exact execTributaryFailed_fails hpower hstate hruns
  · exact execTributaryRecovered_carries hpower hstate hstuck hrun

end Sys2Proof.Machine
end

section
/-! Uncorrectable errors, the restart of a channel keeper, and deadlines that expire (17 R393, R396; 21 R460; 02 R30 to R32;
11 R256). -/

namespace Sys2Proof.Machine

/-! ### What the consequences of an error leave (17 R396) -/

/-- The consequences of an error in SRAM k leave its count of uncorrectable errors, raise events beside those raised, and
take down or restart no keeper. -/
structure State.Aftermath (k : Nat) (s0 s : State) : Prop where
  uncorr : (s.sram k).uncorr = (s0.sram k).uncorr
  raised : s0.batch ⊆ s.batch
  down : ∀ c, (s.chan c).keeperDown = (s0.chan c).keeperDown

theorem State.Aftermath.refl (k : Nat) (s : State) : s.Aftermath k s := ⟨rfl, List.Subset.refl _, fun _ => rfl⟩

theorem aftermath_ite {k : Nat} {s0 s t : State} {p : Prop} [Decidable p] (hs : s0.Aftermath k s) (ht : s0.Aftermath k t) :
    s0.Aftermath k (if p then s else t) := by
  split <;> assumption

section
variable {k : Nat} {s0 s : State} (h : s0.Aftermath k s)
include h

theorem State.raise_aftermath (source code sev : Nat) (d0 : Word) (d1 : BitVec 32) (cause : Option Nat) :
    s0.Aftermath k (s.raise source code sev d0 d1 cause) :=
  ⟨h.uncorr, fun _ he => List.mem_append_left _ (h.raised he), h.down⟩

theorem State.setSram_aftermath {x : Sram} (hx : x.uncorr = (s.sram k).uncorr) : s0.Aftermath k (s.setSram k x) :=
  ⟨by rw [State.setSram_sram_same, hx, h.uncorr], h.raised, h.down⟩

theorem State.setChan_aftermath {c : Nat} {x : Channel} (hx : x.keeperDown = (s.chan c).keeperDown) :
    s0.Aftermath k (s.setChan c x) := by
  refine ⟨h.uncorr, h.raised, fun d => ?_⟩
  rw [State.setChan_chan]
  split
  · subst d
    exact hx.trans (h.down c)
  · exact h.down d

theorem State.finishId_aftermath (id st : Nat) (r0 r1 r2 : Option Nat) : s0.Aftermath k (s.finishId id st r0 r1 r2) :=
  ⟨by simp [h.uncorr], by simp [h.raised], by simp [h.down]⟩

theorem foldl_aftermath {α : Type} (l : List α) {g : State → α → State}
    (hg : ∀ u a, s0.Aftermath k u → s0.Aftermath k (g u a)) : s0.Aftermath k (l.foldl g s) :=
  foldl_inv_of _ _ _ _ hg h

/-! ### An error is noted (17 R393 to R395) -/

theorem State.advise_aftermath (addr : Nat) : s0.Aftermath k (s.advise k addr) := by
  unfold State.advise
  dsimp only
  split
  · exact State.raise_aftermath (State.setSram_aftermath h (by rfl)) ..
  · exact h

theorem State.logSticky_aftermath (addr bit : Nat) (uncorr : Bool) : s0.Aftermath k (s.logSticky k addr bit uncorr) := by
  unfold State.logSticky
  dsimp only
  split
  · exact State.raise_aftermath (State.setSram_aftermath h (by rfl)) ..
  · split
    · exact State.setSram_aftermath h (by rfl)
    · exact State.raise_aftermath (State.setSram_aftermath h (by rfl)) ..

theorem State.noteError_aftermath (addr bit : Nat) (uncorr : Bool) : s0.Aftermath k (s.noteError k addr bit uncorr) := by
  have hhist (x : Sram) (hx : x.uncorr = (s.sram k).uncorr) := State.setSram_aftermath h hx
  have hentered (x : Sram) (hx : x.uncorr = (s.sram k).uncorr) := State.logSticky_aftermath (hhist x hx) addr bit uncorr
  unfold State.noteError
  exact aftermath_ite (State.advise_aftermath (hhist _ (by rfl)) addr)
    (aftermath_ite (State.advise_aftermath (hentered _ (by rfl)) addr) (hhist _ (by rfl)))

/-! ### Frames and buffers are marked (17 R396, kinds 4 and 5) -/

theorem State.errFrame_aftermath (c : Nat) : s0.Aftermath k (s.errFrame c) := State.setChan_aftermath h (by rfl)

theorem State.errSkew_aftermath (c : Nat) : s0.Aftermath k (s.errSkew c) := by
  unfold State.errSkew
  split
  · exact ⟨h.uncorr, h.raised, h.down⟩
  · refine foldl_aftermath h _ fun u i hu => ?_
    split
    · exact hu
    · exact State.setChan_aftermath hu (by rfl)

/-! ### A keeper traps (21 R460) -/

theorem State.onCal_aftermath (c : Nat) (g : Cal → Cal) : s0.Aftermath k (s.onCal c g) :=
  State.setChan_aftermath h (by rfl)

theorem State.calEvent_aftermath (c : Nat) (tx : Bool) (reason n sev : Nat) (cause : Option Nat) :
    s0.Aftermath k (s.calEvent c tx reason n sev cause) :=
  State.raise_aftermath h ..

theorem State.calTell_aftermath (c : Nat) (tx : Bool) (outcome : Nat) : s0.Aftermath k (s.calTell c tx outcome) :=
  foldl_aftermath (State.onCal_aftermath h c _) _ fun _ _ hu => State.finishId_aftermath hu ..

theorem State.calAbandon_aftermath (c : Nat) (tx : Bool) (cause : Option Nat) : s0.Aftermath k (s.calAbandon c tx cause) := by
  unfold State.calAbandon State.calReject
  dsimp only
  split
  · exact h
  · rw [if_pos rfl]
    have hcounts (g : Cal → Cal) := State.onCal_aftermath h c g
    exact State.calTell_aftermath (aftermath_ite (State.calEvent_aftermath (hcounts _) ..)
      (aftermath_ite (State.calEvent_aftermath (hcounts _) ..) (hcounts _))) ..

theorem State.agreementLapse_aftermath (c : Nat) : s0.Aftermath k (s.agreementLapse c) := by
  unfold State.agreementLapse
  split
  · split
    · exact h
    · exact State.raise_aftermath (State.setChan_aftermath h (by rfl)) ..
  · exact h

theorem State.lxAgain_aftermath (c : Nat) (p : LxProposal) : s0.Aftermath k (s.lxAgain c p) := by
  unfold State.lxAgain
  split <;> exact State.setChan_aftermath h (by rfl)

theorem State.inPair_aftermath (c j : Nat) {g : State → State} (hg : ∀ u, s0.Aftermath k u → s0.Aftermath k (g u)) :
    s0.Aftermath k (s.inPair c j g) :=
  State.setChan_aftermath (hg _ (State.setChan_aftermath h (by rfl))) (by rfl)

end

/-- The keeper's own bank proposal waits for its deadline. -/
def State.proposalLapse (s : State) (c : Nat) : State :=
  match (s.chan c).sl.proposal with
  | some p => if p.committed then s else s.onSl c fun x => { x with proposal := some { p with live := false } }
  | none => s

/-- An agreement of the keeper's on a bank switch ends. -/
def State.bankLapse (s : State) (c : Nat) : State :=
  match (s.chan c).sl.agreement with
  | some a => if a.committed || a.follow then s.proposalLapse c
              else ((s.proposalLapse c).onSl c fun x => { x with agreement := none }).lapseEvent c 1
  | none => s.proposalLapse c

/-- Of an exchange in progress the proposal is made again or goes, and the agreement lapses. -/
def State.exchangeLapse (s : State) (c : Nat) : State :=
  State.agreementLapse (match (s.chan c).ld.proposal with
    | some p => if p.committed then s else (s.lapse c 1 p.seq).lxAgain c p
    | none => s) c

/-- The negotiations that lapse: the bank switch's, the channel's exchange, and those of its leaves. -/
theorem State.keeperLapse_eq (s : State) (c : Nat) :
    s.keeperLapse c = ((s.bankLapse c).chan c).pm.leaves.foldl (fun u q => u.inPair c q.1 (·.exchangeLapse c))
      ((s.bankLapse c).exchangeLapse c) := rfl

section
variable {k : Nat} {s0 s : State} (h : s0.Aftermath k s)
include h

theorem State.proposalLapse_aftermath (c : Nat) : s0.Aftermath k (s.proposalLapse c) := by
  unfold State.proposalLapse
  split
  · exact aftermath_ite h (State.setChan_aftermath h (by rfl))
  · exact h

theorem State.bankLapse_aftermath (c : Nat) : s0.Aftermath k (s.bankLapse c) := by
  have hprop := State.proposalLapse_aftermath h c
  unfold State.bankLapse
  split
  · exact aftermath_ite hprop (State.raise_aftermath (State.setChan_aftermath hprop (by rfl)) ..)
  · exact hprop

theorem State.exchangeLapse_aftermath (c : Nat) : s0.Aftermath k (s.exchangeLapse c) := by
  refine State.agreementLapse_aftermath ?_ c
  split
  · exact aftermath_ite h (State.lxAgain_aftermath (State.raise_aftermath h ..) ..)
  · exact h

theorem State.keeperLapse_aftermath (c : Nat) : s0.Aftermath k (s.keeperLapse c) := by
  rw [State.keeperLapse_eq]
  exact foldl_aftermath (State.exchangeLapse_aftermath (State.bankLapse_aftermath h c) c) _ fun _ q hu =>
    State.inPair_aftermath hu c q.1 fun _ hv => State.exchangeLapse_aftermath hv c

end

/-- The channel whose keeper traps, with the keeper down. -/
def State.downed (s : State) (c : Nat) : State :=
  s.onChan c fun ch => { ch with keeperDown := true, opt := { ch.opt with held := s.blanked c } }

theorem State.keeperTrap_aftermath (s : State) (k c : Nat) : (s.downed c).Aftermath k (s.keeperTrap c) :=
  State.keeperLapse_aftermath (State.calAbandon_aftermath (State.calAbandon_aftermath (.refl ..) ..) ..) c

theorem State.keeperTrap_down (s : State) (c : Nat) : ((s.keeperTrap c).chan c).keeperDown = true := by
  rw [(s.keeperTrap_aftermath c c).down c, State.downed, State.onChan_eq, State.setChan_chan_same]

/-! ### An uncorrectable error (17 R396) -/

/-- The count and the event stand when the error is noted and its consequences follow. -/
theorem State.countUncorr_report (s : State) (k addr kind : Nat) :
    ((s.countUncorr k addr kind).sram k).uncorr = (s.sram k).uncorr + 1 ∧
    ∃ e ∈ (s.countUncorr k addr kind).batch, e.source = k ∧ e.code = 0x1840 := by
  have hcounted : ((s.onSram k fun m => { m.setFlaw addr .double with uncorr := m.uncorr + 1 }).raise k 0x1840 3
      (mkWord [(0, 32, addr), (32, 3, kind)])).Aftermath k (s.countUncorr k addr kind) := by
    unfold State.countUncorr
    exact aftermath_ite (State.setSram_aftermath (.refl ..) (by rfl)) (State.noteError_aftermath (.refl ..) ..)
  refine ⟨by rw [hcounted.uncorr]; simp, _, hcounted.raised (List.mem_append_right _ (List.mem_singleton_self _)), rfl, rfl⟩

/-- What an error leads to leaves its count and the events raised, when it serves no transfer and no scan. -/
theorem State.uncorrectable_report (s : State) (k addr kind : Nat) :
    ((s.uncorrectable k addr kind none none false).sram k).uncorr = (s.sram k).uncorr ∧
    s.batch ⊆ (s.uncorrectable k addr kind none none false).batch := by
  -- Clearing stored checks counts nothing.
  have hmended {u : State} {x : Sram} (hcount : (u.sram k).uncorr = (s.sram k).uncorr) (hraised : s.batch ⊆ u.batch)
      (hx : x.uncorr = (u.sram k).uncorr) :
      ((u.setSram k x).sram k).uncorr = (s.sram k).uncorr ∧ s.batch ⊆ (u.setSram k x).batch :=
    ⟨by rw [State.setSram_sram_same, hx, hcount], hraised⟩
  unfold State.uncorrectable
  split
  · -- a keeper traps
    have htrap := s.keeperTrap_aftermath k k
    split
    · exact hmended htrap.uncorr htrap.raised (by rfl)
    · exact ⟨rfl, List.Subset.refl _⟩
  · -- the controller stops, when it runs
    refine hmended ?_ ?_ (by rfl)
    · split <;> rfl
    · split <;> exact List.Subset.refl _
  · exact ⟨rfl, List.Subset.refl _⟩ -- no transfer to stop
  · -- a word of the datapath
    have hmarked : s.Aftermath k (if regionOf k addr = some .skewBuffer then s.errSkew k else s.errFrame k) :=
      aftermath_ite (State.errSkew_aftermath (.refl ..) k) (State.errFrame_aftermath (.refl ..) k)
    exact hmended hmarked.uncorr hmarked.raised (by rfl)
  · -- a table's word, whose copy is good
    have hmarked := State.errFrame_aftermath (.refl k s) k
    exact hmended hmarked.uncorr hmarked.raised (by rfl)
  · exact ⟨rfl, List.Subset.refl _⟩ -- no command to end

theorem State.uncorrectable_keeper (s : State) {k : Nat} (hk : k < 32) (addr : Nat) (ring cmd : Option Nat) (copyBad : Bool) :
    ((s.uncorrectable k addr 1 ring cmd copyBad).chan k).keeperDown = true := by
  simp [State.uncorrectable, hk, State.keeperTrap_down]

theorem State.uncorrectable_controller (s : State) (k addr : Nat) (ring cmd : Option Nat) (copyBad : Bool) :
    (s.uncorrectable k addr 2 ring cmd copyBad).boot.running = false := by
  by_cases hrun : s.boot.running = true <;> simp [State.uncorrectable, State.controllerStop, hrun]

theorem execUncorrectableError_reports {s : State} {k : Fin 33} {addr : BitVec 32} {kind : Fin 7}
    (hpower : s.boot.powered = true) (hkind : kind.val ≠ 0) (hin : inside addr.toNat 8 (sramBase k) (sramSize k) = true)
    (halign : addr.toNat % 8 = 0) (hplace : kindPlace kind.val k.val addr.toNat = true) :
    ∃ t, exec (.uncorrectableError k addr kind none none false) s = .next t ∧
      (t.sram k).uncorr = (s.sram k).uncorr + 1 ∧ (∃ e ∈ t.batch, e.source = k.val ∧ e.code = 0x1840) ∧
      (kind.val = 1 → (t.chan k).keeperDown = true) ∧ (kind.val = 2 → t.boot.running = false) := by
  refine ⟨_, occurs_true _ (by simp [hpower, hkind, hin, halign, hplace, State.readerOk]), ?_⟩
  obtain ⟨hcount, e, he, hevent⟩ := s.countUncorr_report k addr.toNat kind.val
  obtain ⟨hsame, hraised⟩ := (s.countUncorr k addr.toNat kind.val).uncorrectable_report k addr.toNat kind.val
  refine ⟨?_, ⟨e, State.remark_batch (hraised he), hevent⟩, fun h1 => ?_, fun h2 => ?_⟩
  · rw [State.remark_sram]
    exact hsame.trans hcount
  · have hk : k.val < 32 := by simpa [kindPlace, h1] using hplace
    rw [State.remark_chan_keeperDown, h1]
    exact State.uncorrectable_keeper _ hk ..
  · rw [State.remark_boot, h2]
    exact State.uncorrectable_controller ..

/-! ### A channel but for its calibration -/

/-- Channel c as it is read without its calibration. -/
def State.uncalibrated (s : State) (c : Nat) : Channel := { s.chan c with cal := {} }

/-- What steps of calibration leave of their channel. -/
theorem State.chan_of_uncalibrated_eq {s t : State} {c : Nat} (h : t.uncalibrated c = s.uncalibrated c) :
    (t.chan c).bu = (s.chan c).bu ∧ (t.chan c).tf = (s.chan c).tf ∧ (t.chan c).opt = (s.chan c).opt ∧
      (t.chan c).keeperDown = (s.chan c).keeperDown ∧ (t.chan c).keeperVer = (s.chan c).keeperVer :=
  ⟨congrArg (·.bu) h, congrArg (·.tf) h, congrArg (·.opt) h, congrArg (·.keeperDown) h, congrArg (·.keeperVer) h⟩

@[simp] theorem State.onCal_uncalibrated (s : State) (c : Nat) (g : Cal → Cal) :
    (s.onCal c g).uncalibrated c = s.uncalibrated c := by
  simp [State.uncalibrated]

@[simp] theorem State.calEvent_uncalibrated (s : State) (c : Nat) (tx : Bool) (reason n sev : Nat) (cause : Option Nat) :
    (s.calEvent c tx reason n sev cause).uncalibrated c = s.uncalibrated c := rfl

@[simp] theorem State.calTell_uncalibrated (s : State) (c : Nat) (tx : Bool) (outcome : Nat) :
    (s.calTell c tx outcome).uncalibrated c = s.uncalibrated c := by
  unfold State.calTell
  dsimp only
  rw [foldl_eq_of (State.uncalibrated · c) _ _ _ fun u w => by simp [State.uncalibrated, State.chan], State.onCal_uncalibrated]

@[simp] theorem State.calResume_uncalibrated (s : State) (c : Nat) (tx : Bool) :
    (s.calResume c tx).uncalibrated c = s.uncalibrated c := by
  simp only [State.calResume, State.calStart, apply_ite (State.uncalibrated · c), State.onCal_uncalibrated, ite_self]

@[simp] theorem State.calAbandon_uncalibrated (s : State) (c : Nat) (tx : Bool) (cause : Option Nat) :
    (s.calAbandon c tx cause).uncalibrated c = s.uncalibrated c := by
  unfold State.calAbandon State.calReject
  dsimp only
  split
  · rfl
  · simp only [if_true, apply_ite (State.uncalibrated · c), State.calTell_uncalibrated, State.calEvent_uncalibrated,
      State.onCal_uncalibrated, ite_self]

/-! ### A keeper restarts (21 R460; 20 R445) -/

theorem State.openOutput_chan (s : State) (c : Nat) : ∃ o, (s.openOutput c).chan c = { s.chan c with opt := o } := by
  unfold State.openOutput
  dsimp only
  split
  · exact ⟨_, State.setChan_chan_same ..⟩
  · exact ⟨(s.chan c).opt, rfl⟩

@[simp] theorem State.openOutput_outside (s : State) (c : Nat) : (s.openOutput c).outside c = s.outside c := by
  unfold State.openOutput
  exact State.ite_outside (by simp) rfl

/-- The channel whose keeper restarts, before its output opens and its runs resume. -/
def State.restarted (s : State) (c : Nat) : State :=
  s.onChan c fun ch => { ch with
    keeperDown := false, keeperVer := s.sec.runningVer, opt := { ch.opt with held := false } }

theorem execKeeperRestartDone_restarts {s : State} {c : Fin 32} (hpower : s.boot.powered = true)
    (hdown : (s.chan c).keeperDown = true) :
    ∃ t, exec (.keeperRestartDone c) s = .next t ∧ (t.chan c).keeperDown = false ∧
      (t.chan c).keeperVer = s.sec.runningVer ∧ (t.chan c).bu = (s.chan c).bu ∧ (t.chan c).tf = (s.chan c).tf ∧
      ∀ m : Fin 32, m ≠ c → (t.chan m).Same (s.chan m) := by
  refine ⟨((((s.restarted c).openOutput c).calResume c false).calResume c true).remark,
    occurs_true _ (by simp [hpower, hdown]), ?_⟩
  obtain ⟨o, hopen⟩ := (s.restarted c).openOutput_chan c
  have hown : (s.restarted c).chan c = _ := State.setChan_chan_same ..
  obtain ⟨hbu, htf, -, hkeeper, hver⟩ := State.chan_of_uncalibrated_eq (c := c) (s := (s.restarted c).openOutput c)
    (t := (((s.restarted c).openOutput c).calResume c false).calResume c true) (by simp)
  obtain ⟨hothers, -⟩ := State.frame_of_outside_eq (c := c) (s := s)
    (t := ((((s.restarted c).openOutput c).calResume c false).calResume c true).remark) (by simp [State.restarted])
  rw [hopen, hown] at hbu htf hkeeper hver
  exact ⟨by simpa using hkeeper, by simpa using hver, by simpa using hbu, by simpa using htf,
    fun m hm => hothers m (Fin.val_ne_of_ne hm)⟩

/-! ### A deadline expires (02 R30 to R32) -/

theorem State.stopChannel_chan (s : State) (c step : Nat) :
    ((s.stopChannel c step).chan c).bu.stopped = true ∧ ((s.stopChannel c step).chan c).bu.step = step ∧
    ((s.stopChannel c step).chan c).opt.shutter = true := by
  unfold State.stopChannel
  dsimp only
  generalize hu : s.onChan c _ = u
  obtain ⟨hbu, -, hopt, -⟩ := State.chan_of_uncalibrated_eq (c := c) (s := u)
    (t := (u.calAbandon c true).calAbandon c false) (by simp)
  rw [hbu, hopt, ← hu, State.onChan_eq, State.setChan_chan_same]
  exact ⟨rfl, rfl, rfl⟩

/-- A bring-up that stops keeps its step, with the output closed, and its command ends (11 R256). -/
theorem State.bringupStops_chan (s : State) (c : Nat) :
    ((s.bringupStops c).chan c).bu.stopped = true ∧ ((s.bringupStops c).chan c).bu.step = (s.chan c).bu.step ∧
    ((s.bringupStops c).chan c).opt.shutter = true := by
  simpa [State.bringupStops] using s.stopChannel_chan c (s.chan c).bu.step

theorem State.bringupStops_flight? {s : State} {c id : Nat} (h : (s.chan c).bu.cmd = some id) :
    (s.bringupStops c).flight? id = none := by
  unfold State.bringupStops
  dsimp only
  rw [h]
  exact State.finishId_flight? ..

/-- Disabling the rings that a new record revokes takes no time back. -/
theorem State.recordInForce_now (s : State) (f : Flight) (p : Partition) : s.now ≤ (s.recordInForce f p).now :=
  have hrings {u : State} (rs : List Nat) : u.now ≤ (rs.foldl State.revokeRing u).now :=
    (foldl_quiet rs State.revokeRing u (fun _ r hu => State.revokeRing_quiet r hu) (.refl u)).now
  hrings (u := { s with part := p, sec := _ }) _

theorem State.ledgerExpires_now (s : State) (f : Flight) (whole : Bool) : s.now ≤ (s.ledgerExpires f whole).now := by
  unfold State.ledgerExpires
  dsimp only
  split
  · split
    · exact State.recordInForce_now (s.onSec _) f _
    · exact Nat.le_refl _
  · exact Nat.le_refl _

/-- What a command that runs leaves behind takes no time back. -/
theorem State.moduleExpires_now (s : State) (f : Flight) (whole : Bool) (part : Nat) :
    s.now ≤ (s.moduleExpires f whole part).now := by
  have hs := State.Quiet.refl s
  unfold State.moduleExpires
  dsimp only
  split
  · exact s.ledgerExpires_now f whole
  · exact s.ledgerExpires_now f whole
  · exact (State.bankExpires_quiet f hs).now
  · exact (State.testExpires_quiet _ _ hs).now
  · exact (State.selfcalExpires_quiet _ _ hs).now
  · exact Nat.le_refl _ -- a fill
  · exact Nat.le_refl _ -- a copy in
  · exact Nat.le_refl _ -- a retirement
  · exact Nat.le_refl _ -- a shore inventory
  · exact Nat.le_refl _ -- a shore message
  · exact (State.chanExpires_quiet f hs).now

theorem State.expire_now (s : State) (f : Flight) (whole : Bool) (part : Nat) : s.now ≤ (s.expire f whole part).now := by
  have hs := State.Quiet.refl s
  unfold State.expire
  split
  · exact (State.finish_quiet _ _ _ _ _ (State.jobExpires_quiet f hs)).now
  split
  · exact (State.bringupStops_quiet _ hs).now
  split
  · exact (State.finish_quiet _ _ _ _ _ (State.imageExpires_quiet _ hs)).now
  split
  · rw [State.finish_now]
    exact s.moduleExpires_now f whole part
  · exact (State.finish_quiet _ _ _ _ _ hs).now

/-- The command ends, unless it is a bring-up in progress. -/
theorem State.expire_flight? (s : State) {f : Flight} (h : f.desc.opcode ≠ 0x1400 ∨ f.phase ≠ .running) (whole : Bool)
    (part : Nat) : (s.expire f whole part).flight? f.id = none := by
  have hbringup : ¬ (f.desc.opcode = 0x1400 ∧ f.phase = .running) := fun hrun =>
    h.elim (fun hop => hop hrun.1) fun hphase => hphase hrun.2
  simp only [State.expire, Bool.and_eq_true, decide_eq_true_eq, if_neg hbringup, apply_ite (State.flight? · f.id),
    State.finish_flight?_same, ite_self]

theorem State.expire_bringup (s : State) {f : Flight} (hop : f.desc.opcode = 0x1400) (hrun : f.phase = .running) (whole : Bool)
    (part : Nat) : s.expire f whole part = s.bringupStops f.desc.target := by
  simp [State.expire, hop, hrun]

theorem State.canExpire_iff {s : State} {f : Flight} : s.canExpire f = true ↔ s.boot.powered = true ∧
    (f.limited = true → f.phase ≠ .fetched) ∧ (f.desc.opcode = 0x1410 → f.phase ≠ .running) := by
  simp only [State.canExpire, Bool.and_eq_true, Bool.not_eq_true', Bool.and_eq_false_imp, decide_eq_true_eq,
    decide_eq_false_iff_not, and_assoc, ne_eq]

/-- A command that its deadline can end ends in the state at that time. -/
theorem execCommandDeadlineExpiry_expires {s : State} {id due : Nat} {f : Flight} (hflight : s.flight? id = some f)
    (hcan : s.canExpire f = true) (hdue : s.dueAt f = some due) (whole : Bool) (part : Nat) :
    exec (.commandDeadlineExpiry id whole part) s = .next ((s.at due).expire f whole part).remark :=
  occursWith_some (a := (f, due)) _ (by simp [hflight, Option.filter, hcan, hdue])

theorem State.due_le_expire_now (s : State) (f : Flight) (due : Nat) (whole : Bool) (part : Nat) :
    due ≤ ((s.at due).expire f whole part).remark.now := calc
  due ≤ (s.at due).now := Nat.le_max_right ..
  _ ≤ ((s.at due).expire f whole part).now := State.expire_now ..
  _ = ((s.at due).expire f whole part).remark.now := (State.remark_now _).symm

/-- Settles O58, each clause by the lemma of its row. -/
theorem faultsAndDeadlines : Obligations.FaultsAndDeadlines := by
  unfold Obligations.FaultsAndDeadlines
  refine ⟨fun s => ⟨fun k addr kind hpower hkind hin halign hplace => ?_, fun c hpower hdown => ?_⟩,
    fun s id f due whole part hflight hpower hlimited hdue => ⟨fun hbringup hreset => ?_, fun c hop hrun htarget hcmd => ?_⟩⟩
  · exact execUncorrectableError_reports hpower hkind hin halign hplace
  · exact execKeeperRestartDone_restarts hpower hdown
  · have hcan : s.canExpire f = true := State.canExpire_iff.2 ⟨hpower, hlimited, hreset⟩
    refine ⟨_, execCommandDeadlineExpiry_expires hflight hcan hdue whole part, ?_, s.due_le_expire_now f due whole part⟩
    rw [State.remark_flight?, ← State.flight?_id hflight]
    exact State.expire_flight? _ hbringup whole part
  · have hcan : s.canExpire f = true := State.canExpire_iff.2 ⟨hpower, hlimited, by simp [hop]⟩
    subst htarget
    refine ⟨_, execCommandDeadlineExpiry_expires hflight hcan hdue whole part, ?_, s.due_le_expire_now f due whole part, ?_⟩
    · rw [State.remark_flight?, State.expire_bringup _ hop hrun]
      exact State.bringupStops_flight? hcmd
    · rw [State.remark_chan_bu, State.remark_chan_opt, State.expire_bringup _ hop hrun]
      exact State.bringupStops_chan ..

end Sys2Proof.Machine
end

section
/-! What a ring keeps while records are written to it, and the record that a command leaves in its completion ring when it
ends (04 R72, R75). -/

namespace Sys2Proof.Machine

/-! ### A ring but for the counts of its records -/

/-- A ring as it is read without the counts that its records move. -/
def Ring.settings (x : Ring) : Ring :=
  { x with reserved := 0, draining := false, written := 0, unread := 0, moved := 0, unsignalled := 0, modDue := none }

theorem State.setRing_settings (s : State) {r : Nat} {x : Ring} (h : x.settings = (s.ring r).settings) (q : Nat) :
    ((s.setRing r x).ring q).settings = (s.ring q).settings := by
  by_cases hq : q = r
  · rw [hq, State.setRing_ring_same, h]
  · rw [State.setRing_ring_ne s x hq]

@[simp] theorem State.msix_ring (s : State) (n v r : Nat) : (s.msix n v).ring r = s.ring r := by simp [State.ring]

@[simp] theorem State.signal_settings (s : State) (r q : Nat) : ((s.signal r).ring q).settings = (s.ring q).settings := by
  rw [State.signal, State.msix_ring]
  exact s.setRing_settings (by rfl) q

@[simp] theorem State.wrote_settings (s : State) (r : Nat) (b : Bool) (q : Nat) :
    ((s.wrote r b).ring q).settings = (s.ring q).settings := by
  unfold State.wrote
  dsimp only
  split
  · rw [State.signal_settings, s.setRing_settings (by rfl)]
  · exact s.setRing_settings (by rfl) q

@[simp] theorem State.writeCompletion_settings (s : State) (cq : Nat) (c : Completion) (b : Bool) (q : Nat) :
    ((s.writeCompletion cq c b).ring q).settings = (s.ring q).settings := by
  have hpaid : ((s.setRing cq (s.ring cq).paid).ring q).settings = (s.ring q).settings := s.setRing_settings (by rfl) q
  unfold State.writeCompletion
  dsimp only
  split
  · rw [State.wrote_settings]
    exact hpaid
  · exact hpaid

@[simp] theorem State.finish_settings (s : State) (f : Flight) (st : Nat) (r0 r1 r2 : Option Nat) (q : Nat) :
    ((s.finish f st r0 r1 r2).ring q).settings = (s.ring q).settings := by
  unfold State.finish
  dsimp only
  split
  · rfl -- no record
  · split
    · rfl -- kept back by its link
    · exact State.writeCompletion_settings (s.dropFlight f.id).draw ..

@[simp] theorem State.finishAll_settings (s : State) (ids : List Nat) (st q : Nat) :
    ((s.finishAll ids st).ring q).settings = (s.ring q).settings :=
  foldl_eq_of (fun u => (u.ring q).settings) _ _ _ fun _ _ => by
    split
    · exact State.finish_settings ..
    · rfl

/-- A ring whose posted buffers complete keeps all of its set-up but them. -/
theorem State.flushPosted_settings (s : State) (r st : Nat) :
    ((s.flushPosted r st).ring r).settings = { s.ring r with posted := [] }.settings := by
  unfold State.flushPosted
  dsimp only
  rw [State.finishAll_settings, State.onRing_eq, State.setRing_ring_same]

/-! ### The completion record -/

theorem State.wrote_ring_written (s : State) (r : Nat) (b : Bool) : ((s.wrote r b).ring r).written = (s.ring r).written + 1 := by
  unfold State.wrote
  dsimp only
  split <;> simp [State.signal]

/-- A completion ring that takes a record counts it and receives it at its next entry, with PHASE of the pass. -/
theorem State.writeCompletion_record (s : State) {q : Nat} (hen : (s.ring q).en = true) (hrun : (s.ring q).halted = false)
    (c : Completion) (b : Bool) :
    ((s.writeCompletion q c b).ring q).written = (s.ring q).written + 1 ∧
    Output.record (s.ring q).owner ((s.ring q).entryAddr ((s.ring q).written % (s.ring q).entries))
      (wordsBytes { c with phase := (s.ring q).phaseNext, fetchHead := (s.ring c.ring).head }.words) ∈
        (s.writeCompletion q c b).out := by
  have htakes : (((s.ring q).en || (s.ring q).draining) && (!(s.ring q).halted || (s.ring q).limitHalt)) = true := by
    simp [hen, hrun]
  unfold State.writeCompletion
  dsimp only
  rw [if_pos htakes]
  exact ⟨by simp [State.wrote_ring_written, Ring.paid], State.wrote_out _ _ _ (List.mem_cons_self ..)⟩

/-- On a link that is up a command that ends leaves its record at once. -/
theorem State.finish_eq_writeCompletion (s : State) {f : Flight} (horphan : f.orphan = false)
    (hup : (s.link f.link).recovery = false) (hlimited : f.limited = false) (st : Nat) (r0 r1 r2 : Option Nat) :
    s.finish f st r0 r1 r2 =
      (s.dropFlight f.id).draw.writeCompletion (s.ring f.ring).cq (s.record f st r0 r1 r2) f.desc.solicit := by
  simp [State.finish, horphan, hup, hlimited]

/-- Settles O11: the command's record, as its completion ring takes it. -/
theorem finishWritesRecord : Obligations.FinishWritesRecord := by
  unfold Obligations.FinishWritesRecord
  rintro s f st r0 r1 r2 q rfl horphan hup hlimited hen hrun
  refine ⟨State.finish_flight?_same .., ?_⟩
  rw [s.finish_eq_writeCompletion horphan hup hlimited]
  obtain ⟨hcount, hrecord⟩ := (s.dropFlight f.id).draw.writeCompletion_record (q := (s.ring f.ring).cq) hen hrun
    (s.record f st r0 r1 r2) f.desc.solicit
  exact ⟨hcount, _, hrecord, rfl, rfl, rfl, rfl, rfl, rfl, rfl, rfl, rfl, decide_eq_true_iff⟩

end Sys2Proof.Machine
end

section
/-! What leaves the module as it was but for a command's end: a descriptor that its ring does not accept, and the commands
that only read (04 R57, R66). -/

namespace Sys2Proof.Machine

/-! ### The same module -/

theorem SameModule.refl (s : State) : SameModule s s := by
  constructor <;> simp [Channel.Same]

theorem State.writeBuf_finish_sameModule (s : State) (f : Flight) (off : Nat) (bs : List Byte) (st : Nat)
    (r0 r1 r2 : Option Nat) : SameModule s ((s.writeBuf f off bs).finish f st r0 r1 r2).remark := by
  constructor <;> simp [Channel.Same]

theorem State.ite_sameModule {s a b : State} {p : Prop} [Decidable p] (ha : SameModule s a.remark)
    (hb : SameModule s b.remark) : SameModule s (if p then a else b).remark := by
  split <;> assumption

/-- A refusal ends the command, and what else it would do is left to show. -/
theorem State.ite_finish_sameModule {s b : State} {f : Flight} {st : Nat} {p : Prop} [Decidable p]
    (hb : SameModule s b.remark) : SameModule s (if p then s.finish f st else b).remark :=
  State.ite_sameModule (s.finish_sameModule ..) hb

theorem State.answerBytes_sameModule (s : State) (f : Flight) (bs : List Byte) : SameModule s (s.answerBytes f bs).remark :=
  State.ite_finish_sameModule (s.writeBuf_finish_sameModule ..)

theorem State.answerEntries_sameModule (s : State) (f : Flight) (es : List LedgerEntry) :
    SameModule s (s.answerEntries f es).remark :=
  s.answer_sameModule ..

/-! ### A descriptor that its ring kind does not accept -/

theorem opInfo_op {op : Nat} {o : OpInfo} (h : opInfo op = some o) : o.op = op := by
  simpa using List.find?_some h

/-- A command that may start meets the checks of every command. -/
theorem execCommandStart_does {s : State} {id : Nat} {f : Flight} {o : OpInfo}
    (hfind : s.flights.find? (fun f => f.id = id && s.canStart f) = some f) (hop : opInfo f.desc.opcode = some o) :
    s.Does (.commandStart id) (s.start f o) :=
  occursWith_some (a := (f, o)) _ (by simp [hfind, hop])

theorem OpInfo.wellFormed_of_not_accepts {o : OpInfo} {k : RingKind} {d : Desc} (hop : opInfo d.opcode = some o)
    (hkind : k.accepts d.opcode = false) (r : Nat) : o.wellFormed k r d = false := by
  simp [OpInfo.wellFormed, opInfo_op hop, hkind]

/-- Settles O12: the start ends the command, which leaves the module as it was. -/
theorem wrongRingKind : Obligations.WrongRingKind := by
  unfold Obligations.WrongRingKind
  intro s id f o hfind hop hkind
  have hstart : s.start f o = s.finish f 0x01 := by simp [State.start, OpInfo.wellFormed_of_not_accepts hop hkind]
  have hdoes : s.Does (.commandStart id) (s.finish f 0x01) := hstart ▸ execCommandStart_does hfind hop
  refine ⟨hdoes, fun t ht => ?_⟩
  obtain rfl : (s.finish f 0x01).remark = t := Host.Outcome.next.inj (hdoes.symm.trans ht)
  exact s.finish_sameModule ..

/-! ### The rows that read -/

/-- A command row leaves the module as it was when its meaning does. -/
theorem withCmd_sameModule {s t : State} {id op : Nat} {k : Flight → State} (h : withCmd s id op k = .next t)
    (hk : ∀ f, SameModule s (k f).remark) : SameModule s t := by
  obtain rfl | ⟨f, -, rfl⟩ := withCmd_cases h
  · exact .refl _
  · exact hk f

/-- Most rows answer with words that the state gives. -/
theorem withCmd_answer_sameModule {s t : State} {id op : Nat} {ws : Flight → List Word} {r0 r1 r2 : Flight → Option Nat}
    (h : withCmd s id op (fun f => s.answer f (ws f) (r0 f) (r1 f) (r2 f)) = .next t) : SameModule s t :=
  withCmd_sameModule h fun _ => s.answer_sameModule ..

theorem withCipher_sameModule {s t : State} {id op : Nat} {k : Flight → Nat → Cipher → State}
    (h : withCipher s id op k = .next t) (hk : ∀ f i x, SameModule s (k f i x).remark) : SameModule s t := by
  refine withCmd_sameModule h fun f => ?_
  split
  · exact hk ..
  · exact s.finish_sameModule ..

theorem withMode_sameModule {s t : State} {id op : Nat} {m : P2Mode} {k : Flight → Nat → State}
    (h : withMode s id op m k = .next t) (hk : ∀ f c, SameModule s (k f c).remark) : SameModule s t :=
  withCmd_sameModule h fun _ => State.ite_sameModule (hk ..) (s.finish_sameModule ..)

/-- A read of words without a stored error finds none. -/
theorem State.dmaRead_clean {s : State} {k : Nat} (h : (s.sram k).bad = []) (f : Flight) (a len : Nat) (go : State → State) :
    s.dmaRead f k a len [] go = go s := by
  simp [State.dmaRead, State.readRange, h]

section
variable {s t : State} {id : Nat}

theorem execRingQuery_sameModule (h : execRingQuery id s = .next t) : SameModule s t :=
  withCmd_sameModule h fun _ => State.ite_finish_sameModule <|
    State.ite_sameModule (s.answer_sameModule ..) (s.finish_sameModule ..)

theorem execLoadPlan_sameModule (h : execLoadPlan id s = .next t) : SameModule s t := by
  refine withCmd_sameModule h fun f => ?_
  dsimp only
  split
  · exact s.finish_sameModule .. -- no plan
  · exact s.answer_sameModule ..

theorem execOhSnapshot_sameModule (h : execOhSnapshot id s = .next t) : SameModule s t := by
  refine withCmd_sameModule h fun f => ?_
  split
  · exact s.answer_sameModule ..
  · exact s.finish_sameModule .. -- no overhead yet

theorem execAgeProposal_sameModule (h : execAgeProposal id s = .next t) : SameModule s t := by
  refine withCmd_sameModule h fun f => ?_
  split
  · exact s.answer_sameModule ..
  · exact s.finish_sameModule .. -- no proposal

theorem execAgeLedgerRead_sameModule (h : execAgeLedgerRead id s = .next t) : SameModule s t :=
  withCmd_sameModule h fun _ => State.ite_finish_sameModule (s.answer_sameModule ..)

theorem execGroupQuery_sameModule (h : execGroupQuery id s = .next t) : SameModule s t :=
  withCmd_sameModule h fun _ => State.ite_finish_sameModule (s.answer_sameModule ..)

theorem execSlotRead_sameModule (h : execSlotRead id s = .next t) : SameModule s t :=
  withCmd_sameModule h fun _ => State.ite_finish_sameModule <| State.ite_finish_sameModule <|
    s.writeBuf_finish_sameModule ..

theorem execCipherQuery_sameModule (h : execCipherQuery id s = .next t) : SameModule s t :=
  withCipher_sameModule h fun _ _ _ => s.answer_sameModule ..

theorem execCipherCounters_sameModule (h : execCipherCounters id s = .next t) : SameModule s t :=
  withCipher_sameModule h fun _ _ _ => s.answer_sameModule ..

theorem execLeafQuery_sameModule (h : execLeafQuery id s = .next t) : SameModule s t :=
  withMode_sameModule h fun _ _ => s.answer_sameModule ..

theorem execBurstCounters_sameModule (h : execBurstCounters id s = .next t) : SameModule s t :=
  withMode_sameModule h fun _ _ => s.answer_sameModule ..

theorem execLeafStatus_sameModule (h : execLeafStatus id s = .next t) : SameModule s t :=
  withMode_sameModule h fun _ _ => s.answer_sameModule ..

/-- The records read lie in the SRAM of the converter (15 R370). -/
theorem execMonHistory_sameModule (hclean : ∀ n, (s.sram n).bad = []) (h : execMonHistory id s = .next t) :
    SameModule s t := by
  refine withCmd_sameModule h fun _ => State.ite_finish_sameModule ?_
  dsimp only
  rw [State.dmaRead_clean (hclean _), State.dmaRead_clean (hclean _)]
  exact s.writeBuf_finish_sameModule ..

end

/-- Settles O8: each of the commands ends with a record and bytes for the host alone. -/
theorem queriesLeaveTheModule : Obligations.QueriesLeaveTheModule := by
  unfold Obligations.QueriesLeaveTheModule
  intro s t id i hi h
  rcases hi with rfl | rfl | rfl | rfl | rfl | rfl | rfl | rfl | rfl | rfl | rfl | rfl | rfl | rfl | rfl | rfl | rfl | rfl |
    rfl | rfl | rfl | rfl | rfl | rfl | rfl | rfl | rfl | rfl | rfl | rfl | rfl | rfl | rfl | ⟨a, b, d, n, rfl⟩ |
    ⟨rfl, hclean⟩ | rfl | rfl | rfl | rfl | rfl | rfl | rfl | ⟨x, rfl⟩ | rfl | rfl
  -- Rings, alarms and the partition.
  · exact withCmd_sameModule h fun _ => s.finish_sameModule ..
  · exact execRingQuery_sameModule h
  · exact withCmd_answer_sameModule h
  · exact withCmd_answer_sameModule h
  · exact withCmd_sameModule h fun _ => s.answerEntries_sameModule ..
  -- Receiver and code.
  · exact withCmd_answer_sameModule h
  · exact withCmd_answer_sameModule h
  · exact withCmd_answer_sameModule h
  · exact withCmd_answer_sameModule h
  -- Loading.
  · exact withCmd_answer_sameModule h
  · exact withCmd_answer_sameModule h
  · exact execLoadPlan_sameModule h
  -- The line frame.
  · exact withCmd_answer_sameModule h
  · exact withCmd_answer_sameModule h
  · exact execOhSnapshot_sameModule h
  -- Kapra lanes.
  · exact withCmd_answer_sameModule h
  · exact withCmd_answer_sameModule h
  -- Calibration.
  · exact withCmd_answer_sameModule h
  · exact withCmd_answer_sameModule h
  -- Line encryption.
  · exact execCipherQuery_sameModule h
  · exact execCipherCounters_sameModule h
  -- Memory.
  · exact withCmd_answer_sameModule h
  · exact withCmd_answer_sameModule h
  · exact withCmd_sameModule h fun _ => s.answerBytes_sameModule ..
  -- Ageing.
  · exact withCmd_answer_sameModule h
  · exact execAgeLedgerRead_sameModule h
  · exact execAgeProposal_sameModule h
  · exact withCmd_sameModule h fun _ => s.answerBytes_sameModule ..
  -- The shore chain.
  · exact withCmd_answer_sameModule h
  · exact withCmd_answer_sameModule h
  -- Hubs and leaves.
  · exact execLeafQuery_sameModule h
  · exact execBurstCounters_sameModule h
  · exact execLeafStatus_sameModule h
  -- Optics and the monitor.
  · exact withCmd_answer_sameModule h
  · exact execMonHistory_sameModule hclean h
  -- Security.
  · exact withCmd_sameModule h fun _ => s.answerEntries_sameModule ..
  · exact withCmd_answer_sameModule h
  · exact withCmd_answer_sameModule h
  · exact withCmd_sameModule h fun _ => s.writeBuf_finish_sameModule ..
  -- Slots, banks and groups.
  · exact execSlotRead_sameModule h
  · exact withCmd_answer_sameModule h
  · exact execGroupQuery_sameModule h
  -- Timing and tributaries.
  · exact withCmd_answer_sameModule h
  · exact withCmd_answer_sameModule h
  · exact withCmd_sameModule h fun _ => s.answerBytes_sameModule ..

end Sys2Proof.Machine
end

section
/-! Enabling and disabling rings, doorbells, fetch and start, what rings do by themselves, and the ring administration
commands (04 R58, R61, R62, R65, R71, R75 to R78; 21 R458). -/

namespace Sys2Proof.Machine

/-! ### Rings in a list -/

/-- No ring is listed for a condition that none meets, when the map lists each ring as it reads. -/
theorem State.ringsWhere_eq_nil {s : State} {p : Nat → Ring → Bool} (hlisted : ∀ q ∈ s.rings, s.ring q.1 = q.2)
    (h : ∀ m, p m (s.ring m) = false) : s.ringsWhere p = [] := by
  rw [State.ringsWhere, List.map_eq_nil_iff, List.filter_eq_nil_iff]
  intro q hq
  rw [← hlisted q hq, h]
  decide

/-! ### A ring that stops -/

theorem State.flushPosted_en (s : State) (r st : Nat) : ((s.flushPosted r st).ring r).en = (s.ring r).en :=
  congrArg (·.en) (s.flushPosted_settings r st)

theorem State.flushPosted_halted (s : State) (r st : Nat) : ((s.flushPosted r st).ring r).halted = (s.ring r).halted :=
  congrArg (·.halted) (s.flushPosted_settings r st)

@[simp] theorem State.dropCapture_ring (s : State) (r q : Nat) : (s.dropCapture r).ring q = s.ring q := by
  unfold State.dropCapture
  split <;> rfl

theorem State.disableRing_en (s : State) (r : Nat) : ((s.disableRing r).ring r).en = false := calc
  ((s.disableRing r).ring r).en = ((s.stopRing r).ring r).en := congrArg (·.en) (State.finishAll_settings ..)
  _ = false := by rw [State.stopRing, State.dropCapture_ring, State.flushPosted_en, State.onRing_eq, State.setRing_ring_same]

theorem State.haltRing_halted {s : State} {r : Nat} (hen : (s.ring r).en = true) (hrun : (s.ring r).halted = false)
    (cause : Nat) : ((s.haltRing r cause).ring r).halted = true := by
  have hstops : ((s.ring r).en && !(s.ring r).halted) = true := by simp [hen, hrun]
  rw [State.haltRing, if_pos hstops, State.flushPosted_halted]
  simp

/-! ### A ring is enabled (04 R58) -/

/-- R58's conditions leave no reason to refuse the enable. -/
theorem State.enableErr_eq_zero {s : State} {n r : Nat} {x : Ring} (hboot : s.boot.booted = true)
    (hdb : (s.link n).dbAddr ≠ 0) (hmay : s.mayEnable n (ringBlock r) x.kind = true) (hsize : x.size ≤ 10)
    (haddr : x.addr ≠ 0) (hcq : x.kind.hostMade = true → s.cqUsable n r x.cq = true)
    (hone : x.kind = .event → s.ringsWhere (fun m y => y.kind = .event && y.en && y.owner = n && ringBlock m = ringBlock r) = [])
    (hidle : s.ringBusy r = false) : s.enableErr n r x = 0 := by
  have hsize' : ¬ 10 < x.size := Nat.not_lt.2 hsize
  have hcq' : (x.kind.hostMade && !s.cqUsable n r x.cq) = false := by
    cases hmade : x.kind.hostMade <;> simp_all
  have hone' : (decide (x.kind = .event) && !(s.ringsWhere fun m y =>
      y.kind = .event && y.en && y.owner = n && ringBlock m = ringBlock r).isEmpty) = false := by
    by_cases hevent : x.kind = .event <;> simp_all
  simp only [State.enableErr, State.posReady, hboot, hdb, hmay, hsize', haddr, hcq', hone', hidle, Bool.not_true,
    Bool.false_eq_true, decide_false, Bool.or_self, if_false]

/-- A ring that link n has enabled with the settings y, before the low water that waits to be told (18 R414). -/
def State.enabled (s : State) (n r : Nat) (y : Ring) : State :=
  ({ s with seen := s.seen.filter fun q => q.ring ≠ r }.setRing r (y.start n)).onLink n fun l =>
    { l with sweepDue := some (l.sweepDue.getD (s.now + l.sweepInt * 100000)) }

/-- Telling low water moves its event alone. -/
theorem State.reportLow_eq (s : State) (r : Nat) :
    ∃ low es, s.reportLow r = { s with lowReport := low, batch := es } := by
  unfold State.reportLow
  split
  · exact ⟨_, _, rfl⟩
  · exact ⟨s.lowReport, s.batch, rfl⟩

theorem State.ringEnable_eq {s : State} {n r : Nat} {v : Word} (hoff : (s.ring r).en = false)
    (herr : s.enableErr n r ((s.ring r).withCfg v) = 0) :
    ∃ low es, s.ringEnable n r v = { s.enabled n r ((s.ring r).withCfg v) with lowReport := low, batch := es } := by
  simp only [State.ringEnable, hoff, herr, Bool.false_eq_true, if_false, if_true]
  split
  · exact State.reportLow_eq ..
  · exact ⟨s.lowReport, s.batch, rfl⟩

theorem State.ringBusy_en {s : State} {r : Nat} (h : s.ringBusy r = false) : (s.ring r).en = false := by
  simp only [State.ringBusy, Bool.or_eq_false_iff, and_assoc] at h
  exact h.1

theorem execRingEnable_enables {s : State} {n : Fin 4} {r : Fin 65536} {v : Word} (hreach : s.reach n = true)
    (hrcv : s.sec.rcvMode = false) (hv : v.bit 0 = true) (hoff : (s.ring r).en = false)
    (herr : s.enableErr n r ((s.ring r).withCfg v) = 0) :
    ∃ t, exec (.ringEnable n r v) s = .next t ∧ t.ring r = ((s.ring r).withCfg v).start n ∧
      (∀ q, q ≠ r.val → t.ring q = s.ring q) ∧ (∀ c, (t.chan c).Same (s.chan c)) ∧ t.flights = s.flights ∧
      t.kept = s.kept := by
  refine ⟨_, occurs_true _ (by simp [hreach, hrcv, hv]), ?_⟩
  obtain ⟨low, es, henabled⟩ := State.ringEnable_eq hoff herr
  rw [henabled]
  refine ⟨?_, fun q hq => ?_, fun c => State.remark_same _ c, ?_, ?_⟩
  · rw [State.remark_ring]
    exact State.setRing_ring_same ..
  · rw [State.remark_ring]
    exact State.setRing_ring_ne _ _ hq
  · rw [State.remark_flights]
    rfl
  · rw [State.remark_kept]
    rfl

/-! ### A ring is disabled (04 R77) -/

theorem execRingDisable_disables {s : State} {n : Fin 4} {r : Fin 65536} {v : Word} (hreach : s.reach n = true)
    (hrcv : s.sec.rcvMode = false) (hv : v.bit 0 = false) (hboot : s.boot.booted = true) (hen : (s.ring r).en = true)
    (howner : (s.ring r).owner = n) (hfree : (s.ring r).kind = .completion → s.feeders r = []) :
    ∃ t, exec (.ringDisable n r v) s = .next t ∧ (t.ring r).en = false ∧ t.fetchable r = false ∧ t.kept = s.kept := by
  refine ⟨_, occurs_true _ (by simp [hreach, hrcv, hv]), ?_⟩
  have hunfed : (decide ((s.ring r).kind = .completion) && !(s.feeders r).isEmpty) = false := by
    by_cases hkind : (s.ring r).kind = .completion <;> simp_all
  have hdisable : s.ringDisable n r v = (s.setRing r { s.ring r with err := 0 }).disableRing r := by
    simp [State.ringDisable, State.posReady, hboot, hen, howner, hunfed]
  have hoff : ((s.ringDisable n r v).remark.ring r).en = false := by
    rw [State.remark_ring, hdisable, State.disableRing_en]
  refine ⟨hoff, by simp only [State.fetchable, hoff, Bool.false_and], ?_⟩
  rw [State.remark_kept, hdisable]
  exact (State.disableRing_quiet r (State.setRing_quiet _ _ (.refl s))).kept

/-- Settles O24: R58's conditions let the ring be enabled, and its owner's write of RING_EN 0 disables it. -/
theorem ringSwitching : Obligations.RingSwitching := by
  unfold Obligations.RingSwitching
  refine ⟨fun s n r v hreach hrcv hv hboot hdb hidle hmay hsize haddr hcq hone hlisted => ?_,
    fun s n r v hreach hrcv hv hboot hen howner hfree => execRingDisable_disables hreach hrcv hv hboot hen howner hfree⟩
  refine execRingEnable_enables hreach hrcv hv (State.ringBusy_en hidle)
    (State.enableErr_eq_zero hboot hdb hmay hsize haddr hcq (fun hevent => ?_) hidle)
  refine State.ringsWhere_eq_nil hlisted fun m => ?_
  simpa [and_assoc] using hone hevent m

/-! ### Doorbells (04 R61, R62) -/

theorem execNudgeGroup_counts {s : State} {n : Fin 4} (hreach : s.reach n = true) (hrcv : s.sec.rcvMode = false)
    (hdb : (s.link n).dbAddr ≠ 0) (hrun : s.boot.running = true) (v : Word) :
    s.Does (.nudgeGroup n v) (s.setLink n { s.link n with
      nudgeG := v.bits 9 0, nudgeCount := (s.link n).nudgeCount + 1, reads := addRead (v.bits 9 0) true (s.link n).reads }) := by
  refine (occurs_true _ (by simp [hreach, hrcv])).trans ?_
  simp only [State.nudge, State.onLink_eq, hdb, hrun, if_false, if_true]

theorem execDoorbellReadDone_reads {s : State} {n : Fin 4} {g : Fin 1024} {q : GroupRead} (hreach : s.reach n = true)
    (hrun : s.boot.running = true) (hq : (s.link n).reads.find? (fun q => q.group = g.val) = some q) (ws : List Word) :
    s.Does (.doorbellReadDone n g ws) (s.doorbellRead n g q.nudged ws) :=
  occursWith_some (a := q) _ (by simp [hreach, hrun, hq])

theorem execDoorbellSweep_sweeps {s : State} {n : Fin 4} {due : Nat} (hreach : s.reach n = true)
    (hrun : s.boot.running = true) (hdue : (s.link n).sweepDue = some due) :
    s.Does (.doorbellSweep n) (((s.at due).onLink n fun l =>
      { l with sweepDue := some (due + l.sweepInt * 100000), sweepHit := false }).readAll n false) :=
  occursWith_some (a := due) _ (by simp [hreach, hrun, hdue])

/-! ### Fetch (04 R65) -/

/-- A new visit moves a ring in its count of descriptors alone. -/
theorem State.renewVisits_ring (s : State) (r q : Nat) : ∃ v, (s.renewVisits r).ring q = { s.ring q with visit := v } := by
  unfold State.renewVisits
  split
  · refine foldl_inv_of (fun u => ∃ v, u.ring q = { s.ring q with visit := v }) _ _ s ?_ ⟨(s.ring q).visit, rfl⟩
    rintro u m ⟨v, hu⟩
    by_cases hq : q = m
    · subst hq
      exact ⟨16, by simp [hu]⟩
    · exact ⟨v, by simp [hq, hu]⟩
  · exact ⟨(s.ring q).visit, rfl⟩

@[simp] theorem State.renewVisits_flights (s : State) (r : Nat) : (s.renewVisits r).flights = s.flights := by
  unfold State.renewVisits
  split
  · exact foldl_eq_of (·.flights) _ _ _ fun _ _ => rfl
  · rfl

@[simp] theorem State.renewVisits_nextId (s : State) (r : Nat) : (s.renewVisits r).nextId = s.nextId := by
  unfold State.renewVisits
  split
  · exact foldl_eq_of (·.nextId) _ _ _ fun _ _ => rfl
  · rfl

/-- The fetched descriptor joins the commands in flight under the next number. -/
theorem State.fetch_flights (s : State) (r : Nat) (d : Desc) :
    ∃ f, (s.fetch r d).flights = s.flights ++ [f] ∧ f.id = s.nextId ∧ f.ring = r ∧ f.link = (s.ring r).owner ∧ f.desc = d ∧
      f.index = (s.ring r).head ∧ f.phase = .fetched := by
  obtain ⟨v, hring⟩ := s.renewVisits_ring r r
  have hflights : (s.fetch r d).flights = (s.renewVisits r).flights ++ [_] := rfl
  rw [State.renewVisits_flights] at hflights
  exact ⟨_, hflights, s.renewVisits_nextId r, rfl, congrArg (·.owner) hring, rfl, congrArg (·.head) hring, rfl⟩

/-- The completion ring owes one record more, be it the ring itself. -/
theorem State.fetch_reserved (s : State) (r : Nat) (d : Desc) :
    ((s.fetch r d).ring (s.ring r).cq).reserved = (s.ring (s.ring r).cq).reserved + 1 := by
  have hcq : ((s.renewVisits r).ring r).cq = (s.ring r).cq := by
    obtain ⟨v, hring⟩ := s.renewVisits_ring r r
    rw [hring]
  have hreserved (q : Nat) : ((s.renewVisits r).ring q).reserved = (s.ring q).reserved := by
    obtain ⟨v, hring⟩ := s.renewVisits_ring r q
    rw [hring]
  unfold State.fetch
  dsimp only
  rw [hcq, State.onRing_eq, State.setRing_ring_same]
  by_cases hself : (s.ring r).cq = r
  · rw [hself, State.setRing_ring_same, ← hreserved r]
  · rw [State.setRing_ring_ne _ _ hself, ← hreserved]
    rfl

theorem execDescriptorFetch_fetches {s : State} {r : Fin 65536} (hnext : s.nextToFetch r = true) (d : Desc) :
    ∃ t, exec (.descriptorFetch r d) s = .next t ∧ t.nextId = s.nextId + 1 ∧
      (∃ f, t.flights = s.flights ++ [f] ∧ f.id = s.nextId ∧ f.ring = r.val ∧ f.link = (s.ring r).owner ∧ f.desc = d ∧
        f.index = (s.ring r).head ∧ f.phase = .fetched) ∧
      (t.ring (s.ring r).cq).reserved = (s.ring (s.ring r).cq).reserved + 1 := by
  refine ⟨_, occurs_true _ hnext, ?_⟩
  rw [State.remark_nextId, State.remark_flights, State.remark_ring]
  exact ⟨congrArg (· + 1) (s.renewVisits_nextId r), s.fetch_flights r d, s.fetch_reserved r d⟩

/-! ### Start (04 R66, R71) -/

theorem execCommandStart_starts {s : State} {id : Nat} {f : Flight} {o : OpInfo}
    (hfind : s.flights.find? (fun f => f.id = id && s.canStart f) = some f) (hop : opInfo f.desc.opcode = some o)
    (hform : o.wellFormed (s.ring f.ring).kind f.ring f.desc = true) (htarget : s.targetAllowed f.link f.desc = true)
    (hmay : s.mayRun f o = true) :
    s.Does (.commandStart id) (s.onFlight f.id fun g => { g with
      phase := .started, owned := s.ownedBy f.link, primary := s.primary = f.link, rival := s.rivalFor f }) := by
  refine (execCommandStart_does hfind hop).trans ?_
  simp only [State.start, hform, htarget, hmay, Bool.and_true, Bool.not_true, Bool.false_eq_true, if_false]

theorem execUndefinedOpcode_ends {s : State} {id : Nat} {f : Flight}
    (hfind : s.flights.find? (fun f => f.id = id && s.canStart f && (opInfo f.desc.opcode).isNone) = some f) :
    s.Does (.undefinedOpcode id) (s.finish f 0x01) :=
  occursWith_some (a := f) _ hfind

/-! ### Errors, moderation and the writing of events (04 R75, R78; 21 R458) -/

theorem execDmaError_halts {s : State} {r : Fin 65536} (hreach : s.reach (s.ring r).owner = true)
    (hen : (s.ring r).en = true) (hrun : (s.ring r).halted = false) :
    ∃ t, exec (.dmaError r) s = .next t ∧ (t.ring r).halted = true ∧ t.kept = s.kept := by
  refine ⟨_, occurs_true _ (by simp [hreach, hen, hrun]), ?_, ?_⟩
  · rw [State.remark_ring, State.haltRing_halted hen hrun]
  · rw [State.remark_kept]
    exact (State.haltRing_quiet r 3 (.refl s)).kept

/-- A vector that is not masked leaves as a message. -/
theorem State.msix_unmasked {s : State} {n v : Nat} (h : ((s.link n).msix.get {} v).masked = false) :
    Output.interrupt n v ∈ (s.msix n v).out := by
  rw [State.msix, if_neg (Bool.eq_false_iff.1 h)]
  exact List.mem_cons_self ..

theorem execModerationTimer_signals {s : State} {r : Fin 65536} {due : Nat} (hpower : s.boot.powered = true)
    (hdue : (s.ring r).modDue = some due) :
    ∃ t, exec (.moderationTimer r) s = .next t ∧ (t.ring r).unsignalled = 0 ∧ (t.ring r).modDue = none ∧
      s.now ≤ t.now ∧ due ≤ t.now ∧
      (((s.link (s.ring r).owner).msix.get {} (s.ring r).vec).masked = false →
        Output.interrupt (s.ring r).owner (s.ring r).vec ∈ t.out) := by
  refine ⟨_, occursWith_some (a := due) _ (by simp [hpower, hdue]), ?_⟩
  have hring : (((s.at due).signal r).remark.ring r) = { s.ring r with unsignalled := 0, modDue := none } := by
    simp [State.signal]
  have hnow : ((s.at due).signal r).remark.now = max s.now due := by simp
  rw [hring, hnow]
  refine ⟨rfl, rfl, Nat.le_max_left .., Nat.le_max_right .., fun hmask => ?_⟩
  rw [State.remark_out]
  exact State.msix_unmasked hmask

theorem execEventBatchWrite_writes {s : State} {source : Fin 33} {us : Nat} (hpower : s.boot.powered = true)
    (hus : s.batchUs source = some us) (hfirst : s.batchWaits source us = false) :
    s.Does (.eventBatchWrite source) (s.writeBatch source us) :=
  occursWith_some (a := us) _ (by simp [hpower, hus, hfirst, Option.filter])

/-- Settles O25, each clause by the lemma of its row. -/
theorem ringRowsComplete : Obligations.RingRowsComplete := by
  unfold Obligations.RingRowsComplete
  refine fun s => ⟨fun n v hreach hrcv hdb hrun => ?_, fun n g ws q hreach hrun hq => ?_, fun n due hreach hrun hdue => ?_,
    fun r d hnext => ?_, fun id f o hfind hop hform htarget hmay => ?_, fun id f hfind => ?_, fun r hreach hen hrun => ?_,
    fun r due hpower _ hdue => ?_, fun source us hpower hus hfirst => ?_⟩
  · exact execNudgeGroup_counts hreach hrcv hdb hrun v
  · exact execDoorbellReadDone_reads hreach hrun hq ws
  · exact execDoorbellSweep_sweeps hreach hrun hdue
  · exact execDescriptorFetch_fetches hnext d
  · exact execCommandStart_starts hfind hop hform htarget hmay
  · exact execUndefinedOpcode_ends hfind
  · exact execDmaError_halts hreach hen hrun
  · exact execModerationTimer_signals hpower hdue
  · exact execEventBatchWrite_writes hpower hus hfirst

/-! ### The ring administration commands (04 R76) -/

theorem execRingQuery_answers {s : State} {id r : Nat} {f : Flight} (h : s.Started id 0x0101 f)
    (hr : f.desc.p0.bits 15 0 = r) (hmay : f.desc.mayName r = true) (howner : (s.ring r).owner = f.link)
    (hbusy : s.ringBusy r = true) : s.Does (.ringQuery id) (s.answer f (s.ringState r)) :=
  (withCmd_started h _).trans (by simp [hr, hmay, howner, hbusy])

theorem execEventFilter_sets {s : State} {id r : Nat} {f : Flight} (h : s.Started id 0x0110 f)
    (hr : f.desc.p0.bits 15 0 = r) (hmay : f.desc.mayName r = true) (hen : (s.ring r).en = true)
    (howner : (s.ring r).owner = f.link) (hkind : (s.ring r).kind = .event) :
    s.Does (.eventFilter id) ((s.setRing r { s.ring r with threshold := f.desc.p0.bits 18 16 }).finish f 0) :=
  (withCmd_started h _).trans (by simp [hr, hmay, hen, howner, hkind])

theorem execBufPost_posts {s : State} {id : Nat} {f : Flight} (h : s.Started id 0x0130 f)
    (hen : (s.ring f.ring).en = true) (hrun : (s.ring f.ring).halted = false) :
    s.Does (.bufPost id) ((s.setRing f.ring { s.ring f.ring with posted := (s.ring f.ring).posted ++ [f.id] }).run f) :=
  (withCmd_started h _).trans (by simp [hen, hrun])

/-- Settles O23, each clause by the row of its command on the started command. -/
theorem ringCommandsComplete : Obligations.RingCommandsComplete := by
  unfold Obligations.RingCommandsComplete
  refine fun s id f => ⟨fun h => ?_, fun h hmay howner hbusy => ?_, fun h hmay hen howner hkind => ?_,
    fun h hen hrun => ?_, fun h => ?_⟩
  · exact withCmd_started h _
  · exact execRingQuery_answers h rfl hmay howner hbusy
  · exact execEventFilter_sets h rfl hmay hen howner hkind
  · exact execBufPost_posts h hen hrun
  · exact withCmd_started h _

end Sys2Proof.Machine
end

section
/-! The commands of the line frame (04 R76; 08 R189, R197). -/

namespace Sys2Proof.Machine

theorem execOhSnapshot_answers {s : State} {id : Nat} {f : Flight} {m : BitVec 32} {n : Nat} {ws : List Word}
    (h : s.Started id 0x1482 f) (hoh : (s.chan f.desc.target).snapshot (f.desc.p0.bit 0) = some (m, n, ws)) :
    s.Does (.ohSnapshot id) (s.answer f ws (some m.toNat) (some n)) :=
  (withCmd_started h _).trans (by simp only [hoh])

/-- A message of the whole buffer waits behind those of before, and the one that is being sent goes on. -/
theorem execOhmSend_queues {s : State} {id : Nat} {f : Flight} {bs : List Byte} (h : s.Started id 0x0131 f)
    (hnonempty : f.desc.bufLen ≠ 0) (hmax : f.desc.bufLen ≤ 65535) (htarget : f.desc.target < 32)
    (hlen : bs.length = f.desc.bufLen) :
    ∃ t, exec (.ohmSend id bs) s = .next t ∧
      (t.chan f.desc.target).tf.queue = (s.chan f.desc.target).tf.queue ++ [{ cmd := some id, cls := 0, bytes := bs }] ∧
      (t.chan f.desc.target).tf.current = (s.chan f.desc.target).tf.current := by
  refine ⟨_, withCmd_started h _, ?_⟩
  have hfits : (f.desc.bufLen = 0 || 65535 < f.desc.bufLen || 32 ≤ f.desc.target) = false := by
    simp [hnonempty, hmax, htarget]
  have hbytes : padTo f.desc.bufLen 0 (bs.take f.desc.bufLen) = bs := by simp [padTo, ← hlen]
  simp only [hfits, hbytes, Bool.false_eq_true, if_false]
  simp

/-- Settles O49, each clause by the row of its command on the started command. -/
theorem frameCommandsComplete : Obligations.FrameCommandsComplete := by
  unfold Obligations.FrameCommandsComplete
  rintro s id _ f rfl
  refine ⟨fun h => ?_, fun h => ?_, fun m n ws h hoh => ?_, fun bs h hnonempty hmax htarget hlen => ?_⟩
  · exact withCmd_started h _
  · exact withCmd_started h _
  · exact execOhSnapshot_answers h hoh
  · exact execOhmSend_queues h hnonempty hmax htarget hlen

end Sys2Proof.Machine
end

section
/-! Kapra lanes: what a lane reads after a write, the lanes of a channel as a host frame reaches them, the commands, and what
happens on lanes by itself (05 R84 to R101). -/

namespace Sys2Proof.Machine

/-! ### A lane after a write -/

@[simp] theorem Kapra.setLane_lane_same (x : Kapra) (p : Nat) (l : Lane) : (x.setLane p l).lane p = l :=
  Sparse.get_insert_same ..

@[simp] theorem Kapra.setLane_lane_ne (x : Kapra) {p q : Nat} (l : Lane) (h : q ≠ p) : (x.setLane p l).lane q = x.lane q :=
  Sparse.get_insert_ne _ _ _ h

@[simp] theorem State.onLane_lane_same (s : State) (n : Nat) (g : Lane → Lane) : (s.onLane n g).lane n = g (s.lane n) := by
  simp [State.lane, State.onLane]

@[simp] theorem State.raise_lane (s : State) (source code sev : Nat) (d0 : Word) (d1 : BitVec 32) (cause : Option Nat)
    (n : Nat) : (s.raise source code sev d0 d1 cause).lane n = s.lane n := rfl

/-- Lane 4 c + p is lane position p of channel c (01 R16). -/
theorem State.onLane_kp (s : State) {c p : Nat} (hp : p < 4) (g : Lane → Lane) :
    ((s.onLane (4 * c + p) g).chan c).kp = (s.chan c).kp.setLane p (g ((s.chan c).kp.lane p)) := by
  have hc : (4 * c + p) / 4 = c := by omega
  have hn : (4 * c + p) % 4 = p := by omega
  simp [State.onLane, hc, hn]

/-- The first n lane positions of a channel change, each by its own function. -/
theorem State.onLanes_lane (s : State) (c : Nat) (g : Nat → Lane → Lane) {n : Nat} (hn : n ≤ 4) (p : Nat) :
    (((List.range n).foldl (fun s p => s.onLane (4 * c + p) (g p)) s).chan c).kp.lane p =
      if p < n then g p ((s.chan c).kp.lane p) else (s.chan c).kp.lane p := by
  induction n with
  | zero => rfl
  | succ n ih =>
    rw [List.range_succ, List.foldl_append, List.foldl_cons, List.foldl_nil, State.onLane_kp _ (by omega)]
    by_cases hp : p = n
    · subst hp
      simp [ih (by omega)]
    · have hlt : p < n + 1 ↔ p < n := by omega
      simp [hp, hlt, ih (by omega)]

/-- A change of the four lanes of a channel. -/
theorem State.fourLanes_lane (s : State) (c : Nat) (g : Nat → Lane → Lane) {p : Nat} (hp : p < 4) :
    (((List.range 4).foldl (fun s p => s.onLane (4 * c + p) (g p)) s).chan c).kp.lane p = g p ((s.chan c).kp.lane p) := by
  rw [State.onLanes_lane _ _ _ (Nat.le_refl 4), if_pos hp]

/-- A change of a channel's Kapra figures that spares its lanes. -/
theorem State.onKp_lane_of_lanes (s : State) (c : Nat) {g : Kapra → Kapra} (hg : ∀ x, (g x).lanes = x.lanes) (d p : Nat) :
    ((s.onKp c g).chan d).kp.lane p = (s.chan d).kp.lane p := by
  by_cases hd : d = c
  · simp [hd, Kapra.lane, hg]
  · simp [hd]

/-- Ending KAPRA_STATEs touches no lane, of whichever channel. -/
@[simp] theorem State.lanesDone_kp_lane (s : State) (c d p : Nat) :
    ((s.lanesDone c).chan d).kp.lane p = (s.chan d).kp.lane p := by
  unfold State.lanesDone
  dsimp only
  rw [State.finishAll_chan, State.onKp_lane_of_lanes _ _ (by intro; rfl)]

@[simp] theorem State.lanesDone_lane (s : State) (c n : Nat) : (s.lanesDone c).lane n = s.lane n :=
  s.lanesDone_kp_lane ..

/-! ### The commands (R91, R94, R97, R101) -/

/-- KAPRA_STATE asks of each lane the state that it does not have, and moves none at once. -/
theorem execKapraState_wants {s : State} {id : Nat} {f : Flight} (h : s.Started id 0x1440 f)
    (hcodes : ∀ p, p < 4 → f.desc.laneCode p ≠ 3) (hlevel : (s.chan f.desc.target).pw.level.carries = true)
    (hreleased : (∃ p, p < 4 ∧ ((s.chan f.desc.target).kp.lane p).state = .active ∧ f.desc.laneCode p ≠ 0) →
      ∀ l ∈ (s.chan f.desc.target).locals, ((s.chan f.desc.target).trib l).released = true) :
    ∃ t, exec (.kapraState id) s = .next t ∧ ∀ p, p < 4 →
      ((t.chan f.desc.target).kp.lane p).want =
        (if ((s.chan f.desc.target).kp.lane p).state = LaneState.ofCode (f.desc.laneCode p) then none
          else some (LaneState.ofCode (f.desc.laneCode p))) ∧
      ((t.chan f.desc.target).kp.lane p).state = ((s.chan f.desc.target).kp.lane p).state := by
  have haccepted : ((List.range 4).any (fun p => f.desc.laneCode p = 3) || !(s.chan f.desc.target).pw.level.carries) = false := by
    simpa [hlevel] using hcodes
  have hfree : ((List.range 4).any (fun p => ((s.chan f.desc.target).kp.lane p).state = .active &&
      LaneState.ofCode (f.desc.laneCode p) ≠ .active) &&
      (s.chan f.desc.target).locals.any fun l => !((s.chan f.desc.target).trib l).released) = false := by
    simp only [Bool.and_eq_false_imp, List.any_eq_true, List.any_eq_false, List.mem_range, Bool.and_eq_true,
      decide_eq_true_eq, Bool.not_eq_true', Bool.not_eq_false]
    rintro ⟨p, hp, hactive, hleaves⟩
    exact hreleased ⟨p, hp, hactive, fun h0 => hleaves (by rw [h0]; rfl)⟩
  refine ⟨_, withCmd_started h _, fun p hp => ?_⟩
  simp only [haccepted, hfree, Bool.false_eq_true, if_false]
  rw [State.remark_chan_kp, State.lanesDone_kp_lane, State.run_chan, State.onKp_lane_of_lanes _ _ (by intro; rfl),
    State.fourLanes_lane _ _ _ hp]
  exact ⟨rfl, rfl⟩

/-- KAPRA_TX_EQ leaves each preset waiting for the next egress marker. -/
theorem execKapraTxEq_waits {s : State} {id : Nat} {f : Flight} (h : s.Started id 0x1441 f) :
    ∃ t, exec (.kapraTxEq id) s = .next t ∧ t.flight? f.id = none ∧ ∀ p, p < 4 →
      ((t.chan f.desc.target).kp.lane p).nextPreset = some (f.desc.p0.bits (4 * p + 3) (4 * p)) ∧
      ((t.chan f.desc.target).kp.lane p).preset = ((s.chan f.desc.target).kp.lane p).preset := by
  refine ⟨_, withCmd_started h _, by simp, fun p hp => ?_⟩
  rw [State.remark_chan_kp, State.finish_chan, State.fourLanes_lane _ _ _ hp]
  exact ⟨rfl, rfl⟩

/-! ### Faults and the return of the signal (R92, R98) -/

@[simp] theorem State.faultLane_lane_same (s : State) (n cause : Nat) :
    (s.faultLane n cause).lane n = (s.lane n).fail cause s.now := by
  rw [State.faultLane, State.raise_lane, State.onLane_lane_same]

theorem execKapraLaneFault_reports {s : State} {n : Fin 128} {cause : Fin 6} (hpower : s.boot.powered = true)
    (hstate : (s.lane n).state ≠ .deep) (hcause : cause.val ≠ 0) (hsignal : cause.val = 1 → (s.lane n).signal = true)
    (hdue : cause.val ≠ 1 → (s.lane n).due = cause.val) :
    ∃ t, exec (.kapraLaneFault n cause) s = .next t ∧ (t.lane n).fault = cause.val ∧ (t.lane n).state = (s.lane n).state ∧
      ∃ e ∈ t.batch, e.source = n.val / 4 ∧ e.code = 0x1460 := by
  have hmet : (if cause.val = 1 then (s.lane n).signal else (s.lane n).due = cause) = true := by
    split
    · exact hsignal ‹_›
    · simpa using hdue ‹_›
  refine ⟨_, occurs_true _ (by simp [hpower, hstate, hcause, hmet]), ?_⟩
  rw [State.remark_lane, State.faultLane_lane_same]
  exact ⟨rfl, rfl, _, State.remark_batch (List.mem_append_right _ (List.mem_singleton_self _)), rfl, rfl⟩

theorem execLaneSignalReturn_trains {s : State} {n : Fin 128} (hpower : s.boot.powered = true)
    (hstate : (s.lane n).state ≠ .deep) (hfault : (s.lane n).fault = 1) (hsignal : (s.lane n).signal = false) :
    ∃ t, exec (.laneSignalReturn n) s = .next t ∧ (t.lane n).signal = true ∧
      (t.lane n).sets = (if (s.lane n).lostNs + 1000000 < s.now then (s.lane n).sets + 1 else (s.lane n).sets) := by
  refine ⟨_, occurs_true _ (by simp [hpower, hstate, hfault, hsignal]), ?_⟩
  rw [State.remark_lane, State.onLane_lane_same]
  refine ⟨rfl, ?_⟩
  dsimp only
  split
  · rfl -- a full training makes one more set
  · rfl

/-! ### Lane states (R95 to R97) -/

@[simp] theorem Lane.reach_state (l : Lane) (x : LaneState) : (l.reach x).state = x := by
  cases x <;> rfl

@[simp] theorem Lane.reach_want (l : Lane) (x : LaneState) : (l.reach x).want = none := by
  cases x <;> rfl

@[simp] theorem Lane.wake_state (l : Lane) (x : LaneState) (seen : BitVec 58) : (l.wake x seen).state = l.state := by
  unfold Lane.wake
  split <;> rfl

@[simp] theorem Lane.wake_want (l : Lane) (x : LaneState) (seen : BitVec 58) : (l.wake x seen).want = l.want := by
  unfold Lane.wake
  split <;> rfl

/-- The payload received while a lane trains has synchronised its descrambler. -/
theorem Lane.wake_descrambler {l : Lane} (h : l.state ≠ .deep) (seen : BitVec 58) : (l.wake .deep seen).descrambler = seen := by
  simp [Lane.wake, h]

/-- A fault moves neither a lane's state nor its descrambler. -/
theorem State.faultLane_kept (s : State) (n cause : Nat) :
    ((s.faultLane n cause).lane n).state = (s.lane n).state ∧ ((s.faultLane n cause).lane n).want = (s.lane n).want ∧
    ((s.faultLane n cause).lane n).descrambler = (s.lane n).descrambler := by
  rw [State.faultLane_lane_same]
  exact ⟨rfl, rfl, rfl⟩

theorem execLaneStateReached_reaches {s : State} {n : Fin 128} {w : LaneWake} {x : LaneState}
    (hpower : s.boot.powered = true) (hwant : (s.lane n).want = some x) :
    ∃ t, exec (.laneStateReached n w) s = .next t ∧ (t.lane n).state = x ∧ (t.lane n).want = none ∧
      (x ≠ .deep → (s.lane n).state = .deep → (t.lane n).descrambler = w.seen) ∧
      (x = .active → (s.lane n).state = .deep → w.fault.val ≠ 0 → (t.lane n).fault = w.fault.val) := by
  refine ⟨_, occursWith_some _ (by rw [hpower, if_pos rfl, hwant]), ?_⟩
  rw [State.remark_lane, State.lanesDone_lane]
  generalize hu : s.onLane n _ = u
  have hlane : u.lane n = ((s.lane n).reach x).wake (s.lane n).state w.seen := by rw [← hu, State.onLane_lane_same]
  have hstate : (u.lane n).state = x := by simp [hlane]
  have hnone : (u.lane n).want = none := by simp [hlane]
  have hseen (hx : x ≠ .deep) (hdeep : (s.lane n).state = .deep) : (u.lane n).descrambler = w.seen := by
    rw [hlane, hdeep]
    exact Lane.wake_descrambler (by simpa using hx) _
  split
  · -- Active out of Deep without a valid ingress signal
    obtain ⟨hkstate, hkwant, hkseen⟩ := u.faultLane_kept n w.fault
    rw [hkstate, hkwant, hkseen, State.faultLane_lane_same]
    exact ⟨hstate, hnone, hseen, fun _ _ _ => rfl⟩
  · rename_i hvalid
    exact ⟨hstate, hnone, hseen, fun hx hdeep hfault => (hvalid (by simp [hx, hdeep, hfault])).elim⟩

/-! ### Merit (R93) -/

theorem execLaneMeritLow_reports {s : State} {n : Fin 128} (hpower : s.boot.powered = true) (hrun : 4 ≤ (s.lane n).lowRun)
    (harmed : (s.lane n).lowArmed = true) :
    ∃ t, exec (.laneMeritLow n) s = .next t ∧ (t.lane n).lowArmed = false ∧
      ∃ e ∈ t.batch, e.source = n.val / 4 ∧ e.code = 0x1462 := by
  refine ⟨_, occurs_true _ (by simp [hpower, hrun, harmed]), ?_⟩
  rw [State.remark_lane, State.raise_lane, State.onLane_lane_same]
  exact ⟨rfl, _, State.remark_batch (List.mem_append_right _ (List.mem_singleton_self _)), rfl, rfl⟩

/-! ### What a host frame has brought to the lanes of a channel -/

/-- The phase and the run of replaced frames of channel c, and of each of its lanes the blocks and the block lock. -/
def State.heard (s : State) (c : Nat) : Int × Nat × (Nat → BitVec 64 × BlockSync) :=
  let x := (s.chan c).kp
  (x.phase, x.replRun, fun p => ((x.lane p).blocksRx, (x.lane p).blk))

@[simp] theorem State.raise_heard (s : State) (source code sev : Nat) (d0 : Word) (d1 : BitVec 32) (cause : Option Nat)
    (c : Nat) : (s.raise source code sev d0 d1 cause).heard c = s.heard c := rfl

@[simp] theorem State.setTrib_heard (s : State) (i : Nat) (x : Trib) (c : Nat) : (s.setTrib i x).heard c = s.heard c := by
  simp [State.heard]

/-- A lane changes, of this channel or another, but for its blocks and its block lock. -/
theorem State.onLane_heard (s : State) (n : Nat) {g : Lane → Lane} (c : Nat)
    (hg : ∀ l, (g l).blocksRx = l.blocksRx ∧ (g l).blk = l.blk) : (s.onLane n g).heard c = s.heard c := by
  by_cases hc : c = n / 4
  · subst hc
    have hlane (p : Nat) : (((s.onLane n g).chan (n / 4)).kp.lane p).blocksRx = ((s.chan (n / 4)).kp.lane p).blocksRx ∧
        (((s.onLane n g).chan (n / 4)).kp.lane p).blk = ((s.chan (n / 4)).kp.lane p).blk := by
      by_cases hp : p = n % 4
      · subst hp
        simp [State.onLane, hg]
      · simp [State.onLane, hp]
    simp only [State.heard, hlane]
    simp [State.onLane, Kapra.setLane] -- the phase and the run
  · simp [State.heard, State.onLane, hc]

theorem State.fourLanes_heard (s : State) (c : Nat) {g : Nat → Lane → Lane}
    (hg : ∀ p l, (g p l).blocksRx = l.blocksRx ∧ (g p l).blk = l.blk) :
    ((List.range 4).foldl (fun s p => s.onLane (4 * c + p) (g p)) s).heard c = s.heard c :=
  foldl_eq_of (State.heard · c) _ _ _ fun u p => u.onLane_heard _ c (hg p)

@[simp] theorem State.recovered_heard (s : State) (c : Nat) : (s.recovered c).heard c = s.heard c := by
  refine foldl_eq_of (State.heard · c) _ _ _ fun u p => ?_
  dsimp only
  split
  · rw [State.raise_heard]
    exact State.onLane_heard _ _ _ fun _ => ⟨rfl, rfl⟩
  · rfl

@[simp] theorem State.deviations_heard (s : State) (c : Nat) (m : BitVec 32) (ds : List (Nat × Bool × Int)) (d : Nat) :
    (s.deviations c m ds).heard d = s.heard d :=
  foldl_eq_of (State.heard · d) _ _ _ fun u x => by simp

theorem State.phase_heard (s : State) (c : Nat) (phase : Int) :
    (s.phase c phase).heard c = (phase, (s.heard c).2) := by
  unfold State.phase
  dsimp only
  split <;> simp [State.heard, Kapra.lane]

/-! ### The ingress host frame (R84 to R90, R98, R99) -/

/-- A host frame that is accepted, or replaced whole. -/
theorem State.hostIn_takes (s : State) (c : Nat) (ws : List Word) (clear : Bool) (phase : Int) (devs : List (Nat × Int))
    {ok : Bool} (hok : ok = (clear && (s.chan c).acceptsHost c ws phase)) :
    ((s.hostIn c ws clear phase devs).chan c).kp.taken = true ∧
    ((s.hostIn c ws clear phase devs).chan c).kp.ingress = (if ok then some ws else none) ∧
    (s.hostIn c ws clear phase devs).heard c = (phase, if ok then 0 else (s.heard c).2.1 + 1, (s.heard c).2.2) := by
  unfold State.hostIn
  dsimp only
  rw [← hok]
  generalize hu : List.foldl _ _ (List.range 4) = u
  have hheard : u.heard c = (phase, (s.heard c).2) := by
    rw [← hu, State.fourLanes_heard _ _ (by intro _ _; exact ⟨rfl, rfl⟩)]
    simp only [apply_ite (State.heard · c), State.deviations_heard, State.recovered_heard, State.raise_heard, ite_self,
      State.phase_heard]
  have htaken : (u.onKp c fun x => { x with
      taken := true, ingress := if ok then some ws else none, replRun := if ok then 0 else x.replRun + 1 }).heard c =
      ((u.heard c).1, if ok then 0 else (u.heard c).2.1 + 1, (u.heard c).2.2) := by
    simp [State.heard, Kapra.lane]
  rw [htaken, hheard, State.onKp_eq, State.setChan_chan_same]
  exact ⟨rfl, rfl, rfl⟩

/-- Conditions that agree on the four lane positions hold of all four alike. -/
theorem allLanes_congr {P Q : Nat → Bool} (h : ∀ p, p < 4 → P p = Q p) : (List.range 4).all P = (List.range 4).all Q := by
  rw [Bool.eq_iff_iff, List.all_eq_true, List.all_eq_true]
  exact forall₂_congr fun p hp => by rw [h p (List.mem_range.mp hp)]

/-- What lane position p of channel c receives of a host frame. -/
def State.laneReceives (s : State) (c : Nat) (ins : List LaneIn) (p : Nat) : Lane × List Word :=
  ((s.chan c).kp.lane p).receive (4 * c + p) (ins.getD p { blocks := [], skew := 0 })

/-- The words of the host frame that the lanes of channel c receive. -/
def State.ingressWords (s : State) (c : Nat) (ins : List LaneIn) : List Word :=
  fourWay (s.laneReceives c ins 0).2 (s.laneReceives c ins 1).2 (s.laneReceives c ins 2).2 (s.laneReceives c ins 3).2

/-- No lane of channel c has a fault or meets the condition of one with the host frame. -/
def State.ingressClear (s : State) (c : Nat) (ins : List LaneIn) : Bool :=
  (List.range 4).all fun p => ((s.chan c).kp.lane p).fault = 0 && (s.laneReceives c ins p).1.due = 0

/-- The state in which each lane of channel c has received its blocks. -/
def State.afterBlocks (s : State) (c : Nat) (ins : List LaneIn) : State :=
  s.onKp c fun x => { x with lanes := ((List.range 4).map (s.laneReceives c ins)).zipIdx.map fun r => (r.2, r.1.1) }

theorem State.afterBlocks_lane (s : State) (c : Nat) (ins : List LaneIn) {p : Nat} (hp : p < 4) :
    ((s.afterBlocks c ins).chan c).kp.lane p = (s.laneReceives c ins p).1 := by
  rw [State.afterBlocks, State.onKp_eq, State.setChan_chan_same]
  match p, hp with
  | 0, _ => rfl
  | 1, _ => rfl
  | 2, _ => rfl
  | 3, _ => rfl

theorem State.afterBlocks_chan (s : State) (c : Nat) (ins : List LaneIn) :
    ((s.afterBlocks c ins).chan c).tf = (s.chan c).tf ∧ ((s.afterBlocks c ins).chan c).kp.replRun = (s.chan c).kp.replRun := by
  simp [State.afterBlocks]

/-- A channel that carries and sends frames takes the host frame that its lanes have received. -/
theorem State.takeHost_carrying {s : State} {c : Nat} (hsending : (s.chan c).tf.sending = true)
    (hcarrying : (s.chan c).kp.carrying = true) (phase : Int) (ins : List LaneIn) (devs : List (Nat × Int)) :
    s.takeHost c phase ins devs = (s.afterBlocks c ins).hostIn c (s.ingressWords c ins) (s.ingressClear c ins) phase devs := by
  have hclear : s.ingressClear c ins = (List.range 4).all fun p => ((s.chan c).kp.lane p).fault = 0 &&
      (((s.afterBlocks c ins).chan c).kp.lane p).due = 0 :=
    allLanes_congr fun p hp => by rw [State.afterBlocks_lane _ _ _ hp]
  rw [hclear]
  unfold State.takeHost
  dsimp only
  rw [hsending, hcarrying]
  rfl

theorem execIngressHostFrame_takes {s : State} {c : Fin 32} {ins : List LaneIn} {phase : Int} {ok : Bool}
    (hpower : s.boot.powered = true) (hsending : (s.chan c).tf.sending = true) (hcarrying : (s.chan c).kp.carrying = true)
    (htaken : (s.chan c).kp.taken = false) (hdue : ∀ p, p < 4 → ((s.chan c).kp.lane p).due = 0)
    (hok : ok = (s.ingressClear c ins && (s.chan c).acceptsHost c (s.ingressWords c ins) phase)) (devs : List (Nat × Int)) :
    ∃ t, exec (.ingressHostFrame c phase ins devs) s = .next t ∧ (t.chan c).kp.taken = true ∧
      (t.chan c).kp.ingress = (if ok then some (s.ingressWords c ins) else none) ∧ (t.chan c).kp.phase = phase ∧
      (t.chan c).kp.replRun = (if ok then 0 else (s.chan c).kp.replRun + 1) ∧
      ∀ p, p < 4 → ((t.chan c).kp.lane p).blocksRx = (s.laneReceives c ins p).1.blocksRx ∧
        ((t.chan c).kp.lane p).blk = (s.laneReceives c ins p).1.blk := by
  have hactive : ((s.chan c).kp.lane 0).state = .active := by
    simpa using List.all_eq_true.mp hcarrying 0 (by decide)
  have hreached : ((List.range 4).any fun p => ((s.chan c).kp.lane p).state ≠ .deep) = true :=
    List.any_eq_true.mpr ⟨0, by decide, by simp [hactive]⟩
  have hnone : ((List.range 4).all fun p => ((s.chan c).kp.lane p).due = 0) = true := by simpa using hdue
  refine ⟨_, occurs_true _ (by rw [hpower, htaken, hreached, hnone]; rfl), ?_⟩
  rw [State.remark_chan_kp, State.takeHost_carrying hsending hcarrying]
  obtain ⟨htf, hrun⟩ := s.afterBlocks_chan c ins
  have haccepts (ws : List Word) : ((s.afterBlocks c ins).chan c).acceptsHost c ws phase = (s.chan c).acceptsHost c ws phase := by
    simp only [Channel.acceptsHost, htf]
  rw [← haccepts] at hok
  obtain ⟨htook, hingress, hheard⟩ := (s.afterBlocks c ins).hostIn_takes c (s.ingressWords c ins) _ phase devs hok
  simp only [State.heard, Prod.mk.injEq, hrun] at hheard
  obtain ⟨hphase, hrepl, hlanes⟩ := hheard
  refine ⟨htook, hingress, hphase, hrepl, fun p hp => ?_⟩
  rw [← State.afterBlocks_lane s c ins hp]
  simpa using congrFun hlanes p

/-- Settles O48, each clause by the lemma of its row. -/
theorem kapraComplete : Obligations.KapraComplete := by
  unfold Obligations.KapraComplete
  constructor
  · rintro s id _ f rfl
    refine ⟨fun h hcodes hlevel hreleased => ?_, fun h => ?_, fun h => ?_, fun h => ?_⟩
    · exact execKapraState_wants h hcodes hlevel hreleased
    · exact execKapraTxEq_waits h
    · exact withCmd_started h _
    · exact withCmd_started h _
  · intro s hpower
    refine ⟨fun n cause hstate hcause hsignal hdue => ?_, fun n hstate hfault hsignal => ?_, fun n w x hwant => ?_,
      fun n hrun harmed => ?_, fun c ws phase ins devs rx ok hsending hcarrying htaken hdue hrx hws hok => ?_⟩
    · exact execKapraLaneFault_reports hpower hstate hcause hsignal hdue
    · exact execLaneSignalReturn_trains hpower hstate hfault hsignal
    · exact execLaneStateReached_reaches hpower hwant
    · exact execLaneMeritLow_reports hpower hrun harmed
    · have hreceives (p : Nat) (hp : p < 4) : rx p = s.laneReceives c ins p := hrx p hp
      rw [hreceives 0 (by decide), hreceives 1 (by decide), hreceives 2 (by decide), hreceives 3 (by decide)] at hws
      have hclear : ((List.range 4).all fun p => ((s.chan c).kp.lane p).fault = 0 && (rx p).1.due = 0) = s.ingressClear c ins :=
        allLanes_congr fun p hp => by rw [hreceives p hp]
      rw [hclear, hws] at hok
      subst hws
      obtain ⟨t, hexec, htook, hingress, hphase, hrepl, hlanes⟩ :=
        execIngressHostFrame_takes hpower hsending hcarrying htaken hdue hok devs
      exact ⟨t, hexec, htook, hingress, hphase, hrepl, fun p hp => by rw [hreceives p hp]; exact hlanes p hp⟩

end Sys2Proof.Machine
end

section
/-! Tributary contexts: the shed order, and the commands that provision, change, enable, disable, delete and report a context
(06 R103 to R107, R139, R140). -/

namespace Sys2Proof.Machine

/-! ### The shed order (R139) -/

/-- The order that R139 asks for: rising SHED_RANK, then falling index. -/
def Channel.shedsBefore (ch : Channel) (a b : Nat) : Prop :=
  (ch.trib a).shedRank < (ch.trib b).shedRank ∨ ((ch.trib a).shedRank = (ch.trib b).shedRank ∧ b < a)

theorem Channel.shedsBefore_trans {ch : Channel} {a b c : Nat} (hab : ch.shedsBefore a b) (hbc : ch.shedsBefore b c) :
    ch.shedsBefore a c := by
  unfold Channel.shedsBefore at *
  omega

theorem insertShed_perm (ch : Channel) (l : Nat) (ks : List Nat) : (insertShed ch l ks).Perm (l :: ks) := by
  induction ks with
  | nil => exact .refl _
  | cons k ks ih =>
    unfold insertShed
    split
    · exact .refl _
    · exact (ih.cons k).trans (.swap l k ks)

theorem insertShed_pairwise {ch : Channel} {l : Nat} {ks : List Nat} (hl : l ∉ ks) (hks : ks.Pairwise ch.shedsBefore) :
    (insertShed ch l ks).Pairwise ch.shedsBefore := by
  induction ks with
  | nil => exact List.pairwise_singleton ..
  | cons k ks ih =>
    obtain ⟨hk, hrest⟩ := List.pairwise_cons.1 hks
    have hne : l ≠ k := fun h => hl (h ▸ List.mem_cons_self)
    have hnot : l ∉ ks := fun h => hl (List.mem_cons_of_mem k h)
    unfold insertShed
    split
    · next hfirst =>
      have hlk : ch.shedsBefore l k := by simpa [Channel.shedsBefore] using hfirst
      refine List.pairwise_cons.2 ⟨fun m hm => ?_, hks⟩
      rcases List.mem_cons.1 hm with rfl | hm
      · exact hlk
      · exact Channel.shedsBefore_trans hlk (hk m hm)
    · next hlater =>
      refine List.pairwise_cons.2 ⟨fun m hm => ?_, ih hnot hrest⟩
      rcases List.mem_cons.1 ((insertShed_perm ch l ks).mem_iff.1 hm) with rfl | hm
      · simp only [Bool.or_eq_true, Bool.and_eq_true, decide_eq_true_eq] at hlater
        unfold Channel.shedsBefore
        omega
      · exact hk m hm

/-- Insertion sorts: the same contexts, in order. -/
theorem foldl_insertShed (ch : Channel) (ls : List Nat) {ks : List Nat} (hls : (ls ++ ks).Nodup) (hks : ks.Pairwise ch.shedsBefore) :
    (ls.foldl (fun acc l => insertShed ch l acc) ks).Perm (ls ++ ks) ∧
    (ls.foldl (fun acc l => insertShed ch l acc) ks).Pairwise ch.shedsBefore := by
  induction ls generalizing ks with
  | nil => exact ⟨.refl _, hks⟩
  | cons l ls ih =>
    obtain ⟨hl, hrest⟩ := List.nodup_cons.1 hls
    have hperm : (ls ++ insertShed ch l ks).Perm (l :: (ls ++ ks)) :=
      ((insertShed_perm ch l ks).append_left ls).trans List.perm_middle
    obtain ⟨hsame, horder⟩ := ih (hperm.nodup_iff.2 hls) (insertShed_pairwise (fun h => hl (List.mem_append_right _ h)) hks)
    exact ⟨hsame.trans hperm, horder⟩

/-- The entries of a rising map are what it reads. -/
theorem Sparse.mem_iff_get {α : Type} {d : α} {m : Sparse α} {n i : Nat} {x : α} (hm : m.rising n = true) (hx : x ≠ d) :
    (i, x) ∈ m ↔ Sparse.get d m i = x := by
  induction m generalizing n with
  | nil => simpa using hx.symm
  | cons p m ih =>
    obtain ⟨k, v⟩ := p
    simp only [Sparse.rising, Bool.and_eq_true] at hm
    by_cases hi : i = k
    · subst hi
      have habsent : (i, x) ∉ m := fun h => hx ((ih hm.2).1 h ▸ Sparse.get_below d hm.2 (Nat.lt_succ_self i))
      simp [Sparse.get, habsent, eq_comm]
    · simp [Sparse.get, hi, ih hm.2]

theorem Sparse.keys_nodup {α : Type} {m : Sparse α} {n : Nat} (hm : m.rising n = true) :
    (m.map Prod.fst).Nodup ∧ ∀ k ∈ m.map Prod.fst, n ≤ k := by
  induction m generalizing n with
  | nil => simp
  | cons p m ih =>
    simp only [Sparse.rising, Bool.and_eq_true, decide_eq_true_eq] at hm
    obtain ⟨hnodup, hbelow⟩ := ih hm.2
    refine ⟨List.nodup_cons.2 ⟨fun h => Nat.not_succ_le_self _ (hbelow _ h), hnodup⟩, fun k hk => ?_⟩
    rcases List.mem_cons.1 hk with rfl | hk
    · exact hm.1
    · have := hbelow k hk
      omega

theorem Channel.mem_locals {ch : Channel} (hm : ch.tribs.rising 0 = true) (l : Nat) :
    l ∈ ch.locals ↔ l < 96 ∧ (ch.trib l).state ≠ .free := by
  have hlisted (x : Trib) (hx : x.state ≠ .free) : (l, x) ∈ ch.tribs ↔ ch.trib l = x :=
    Sparse.mem_iff_get hm fun h => hx (h ▸ rfl)
  simp only [Channel.locals, List.mem_map, List.mem_filter, Bool.and_eq_true, decide_eq_true_eq, Prod.exists,
    exists_and_right, exists_eq_right]
  constructor
  · rintro ⟨x, hmem, hlt, hx⟩
    exact ⟨hlt, (hlisted x hx).1 hmem ▸ hx⟩
  · exact fun ⟨hlt, hx⟩ => ⟨_, (hlisted _ hx).2 rfl, hlt, hx⟩

/-- What R139 gives of the shed order holds where every context of the channel has a LOCAL index (01 R16). -/
theorem Channel.shedOrder_of_local {ch : Channel} (hm : ch.tribs.rising 0 = true) (hlocal : ∀ l, 96 ≤ l → (ch.trib l).state = .free) :
    (∀ l, l ∈ ch.shedOrder ↔ (ch.trib l).state = .carrying ∨ (ch.trib l).state = .failed) ∧
    ch.shedOrder.Nodup ∧ ch.shedOrder.Pairwise ch.shedsBefore := by
  have hnodup : ch.locals.Nodup := (Sparse.keys_nodup hm).1.sublist (List.filter_sublist.map _)
  obtain ⟨hsame, horder⟩ := foldl_insertShed ch (ch.locals.filter fun l => (ch.trib l).state = .carrying || (ch.trib l).state = .failed)
    (ks := []) (by rw [List.append_nil]; exact List.Pairwise.filter _ hnodup) .nil
  rw [List.append_nil] at hsame
  refine ⟨fun l => ?_, hsame.nodup_iff.2 (hnodup.filter _), horder⟩
  refine hsame.mem_iff.trans ?_
  simp only [List.mem_filter, Channel.mem_locals hm, Bool.or_eq_true, decide_eq_true_eq, and_iff_right_iff_imp]
  intro hstate
  have hused : (ch.trib l).state ≠ .free := by rcases hstate with h | h <;> simp [h]
  exact ⟨Nat.lt_of_not_le fun hl => hused (hlocal l hl), hused⟩

/-- Refutes O17: a channel that holds a Carrying context at index 96, which is not LOCAL (01 R16), has rising keys, and its shed
order leaves that context out. -/
theorem not_shedListOrder : ¬ Obligations.ShedListOrder := by
  unfold Obligations.ShedListOrder
  intro h
  obtain ⟨hmem, -⟩ := h { tribs := [(96, { state := .carrying })] } (by decide)
  have hlisted : 96 ∈ Channel.shedOrder { tribs := [(96, { state := .carrying })] } := (hmem 96).2 (.inl rfl)
  revert hlisted
  decide

/-! ### A row on the context that its command names -/

theorem withTrib_started {s : State} {id op i : Nat} {f : Flight} (h : s.Started id op f) (hi : f.desc.tribIndex = some i)
    (k : Flight → Nat → Trib → State) : withTrib s id op k = .next (k f i (s.trib i)).remark := by
  rw [withTrib, withCmd_started h]
  simp only [hi]

/-! ### What leaves a context alone -/

@[simp] theorem State.oweLatency_trib (s : State) (c i : Nat) : (s.oweLatency c).trib i = s.trib i :=
  s.setChan_trib (by rfl) i

@[simp] theorem State.writeBuf_trib (s : State) (f : Flight) (off : Nat) (bs : List Byte) (i : Nat) :
    (s.writeBuf f off bs).trib i = s.trib i := by
  simp [State.trib]

@[simp] theorem State.setTrib_chan_cx (s : State) (i c : Nat) (x : Trib) : ((s.setTrib i x).chan c).cx = (s.chan c).cx := by
  obtain ⟨ts, h⟩ := s.setTrib_chan i c x
  rw [h]

/-! ### Provisioning (R104) -/

/-- A context that follows its slots out of Ready keeps its record and its figures. -/
theorem Trib.follow_ready {x : Trib} (h : x.state = .ready) (n : Nat) :
    (x.follow n).state ≠ .free ∧ (x.follow n).nomRate = x.nomRate ∧ (x.follow n).shedRank = x.shedRank ∧
    (x.follow n).txLat = x.txLat ∧ (x.follow n).rxLat = x.rxLat := by
  unfold Trib.follow
  rw [h]
  dsimp only
  split <;> simp [h]

theorem State.provision_trib_same (s : State) (i : Nat) {x : Trib} (h : x.state = .ready) :
    ((s.provision i x).trib i).state ≠ .free ∧ ((s.provision i x).trib i).nomRate = x.nomRate ∧
    ((s.provision i x).trib i).shedRank = x.shedRank ∧
    (((s.provision i x).trib i).txLat, ((s.provision i x).trib i).rxLat) = s.stated i x := by
  unfold State.provision
  dsimp only
  rw [State.reported_trib, State.oweLatency_trib, State.refreshTrib, State.setTrib_trib_same, State.onChan_eq,
    State.setChan_trib _ (by rfl), State.setTrib_trib_same]
  generalize State.slotCountOf _ i false = n
  obtain ⟨hstate, hrate, hrank, htx, hrx⟩ := Trib.follow_ready (x := { x with
    txLat := (s.stated i x).1, rxLat := (s.stated i x).2, latMfc := (s.chan (i / 96)).tf.mfc }) h n
  exact ⟨hstate, hrate, hrank, Prod.ext htx hrx⟩

theorem State.provision_trib_ne (s : State) {i j : Nat} (x : Trib) (h : j ≠ i) : (s.provision i x).trib j = s.trib j := by
  unfold State.provision
  dsimp only
  rw [State.reported_trib, State.oweLatency_trib, State.refreshTrib, State.setTrib_trib_ne _ _ h, State.onChan_eq,
    State.setChan_trib _ (by rfl), State.setTrib_trib_ne _ _ h]

/-- The new context has an empty cipher context, and its figures are owed to the far end. -/
theorem State.provision_chan (s : State) (i : Nat) (x : Trib) :
    ((s.provision i x).chan (i / 96)).cipher (i % 96) = {} ∧ ((s.provision i x).chan (i / 96)).tf.latencyDue = true := by
  simp [State.provision, State.oweLatency, State.refreshTrib, Channel.cipher, Channel.setCipher]

theorem execTribProvision_provisions {s : State} {id i : Nat} {f : Flight} {ws : List Word} {x : Trib}
    (h : s.Started id 0x1000 f) (hi : f.desc.tribIndex = some i) (hx : x = Trib.ofWords ws) (hclear : tribClear ws = true)
    (hindex : (wd ws 0).bits 11 0 = i) (hfields : s.fieldsOk (i / 96) x = true) (hfree : (s.trib i).state = .free)
    (hbounds : withinBounds (s.stated i x).1 (s.stated i x).2 x = true) :
    ∃ t, exec (.tribProvision id ws) s = .next t ∧ t.flight? f.id = none ∧ (t.trib i).nomRate = (wd ws 0).bits 63 32 ∧
      (t.trib i).state ≠ .free ∧ ((t.trib i).txLat, (t.trib i).rxLat) = s.stated i x ∧
      (t.trib i).shedRank = (wd ws 0).bits 31 24 ∧ (t.chan (i / 96)).cipher (i % 96) = {} ∧
      (t.chan (i / 96)).tf.latencyDue = true ∧ (∀ k, k ≠ i → t.trib k = s.trib k) ∧ t.kept = s.kept := by
  subst hx
  refine ⟨_, show execTribProvision id ws s = _ from withTrib_started h hi _, ?_⟩
  simp only [hclear, hindex, hfields, hfree, hbounds, Bool.not_true, Bool.false_or, decide_false, ne_eq, not_true,
    Bool.false_eq_true, if_false]
  obtain ⟨hstate, hrate, hrank, hfigures⟩ := s.provision_trib_same i (x := Trib.ofWords ws) rfl
  obtain ⟨hcipher, hdue⟩ := s.provision_chan i (Trib.ofWords ws)
  simp only [State.remark_flight?, State.finish_flight?_same, State.remark_trib, State.finish_trib, State.writeBuf_trib,
    State.remark_chan_cipher, State.remark_chan_tf, State.finish_chan, State.writeBuf_chan, State.remark_kept,
    State.finish_kept, State.writeBuf_kept]
  exact ⟨trivial, hrate, hstate, hfigures, hrank, hcipher, hdue, fun k hk => s.provision_trib_ne _ hk,
    (State.provision_quiet i _ (.refl s)).kept⟩

/-! ### Changes, enabling and disabling (R105, R106) -/

theorem execTribModify_changes {s : State} {id i : Nat} {f : Flight} {ws : List Word} {x : Trib} (h : s.Started id 0x1001 f)
    (hi : f.desc.tribIndex = some i) (hx : x = Trib.ofWords ws) (hstate : (s.trib i).state ≠ .free)
    (hclear : tribClear ws = true) (hindex : (wd ws 0).bits 11 0 = i) (htol : x.tolPpm ≤ 1000)
    (hkeeps : x.keeps (s.trib i) = true) (hpending : s.bankPending (i / 96) = false)
    (hfits : 0 < s.slotCountOf i false → rateFits x.nomRate x.tolPpm (s.slotCountOf i false) x.fixedStuff = true)
    (hbounds : withinBounds (s.trib i).txLat (s.trib i).rxLat x = true) :
    s.Does (.tribModify id ws) ((s.setTrib i { s.trib i with
      nomRate := x.nomRate, nextRate := x.nextRate, tolPpm := x.tolPpm, shedRank := x.shedRank
      txBound := x.txBound, rxBound := x.rxBound }).finish f 0) := by
  subst hx
  refine (show execTribModify id ws s = _ from withTrib_started h hi _).trans ?_
  have hfit : (0 < s.slotCountOf i false && !rateFits (Trib.ofWords ws).nomRate (Trib.ofWords ws).tolPpm
      (s.slotCountOf i false) (Trib.ofWords ws).fixedStuff) = false := by
    simpa using hfits
  have hlegal : ((s.trib i).state = .free || !tribClear ws || (wd ws 0).bits 11 0 ≠ i || 1000 < (Trib.ofWords ws).tolPpm ||
      !(Trib.ofWords ws).keeps (s.trib i)) = false := by
    simp [hstate, hclear, hindex, htol, hkeeps]
  simp only [hlegal, hpending, hfit, hbounds, Bool.not_true, Bool.false_eq_true, if_false]

theorem execTribEnable_enables {s : State} {id i : Nat} {f : Flight} (h : s.Started id 0x1002 f)
    (hi : f.desc.tribIndex = some i) (hrow : f.desc.p1.bit 0 = true) :
    ((s.trib i).state = .disabled →
      s.Does (.tribEnable id) ((s.setTrib i { s.trib i with state := .carrying }).finish f 0)) ∧
    ((s.trib i).state = .carrying ∨ (s.trib i).state = .failed → s.Does (.tribEnable id) (s.finish f 0)) := by
  refine ⟨fun hstate => ?_, fun hstate => ?_⟩
  · exact (withCmdIf_started (p := Desc.enables) h hrow _).trans (by simp only [hi, hstate])
  · refine (withCmdIf_started (p := Desc.enables) h hrow _).trans ?_
    rcases hstate with hstate | hstate <;> simp only [hi, hstate]

theorem execTribDisable_disables {s : State} {id i : Nat} {f : Flight} (h : s.Started id 0x1002 f)
    (hi : f.desc.tribIndex = some i) (hrow : f.desc.p1.bit 0 = false)
    (hstate : (s.trib i).state = .carrying ∨ (s.trib i).state = .failed) :
    s.Does (.tribDisable id) (s.disableTrib f i) := by
  refine (withCmdIf_started (p := fun d => !d.enables) h (by simp [Desc.enables, hrow]) _).trans ?_
  rcases hstate with hstate | hstate <;> simp only [hi, hstate]

/-! ### Deletion (R107) -/

/-- The context goes from the collection, with its cipher context. -/
theorem execTribDelete_deletes {s : State} {id i : Nat} {f : Flight} (h : s.Started id 0x1003 f)
    (hi : f.desc.tribIndex = some i) (hnamed : s.named i = false) :
    ∃ t, exec (.tribDelete id) s = .next t ∧ t.flight? f.id = none ∧ (t.chan (i / 96)).tf.latencyDue = true ∧
      ((s.chan (i / 96)).tribs.rising 0 = true → t.trib i = {}) ∧ (∀ k, k ≠ i → t.trib k = s.trib k) := by
  refine ⟨_, show execTribDelete id s = _ from withTrib_started h hi _, ?_⟩
  simp only [hnamed, Bool.false_eq_true, if_false, State.remark_flight?, State.finish_flight?_same, State.remark_trib,
    State.finish_trib, State.oweLatency_trib, State.remark_chan_tf, State.finish_chan]
  refine ⟨trivial, by simp [State.oweLatency], fun hrising => ?_, fun k hk => ?_⟩
  · simpa [State.trib, Channel.trib] using Sparse.get_erase_same _ hrising (i % 96)
  · by_cases hc : k / 96 = i / 96
    · have hl : k % 96 ≠ i % 96 := by omega
      simp [State.trib, Channel.trib, hc, hl]
    · simp [State.trib, hc]

/-! ### The shed list (R139) -/

theorem execTribShedList_answers {s : State} {id : Nat} {f : Flight} {bytes : List Byte} (h : s.Started id 0x1006 f)
    (hbytes : bytes = ((s.chan f.desc.target).shedOrder.map (96 * f.desc.target + ·) ++ [0xFFFF]).flatMap (leBytes 2)) :
    (bytes.length ≤ f.desc.bufLen → s.Does (.tribShedList id) ((s.writeBuf f 0 bytes).finish f 0)) ∧
    (f.desc.bufLen < bytes.length → s.Does (.tribShedList id) (s.finish f 0x01)) := by
  have hrow : s.Does (.tribShedList id) (s.answerBytes f bytes) := by
    rw [hbytes]
    exact withCmd_started h _
  exact ⟨fun hfits => by rwa [State.answerBytes, if_neg (Nat.not_lt.2 hfits)] at hrow,
    fun hshort => by rwa [State.answerBytes, if_pos hshort] at hrow⟩

/-- Settles O31, each clause by the lemma of its row. -/
theorem tributaryCommandsComplete : Obligations.TributaryCommandsComplete := by
  unfold Obligations.TributaryCommandsComplete
  intro s id i f hi
  refine ⟨fun ws x h hx hclear hindex hfields hfree hbounds => ?_,
    fun ws x h hx hstate hclear hindex htol hkeeps hpending hfits hbounds => ?_, fun h hrow => ?_,
    fun h hrow hstate => ⟨fun hsending => ?_, fun hsilent => ?_⟩, fun h hnamed => ?_, fun h => ?_, fun h => ?_,
    fun bytes h hbytes => ?_⟩
  · exact execTribProvision_provisions h hi hx hclear hindex hfields hfree hbounds
  · exact execTribModify_changes h hi hx hstate hclear hindex htol hkeeps hpending hfits hbounds
  · exact execTribEnable_enables h hi hrow
  · have hrow := execTribDisable_disables h hi hrow hstate
    rwa [State.disableTrib, if_pos hsending] at hrow
  · have hrow := execTribDisable_disables h hi hrow hstate
    rwa [State.disableTrib, if_neg (by simp [hsilent])] at hrow
  · exact execTribDelete_deletes h hi hnamed
  · exact (show execTribQuery id s = _ from withTrib_started h hi _)
  · exact (show execTribCounters id s = _ from withTrib_started h hi _)
  · exact execTribShedList_answers h hbytes

end Sys2Proof.Machine
end

section
/-! The slot table's commands: a bank's entries after writes, reads, and the copy of the active bank (06 R122 to R125, R140). -/

namespace Sys2Proof.Machine

/-! ### A bank after a write -/

/-- A write in canonical form keeps the keys rising. -/
theorem Sparse.rising_put {α : Type} [DecidableEq α] {m : Sparse α} {n : Nat} (d : α) (i : Nat) (x : α) (h : n ≤ i)
    (hm : m.rising n = true) : (m.put d i x).rising n = true := by
  unfold Sparse.put
  split
  · exact Sparse.rising_erase i hm
  · exact Sparse.rising_insert i x h hm

@[simp] theorem Slots.setBank_bank_same (x : Slots) (b : Bool) (m : Sparse (BitVec 16)) : (x.setBank b m).bank b = m := by
  cases b <;> rfl

@[simp] theorem Slots.setBank_bank_other (x : Slots) (b : Bool) (m : Sparse (BitVec 16)) :
    (x.setBank b m).bank (!b) = x.bank (!b) := by
  cases b <;> rfl

@[simp] theorem Slots.setBank_activeB (x : Slots) (b : Bool) (m : Sparse (BitVec 16)) :
    (x.setBank b m).activeB = x.activeB := by
  cases b <;> rfl

/-! ### Entries by their number over all channels (R122) -/

/-- Entry q of the module's banks b: slot q % 1600 of channel q / 1600. -/
def State.slotEntry (s : State) (b : Bool) (q : Nat) : BitVec 16 := (s.chan (q / 1600)).sl.entry b (q % 1600)

theorem State.slotEntry_congr {s t : State} (h : ∀ c, (t.chan c).sl = (s.chan c).sl) (b : Bool) (q : Nat) :
    t.slotEntry b q = s.slotEntry b q := by
  rw [State.slotEntry, h]
  rfl

@[simp] theorem State.remark_slotEntry (s : State) (b : Bool) (q : Nat) : s.remark.slotEntry b q = s.slotEntry b q :=
  State.slotEntry_congr (fun c => s.remark_chan_sl c) b q

@[simp] theorem State.finish_slotEntry (s : State) (f : Flight) (st : Nat) (r0 r1 r2 : Option Nat) (b : Bool) (q : Nat) :
    (s.finish f st r0 r1 r2).slotEntry b q = s.slotEntry b q :=
  State.slotEntry_congr (fun c => by rw [State.finish_chan]) b q

/-- Banks b of all channels list their entries by rising slot. -/
def State.banksRise (s : State) (b : Bool) : Prop := ∀ c, ((s.chan c).sl.bank b).rising 0 = true

theorem State.writeEntry_sl (s : State) (b : Bool) (n c : Nat) (e : BitVec 16) :
    ((s.writeEntry b n e).chan c).sl =
      if c = n / 1600 then (s.chan c).sl.setBank b (((s.chan c).sl.bank b).put 0 (n % 1600) e) else (s.chan c).sl := by
  rw [State.writeEntry, State.onSl_eq, State.setChan_chan]
  split
  · subst c
    rfl
  · rfl

theorem State.writeEntry_banksRise {s : State} {b : Bool} (h : s.banksRise b) (n : Nat) (e : BitVec 16) :
    (s.writeEntry b n e).banksRise b := by
  intro c
  rw [State.writeEntry_sl]
  split
  · rw [Slots.setBank_bank_same]
    exact Sparse.rising_put _ _ _ (Nat.zero_le _) (h c)
  · exact h c

theorem State.writeEntry_slotEntry {s : State} {b : Bool} (h : s.banksRise b) (n q : Nat) (e : BitVec 16) :
    (s.writeEntry b n e).slotEntry b q = if q = n then e else s.slotEntry b q := by
  unfold State.slotEntry Slots.entry
  rw [State.writeEntry_sl]
  by_cases hq : q = n
  · subst hq
    rw [if_pos rfl, if_pos rfl, Slots.setBank_bank_same]
    exact Sparse.get_put_same _ (h _) _ _
  · rw [if_neg hq]
    split
    · have hslot : q % 1600 ≠ n % 1600 := by omega
      rw [Slots.setBank_bank_same]
      exact Sparse.get_put_ne _ _ _ hslot
    · rfl

theorem State.writeEntry_otherBank (s : State) (b : Bool) (n c : Nat) (e : BitVec 16) :
    ((s.writeEntry b n e).chan c).sl.bank (!b) = (s.chan c).sl.bank (!b) := by
  rw [State.writeEntry_sl]
  split
  · exact Slots.setBank_bank_other ..
  · rfl

/-- The entries first to first + n − 1 of banks b are written from a buffer. -/
def State.fillEntries (s : State) (first n : Nat) (b : Bool) (ws : List Word) : State :=
  (List.range n).foldl (fun s k => s.writeEntry b (first + k) (BitVec.ofNat 16 (half ws k))) s

theorem State.fillEntries_succ (s : State) (first n : Nat) (b : Bool) (ws : List Word) :
    s.fillEntries first (n + 1) b ws =
      (s.fillEntries first n b ws).writeEntry b (first + n) (BitVec.ofNat 16 (half ws n)) := by
  simp only [State.fillEntries, List.range_succ, List.foldl_append, List.foldl_cons, List.foldl_nil]

theorem State.fillEntries_banksRise {s : State} {b : Bool} (h : s.banksRise b) (first n : Nat) (ws : List Word) :
    (s.fillEntries first n b ws).banksRise b :=
  foldl_inv_of (State.banksRise · b) _ _ _ (fun _ _ hu => State.writeEntry_banksRise hu _ _) h

/-- Each entry of the range is as the buffer gives it, and every other is as it was. -/
theorem State.fillEntries_slotEntry {s : State} {b : Bool} (h : s.banksRise b) (first n : Nat) (ws : List Word) (q : Nat) :
    (s.fillEntries first n b ws).slotEntry b q =
      if first ≤ q ∧ q < first + n then BitVec.ofNat 16 (half ws (q - first)) else s.slotEntry b q := by
  induction n with
  | zero => rw [if_neg (by omega)]; rfl
  | succ n ih =>
    rw [State.fillEntries_succ, State.writeEntry_slotEntry (State.fillEntries_banksRise h first n ws), ih]
    by_cases hlast : q = first + n
    · have hk : q - first = n := by omega
      rw [if_pos hlast, if_pos (by omega), hk]
    · have hrange : first ≤ q ∧ q < first + (n + 1) ↔ first ≤ q ∧ q < first + n := by omega
      simp only [if_neg hlast, hrange]

theorem State.fillEntries_otherBank (s : State) (first n : Nat) (b : Bool) (ws : List Word) (c : Nat) :
    ((s.fillEntries first n b ws).chan c).sl.bank (!b) = (s.chan c).sl.bank (!b) :=
  foldl_eq_of (fun u => (u.chan c).sl.bank (!b)) _ _ _ fun u _ => u.writeEntry_otherBank ..

/-! ### Contexts follow their slots (R103) -/

@[simp] theorem State.setTrib_chan_sl (s : State) (i c : Nat) (x : Trib) : ((s.setTrib i x).chan c).sl = (s.chan c).sl := by
  obtain ⟨ts, h⟩ := s.setTrib_chan i c x
  rw [h]

@[simp] theorem State.refreshTribs_chan_sl (s : State) (c d : Nat) : ((s.refreshTribs c).chan d).sl = (s.chan d).sl :=
  foldl_eq_of (fun u => (u.chan d).sl) _ _ _ fun u _ => u.setTrib_chan_sl ..

@[simp] theorem State.refreshSlots_chan_sl (s : State) (c d : Nat) : ((s.refreshSlots c).chan d).sl = (s.chan d).sl := by
  unfold State.refreshSlots
  split
  · split <;> simp
  · simp

theorem State.writeEntries_chan_sl (s : State) (first n : Nat) (b : Bool) (ws : List Word) (c : Nat) :
    ((s.writeEntries first n b ws).chan c).sl = ((s.fillEntries first n b ws).chan c).sl :=
  foldl_eq_of (fun u => (u.chan c).sl) _ _ _ fun u m => u.refreshSlots_chan_sl m c

theorem State.writeEntries_slotEntry {s : State} {b : Bool} (h : s.banksRise b) (first n : Nat) (ws : List Word) (q : Nat) :
    (s.writeEntries first n b ws).slotEntry b q =
      if first ≤ q ∧ q < first + n then BitVec.ofNat 16 (half ws (q - first)) else s.slotEntry b q :=
  (State.slotEntry_congr (s.writeEntries_chan_sl first n b ws) b q).trans (State.fillEntries_slotEntry h first n ws q)

/-! ### The commands (R124, R125, R140) -/

theorem execSlotWrite_writes {s : State} {id first n : Nat} {b : Bool} {f : Flight} {ws : List Word}
    (h : s.Started id 0x1100 f) (hrange : f.desc.slotRange = (first, n, b)) (hok : s.rangeOk f.desc = true)
    (hlegal : ∀ k, k < n → half ws k < 8192) (halone : f.desc.target < 32 → s.groupOf f.desc.target = none)
    (hrights : f.desc.target = 32 → f.rightsTo (rangeChans first n) = true)
    (hfree : ∀ c ∈ rangeChans first n, s.bankWritable c b = true ∧ s.slotsLocked c = false) (hrise : s.banksRise b) :
    ∃ t, exec (.slotWrite id ws) s = .next t ∧ t.flight? f.id = none ∧
      (∀ k, k < n → t.slotEntry b (first + k) = BitVec.ofNat 16 (half ws k)) ∧
      (∀ q, q < first ∨ first + n ≤ q → t.slotEntry b q = s.slotEntry b q) ∧
      (∀ c, (t.chan c).sl.bank (!b) = (s.chan c).sl.bank (!b)) ∧ t.kept = s.kept := by
  have hcodes : ((List.range n).any fun k => 8192 ≤ half ws k) = false := by simpa using hlegal
  have hsingle : (f.desc.target < 32 && (s.groupOf f.desc.target).isSome) = false := by
    simpa using fun hlt => halone hlt
  have howned : (f.desc.target = 32 && !f.rightsTo (rangeChans first n)) = false := by simpa using hrights
  have hwritable : ((rangeChans first n).any fun c => !s.bankWritable c b) = false := by
    simpa using fun c hc => (hfree c hc).1
  have hunlocked : (rangeChans first n).any s.slotsLocked = false := by
    simpa using fun c hc => (hfree c hc).2
  refine ⟨_, withCmd_started h _, ?_⟩
  simp only [hrange, hok, hcodes, hsingle, howned, hwritable, hunlocked, Bool.not_true, Bool.false_or, Bool.false_eq_true,
    if_false, State.remark_flight?, State.finish_flight?_same, State.remark_kept, State.finish_kept, State.remark_chan_sl,
    State.finish_chan, State.writeEntries_chan_sl, State.fillEntries_otherBank, State.remark_slotEntry,
    State.finish_slotEntry, State.writeEntries_slotEntry hrise]
  refine ⟨trivial, fun k hk => ?_, fun q hq => if_neg (by omega), fun _ => trivial,
    (State.writeEntries_quiet first n b ws (.refl s)).kept⟩
  rw [if_pos (by omega), Nat.add_sub_cancel_left]

theorem execSlotRead_reads {s : State} {id first n : Nat} {b : Bool} {f : Flight} (h : s.Started id 0x1101 f)
    (hrange : f.desc.slotRange = (first, n, b)) (hok : s.rangeOk f.desc = true)
    (hrights : f.desc.target = 32 → f.rightsTo (rangeChans first n) = true) :
    s.Does (.slotRead id) ((s.writeBuf f 0 ((List.range n).flatMap fun k =>
      leBytes 2 ((s.chan ((first + k) / 1600)).sl.entry b ((first + k) % 1600)).toNat)).finish f 0) := by
  have howned : (f.desc.target = 32 && !f.rightsTo (rangeChans first n)) = false := by simpa using hrights
  refine (withCmd_started h _).trans ?_
  simp only [hrange, hok, howned, Bool.not_true, Bool.false_eq_true, if_false]

/-- The standby bank becomes the active one's copy, which is still the active one. -/
theorem execSlotCopy_copies {s : State} {id : Nat} {f : Flight} (h : s.Started id 0x1102 f)
    (hfree : s.slotsLocked f.desc.target = false) :
    ∃ t, exec (.slotCopy id) s = .next t ∧ t.flight? f.id = none ∧
      (t.chan f.desc.target).sl.bank (!(s.chan f.desc.target).sl.activeB) =
        (s.chan f.desc.target).sl.bank (s.chan f.desc.target).sl.activeB ∧
      (t.chan f.desc.target).sl.bank (s.chan f.desc.target).sl.activeB =
        (s.chan f.desc.target).sl.bank (s.chan f.desc.target).sl.activeB ∧
      (t.chan f.desc.target).sl.activeB = (s.chan f.desc.target).sl.activeB ∧
      (∀ c, c ≠ f.desc.target → (t.chan c).Same (s.chan c)) := by
  refine ⟨_, withCmd_started h _, ?_⟩
  simp only [hfree, Bool.false_eq_true, if_false]
  have hactive (x : Slots) (m : Sparse (BitVec 16)) : (x.setBank (!x.activeB) m).bank x.activeB = x.bank x.activeB := by
    simpa using x.setBank_bank_other (!x.activeB) m
  refine ⟨by simp, by simp, by simp [hactive], by simp, fun c hc => ?_⟩
  have hsame := State.remark_same (State.finish (s.onSl f.desc.target fun x => x.setBank (!x.activeB) (x.bank x.activeB)) f 0) c
  rwa [State.finish_chan, State.onSl_eq, State.setChan_chan_ne _ _ hc] at hsame

/-- Settles O33, each clause by the lemma of its row. -/
theorem slotTableCommandsComplete : Obligations.SlotTableCommandsComplete := by
  unfold Obligations.SlotTableCommandsComplete
  intro s id f first n b hrange
  refine ⟨fun ws h hok hlegal halone hrights hfree hrise => ?_, fun h hok hrights => ?_, fun h hfree => ?_⟩
  · exact execSlotWrite_writes h hrange hok hlegal halone hrights hfree hrise
  · exact execSlotRead_reads h hrange hok hrights
  · exact execSlotCopy_copies h hfree

end Sys2Proof.Machine
end

section
/-! Bank switches and concatenated groups: what they leave alone, and the commands that propose, arm, disarm and report a switch,
and make, dissolve, report and realign a group (06 R126, R127, R133 to R138, R140). -/

namespace Sys2Proof.Machine

/-! ### Fields of a word -/

/-- A bit of a word is that of the fields that cover its place. -/
theorem mkWord_bit (fs : List Fld) {i : Nat} (hi : i < 64) :
    (mkWord fs).bit i = fs.any fun f => f.1 ≤ i && i < f.1 + f.2.1 && f.2.2.testBit (i - f.1) := by
  have hfold (fs : List Fld) (acc : Nat) :
      (fs.foldl (fun acc f => acc ||| ((f.2.2 % 2 ^ f.2.1) <<< f.1)) acc).testBit i =
        (acc.testBit i || fs.any fun f => f.1 ≤ i && i < f.1 + f.2.1 && f.2.2.testBit (i - f.1)) := by
    induction fs generalizing acc with
    | nil => simp
    | cons f fs ih =>
      have hfield : ((f.2.2 % 2 ^ f.2.1) <<< f.1).testBit i =
          (decide (f.1 ≤ i) && decide (i < f.1 + f.2.1) && f.2.2.testBit (i - f.1)) := by
        rw [Nat.testBit_shiftLeft, Nat.testBit_mod_two_pow]
        by_cases hle : f.1 ≤ i
        · have hlt : i - f.1 < f.2.1 ↔ i < f.1 + f.2.1 := by omega
          simp [hle, hlt]
        · simp [hle]
      rw [List.foldl_cons, ih, Nat.testBit_or, hfield, List.any_cons, Bool.or_assoc]
  rw [Word.bit, mkWord, BitVec.toNat_ofNat, Nat.testBit_mod_two_pow, hfold]
  simp [hi]

theorem Word.testBit_bits (w : Word) (hi lo j : Nat) : (w.bits hi lo).testBit j = (decide (j < hi + 1 - lo) && w.bit (lo + j)) := by
  rw [Word.bits, Nat.testBit_mod_two_pow, Nat.testBit_shiftRight, Word.bit]

/-- The first word of BANK_STATUS: ACTIVE, the far end's bank, PHASE, and the checksum in its upper half. -/
theorem bankStatus_bits (a b : Bool) (phase : Nat) (crc : BitVec 32) :
    (mkWord [(0, 1, bitOf a), (1, 1, bitOf b), (2, 2, phase), (32, 32, crc.toNat)]).bit 0 = a ∧
    (mkWord [(0, 1, bitOf a), (1, 1, bitOf b), (2, 2, phase), (32, 32, crc.toNat)]).bit 1 = b ∧
    (mkWord [(0, 1, bitOf a), (1, 1, bitOf b), (2, 2, phase), (32, 32, crc.toNat)]).bits 63 32 = crc.toNat := by
  refine ⟨?_, ?_, Nat.eq_of_testBit_eq fun j => ?_⟩
  · rw [mkWord_bit _ (by decide)]
    cases a <;> rfl
  · rw [mkWord_bit _ (by decide)]
    cases b <;> simp [bitOf]
  · rw [Word.testBit_bits]
    by_cases hj : j < 32
    · rw [mkWord_bit _ (by omega)]
      have hactive : ¬ 32 + j < 0 + 1 := by omega
      have hfar : ¬ 32 + j < 1 + 1 := by omega
      have hphase : ¬ 32 + j < 2 + 2 := by omega
      have hword : 32 + j < 32 + 32 := by omega
      simp only [List.any_cons, List.any_nil, hactive, hfar, hphase, hword, hj, decide_false, decide_true, Bool.and_false,
        Bool.false_and, Bool.false_or, Bool.or_false, Bool.true_and, Nat.add_sub_cancel_left, Nat.le_add_right]
    · rw [Nat.testBit_lt_two_pow (Nat.lt_of_lt_of_le crc.isLt (Nat.pow_le_pow_right (by decide) (Nat.not_lt.1 hj)))]
      simp [hj]

/-! ### Members and their anchor (R133) -/

/-- The anchor is the first member. -/
theorem anchorOf_eq_head? (m : BitVec 32) : anchorOf m = (membersOf m).head? := List.head?_filter.symm

/-! ### Proposing a switch (R126, R127, R137) -/

/-- At a hub the switch may be committed with the proposal itself, which else stands as it is made. -/
theorem State.hubCommit_chan {s : State} {c : Nat} {p : BankProposal} (h : (s.chan c).sl.proposal = some p) :
    ∃ a k, (s.hubCommit c).chan c =
      { s.chan c with sl := { (s.chan c).sl with proposal := some { p with accepted := a, committed := k } } } := by
  have hkept : s.chan c = { s.chan c with sl := { (s.chan c).sl with
      proposal := some { p with accepted := p.accepted, committed := p.committed } } } := by
    rw [show ({ p with accepted := p.accepted, committed := p.committed } : BankProposal) = p from rfl, ← h]
  unfold State.hubCommit
  simp only [h]
  split
  · exact ⟨some p.mI, true, by rw [State.onSl_eq, State.setChan_chan_same]⟩
  · exact ⟨p.accepted, p.committed, hkept⟩

/-- The proposal of a switch stands at the channel that negotiates, whose bank and contexts stay. -/
theorem State.propose_chan (s : State) (f : Flight) (c : Nat) (g : Option Nat) (lead : Nat) :
    ∃ p, ((s.propose f c g lead).chan c).sl.proposal = some p ∧ p.id = some f.id ∧
      p.mI = s.switchCount c g + BitVec.ofNat 32 lead ∧ p.crc = s.standbyCrc (s.switchers c g) ∧ p.group = g ∧
      p.switched = none ∧ ((s.propose f c g lead).chan c).sl.activeB = (s.chan c).sl.activeB ∧
      ((s.propose f c g lead).chan c).tribs = (s.chan c).tribs := by
  unfold State.propose
  dsimp only
  rw [State.run_chan]
  generalize hu : s.onChan c _ = u
  have hchan := congrArg (State.chan · c) hu
  simp only [State.onChan_eq, State.setChan_chan_same] at hchan
  obtain ⟨a, k, hcommit⟩ := State.hubCommit_chan (s := u) (c := c) (by rw [← hchan])
  rw [hcommit, ← hchan]
  exact ⟨_, rfl, rfl, rfl, rfl, rfl, rfl, rfl, rfl⟩

section
variable {s : State} {id c : Nat} {f : Flight} (hanchor : s.switchAnchor f.desc = some c)
include hanchor

theorem execBankSwitch_proposes {lead : Nat} (h : s.Started id 0x1110 f) (hlead : f.desc.bankLead = some lead)
    (hmode : (s.chan c).pm.mode ≠ .leaf)
    (hrights : f.desc.switchGroup.isSome = true → f.rightsTo (s.switchers c f.desc.switchGroup) = true)
    (hidle : ∀ m ∈ s.switchers c f.desc.switchGroup, s.switchBusy m = false)
    (hstandby : s.standbyStatus (s.switchers c f.desc.switchGroup) = 0) :
    s.Does (.bankSwitch id) (s.propose f c f.desc.switchGroup lead) := by
  have howned : (f.desc.switchGroup.isSome && !f.rightsTo (s.switchers c f.desc.switchGroup)) = false := by simpa using hrights
  have hready : (s.switchers c f.desc.switchGroup).any s.switchBusy = false := by simpa using hidle
  refine (withCmd_started h _).trans ?_
  simp only [hanchor, hlead, hmode, howned, hready, hstandby, Bool.false_eq_true, if_false, ne_eq, not_true]

end

/-! ### Arming and disarming (R126, R137) -/

/-- The slot tables of some channels are set: a second setting changes nothing. -/
theorem State.onSls_chan (s : State) (cs : List Nat) {g : Slots → Slots} (hg : ∀ x, g (g x) = g x) (m : Nat) :
    ((cs.foldl (fun s m => s.onSl m g) s).chan m).sl = if m ∈ cs then g (s.chan m).sl else (s.chan m).sl := by
  induction cs generalizing s with
  | nil => rfl
  | cons c cs ih =>
    rw [List.foldl_cons, ih]
    by_cases hc : m = c
    · subst hc
      simp [hg]
    · simp [hc]

section
variable {s : State} {id c : Nat} {f : Flight} (hanchor : s.switchAnchor f.desc = some c)
include hanchor

theorem armed_some_of_execBankArm (h : s.Started id 0x1111 f) (hrow : f.desc.p0.bit 0 = true)
    (hrights : f.desc.switchGroup.isSome = true → f.rightsTo (s.switchers c f.desc.switchGroup) = true)
    (hidle : ∀ m ∈ s.switchers c f.desc.switchGroup, s.switchBusy m = false)
    (hstandby : s.standbyStatus (s.switchers c f.desc.switchGroup) = 0)
    (hcrc : BitVec.ofNat 32 (f.desc.p1.bits 31 0) = s.standbyCrc (s.switchers c f.desc.switchGroup)) :
    ∃ t, exec (.bankArm id) s = .next t ∧ t.flight? f.id = none ∧
      ∀ m ∈ s.switchers c f.desc.switchGroup, (t.chan m).sl.armed = some (BitVec.ofNat 32 (f.desc.p1.bits 31 0)) ∧
        (t.chan m).sl.armGroup = f.desc.switchGroup ∧ (t.chan m).sl.bankA = (s.chan m).sl.bankA ∧
        (t.chan m).sl.bankB = (s.chan m).sl.bankB := by
  have howned : (f.desc.switchGroup.isSome && !f.rightsTo (s.switchers c f.desc.switchGroup)) = false := by simpa using hrights
  have hready : (s.switchers c f.desc.switchGroup).any s.switchBusy = false := by simpa using hidle
  refine ⟨_, withCmdIf_started (p := Desc.arms) h hrow _, ?_⟩
  simp only [hanchor, howned, hready, hstandby, ← hcrc, Bool.false_eq_true, if_false, ne_eq, not_true,
    State.remark_flight?, State.finish_flight?_same, true_and]
  intro m hm
  rw [State.remark_chan_sl, State.finish_chan, State.onSls_chan _ _ (by intro; rfl), if_pos hm]
  exact ⟨rfl, rfl, rfl, rfl⟩

theorem armed_none_of_execBankDisarm (h : s.Started id 0x1111 f) (hrow : f.desc.p0.bit 0 = false)
    (hrights : f.desc.switchGroup.isSome = true → f.rightsTo (s.switchers c f.desc.switchGroup) = true)
    (hfree : (s.chan c).sl.agreement = none) :
    ∃ t, exec (.bankDisarm id) s = .next t ∧ t.flight? f.id = none ∧
      ∀ m ∈ s.switchers c f.desc.switchGroup, (t.chan m).sl.armed = none := by
  have howned : (f.desc.switchGroup.isSome && !f.rightsTo (s.switchers c f.desc.switchGroup)) = false := by simpa using hrights
  refine ⟨_, withCmdIf_started (p := fun d => !d.arms) h (by simp [Desc.arms, hrow]) _, ?_⟩
  simp only [hanchor, howned, hfree, Option.isSome_none, Bool.false_eq_true, if_false, State.remark_flight?,
    State.finish_flight?_same, true_and]
  intro m hm
  rw [State.remark_chan_sl, State.finish_chan, State.onSls_chan _ _ (by intro; rfl), if_pos hm]

end

theorem execBankStatus_answers {s : State} {id : Nat} {f : Flight} (h : s.Started id 0x1112 f) :
    ∃ ws, s.Does (.bankStatus id) (s.answer f ws) ∧ ws.length = 4 ∧
      (wd ws 0).bit 0 = (s.chan f.desc.target).sl.activeB ∧ (wd ws 0).bit 1 = (s.chan f.desc.target).rf.bank ∧
      (wd ws 0).bits 63 32 = (s.standbyCrc (s.switchers f.desc.target (s.groupOf f.desc.target))).toNat :=
  ⟨_, withCmd_started h _, rfl, bankStatus_bits ..⟩

/-! ### What leaves the groups alone -/

@[simp] theorem State.restateAll_groups (s : State) (c : Nat) (tx rx : Bool) : (s.restateAll c tx rx).groups = s.groups :=
  foldl_eq_of (·.groups) _ _ _ fun u i => congrArg Outside.groups (u.restateOne_outside c i tx rx)

@[simp] theorem State.alignFrames_groups (s : State) (cs : List Nat) : (s.alignFrames cs).groups = s.groups :=
  foldl_eq_of (·.groups) _ _ _ fun _ _ => rfl

@[simp] theorem State.breakMessage_groups (s : State) (c cause : Nat) (by_ : Option Nat) :
    (s.breakMessage c cause by_).groups = s.groups := by
  unfold State.breakMessage
  split <;> rfl

@[simp] theorem State.cutMultiframe_groups (s : State) (c : Nat) (cause : Option Nat) :
    (s.cutMultiframe c cause).groups = s.groups := by
  unfold State.cutMultiframe State.reconverged
  dsimp only
  split <;> rfl

@[simp] theorem State.enterSearch_groups (s : State) (c : Nat) (cause : Option Nat) : (s.enterSearch c cause).groups = s.groups := by
  unfold State.enterSearch
  simp only [apply_ite State.groups, State.raise_groups, State.onChan_eq, State.setChan_groups, State.breakMessage_groups,
    State.cutMultiframe_groups, ite_self]

/-- A group that is dissolved is gone, and the others stay. -/
theorem State.dissolve_groups (s : State) (g : Nat) : (s.dissolve g).groups = s.groups.erase g := by
  unfold State.dissolve
  dsimp only
  rw [State.restateAll_groups, foldl_eq_of (·.groups) _ _ _ fun u c => by simp]
  refine congrArg (Sparse.erase · g) (foldl_eq_of (·.groups) _ _ _ fun u l => ?_)
  split <;> rfl

theorem State.dissolve_group (s : State) (g k : Nat) : (s.dissolve g).group k = Sparse.get {} (s.groups.erase g) k := by
  rw [State.group, State.dissolve_groups]

/-! ### Making, dissolving and reporting a group (R133, R135, R138) -/

theorem execGroupCreate_creates {s : State} {id g : Nat} {f : Flight} {m : BitVec 32} (h : s.Started id 0x1120 f)
    (hg : g = f.desc.p0.bits 2 0) (hm : m = BitVec.ofNat 32 (f.desc.p1.bits 31 0)) (hfree : (s.group g).members = 0)
    (hmin : 2 ≤ (membersOf m).length) (hmax : (membersOf m).length ≤ 8) (hbudget : f.desc.p2.bits 14 0 ≤ 20000)
    (hmembers : ∀ c ∈ membersOf m, s.groupOf c = none ∧ (s.chan c).pm.mode = .pointToPoint ∧ (s.chan c).bu.timing = 0 ∧
      (s.chan c).usedEntry = false)
    (hrights : f.rightsTo (membersOf m) = true)
    (hpromise : f.desc.p2.bits 14 0 ≠ 0 → ∀ a, anchorOf m = some a → s.groupPromise a g = false) :
    ∃ t a, exec (.groupCreate id) s = .next t ∧ anchorOf m = some a ∧ (t.group g).members = m ∧
      (t.group g).budget = f.desc.p2.bits 14 0 ∧ (t.group g).mfc = (s.chan a).tf.mfc ∧ t.flight? f.id = none ∧
      ∀ h, h ≠ g → t.group h = s.group h := by
  obtain ⟨a, ha⟩ : ∃ a, anchorOf m = some a := by
    rw [anchorOf_eq_head?]
    exact ⟨_, List.head?_eq_some_head (List.ne_nil_of_length_pos (by omega))⟩
  have hlegal : ((s.group g).members ≠ 0 || (membersOf m).length < 2 || 8 < (membersOf m).length ||
      20000 < f.desc.p2.bits 14 0 ||
      (membersOf m).any fun c => (s.groupOf c).isSome || (s.chan c).pm.mode ≠ .pointToPoint) = false := by
    have halone (c : Nat) (hc : c ∈ membersOf m) : s.groupOf c = none ∧ (s.chan c).pm.mode = .pointToPoint :=
      (hmembers c hc).imp_right And.left
    simpa [hfree, hmax, hbudget] using ⟨hmin, halone⟩
  have htimed : ((membersOf m).any fun c => (s.chan c).bu.timing ≠ 0) = false := by
    simpa using fun c hc => (hmembers c hc).2.2.1
  have hunused : ((membersOf m).any fun c => (s.chan c).usedEntry) = false := by
    simpa using fun c hc => (hmembers c hc).2.2.2
  have hreleased : (f.desc.p2.bits 14 0 ≠ 0 && s.groupPromise a g) = false := by
    simpa using fun hb => hpromise hb a ha
  refine ⟨_, a, withCmd_started h _, ha, ?_⟩
  simp only [← hg, ← hm, ha, Option.getD_some, hlegal, hrights, htimed, hunused, hreleased, Bool.not_true, Bool.false_eq_true,
    if_false, State.remark_group, State.finish_group, State.remark_flight?, State.finish_flight?_same, true_and]
  have hgroup (k : Nat) (x : Group) (cs : List Nat) :
      (((s.setGroup g x).alignFrames cs).restateAll a true true).group k = (s.setGroup g x).group k := by
    simp [State.group]
  simp only [hgroup, State.setGroup_group_same, true_and]
  exact fun k hk => State.setGroup_group_ne _ _ hk

theorem execGroupDelete_deletes {s : State} {id g : Nat} {f : Flight} (h : s.Started id 0x1121 f)
    (hg : g = f.desc.p0.bits 2 0) (hexists : (s.group g).members ≠ 0)
    (hrights : f.rightsTo (membersOf (s.group g).members) = true) (hnamed : s.groupNamed g = false)
    (hpromise : (s.group g).budget ≠ 0 → s.groupPromise ((anchorOf (s.group g).members).getD 0) g = false)
    (hrising : s.groups.rising 0 = true) :
    ∃ t, exec (.groupDelete id) s = .next t ∧ (t.group g).members = 0 ∧ t.flight? f.id = none ∧
      ∀ h, h ≠ g → t.group h = s.group h := by
  have hreleased : ((s.group g).budget ≠ 0 && s.groupPromise ((anchorOf (s.group g).members).getD 0) g) = false := by
    simpa using hpromise
  refine ⟨_, withCmd_started h _, ?_⟩
  simp only [← hg, hexists, hrights, hnamed, hreleased, Bool.not_true, Bool.false_eq_true, if_false, State.remark_group,
    State.finish_group, State.remark_flight?, State.finish_flight?_same, true_and, State.dissolve_group]
  exact ⟨congrArg Group.members (Sparse.get_erase_same _ hrising g), fun k hk => Sparse.get_erase_ne _ _ hk⟩

theorem execGroupQuery_answers {s : State} {id g : Nat} {f : Flight} (h : s.Started id 0x1122 f)
    (hg : g = f.desc.p0.bits 2 0) (hrights : f.rightsTo (membersOf (s.group g).members) = true) :
    s.Does (.groupQuery id) (s.answer f (s.groupWords g)) :=
  (withCmd_started h _).trans (by simp only [← hg, hrights, Bool.not_true, Bool.false_eq_true, if_false])

/-! ### Realigning a group (R135, R136) -/

/-- A look at the members of group g changes neither the group nor a frame receiver, and raises events beside those raised. -/
structure State.Looked (g : Nat) (s0 s : State) : Prop where
  group : s.group g = s0.group g
  rf : ∀ c, (s.chan c).rf = (s0.chan c).rf
  raised : s0.batch ⊆ s.batch

theorem State.Looked.refl (g : Nat) (s : State) : s.Looked g s := ⟨rfl, fun _ => rfl, List.Subset.refl _⟩

section
variable {g : Nat} {s0 s : State} (h : s0.Looked g s)
include h

theorem State.raise_looked (source code sev : Nat) (d0 : Word) (d1 : BitVec 32) (cause : Option Nat) :
    s0.Looked g (s.raise source code sev d0 d1 cause) :=
  ⟨h.group, h.rf, fun _ he => List.mem_append_left _ (h.raised he)⟩

theorem State.setChan_looked {c : Nat} {x : Channel} (hx : x.rf = (s.chan c).rf) : s0.Looked g (s.setChan c x) := by
  refine ⟨h.group, fun d => ?_, h.raised⟩
  rw [State.setChan_chan]
  split
  · subst d
    exact hx.trans (h.rf c)
  · exact h.rf d

theorem State.failMember_looked (c : Nat) : s0.Looked g (s.failMember g c) := by
  refine foldl_inv_of (s0.Looked g) _ _ s (fun u i hu => ?_) h
  split
  · exact State.raise_looked (State.setChan_looked hu (by rfl)) ..
  · exact hu

theorem State.lookMember_looked (cause : Option Nat) (c : Nat) : s0.Looked g (s.lookMember g cause c) := by
  have hnoted := State.setChan_looked h (c := c) (x := { s.chan c with outOfWindow := !s.memberIn g c }) (by rfl)
  unfold State.lookMember
  dsimp only
  split
  · exact hnoted
  · refine State.failMember_looked ?_ c
    split
    · exact State.raise_looked hnoted ..
    · exact hnoted

end

/-- While a member's frames arrive, a release point in force stays. -/
theorem State.groupWindow_aligned {s : State} {g c : Nat} (haligned : (s.group g).aligned = true)
    (hc : c ∈ membersOf (s.group g).members) (hframe : (s.chan c).rf.state = .inFrame) (cause : Option Nat) :
    ((s.groupWindow g cause).group g).aligned = true ∧ s.batch ⊆ (s.groupWindow g cause).batch := by
  unfold State.groupWindow
  dsimp only
  generalize hu : s.onGroup g _ = u
  have hu_aligned : (u.group g).aligned = true := by rw [← hu, State.onGroup_eq, State.setGroup_group_same]; exact haligned
  rw [if_pos hu_aligned]
  have hlooked : u.Looked g ((membersOf (s.group g).members).foldl (fun s c => s.lookMember g cause c) u) :=
    foldl_inv_of (u.Looked g) _ _ u (fun _ m hv => State.lookMember_looked hv cause m) (.refl g u)
  generalize (membersOf (s.group g).members).foldl (fun s c => s.lookMember g cause c) u = v at hlooked
  have hv_aligned : (v.group g).aligned = true := by rw [hlooked.group, hu_aligned]
  have hv_frame : (v.chan c).rf.state = .inFrame := by rw [hlooked.rf, ← hu]; exact hframe
  have harrives : ((membersOf (s.group g).members).all fun c => (v.chan c).rf.state ≠ .inFrame) = false := by
    rw [List.all_eq_false]
    exact ⟨c, hc, by simp [hv_frame]⟩
  simp only [harrives, Bool.false_eq_true, if_false, hv_aligned, Bool.true_or, if_true, true_and]
  exact fun _ he => hlooked.raised (by rw [← hu]; exact he)

/-- A group with a member whose frames arrive aligns afresh, with event 0x1121 (R135). -/
theorem State.alignGroup_aligns {s : State} {g c : Nat} (h : c ∈ s.arrived g) :
    ((s.alignGroup g).group g).aligned = true ∧ ((s.alignGroup g).group g).members = (s.group g).members ∧
    (∀ d, (s.alignGroup g).chan d = s.chan d) ∧
    ∃ e ∈ (s.alignGroup g).batch, e.code = 0x1121 ∧ e.source = (anchorOf (s.group g).members).getD 0 := by
  unfold State.alignGroup
  dsimp only
  split
  · rename_i hnone
    rw [hnone] at h
    cases h
  · simp

theorem execGroupRealign_aligns {s : State} {id g c : Nat} {f : Flight} (h : s.Started id 0x1123 f)
    (hg : g = f.desc.p0.bits 2 0) (hc : c ∈ membersOf (s.group g).members) (hframe : (s.chan c).rf.state = .inFrame)
    (hmarked : (s.group g).marked.getLsbD c = true) (hrights : f.rightsTo (membersOf (s.group g).members) = true) :
    ∃ t, exec (.groupRealign id) s = .next t ∧ t.flight? f.id = none ∧ (t.group g).aligned = true ∧
      ∃ e ∈ t.batch, e.code = 0x1121 ∧ e.source = (anchorOf (s.group g).members).getD 0 := by
  have hmembers : (membersOf (s.group g).members).isEmpty = false := by
    rw [List.isEmpty_eq_false_iff]
    exact List.ne_nil_of_mem hc
  have harrived : c ∈ s.arrived g := List.mem_filter.2 ⟨hc, by simp [hframe, hmarked]⟩
  obtain ⟨haligned, hkept, hchan, e, he, hevent⟩ := State.alignGroup_aligns harrived
  obtain ⟨hstays, hraised⟩ := State.groupWindow_aligned haligned (by rw [hkept]; exact hc) (by rw [hchan]; exact hframe) none
  refine ⟨_, withCmd_started h _, ?_⟩
  simp only [← hg, hmembers, hrights, Bool.not_true, Bool.false_eq_true, if_false, State.remark_flight?,
    State.finish_flight?_same, State.remark_group, State.finish_group, true_and]
  exact ⟨hstays, e, State.remark_batch (by rw [State.finish_batch]; exact hraised he), hevent⟩

/-- Settles O34, each clause by the lemma of its row. -/
theorem switchesAndGroupsComplete : Obligations.SwitchesAndGroupsComplete := by
  unfold Obligations.SwitchesAndGroupsComplete
  constructor
  · intro s id f c hanchor
    refine ⟨fun lead h hlead hmode hrights hidle hstandby => ?_, fun h hrow hrights hidle hstandby hcrc => ?_,
      fun h hrow hrights hfree => ?_, fun h => ?_⟩
    · obtain ⟨p, hp⟩ := s.propose_chan f c f.desc.switchGroup lead
      refine ⟨_, p, execBankSwitch_proposes hanchor h hlead hmode hrights hidle hstandby, ?_⟩
      rw [State.remark_chan_sl, State.remark_chan_tribs]
      exact hp
    · exact armed_some_of_execBankArm hanchor h hrow hrights hidle hstandby hcrc
    · exact armed_none_of_execBankDisarm hanchor h hrow hrights hfree
    · exact execBankStatus_answers h
  · intro s id f g hg
    refine ⟨fun m h hm hfree hmin hmax hbudget hmembers hrights hpromise => ?_,
      fun h hexists hrights hnamed hpromise hrising => ?_, fun h hrights => ?_, fun c hc h hframe hmarked hrights => ?_⟩
    · exact execGroupCreate_creates h hg hm hfree hmin hmax hbudget hmembers hrights hpromise
    · exact execGroupDelete_deletes h hg hexists hrights hnamed hpromise hrising
    · exact execGroupQuery_answers h hg hrights
    · exact execGroupRealign_aligns h hg hc hframe hmarked hrights

end Sys2Proof.Machine
end

section
/-! The transmit frame period and the transmit multiframe boundary: the frame number and the multiframe count of every channel, what
leaves them alone, and the points at which keys roll and wear out (06 R119; 07 R155, R156; 08 R173, R177). -/

namespace Sys2Proof.Machine

/-! ### The clock of a channel -/

/-- Frame number, multiframe count and P2MP mode of a channel. -/
structure Clock where
  frame : Nat
  mfc : BitVec 32
  mode : P2Mode

def Channel.clock (ch : Channel) : Clock := { frame := ch.tf.frame, mfc := ch.tf.mfc, mode := ch.pm.mode }

/-- The clocks of all channels. -/
def clocks (m : Sparse Channel) (c : Nat) : Clock := (m.get {} c).clock

theorem State.clocks_eq (s : State) (c : Nat) : clocks s.channels c = (s.chan c).clock := rfl

/-! ### What leaves the clocks alone -/

@[simp] theorem State.setChan_clocks {s : State} {c : Nat} {x : Channel} (hframe : x.tf.frame = (s.chan c).tf.frame)
    (hmfc : x.tf.mfc = (s.chan c).tf.mfc) (hmode : x.pm.mode = (s.chan c).pm.mode) :
    clocks (s.setChan c x).channels = clocks s.channels := by
  funext m
  rw [State.clocks_eq, State.clocks_eq, State.setChan_chan]
  split
  · next hm => rw [Channel.clock, hframe, hmfc, hmode, hm]; rfl
  · rfl

@[simp] theorem clocks_ite {p : Prop} [Decidable p] (s t : State) :
    clocks (if p then s else t).channels = if p then clocks s.channels else clocks t.channels :=
  apply_ite (fun u : State => clocks u.channels) p s t

@[simp] theorem foldl_clocks {α : Type} {g : State → α → State} (h : ∀ s x, clocks (g s x).channels = clocks s.channels)
    (xs : List α) (s : State) : clocks (xs.foldl g s).channels = clocks s.channels :=
  foldl_eq_of (fun s => clocks s.channels) xs g s h

@[simp] theorem State.setTrib_clocks (s : State) (i : Nat) (x : Trib) : clocks (s.setTrib i x).channels = clocks s.channels :=
  State.setChan_clocks rfl rfl rfl

@[simp] theorem State.onTrib_clocks (s : State) (i : Nat) (g : Trib → Trib) : clocks (s.onTrib i g).channels = clocks s.channels :=
  s.setTrib_clocks i _

@[simp] theorem State.setCipherOf_clocks (s : State) (i : Nat) (x : Cipher) : clocks (s.setCipherOf i x).channels = clocks s.channels :=
  State.setChan_clocks rfl rfl rfl

@[simp] theorem State.onLane_clocks (s : State) (n : Nat) (g : Lane → Lane) : clocks (s.onLane n g).channels = clocks s.channels :=
  State.setChan_clocks rfl rfl rfl

@[simp] theorem State.onLeaf_clocks (s : State) (c j : Nat) (g : Leaf → Leaf) : clocks (s.onLeaf c j g).channels = clocks s.channels :=
  State.setChan_clocks rfl rfl rfl

theorem State.onSl_clocks (s : State) (c : Nat) (g : Slots → Slots) : clocks (s.onSl c g).channels = clocks s.channels :=
  State.setChan_clocks rfl rfl rfl

/-! ### Figures of latency (02 R27; 21 R456) -/

@[simp] theorem State.reported_clocks (s : State) (c : Nat) : clocks (s.reported c).channels = clocks s.channels :=
  State.setChan_clocks rfl rfl rfl

@[simp] theorem State.oweLatency_clocks (s : State) (c : Nat) : clocks (s.oweLatency c).channels = clocks s.channels :=
  State.setChan_clocks rfl rfl rfl

@[simp] theorem State.latencyEvent_clocks (s : State) (i : Nat) : clocks (s.latencyEvent i).channels = clocks s.channels := by
  simp [State.latencyEvent]

@[simp] theorem State.latencyChanged_clocks (s : State) (i : Nat) : clocks (s.latencyChanged i).channels = clocks s.channels := by
  simp [State.latencyChanged]

@[simp] theorem State.payOwed_clocks (s : State) (c : Nat) : clocks (s.payOwed c).channels = clocks s.channels := by
  simp [State.payOwed]

@[simp] theorem State.restateOne_clocks (s : State) (c i : Nat) (tx rx : Bool) :
    clocks (s.restateOne c i tx rx).channels = clocks s.channels := by
  simp [State.restateOne]

@[simp] theorem State.restate_clocks (s : State) (c : Nat) (tx rx : Bool) :
    clocks (s.restate c tx rx).channels = clocks s.channels := by
  simp [State.restate]

/-! ### Slots, contexts and groups (06 R113 to R137) -/

@[simp] theorem State.refreshTrib_clocks (s : State) (i : Nat) : clocks (s.refreshTrib i).channels = clocks s.channels :=
  s.setTrib_clocks i _

@[simp] theorem State.refreshTribs_clocks (s : State) (c : Nat) : clocks (s.refreshTribs c).channels = clocks s.channels := by
  simp [State.refreshTribs]

@[simp] theorem State.refreshSlots_clocks (s : State) (c : Nat) : clocks (s.refreshSlots c).channels = clocks s.channels := by
  unfold State.refreshSlots
  split <;> simp

@[simp] theorem State.failTrib_clocks (s : State) (i cause : Nat) : clocks (s.failTrib i cause).channels = clocks s.channels := by
  simp [State.failTrib]

@[simp] theorem State.failMember_clocks (s : State) (g c : Nat) : clocks (s.failMember g c).channels = clocks s.channels := by
  simp [State.failMember]

@[simp] theorem State.alignGroup_clocks (s : State) (g : Nat) : clocks (s.alignGroup g).channels = clocks s.channels := by
  unfold State.alignGroup
  dsimp only
  split <;> simp

@[simp] theorem State.lookMember_clocks (s : State) (g : Nat) (cause : Option Nat) (c : Nat) :
    clocks (s.lookMember g cause c).channels = clocks s.channels := by
  simp [State.lookMember]

@[simp] theorem State.groupWindow_clocks (s : State) (g : Nat) (cause : Option Nat) :
    clocks (s.groupWindow g cause).channels = clocks s.channels := by
  simp [State.groupWindow]

@[simp] theorem State.lookGroup_clocks (s : State) (c : Nat) (cause : Option Nat) :
    clocks (s.lookGroup c cause).channels = clocks s.channels := by
  unfold State.lookGroup
  split <;> simp

@[simp] theorem State.takeRates_clocks (s : State) (c : Nat) (lowerOnly : Bool) :
    clocks (s.takeRates c lowerOnly).channels = clocks s.channels := by
  simp [State.takeRates]

@[simp] theorem State.flipBank_clocks (s : State) (c : Nat) (m : BitVec 32) : clocks (s.flipBank c m).channels = clocks s.channels := by
  simp [State.flipBank]

@[simp] theorem State.bankDone_clocks (s : State) (c : Nat) : clocks (s.bankDone c).channels = clocks s.channels := by
  unfold State.bankDone
  dsimp only
  split
  · split <;> simp
  · simp

@[simp] theorem State.bankSwitchNow_clocks (s : State) (c : Nat) (g : Option Nat) (m : BitVec 32) :
    clocks (s.bankSwitchNow c g m).channels = clocks s.channels := by
  unfold State.bankSwitchNow
  dsimp only
  split
  · split
    · rw [State.onSl_clocks, State.onSl_clocks]
      simp
    · rw [State.bankDone_clocks, State.onSl_clocks]
      simp
  · rw [State.onSl_clocks]
    simp

@[simp] theorem State.bankSettle_clocks (s : State) (c : Nat) : clocks (s.bankSettle c).channels = clocks s.channels := by
  simp [State.bankSettle]

@[simp] theorem State.bankTurn_clocks (s : State) (c : Nat) : clocks (s.bankTurn c).channels = clocks s.channels := by
  unfold State.bankTurn
  dsimp only
  split <;> simp

@[simp] theorem State.bankSent_clocks (s : State) (c : Nat) (displaced : Bool) :
    clocks (s.bankSent c displaced).channels = clocks s.channels := by
  simp [State.bankSent]

/-! ### The loading exchange (10 R239 to R247) -/

@[simp] theorem State.lxSent_clocks (s : State) (c : Nat) : clocks (s.lxSent c).channels = clocks s.channels := by
  simp [State.lxSent]

@[simp] theorem State.lapse_clocks (s : State) (c cause : Nat) (seq : BitVec 16) :
    clocks (s.lapse c cause seq).channels = clocks s.channels := by
  simp [State.lapse]

@[simp] theorem State.lxSwitched_clocks (s : State) (c : Nat) (tx prof : Bool) (m : BitVec 32) :
    clocks (s.lxSwitched c tx prof m).channels = clocks s.channels := by
  simp [State.lxSwitched]

@[simp] theorem State.lxPropose_clocks (s : State) (c : Nat) (p : LxProposal) (far : Nat) :
    clocks (s.lxPropose c p far).channels = clocks s.channels := by
  simp [State.lxPropose]

@[simp] theorem State.lxEnds_clocks (s : State) (c : Nat) (p : LxProposal) (st : Nat) (r2 : Option Nat) (reason : Nat) :
    clocks (s.lxEnds c p st r2 reason).channels = clocks s.channels := by
  simp [State.lxEnds]

@[simp] theorem State.lxAgain_clocks (s : State) (c : Nat) (p : LxProposal) :
    clocks (s.lxAgain c p).channels = clocks s.channels := by
  simp [State.lxAgain]

@[simp] theorem State.agreementLapse_clocks (s : State) (c : Nat) : clocks (s.agreementLapse c).channels = clocks s.channels := by
  unfold State.agreementLapse
  split <;> simp

@[simp] theorem State.lxStop_clocks (s : State) (c : Nat) : clocks (s.lxStop c).channels = clocks s.channels := by
  unfold State.lxStop
  dsimp only
  split <;> simp

@[simp] theorem State.lxDone_clocks (s : State) (c : Nat) : clocks (s.lxDone c).channels = clocks s.channels := by
  unfold State.lxDone
  dsimp only
  split <;> simp

@[simp] theorem State.lxTxSwitch_clocks (s : State) (c : Nat) (m : BitVec 32) :
    clocks (s.lxTxSwitch c m).channels = clocks s.channels := by
  unfold State.lxTxSwitch
  split <;> simp

@[simp] theorem State.ownOver_clocks (s : State) (c : Nat) : clocks (s.ownOver c).channels = clocks s.channels := by
  unfold State.ownOver
  split <;> simp

@[simp] theorem State.downstreamBoundary_clocks (s : State) (c : Nat) :
    clocks (s.downstreamBoundary c).channels = clocks s.channels := by
  unfold State.downstreamBoundary
  split <;> simp

@[simp] theorem State.lxBoundary_clocks (s : State) (c : Nat) : clocks (s.lxBoundary c).channels = clocks s.channels := by
  unfold State.lxBoundary
  dsimp only
  split <;> simp

/-- What an exchange with one leaf leaves alone stays while the hub's channel stands for the pair. -/
theorem State.inPair_clocks (s : State) (c j : Nat) {g : State → State}
    (hg : ∀ s, clocks (g s).channels = clocks s.channels) : clocks (s.inPair c j g).channels = clocks s.channels := by
  simp [State.inPair, State.enterPair, State.leavePair, hg]

/-! ### Calibration, shapes, reports and keys -/

@[simp] theorem State.calTell_clocks (s : State) (c : Nat) (tx : Bool) (outcome : Nat) :
    clocks (s.calTell c tx outcome).channels = clocks s.channels := by
  simp [State.calTell]

@[simp] theorem State.calStart_clocks (s : State) (c : Nat) (tx initial response : Bool) :
    clocks (s.calStart c tx initial response).channels = clocks s.channels := by
  simp [State.calStart]

@[simp] theorem State.calAgain_clocks (s : State) (c : Nat) (tx : Bool) : clocks (s.calAgain c tx).channels = clocks s.channels := by
  simp [State.calAgain]

@[simp] theorem State.calNext_clocks (s : State) (c : Nat) (tx : Bool) (r : CalRun) (slewed due response : Bool) :
    clocks (s.calNext c tx r slewed due response).channels = clocks s.channels := by
  simp [State.calNext]

@[simp] theorem State.calEvent_clocks (s : State) (c : Nat) (tx : Bool) (reason n sev : Nat) (cause : Option Nat) :
    clocks (s.calEvent c tx reason n sev cause).channels = clocks s.channels := by
  simp [State.calEvent]

@[simp] theorem State.calAbandon_clocks (s : State) (c : Nat) (tx : Bool) (cause : Option Nat) :
    clocks (s.calAbandon c tx cause).channels = clocks s.channels := by
  unfold State.calAbandon State.calReject
  dsimp only
  split <;> simp

@[simp] theorem State.rollKey_clocks (s : State) (i : Nat) (m : BitVec 32) : clocks (s.rollKey i m).channels = clocks s.channels := by
  simp [State.rollKey]

@[simp] theorem State.rollWaiting_clocks (s : State) (c : Nat) : clocks (s.rollWaiting c).channels = clocks s.channels := by
  simp [State.rollWaiting]

@[simp] theorem State.selfcalOver_clocks (s : State) (n id st : Nat) : clocks (s.selfcalOver n id st).channels = clocks s.channels := by
  simp [State.selfcalOver]

@[simp] theorem State.shapeBoundary_clocks (s : State) (c : Nat) : clocks (s.shapeBoundary c).channels = clocks s.channels := by
  simp [State.shapeBoundary]

@[simp] theorem State.timingBoundary_clocks (s : State) (c : Nat) : clocks (s.timingBoundary c).channels = clocks s.channels := by
  simp [State.timingBoundary]

@[simp] theorem State.meritBoundary_clocks (s : State) (c : Nat) (merits : List (BitVec 8)) :
    clocks (s.meritBoundary c merits).channels = clocks s.channels := by
  simp [State.meritBoundary]

@[simp] theorem State.breakMessage_clocks (s : State) (c cause : Nat) (by_ : Option Nat) :
    clocks (s.breakMessage c cause by_).channels = clocks s.channels := by
  unfold State.breakMessage
  split <;> simp [State.loseMessage]

@[simp] theorem State.reconverged_clocks (s : State) (c peak : Nat) (cause : Option Nat) :
    clocks (s.reconverged c peak cause).channels = clocks s.channels := by
  unfold State.reconverged
  dsimp only
  split
  · rfl
  · exact State.setChan_clocks rfl rfl rfl

@[simp] theorem State.cutMultiframe_clocks (s : State) (c : Nat) (cause : Option Nat) :
    clocks (s.cutMultiframe c cause).channels = clocks s.channels := by
  simp [State.cutMultiframe]

@[simp] theorem State.stopReports_clocks (s : State) (c : Nat) : clocks (s.stopReports c).channels = clocks s.channels := by
  unfold State.stopReports
  dsimp only
  split <;> simp [State.inPair_clocks]

@[simp] theorem State.cut_clocks (s : State) (c keep : Nat) : clocks (s.cut c keep).channels = clocks s.channels := by
  simp [State.cut, State.withdraw]

/-- A channel that stops sending keeps its frame number and its count. -/
@[simp] theorem State.stopFrames_clocks (s : State) (c keep : Nat) : clocks (s.stopFrames c keep).channels = clocks s.channels := by
  simp [State.stopFrames, Channel.stopWork]

/-! ### Hubs and receivers (11 R273; 13 R306, R314) -/

@[simp] theorem State.correctEqd_clocks (s : State) (c j : Nat) : clocks (s.correctEqd c j).channels = clocks s.channels := by
  simp [State.correctEqd]

@[simp] theorem State.hubBoundary_clocks (s : State) (c : Nat) : clocks (s.hubBoundary c).channels = clocks s.channels := by
  simp [State.hubBoundary]

@[simp] theorem State.firstMap_clocks (s : State) (c : Nat) : clocks (s.firstMap c).channels = clocks s.channels := by
  simp [State.firstMap]

@[simp] theorem State.hubReceiveEnd_clocks (s : State) (c : Nat) : clocks (s.hubReceiveEnd c).channels = clocks s.channels := by
  simp [State.hubReceiveEnd]

@[simp] theorem State.rxEnter_clocks (s : State) (c : Nat) (x : RxState) : clocks (s.rxEnter c x).channels = clocks s.channels := by
  simp [State.rxEnter]

@[simp] theorem State.startSearch_clocks (s : State) (c : Nat) : clocks (s.startSearch c).channels = clocks s.channels := by
  simp [State.startSearch]

@[simp] theorem State.setWindow_clocks (s : State) (c ceil : Nat) (now' : Bool) :
    clocks (s.setWindow c ceil now').channels = clocks s.channels := by
  simp [State.setWindow]

@[simp] theorem State.applyWindows_clocks (s : State) (c : Nat) (now' : Bool) :
    clocks (s.applyWindows c now').channels = clocks s.channels := by
  simp [State.applyWindows]

@[simp] theorem State.windowBoundary_clocks (s : State) (c : Nat) (m : BitVec 32) :
    clocks (s.windowBoundary c m).channels = clocks s.channels := by
  simp [State.windowBoundary]

@[simp] theorem State.hubReceiveStart_clocks (s : State) (c : Nat) : clocks (s.hubReceiveStart c).channels = clocks s.channels := by
  simp [State.hubReceiveStart]

/-! ### What a tributary sends and delivers (06 R106 to R121; 07 R157 to R163) -/

@[simp] theorem State.setMaskGen_clocks (s : State) (k : Nat) (x : MaskGen) : clocks (s.setMaskGen k x).channels = clocks s.channels := by
  simp [State.setMaskGen]

@[simp] theorem State.drawMasks_clocks (s : State) (k : Nat) : clocks (s.drawMasks k).channels = clocks s.channels := by
  simp [State.drawMasks]

@[simp] theorem State.authFailed_clocks (s : State) (i : Nat) (errored : Bool) :
    clocks (s.authFailed i errored).channels = clocks s.channels := by
  simp [State.authFailed]

@[simp] theorem State.clientWords_clocks (s : State) (i : Nat) (count : BitVec 32) (frame jc n : Nat) (ws : List Word)
    (errored : Bool) (tail : Option Carried) :
    clocks (s.clientWords i count frame jc n ws errored tail).1.channels = clocks s.channels := by
  unfold State.clientWords
  split
  · rfl
  · dsimp only
    split
    · simp
    · split
      · simp
      · split <;> simp

@[simp] theorem State.deliver_clocks (s : State) (x : RxTrib) (count : BitVec 32) (frame : Nat) (tail : Option Carried) :
    clocks (s.deliver x count frame tail).channels = clocks s.channels := by
  unfold State.deliver
  dsimp only
  split
  · rfl
  · split
    · simp
    · split <;> simp only [clocks_ite, State.onTrib_clocks, ite_self] <;> split <;> simp

@[simp] theorem State.releaseFrame_clocks (s : State) (g : Nat) (count : BitVec 32) (frame : Nat) :
    clocks (s.releaseFrame g count frame).channels = clocks s.channels := by
  simp [State.releaseFrame, State.deliverHeld]

@[simp] theorem State.releaseReady_clocks (s : State) (g : Nat) : clocks (s.releaseReady g).channels = clocks s.channels := by
  simp [State.releaseReady]

@[simp] theorem State.egress_clocks (s : State) (lv : Levels) (i : Nat) : clocks (s.egress lv i).1.channels = clocks s.channels := by
  unfold State.egress
  dsimp only
  split
  · simp
  · split <;> simp

@[simp] theorem State.sendLane_clocks (s : State) (c : Nat) (host : List Word) (p fill : Nat) :
    clocks (s.sendLane c host p fill).channels = clocks s.channels := by
  simp [State.sendLane]

@[simp] theorem State.sendHost_clocks (s : State) (es : List EgTrib) (fills : List Nat) (c : Nat) :
    clocks (s.sendHost es fills c).channels = clocks s.channels := by
  simp [State.sendHost]

@[simp] theorem State.missHost_clocks (s : State) (c : Nat) : clocks (s.missHost c).channels = clocks s.channels := by
  simp [State.missHost]

@[simp] theorem State.usedHost_clocks (s : State) (c : Nat) : clocks (s.usedHost c).channels = clocks s.channels := by
  simp [State.usedHost]

@[simp] theorem State.txCounted_clocks (s : State) (x : TxTrib) : clocks (s.txCounted x).channels = clocks s.channels := by
  simp [State.txCounted]

@[simp] theorem State.endDrains_clocks (s : State) (cs sent : List Nat) : clocks (s.endDrains cs sent).channels = clocks s.channels := by
  simp [State.endDrains]

/-! ### A line frame is sent (08 R178 to R189) -/

@[simp] theorem State.bodySent_clocks (s : State) (c : Nat) : clocks (s.bodySent c).channels = clocks s.channels := by
  simp [State.bodySent]

@[simp] theorem State.cellsSent_clocks (s : State) (c f : Nat) : clocks (s.cellsSent c f).channels = clocks s.channels := by
  simp [State.cellsSent]

@[simp] theorem State.leafBodySent_clocks (s : State) (c : Nat) : clocks (s.leafBodySent c).channels = clocks s.channels := by
  simp [State.leafBodySent]

@[simp] theorem State.chunkSent_clocks (s : State) (c : Nat) : clocks (s.chunkSent c).channels = clocks s.channels := by
  unfold State.chunkSent
  split <;> simp

@[simp] theorem TxFrame.open_frame (x : TxFrame) : x.open_.frame = x.frame := by
  unfold TxFrame.open_
  split <;> rfl

@[simp] theorem TxFrame.open_mfc (x : TxFrame) : x.open_.mfc = x.mfc := by
  unfold TxFrame.open_
  split <;> rfl

/-- A frame that is sent advances the frame number of its channel. -/
def Clock.sent (x : Clock) : Clock := { x with frame := x.frame + 1 }

/-- The next multiframe begins with frame 0. -/
def Clock.up (x : Clock) : Clock := { x with frame := 0, mfc := x.mfc + 1 }

@[simp] theorem Channel.unmeasured_tf (ch : Channel) : ch.unmeasured.tf = ch.tf := by
  unfold Channel.unmeasured
  split <;> rfl

@[simp] theorem Channel.unmeasured_pm (ch : Channel) : ch.unmeasured.pm = ch.pm := by
  unfold Channel.unmeasured
  split <;> rfl

theorem State.setChan_clock (s : State) (c : Nat) (x : Channel) (m : Nat) :
    clocks (s.setChan c x).channels m = if m = c then x.clock else clocks s.channels m := by
  rw [State.clocks_eq, State.setChan_chan, State.clocks_eq]
  exact apply_ite Channel.clock ..

theorem State.sendFrame_clock (s : State) (xs : List TxTrib) (c m : Nat) :
    clocks (s.sendFrame xs c).channels m = if m = c then (clocks s.channels m).sent else clocks s.channels m := by
  unfold State.sendFrame
  dsimp only
  generalize hu : s.onChan c _ = u
  have hopen : clocks u.channels = clocks s.channels := by
    rw [← hu, State.onChan_eq]
    apply State.setChan_clocks <;> split <;> simp
  generalize hv : (if !(u.chan c).pm.upstream then _ else _ : State) = v
  have hsent : clocks v.channels = clocks u.channels := by
    rw [← hv]
    split
    · simp
    · split <;> simp
  obtain ⟨-, hmfc, hmode⟩ := Clock.mk.inj (congrFun hsent c)
  rw [State.onChan_eq, State.setChan_clock, hsent, ← hopen]
  split
  · next hm =>
    subst hm
    exact (Clock.mk.injEq ..).mpr ⟨rfl, hmfc, hmode⟩
  · rfl

theorem State.countUp_clock (s : State) (c m : Nat) :
    clocks (s.countUp c).channels m = if m = c then (clocks s.channels m).up else clocks s.channels m := by
  rw [State.countUp, State.onChan_eq, State.setChan_clock]
  split
  · next hm => rw [hm]; rfl
  · rfl

/-- Channels that each take one step take it once when each is named once. -/
theorem foldl_clock {g : State → Nat → State} {f : Clock → Clock}
    (h : ∀ s c m, clocks (g s c).channels m = if m = c then f (clocks s.channels m) else clocks s.channels m)
    {cs : List Nat} (hcs : cs.Nodup) (s : State) (m : Nat) :
    clocks (cs.foldl g s).channels m = if m ∈ cs then f (clocks s.channels m) else clocks s.channels m := by
  induction cs generalizing s with
  | nil => rfl
  | cons c cs ih =>
    obtain ⟨hc, hcs⟩ := List.nodup_cons.1 hcs
    rw [List.foldl_cons, ih hcs, h]
    by_cases hm : m = c
    · subst hm
      simp only [hc, if_false, if_true, List.mem_cons, true_or]
    · simp only [hm, if_false, List.mem_cons, false_or]

/-! ### The channels in step (06 R134) -/

theorem State.inStep_nodup (s : State) (c : Nat) : (s.inStep c).Nodup := by
  unfold State.inStep
  split
  · exact ((List.nodup_range.filter _).filter _).filter _
  · split
    · exact List.nodup_cons.2 ⟨List.not_mem_nil, List.nodup_nil⟩
    · exact List.nodup_nil

/-! ### The frame period -/

theorem foldl_egress_clocks (lv : Levels) (is : List Nat) (acc : State × List EgTrib) :
    clocks (is.foldl (fun (acc : State × List EgTrib) i => ((acc.1.egress lv i).1, acc.2 ++ [(acc.1.egress lv i).2])) acc).1.channels =
      clocks acc.1.channels := by
  induction is generalizing acc with
  | nil => rfl
  | cons i is ih => rw [List.foldl_cons, ih, State.egress_clocks]

/-- A frame period advances the frame number of each of its channels by 1. -/
theorem State.framePeriod_clocks (s : State) {cs : List Nat} (hcs : cs.Nodup) (lv : Levels) (fills : List Nat) {m : Nat}
    (hm : m ∈ cs) : clocks (s.framePeriod cs lv fills).channels m = (clocks s.channels m).sent := by
  have hreceived (s : State) (c : Nat) :
      clocks (((s.firstMap c).hubReceiveEnd c).hubReceiveStart c).channels = clocks s.channels := by
    rw [State.hubReceiveStart_clocks, State.hubReceiveEnd_clocks, State.firstMap_clocks]
  unfold State.framePeriod
  dsimp only
  rw [foldl_clocks State.usedHost_clocks, State.endDrains_clocks, foldl_clocks State.txCounted_clocks,
    foldl_clock (fun s c m => s.sendFrame_clock _ c m) hcs, if_pos hm, foldl_clocks (fun s c => s.sendHost_clocks _ _ c),
    foldl_egress_clocks, foldl_clocks State.missHost_clocks, foldl_clocks hreceived]
  split <;> simp

/-- An ingress frame that has been used is gone, and the next may be taken. -/
theorem State.usedHost_used (s : State) (c : Nat) :
    ((s.usedHost c).chan c).kp.taken = false ∧ ((s.usedHost c).chan c).kp.ingress = none := by
  rw [State.usedHost, State.onKp_eq, State.setChan_chan_same]
  exact ⟨rfl, rfl⟩

theorem foldl_usedHost_used {m : Nat} {cs : List Nat} (hm : m ∈ cs) (s : State) :
    ((cs.foldl State.usedHost s).chan m).kp.taken = false ∧ ((cs.foldl State.usedHost s).chan m).kp.ingress = none := by
  obtain ⟨before, after, rfl⟩ := List.append_of_mem hm
  rw [List.foldl_append, List.foldl_cons]
  refine foldl_inv_of (fun u => (u.chan m).kp.taken = false ∧ (u.chan m).kp.ingress = none) after _ _ (fun u c hu => ?_)
    (State.usedHost_used _ m)
  by_cases hc : m = c
  · exact hc ▸ u.usedHost_used m
  · rwa [State.usedHost, State.onKp_eq, State.setChan_chan_ne _ _ hc]

/-! ### The multiframe boundary -/

/-- The clock of a channel but for the count of a leaf, which follows the downstream. -/
def Clock.own (x : Clock) : Clock := if x.mode = .leaf then { x with mfc := 0 } else x

theorem Channel.adoptCount_own {ch : Channel} (h : ch.pm.mode = .leaf) (m : BitVec 32) : (ch.adoptCount m).clock.own = ch.clock.own := by
  have hpm : (ch.adoptCount m).pm = ch.pm := by
    unfold Channel.adoptCount
    split
    · rfl
    · dsimp only
      split <;> rfl
  have hframe : (ch.adoptCount m).tf.frame = ch.tf.frame := by
    unfold Channel.adoptCount
    split
    · rfl
    · dsimp only
      split <;> rfl
  simp [Clock.own, Channel.clock, hpm, hframe, h]

theorem Clock.own_frame (x : Clock) : x.own.frame = x.frame := by
  unfold Clock.own
  split <;> rfl

theorem Clock.own_mode (x : Clock) : x.own.mode = x.mode := by
  unfold Clock.own
  split <;> rfl

theorem Clock.own_mfc {x : Clock} (h : x.mode ≠ .leaf) : x.own.mfc = x.mfc := by
  rw [Clock.own, if_neg h]

/-- A clock that agrees with the next multiframe's but for the count of a leaf. -/
theorem Clock.of_own_up {x y : Clock} (h : y.own = x.up.own) : y.frame = 0 ∧ (x.mode ≠ .leaf → y.mfc = x.mfc + 1) := by
  have hmode : y.mode = x.mode := by rw [← y.own_mode, h, Clock.own_mode]; rfl
  refine ⟨?_, fun hx => ?_⟩
  · rw [← y.own_frame, h, Clock.own_frame]
    rfl
  · rw [← y.own_mfc (by rwa [hmode]), h, Clock.own_mfc (by exact hx)]
    rfl

theorem P2mp.enter_mode (x : P2mp) (m : BitVec 32) : (x.enter m).mode = x.mode := by
  unfold P2mp.enter
  split <;> rfl

theorem State.onPm_clocks (s : State) (c : Nat) {g : P2mp → P2mp} (hg : ∀ x, (g x).mode = x.mode) :
    clocks (s.onPm c g).channels = clocks s.channels :=
  State.setChan_clocks rfl rfl (hg _)

/-- A leaf's transmit multiframe may take the downstream count; the frame number, the mode and every other count stay. -/
theorem State.leafBoundary_own (s : State) (c m : Nat) :
    (clocks (s.leafBoundary c).channels m).own = (clocks s.channels m).own := by
  unfold State.leafBoundary
  dsimp only
  split
  · rfl
  · next hleaf =>
    rw [State.onPm_clocks, clocks_ite, State.raise_channels, State.onPm_clocks, ite_self, State.onPm_clocks, State.onPm_clocks,
      State.onChan_eq, State.setChan_clock]
    · split
      · next hm =>
        subst hm
        split
        · exact Channel.adoptCount_own (Classical.not_not.1 hleaf) _
        · rfl
      · rfl
    · intro x
      split
      · split <;> rfl
      · rfl
    · exact fun x => x.enter_mode _
    · exact fun _ => rfl
    · exact fun _ => rfl

theorem State.channelBoundary_own (s : State) (merits : List (BitVec 8)) (c m : Nat) :
    (clocks (s.channelBoundary merits c).channels m).own = (clocks s.channels m).own := by
  have hrest : clocks (s.channelBoundary merits c).channels = clocks (s.leafBoundary c).channels := by
    unfold State.channelBoundary
    dsimp only
    split <;> simp [State.inPair_clocks]
  rw [hrest, State.leafBoundary_own]

/-- The next multiframe begins in each channel of a boundary. -/
theorem State.multiframe_own (s : State) {cs : List Nat} (hcs : cs.Nodup) (merits : List (BitVec 8)) {m : Nat} (hm : m ∈ cs) :
    (clocks (s.multiframe cs merits).channels m).own = (clocks s.channels m).up.own := by
  have hmark (s : State) (c : Nat) : clocks (s.markStart c).channels = clocks s.channels := State.setChan_clocks rfl rfl rfl
  unfold State.multiframe
  dsimp only
  rw [foldl_clocks hmark, foldl_eq_of (fun s => (clocks s.channels m).own) _ _ _ fun s p => s.channelBoundary_own _ _ m,
    foldl_clocks State.bankSettle_clocks]
  have hrestated : clocks (cs.foldl (fun s c => s.restate c true false) (cs.foldl State.countUp (cs.foldl State.payOwed s))).channels m =
      (clocks s.channels m).up := by
    rw [foldl_clocks fun s c => s.restate_clocks c true false, foldl_clock State.countUp_clock hcs, if_pos hm,
      foldl_clocks State.payOwed_clocks]
  split
  · rw [State.onGroup_eq, State.setGroup_channels, hrestated]
  · rw [hrestated]

/-! ### Keys that roll and wear out (07 R155, R156; 08 R177) -/

theorem State.setCipherOf_cipherOf (s : State) (i : Nat) (x : Cipher) : (s.setCipherOf i x).cipherOf i = x := by
  rw [State.cipherOf, State.setCipherOf, State.onChan_eq, State.setChan_chan_same]
  exact Sparse.get_insert_same ..

/-- A context whose key has rolled, before its commands complete. -/
theorem State.rollKey_cipherOf (s : State) (i : Nat) (m : BitVec 32) : (s.rollKey i m).cipherOf i = (s.cipherOf i).roll :=
  (foldl_eq_of (·.cipherOf i) _ _ _ fun s id => by simp [State.cipherOf]).trans (s.setCipherOf_cipherOf i _)

theorem State.rollKey_batch (s : State) (i : Nat) (m : BitVec 32) :
    ∃ e ∈ (s.rollKey i m).batch, e.source = i / 96 ∧ e.code = 0x1252 := by
  have hfinished : (s.rollKey i m).batch = _ := foldl_eq_of (·.batch) _ _ _ fun s id => s.finishId_batch ..
  rw [hfinished, State.raise_batch]
  exact ⟨_, List.mem_append_right _ (List.mem_singleton_self _), rfl, rfl⟩

theorem State.wearOut_cipherOf (s : State) (i : Nat) : (s.wearOut i).cipherOf i =
    { s.cipherOf i with
      current := (s.cipherOf i).current.filter fun k => !k.worn
      next := (s.cipherOf i).next.filter fun k => !k.worn
      retiring := (s.cipherOf i).retiring.filter fun k => !k.worn } := by
  unfold State.wearOut
  dsimp only
  exact (foldl_eq_of (·.cipherOf i) _ _ _ fun u k => by simp [State.cipherOf]).trans (s.setCipherOf_cipherOf i _)

/-- Each worn key is reported. -/
theorem State.wearOut_batch {s : State} {i : Nat} {k : LineKey} (hcurrent : (s.cipherOf i).current = some k) (hworn : k.worn = true) :
    ∃ e ∈ (s.wearOut i).batch, e.source = i / 96 ∧ e.code = 0x1251 := by
  have hmem : k ∈ (((s.cipherOf i).current.toList ++ (s.cipherOf i).next.toList ++ (s.cipherOf i).retiring).filter LineKey.worn) :=
    List.mem_filter.2 ⟨by simp [hcurrent], hworn⟩
  unfold State.wearOut
  dsimp only
  obtain ⟨before, after, hsplit⟩ := List.append_of_mem hmem
  rw [hsplit, List.foldl_append, List.foldl_cons]
  refine foldl_inv_of (fun u => ∃ e ∈ u.batch, e.source = i / 96 ∧ e.code = 0x1251) after _ _ (fun u q hu => ?_) ?_
  · obtain ⟨e, he, hevent⟩ := hu
    exact ⟨e, List.mem_append_left _ he, hevent⟩
  · exact ⟨_, List.mem_append_right _ (List.mem_singleton_self _), rfl, rfl⟩

/-! ### The rows -/

theorem execTxFramePeriod_sends {s : State} {c : Fin 32} (hpower : s.boot.powered = true) (hleads : s.leads c = true)
    (hframe : ∀ m ∈ s.inStep c, (s.chan m).tf.frame ≤ 255) (lv : Levels) (fills : List Nat) :
    ∃ t, exec (.txFramePeriod c lv fills) s = .next t ∧ ∀ m ∈ s.inStep c,
      (t.chan m).tf.frame = (s.chan m).tf.frame + 1 ∧ (t.chan m).tf.mfc = (s.chan m).tf.mfc ∧
      (t.chan m).kp.taken = false ∧ (t.chan m).kp.ingress = none := by
  refine ⟨_, occurs_true _ (by simpa [hpower, hleads] using hframe), fun m hm => ?_⟩
  obtain ⟨hsent, hmfc, -⟩ := Clock.mk.inj (s.framePeriod_clocks (s.inStep_nodup c) lv fills hm)
  rw [State.remark_chan_tf, State.remark_chan_kp]
  exact ⟨hsent, hmfc, foldl_usedHost_used hm _⟩

theorem execTxMultiframeBoundary_counts {s : State} {c : Fin 32} (hpower : s.boot.powered = true) (hleads : s.leads c = true)
    (hframe : ∀ m ∈ s.inStep c, (s.chan m).tf.frame = 256) (x : BoundaryIn) :
    ∃ t, exec (.txMultiframeBoundary c x) s = .next t ∧ ∀ m ∈ s.inStep c,
      (t.chan m).tf.frame = 0 ∧ ((s.chan m).pm.mode ≠ .leaf → (t.chan m).tf.mfc = (s.chan m).tf.mfc + 1) := by
  refine ⟨_, occurs_true _ (by simpa [hpower, hleads] using hframe), fun m hm => ?_⟩
  have hclock := (s.at x.ns).multiframe_own (s.inStep_nodup c) x.merits hm
  rw [State.at_channels] at hclock
  obtain ⟨hstart, hcount⟩ := Clock.of_own_up hclock
  rw [State.remark_chan_tf]
  exact ⟨hstart, hcount⟩

theorem execAutoRoll_rolls {s : State} {i : Fin 3072} (hpower : s.boot.powered = true)
    (hsending : (s.chan (i.val / 96)).tf.sending = true) (hframe : (s.chan (i.val / 96)).tf.frame = 0)
    (hauto : (s.cipherOf i).autoRoll = true) (hwarn : (s.cipherOf i).warnAt ≤ (s.cipherOf i).curFrames)
    (hready : (s.cipherOf i).rollable s.now = true) :
    ∃ t, exec (.autoRoll i) s = .next t ∧ (t.cipherOf i).current = (s.cipherOf i).next ∧ (t.cipherOf i).next = none ∧
      (t.cipherOf i).curFrames = 0 ∧ (t.cipherOf i).rolls = (s.cipherOf i).rolls + 1 ∧
      ∃ e ∈ t.batch, e.source = i.val / 96 ∧ e.code = 0x1252 := by
  refine ⟨_, occurs_true _ (by simp [hpower, hsending, hframe, hauto, hwarn, hready]), ?_⟩
  obtain ⟨e, he, hevent⟩ := s.rollKey_batch i (s.countOf i)
  rw [State.remark_cipherOf, State.rollKey_cipherOf]
  exact ⟨rfl, rfl, rfl, rfl, e, State.remark_batch he, hevent⟩

theorem execKeyCountWrapErase_erases {s : State} {i : Fin 3072} {k : LineKey} (hpower : s.boot.powered = true)
    (hcurrent : (s.cipherOf i).current = some k) (hworn : k.worn = true) :
    ∃ t, exec (.keyCountWrapErase i) s = .next t ∧ (t.cipherOf i).current = none ∧
      (∀ q ∈ (t.cipherOf i).retiring, q.worn = false) ∧ ∃ e ∈ t.batch, e.source = i.val / 96 ∧ e.code = 0x1251 := by
  refine ⟨_, occurs_true _ (by simp [hpower, hcurrent, hworn]), ?_⟩
  obtain ⟨e, he, hevent⟩ := State.wearOut_batch hcurrent hworn
  rw [State.remark_cipherOf, State.wearOut_cipherOf]
  refine ⟨by simp [hcurrent, hworn], fun q hq => ?_, e, State.remark_batch he, hevent⟩
  simpa using (List.mem_filter.1 hq).2

/-- Settles O50, each clause by the lemma of its row. -/
theorem transmitRowsComplete : Obligations.TransmitRowsComplete := by
  unfold Obligations.TransmitRowsComplete
  intro s hpower
  refine ⟨fun c lv fills hleads hframe => ?_, fun c x hleads hframe => ?_, fun i hsending hframe hauto hwarn hready => ?_,
    fun i k hcurrent hworn => ?_⟩
  · exact execTxFramePeriod_sends hpower hleads hframe lv fills
  · exact execTxMultiframeBoundary_counts hpower hleads hframe x
  · exact execAutoRoll_rolls hpower hsending hframe hauto hwarn hready
  · exact execKeyCountWrapErase_erases hpower hcurrent hworn

end Sys2Proof.Machine
end

section
/-! The line cipher and the job engine decrypt what they encrypted (07 R148, R149, R161, R166). Counter mode adds a key stream to
the text, and adding it twice takes it away, since every block of the stream is as long as a block of text. -/

namespace Sys2Proof.Crypto

/-! ### The length of an AES block -/

theorem xorList_length (a b : List Nat) : (xorList a b).length = min a.length b.length := List.length_zipWith

theorem flatten_length_of_forall {n : Nat} {ws : List (List Nat)} (h : ∀ w ∈ ws, w.length = n) :
    ws.flatten.length = ws.length * n := by
  have hmap : ws.map List.length = List.replicate ws.length n := by simpa [List.eq_replicate_iff] using h
  rw [List.length_flatten, hmap, List.sum_replicate_nat]

theorem beBytesN_length (n v : Nat) : (beBytesN n v).length = n := by
  have hle (n v : Nat) : (leBytesN n v).length = n := by
    induction n generalizing v with
    | zero => rfl
    | succ n ih => rw [leBytesN, List.length_cons, ih]
  rw [beBytesN, List.length_reverse, hle]

theorem nextWord_length (i : Nat) {prev back : List Nat} (hprev : prev.length = 4) (hback : back.length = 4) :
    (nextWord i prev back).length = 4 := by
  unfold nextWord
  dsimp only
  rw [xorList_length, hback]
  split
  · have hrotated : ((prev.rotateLeft 1).map sbox).length = 4 := by simp [List.rotateLeft, hprev]
    split
    · next h => exact congrArg (min 4) (h ▸ hrotated)
    · next h => cases h ▸ hrotated
  · split <;> simp [hprev]

/-- The schedule grows by a word at a time, each of four bytes. -/
theorem growKey_words {n : Nat} {ws : List (List Nat)} (hlen : 8 ≤ ws.length) (hws : ∀ w ∈ ws, w.length = 4) :
    (growKey n ws).length = ws.length + n ∧ ∀ w ∈ growKey n ws, w.length = 4 := by
  induction n generalizing ws with
  | zero => exact ⟨rfl, hws⟩
  | succ n ih =>
    have hword {i : Nat} (hi : i < 8) : (ws.getD i []).length = 4 := by
      rw [List.getD_eq_getElem?_getD, List.getElem?_eq_getElem (Nat.lt_of_lt_of_le hi hlen), Option.getD_some]
      exact hws _ (List.getElem_mem _)
    have hnext := nextWord_length ws.length (hword (i := 0) (by decide)) (hword (i := 7) (by decide))
    obtain ⟨hgrown, hwords⟩ := ih (ws := _ :: ws) (Nat.le_succ_of_le hlen) (List.forall_mem_cons.2 ⟨hnext, hws⟩)
    exact ⟨by rw [growKey, hgrown, List.length_cons]; omega, hwords⟩

theorem roundKeys_blocks {key : List Nat} (hkey : key.length = 32) :
    (roundKeys key).length = 15 ∧ ∀ k ∈ roundKeys key, k.length = 16 := by
  have hfour : ∀ w ∈ ((List.range 8).map fun i => (key.drop (4 * i)).take 4).reverse, w.length = 4 := by
    intro w hw
    obtain ⟨i, hi, rfl⟩ := List.mem_map.1 (List.mem_reverse.1 hw)
    have := List.mem_range.1 hi
    rw [List.length_take, List.length_drop, hkey]
    omega
  obtain ⟨hlen, hwords⟩ := growKey_words (n := 52) (by simp) hfour
  unfold roundKeys
  dsimp only
  refine ⟨by simp, fun k hk => ?_⟩
  obtain ⟨r, hr, rfl⟩ := List.mem_map.1 hk
  rw [flatten_length_of_forall (n := 4)]
  · have hr := List.mem_range.1 hr
    rw [List.length_take, List.length_drop, List.length_reverse, hlen, List.length_reverse, List.length_map, List.length_range]
    omega
  · exact fun w hw => hwords w (List.mem_reverse.1 (List.mem_of_mem_drop (List.mem_of_mem_take hw)))

theorem encRounds_length {ks : List (List Nat)} {s : List Nat} (hks : ∀ k ∈ ks, k.length = 16) (hs : s.length = 16) :
    (encRounds ks s).length = 16 := by
  fun_induction encRounds ks s with
  | case1 s => exact hs
  | case2 k s => simp [xorList_length, shiftRows, hks]
  | case3 k ks s _ ih =>
    obtain ⟨hk, hks⟩ := List.forall_mem_cons.1 hks
    exact ih hks (by simp [xorList_length, mixColumns, mixWith, hk])

theorem aesEncrypt_length {key block : List Nat} (hkey : key.length = 32) (hblock : block.length = 16) :
    (aesEncrypt key block).length = 16 := by
  obtain ⟨hlen, hkeys⟩ := roundKeys_blocks hkey
  unfold aesEncrypt
  split
  · next h => simp [h] at hlen
  · next k ks h =>
    rw [h] at hkeys
    obtain ⟨hk, hks⟩ := List.forall_mem_cons.1 hkeys
    exact encRounds_length hks (by rw [xorList_length, hblock, hk]; rfl)

/-! ### Counter mode as a key stream -/

/-- Adding a string at least as long twice takes it away. -/
theorem xorList_xorList {text stream : List Nat} (h : text.length ≤ stream.length) :
    xorList (xorList text stream) stream = text := by
  refine List.ext_getElem (by simp only [xorList_length]; omega) fun i _ _ => ?_
  simp only [xorList, List.getElem_zipWith, Nat.xor_assoc, Nat.xor_self, Nat.xor_zero]

/-- Block i of the key stream from a first counter block. -/
def streamBlock (key first : List Nat) (i : Nat) : List Nat :=
  aesEncrypt key (first.take 12 ++ beBytesN 4 ((beVal (first.drop 12) + i) % 2 ^ 32))

theorem streamBlock_length {key first : List Nat} (hkey : key.length = 32) (hfirst : 12 ≤ first.length) (i : Nat) :
    (streamBlock key first i).length = 16 :=
  aesEncrypt_length hkey (by simp [beBytesN_length, hfirst])

/-- Adding a string of whole blocks adds each to its block of the text. -/
theorem flatMap_xorList {block : Nat → List Nat} (hblock : ∀ i, (block i).length = 16) (n : Nat) (text : List Nat) :
    ((List.range n).flatMap fun i => xorList ((text.drop (16 * i)).take 16) (block i)) =
      xorList text ((List.range n).flatMap block) := by
  induction n generalizing text block with
  | zero => exact (List.zipWith_nil_right ..).symm
  | succ n ih =>
    have hrest : ((List.range n).map Nat.succ).flatMap (fun i => xorList ((text.drop (16 * i)).take 16) (block i)) =
        xorList (text.drop 16) (((List.range n).map Nat.succ).flatMap block) := by
      rw [List.flatMap_map, List.flatMap_map, ← ih fun i => hblock i.succ]
      simp only [List.drop_drop, Nat.mul_succ, Nat.add_comm]
    rw [List.range_succ_eq_map, List.flatMap_cons, List.flatMap_cons, hrest, ← List.take_append_drop 16 (xorList text _)]
    simp only [xorList, List.take_zipWith, List.drop_zipWith, List.take_left' (hblock 0), List.drop_left' (hblock 0),
      Nat.mul_zero, List.drop_zero]

theorem ctr_eq_xorList {key first : List Nat} (hkey : key.length = 32) (hfirst : 12 ≤ first.length) (text : List Nat) :
    ctr key first text = xorList text ((List.range ((text.length + 15) / 16)).flatMap (streamBlock key first)) := by
  rw [← flatMap_xorList (streamBlock_length hkey hfirst), List.flatMap_def]
  refine congrArg List.flatten (List.ext_getElem (by simp [blocks]) fun i _ _ => ?_)
  simp [blocks, streamBlock]

/-- Counter mode is its own inverse, under any key and first block of their lengths. -/
theorem ctr_ctr {key first : List Nat} (hkey : key.length = 32) (hfirst : 12 ≤ first.length) (text : List Nat) :
    ctr key first (ctr key first text) = text := by
  have hlong : text.length ≤ ((List.range ((text.length + 15) / 16)).flatMap (streamBlock key first)).length := by
    rw [List.flatMap_def, flatten_length_of_forall (n := 16) (by simp [streamBlock_length hkey hfirst]), List.length_map,
      List.length_range]
    omega
  have hlen : (ctr key first text).length = text.length := by
    rw [ctr_eq_xorList hkey hfirst, xorList_length, Nat.min_eq_left hlong]
  rw [ctr_eq_xorList hkey hfirst (ctr key first text), hlen, ctr_eq_xorList hkey hfirst text, xorList_xorList hlong]

/-! ### Galois counter mode -/

theorem gcmDecrypt_gcmEncrypt {key iv : List Nat} (hkey : key.length = 32) (hiv : iv.length = 12) (aad text : List Nat) :
    gcmDecrypt key iv aad (gcmEncrypt key iv aad text).1 (gcmEncrypt key iv aad text).2 = some text :=
  (if_pos rfl).trans (congrArg some (ctr_ctr hkey (by simp [hiv]) text))

theorem gcmDecrypt_of_tag_ne {key iv aad text tag : List Nat} (h : tag ≠ (gcmEncrypt key iv aad text).2) :
    gcmDecrypt key iv aad (gcmEncrypt key iv aad text).1 tag = none :=
  if_neg h.symm

/-- Settles O21: the tag decides, and the ciphertext is the text in counter mode. -/
theorem decryptionUndoesEncryption : Obligations.DecryptionUndoesEncryption := by
  unfold Obligations.DecryptionUndoesEncryption
  refine ⟨fun key iv aad text hkey hiv => ⟨?_, fun tag htag => ?_⟩, fun key first text hkey hfirst => ?_⟩
  · exact gcmDecrypt_gcmEncrypt hkey hiv aad text
  · exact gcmDecrypt_of_tag_ne htag
  · exact ctr_ctr hkey (hfirst ▸ by decide) text

end Sys2Proof.Crypto
end

section
/-! Line cipher contexts and their keys: the commands on a context, the use, exhaustion and erasure of its keys, and the mask
generators (07 R143 to R147, R150 to R160, R171). -/

namespace Sys2Proof.Machine

/-! ### A context and the others -/

theorem State.setCipherOf_cipherOf_ne (s : State) {i j : Nat} (x : Cipher) (h : j ≠ i) :
    (s.setCipherOf i x).cipherOf j = s.cipherOf j := by
  by_cases hc : j / 96 = i / 96
  · have hl : j % 96 ≠ i % 96 := by omega
    rw [State.cipherOf, State.setCipherOf, State.onChan_eq, hc, State.setChan_chan_same, State.cipherOf, hc]
    exact Sparse.get_insert_ne _ _ _ hl
  · rw [State.cipherOf, State.setCipherOf, State.onChan_eq, State.setChan_chan_ne _ _ hc]
    rfl

@[simp] theorem State.finish_cipherOf (s : State) (f : Flight) (st : Nat) (r0 r1 r2 : Option Nat) (i : Nat) :
    (s.finish f st r0 r1 r2).cipherOf i = s.cipherOf i := by
  rw [State.cipherOf, State.finish_chan, State.cipherOf]

@[simp] theorem State.raise_cipherOf (s : State) (source code sev : Nat) (d0 : Word) (d1 : BitVec 32) (cause : Option Nat)
    (i : Nat) : (s.raise source code sev d0 d1 cause).cipherOf i = s.cipherOf i := rfl

/-- A command row acts on the context that its started command names. -/
theorem withCipher_started {s : State} {id op i : Nat} {f : Flight} (h : s.Started id op f) (hi : s.cipherIndex f = some i)
    (k : Flight → Nat → Cipher → State) : withCipher s id op k = .next (k f i (s.cipherOf i)).remark := by
  rw [withCipher, withCmd_started h]
  simp only [hi]

/-! ### Set-up (R147, R159) -/

theorem execCipherSetup_sets {s : State} {id i : Nat} {f : Flight} {ws : List Word} (h : s.Started id 0x1200 f)
    (hi : s.cipherIndex f = some i) (hlow : (wd ws 0).bits 15 14 = 0) (hhigh : (wd ws 0).bits 63 48 = 0)
    (hrest : ∀ k, k < 7 → wd ws (k + 1) = 0) (hindex : (wd ws 0).bits 11 0 = i)
    (hpoint : (wd ws 0).bits 47 32 < (wd ws 0).bits 31 16)
    (hend : (wd ws 0).bit 12 = (s.cipherOf i).endId ∨ (s.cipherOf i).keyed = false) :
    s.Does (.cipherSetup id ws) ((s.clash i { s.cipherOf i with
      endId := (wd ws 0).bit 12, autoRoll := (wd ws 0).bit 13
      useLimit := (wd ws 0).bits 31 16, warnDist := (wd ws 0).bits 47 32
      warned := (s.cipherOf i).warned &&
        decide (((wd ws 0).bits 31 16 - (wd ws 0).bits 47 32) * 65536 ≤ (s.cipherOf i).curFrames) }).finish f 0) := by
  have hlimit : (wd ws 0).bits 31 16 ≠ 0 := Nat.ne_of_gt (Nat.zero_lt_of_lt hpoint)
  have hclear : ((List.range 7).any fun k => wd ws (k + 1) ≠ 0) = false := by simpa using hrest
  have hsame : ((wd ws 0).bit 12 != (s.cipherOf i).endId && (s.cipherOf i).keyed) = false := by
    rcases hend with hend | hend <;> simp [hend]
  refine (show execCipherSetup id ws s = _ from withCipher_started h hi _).trans ?_
  simp only [hlow, hhigh, hclear, hindex, hlimit, hsame, Nat.not_le.2 hpoint, ne_eq, not_true, decide_false, Bool.or_self,
    Bool.false_eq_true, if_false]

/-! ### Keys enter, roll and are erased (R152, R155, R171) -/

theorem Cipher.load_first {x : Cipher} (h : x.current = none) (k : LineKey) :
    x.load k = { x with current := some k, curFrames := 0, warned := false, lastEpoch := k.epoch } := by
  simp [Cipher.load, h]

theorem Cipher.load_next {x : Cipher} (h : x.current ≠ none) (k : LineKey) :
    x.load k = { x with next := some k, lastEpoch := k.epoch } := by
  simp [Cipher.load, h]

theorem Cipher.load_lastEpoch (x : Cipher) (k : LineKey) : (x.load k).lastEpoch = k.epoch := by
  unfold Cipher.load
  split <;> rfl

theorem execKeyLoad_loads {s : State} {id i : Nat} {f : Flight} {bs : List Byte} {key : BitVec 256}
    (h : s.Started id 0x1202 f) (hi : s.cipherIndex f = some i) (hline : (byteWord bs 0).bit 12 = false)
    (hindex : (byteWord bs 0).bits 11 0 = i) (hset : (s.cipherOf i).useLimit ≠ 0) (hclear : blobReservedClear bs = true)
    (hkey : s.sec.unwrap bs = some key) (hlast : (s.cipherOf i).lastEpoch ≠ 0xFFFFFF)
    (hepoch : if (s.cipherOf i).lastEpoch = 0 then 1 ≤ (byteWord bs 0).bits 39 16
      else (byteWord bs 0).bits 39 16 = (s.cipherOf i).lastEpoch + 1)
    (hroom : (s.cipherOf i).slotsUsed < 2) :
    ∃ t k, exec (.keyLoad id bs) s = .next t ∧ k = { key := key, epoch := (byteWord bs 0).bits 39 16 } ∧
      (t.cipherOf i).lastEpoch = k.epoch ∧ t.flight? f.id = none ∧
      ((s.cipherOf i).current = none → (t.cipherOf i).current = some k ∧ (t.cipherOf i).next = (s.cipherOf i).next) ∧
      ((s.cipherOf i).current ≠ none → (t.cipherOf i).current = (s.cipherOf i).current ∧ (t.cipherOf i).next = some k) ∧
      (∀ j, j ≠ i → t.cipherOf j = s.cipherOf j) := by
  have hstale : ¬ (if (s.cipherOf i).lastEpoch = 0 then (byteWord bs 0).bits 39 16 < 1
      else (byteWord bs 0).bits 39 16 ≠ (s.cipherOf i).lastEpoch + 1) := by
    split at hepoch
    · next hnone => rwa [if_pos hnone, Nat.not_lt]
    · next hsome => rwa [if_neg hsome, ne_eq, Classical.not_not]
  refine ⟨_, _, show execKeyLoad id bs s = _ from withCipher_started h hi _, rfl, ?_⟩
  simp only [hline, hindex, hset, hclear, hkey, hlast, hstale, Nat.not_le.2 hroom, ne_eq, not_true, decide_false, Bool.not_true,
    Bool.or_self, Bool.false_eq_true, if_false, State.remark_cipherOf, State.finish_cipherOf, State.setCipherOf_cipherOf,
    State.remark_flight?, State.finish_flight?_same, Cipher.load_lastEpoch]
  refine ⟨trivial, trivial, fun hempty => ?_, fun hcurrent => ?_, fun j hj => s.setCipherOf_cipherOf_ne _ hj⟩
  · rw [Cipher.load_first hempty]
    exact ⟨rfl, rfl⟩
  · rw [Cipher.load_next hcurrent]
    exact ⟨rfl, rfl⟩

theorem execKeyRoll_waits {s : State} {id i : Nat} {f : Flight} (h : s.Started id 0x1203 f) (hi : s.cipherIndex f = some i)
    (hready : (s.cipherOf i).rollable s.now = true) :
    s.Does (.keyRoll id) ((s.setCipherOf i { s.cipherOf i with rollCmds := (s.cipherOf i).rollCmds ++ [id] }).run f) := by
  have hnext : (s.cipherOf i).next.isNone = false := by
    cases hnone : (s.cipherOf i).next with
    | none => simp [Cipher.rollable, hnone] at hready
    | some k => rfl
  refine (show execKeyRoll id s = _ from withCipher_started h hi _).trans ?_
  simp only [hnext, hready, Bool.not_true, Bool.false_eq_true, if_false]

theorem execKeyErase_erases {s : State} {id i : Nat} {f : Flight} (h : s.Started id 0x1204 f) (hi : s.cipherIndex f = some i) :
    ∃ t, exec (.keyErase id) s = .next t ∧ (t.cipherOf i).next = none ∧ t.flight? f.id = none ∧
      (f.desc.p0.bit 12 = true → (t.cipherOf i).keyed = false) ∧
      (f.desc.p0.bit 12 = false → (t.cipherOf i).current = (s.cipherOf i).current ∧
        (t.cipherOf i).retiring = (s.cipherOf i).retiring) ∧ (∀ j, j ≠ i → t.cipherOf j = s.cipherOf j) := by
  refine ⟨_, show execKeyErase id s = _ from withCipher_started h hi _, ?_⟩
  simp only [State.remark_cipherOf, State.finish_cipherOf, State.setCipherOf_cipherOf, State.remark_flight?,
    State.finish_flight?_same]
  refine ⟨?_, trivial, fun hall => ?_, fun hnext => ?_, fun j hj => s.setCipherOf_cipherOf_ne _ hj⟩
  · split <;> rfl
  · rw [if_pos hall]
    rfl
  · rw [hnext]
    exact ⟨rfl, rfl⟩

/-! ### Counters -/

/-- Two halves of a word read back. -/
theorem halves_bits (a b : BitVec 32) :
    (mkWord [(0, 32, a.toNat), (32, 32, b.toNat)]).bits 31 0 = a.toNat ∧
    (mkWord [(0, 32, a.toNat), (32, 32, b.toNat)]).bits 63 32 = b.toNat := by
  have ha := a.isLt
  have hb := b.isLt
  unfold Word.bits
  rw [mkWord_two_toNat (by decide)]
  omega

theorem lowHalf_bits (a : BitVec 32) : (mkWord [(0, 32, a.toNat)]).bits 31 0 = a.toNat := by
  simpa [mkWord, Word.bits] using a.isLt

theorem execCipherCounters_answers {s : State} {id i : Nat} {f : Flight} (h : s.Started id 0x1205 f)
    (hi : s.cipherIndex f = some i) :
    ∃ ws, s.Does (.cipherCounters id) (s.answer f ws) ∧ ws.length = 4 ∧
      (wd ws 0).bits 31 0 = (s.cipherOf i).authFail.toNat ∧ (wd ws 0).bits 63 32 = (s.cipherOf i).authFailErrored.toNat ∧
      (wd ws 1).bits 31 0 = (s.cipherOf i).noKeyTx.toNat ∧ (wd ws 1).bits 63 32 = (s.cipherOf i).noKeyRx.toNat ∧
      (wd ws 2).bits 31 0 = (s.cipherOf i).rolls.toNat :=
  ⟨_, show execCipherCounters id s = _ from withCipher_started h hi _, rfl, (halves_bits ..).1, (halves_bits ..).2,
    (halves_bits ..).1, (halves_bits ..).2, lowHalf_bits _⟩

/-! ### Use, exhaustion and erasure (R157, R159, R160) -/

theorem execKeyUsageWarning_warns {s : State} {i : Fin 3072} {k : LineKey} (hpower : s.boot.powered = true)
    (hcurrent : (s.cipherOf i).current = some k) (hpoint : (s.cipherOf i).warnAt ≤ (s.cipherOf i).curFrames)
    (hnew : (s.cipherOf i).warned = false) :
    ∃ t, exec (.keyUsageWarning i) s = .next t ∧ (t.cipherOf i) = { s.cipherOf i with warned := true } ∧
      ∃ e ∈ t.batch, e.source = i.val / 96 ∧ e.code = 0x1250 ∧ e.severity = 2 := by
  refine ⟨_, occursWith_some (a := k) _ (by simp [hpower, hpoint, hnew, hcurrent]), ?_,
    _, State.remark_batch (List.mem_append_right _ (List.mem_singleton_self _)), rfl, rfl, rfl⟩
  rw [State.remark_cipherOf, State.raise_cipherOf, State.setCipherOf_cipherOf]

theorem execKeyExhausted_retires {s : State} {i : Fin 3072} {k : LineKey} (hpower : s.boot.powered = true)
    (hcurrent : (s.cipherOf i).current = some k) (hset : 0 < (s.cipherOf i).useLimit)
    (hlimit : (s.cipherOf i).useLimit * 65536 ≤ (s.cipherOf i).curFrames) :
    ∃ t, exec (.keyExhausted i) s = .next t ∧ (t.cipherOf i).current = none ∧ k ∈ (t.cipherOf i).retiring ∧
      (t.cipherOf i).next = (s.cipherOf i).next ∧
      ∃ e ∈ t.batch, e.source = i.val / 96 ∧ e.code = 0x1251 ∧ e.severity = 4 := by
  have hretired : (s.exhaust i k).remark.cipherOf i = (s.cipherOf i).retire := by
    rw [State.remark_cipherOf, State.exhaust, State.raise_cipherOf, State.setCipherOf_cipherOf]
  refine ⟨_, occursWith_some (a := k) _ (by simp [hpower, hset, hlimit, hcurrent]), ?_⟩
  rw [hretired]
  exact ⟨rfl, by simp [Cipher.retire, hcurrent], rfl,
    _, State.remark_batch (List.mem_append_right _ (List.mem_singleton_self _)), rfl, rfl, rfl⟩

theorem execOldKeyErase_erases {s : State} (i : Fin 3072) (hpower : s.boot.powered = true) :
    ∃ t, exec (.oldKeyErase i) s = .next t ∧ (t.cipherOf i).current = (s.cipherOf i).current ∧
      (t.cipherOf i).next = (s.cipherOf i).next ∧
      (∀ k, k ∈ (t.cipherOf i).retiring ↔ k ∈ (s.cipherOf i).retiring ∧ (s.cipherOf i).oldKeyDone k = false) := by
  refine ⟨_, occurs_true _ hpower, ?_⟩
  rw [State.remark_cipherOf, State.setCipherOf_cipherOf]
  exact ⟨rfl, rfl, fun k => by simp [List.mem_filter]⟩

/-! ### Mask generators (R143, R144) -/

theorem State.setMaskGen_maskGen (s : State) (k : Nat) (x : MaskGen) : (s.setMaskGen k x).maskGen k = x := by
  unfold State.maskGen State.setMaskGen
  split
  · rw [State.onChan_eq, State.setChan_chan_same]
  · rfl

@[simp] theorem State.remark_maskGen (s : State) (k : Nat) : s.remark.maskGen k = s.maskGen k := by
  simp [State.maskGen]

/-- The state after the reseed of generator k, before the report of a source that fails. -/
def State.maskReseeded (s : State) (k : Nat) : State :=
  ((s.at (s.maskGen k).due).setMaskGen k
    ((s.maskGen k).reseed s.sec.failing (s.at (s.maskGen k).due).now s.free)).draw

theorem State.maskReseeded_now (s : State) (k : Nat) : (s.maskReseeded k).now = max s.now (s.maskGen k).due := by
  unfold State.maskReseeded State.setMaskGen
  split <;> rfl

theorem State.maskReseeded_maskGen (s : State) (k : Nat) :
    (s.maskReseeded k).maskGen k = (s.maskGen k).reseed s.sec.failing (s.maskReseeded k).now s.free := by
  rw [State.maskReseeded_now]
  exact State.setMaskGen_maskGen ..

/-- A generator reseeds when it is due, and one whose source begins to fail is reported. -/
theorem execMaskReseed_reseeds {s : State} (k : Fin 33) (hpower : s.boot.powered = true) (htested : s.sec.tested = true) :
    ∃ t, exec (.maskReseed k) s = .next t ∧ (s.maskGen k).due ≤ t.now ∧
      t.maskGen k = (s.maskGen k).reseed s.sec.failing t.now s.free ∧
      (s.sec.failing = true → (s.maskGen k).failing = false → ∃ e ∈ t.batch, e.source = k.val ∧ e.code = 0x1255) := by
  refine ⟨(if s.sec.failing && !(s.maskGen k).failing then (s.maskReseeded k).raise k 0x1255 2 (BitVec.ofNat 64 k)
    else s.maskReseeded k).remark, occurs_true _ (by simp [hpower, htested]), ?_⟩
  have hdue : (s.maskGen k).due ≤ (s.maskReseeded k).now := s.maskReseeded_now k ▸ Nat.le_max_right ..
  rw [State.remark_now, State.remark_maskGen]
  split
  · exact ⟨hdue, s.maskReseeded_maskGen k,
      fun _ _ => ⟨_, State.remark_batch (List.mem_append_right _ (List.mem_singleton_self _)), rfl, rfl⟩⟩
  · next hquiet =>
    exact ⟨hdue, s.maskReseeded_maskGen k, fun hfails hnew => absurd (by rw [hfails, hnew]; rfl) hquiet⟩

/-- While the source fails a generator runs on from the state that it has (R144). -/
theorem MaskGen.reseed_of_failing (x : MaskGen) (now n : Nat) :
    x.reseed true now n = { x with failing := true, due := now + 1000000000 } := rfl

theorem MaskGen.reseed_of_working (x : MaskGen) (now n : Nat) :
    x.reseed false now n = { x.hold (x.drbg.reseed (entropyOutput n 0)) with failing := false, due := now + 1000000000 } := rfl

theorem State.chan_mask (s : State) (k : Fin 32) : (s.chan k).mask = s.maskGen (k.castLE (by decide) : Fin 33) :=
  (if_pos k.isLt).symm

/-- Settles O36, each clause by the lemma of its row. -/
theorem cipherComplete : Obligations.CipherComplete := by
  unfold Obligations.CipherComplete
  refine ⟨fun s id i f hi => ⟨fun ws h hlow hhigh hrest hindex hpoint hend => ?_, fun h => ?_,
      fun bs key h hline hindex hset hclear hkey hlast hepoch hroom => ?_, fun h hready => ?_, fun h => ?_, fun h => ?_⟩,
    fun s i hpower => ⟨fun k hcurrent hpoint hnew => ?_, fun k hcurrent hset hlimit => ?_, ?_, fun k htested => ?_,
      fun htested => ?_⟩⟩
  · exact execCipherSetup_sets h hi hlow hhigh hrest hindex hpoint hend
  · exact (show execCipherQuery id s = _ from withCipher_started h hi _)
  · exact execKeyLoad_loads h hi hline hindex hset hclear hkey hlast hepoch hroom
  · exact execKeyRoll_waits h hi hready
  · exact execKeyErase_erases h hi
  · exact execCipherCounters_answers h hi
  · exact execKeyUsageWarning_warns hpower hcurrent hpoint hnew
  · exact execKeyExhausted_retires hpower hcurrent hset hlimit
  · exact execOldKeyErase_erases i hpower
  · obtain ⟨t, ht, hdue, hmask, hevent⟩ := execMaskReseed_reseeds (k.castLE (by decide)) hpower htested
    rw [← State.chan_mask] at hdue hevent
    rw [← State.chan_mask, ← State.chan_mask] at hmask
    refine ⟨t, ht, ?_⟩
    rw [hmask]
    refine ⟨rfl, fun hfails => ?_, fun hworks d hd => ?_, hdue, rfl, hevent⟩
    · rw [hfails, MaskGen.reseed_of_failing]
      exact ⟨rfl, rfl⟩
    · rw [hworks, MaskGen.reseed_of_working, hd]
      exact ⟨rfl, rfl⟩
  · obtain ⟨t, ht, hdue, hmask, -⟩ := execMaskReseed_reseeds (32 : Fin 33) hpower htested
    exact ⟨t, ht, hdue, congrArg MaskGen.failing hmask⟩

end Sys2Proof.Machine
end

section
/-! Job keys and crypto jobs: what a job leaves behind when it starts and when it ends (07 R165 to R170). -/

namespace Sys2Proof.Machine

/-! ### Job keys (R165, R171) -/

theorem Sparse.mem_insert_self {α : Type} (m : Sparse α) (i : Nat) (x : α) : (i, x) ∈ m.insert i x := by
  induction m with
  | nil => exact List.mem_singleton_self _
  | cons p m ih =>
    unfold Sparse.insert
    split
    · exact List.mem_cons_self
    · split
      · exact List.mem_cons_self
      · exact List.mem_cons_of_mem _ ih

/-- A rising map lists an erased key nowhere. -/
theorem Sparse.key_ne_of_mem_erase {α : Type} {m : Sparse α} {n : Nat} (hm : m.rising n = true) (i : Nat) :
    ∀ p ∈ m.erase i, p.1 ≠ i := by
  induction m generalizing n with
  | nil => exact fun _ h => nomatch h
  | cons q m ih =>
    simp only [Sparse.rising, Bool.and_eq_true] at hm
    unfold Sparse.erase
    split
    · next hi =>
      intro p hp hpi
      have hbelow := (Sparse.keys_nodup hm.2).2 p.1 (List.mem_map_of_mem hp)
      omega
    · next hi => exact List.forall_mem_cons.2 ⟨fun h => hi h.symm, ih hm.2⟩

theorem execJobKeyLoad_loads {s : State} {id : Nat} {f : Flight} {bs : List Byte} {key : BitVec 256}
    (h : s.Started id 0x1210 f) (hlink : f.desc.p0.bits 9 0 / 256 = f.link) (hjob : (byteWord bs 0).bit 12 = true)
    (hslot : (byteWord bs 0).bits 11 0 = f.desc.p0.bits 9 0) (hepoch : (byteWord bs 0).bits 39 16 = 0)
    (hclear : blobReservedClear bs = true) (hkey : s.sec.unwrap bs = some key)
    (hfree : ∀ p ∈ s.jobKeys, p.1 ≠ f.desc.p0.bits 9 0) (hdraw : s.canDraw = true) :
    ∃ t k, exec (.jobKeyLoad id bs) s = .next t ∧ (f.desc.p0.bits 9 0, k) ∈ t.jobKeys ∧ k.key = key ∧ k.counter = 0 ∧
      k.used = 0 ∧ t.flight? f.id = none := by
  have hempty : (s.jobKeys.any fun p => p.1 = f.desc.p0.bits 9 0) = false := by simpa using hfree
  refine ⟨_, { key := key, fixed := BitVec.ofNat 32 (s.random 4) }, withCmd_started h _, ?_⟩
  simp only [hlink, hjob, hslot, hepoch, hclear, hkey, hempty, hdraw, ne_eq, not_true, decide_false, Bool.not_true,
    Bool.or_self, Bool.false_eq_true, if_false, State.remark_jobKeys, State.finish_jobKeys, State.remark_flight?,
    State.finish_flight?_same, and_self, and_true]
  exact Sparse.mem_insert_self ..

theorem execJobKeyErase_erases {s : State} {id : Nat} {f : Flight} (h : s.Started id 0x1211 f)
    (hlink : f.desc.p0.bits 9 0 / 256 = f.link) (hrise : s.jobKeys.rising 0 = true) :
    ∃ t, exec (.jobKeyErase id) s = .next t ∧ (∀ p ∈ t.jobKeys, p.1 ≠ f.desc.p0.bits 9 0) ∧ t.flight? f.id = none := by
  refine ⟨_, withCmd_started h _, ?_⟩
  simp only [hlink, ne_eq, not_true, if_false, State.remark_jobKeys, State.finish_jobKeys, State.dropJobs,
    State.finishAll_jobKeys, State.remark_flight?, State.finish_flight?_same, and_true]
  exact Sparse.key_ne_of_mem_erase hrise _

/-! ### A job starts (R166 to R168) -/

/-- The job that a command starts under a key. -/
def State.newJob (s : State) (f : Flight) (k : JobKey) (bs : List Byte) : Job :=
  { id := f.id, key := k.key, v := s.jobValue f.desc k, bytes := bs.take f.desc.bufLen }

theorem State.jobStart_jobs (s : State) (f : Flight) (k : JobKey) (bs : List Byte) :
    (s.jobStart f k bs).jobs = s.jobs ++ [s.newJob f k bs] := rfl

theorem State.jobStart_jobKeys_of_decrypts (s : State) {f : Flight} (h : f.desc.jobDecrypts = true) (k : JobKey)
    (bs : List Byte) : (s.jobStart f k bs).jobKeys = s.jobKeys := by
  simp only [State.jobStart, h, Bool.not_true, Bool.false_eq_true, if_false, State.run_jobKeys]

/-- An encryption uses its key once more, and a mode with a counter counts on. -/
theorem State.jobStart_jobKeys_of_encrypts (s : State) {f : Flight} (h : f.desc.jobDecrypts = false) (k : JobKey)
    (bs : List Byte) : (s.jobStart f k bs).jobKeys = s.jobKeys.insert f.desc.keySlot { k with
      counter := if 2 ≤ f.desc.jobMode then k.counter + 1 else k.counter, used := k.used + 1 } := by
  simp only [State.jobStart, h, Bool.not_false, if_true, State.run_jobKeys]

theorem State.jobValue_of_decrypts (s : State) {d : Desc} (h : d.jobDecrypts = true) (k : JobKey) :
    s.jobValue d k = BitVec.ofNat 96 (d.p3.bits 31 0 * 2 ^ 64 + d.p2.toNat) := by
  rw [State.jobValue, if_pos h]

theorem State.jobValue_of_counter (s : State) {d : Desc} (h : d.jobDecrypts = false) (hmode : 2 ≤ d.jobMode) (k : JobKey) :
    s.jobValue d k = BitVec.ofNat 96 (k.fixed.toNat * 2 ^ 64 + k.counter.toNat) := by
  rw [State.jobValue, h, if_neg Bool.false_ne_true, if_pos hmode]

theorem execJobCipher_starts {s : State} {id : Nat} {f : Flight} {bs : List Byte} {k : JobKey} (h : s.Started id 0x1230 f)
    (hbad : f.desc.jobBad = false) (hlink : f.desc.keySlot / 256 = f.link)
    (hkey : s.jobKeys.find? (fun p => p.1 = f.desc.keySlot) = some (f.desc.keySlot, k))
    (hmay : f.desc.jobDecrypts = false → k.used < 4294967296 ∧ (f.desc.jobMode < 2 → s.canDraw = true)) :
    s.Does (.jobCipher id bs) (s.jobStart f k bs) := by
  have hused : (!f.desc.jobDecrypts && 4294967296 ≤ k.used) = false := by
    cases hdec : f.desc.jobDecrypts with
    | true => rfl
    | false => simpa using (hmay hdec).1
  have hdraw : (!f.desc.jobDecrypts && f.desc.jobMode < 2 && !s.canDraw) = false := by
    cases hdec : f.desc.jobDecrypts with
    | true => rfl
    | false => simpa using (hmay hdec).2
  refine (withCmd_started h _).trans ?_
  simp only [hbad, hlink, hkey, hused, hdraw, ne_eq, not_true, Bool.false_eq_true, if_false]

/-! ### A job ends (R169, R170) -/

@[simp] theorem State.drawMasks_engine_jobs (s : State) : (s.drawMasks 32).jobs = s.jobs := by
  unfold State.drawMasks State.setMaskGen
  split <;> simp

/-- The bytes that a job leaves in its output buffer: its output, or zeros over the whole of it when its tag fails. -/
def Job.delivered (j : Job) (d : Desc) : List Byte :=
  match j.output d with
  | some o => Crypto.bytesOf o
  | none => List.replicate (d.p1.bits 31 0) 0

theorem Job.delivered_of_output {j : Job} {d : Desc} {o : List Nat} (h : j.output d = some o) :
    j.delivered d = Crypto.bytesOf o := by
  rw [Job.delivered, h]

theorem Job.delivered_of_bad_tag {j : Job} {d : Desc} (h : j.output d = none) :
    j.delivered d = List.replicate (d.p1.bits 31 0) 0 := by
  rw [Job.delivered, h]

/-- The state in which the job engine has left a job and drawn its masks. -/
def State.jobLeft (s : State) (j : Job) : State :=
  ({ s with jobs := s.jobs.filter fun q => q.id ≠ j.id } : State).drawMasks 32

theorem State.jobLeft_jobs (s : State) (j : Job) : ∀ q ∈ (s.jobLeft j).jobs, q.id ≠ j.id := by
  simp [State.jobLeft]

/-- A job that ends leaves the engine, delivers its bytes and ends its command. -/
theorem State.jobDone_eq (s : State) (f : Flight) (j : Job) : ∃ st r0 r1 r2,
    s.jobDone f j = ((s.jobLeft j).writeAt f f.desc.p0 (j.delivered f.desc)).finish f st r0 r1 r2 := by
  unfold State.jobDone
  dsimp only
  split
  · next h =>
    rw [Job.delivered_of_bad_tag h]
    exact ⟨_, _, _, _, rfl⟩
  · next h =>
    rw [Job.delivered_of_output h]
    split
    · exact ⟨_, _, _, _, rfl⟩ -- a decryption
    · exact ⟨_, _, _, _, rfl⟩ -- an encryption, which tells its IV

theorem State.writeAt_out (s : State) {f : Flight} (horphan : f.orphan = false) (a : Word) (bs : List Byte) :
    Output.buffer f.link a 0 bs ∈ (s.writeAt f a bs).out := by
  simp [State.writeAt, horphan]

theorem execCryptoJobDone_delivers {s : State} {id : Nat} {f : Flight} {j : Job}
    (hjob : s.jobs.find? (fun j => j.id = id) = some j) (hflight : s.flight? id = some f) (hid : j.id = id) :
    ∃ t, exec (.cryptoJobDone id) s = .next t ∧ t.flight? id = none ∧ (∀ q ∈ t.jobs, q.id ≠ id) ∧
      (f.orphan = false → Output.buffer f.link f.desc.p0 0 (j.delivered f.desc) ∈ t.out) := by
  obtain ⟨st, r0, r1, r2, hdone⟩ := s.jobDone_eq f j
  refine ⟨(s.jobDone f j).remark, occursWith_some (a := (f, j)) _ (by simp [hjob, hflight]), ?_⟩
  rw [hdone, State.remark_flight?, State.remark_jobs, State.finish_jobs, State.writeAt_jobs, State.remark_out]
  refine ⟨?_, fun q hq => hid ▸ s.jobLeft_jobs j q hq, fun horphan => ?_⟩
  · rw [← State.flight?_id hflight]
    exact State.finish_flight?_same ..
  · exact State.finish_out _ _ _ _ _ _ (State.writeAt_out _ horphan _ _)

/-- Settles O37, each clause by the lemma of its row. -/
theorem cryptoJobsComplete : Obligations.CryptoJobsComplete := by
  unfold Obligations.CryptoJobsComplete
  intro s id f
  refine ⟨fun bs key h hlink hjob hslot hepoch hclear hkey hfree hdraw => ?_, fun h hlink hrise => ?_,
    fun bs k h hbad hlink hkey hmay => ?_, fun j o hjob hflight houtput hid => ?_, fun j hjob hflight houtput hid => ?_⟩
  · exact execJobKeyLoad_loads h hlink hjob hslot hepoch hclear hkey hfree hdraw
  · exact execJobKeyErase_erases h hlink hrise
  · refine ⟨_, s.newJob f k bs, execJobCipher_starts h hbad hlink hkey hmay, ?_⟩
    rw [State.remark_jobs, State.remark_jobKeys]
    refine ⟨s.jobStart_jobs f k bs, rfl, rfl, rfl, fun hdec => ⟨?_, ?_⟩, fun henc hmode => ⟨?_, ?_⟩⟩
    · exact s.jobStart_jobKeys_of_decrypts hdec k bs
    · exact s.jobValue_of_decrypts hdec k
    · exact s.jobValue_of_counter henc hmode k
    · rw [s.jobStart_jobKeys_of_encrypts henc, Sparse.get_insert_same, if_pos hmode]
  · exact Job.delivered_of_output houtput ▸ execCryptoJobDone_delivers hjob hflight hid
  · obtain ⟨t, ht, hgone, -, hbytes⟩ := execCryptoJobDone_delivers hjob hflight hid
    exact ⟨t, ht, hgone, Job.delivered_of_bad_tag houtput ▸ hbytes⟩

end Sys2Proof.Machine
end

section
/-! What a receiver does with a line frame and at the end of a received multiframe: what it counts, what leaves the counts alone,
and the runs that raise alarms (07 R161; 08 R188, R193 to R196; 09 R213, R218; 11 R266). -/

namespace Sys2Proof.Machine

/-! ### What a receiver counts -/

/-- Alignment of a frame receiver, with the frames it has received, missed and lost. -/
structure Tally where
  state : AlignState
  misses : Nat
  lof : BitVec 16
  framesRx : BitVec 64

def RxFrame.tally (x : RxFrame) : Tally := { state := x.state, misses := x.misses, lof := x.lof, framesRx := x.framesRx }

/-- The tallies of all channels, with the units that each has decoded. -/
def tallies (m : Sparse Channel) (c : Nat) : Tally × BitVec 64 := ((m.get {} c).rf.tally, (m.get {} c).fec.unitsRx)

theorem State.tallies_eq (s : State) (c : Nat) : tallies s.channels c = ((s.chan c).rf.tally, (s.chan c).fec.unitsRx) := rfl

theorem State.setChan_tally (s : State) (c : Nat) (x : Channel) :
    tallies (s.setChan c x).channels c = (x.rf.tally, x.fec.unitsRx) := by
  rw [State.tallies_eq, State.setChan_chan_same]

/-! ### What leaves the tallies alone -/

@[simp] theorem State.setChan_tallies {s : State} {c : Nat} {x : Channel} (hstate : x.rf.state = (s.chan c).rf.state)
    (hmisses : x.rf.misses = (s.chan c).rf.misses) (hlof : x.rf.lof = (s.chan c).rf.lof)
    (hframes : x.rf.framesRx = (s.chan c).rf.framesRx) (hunits : x.fec.unitsRx = (s.chan c).fec.unitsRx) :
    tallies (s.setChan c x).channels = tallies s.channels := by
  funext m
  rw [State.tallies_eq, State.tallies_eq, State.setChan_chan]
  split
  · next hm => rw [RxFrame.tally, hstate, hmisses, hlof, hframes, hunits, hm]; rfl
  · rfl

@[simp] theorem tallies_ite {p : Prop} [Decidable p] (s t : State) :
    tallies (if p then s else t).channels = if p then tallies s.channels else tallies t.channels :=
  apply_ite (fun u : State => tallies u.channels) p s t

@[simp] theorem foldl_tallies {α : Type} {g : State → α → State} (h : ∀ s x, tallies (g s x).channels = tallies s.channels)
    (xs : List α) (s : State) : tallies (xs.foldl g s).channels = tallies s.channels :=
  foldl_eq_of (fun s => tallies s.channels) xs g s h

@[simp] theorem State.remark_tallies (s : State) : tallies s.remark.channels = tallies s.channels := by
  funext c
  rw [State.tallies_eq, State.remark_chan_rf, State.remark_chan_fec, State.tallies_eq]

theorem State.onCal_tallies (s : State) (c : Nat) (g : Cal → Cal) : tallies (s.onCal c g).channels = tallies s.channels :=
  State.setChan_tallies rfl rfl rfl rfl rfl

@[simp] theorem State.setTrib_tallies (s : State) (i : Nat) (x : Trib) : tallies (s.setTrib i x).channels = tallies s.channels :=
  State.setChan_tallies rfl rfl rfl rfl rfl

@[simp] theorem State.onTrib_tallies (s : State) (i : Nat) (g : Trib → Trib) :
    tallies (s.onTrib i g).channels = tallies s.channels :=
  s.setTrib_tallies i _

@[simp] theorem State.setCipherOf_tallies (s : State) (i : Nat) (x : Cipher) :
    tallies (s.setCipherOf i x).channels = tallies s.channels :=
  State.setChan_tallies rfl rfl rfl rfl rfl

/-! ### Figures of latency (02 R27; 21 R456) -/

@[simp] theorem State.latencyEvent_tallies (s : State) (i : Nat) : tallies (s.latencyEvent i).channels = tallies s.channels := by
  simp [State.latencyEvent, State.reported]

@[simp] theorem State.latencyChanged_tallies (s : State) (i : Nat) :
    tallies (s.latencyChanged i).channels = tallies s.channels := by
  simp [State.latencyChanged]

@[simp] theorem State.restateOne_tallies (s : State) (c i : Nat) (tx rx : Bool) :
    tallies (s.restateOne c i tx rx).channels = tallies s.channels := by
  simp [State.restateOne, State.oweLatency]

@[simp] theorem State.restate_tallies (s : State) (c : Nat) (tx rx : Bool) :
    tallies (s.restate c tx rx).channels = tallies s.channels := by
  simp [State.restate]

@[simp] theorem State.farFigures_tallies (s : State) (c l : Nat) (far : Option (Nat × Nat)) :
    tallies (s.farFigures c l far).channels = tallies s.channels := by
  simp [State.farFigures]

@[simp] theorem State.deviations_tallies (s : State) (c : Nat) (m : BitVec 32) (ds : List (Nat × Bool × Int)) :
    tallies (s.deviations c m ds).channels = tallies s.channels := by
  simp [State.deviations]

/-! ### The loading exchange (10 R239 to R247) -/

@[simp] theorem State.lxSwitched_tallies (s : State) (c : Nat) (tx prof : Bool) (m : BitVec 32) :
    tallies (s.lxSwitched c tx prof m).channels = tallies s.channels := by
  simp [State.lxSwitched]

@[simp] theorem State.lxDone_tallies (s : State) (c : Nat) : tallies (s.lxDone c).channels = tallies s.channels := by
  unfold State.lxDone
  dsimp only
  split <;> simp

@[simp] theorem State.lxRxSwitch_tallies (s : State) (c : Nat) (m : BitVec 32) :
    tallies (s.lxRxSwitch c m).channels = tallies s.channels := by
  unfold State.lxRxSwitch
  split <;> simp

@[simp] theorem State.lxAdopt_tallies (s : State) (c : Nat) (m : BitVec 32) :
    tallies (s.lxAdopt c m).channels = tallies s.channels := by
  unfold State.lxAdopt
  split <;> simp

@[simp] theorem State.lapse_tallies (s : State) (c cause : Nat) (seq : BitVec 16) :
    tallies (s.lapse c cause seq).channels = tallies s.channels := by
  simp [State.lapse]

@[simp] theorem State.lxAgain_tallies (s : State) (c : Nat) (p : LxProposal) :
    tallies (s.lxAgain c p).channels = tallies s.channels := by
  simp [State.lxAgain, State.lxPropose]

@[simp] theorem State.lxReceived_tallies (s : State) (c : Nat) (m : BitVec 32) :
    tallies (s.lxReceived c m).channels = tallies s.channels := by
  unfold State.lxReceived
  dsimp only
  split <;> simp

@[simp] theorem State.lxEnds_tallies (s : State) (c : Nat) (p : LxProposal) (st : Nat) (r2 : Option Nat) (reason : Nat) :
    tallies (s.lxEnds c p st r2 reason).channels = tallies s.channels := by
  simp [State.lxEnds]

@[simp] theorem State.lxReject_tallies (s : State) (c reason : Nat) (seq : BitVec 16) (mI : BitVec 32) (profile : Option Bool) :
    tallies (s.lxReject c reason seq mI profile).channels = tallies s.channels := by
  unfold State.lxReject
  dsimp only
  split <;> simp [State.lxReject.go]

@[simp] theorem State.lxAnswer_tallies (s : State) (c : Nat) (ws : List Word) (count : BitVec 32) :
    tallies (s.lxAnswer c ws count).channels = tallies s.channels := by
  simp [State.lxAnswer]

@[simp] theorem State.lxProposed_tallies (s : State) (c : Nat) (ws : List Word) (count : BitVec 32) :
    tallies (s.lxProposed c ws count).channels = tallies s.channels := by
  unfold State.lxProposed
  dsimp only
  split
  · rfl
  · split <;> simp

@[simp] theorem State.lxAccepted_tallies (s : State) (c : Nat) (p : LxProposal) (mR : BitVec 32) :
    tallies (s.lxAccepted c p mR).channels = tallies s.channels := by
  simp [State.lxAccepted]

@[simp] theorem State.lxMessage_tallies (s : State) (c : Nat) (ws : List Word) (count : BitVec 32) :
    tallies (s.lxMessage c ws count).channels = tallies s.channels := by
  unfold State.lxMessage
  dsimp only
  split
  · simp -- PROPOSE
  · split <;> simp -- ACCEPT
  · split <;> simp -- REJECT
  · split <;> simp -- COMMIT
  · rfl

@[simp] theorem State.lxParity_tallies (s : State) (c : Nat) (odd : Option Bool) (n : Option (BitVec 32 × Nat)) :
    tallies (s.lxParity c odd n).channels = tallies s.channels := by
  unfold State.lxParity State.indUnexpected
  dsimp only
  split
  · simp
  · split <;> simp

@[simp] theorem State.takeStatus_tallies (s : State) (c : Nat) (ws : List Word) :
    tallies (s.takeStatus c ws).channels = tallies s.channels := by
  simp [State.takeStatus]

/-! ### The bank switch (06 R127 to R132) -/

@[simp] theorem State.bankDone_tallies (s : State) (c : Nat) : tallies (s.bankDone c).channels = tallies s.channels := by
  unfold State.bankDone
  dsimp only
  split
  · split <;> simp
  · simp

@[simp] theorem State.answerBank_tallies (s : State) (c : Nat) (g : Option Nat) (mI crc count : BitVec 32) :
    tallies (s.answerBank c g mI crc count).channels = tallies s.channels := by
  simp [State.answerBank, State.bankReject]

@[simp] theorem State.bankAccepted_tallies (s : State) (c : Nat) (p : BankProposal) (mR : BitVec 32) :
    tallies (s.bankAccepted c p mR).channels = tallies s.channels := by
  simp [State.bankAccepted]

@[simp] theorem State.bankPropose_tallies (s : State) (c : Nat) (g : Option Nat) (mI crc count : BitVec 32) :
    tallies (s.bankPropose c g mI crc count).channels = tallies s.channels := by
  unfold State.bankPropose State.lapseEvent State.bankReject
  dsimp only
  split <;> simp

@[simp] theorem State.bankMessage_tallies (s : State) (c : Nat) (w8 w9 : Word) (count : BitVec 32) :
    tallies (s.bankMessage c w8 w9 count).channels = tallies s.channels := by
  unfold State.bankMessage State.lapseEvent
  dsimp only
  split
  · simp -- PROPOSE
  · split <;> simp -- ACCEPT
  · split <;> simp -- REJECT
  · split <;> simp -- COMMIT
  · rfl

@[simp] theorem State.bankIndicator_tallies (s : State) (c : Nat) (sw : Bool) (count : BitVec 32) :
    tallies (s.bankIndicator c sw count).channels = tallies s.channels := by
  unfold State.bankIndicator State.lapseEvent
  dsimp only
  cases (s.chan c).sl.proposal <;> cases (s.chan c).sl.agreement <;> simp

/-! ### Groups (06 R135, R136) -/

@[simp] theorem State.lookMember_tallies (s : State) (g : Nat) (cause : Option Nat) (c : Nat) :
    tallies (s.lookMember g cause c).channels = tallies s.channels := by
  simp [State.lookMember, State.failMember, State.failTrib]

@[simp] theorem State.alignGroup_tallies (s : State) (g : Nat) : tallies (s.alignGroup g).channels = tallies s.channels := by
  unfold State.alignGroup
  dsimp only
  split <;> simp

@[simp] theorem State.groupWindow_tallies (s : State) (g : Nat) (cause : Option Nat) :
    tallies (s.groupWindow g cause).channels = tallies s.channels := by
  simp [State.groupWindow]

@[simp] theorem State.lookGroup_tallies (s : State) (c : Nat) (cause : Option Nat) :
    tallies (s.lookGroup c cause).channels = tallies s.channels := by
  unfold State.lookGroup
  split <;> simp

@[simp] theorem State.groupIn_tallies (s : State) (c : Nat) (ws : List Word) (arrival : Int) :
    tallies (s.groupIn c ws arrival).channels = tallies s.channels := by
  unfold State.groupIn
  split <;> simp

/-! ### What a frame delivers (06 R112 to R121, R135; 07 R157 to R163) -/

@[simp] theorem State.drawMasks_tallies (s : State) (k : Nat) : tallies (s.drawMasks k).channels = tallies s.channels := by
  simp [State.drawMasks, State.setMaskGen]

@[simp] theorem State.authFailed_tallies (s : State) (i : Nat) (errored : Bool) :
    tallies (s.authFailed i errored).channels = tallies s.channels := by
  simp [State.authFailed]

@[simp] theorem State.clientWords_tallies (s : State) (i : Nat) (count : BitVec 32) (frame jc n : Nat) (ws : List Word)
    (errored : Bool) (tail : Option Carried) :
    tallies (s.clientWords i count frame jc n ws errored tail).1.channels = tallies s.channels := by
  unfold State.clientWords
  split
  · rfl -- not ciphered
  · dsimp only
    split
    · simp -- the next overhead is damaged
    · split
      · simp -- no key
      · split <;> simp

@[simp] theorem State.deliver_tallies (s : State) (x : RxTrib) (count : BitVec 32) (frame : Nat) (tail : Option Carried) :
    tallies (s.deliver x count frame tail).channels = tallies s.channels := by
  unfold State.deliver
  dsimp only
  split
  · rfl -- a Free context
  · split
    · simp -- replaced
    · split <;> simp only [tallies_ite, State.onTrib_tallies, ite_self] <;> split <;> simp

@[simp] theorem State.releaseReady_tallies (s : State) (g : Nat) : tallies (s.releaseReady g).channels = tallies s.channels := by
  simp [State.releaseReady, State.releaseFrame, State.deliverHeld]

@[simp] theorem State.releaseHeld_tallies (s : State) (c : Nat) (oh : Option (List Word)) :
    tallies (s.releaseHeld c oh).channels = tallies s.channels := by
  unfold State.releaseHeld
  dsimp only
  split
  · rfl
  · split <;> simp [State.deliverHeld]

@[simp] theorem State.endHit_tallies (s : State) (c : Nat) : tallies (s.endHit c).channels = tallies s.channels := by
  simp [State.endHit]

@[simp] theorem State.reconverged_tallies (s : State) (c peak : Nat) (cause : Option Nat) :
    tallies (s.reconverged c peak cause).channels = tallies s.channels := by
  unfold State.reconverged
  dsimp only
  split
  · rfl
  · exact State.setChan_tallies rfl rfl rfl rfl rfl

/-! ### The message channel (08 R190, R191) -/

@[simp] theorem State.loseMessage_tallies (s : State) (c : Nat) (seq : BitVec 16) (cause : Nat) (by_ : Option Nat) :
    tallies (s.loseMessage c seq cause by_).channels = tallies s.channels := by
  simp [State.loseMessage]

@[simp] theorem State.breakMessage_tallies (s : State) (c cause : Nat) (by_ : Option Nat) :
    tallies (s.breakMessage c cause by_).channels = tallies s.channels := by
  unfold State.breakMessage
  split <;> simp

@[simp] theorem State.fillMessage_tallies (s : State) (r : Nat) (bytes : List Byte) (r1 : Nat) :
    tallies (s.fillMessage r bytes r1).channels = tallies s.channels := by
  unfold State.fillMessage
  split <;> simp

@[simp] theorem State.dropMessage_tallies (s : State) (c : Nat) : tallies (s.dropMessage c).channels = tallies s.channels := by
  unfold State.dropMessage
  split <;> simp

@[simp] theorem State.takeMessage_tallies (s : State) (c : Nat) (a : Assembly) :
    tallies (s.takeMessage c a).channels = tallies s.channels := by
  unfold State.takeMessage
  dsimp only
  split
  · split <;> simp -- to a ring
  · simp [State.farMessage] -- latency figures
  · simp

@[simp] theorem State.addChunk_tallies (s : State) (c : Nat) (a : Assembly) (ws : List Word) (last : Bool) :
    tallies (s.addChunk c a ws last).channels = tallies s.channels := by
  simp [State.addChunk, State.endMessage]

@[simp] theorem State.chunkIn_tallies (s : State) (c : Nat) (ws : List Word) :
    tallies (s.chunkIn c ws).channels = tallies s.channels := by
  unfold State.chunkIn
  dsimp only
  split
  · simp -- no chunk
  · split
    · simp -- the first of a message
    · split <;> simp

/-! ### The overhead (08 R178 to R196; 11 R273; 13 R313) -/

@[simp] theorem State.takeAdvert_tallies (s : State) (i : Nat) (w : Word) :
    tallies (s.takeAdvert i w).channels = tallies s.channels := by
  simp [State.takeAdvert, State.clash]

@[simp] theorem State.leafCell_tallies (s : State) (c : Nat) (ws : List Word) (count : BitVec 32) :
    tallies (s.leafCell c ws count).channels = tallies s.channels := by
  simp [State.leafCell]

@[simp] theorem State.regionIn_tallies (s : State) (c : Nat) (ws : List Word) (frame : Nat) (count : BitVec 32) :
    tallies (s.regionIn c ws frame count).channels = tallies s.channels := by
  simp [State.regionIn]

@[simp] theorem State.overheadIn_tallies (s : State) (c : Nat) (ws : List Word) (arrival : Int) :
    tallies (s.overheadIn c ws arrival).channels = tallies s.channels := by
  unfold State.overheadIn
  dsimp only
  generalize hu : State.onChan s c _ = u
  have hread : tallies u.channels = tallies s.channels := by
    rw [← hu, State.onChan_eq]
    exact State.setChan_tallies rfl rfl rfl rfl rfl
  split
  · simp [hread]
  · split <;> simp [hread]

@[simp] theorem State.windowBoundary_tallies (s : State) (c : Nat) (m : BitVec 32) :
    tallies (s.windowBoundary c m).channels = tallies s.channels := by
  simp [State.windowBoundary, State.applyWindows, State.setWindow, State.startSearch, State.rxEnter]

@[simp] theorem State.rxBoundary_tallies (s : State) (c : Nat) (m : BitVec 32) :
    tallies (s.rxBoundary c m).channels = tallies s.channels := by
  simp [State.rxBoundary]

@[simp] theorem State.frameStart_tallies (s : State) (c : Nat) : tallies (s.frameStart c).channels = tallies s.channels := by
  simp [State.frameStart]

@[simp] theorem State.parityIn_tallies (s : State) (c : Nat) (odd : Option Bool) :
    tallies (s.parityIn c odd).channels = tallies s.channels :=
  s.lxParity_tallies c odd _

/-! ### A line frame is received (08 R193; 09 R213) -/

/-- The alignment word of a frame in step is found, or missed once more. -/
def Tally.aligned (x : Tally) (hit : Bool) : Tally := { x with misses := if hit then 0 else x.misses + 1 }

/-- One more frame has been received. -/
def Tally.counted (x : Tally) : Tally := { x with framesRx := x.framesRx + 1 }

theorem pieces_length {α : Type} (k n : Nat) (l : List α) : (pieces k n l).length = n := by
  induction n generalizing l with
  | zero => rfl
  | succ n ih => rw [pieces, List.length_cons, ih]

/-- Decoded units make the words of a whole frame. -/
theorem unitWords_length (slots : Nat) (us : List Decoded) : (unitWords slots us).length = 2048 + 126 * slots := by
  rw [unitWords, flaggedWords, List.length_map, pieces_length]

/-- In step, a frame is taken from each frame period, and its alignment word counts as a miss or ends the run of them. -/
theorem RxFrame.align_of_inFrame {x : RxFrame} {l : Nat} {same : Bool} {ws : List (Word × Bool)} (hstate : x.state = .inFrame)
    (hwhole : l ≤ ws.length) : ∃ y raw fresh, x.align l same ws = (y, some (raw, fresh)) ∧
      y.tally = x.tally.aligned (same && fawErrors ((x.tail ++ ws).map Prod.fst) ≤ 8) := by
  have hlength : ¬ (x.tail ++ ws).length < l := by
    rw [List.length_append]
    omega
  unfold RxFrame.align
  simp only [hstate, hlength, if_false]
  exact ⟨_, _, _, rfl, by rw [RxFrame.tally, RxFrame.tally, hstate]; rfl⟩

theorem RxFrame.number_tally (x : RxFrame) (fresh ok : Bool) (n : BitVec 32 × Nat) :
    (x.number fresh ok n).1.tally = x.tally := by
  unfold RxFrame.number
  dsimp only
  split
  · split <;> rfl -- a first numbering
  · split
    · rfl -- a damaged overhead
    · split
      · rfl -- the expected numbers
      · split
        · split <;> rfl -- a jump seen before
        · rfl

theorem RxFrame.take_tally (x : RxFrame) (fresh ok : Bool) (ws : List Word) (slots : Nat) :
    (x.take fresh ok ws slots).1.tally = x.tally.counted :=
  congrArg (fun y : Tally => { y with framesRx := x.framesRx + 1 }) (x.number_tally fresh ok (carriedNumbers ws))

/-- A frame that is taken is counted once. -/
theorem State.takeFrame_tally (s : State) (c : Nat) (raw : List (Word × Bool)) (fresh : Bool) (f : FrameIn) :
    tallies (s.takeFrame c raw fresh f).channels c = ((tallies s.channels c).1.counted, (tallies s.channels c).2) := by
  unfold State.takeFrame
  extract_lets n ws ok x own r taken aligned renumbered checked released begun read deviated held
  have htaken : tallies taken.channels c = ((tallies s.channels c).1.counted, (tallies s.channels c).2) := by
    simp only [taken]
    rw [State.onChan_eq, State.setChan_tally, RxFrame.take_tally]
    rfl
  have haligned : tallies aligned.channels = tallies taken.channels := by simp [aligned]
  have hrenumbered : tallies renumbered.channels = tallies aligned.channels := by
    simp only [renumbered]
    split <;> rfl
  have hchecked : tallies checked.channels = tallies renumbered.channels := by simp [checked]
  have hreleased : tallies released.channels = tallies checked.channels := by simp [released]
  have hbegun : tallies begun.channels = tallies released.channels := by simp [begun]
  have hread : tallies read.channels = tallies begun.channels := by simp [read]
  have hdeviated : tallies deviated.channels = tallies read.channels := by simp [deviated]
  rw [State.onChan_eq, State.setChan_tally]
  change tallies deviated.channels c = _
  rw [hdeviated, hread, hbegun, hreleased, hchecked, hrenumbered, haligned, htaken]

/-- The units of a frame are counted. -/
theorem State.fecFrame_tally (s : State) (c : Nat) (us : List Decoded) (coded : Nat) (place : Option (BitVec 32)) :
    tallies (s.fecFrame c us coded place).channels c =
      ((tallies s.channels c).1, (tallies s.channels c).2 + BitVec.ofNat 64 us.length) := by
  unfold State.fecFrame
  dsimp only
  rw [tallies_ite, State.raise_channels, ite_self, State.onFec_eq, State.setChan_tally]
  rfl

theorem execRxLineFrame_counts {s : State} {c : Fin 32} {f : FrameIn} {v : Channel} {us : List Decoded} {ws : List (Word × Bool)}
    (hreceives : s.receives c none = true) (hv : v = (s.frameStart c).chan c) (hstate : v.rf.state = .inFrame)
    (hmisses : (s.chan c).rf.misses < 4) (hdecodable : decodable f v.fec.rxOffshore v.sRx = true)
    (hus : us = decodeUnits v.fec.rxOffshore v.sRx (codedBits v.ld.rx v.bu.params.rate v.fec.rxOffshore v.sRx f.streams) f)
    (hws : ws = v.rf.tail ++ unitWords v.sRx us) :
    ∃ t, exec (.rxLineFrame c none f) s = .next t ∧ (t.chan c).rf.framesRx = (s.chan c).rf.framesRx + 1 ∧
      (t.chan c).rf.misses = (if f.offshore = v.fec.rxOffshore ∧ fawErrors (ws.map Prod.fst) ≤ 8 then 0
        else (s.chan c).rf.misses + 1) ∧
      (t.chan c).fec.unitsRx = (s.chan c).fec.unitsRx + BitVec.ofNat 64 us.length := by
  have hstart : (v.rf.tally, v.fec.unitsRx) = ((s.chan c).rf.tally, (s.chan c).fec.unitsRx) := by
    rw [hv, ← State.tallies_eq, ← State.tallies_eq, State.frameStart_tallies]
  obtain ⟨htally, hunits⟩ := Prod.mk.inj hstart
  obtain ⟨y, raw, fresh, halign, hy⟩ := RxFrame.align_of_inFrame (l := 2048 + 126 * v.sRx)
    (same := f.offshore == v.fec.rxOffshore) hstate (Nat.le_of_eq (unitWords_length v.sRx us).symm)
  obtain ⟨t, ht, hend⟩ : ∃ t, exec (.rxLineFrame c none f) s = .next t ∧ tallies t.channels c =
      (((s.chan c).rf.tally.aligned (f.offshore == v.fec.rxOffshore && fawErrors (ws.map Prod.fst) ≤ 8)).counted,
        (s.chan c).fec.unitsRx + BitVec.ofNat 64 us.length) := by
    refine ⟨_, occurs_true _ ?_, ?_⟩
    · simp [hreceives, State.viewed, hmisses, State.via, ← hv, hdecodable]
    · simp only [State.via, State.viewed, ← hv, ← hus, halign]
      rw [State.remark_tallies, State.parityIn_tallies, State.fecFrame_tally, State.onCal_tallies, State.takeFrame_tally,
        State.onChan_eq, State.setChan_tally, ← hv, hy, ← hws, htally, hunits]
  obtain ⟨hcounted, hdecoded⟩ := Prod.mk.inj hend
  obtain ⟨-, hmissed, -, hframes⟩ := Tally.mk.inj hcounted
  exact ⟨t, ht, hframes, hmissed.trans (by simp [Tally.aligned, RxFrame.tally]), hdecoded⟩

/-! ### A receiver as its channel or its pair shows it (13 R308, R317) -/

/-- The state in which the channel stands for the receiver: as it is, or for the pair of a hub with a leaf. -/
def State.shown (s : State) (c : Nat) (leaf : Option (Fin 64)) : State :=
  leaf.elim s fun j => s.enterPair c j

theorem State.viewed_eq (s : State) (c : Nat) (leaf : Option (Fin 64)) : s.viewed c leaf = (s.shown c leaf).chan c := by
  cases leaf <;> rfl

/-- The frame receiver is that of the channel, or the leaf's. -/
theorem State.viewed_rf (s : State) (c : Nat) (leaf : Option (Fin 64)) :
    (s.viewed c leaf).rf = leaf.elim (s.chan c).rf fun j => (s.leaf c j).rf := by
  cases leaf with
  | none => rfl
  | some j => rw [State.viewed, State.enterPair, State.onChan_eq, State.setChan_chan_same]; rfl

@[simp] theorem State.remark_viewed_rf (s : State) (c : Nat) (leaf : Option (Fin 64)) :
    (s.remark.viewed c leaf).rf = (s.viewed c leaf).rf := by
  simp [State.viewed_rf]

@[simp] theorem State.raise_viewed_rf (s : State) (source code sev : Nat) (d0 : Word) (d1 : BitVec 32) (cause : Option Nat)
    (c : Nat) (leaf : Option (Fin 64)) : ((s.raise source code sev d0 d1 cause).viewed c leaf).rf = (s.viewed c leaf).rf := by
  rw [State.viewed_rf, State.viewed_rf]
  rfl

/-- What a step leaves in the frame receiver that it works on. -/
theorem State.via_viewed_rf (s : State) (c : Nat) (leaf : Option (Fin 64)) (g : State → State) :
    ((s.via c leaf g).viewed c leaf).rf = ((g (s.shown c leaf)).chan c).rf := by
  rw [State.viewed_rf]
  cases leaf with
  | none => rfl
  | some j =>
    dsimp only [Option.elim, State.via, State.inPair, State.shown]
    rw [State.leaf, State.leavePair, State.onChan_eq, State.setChan_chan_same]
    exact congrArg Leaf.rf (Sparse.get_insert_same ..)

theorem State.via_batch (s : State) (c : Nat) (leaf : Option (Fin 64)) (g : State → State) :
    (s.via c leaf g).batch = (g (s.shown c leaf)).batch := by
  cases leaf <;> rfl

/-- A step that only sets the frame receiver. -/
theorem State.via_onRf_viewed (s : State) (c : Nat) (leaf : Option (Fin 64)) (g : RxFrame → RxFrame) :
    ((s.via c leaf fun s => s.onChan c fun ch => { ch with rf := g ch.rf }).viewed c leaf).rf = g (s.viewed c leaf).rf := by
  rw [State.via_viewed_rf, State.onChan_eq, State.setChan_chan_same, State.viewed_eq]

/-! ### Events stay raised -/

/-- The event that a row raises last. -/
theorem State.raise_remark_event (s : State) (source code sev : Nat) (d0 : Word) (d1 : BitVec 32) (cause : Option Nat) :
    ∃ e ∈ (s.raise source code sev d0 d1 cause).remark.batch, e.source = source ∧ e.code = code ∧ e.severity = sev :=
  ⟨_, State.remark_batch (List.mem_append_right _ (List.mem_singleton_self _)), rfl, rfl, rfl⟩

theorem State.ite_batch {s a b : State} {p : Prop} [Decidable p] (ha : s.batch ⊆ a.batch) (hb : s.batch ⊆ b.batch) :
    s.batch ⊆ (if p then a else b).batch := by
  split <;> assumption

theorem State.latencyChanged_batch (s : State) (i : Nat) : s.batch ⊆ (s.latencyChanged i).batch := by
  unfold State.latencyChanged
  exact State.ite_batch (List.Subset.refl _) (List.subset_append_left ..)

theorem State.restateOne_batch (s : State) (c i : Nat) (tx rx : Bool) : s.batch ⊆ (s.restateOne c i tx rx).batch := by
  unfold State.restateOne
  exact State.ite_batch (List.Subset.refl _) (State.latencyChanged_batch (s.setTrib i _) i)

theorem State.restate_batch (s : State) (c : Nat) (tx rx : Bool) : s.batch ⊆ (s.restate c tx rx).batch :=
  foldl_inv_of (fun u => s.batch ⊆ u.batch) _ _ _ (fun u i hu => List.Subset.trans hu (u.restateOne_batch c i ..))
    (List.Subset.refl _)

theorem State.alignGroup_batch (s : State) (g : Nat) : s.batch ⊆ (s.alignGroup g).batch := by
  unfold State.alignGroup
  dsimp only
  split
  · exact List.Subset.refl _
  · exact List.subset_append_left ..

theorem foldl_lookMember_batch (s : State) (g : Nat) (cause : Option Nat) (cs : List Nat) :
    s.batch ⊆ (cs.foldl (fun s c => s.lookMember g cause c) s).batch :=
  (foldl_inv_of (s.Looked g) cs _ s (fun _ c hu => State.lookMember_looked hu cause c) (.refl g s)).raised

theorem State.groupWindow_batch (s : State) (g : Nat) (cause : Option Nat) : s.batch ⊆ (s.groupWindow g cause).batch := by
  unfold State.groupWindow
  extract_lets cs marked looked kept
  have hlooked : s.batch ⊆ looked.batch :=
    State.ite_batch (foldl_lookMember_batch marked g cause cs) (List.Subset.refl _)
  have hkept : s.batch ⊆ kept.batch := State.ite_batch hlooked hlooked
  exact State.ite_batch hkept (List.Subset.trans hkept (List.Subset.trans (kept.alignGroup_batch g) (foldl_lookMember_batch ..)))

theorem State.lookGroup_batch (s : State) (c : Nat) (cause : Option Nat) : s.batch ⊆ (s.lookGroup c cause).batch := by
  unfold State.lookGroup
  split
  · exact s.groupWindow_batch ..
  · exact List.Subset.refl _

theorem State.endHit_batch (s : State) (c : Nat) : s.batch ⊆ (s.endHit c).batch := by
  unfold State.endHit
  exact State.ite_batch (State.restate_batch (s.onRx c _) c false true) (List.Subset.refl _)

/-! ### Loss of frame (08 R193) -/

/-- A frame receiver that loses its frame searches again, with event 0x1480. -/
theorem State.enterSearch_loses {s : State} {c : Nat} (hstate : (s.chan c).rf.state = .inFrame) (cause : Option Nat) :
    ((s.enterSearch c cause).chan c).rf.state = .search ∧
    ((s.enterSearch c cause).chan c).rf.lof = (s.chan c).rf.lof + 1 ∧
    ∃ e ∈ (s.enterSearch c cause).batch, e.source = c ∧ e.code = 0x1480 := by
  unfold State.enterSearch
  extract_lets x cut lost
  have hcut : tallies cut.channels = tallies s.channels := by simp [cut, State.cutMultiframe]
  have hkept : tallies (cut.breakMessage c 3 cause).channels c = tallies s.channels c := by
    rw [State.breakMessage_tallies, hcut]
  obtain ⟨-, -, hlof, -⟩ := Tally.mk.inj (Prod.mk.inj hkept).1
  have hlost : (lost.chan c).rf.state = .search ∧ (lost.chan c).rf.lof = (s.chan c).rf.lof + 1 := by
    simp only [lost, State.onChan_eq, State.setChan_chan_same]
    exact ⟨rfl, (if_pos hstate).trans (congrArg (· + 1) hlof)⟩
  rw [if_pos hstate]
  exact ⟨hlost.1, hlost.2, _, List.mem_append_right _ (List.mem_singleton_self _), rfl, rfl⟩

theorem State.onLeaf_leaf_same (s : State) (c j : Nat) (g : Leaf → Leaf) : (s.onLeaf c j g).leaf c j = g (s.leaf c j) := by
  rw [State.leaf, State.onLeaf, State.onPm_eq, State.setChan_chan_same]
  exact Sparse.get_insert_same ..

theorem Leaf.missed_rf (x : Leaf) (now : Nat) : (x.missed now).rf = x.rf := by
  unfold Leaf.missed
  split <;> rfl

theorem execLossOfFrame_searches {s : State} {c : Fin 32} {leaf : Option (Fin 64)} (hreceives : s.receives c leaf = true)
    (hstate : (s.viewed c leaf).rf.state = .inFrame) (hmisses : 4 ≤ (s.viewed c leaf).rf.misses) :
    ∃ t, exec (.lossOfFrame c leaf) s = .next t ∧ (t.viewed c leaf).rf.state = .search ∧
      (t.viewed c leaf).rf.lof = (s.viewed c leaf).rf.lof + 1 ∧ ∃ e ∈ t.batch, e.source = c.val ∧ e.code = 0x1480 := by
  refine ⟨_, occurs_true _ (by simp [hreceives, hstate, hmisses]), ?_⟩
  rw [State.viewed_eq] at hstate
  obtain ⟨hsearch, hlof, e, he, hevent⟩ := State.enterSearch_loses hstate none
  rw [← State.via_viewed_rf (g := (·.enterSearch c))] at hsearch hlof
  rw [← State.via_batch (g := (·.enterSearch c))] at he
  rw [← State.viewed_eq] at hlof
  generalize s.via c leaf (·.enterSearch c) = u at *
  rw [State.remark_viewed_rf]
  cases leaf with
  | none =>
    obtain ⟨hstate', -, hlof', -⟩ := Tally.mk.inj (Prod.mk.inj (congrFun
      (((u.endHit c).lookGroup_tallies c none).trans (u.endHit_tallies c)) c)).1
    exact ⟨hstate'.trans hsearch, hlof'.trans hlof, e,
      State.remark_batch ((u.endHit c).lookGroup_batch c none (u.endHit_batch c he)), hevent⟩
  | some j =>
    have hkept : ((u.onLeaf c j fun x => x.missed u.now).leaf c j).rf = (u.leaf c j).rf := by
      rw [State.onLeaf_leaf_same, Leaf.missed_rf]
    rw [State.viewed_rf] at hsearch hlof ⊢
    dsimp only [Option.elim] at hsearch hlof ⊢
    exact ⟨hkept ▸ hsearch, hkept ▸ hlof, e, State.remark_batch he, hevent⟩

/-! ### Runs that raise alarms (07 R161; 08 R188, R196) -/

theorem execOhCheckFailRun_reports {s : State} {c : Fin 32} {leaf : Option (Fin 64)} (hpower : s.boot.powered = true)
    (hrun : (s.viewed c leaf).rf.ohRun = 256) :
    ∃ t, exec (.ohCheckFailRun c leaf) s = .next t ∧ (t.viewed c leaf).rf.ohRun = 257 ∧
      ∃ e ∈ t.batch, e.source = c.val ∧ e.code = 0x1484 := by
  refine ⟨_, occurs_true _ (by simp [hpower, hrun]), ?_, ?_⟩
  · rw [State.remark_viewed_rf, State.raise_viewed_rf, s.via_onRf_viewed c leaf fun x => { x with ohRun := 257 }]
  · obtain ⟨e, he, hsource, hcode, -⟩ := State.raise_remark_event ..
    exact ⟨e, he, hsource, hcode⟩

/-- RDI as its run of four frames says (R196). -/
theorem execRemoteDefect_reports {s : State} {c : Fin 32} {leaf : Option (Fin 64)} {v : Bool} (hpower : s.boot.powered = true)
    (hchanges : (s.viewed c leaf).rf.rdi = !v)
    (hrun : 4 ≤ if v then (s.viewed c leaf).rf.rdiRun else (s.viewed c leaf).rf.clearRun) :
    ∃ t, exec (.remoteDefect c leaf) s = .next t ∧ (t.viewed c leaf).rf.rdi = v ∧
      ∃ e ∈ t.batch, e.source = c.val ∧ e.code = 0x1483 := by
  refine ⟨_, occursWith_some (a := v) _ (by cases v <;> simpa [hpower, hchanges] using hrun), ?_, ?_⟩
  · rw [State.remark_viewed_rf, State.raise_viewed_rf, s.via_onRf_viewed c leaf fun x => { x with rdi := v }]
  · obtain ⟨e, he, hsource, hcode, -⟩ := State.raise_remark_event ..
    exact ⟨e, he, hsource, hcode⟩

theorem execAuthFailRun_reports {s : State} {i : Fin 3072} (hpower : s.boot.powered = true) (hrun : (s.cipherOf i).failRun = 16) :
    ∃ t, exec (.authFailRun i) s = .next t ∧ (t.cipherOf i).failRun = 17 ∧
      ∃ e ∈ t.batch, e.source = i.val / 96 ∧ e.code = 0x1253 ∧ e.severity = 3 := by
  refine ⟨_, occurs_true _ (by simp [hpower, hrun]), ?_, State.raise_remark_event ..⟩
  rw [State.remark_cipherOf, State.raise_cipherOf, State.setCipherOf_cipherOf]

/-! ### The end of a received multiframe (09 R218; 10 R236; 11 R266, R274) -/

/-- A received multiframe that has been reported is not reported again. -/
theorem Channel.endedNow_eq_none {a b : Channel} {m : BitVec 32} (h : a.endedNow = some m) (htf : b.tf = a.tf) (hrf : b.rf = a.rf)
    (hpm : b.pm = a.pm) (hended : b.rx.ended = some m) : b.endedNow = none := by
  unfold Channel.endedNow at h ⊢
  obtain ⟨-, hm⟩ := Option.ite_none_right_eq_some.1 h
  rw [htf, hrf, hpm, hended, ← Option.some.inj hm]
  simp

/-- FEC figures at the end of multiframe m: the sums of m and of those before it are gone. -/
theorem State.fecEnd_chan (s : State) (c : Nat) (m : BitVec 32) : ∃ x, (s.fecEnd c m).chan c = { s.chan c with fec := x } ∧
    x.mfc = m ∧ x.uncorrLast = ((s.chan c).fec.sumsOf m).uncorr ∧ ∀ y ∈ x.sums, mfBefore m y.mfc = true :=
  ⟨_, State.setChan_chan_same .., rfl, rfl,
    fun _ hy => List.all_eq_true.1 (List.all_takeWhile (p := fun y : FecSums => mfBefore m y.mfc)) _ hy⟩

theorem State.reconverged_chan (s : State) (c peak : Nat) (cause : Option Nat) :
    ∃ x, (s.reconverged c peak cause).chan c = { s.chan c with rx := x } := by
  unfold State.reconverged
  dsimp only
  split
  · exact ⟨_, rfl⟩
  · exact ⟨_, State.setChan_chan_same ..⟩

theorem State.qualityEnd_chan (s : State) (c : Nat) (m : BitVec 32) (q : QualityIn) :
    ∃ x a, (s.qualityEnd c m q).chan c = { s.chan c with ld := x, age := a } ∧ x.mfc = m :=
  ⟨_, _, State.setChan_chan_same .., rfl⟩

theorem State.dspEnd_chan (s : State) (c : Nat) (m : BitVec 32) (q : QualityIn) :
    ∃ x, (s.dspEnd c m q).chan c = { s.chan c with rx := x } ∧ x.mfc = m ∧ x.cdMeas = q.cd ∧ x.freqOfs = q.freq ∧
      x.ended = some m := by
  obtain ⟨x, hx⟩ := s.reconverged_chan c (peakSop q) none
  refine ⟨((s.dspEnd c m q).chan c).rx, ?_, ?_⟩ <;> rw [State.dspEnd, State.onRx_eq, State.setChan_chan_same]
  · rw [hx]
  · exact ⟨rfl, rfl, rfl, rfl⟩

theorem execRxMultiframeEnd_records {s : State} {c : Fin 32} {q : QualityIn} {m : BitVec 32} (hpower : s.boot.powered = true)
    (hshow : (s.chan c).mayShow q.freq = true) (hended : (s.chan c).endedNow = some m) :
    ∃ t, exec (.rxMultiframeEnd c q) s = .next t ∧ (t.chan c).fec.mfc = m ∧
      (t.chan c).fec.uncorrLast = ((s.chan c).fec.sumsOf m).uncorr ∧
      (∀ y ∈ (t.chan c).fec.sums, mfBefore m y.mfc = true) ∧ (t.chan c).endedNow = none ∧
      ((s.chan c).rx.state = .tracking → (t.chan c).ld.mfc = m ∧ (t.chan c).rx.mfc = m ∧ (t.chan c).rx.cdMeas = q.cd ∧
        (t.chan c).rx.freqOfs = q.freq) := by
  refine ⟨_, occursWith_some (a := m) _ (by simpa [hpower, hshow] using hended), ?_⟩
  simp only [State.remark_chan_fec, State.remark_chan_ld, State.remark_chan_rx]
  split
  · -- state 6
    obtain ⟨ld, age, hquality, hld⟩ := s.qualityEnd_chan c m q
    obtain ⟨fec, hfec, hcount, huncorr, hsums⟩ := (s.qualityEnd c m q).fecEnd_chan c m
    obtain ⟨rx, hrx, hmfc, hcd, hfreq, hreported⟩ := ((s.qualityEnd c m q).fecEnd c m).dspEnd_chan c m q
    rw [hquality] at hfec huncorr
    rw [hfec] at hrx
    simp only [State.onCal_eq, State.setChan_chan_same, hrx]
    exact ⟨hcount, huncorr, hsums, Channel.endedNow_eq_none hended (by simp) (by simp) (by simp) (by simpa using hreported),
      fun _ => ⟨hld, hmfc, hcd, hfreq⟩⟩
  · next hstate => -- state 5 (log 149)
    obtain ⟨fec, hfec, hcount, huncorr, hsums⟩ := s.fecEnd_chan c m
    obtain ⟨rx, hrx⟩ := (s.fecEnd c m).reconverged_chan c (peakSop q) none
    rw [hfec] at hrx
    simp only [State.onRx_eq, State.setChan_chan_same, hrx]
    exact ⟨hcount, huncorr, hsums, Channel.endedNow_eq_none hended (by simp) (by simp) (by simp) (by simp),
      fun htracks => absurd htracks hstate⟩

/-- Settles O51, each clause by the lemma of its row. -/
theorem receiveRowsComplete : Obligations.ReceiveRowsComplete := by
  unfold Obligations.ReceiveRowsComplete
  intro s hpower
  refine ⟨fun c f v us ws hreceives hv hstate hmisses hdecodable hus hws => ?_, fun c leaf hreceives hstate hmisses => ?_,
    fun c leaf hrun => ?_, fun c leaf hclear hrun => ?_, fun c leaf hset hrun => ?_, fun i hrun => ?_,
    fun c q m hshow hended => ?_⟩
  · exact execRxLineFrame_counts hreceives hv hstate hmisses hdecodable hus hws
  · exact execLossOfFrame_searches hreceives hstate hmisses
  · exact execOhCheckFailRun_reports hpower hrun
  · exact execRemoteDefect_reports (v := true) hpower hclear hrun
  · exact execRemoteDefect_reports (v := false) hpower hset hrun
  · exact execAuthFailRun_reports hpower hrun
  · exact execRxMultiframeEnd_records hpower hshow hended

end Sys2Proof.Machine
end

section
/-! The loading and FEC rows of a channel: queries, settings and alarms, and the commands that open a loading exchange or a profile
change (09 R214 to R218; 10 R241, R249, R251, R252; 13 R317). -/

namespace Sys2Proof.Machine

/-! ### Queries and settings (09 R217, R218; 10 R251, R252) -/

/-- LOAD_PLAN of a set that can be planned: the receive half of a loading request, with S, SHORTFALL and STALE. -/
theorem execLoadPlan_answers {s : State} {id : Nat} {f : Flight} {set : LoadSet} {short stale : Bool} (h : s.Started id 0x1303 f)
    (hplan : (s.chan f.desc.target).plan (if f.desc.p0.bits 7 0 = 0 then (s.chan f.desc.target).age.target else f.desc.p0.bits 7 0)
      (f.desc.p0.bit 8) (if f.desc.p0.bits 19 9 = 0 then 1600 else f.desc.p0.bits 19 9) = some (set, short, stale)) :
    s.Does (.loadPlan id) (s.answer f
      (List.replicate 8 0 ++ set.words (s.chan f.desc.target).bu.params.rate (s.chan f.desc.target).fec.rxOffshore)
      (some (((s.chan f.desc.target).rxSlots set (s.chan f.desc.target).fec.rxOffshore).getD 0 + 65536 * bitOf short +
        131072 * bitOf stale))) :=
  (withCmd_started h _).trans (by simp only [hplan, Channel.rxSlots])

@[simp] theorem State.lqEvent_chan (s : State) (c : Nat) (raised : Bool) (i : Nat) : (s.lqEvent c raised).chan i = s.chan i := rfl

/-- The settings of a channel's loading after LOAD_CONFIG; an alarm level of 0 takes the alarm back. -/
theorem State.loadConfig_ld (s : State) (c : Nat) (accept : Bool) (alarm : Int) :
    ((s.loadConfig c accept alarm).chan c).ld = { (s.chan c).ld with
      farAccept := accept, lqAlarm := alarm, lqRaised := (s.chan c).ld.lqRaised && alarm ≠ 0
      lowRun := if alarm = (s.chan c).ld.lqAlarm then (s.chan c).ld.lowRun else 0
      highRun := if alarm = (s.chan c).ld.lqAlarm then (s.chan c).ld.highRun else 0 } := by
  unfold State.loadConfig
  dsimp only
  rw [State.onLd_eq, State.setChan_chan_same]
  split <;> rfl

theorem execLoadConfig_sets {s : State} {id : Nat} {f : Flight} (h : s.Started id 0x1304 f) :
    ∃ t, exec (.loadConfig id) s = .next t ∧ (t.chan f.desc.target).ld.farAccept = f.desc.p0.bit 0 ∧
      (t.chan f.desc.target).ld.lqAlarm = signed 8 (f.desc.p0.bits 15 8) ∧
      (f.desc.p0.bits 15 8 = 0 → (t.chan f.desc.target).ld.lqRaised = false) ∧
      (t.chan f.desc.target).ld.tx = (s.chan f.desc.target).ld.tx ∧
      (t.chan f.desc.target).ld.rx = (s.chan f.desc.target).ld.rx ∧ t.flight? f.id = none := by
  refine ⟨_, withCmd_started h _, ?_⟩
  rw [State.remark_chan_ld, State.finish_chan, State.loadConfig_ld]
  refine ⟨rfl, rfl, fun hoff => ?_, rfl, rfl, by rw [State.remark_flight?, State.finish_flight?_same]⟩
  rw [hoff, show signed 8 0 = 0 from rfl]
  exact Bool.and_false _

theorem execFecAlarmSet_sets {s : State} {id : Nat} {f : Flight} (h : s.Started id 0x14A3 f) :
    ∃ t, exec (.fecAlarmSet id) s = .next t ∧
      (t.chan f.desc.target).fec = { (s.chan f.desc.target).fec with alarmLevel := f.desc.p0.bits 47 0 } ∧ t.flight? f.id = none ∧
      ∀ d, d ≠ f.desc.target → (t.chan d).Same (s.chan d) := by
  refine ⟨_, withCmd_started h _, by simp, by simp, fun d hd => ?_⟩
  have hother := State.remark_same ((s.onFec f.desc.target fun x => { x with alarmLevel := f.desc.p0.bits 47 0 }).finish f 0) d
  rwa [State.finish_chan, State.onFec_eq, State.setChan_chan_ne _ _ hd] at hother

/-! ### Alarms (09 R214, R218; 10 R252) -/

/-- The event that is raised, as it waits for its microsecond to end (21 R458). -/
theorem State.raised_mem (s : State) (source code sev : Nat) (d0 : Word) :
    { source := source, code := code, severity := sev, us := s.us, mfc := s.eventMfc source, detail0 := d0, detail1 := 0 } ∈
      (s.raise source code sev d0).batch :=
  List.mem_append_right _ (List.mem_singleton_self _)

/-- DETAIL_0 of event 0x1323 reads back: the alarm is raised or cleared. -/
theorem lqEvent_raised (lq lowest : Nat) (r : Bool) : (mkWord [(0, 8, lq), (8, 5, lowest), (16, 1, bitOf r)]).bit 16 = r := by
  rw [mkWord_bit _ (by decide)]
  cases r <;> simp [bitOf]

/-- DETAIL_0 of event 0x14A1 reads back: the alarm is raised or cleared. -/
theorem berEvent_raised (ber : Nat) (r : Bool) : (mkWord [(0, 48, ber), (48, 1, bitOf r)]).bit 48 = r := by
  rw [mkWord_bit _ (by decide)]
  cases r <;> simp [bitOf]

/-- DETAIL_0 of event 0x14A0 after a run reads back: the 256 frames. -/
theorem uncorrEvent_frames (first : Nat) : (mkWord [(0, 16, 256), (16, 32, first)]).bits 15 0 = 256 := by
  rw [Word.bits, mkWord_two_toNat (by decide)]
  omega

/-- The alarm on link quality goes to `r` once the run of multiframes for it has reached four. -/
theorem execLinkQualityAlarm_reports {s : State} {c : Fin 32} {r : Bool} (hpower : s.boot.powered = true)
    (hlevel : (s.chan c).ld.lqAlarm ≠ 0) (hchanges : (s.chan c).ld.lqRaised = !r)
    (hrun : 4 ≤ if r then (s.chan c).ld.lowRun else (s.chan c).ld.highRun) :
    ∃ t, exec (.linkQualityAlarm c) s = .next t ∧ (t.chan c).ld.lqRaised = r ∧
      ∃ e ∈ t.batch, e.source = c.val ∧ e.code = 0x1323 ∧ e.detail0.bit 16 = r := by
  refine ⟨_, occursWith_some (a := r) _ (by cases r <;> simpa [hpower, hlevel, hchanges] using hrun), ?_, ?_⟩
  · simp
  · exact ⟨_, State.remark_batch (State.raised_mem ..), rfl, rfl, lqEvent_raised ..⟩

theorem execFecBerAlarm_raises {s : State} {c : Fin 32} (hpower : s.boot.powered = true) (hlevel : (s.chan c).fec.alarmLevel ≠ 0)
    (hclear : (s.chan c).fec.alarm = false) (hrun : 4 ≤ (s.chan c).fec.aboveRun) :
    ∃ t, exec (.fecBerAlarm c) s = .next t ∧ (t.chan c).fec.alarm = true ∧
      ∃ e ∈ t.batch, e.source = c.val ∧ e.code = 0x14A1 ∧ e.severity = 2 ∧ e.detail0.bit 48 = true := by
  refine ⟨_, occursWith_some (a := true) _ (by simp [hpower, hlevel, hclear, hrun]), by simp, ?_⟩
  exact ⟨_, State.remark_batch (State.raised_mem ..), rfl, rfl, rfl, berEvent_raised ..⟩

theorem execUncorrectableRun_reports {s : State} {c : Fin 32} (hpower : s.boot.powered = true)
    (hrun : (s.chan c).fec.uncorrRun = 256) :
    ∃ t, exec (.uncorrectableRun c) s = .next t ∧
      ∃ e ∈ t.batch, e.source = c.val ∧ e.code = 0x14A0 ∧ e.severity = 3 ∧ e.detail0.bits 15 0 = 256 := by
  refine ⟨_, occurs_true _ (by simp [hpower, hrun]), ?_⟩
  exact ⟨_, State.remark_batch (State.raised_mem ..), rfl, rfl, rfl, uncorrEvent_frames _⟩

/-- Settles O38, each clause by the row of its command on the started command or by the lemma of its alarm. -/
theorem loadingComplete : Obligations.LoadingComplete := by
  unfold Obligations.LoadingComplete
  refine ⟨?_, ?_⟩
  · rintro s id _ f rfl
    refine ⟨fun h => ?_, fun h => ?_, fun set short stale h hplan => ?_, fun h => ?_, fun h => ?_, fun h => ?_, fun h => ?_⟩
    · exact withCmd_started h _
    · exact withCmd_started h _
    · exact execLoadPlan_answers h hplan
    · exact execLoadConfig_sets h
    · exact withCmd_started h _
    · exact withCmd_started h _
    · exact execFecAlarmSet_sets h
  · intro s c hpower
    refine ⟨fun hlevel hclear hrun => ?_, fun hlevel hset hrun => ?_, fun hlevel hclear hrun => ?_, fun hrun => ?_⟩
    · exact execLinkQualityAlarm_reports (r := true) hpower hlevel hclear hrun
    · exact execLinkQualityAlarm_reports (r := false) hpower hlevel hset hrun
    · exact execFecBerAlarm_raises hpower hlevel hclear hrun
    · exact execUncorrectableRun_reports hpower hrun

/-! ### Opening an exchange (09 R215; 10 R241, R249; 13 R317) -/

/-- Proposal p is the one with which command f opens an exchange on its channel (10 R241): EXCH_SEQ one higher, the switch LEAD
multiframes ahead, neither answered nor committed. -/
structure LxProposal.Opens (p : LxProposal) (s : State) (f : Flight) (lead : Nat) (x : LxContent) : Prop where
  id : p.id = some f.id
  seq : p.seq = (s.chan f.desc.target).ld.seq + 1
  mI : p.mI = (s.chan f.desc.target).tf.mfc + BitVec.ofNat 32 lead
  content : p.content = x
  accepted : p.accepted = none
  committed : p.committed = false

/-- A command that opens an exchange changes its channel in the exchange alone. -/
theorem State.lxStart_chan (s : State) (f : Flight) (lead : Nat) (x : LxContent) :
    ∃ p : LxProposal, p.Opens s f lead x ∧ (s.lxStart f lead x).chan f.desc.target = { s.chan f.desc.target with
      ld := { (s.chan f.desc.target).ld with seq := (s.chan f.desc.target).ld.seq + 1, pendingRx := none, proposal := some p } } :=
  ⟨_, ⟨rfl, rfl, rfl, rfl, rfl, rfl⟩, State.setChan_chan_same ..⟩

/-- A loading change that passes its checks opens an exchange, but at a hub. -/
theorem State.loadChange_of_passes {s : State} {f : Flight} {x : LxContent} (lead : Nat)
    (hmode : (s.chan f.desc.target).pm.mode ≠ .hub) (hpass : s.loadStatus f.desc.target x = 0) :
    s.loadChange f lead x = s.lxStart f lead x := by
  unfold State.loadChange
  dsimp only
  rw [if_neg (by simp [hmode]), if_neg (by simp [hpass])]
  split
  · next hhub _ => exact absurd hhub hmode
  · rfl

/-- At a hub a new downstream set that passes its checks is announced. -/
theorem State.loadChange_of_hub {s : State} {f : Flight} {x : LxContent} {y : LoadSet} (lead : Nat)
    (hmode : (s.chan f.desc.target).pm.mode = .hub) (hrev : x.rev = none) (hfwd : x.fwd = some y)
    (hpass : s.loadStatus f.desc.target x = 0) (hacquired : (s.chan f.desc.target).leafUnacquired y = false) :
    s.loadChange f lead x = s.announce f lead y := by
  simp [State.loadChange, hmode, hrev, hfwd, hpass, hacquired]

theorem execLoadChange_next {s : State} {id lead : Nat} {f : Flight} {ws : List Word} (h : s.Started id 0x1300 f)
    (hlead : lxLead (f.desc.p0.bits 6 0) = some lead) (hclear : requestClear ws = true) :
    exec (.loadChange id ws) s = .next (s.loadChange f lead (requestContent ws)).remark :=
  (withCmd_started h _).trans (by simp [hlead, hclear])

/-- LOAD_CHANGE proposes the requested sets; those in force stay. -/
theorem execLoadChange_proposes {s : State} {id lead : Nat} {f : Flight} {ws : List Word} (h : s.Started id 0x1300 f)
    (hlead : lxLead (f.desc.p0.bits 6 0) = some lead) (hclear : requestClear ws = true)
    (hmode : (s.chan f.desc.target).pm.mode ≠ .hub) (hpass : s.loadStatus f.desc.target (requestContent ws) = 0) :
    ∃ t p, exec (.loadChange id ws) s = .next t ∧ (t.chan f.desc.target).ld.proposal = some p ∧
      p.Opens s f lead (requestContent ws) ∧ (t.chan f.desc.target).ld.tx = (s.chan f.desc.target).ld.tx ∧
      (t.chan f.desc.target).ld.rx = (s.chan f.desc.target).ld.rx := by
  obtain ⟨p, hopens, hchan⟩ := s.lxStart_chan f lead (requestContent ws)
  refine ⟨_, p, execLoadChange_next h hlead hclear, ?_⟩
  rw [State.loadChange_of_passes lead hmode hpass, State.remark_chan_ld, hchan]
  exact ⟨rfl, hopens, rfl, rfl⟩

/-- LOAD_CHANGE at a hub announces its downstream set only when the switch begins before the command's deadline (02 R31). -/
theorem execLoadChange_announces {s : State} {id lead : Nat} {f : Flight} {ws : List Word} {y : LoadSet} (h : s.Started id 0x1300 f)
    (hlead : lxLead (f.desc.p0.bits 6 0) = some lead) (hclear : requestClear ws = true)
    (hmode : (s.chan f.desc.target).pm.mode = .hub) (hrev : (requestContent ws).rev = none)
    (hfwd : (requestContent ws).fwd = some y) (hpass : s.loadStatus f.desc.target (requestContent ws) = 0)
    (hacquired : (s.chan f.desc.target).leafUnacquired y = false) :
    ∃ t, exec (.loadChange id ws) s = .next t ∧ (t.chan f.desc.target).pm.downstream =
      if s.beginsBefore f.desc.target lead (s.deadline f) then
        some (some f.id, (s.chan f.desc.target).tf.mfc + BitVec.ofNat 32 lead, y)
      else (s.chan f.desc.target).pm.downstream := by
  refine ⟨_, execLoadChange_next h hlead hclear, ?_⟩
  rw [State.loadChange_of_hub lead hmode hrev hfwd hpass hacquired, State.remark_chan_pm, State.announce]
  dsimp only
  split
  · simp
  · rfl

/-- FEC_PROFILE to another profile, without sets, proposes the profile; the one in force stays. -/
theorem execFecProfile_proposes {s : State} {id lead : Nat} {f : Flight} (ws : List Word) (h : s.Started id 0x14A0 f)
    (hlead : lxLead (f.desc.p0.bits 14 8) = some lead) (hnone : f.desc.bufAddr = 0)
    (hother : f.desc.p0.bit 0 ≠ (s.chan f.desc.target).fec.txOffshore)
    (hpass : s.profileStatus f.desc.target false (f.desc.p0.bit 0) (bareContent (some (f.desc.p0.bit 0))) = 0) :
    ∃ t p, exec (.fecProfile id ws) s = .next t ∧ (t.chan f.desc.target).ld.proposal = some p ∧
      p.Opens s f lead (bareContent (some (f.desc.p0.bit 0))) ∧ (t.chan f.desc.target).fec = (s.chan f.desc.target).fec := by
  obtain ⟨p, hopens, hchan⟩ := s.lxStart_chan f lead (bareContent (some (f.desc.p0.bit 0)))
  have hnext : exec (.fecProfile id ws) s = .next (s.lxStart f lead (bareContent (some (f.desc.p0.bit 0)))).remark := by
    unfold bareContent at hpass ⊢
    exact (withCmd_started h _).trans (by simp [hlead, hnone, hother, hpass])
  refine ⟨_, p, hnext, ?_⟩
  rw [State.remark_chan_ld, State.remark_chan_fec, hchan]
  exact ⟨rfl, hopens, rfl⟩

/-- FEC_PROFILE to the profile in force with sets is a loading change (09 R215). -/
theorem execFecProfile_proposes_sets {s : State} {id lead : Nat} {f : Flight} {ws : List Word} (h : s.Started id 0x14A0 f)
    (hlead : lxLead (f.desc.p0.bits 14 8) = some lead) (hsets : f.desc.bufAddr ≠ 0) (hclear : requestClear ws = true)
    (hsame : f.desc.p0.bit 0 = (s.chan f.desc.target).fec.txOffshore) (hmode : (s.chan f.desc.target).pm.mode ≠ .hub)
    (hpass : s.loadStatus f.desc.target (requestContent ws) = 0) :
    ∃ t p, exec (.fecProfile id ws) s = .next t ∧ (t.chan f.desc.target).ld.proposal = some p ∧
      p.Opens s f lead (requestContent ws) ∧ (t.chan f.desc.target).fec = (s.chan f.desc.target).fec := by
  obtain ⟨p, hopens, hchan⟩ := s.lxStart_chan f lead (requestContent ws)
  have hnext : exec (.fecProfile id ws) s = .next (s.loadChange f lead (requestContent ws)).remark :=
    (withCmd_started h _).trans (by simp [hlead, show f.desc.bufAddr ≠ 0#64 from hsets, hclear, hsame])
  refine ⟨_, p, hnext, ?_⟩
  rw [State.loadChange_of_passes lead hmode hpass, State.remark_chan_ld, State.remark_chan_fec, hchan]
  exact ⟨rfl, hopens, rfl⟩

/-! ### A downstream set that is asked for too late (02 R31) -/

/-- A LOAD_CHANGE of channel 0 with LEAD 100, fetched at time 0: its deadline is 500 ms (02 R30). -/
def lateLoadChange : Flight :=
  { id := 0, link := 0, ring := 49152, index := 0, desc := { w0 := 0x1300, w1 := 4096, w2 := 128, w3 := 100 }
    phase := .started, deadline := some 500000000, owned := 1 }

/-- A transmit set with every subcarrier Active at 3 bits. -/
def lateRequest : List Word := 0x1FFFFFFFF :: List.replicate 4 0x3030303030303030 ++ List.replicate 11 0

/-- The module 300 ms later, channel 0 a hub that is Up: 100 multiframes of 2.048 ms end at 504.8 ms. -/
def lateHub : State :=
  let full : LoadSet := { lit := 0xFFFF, active := 0xFFFF, codes := List.replicate 32 64 }
  { State.reset with
    now := 300000000, boot := { booted := true, running := true, released := true, laserOffN := false }
    links := [(0, { trained := true })], flights := [lateLoadChange], nextId := 1
    channels := [(0, { pw := { level := .spring }, bu := { step := 4, params := { rate := 32 } }, tf := { sending := true }
                       ld := { tx := full, rx := full }, pm := { mode := .hub } })] }

/-- Refutes O39: the hub's LOAD_CHANGE passes its checks, but its switch would begin after its deadline (02 R31), so that it
announces nothing. Each of the other clauses holds, by the lemma of its row. -/
theorem not_changeCommandsComplete : ¬ Obligations.ChangeCommandsComplete := by
  unfold Obligations.ChangeCommandsComplete
  intro h
  obtain ⟨-, hannounced, -⟩ := h lateHub 0 0 100 lateLoadChange lateRequest (by decide)
  have hstarted : lateHub.Started 0 0x1300 lateLoadChange := by decide
  have hclear : requestClear lateRequest = true := by decide
  have hrev : (requestContent lateRequest).rev = none := by decide
  have hfwd : (requestContent lateRequest).fwd = some (LoadSet.ofWords lateRequest) := by decide
  have hpass : lateHub.loadStatus 0 (requestContent lateRequest) = 0 := by decide
  have hacquired : (lateHub.chan 0).leafUnacquired (LoadSet.ofWords lateRequest) = false := by decide
  have hlate : lateHub.beginsBefore 0 100 (lateHub.deadline lateLoadChange) = false := by decide
  obtain ⟨t, hnext, hset⟩ := hannounced _ hstarted rfl hclear rfl hrev hfwd hpass hacquired
  obtain ⟨u, hnext', hkept⟩ := execLoadChange_announces hstarted (lead := 100) rfl hclear rfl hrev hfwd hpass hacquired
  obtain rfl : t = u := by simpa [hnext] using hnext'
  have hnone : (t.chan 0).pm.downstream = none := hkept.trans (if_neg (ne_true_of_eq_false hlate))
  exact Option.some_ne_none _ (hset.symm.trans hnone)

end Sys2Proof.Machine
end

section
/-! The slot count of a budget: the coded size never falls as the slots rise, so that the search of 10 R231 ends at the largest
count that fits. -/

namespace Sys2Proof.Machine

/-! ### Coded sizes and slot counts (10 R231) -/

theorem cdiv_mono {a b : Nat} (h : a ≤ b) (n : Nat) : cdiv a n ≤ cdiv b n :=
  Nat.div_le_div_right (Nat.sub_le_sub_right (Nat.add_le_add_right h n) 1)

theorem codedSize_offshore (s : Nat) :
    codedSize true s = 131072 + 8064 * s + 1664 * cdiv (131072 + 8064 * s) 6656 := rfl

theorem codedSize_harbour (s : Nat) :
    codedSize false s = 131072 + 8064 * s + 30 * cdiv (131072 + 8064 * s) 910 +
      28200 * cdiv (cdiv (131072 + 8064 * s) 910) 910 := rfl

theorem codedSize_mono (off : Bool) {m n : Nat} (h : m ≤ n) : codedSize off m ≤ codedSize off n := by
  have hbits : 131072 + 8064 * m ≤ 131072 + 8064 * n := by omega
  cases off with
  | true =>
    have hcodewords := cdiv_mono hbits 6656
    rw [codedSize_offshore, codedSize_offshore]
    omega
  | false =>
    have hrows := cdiv_mono hbits 910
    have hblocks := cdiv_mono hrows 910
    rw [codedSize_harbour, codedSize_harbour]
    omega

theorem lt_of_codedSize_lt {off : Bool} {m n : Nat} (h : codedSize off m < codedSize off n) : m < n :=
  Nat.lt_of_not_le fun hle => Nat.not_lt_of_le (codedSize_mono off hle) h

/-- n is the largest slot count up to a bound whose coded size is within a budget. -/
def IsLargestSlotCount (off : Bool) (g bound n : Nat) : Prop :=
  n ≤ bound ∧ codedSize off n ≤ g ∧ ∀ m, m ≤ bound → codedSize off m ≤ g → m ≤ n

theorem isLargestSlotCount_bound {off : Bool} {g n : Nat} (h : codedSize off n ≤ g) : IsLargestSlotCount off g n n :=
  ⟨Nat.le_refl n, h, fun _ hm _ => hm⟩

theorem IsLargestSlotCount.unique {off : Bool} {g bound n k : Nat} (hn : IsLargestSlotCount off g bound n)
    (hk : IsLargestSlotCount off g bound k) : n = k := by
  obtain ⟨hnle, hnfit, hnmax⟩ := hn
  obtain ⟨hkle, hkfit, hkmax⟩ := hk
  exact Nat.le_antisymm (hkmax n hnle hnfit) (hnmax k hkle hkfit)

/-- A count that does not fit bounds those that do. -/
theorem IsLargestSlotCount.of_pred {off : Bool} {g mid bound n : Nat} (hmid : g < codedSize off mid) (hle : mid ≤ bound)
    (h : IsLargestSlotCount off g (mid - 1) n) : IsLargestSlotCount off g bound n := by
  obtain ⟨hn, hfit, hmax⟩ := h
  refine ⟨by omega, hfit, fun m _ hm => hmax m ?_ hm⟩
  have hlt : m < mid := lt_of_codedSize_lt (Nat.lt_of_le_of_lt hm hmid)
  omega

theorem slotSearch_succ (off : Bool) (g fuel lo hi : Nat) :
    slotSearch off g (fuel + 1) lo hi =
      if hi ≤ lo then lo
      else if codedSize off ((lo + hi + 1) / 2) ≤ g then slotSearch off g fuel ((lo + hi + 1) / 2) hi
      else slotSearch off g fuel lo ((lo + hi + 1) / 2 - 1) := rfl

/-- The lower end of the window always fits, and no count above the upper end does; each unit of fuel halves the window. -/
theorem slotSearch_isLargest {off : Bool} {g fuel lo hi : Nat} (hfit : codedSize off lo ≤ g) (hle : lo ≤ hi)
    (hfuel : hi - lo < 2 ^ fuel) : IsLargestSlotCount off g hi (slotSearch off g fuel lo hi) := by
  induction fuel generalizing lo hi with
  | zero =>
    obtain rfl : lo = hi := by omega
    exact isLargestSlotCount_bound hfit
  | succ fuel ih =>
    rw [Nat.pow_succ] at hfuel
    rw [slotSearch_succ]
    by_cases hend : hi ≤ lo
    · obtain rfl : lo = hi := Nat.le_antisymm hle hend
      rw [if_pos hend]
      exact isLargestSlotCount_bound hfit
    · rw [if_neg hend]
      by_cases hmid : codedSize off ((lo + hi + 1) / 2) ≤ g
      · rw [if_pos hmid]
        exact ih hmid (by omega) (by omega)
      · rw [if_neg hmid]
        exact (ih hfit (by omega) (by omega)).of_pred (Nat.lt_of_not_le hmid) (by omega)

theorem slotCount_of_lt {g : Nat} {off : Bool} (h : g < codedSize off 0) : slotCount g off = none := if_pos h

theorem slotCount_of_le {g : Nat} {off : Bool} (h : codedSize off 0 ≤ g) :
    slotCount g off = some (slotSearch off g 11 0 1600) := if_neg (Nat.not_lt_of_le h)

theorem slotCount_eq_none_iff {g : Nat} {off : Bool} : slotCount g off = none ↔ g < codedSize off 0 := by
  refine ⟨fun hnone => Nat.lt_of_not_le fun hle => ?_, slotCount_of_lt⟩
  exact Option.some_ne_none _ ((slotCount_of_le hle).symm.trans hnone)

theorem slotCount_eq_some_iff {g n : Nat} {off : Bool} :
    slotCount g off = some n ↔ IsLargestSlotCount off g 1600 n := by
  constructor
  · intro hsome
    have hle : codedSize off 0 ≤ g := Nat.le_of_not_lt fun hlt =>
      Option.some_ne_none n (hsome.symm.trans (slotCount_of_lt hlt))
    obtain rfl : slotSearch off g 11 0 1600 = n := Option.some.inj ((slotCount_of_le hle).symm.trans hsome)
    exact slotSearch_isLargest hle (Nat.zero_le 1600) (by decide)
  · intro hn
    have ⟨_, hfit, _⟩ := hn
    have hle : codedSize off 0 ≤ g := Nat.le_trans (codedSize_mono off (Nat.zero_le n)) hfit
    rw [slotCount_of_le hle]
    exact congrArg some ((slotSearch_isLargest hle (Nat.zero_le 1600) (by decide)).unique hn)

/-- Settles O16: the search answers the largest count within the budget, and the coded size is the rule's and monotone. -/
theorem slotCountIsLargest : Obligations.SlotCountIsLargest := by
  unfold Obligations.SlotCountIsLargest
  refine ⟨?_, ?_, ?_, fun off _ _ h => codedSize_mono off h, by decide, by decide⟩
  · rintro x rate off _ rfl
    exact ⟨fun n => slotCount_eq_some_iff, slotCount_eq_none_iff⟩
  · rintro s _ _ rfl rfl
    exact codedSize_harbour s
  · rintro s _ rfl
    exact codedSize_offshore s

end Sys2Proof.Machine
end

section
/-! Every step keeps the invariant, and time runs forward (17 R386; 04 R65, R72; 18 R413). A row is quiet, but for the few that reach
the host window, the partition record, the powered hours or the fetch count; those keep the invariant each in its way. -/

namespace Sys2Proof.Machine

/-! ### Quiet operations, one after another -/

theorem State.Quiet.finish {s0 s : State} {f : Flight} {st : Nat} {r0 r1 r2 : Option Nat} (h : s0.Quiet s) :
    s0.Quiet (s.finish f st r0 r1 r2) := State.finish_quiet _ _ _ _ _ h

theorem State.Quiet.answer {s0 s : State} {f : Flight} {ws : List Word} {r0 r1 r2 : Option Nat} (h : s0.Quiet s) :
    s0.Quiet (s.answer f ws r0 r1 r2) := State.answer_quiet _ _ _ _ _ h

theorem State.Quiet.answerBytes {s0 s : State} {f : Flight} {bs : List Byte} (h : s0.Quiet s) :
    s0.Quiet (s.answerBytes f bs) := State.answerBytes_quiet _ _ h

theorem State.Quiet.run {s0 s : State} {f : Flight} (h : s0.Quiet s) : s0.Quiet (s.run f) := State.run_quiet _ h

theorem State.Quiet.ite {s0 a b : State} {p : Prop} [Decidable p] (ha : s0.Quiet a) (hb : s0.Quiet b) :
    s0.Quiet (if p then a else b) := quiet_ite ha hb

/-- A refusal ends the command, and what else the row would do is left to show. -/
theorem State.Quiet.refuse {s b : State} {f : Flight} {st : Nat} {p : Prop} [Decidable p] (hb : s.Quiet b) :
    s.Quiet (if p then s.finish f st else b) := .ite (.finish (.refl _)) hb

/-! ### The forms of a row -/

theorem withCmd_quiet {s t : State} {id op : Nat} {k : Flight → State} (h : withCmd s id op k = .next t)
    (hk : ∀ f, s.Quiet (k f)) : s.Quiet t := by
  obtain rfl | ⟨f, _, rfl⟩ := withCmd_cases h
  · exact .refl _
  · exact State.remark_quiet (hk f)

theorem withCmdIf_quiet {s t : State} {id op : Nat} {p : Desc → Bool} {k : Flight → State}
    (h : withCmdIf s id op p k = .next t) (hk : ∀ f, s.Quiet (k f)) : s.Quiet t := by
  obtain rfl | ⟨f, _, _, _, rfl⟩ := withCmdIf_cases h
  · exact .refl _
  · exact State.remark_quiet (hk f)

theorem withTrib_quiet {s t : State} {id op : Nat} {k : Flight → Nat → Trib → State} (h : withTrib s id op k = .next t)
    (hk : ∀ f i x, s.Quiet (k f i x)) : s.Quiet t :=
  withCmd_quiet h fun f => by
    split
    · exact hk f ..
    · exact .finish (.refl _)

theorem withCipher_quiet {s t : State} {id op : Nat} {k : Flight → Nat → Cipher → State}
    (h : withCipher s id op k = .next t) (hk : ∀ f i x, s.Quiet (k f i x)) : s.Quiet t :=
  withCmd_quiet h fun f => by
    split
    · exact hk f ..
    · exact .finish (.refl _)

theorem withMode_quiet {s t : State} {id op : Nat} {m : P2Mode} {k : Flight → Nat → State}
    (h : withMode s id op m k = .next t) (hk : ∀ f c, s.Quiet (k f c)) : s.Quiet t :=
  withCmd_quiet h fun f => .ite (hk f _) (.finish (.refl _))

theorem occurs_quiet {s k t : State} {p : Bool} (h : occurs s p k = .next t) (hk : s.Quiet k) : s.Quiet t := by
  obtain rfl | ⟨_, rfl⟩ := occurs_cases h
  · exact .refl _
  · exact State.remark_quiet hk

theorem occursWith_quiet {α : Type} {s t : State} {o : Option α} {k : α → State} (h : occursWith s o k = .next t)
    (hk : ∀ a, s.Quiet (k a)) : s.Quiet t := by
  obtain rfl | ⟨a, _, rfl⟩ := occursWith_cases h
  · exact .refl _
  · exact State.remark_quiet (hk a)

/-! ### Two rows whose effect is a partial operation -/

theorem State.advance_quiet {s u : State} {c : Nat} {cd : Int} (h : s.advance c cd = some u) : s.Quiet u := by
  unfold State.advance at h
  dsimp only at h
  split at h
  · obtain ⟨_, h⟩ := Option.ite_none_right_eq_some.1 h
    cases h
    exact State.endRxCal_quiet _ (.refl _)
  · obtain ⟨_, h⟩ := Option.ite_none_right_eq_some.1 h
    cases h
    exact State.rxEnter_quiet _ _ (.refl _)
  · cases h
    exact State.rxEnter_quiet _ _ (.refl _)
  · obtain ⟨_, h⟩ := Option.ite_none_right_eq_some.1 h
    cases h
    exact State.track_quiet _ _ (.refl _)
  · cases h

theorem State.levelStep_quiet {s u : State} {c : Nat} (h : s.levelStep c = some u) : s.Quiet u := by
  have hat := State.at_quiet (s.chan c).pw.stepDue (.refl s)
  unfold State.levelStep at h
  dsimp only at h
  split at h <;> cases h
  · exact State.onPw_quiet _ _ hat
  · exact State.onPw_quiet _ _ hat
  · exact .ite (State.levelFailed_quiet _ hat) (State.levelDone_quiet _ hat)
  · exact State.onPw_quiet _ _ hat
  · exact State.levelDone_quiet _ hat

/-! ### The rows of each chapter -/

section
variable {s t : State}

-- Memory

theorem execScrubVisit_quiet {k x newer} (h : execScrubVisit k x newer s = .next t) : s.Quiet t :=
  occurs_quiet h <| State.scrubVisit_quiet _ _ _ <| State.visitMade_quiet _ <| State.demandErrors_quiet _ _ (.refl _)

theorem execMemCopyIn_quiet {id bs} (h : execMemCopyIn id bs s = .next t) : s.Quiet t :=
  withCmd_quiet h fun _ => .refuse <| .refuse <| .run <| ⟨rfl, Nat.le_refl _, .refl _⟩

theorem execMemScrubConfig_quiet {id} (h : execMemScrubConfig id s = .next t) : s.Quiet t :=
  withCmd_quiet h fun _ => .refuse <| .finish <| State.onSram_quiet _ _ (.refl _)

theorem execMemRetire_quiet {id} (h : execMemRetire id s = .next t) : s.Quiet t :=
  withCmd_quiet h fun _ => .refuse <| .refuse <| .refuse <| .run <| State.setSram_quiet _ _ (.refl _)

-- Loading

theorem execLoadPlan_quiet {id} (h : execLoadPlan id s = .next t) : s.Quiet t :=
  withCmd_quiet h fun _ => by
    dsimp only
    split
    · exact .finish (.refl _)
    · exact .answer (.refl _)

theorem execLoadConfig_quiet {id} (h : execLoadConfig id s = .next t) : s.Quiet t :=
  withCmd_quiet h fun _ => .finish <| State.loadConfig_quiet _ _ _ (.refl _)

theorem execLinkQualityAlarm_quiet {c} (h : execLinkQualityAlarm c s = .next t) : s.Quiet t :=
  occursWith_quiet h fun _ => State.onLd_quiet _ _ <| State.lqEvent_quiet _ _ (.refl _)

-- Promise

theorem execLatencyMessageDue_quiet {c} (h : execLatencyMessageDue c s = .next t) : s.Quiet t :=
  occurs_quiet h <| State.sendLatency_quiet _ (.refl _)

theorem execTribLatencyQuery_quiet {id} (h : execTribLatencyQuery id s = .next t) : s.Quiet t :=
  withCmd_quiet h fun _ => by
    split
    · exact .finish (.refl _)
    · exact .answer <| State.reported_quiet _ <| State.setTrib_quiet _ _ (.refl _)

theorem execTribPromiseRelease_quiet {id ws} (h : execTribPromiseRelease id ws s = .next t) : s.Quiet t :=
  withCmdIf_quiet h fun _ => State.release_quiet _ _ _ (.refl _)

theorem execTribPromiseReinstate_quiet {id ws} (h : execTribPromiseReinstate id ws s = .next t) : s.Quiet t :=
  withCmdIf_quiet h fun _ => State.release_quiet _ _ _ (.refl _)

-- Tributaries

theorem execTribProvision_quiet {id ws} (h : execTribProvision id ws s = .next t) : s.Quiet t :=
  withTrib_quiet h fun _ _ _ => .refuse <| .refuse <| .refuse <| .finish <| State.writeBuf_quiet _ _ _ <|
    State.provision_quiet _ _ (.refl _)

theorem execTribModify_quiet {id ws} (h : execTribModify id ws s = .next t) : s.Quiet t :=
  withTrib_quiet h fun _ _ _ => .refuse <| .refuse <| .refuse <| .refuse <| .finish <| State.setTrib_quiet _ _ (.refl _)

theorem execTribEnable_quiet {id} (h : execTribEnable id s = .next t) : s.Quiet t :=
  withCmdIf_quiet h fun _ => by
    split
    · exact .finish (.refl _)
    · split
      · exact .finish (.refl _)
      · exact .finish (.refl _)
      · exact .finish (.refl _)
      · exact .finish (.refl _)
      · exact .finish <| State.setTrib_quiet _ _ (.refl _)

theorem execTribDisable_quiet {id} (h : execTribDisable id s = .next t) : s.Quiet t :=
  withCmdIf_quiet h fun _ => by
    split
    · exact .finish (.refl _)
    · split
      · exact .finish (.refl _)
      · exact .finish (.refl _)
      · exact .finish (.refl _)
      · exact State.disableTrib_quiet _ _ (.refl _)
      · exact State.disableTrib_quiet _ _ (.refl _)

theorem execTribDelete_quiet {id} (h : execTribDelete id s = .next t) : s.Quiet t :=
  withTrib_quiet h fun _ _ _ => .refuse <| .finish <| State.oweLatency_quiet _ <| State.onChan_quiet _ _ (.refl _)

theorem execTribQuery_quiet {id} (h : execTribQuery id s = .next t) : s.Quiet t :=
  withTrib_quiet h fun _ _ _ => .answer (.refl _)

theorem execTribCounters_quiet {id} (h : execTribCounters id s = .next t) : s.Quiet t :=
  withTrib_quiet h fun _ _ _ => .answer (.refl _)

theorem execTributaryFailed_quiet {i} (h : execTributaryFailed i s = .next t) : s.Quiet t :=
  occursWith_quiet h fun _ => State.failTrib_quiet _ _ (.refl _)

theorem execTributaryRecovered_quiet {i} (h : execTributaryRecovered i s = .next t) : s.Quiet t :=
  occurs_quiet h <| State.raise_quiet _ _ _ _ _ _ <| State.onTrib_quiet _ _ (.refl _)

-- Slots

theorem execSlotWrite_quiet {id ws} (h : execSlotWrite id ws s = .next t) : s.Quiet t :=
  withCmd_quiet h fun _ => .refuse <| .refuse <| .refuse <| .refuse <| .refuse <| .finish <|
    State.writeEntries_quiet _ _ _ _ (.refl _)

theorem execSlotRead_quiet {id} (h : execSlotRead id s = .next t) : s.Quiet t :=
  withCmd_quiet h fun _ => .refuse <| .refuse <| .finish <| State.writeBuf_quiet _ _ _ (.refl _)

theorem execSlotCopy_quiet {id} (h : execSlotCopy id s = .next t) : s.Quiet t :=
  withCmd_quiet h fun _ => .refuse <| .finish <| State.onSl_quiet _ _ (.refl _)

theorem execBankSwitch_quiet {id} (h : execBankSwitch id s = .next t) : s.Quiet t :=
  withCmd_quiet h fun _ => by
    dsimp only
    split
    · exact .refuse <| .refuse <| .refuse <| .refuse <| State.propose_quiet _ _ _ _ (.refl _)
    · exact .finish (.refl _)

theorem execBankArm_quiet {id} (h : execBankArm id s = .next t) : s.Quiet t :=
  withCmdIf_quiet h fun _ => by
    dsimp only
    split
    · exact .refuse <| .refuse <| .refuse <| .refuse <| .finish <|
      foldl_quiet _ _ _ (fun _ _ h => State.onSl_quiet _ _ h) (.refl _)
    · exact .finish (.refl _)

theorem execBankDisarm_quiet {id} (h : execBankDisarm id s = .next t) : s.Quiet t :=
  withCmdIf_quiet h fun _ => by
    dsimp only
    split
    · exact .refuse <| .refuse <| .finish <| foldl_quiet _ _ _ (fun _ _ h => State.onSl_quiet _ _ h) (.refl _)
    · exact .finish (.refl _)

theorem execBankStatus_quiet {id} (h : execBankStatus id s = .next t) : s.Quiet t := withCmd_quiet h fun _ => .answer (.refl _)

theorem execGroupCreate_quiet {id} (h : execGroupCreate id s = .next t) : s.Quiet t :=
  withCmd_quiet h fun _ => .refuse <| .refuse <| .refuse <| .refuse <| .refuse <| .finish <| State.restateAll_quiet _ _ _ <|
    State.alignFrames_quiet _ <| State.setGroup_quiet _ _ (.refl _)

theorem execGroupDelete_quiet {id} (h : execGroupDelete id s = .next t) : s.Quiet t :=
  withCmd_quiet h fun _ => .refuse <| .refuse <| .refuse <| .refuse <| .finish <| State.dissolve_quiet _ (.refl _)

theorem execGroupQuery_quiet {id} (h : execGroupQuery id s = .next t) : s.Quiet t :=
  withCmd_quiet h fun _ => .refuse <| .answer (.refl _)

theorem execGroupRealign_quiet {id} (h : execGroupRealign id s = .next t) : s.Quiet t :=
  withCmd_quiet h fun _ => .refuse <| .refuse <| .finish <| State.groupWindow_quiet _ _ <| State.alignGroup_quiet _ (.refl _)

-- Exchange

theorem execLoadChange_quiet {id ws} (h : execLoadChange id ws s = .next t) : s.Quiet t :=
  withCmd_quiet h fun _ => by
    split
    · exact .finish (.refl _)
    · exact .refuse <| State.loadChange_quiet _ _ _ (.refl _)

theorem execFecProfile_quiet {id ws} (h : execFecProfile id ws s = .next t) : s.Quiet t :=
  withCmd_quiet h fun _ => by
    dsimp only
    split
    · exact .finish (.refl _)
    · exact .refuse <| .ite (State.loadChange_quiet _ _ _ (.refl _)) <| .refuse <| State.lxStart_quiet _ _ _ (.refl _)

theorem execFecAlarmSet_quiet {id} (h : execFecAlarmSet id s = .next t) : s.Quiet t :=
  withCmd_quiet h fun _ => .finish <| State.onFec_quiet _ _ (.refl _)

theorem execFecBerAlarm_quiet {c} (h : execFecBerAlarm c s = .next t) : s.Quiet t :=
  occursWith_quiet h fun _ => State.raise_quiet _ _ _ _ _ _ <| State.onFec_quiet _ _ (.refl _)

theorem execUncorrectableRun_quiet {c} (h : execUncorrectableRun c s = .next t) : s.Quiet t :=
  occurs_quiet h <| State.raise_quiet _ _ _ _ _ _ <| State.onFec_quiet _ _ (.refl _)

-- Calibration

theorem execCalRunDue_quiet {c tx} (h : execCalRunDue c tx s = .next t) : s.Quiet t :=
  occurs_quiet h <| .ite (State.onCal_quiet _ _ <| State.onCal_quiet _ _ <| State.at_quiet _ (.refl _)) <|
    State.calStart_quiet _ _ _ _ <| State.onCal_quiet _ _ <| State.at_quiet _ (.refl _)

theorem execCalWindowEnd_quiet {c tx e} (h : execCalWindowEnd c tx e s = .next t) : s.Quiet t :=
  occursWith_quiet h fun _ => State.calCheck_quiet _ _ _ _ <| .ite (State.at_quiet _ (.refl _)) <| .refl _

theorem execCalValuesApply_quiet {c tx} (h : execCalValuesApply c tx s = .next t) : s.Quiet t :=
  occursWith_quiet h fun _ => State.calValues_quiet _ _ _ _ <| .ite (State.at_quiet _ (.refl _)) <| .refl _

theorem execCalConfig_quiet {id} (h : execCalConfig id s = .next t) : s.Quiet t :=
  withCmd_quiet h fun _ => .refuse <| .finish <| .ite (.ite (State.onCal_quiet _ _ (.refl _)) <| State.calResume_quiet _ _ <|
    State.calAbandon_quiet _ _ _ <| State.onCal_quiet _ _ (.refl _)) <| State.calResume_quiet _ _ <|
    State.calAbandon_quiet _ _ _ <| .ite (State.onCal_quiet _ _ (.refl _)) <| State.calResume_quiet _ _ <|
    State.calAbandon_quiet _ _ _ <| State.onCal_quiet _ _ (.refl _)

theorem execCalRun_quiet {id} (h : execCalRun id s = .next t) : s.Quiet t :=
  withCmd_quiet h fun _ => .refuse <| .ite (.finish (.refl _)) <| .run <| State.calJoin_quiet _ _ _ <|
    State.calJoin_quiet _ _ _ <| State.onCal_quiet _ _ (.refl _)

-- Ageing

theorem execTrendSample_quiet {c x} (h : execTrendSample c x s = .next t) : s.Quiet t :=
  occurs_quiet h <| State.takeSample_quiet _ _ (.refl _)

theorem execHourlyRecord_quiet {c} (h : execHourlyRecord c s = .next t) : s.Quiet t :=
  occurs_quiet h <| State.hourlyRecord_quiet _ (.refl _)

theorem execDailyRecord_quiet {c} (h : execDailyRecord c s = .next t) : s.Quiet t :=
  occurs_quiet h <| State.dailyRecord_quiet _ (.refl _)

theorem execAgeConfig_quiet {id} (h : execAgeConfig id s = .next t) : s.Quiet t :=
  withCmd_quiet h fun _ => .refuse <| .finish <| State.onAge_quiet _ _ (.refl _)

theorem execAgeLedgerRead_quiet {id} (h : execAgeLedgerRead id s = .next t) : s.Quiet t :=
  withCmd_quiet h fun _ => .refuse <| .answer (.refl _)

theorem execAgeProposal_quiet {id} (h : execAgeProposal id s = .next t) : s.Quiet t :=
  withCmd_quiet h fun _ => by
    split
    · exact .answer (.refl _)
    · exact .finish (.refl _)

-- Rings

theorem execRingEnable_quiet {n r v} (h : execRingEnable n r v s = .next t) : s.Quiet t :=
  occurs_quiet h <| State.ringEnable_quiet _ _ _ (.refl _)

theorem execRingDisable_quiet {n r v} (h : execRingDisable n r v s = .next t) : s.Quiet t :=
  occurs_quiet h <| State.ringDisable_quiet _ _ _ (.refl _)

theorem execNudgeGroup_quiet {n v} (h : execNudgeGroup n v s = .next t) : s.Quiet t :=
  occurs_quiet h <| State.nudge_quiet _ _ (.refl _)

theorem execDoorbellReadDone_quiet {n g ws} (h : execDoorbellReadDone n g ws s = .next t) : s.Quiet t :=
  occursWith_quiet h fun _ => State.doorbellRead_quiet _ _ _ _ (.refl _)

theorem execDoorbellSweep_quiet {n} (h : execDoorbellSweep n s = .next t) : s.Quiet t :=
  occursWith_quiet h fun _ => State.readAll_quiet _ _ <| State.onLink_quiet _ _ <| State.at_quiet _ (.refl _)

theorem execCommandStart_quiet {id} (h : execCommandStart id s = .next t) : s.Quiet t :=
  occursWith_quiet h fun _ => State.start_quiet _ _ (.refl _)

theorem execUndefinedOpcode_quiet {id} (h : execUndefinedOpcode id s = .next t) : s.Quiet t :=
  occursWith_quiet h fun _ => .finish (.refl _)

theorem execDmaError_quiet {r} (h : execDmaError r s = .next t) : s.Quiet t :=
  occurs_quiet h <| State.haltRing_quiet _ _ (.refl _)

theorem execModerationTimer_quiet {r} (h : execModerationTimer r s = .next t) : s.Quiet t :=
  occursWith_quiet h fun _ => State.signal_quiet _ <| State.at_quiet _ (.refl _)

theorem execEventBatchWrite_quiet {source} (h : execEventBatchWrite source s = .next t) : s.Quiet t :=
  occursWith_quiet h fun _ => State.writeBatch_quiet _ _ (.refl _)

theorem execNop_quiet {id} (h : execNop id s = .next t) : s.Quiet t := withCmd_quiet h fun _ => .finish (.refl _)

theorem execRingQuery_quiet {id} (h : execRingQuery id s = .next t) : s.Quiet t :=
  withCmd_quiet h fun _ => .refuse <| .ite (.answer (.refl _)) <| .finish (.refl _)

theorem execEventFilter_quiet {id} (h : execEventFilter id s = .next t) : s.Quiet t :=
  withCmd_quiet h fun _ => .refuse <| .refuse <| .refuse <| .finish <| State.setRing_quiet _ _ (.refl _)

theorem execBufPost_quiet {id} (h : execBufPost id s = .next t) : s.Quiet t :=
  withCmd_quiet h fun _ => .ite (.run <| State.onRing_quiet _ _ (.refl _)) <| .finish (.refl _)

-- Partition

theorem execPartHistory_quiet {id} (h : execPartHistory id s = .next t) : s.Quiet t :=
  withCmd_quiet h fun _ => State.answerEntries_quiet _ _ (.refl _)

theorem execPartChange_quiet {id ws} (h : execPartChange id ws s = .next t) : s.Quiet t :=
  withCmd_quiet h fun _ => .ite (.run <| ⟨rfl, Nat.le_refl _, .refl _⟩) <| .finish (.refl _)

-- Random

theorem execDrbgReseed_quiet (h : execDrbgReseed s = .next t) : s.Quiet t :=
  occurs_quiet h <| .ite (State.onSec_quiet _ <| .ite (.refl _) <| State.at_quiet _ (.refl _)) <| State.reseed_quiet <|
    .ite (.refl _) <| State.at_quiet _ (.refl _)

theorem execEntropyHealthFailure_quiet {raw} (h : execEntropyHealthFailure raw s = .next t) : s.Quiet t :=
  occursWith_quiet h fun _ => State.sourceFails_quiet _ (.refl _)

theorem execEntropyStartupTest_quiet {raw} (h : execEntropyStartupTest raw s = .next t) : s.Quiet t :=
  occurs_quiet h <| by
    dsimp only
    split
    · exact .ite (.ite (State.raise_quiet _ _ _ _ _ _ <| State.onSec_quiet _ <| State.at_quiet _ (.refl _)) <|
      State.at_quiet _ (.refl _)) <| State.instantiate_quiet <| .ite (State.raise_quiet _ _ _ _ _ _ <| State.onSec_quiet _ <|
      State.at_quiet _ (.refl _)) <| State.at_quiet _ (.refl _)
    · exact .ite (State.onSec_quiet _ <| State.at_quiet _ (.refl _)) <| State.sourceFails_quiet _ <| State.at_quiet _ (.refl _)

-- Security

theorem execFwImageWrite_quiet {id bs} (h : execFwImageWrite id bs s = .next t) : s.Quiet t :=
  withCmd_quiet h fun _ => .run <| State.onSec_quiet _ (.refl _)

theorem execImageWriteDone_quiet {id} (h : execImageWriteDone id s = .next t) : s.Quiet t :=
  occursWith_quiet h fun _ => State.imageDone_quiet _ _ (.refl _)

theorem execFwActivate_quiet {id} (h : execFwActivate id s = .next t) : s.Quiet t :=
  withCmd_quiet h fun _ => by
    split
    · exact .finish (.refl _)
    · exact .refuse <| .refuse <| .run <| State.controllerStop_quiet <| State.onSec_quiet _ (.refl _)

theorem execFwConfirm_quiet {id} (h : execFwConfirm id s = .next t) : s.Quiet t :=
  withCmd_quiet h fun _ => .ite (.finish <| State.onSec_quiet _ (.refl _)) <| .finish (.refl _)

theorem execFwFloorRaise_quiet {id} (h : execFwFloorRaise id s = .next t) : s.Quiet t :=
  withCmd_quiet h fun _ => .ite (.run <| State.onSec_quiet _ (.refl _)) <| .finish (.refl _)

theorem execKekEstablish_quiet {id bs} (h : execKekEstablish id bs s = .next t) : s.Quiet t :=
  withCmd_quiet h fun _ => .refuse <| .refuse <| State.kekEstablish_quiet _ _ _ (.refl _)

theorem execIdCertRead_quiet {id} (h : execIdCertRead id s = .next t) : s.Quiet t :=
  withCmd_quiet h fun _ => .finish <| State.writeBuf_quiet _ _ _ (.refl _)

theorem execAttestReport_quiet {id nonce} (h : execAttestReport id nonce s = .next t) : s.Quiet t :=
  withCmd_quiet h fun _ => .finish <| State.writeBuf_quiet _ _ _ <| State.draw_quiet (.refl _)

theorem execLedgerRead_quiet {id} (h : execLedgerRead id s = .next t) : s.Quiet t :=
  withCmd_quiet h fun _ => State.answerEntries_quiet _ _ (.refl _)

-- CipherOps

theorem execCipherSetup_quiet {id ws} (h : execCipherSetup id ws s = .next t) : s.Quiet t :=
  withCipher_quiet h fun _ _ _ => .refuse <| .finish <| State.clash_quiet _ _ (.refl _)

theorem execCipherQuery_quiet {id} (h : execCipherQuery id s = .next t) : s.Quiet t :=
  withCipher_quiet h fun _ _ _ => .answer (.refl _)

theorem execKeyLoad_quiet {id bs} (h : execKeyLoad id bs s = .next t) : s.Quiet t :=
  withCipher_quiet h fun _ _ _ => .refuse <| by
    split
    · exact .finish (.refl _)
    · exact .refuse <| .refuse <| .refuse <| .finish <| State.setCipherOf_quiet _ _ (.refl _)

theorem execKeyRoll_quiet {id} (h : execKeyRoll id s = .next t) : s.Quiet t :=
  withCipher_quiet h fun _ _ _ => .refuse <| .refuse <| .run <| State.setCipherOf_quiet _ _ (.refl _)

theorem execKeyErase_quiet {id} (h : execKeyErase id s = .next t) : s.Quiet t :=
  withCipher_quiet h fun _ _ _ => .finish <| State.setCipherOf_quiet _ _ (.refl _)

theorem execCipherCounters_quiet {id} (h : execCipherCounters id s = .next t) : s.Quiet t :=
  withCipher_quiet h fun _ _ _ => .answer (.refl _)

theorem execKeyUsageWarning_quiet {i} (h : execKeyUsageWarning i s = .next t) : s.Quiet t :=
  occursWith_quiet h fun _ => State.raise_quiet _ _ _ _ _ _ <| State.setCipherOf_quiet _ _ (.refl _)

theorem execKeyExhausted_quiet {i} (h : execKeyExhausted i s = .next t) : s.Quiet t :=
  occursWith_quiet h fun _ => State.exhaust_quiet _ _ (.refl _)

theorem execOldKeyErase_quiet {i} (h : execOldKeyErase i s = .next t) : s.Quiet t :=
  occurs_quiet h <| State.setCipherOf_quiet _ _ (.refl _)

theorem execMaskReseed_quiet {k} (h : execMaskReseed k s = .next t) : s.Quiet t :=
  occurs_quiet h <| .ite (State.raise_quiet _ _ _ _ _ _ <| State.draw_quiet <| State.setMaskGen_quiet _ _ <|
    State.at_quiet _ (.refl _)) <| State.draw_quiet <| State.setMaskGen_quiet _ _ <| State.at_quiet _ (.refl _)

theorem execJobKeyLoad_quiet {id bs} (h : execJobKeyLoad id bs s = .next t) : s.Quiet t :=
  withCmd_quiet h fun _ => .refuse <| .refuse <| by
    split
    · exact .finish (.refl _)
    · refine .refuse <| .refuse <| .finish ?_
      have hdrawn := State.request_quiet 4 (.refl s)
      generalize s.request 4 = u at hdrawn ⊢
      exact State.quiet_of hdrawn rfl rfl rfl

theorem execJobKeyErase_quiet {id} (h : execJobKeyErase id s = .next t) : s.Quiet t :=
  withCmd_quiet h fun _ => .refuse <| .finish <| State.dropJobs_quiet _ <| ⟨rfl, Nat.le_refl _, .refl _⟩

theorem execJobCipher_quiet {id bs} (h : execJobCipher id bs s = .next t) : s.Quiet t :=
  withCmd_quiet h fun _ => .refuse <| .refuse <| by
    split
    · exact .finish (.refl _)
    · exact .refuse <| .refuse <| State.jobStart_quiet _ _ _ (.refl _)

theorem execCryptoJobDone_quiet {id} (h : execCryptoJobDone id s = .next t) : s.Quiet t :=
  occursWith_quiet h fun _ => State.jobDone_quiet _ _ (.refl _)

-- Timing

theorem execCandidateActivityLoss_quiet {x} (h : execCandidateActivityLoss x s = .next t) : s.Quiet t :=
  occurs_quiet h <| State.selectOnce_quiet _ <| foldl_quiet _ _ _ (fun _ _ h => State.dropActivity_quiet _ h) <|
    State.onTm_quiet _ (.refl _)

theorem execHoldoffExpiry_quiet {k} (h : execHoldoffExpiry k s = .next t) : s.Quiet t :=
  occursWith_quiet h fun _ => State.selectOnce_quiet _ <| State.disqualify_quiet _ _ _ (.refl _)

theorem execCandidateQualified_quiet {k} (h : execCandidateQualified k s = .next t) : s.Quiet t :=
  occurs_quiet h <| State.selectOnce_quiet _ <| State.raise_quiet _ _ _ _ _ _ <| State.onCand_quiet _ _ (.refl _)

theorem execTimingSecond_quiet {ofs ctrl mean} (h : execTimingSecond ofs ctrl mean s = .next t) : s.Quiet t :=
  occurs_quiet h <| State.timingSecond_quiet _ _ _ (.refl _)

theorem execLoopBwStep_quiet (h : execLoopBwStep s = .next t) : s.Quiet t := occurs_quiet h <| State.bwStep_quiet (.refl _)

theorem execOscWarm_quiet (h : execOscWarm s = .next t) : s.Quiet t :=
  occurs_quiet h <| State.raise_quiet _ _ _ _ _ _ <| State.onTm_quiet _ <| State.at_quiet _ (.refl _)

theorem execHoGrade_quiet (h : execHoGrade s = .next t) : s.Quiet t :=
  occurs_quiet h <| State.raise_quiet _ _ _ _ _ _ <| State.onTm_quiet _ (.refl _)

theorem execOscAgeingFit_quiet (h : execOscAgeingFit s = .next t) : s.Quiet t :=
  occurs_quiet h <| State.ageingFit_quiet (.refl _)

theorem execTimingCandSet_quiet {x} (h : execTimingCandSet x s = .next t) : s.Quiet t :=
  withCmd_quiet h fun _ => .refuse <| .refuse <| .finish <| State.setCandidate_quiet _ _ _ <| State.onTm_quiet _ (.refl _)

theorem execTimingConfig_quiet {id} (h : execTimingConfig id s = .next t) : s.Quiet t :=
  withCmd_quiet h fun _ => .refuse <| .finish <| State.reselect_quiet _ <| State.onTm_quiet _ (.refl _)

theorem execChanTiming_quiet {id} (h : execChanTiming id s = .next t) : s.Quiet t :=
  withCmd_quiet h fun _ => .refuse <| .ite (.finish <| State.onChan_quiet _ _ (.refl _)) <| .run <|
    State.onChan_quiet _ _ (.refl _)

-- Monitor

theorem execMonScanSet_quiet {id ws} (h : execMonScanSet id ws s = .next t) : s.Quiet t :=
  withCmd_quiet h fun _ => .refuse <| .refuse <| .finish <| State.setConv_quiet _ _ <| State.at_quiet _ (.refl _)

theorem execMonFilterSet_quiet {id ws} (h : execMonFilterSet id ws s = .next t) : s.Quiet t :=
  withCmd_quiet h fun _ => .refuse <| .refuse <| .refuse <| .finish <| State.setConv_quiet _ _ (.refl _)

theorem execMonFilterRun_quiet {id} (h : execMonFilterRun id s = .next t) : s.Quiet t :=
  withCmd_quiet h fun _ => .refuse <| .refuse <| .finish <| State.setConv_quiet _ _ (.refl _)

theorem execMonStream_quiet {id} (h : execMonStream id s = .next t) : s.Quiet t :=
  withCmd_quiet h fun _ => .refuse <| .refuse <| .finish <| State.setConv_quiet _ _ (.refl _)

theorem execMonRead_quiet {id} (h : execMonRead id s = .next t) : s.Quiet t :=
  withCmd_quiet h fun _ => .refuse <| .refuse <| .run <| State.onConv_quiet _ _ (.refl _)

theorem execUrgentRequestDone_quiet {id codes x} (h : execUrgentRequestDone id codes x s = .next t) : s.Quiet t := by
  unfold execUrgentRequestDone at h
  split at h
  · exact occurs_quiet h <| State.onConv_quiet _ _ <| State.at_quiet _ (.refl _)
  · exact occursWith_quiet h fun _ => State.urgentDone_quiet _ _ _ (.refl _)

theorem execMonTest_quiet {id} (h : execMonTest id s = .next t) : s.Quiet t :=
  withCmd_quiet h fun _ => .refuse <| .refuse <| .refuse <| .refuse <| .run <| State.setConv_quiet _ _ (.refl _)

theorem execTestEnd_quiet {n codes} (h : execTestEnd n codes s = .next t) : s.Quiet t :=
  occursWith_quiet h fun _ => State.testEnd_quiet _ _ _ (.refl _)

theorem execMonRef_quiet {id extOk} (h : execMonRef id extOk s = .next t) : s.Quiet t :=
  withCmd_quiet h fun _ => .refuse <| .refuse <| .finish <| State.onConv_quiet _ _ <| State.at_quiet _ (.refl _)

theorem execMonSelfcal_quiet {id} (h : execMonSelfcal id s = .next t) : s.Quiet t :=
  withCmd_quiet h fun _ => .refuse <| .run <| State.setConv_quiet _ _ (.refl _)

theorem execSelfcalEnd_quiet {n offset gain} (h : execSelfcalEnd n offset gain s = .next t) : s.Quiet t :=
  occursWith_quiet h fun _ => State.selfcalEnd_quiet _ _ _ _ _ (.refl _)

theorem execExtRefLost_quiet (h : execExtRefLost s = .next t) : s.Quiet t :=
  occurs_quiet h <| State.extRefLost_quiet (.refl _)

theorem execDecimRecord_quiet {n i codes} (h : execDecimRecord n i codes s = .next t) : s.Quiet t :=
  occurs_quiet h <| State.decimate_quiet _ _ _ <| State.at_quiet _ (.refl _)

theorem execResampleReport_quiet {n i count at_ w} (h : execResampleReport n i count at_ w s = .next t) : s.Quiet t :=
  occurs_quiet h <| State.report_quiet _ _ _ _ <| State.at_quiet _ (.refl _)

theorem execMonHistory_quiet {id} (h : execMonHistory id s = .next t) : s.Quiet t :=
  withCmd_quiet h fun _ => .refuse <|
    State.dmaRead_quiet _ _ _ _ _ _ (fun _ a => State.dmaRead_quiet _ _ _ _ _ _ (fun _ a => .finish <|
    State.writeBuf_quiet _ _ _ a) a) (.refl _)

theorem execFastCfg_quiet {id} (h : execFastCfg id s = .next t) : s.Quiet t :=
  withCmd_quiet h fun _ => .refuse <| .finish <| State.onConv_quiet _ _ (.refl _)

-- Multipoint

theorem execLeafLost_quiet {c j} (h : execLeafLost c j s = .next t) : s.Quiet t :=
  occursWith_quiet h fun _ => State.loseLeaf_quiet _ _ _ <| State.at_quiet _ (.refl _)

theorem execP2mpMode_quiet {id} (h : execP2mpMode id s = .next t) : s.Quiet t :=
  withCmd_quiet h fun _ => .refuse <| .refuse <| .refuse <| .refuse <| .finish <| State.restate_quiet _ _ _ <|
    State.onPm_quiet _ _ (.refl _)

theorem execLeafSet_quiet {id ws} (h : execLeafSet id ws s = .next t) : s.Quiet t :=
  withCmd_quiet h fun _ => .refuse <| .refuse <| .refuse <| .refuse <| .finish <| State.onPm_quiet _ _ <|
    State.leavesPair_quiet _ _ (.refl _)

theorem execLeafQuery_quiet {id} (h : execLeafQuery id s = .next t) : s.Quiet t :=
  withMode_quiet h fun _ _ => .answer (.refl _)

theorem execP2mpConfig_quiet {id} (h : execP2mpConfig id s = .next t) : s.Quiet t :=
  withMode_quiet h fun _ _ => .refuse <| .refuse <| .refuse <| .finish <| State.onPm_quiet _ _ (.refl _)

theorem execLeafLoad_quiet {id ws} (h : execLeafLoad id ws s = .next t) : s.Quiet t :=
  withMode_quiet h fun _ _ => by
    dsimp only
    split
    · exact .refuse <| .refuse <| .refuse <| State.inPair_quiet _ _ _ (fun _ a => State.lxStart_quiet _ _ _ a) (.refl _)
    · exact .finish (.refl _)

theorem execBurstCounters_quiet {id} (h : execBurstCounters id s = .next t) : s.Quiet t :=
  withMode_quiet h fun _ _ => .answer (.refl _)

theorem execLeafStatus_quiet {id} (h : execLeafStatus id s = .next t) : s.Quiet t :=
  withMode_quiet h fun _ _ => .answer (.refl _)

theorem execLeafJoin_quiet {id} (h : execLeafJoin id s = .next t) : s.Quiet t :=
  withMode_quiet h fun _ _ => .refuse <| .finish <| State.onPm_quiet _ _ (.refl _)

-- Receiver

theorem execLossOfSignal_quiet {c codes} (h : execLossOfSignal c codes s = .next t) : s.Quiet t :=
  occurs_quiet h <| .ite (State.loseAcq_quiet _ _ _ <| State.onConv_quiet _ _ (.refl _)) <| State.onConv_quiet _ _ (.refl _)

theorem execSignalPresent_quiet {c least} (h : execSignalPresent c least s = .next t) : s.Quiet t :=
  occurs_quiet h <| .ite (.ite (State.acquire_quiet _ <| State.onConv_quiet _ _ (.refl _)) <| State.startRxCal_quiet _ <|
    State.onConv_quiet _ _ (.refl _)) <| State.onConv_quiet _ _ (.refl _)

theorem execLossOfAcquisition_quiet {c cause v} (h : execLossOfAcquisition c cause v s = .next t) : s.Quiet t :=
  occurs_quiet h <| State.loseAcq_quiet _ _ _ (.refl _)

theorem execRxStateLimitExpiry_quiet {c} (h : execRxStateLimitExpiry c s = .next t) : s.Quiet t :=
  occursWith_quiet h fun _ => .ite (State.endRxCal_quiet _ <| State.calExpired_quiet _ <| State.at_quiet _ (.refl _)) <|
    State.nextSearch_quiet _ <| State.onRx_quiet _ _ <| State.at_quiet _ (.refl _)

theorem execBlindSearchRepeat_quiet {c} (h : execBlindSearchRepeat c s = .next t) : s.Quiet t :=
  occursWith_quiet h fun _ => State.onRx_quiet _ _ <| State.rxEnter_quiet _ _ <| State.at_quiet _ (.refl _)

theorem execRxStateAdvance_quiet {c cd} (h : execRxStateAdvance c cd s = .next t) : s.Quiet t := by
  obtain rfl | ⟨u, hu, rfl⟩ := occursWith_cases h
  · exact .refl _
  · exact State.remark_quiet (State.advance_quiet (Option.ite_none_right_eq_some.1 hu).2)

theorem execPilotLock_quiet {c mask odd} (h : execPilotLock c mask odd s = .next t) : s.Quiet t :=
  occurs_quiet h <| State.pilotLocked_quiet _ _ _ (.refl _)

theorem execSubcarrierLockLost_quiet {c i} (h : execSubcarrierLockLost c i s = .next t) : s.Quiet t :=
  occurs_quiet h <| State.lockEvent_quiet _ _ _ <| State.onRx_quiet _ _ (.refl _)

theorem execSubcarrierAcquired_quiet {c i} (h : execSubcarrierAcquired c i s = .next t) : s.Quiet t :=
  occurs_quiet h <| .ite (State.lockEvent_quiet _ _ _ <| State.onRx_quiet _ _ (.refl _)) <| State.onRx_quiet _ _ (.refl _)

theorem execEqDiverged_quiet {c i} (h : execEqDiverged c i s = .next t) : s.Quiet t :=
  occurs_quiet h <| State.onRx_quiet _ _ (.refl _)

theorem execCdWindow_quiet {id} (h : execCdWindow id s = .next t) : s.Quiet t :=
  withCmd_quiet h fun _ => .refuse <| .refuse <| .refuse <| .refuse <| .ite (.run <| State.onRx_quiet _ _ (.refl _)) <|
    .finish <| State.setWindow_quiet _ _ _ (.refl _)

theorem execAcqConfig_quiet {id} (h : execAcqConfig id s = .next t) : s.Quiet t :=
  withCmd_quiet h fun _ => .refuse <| .finish <| State.onRx_quiet _ _ (.refl _)

-- Optics

theorem execOutputPowerHigh_quiet {x} (h : execOutputPowerHigh x s = .next t) : s.Quiet t :=
  occurs_quiet h <| State.latchCause_quiet _ _ (.refl _)

theorem execLockerError_quiet {c locker} (h : execLockerError c locker s = .next t) : s.Quiet t :=
  occurs_quiet h <| State.latchCause_quiet _ _ (.refl _)

theorem execLaserCurrentHigh_quiet {x} (h : execLaserCurrentHigh x s = .next t) : s.Quiet t :=
  occurs_quiet h <| State.laserTrip_quiet _ (.refl _)

theorem execLaserBlank_quiet {id} (h : execLaserBlank id s = .next t) : s.Quiet t :=
  withCmdIf_quiet h fun _ => .finish <| State.latchCause_quiet _ _ (.refl _)

theorem execLaserRestore_quiet {id tap locker} (h : execLaserRestore id tap locker s = .next t) : s.Quiet t :=
  withCmdIf_quiet h fun _ => .refuse <| .refuse <| .finish <| State.openOutput_quiet _ <| State.onOpt_quiet _ _ (.refl _)

theorem execCaptureArm_quiet {id x} (h : execCaptureArm id x s = .next t) : s.Quiet t :=
  withCmdIf_quiet h fun _ => .refuse <| .refuse <| .ite (.finish <| State.takeCapture_quiet _ _ _ (.refl _)) <| .finish <|
    State.onCap_quiet _ _ (.refl _)

theorem execCaptureDisarm_quiet {id} (h : execCaptureDisarm id s = .next t) : s.Quiet t :=
  withCmdIf_quiet h fun _ => .finish <| State.onCap_quiet _ _ (.refl _)

theorem execCaptureTaken_quiet {c x} (h : execCaptureTaken c x s = .next t) : s.Quiet t :=
  occursWith_quiet h fun _ => State.takeCapture_quiet _ _ _ (.refl _)

theorem execCaptureBufferFill_quiet {c} (h : execCaptureBufferFill c s = .next t) : s.Quiet t :=
  occursWith_quiet h fun _ => .ite (State.fillCapture_quiet _ _ _ (.refl _)) <| .refl _

-- Bringup

theorem execChanBringup_quiet {id ws plate} (h : execChanBringup id ws plate s = .next t) : s.Quiet t :=
  withCmd_quiet h fun _ => .ite (.finish <| ⟨rfl, Nat.le_refl _, .refl _⟩) <| .ite (.finish <|
    ⟨rfl, Nat.le_refl _, .refl _⟩) <| .run <| State.startStep_quiet _ _ <| State.disarm_quiet _ <| State.onChan_quiet _ _ <|
    State.lxStop_quiet _ <| ⟨rfl, Nat.le_refl _, .refl _⟩

theorem execBringupStepDone_quiet {x} (h : execBringupStepDone x s = .next t) : s.Quiet t :=
  occurs_quiet h <| State.stepDone_quiet _ (.refl _)

theorem execBringupStepLimitExpiry_quiet {c} (h : execBringupStepLimitExpiry c s = .next t) : s.Quiet t :=
  occurs_quiet h <| State.bringupStops_quiet _ <| State.at_quiet _ (.refl _)

theorem execTxShape_quiet {id} (h : execTxShape id s = .next t) : s.Quiet t :=
  withCmd_quiet h fun _ => .refuse <| .refuse <| .run <| State.onBu_quiet _ _ (.refl _)

-- Kapra

theorem execKapraLaneFault_quiet {n cause} (h : execKapraLaneFault n cause s = .next t) : s.Quiet t :=
  occurs_quiet h <| State.faultLane_quiet _ _ (.refl _)

theorem execLaneSignalReturn_quiet {n} (h : execLaneSignalReturn n s = .next t) : s.Quiet t :=
  occurs_quiet h <| State.onLane_quiet _ _ (.refl _)

theorem execLaneStateReached_quiet {n w} (h : execLaneStateReached n w s = .next t) : s.Quiet t :=
  occursWith_quiet h fun _ => State.lanesDone_quiet _ <| .ite (State.faultLane_quiet _ _ <|
    State.onLane_quiet _ _ (.refl _)) <| State.onLane_quiet _ _ (.refl _)

theorem execKapraState_quiet {id} (h : execKapraState id s = .next t) : s.Quiet t :=
  withCmd_quiet h fun _ => .refuse <| .refuse <| State.lanesDone_quiet _ <| .run <| State.onKp_quiet _ _ <|
    foldl_quiet _ _ _ (fun _ _ h => State.onLane_quiet _ _ h) (.refl _)

theorem execKapraTxEq_quiet {id} (h : execKapraTxEq id s = .next t) : s.Quiet t :=
  withCmd_quiet h fun _ => .finish <| foldl_quiet _ _ _ (fun _ _ h => State.onLane_quiet _ _ h) (.refl _)

theorem execLaneMeritLow_quiet {n} (h : execLaneMeritLow n s = .next t) : s.Quiet t :=
  occurs_quiet h <| State.raise_quiet _ _ _ _ _ _ <| State.onLane_quiet _ _ (.refl _)

theorem execIngressHostFrame_quiet {c phase ins devs} (h : execIngressHostFrame c phase ins devs s = .next t) : s.Quiet t :=
  occurs_quiet h <| State.takeHost_quiet _ _ _ _ (.refl _)

-- Power

theorem execPwrLevel_quiet {id} (h : execPwrLevel id s = .next t) : s.Quiet t :=
  withCmd_quiet h fun _ => .refuse <| .refuse <| .refuse <| .ite (.finish <| State.onPw_quiet _ _ (.refl _)) <| .refuse <|
    .run <| State.beginLevel_quiet _ _ _ (.refl _)

theorem execLevelStep_quiet {c} (h : execLevelStep c s = .next t) : s.Quiet t := by
  obtain rfl | ⟨u, hu, rfl⟩ := occursWith_cases h
  · exact .refl _
  · exact State.remark_quiet (State.levelStep_quiet (Option.ite_none_right_eq_some.1 hu).2)

theorem execRailCheck_quiet {c mv} (h : execRailCheck c mv s = .next t) : s.Quiet t :=
  occurs_quiet h <| State.railCheck_quiet _ _ (.refl _)

theorem execPwrSleepSlack_quiet {id} (h : execPwrSleepSlack id s = .next t) : s.Quiet t :=
  withCmdIf_quiet h fun _ => .refuse <| .refuse <| State.beginSleep_quiet _ _ _ _ (.refl _)

theorem execPwrSleepDark_quiet {id} (h : execPwrSleepDark id s = .next t) : s.Quiet t :=
  withCmdIf_quiet h fun _ => .refuse <| .refuse <| State.beginSleep_quiet _ _ _ _ (.refl _)

theorem execWakeTimer_quiet {c} (h : execWakeTimer c s = .next t) : s.Quiet t :=
  occursWith_quiet h fun _ => State.hwWake_quiet _ _ <| State.at_quiet _ (.refl _)

theorem execWakeLight_quiet {c lo hi} (h : execWakeLight c lo hi s = .next t) : s.Quiet t :=
  occurs_quiet h <| State.hwWake_quiet _ _ (.refl _)

theorem execSleepEntryEnd_quiet {c} (h : execSleepEntryEnd c s = .next t) : s.Quiet t :=
  occurs_quiet h <| State.sleepDone_quiet _ (.refl _)

theorem execPwrSleepExit_quiet {id} (h : execPwrSleepExit id s = .next t) : s.Quiet t :=
  withCmdIf_quiet h fun _ => .ite (.finish <| State.onPw_quiet _ _ (.refl _)) <| .ite (.run <|
    State.onPw_quiet _ _ (.refl _)) <| .ite (.run <| State.onPw_quiet _ _ <| State.beginExit_quiet _ _ _ (.refl _)) <|
    .finish (.refl _)

theorem execSlackExitEnd_quiet {c} (h : execSlackExitEnd c s = .next t) : s.Quiet t :=
  occurs_quiet h <| State.exitDone_quiet _ (.refl _)

theorem execChanReset_quiet {id} (h : execChanReset id s = .next t) : s.Quiet t :=
  withCmd_quiet h fun _ => .refuse <| .refuse <| .ite (.refl _) <| State.beginReset_quiet _ (.refl _)

theorem execChanResetDone_quiet {c} (h : execChanResetDone c s = .next t) : s.Quiet t :=
  occursWith_quiet h fun _ => State.finishId_quiet _ _ _ _ _ <| .ite (State.raise_quiet _ _ _ _ _ _ <|
    State.goDark_quiet _ (.refl _)) <| State.goDark_quiet _ (.refl _)

-- FrameRx

theorem execRxLineFrame_quiet {c leaf f} (h : execRxLineFrame c leaf f s = .next t) : s.Quiet t := by
  refine occurs_quiet h ?_
  have hstart (g : Channel → Channel) : s.Quiet ((s.via c leaf fun s => s.frameStart c).via c leaf fun s => s.onChan c g) :=
    State.via_quiet _ _ _ (fun _ hs => State.onChan_quiet _ _ hs) <|
      State.via_quiet _ _ _ (fun _ hs => State.frameStart_quiet _ hs) (.refl _)
  have hframe {u : State} (hu : s.Quiet u) (ws : List (Word × Bool)) (fresh : Bool) :
      s.Quiet (u.via c leaf fun s => s.takeFrame c ws fresh f) :=
    State.via_quiet _ _ _ (fun _ hs => State.takeFrame_quiet _ _ _ _ hs) hu
  dsimp only
  split
  · refine State.hubFrame_quiet _ _ _ _ <| State.via_quiet _ _ _ (fun _ hs => State.parityIn_quiet _ _ hs) <|
      State.fecFrame_quiet _ _ _ _ <| State.onCal_quiet _ _ ?_
    split
    · exact hframe (hstart _) ..
    · exact hstart _
  · refine State.via_quiet _ _ _ (fun _ hs => State.parityIn_quiet _ _ hs) <| State.fecFrame_quiet _ _ _ _ <|
      State.onCal_quiet _ _ ?_
    split
    · exact hframe (hstart _) ..
    · exact hstart _

theorem execLossOfFrame_quiet {c leaf} (h : execLossOfFrame c leaf s = .next t) : s.Quiet t :=
  occurs_quiet h <| by
    dsimp only
    split
    · exact State.onLeaf_quiet _ _ _ <| State.via_quiet _ _ _ (fun _ a => State.enterSearch_quiet _ _ a) (.refl _)
    · exact State.lookGroup_quiet _ _ <| State.endHit_quiet _ <|
      State.via_quiet _ _ _ (fun _ a => State.enterSearch_quiet _ _ a) (.refl _)

theorem execOhCheckFailRun_quiet {c leaf} (h : execOhCheckFailRun c leaf s = .next t) : s.Quiet t :=
  occurs_quiet h <| State.raise_quiet _ _ _ _ _ _ <| State.via_quiet _ _ _ (fun _ a => State.onChan_quiet _ _ a) (.refl _)

theorem execRemoteDefect_quiet {c leaf} (h : execRemoteDefect c leaf s = .next t) : s.Quiet t :=
  occursWith_quiet h fun _ => State.raise_quiet _ _ _ _ _ _ <|
    State.via_quiet _ _ _ (fun _ a => State.onChan_quiet _ _ a) (.refl _)

theorem execAuthFailRun_quiet {i} (h : execAuthFailRun i s = .next t) : s.Quiet t :=
  occurs_quiet h <| State.raise_quiet _ _ _ _ _ _ <| State.setCipherOf_quiet _ _ (.refl _)

theorem execRxMultiframeEnd_quiet {c q} (h : execRxMultiframeEnd c q s = .next t) : s.Quiet t :=
  occursWith_quiet h fun _ => .ite (State.onCal_quiet _ _ <| State.dspEnd_quiet _ _ _ <| State.fecEnd_quiet _ _ <|
    State.qualityEnd_quiet _ _ _ (.refl _)) <| State.onRx_quiet _ _ <| State.reconverged_quiet _ _ _ <|
    State.fecEnd_quiet _ _ (.refl _)

theorem execOhSnapshot_quiet {id} (h : execOhSnapshot id s = .next t) : s.Quiet t :=
  withCmd_quiet h fun _ => by
    split
    · exact .answer (.refl _)
    · exact .finish (.refl _)

theorem execOhmSend_quiet {id bs} (h : execOhmSend id bs s = .next t) : s.Quiet t :=
  withCmd_quiet h fun _ => .refuse <| .run <| State.onChan_quiet _ _ (.refl _)

-- Bursts

theorem execGrantMap_quiet {c} (h : execGrantMap c s = .next t) : s.Quiet t :=
  occursWith_quiet h fun _ => State.acceptMap_quiet _ _ <| State.onPm_quiet _ _ (.refl _)

theorem execDiscoverySend_quiet {c} (h : execDiscoverySend c s = .next t) : s.Quiet t :=
  occursWith_quiet h fun _ => .ite (State.onPm_quiet _ _ <| State.onPm_quiet _ _ (.refl _)) <| State.onPm_quiet _ _ <|
    State.leafBodySent_quiet _ <| State.sendBurst_quiet _ _ _ _ _ _ _ _ <| State.onPm_quiet _ _ (.refl _)

theorem execBurstWindow_quiet {c subc start} (h : execBurstWindow c subc start s = .next t) : s.Quiet t :=
  occursWith_quiet h fun _ => State.windowBurst_quiet _ _ _ (.refl _)

theorem execBurstDetect_quiet {c i ds part} (h : execBurstDetect c i ds part s = .next t) : s.Quiet t :=
  occursWith_quiet h fun _ => State.detect_quiet _ _ _ _ _ (.refl _)

theorem execBurstHeaderCheck_quiet {c i header cell ofs} (h : execBurstHeaderCheck c i header cell ofs s = .next t) : s.Quiet t :=
  occursWith_quiet h fun _ => State.headerCheck_quiet _ _ _ _ _ _ (.refl _)

theorem execBurstReceived_quiet {c i x} (h : execBurstReceived c i x s = .next t) : s.Quiet t :=
  occursWith_quiet h fun _ => State.onReceiver_quiet _ _ _ <| State.burstData_quiet _ _ _ _ _ _ (.refl _)

theorem execBurstRecordDelivery_quiet {c j m k} (h : execBurstRecordDelivery c j m k s = .next t) : s.Quiet t :=
  occurs_quiet h <| State.deliverRecords_quiet _ _ _ _ (.refl _)

-- Shore

theorem execAlarmRepeatTimer_quiet {second} (h : execAlarmRepeatTimer second s = .next t) : s.Quiet t :=
  occursWith_quiet h fun _ => State.onShore_quiet _ <| State.sendAlarm_quiet _ _ <| State.at_quiet _ (.refl _)

theorem execLighthouseNotRunning_quiet (h : execLighthouseNotRunning s = .next t) : s.Quiet t :=
  occurs_quiet h <| State.alarm2_quiet _ <| State.at_quiet _ (.refl _)

theorem execDeratingBegin_quiet (h : execDeratingBegin s = .next t) : s.Quiet t :=
  occurs_quiet h <| State.sendAlarm_quiet _ _ <| ⟨rfl, Nat.le_refl _, .refl _⟩

theorem execDeratingEnd_quiet (h : execDeratingEnd s = .next t) : s.Quiet t :=
  occurs_quiet h <| State.sendAlarm_quiet _ _ <| ⟨rfl, Nat.le_refl _, .refl _⟩

theorem execShoreFrameBad_quiet {down} (h : execShoreFrameBad down s = .next t) : s.Quiet t :=
  occurs_quiet h <| State.onShore_quiet _ (.refl _)

theorem execHello_quiet {down f} (h : execHello down f s = .next t) : s.Quiet t :=
  occurs_quiet h <| State.arrive_quiet _ _ _ (fun _ a => State.regain_quiet _ <| State.onShore_quiet _ a) (.refl _)

theorem execHelloTimer_quiet (h : execHelloTimer s = .next t) : s.Quiet t :=
  occurs_quiet h <| State.onShore_quiet _ <| State.at_quiet _ (.refl _)

theorem execShoreNeighbourLost_quiet {down} (h : execShoreNeighbourLost down s = .next t) : s.Quiet t :=
  occurs_quiet h <| .ite (State.alarm1_quiet _ <| State.neighbour_quiet _ _ <| State.onShore_quiet _ <|
    State.at_quiet _ (.refl _)) <| State.neighbour_quiet _ _ <| State.onShore_quiet _ <| State.at_quiet _ (.refl _)

theorem execHeadTimeout_quiet (h : execHeadTimeout s = .next t) : s.Quiet t :=
  occurs_quiet h <| State.adoptAddress_quiet _ _ <| State.at_quiet _ (.refl _)

theorem execAddrAssign_quiet {down f} (h : execAddrAssign down f s = .next t) : s.Quiet t :=
  occurs_quiet h <| State.arrive_quiet _ _ _ (fun _ a => .ite a <| State.adoptAddress_quiet _ _ a) (.refl _)

theorem execAddrAssignTimer_quiet (h : execAddrAssignTimer s = .next t) : s.Quiet t :=
  occurs_quiet h <| State.assignDown_quiet <| State.at_quiet _ (.refl _)

theorem execInvReq_quiet {down f} (h : execInvReq down f s = .next t) : s.Quiet t :=
  occurs_quiet h <| State.arrive_quiet _ _ _ (fun _ a => State.noFirmware_quiet _ (State.onShore_quiet _ a) a) (.refl _)

theorem execInvResp_quiet {down f} (h : execInvResp down f s = .next t) : s.Quiet t :=
  occurs_quiet h <| State.arrive_quiet _ _ _ (fun _ a => State.invAnswer_quiet _ _ a) (.refl _)

theorem execShoreInvTimeout_quiet {id} (h : execShoreInvTimeout id s = .next t) : s.Quiet t :=
  occursWith_quiet h fun _ => State.queryEnds_quiet _ _ (fun _ _ a => .finish <| a) <| State.at_quiet _ (.refl _)

theorem execAlarm_quiet {down f} (h : execAlarm down f s = .next t) : s.Quiet t :=
  occurs_quiet h <| State.arrive_quiet _ _ _ (fun _ a => State.headAlarm_quiet _ _ a) (.refl _)

theorem execLaserOff_quiet {down f} (h : execLaserOff down f s = .next t) : s.Quiet t :=
  occurs_quiet h <| State.arrive_quiet _ _ _ (fun _ a => State.laserOrder_quiet _ _ _ a) (.refl _)

theorem execLaserOffHoldExpiry_quiet (h : execLaserOffHoldExpiry s = .next t) : s.Quiet t :=
  occursWith_quiet h fun _ => State.draw_quiet <| State.shoreOn_quiet _ <| State.at_quiet _ (.refl _)

theorem execLaserOffNAssert_quiet (h : execLaserOffNAssert s = .next t) : s.Quiet t :=
  occurs_quiet h <| State.pinOff_quiet (.refl _)

theorem execLaserOffNRelease_quiet (h : execLaserOffNRelease s = .next t) : s.Quiet t :=
  occurs_quiet h <| State.sendAlarm_quiet _ _ <| foldl_quiet _ _ _ (fun _ _ h => State.openOutput_quiet _ h) <|
    ⟨rfl, Nat.le_refl _, .refl _⟩

theorem execMsg_quiet {down f} (h : execMsg down f s = .next t) : s.Quiet t :=
  occurs_quiet h <| State.arrive_quiet _ _ _ (fun _ a => State.takeMsg_quiet _ _ _ a) (.refl _)

theorem execShoreFrameSent_quiet {down} (h : execShoreFrameSent down s = .next t) : s.Quiet t :=
  occursWith_quiet h fun _ => State.shoreSent_quiet _ <| State.emit_quiet _ <| State.onShore_quiet _ (.refl _)

theorem execShoreInvQuery_quiet {id} (h : execShoreInvQuery id s = .next t) : s.Quiet t :=
  withCmd_quiet h fun _ => .refuse <| .refuse <| .ite (.answer <| State.onShore_quiet _ <|
    State.onShore_quiet _ (.refl _)) <| .run <| State.onShore_quiet _ <| State.onShore_quiet _ (.refl _)

theorem execShoreSend_quiet {id bs} (h : execShoreSend id bs s = .next t) : s.Quiet t :=
  withCmd_quiet h fun _ => .refuse <| .refuse <| .ite (.finish <| State.onShore_quiet _ <|
    .ite (State.takeMsg_quiet _ _ _ (.refl _)) <| .refl _) <| .run <| State.onShore_quiet _ <|
    .ite (State.takeMsg_quiet _ _ _ (.refl _)) <| .refl _

theorem execShoreLaserOff_quiet {id} (h : execShoreLaserOff id s = .next t) : s.Quiet t :=
  withCmd_quiet h fun _ => .refuse <| .refuse <| .finish <| .ite (.ite (State.laserOrder_quiet _ _ _ (.refl _)) <|
    .refl _) <| State.onShore_quiet _ <| .ite (State.laserOrder_quiet _ _ _ (.refl _)) <| .refl _

-- HostPort

theorem execArbiterDecision_quiet {n x} (h : execArbiterDecision n x s = .next t) : s.Quiet t :=
  occurs_quiet h <| State.onLink_quiet _ _ (.refl _)

theorem execArbPrioWrite_quiet {n i v} (h : execArbPrioWrite n i v s = .next t) : s.Quiet t :=
  occurs_quiet h <| State.onLink_quiet _ _ (.refl _)

theorem execArbStatRead_quiet {n x} (h : execArbStatRead n x s = .next t) : s.Quiet t :=
  occurs_quiet h <| .ite (State.emit_quiet _ (.refl _)) <| State.onLink_quiet _ _ <| State.emit_quiet _ (.refl _)

theorem execFunctionLevelReset_quiet {n} (h : execFunctionLevelReset n s = .next t) : s.Quiet t :=
  occurs_quiet h <| State.functionReset_quiet _ (.refl _)

theorem execRegisterWrite_quiet {n bar off width v} (h : execRegisterWrite n bar off width v s = .next t) : s.Quiet t :=
  occurs_quiet h <| .ite (.ite (State.bar0Write_quiet _ _ _ (.refl _)) <| .refl _) <|
    .ite (State.bar2Write_quiet _ _ _ _ (.refl _)) <| .refl _

theorem execRcvGo_quiet {v} (h : execRcvGo v s = .next t) : s.Quiet t := occurs_quiet h <| State.rcvCtlWrite_quiet _ (.refl _)

theorem execUnsupportedRequest_quiet {n addr} (h : execUnsupportedRequest n addr s = .next t) : s.Quiet t :=
  occurs_quiet h <| State.emit_quiet _ (.refl _)

-- Startup

theorem execSupplyDip_quiet (h : execSupplyDip s = .next t) : s.Quiet t := by
  cases h
  exact .refl _

theorem execBootDone_quiet (h : execBootDone s = .next t) : s.Quiet t :=
  occursWith_quiet h fun _ => State.alarm2_quiet _ <| State.onBoot_quiet _ <| State.writeAll_quiet <|
    State.runImage_quiet _ <| State.onSec_quiet _ (.refl _)

theorem execBootFailedRecovery_quiet (h : execBootFailedRecovery s = .next t) : s.Quiet t :=
  occurs_quiet h <| State.onSec_quiet _ <| State.onSec_quiet _ <| State.at_quiet _ (.refl _)

theorem execLighthouseRestart_quiet (h : execLighthouseRestart s = .next t) : s.Quiet t :=
  occurs_quiet h <| State.onBoot_quiet _ <| State.onSec_quiet _ <| .ite (State.controllerStop_quiet (.refl _)) <| .refl _

theorem execLighthouseRestartEnd_quiet (h : execLighthouseRestartEnd s = .next t) : s.Quiet t :=
  occursWith_quiet h fun _ => State.alarm2_quiet _ <| State.resumeRings_quiet <| State.activated_quiet <|
    State.onBoot_quiet _ <| State.runImage_quiet _ (.refl _)

theorem execStaggerRelease_quiet (h : execStaggerRelease s = .next t) : s.Quiet t :=
  occurs_quiet h <| State.onBoot_quiet _ <| State.at_quiet _ (.refl _)

theorem execLinkTrained_quiet {n speed width} (h : execLinkTrained n speed width s = .next t) : s.Quiet t :=
  occurs_quiet h <| State.onLink_quiet _ _ (.refl _)

theorem execPerstAssert_quiet {n} (h : execPerstAssert n s = .next t) : s.Quiet t :=
  occurs_quiet h <| State.onLink_quiet _ _ <| State.onLink_quiet _ _ <| State.functionReset_quiet _ (.refl _)

theorem execPerstDeassert_quiet {n} (h : execPerstDeassert n s = .next t) : s.Quiet t :=
  occurs_quiet h <| State.onLink_quiet _ _ (.refl _)

theorem execLinkRecoveryEntry_quiet {x} (h : execLinkRecoveryEntry x s = .next t) : s.Quiet t :=
  occurs_quiet h <| State.onLink_quiet _ _ (.refl _)

theorem execLinkUp_quiet {x} (h : execLinkUp x s = .next t) : s.Quiet t :=
  occurs_quiet h <| State.linkUp_quiet _ <| .ite (State.onLink_quiet _ _ (.refl _)) <| .refl _

theorem execLinkDownLimitExpiry_quiet {n} (h : execLinkDownLimitExpiry n s = .next t) : s.Quiet t :=
  occurs_quiet h <| State.limitHalt_quiet _ <| State.at_quiet _ (.refl _)

theorem execThermalShutdown_quiet (h : execThermalShutdown s = .next t) : s.Quiet t :=
  occurs_quiet h <| foldl_quiet _ _ _ (fun _ _ h => State.thermalDark_quiet _ h) <| State.onBoot_quiet _ (.refl _)

-- Faults

theorem execUncorrectableError_quiet {k addr kind ring cmd copyBad} (h : execUncorrectableError k addr kind ring cmd copyBad s = .next t) : s.Quiet t :=
  occurs_quiet h <| State.uncorrectable_quiet _ _ _ _ _ _ <| State.countUncorr_quiet _ _ _ (.refl _)

theorem execKeeperRestartDone_quiet {c} (h : execKeeperRestartDone c s = .next t) : s.Quiet t :=
  occurs_quiet h <| State.calResume_quiet _ _ <| State.calResume_quiet _ _ <| State.openOutput_quiet _ <|
    State.onChan_quiet _ _ (.refl _)

theorem execRetirementSwitch_quiet {k} (h : execRetirementSwitch k s = .next t) : s.Quiet t :=
  occursWith_quiet h fun _ => State.retireSwitch_quiet _ _ _ (.refl _)

-- FramePeriod

theorem execTxFramePeriod_quiet {c lv fills} (h : execTxFramePeriod c lv fills s = .next t) : s.Quiet t :=
  occurs_quiet h <| State.framePeriod_quiet _ _ _ (.refl _)

theorem execTxMultiframeBoundary_quiet {c x} (h : execTxMultiframeBoundary c x s = .next t) : s.Quiet t :=
  occurs_quiet h <| State.multiframe_quiet _ _ <| State.at_quiet _ (.refl _)

theorem execAutoRoll_quiet {i} (h : execAutoRoll i s = .next t) : s.Quiet t :=
  occurs_quiet h <| State.rollKey_quiet _ _ (.refl _)

theorem execKeyCountWrapErase_quiet {i} (h : execKeyCountWrapErase i s = .next t) : s.Quiet t :=
  occurs_quiet h <| State.wearOut_quiet _ (.refl _)

end

/-! ### All rows at once -/

/-- A row that can reach the host window, the partition record, the powered hours or the fetch count. -/
def reachesKept : Instr → Bool
  | .powerOn .. | .supplyLossShutdown .. | .modReset .. | .recoveryDone .. | .memOperationDone .. | .commandDeadlineExpiry .. |
    .ledgerWriteDone .. | .poweredHour | .descriptorFetch .. => true
  | _ => false

theorem exec_quiet {s t : State} {i : Instr} (hi : reachesKept i = false) (h : exec i s = .next t) : s.Quiet t := by
  cases i with
  | powerOn | supplyLossShutdown | modReset | recoveryDone | memOperationDone | commandDeadlineExpiry | ledgerWriteDone |
    poweredHour | descriptorFetch => cases hi
  | memFill | memCopyOut | memScan =>
    exact withCmd_quiet h fun _ => .refuse <| .refuse <| .run (.refl _)
  | memStatus | memReefRead | loadQuery | loadQuality | fecStatus | fecCounters | calStatus | calValues | ageStatus |
    alarmSummary | partQuery | fwStatus | rngStatus | timingStatus | timingHistory | monQuery | chanStatus |
    dspStatus | opticsStatus | kapraStatus | kapraCounters | pwrStatus | pwrModule | frameStatus | frameCounters |
    shoreStatus | shoreInventory =>
    exact withCmd_quiet h fun _ => .answer (.refl _)
  | memRetireList | tribShedList | ageShortfall =>
    exact withCmd_quiet h fun _ => .answerBytes (.refl _)
  | scrubVisit => exact execScrubVisit_quiet h
  | memCopyIn => exact execMemCopyIn_quiet h
  | memScrubConfig => exact execMemScrubConfig_quiet h
  | memRetire => exact execMemRetire_quiet h
  | loadPlan => exact execLoadPlan_quiet h
  | loadConfig => exact execLoadConfig_quiet h
  | linkQualityAlarm => exact execLinkQualityAlarm_quiet h
  | latencyMessageDue => exact execLatencyMessageDue_quiet h
  | tribLatencyQuery => exact execTribLatencyQuery_quiet h
  | tribPromiseRelease => exact execTribPromiseRelease_quiet h
  | tribPromiseReinstate => exact execTribPromiseReinstate_quiet h
  | tribProvision => exact execTribProvision_quiet h
  | tribModify => exact execTribModify_quiet h
  | tribEnable => exact execTribEnable_quiet h
  | tribDisable => exact execTribDisable_quiet h
  | tribDelete => exact execTribDelete_quiet h
  | tribQuery => exact execTribQuery_quiet h
  | tribCounters => exact execTribCounters_quiet h
  | tributaryFailed => exact execTributaryFailed_quiet h
  | tributaryRecovered => exact execTributaryRecovered_quiet h
  | slotWrite => exact execSlotWrite_quiet h
  | slotRead => exact execSlotRead_quiet h
  | slotCopy => exact execSlotCopy_quiet h
  | bankSwitch => exact execBankSwitch_quiet h
  | bankArm => exact execBankArm_quiet h
  | bankDisarm => exact execBankDisarm_quiet h
  | bankStatus => exact execBankStatus_quiet h
  | groupCreate => exact execGroupCreate_quiet h
  | groupDelete => exact execGroupDelete_quiet h
  | groupQuery => exact execGroupQuery_quiet h
  | groupRealign => exact execGroupRealign_quiet h
  | loadChange => exact execLoadChange_quiet h
  | fecProfile => exact execFecProfile_quiet h
  | fecAlarmSet => exact execFecAlarmSet_quiet h
  | fecBerAlarm => exact execFecBerAlarm_quiet h
  | uncorrectableRun => exact execUncorrectableRun_quiet h
  | calRunDue => exact execCalRunDue_quiet h
  | calWindowEnd => exact execCalWindowEnd_quiet h
  | calValuesApply => exact execCalValuesApply_quiet h
  | calConfig => exact execCalConfig_quiet h
  | calRun => exact execCalRun_quiet h
  | trendSample => exact execTrendSample_quiet h
  | hourlyRecord => exact execHourlyRecord_quiet h
  | dailyRecord => exact execDailyRecord_quiet h
  | ageConfig => exact execAgeConfig_quiet h
  | ageLedgerRead => exact execAgeLedgerRead_quiet h
  | ageProposal => exact execAgeProposal_quiet h
  | ringEnable => exact execRingEnable_quiet h
  | ringDisable => exact execRingDisable_quiet h
  | nudgeGroup => exact execNudgeGroup_quiet h
  | doorbellReadDone => exact execDoorbellReadDone_quiet h
  | doorbellSweep => exact execDoorbellSweep_quiet h
  | commandStart => exact execCommandStart_quiet h
  | undefinedOpcode => exact execUndefinedOpcode_quiet h
  | dmaError => exact execDmaError_quiet h
  | moderationTimer => exact execModerationTimer_quiet h
  | eventBatchWrite => exact execEventBatchWrite_quiet h
  | nop => exact execNop_quiet h
  | ringQuery => exact execRingQuery_quiet h
  | eventFilter => exact execEventFilter_quiet h
  | bufPost => exact execBufPost_quiet h
  | partHistory => exact execPartHistory_quiet h
  | partChange => exact execPartChange_quiet h
  | drbgReseed => exact execDrbgReseed_quiet h
  | entropyHealthFailure => exact execEntropyHealthFailure_quiet h
  | entropyStartupTest => exact execEntropyStartupTest_quiet h
  | fwImageWrite => exact execFwImageWrite_quiet h
  | imageWriteDone => exact execImageWriteDone_quiet h
  | fwActivate => exact execFwActivate_quiet h
  | fwConfirm => exact execFwConfirm_quiet h
  | fwFloorRaise => exact execFwFloorRaise_quiet h
  | kekEstablish => exact execKekEstablish_quiet h
  | idCertRead => exact execIdCertRead_quiet h
  | attestReport => exact execAttestReport_quiet h
  | ledgerRead => exact execLedgerRead_quiet h
  | cipherSetup => exact execCipherSetup_quiet h
  | cipherQuery => exact execCipherQuery_quiet h
  | keyLoad => exact execKeyLoad_quiet h
  | keyRoll => exact execKeyRoll_quiet h
  | keyErase => exact execKeyErase_quiet h
  | cipherCounters => exact execCipherCounters_quiet h
  | keyUsageWarning => exact execKeyUsageWarning_quiet h
  | keyExhausted => exact execKeyExhausted_quiet h
  | oldKeyErase => exact execOldKeyErase_quiet h
  | maskReseed => exact execMaskReseed_quiet h
  | jobKeyLoad => exact execJobKeyLoad_quiet h
  | jobKeyErase => exact execJobKeyErase_quiet h
  | jobCipher => exact execJobCipher_quiet h
  | cryptoJobDone => exact execCryptoJobDone_quiet h
  | candidateActivityLoss => exact execCandidateActivityLoss_quiet h
  | holdoffExpiry => exact execHoldoffExpiry_quiet h
  | candidateQualified => exact execCandidateQualified_quiet h
  | timingSecond => exact execTimingSecond_quiet h
  | loopBwStep => exact execLoopBwStep_quiet h
  | oscWarm => exact execOscWarm_quiet h
  | hoGrade => exact execHoGrade_quiet h
  | oscAgeingFit => exact execOscAgeingFit_quiet h
  | timingCandSet => exact execTimingCandSet_quiet h
  | timingConfig => exact execTimingConfig_quiet h
  | chanTiming => exact execChanTiming_quiet h
  | monScanSet => exact execMonScanSet_quiet h
  | monFilterSet => exact execMonFilterSet_quiet h
  | monFilterRun => exact execMonFilterRun_quiet h
  | monStream => exact execMonStream_quiet h
  | monRead => exact execMonRead_quiet h
  | urgentRequestDone => exact execUrgentRequestDone_quiet h
  | monTest => exact execMonTest_quiet h
  | testEnd => exact execTestEnd_quiet h
  | monRef => exact execMonRef_quiet h
  | monSelfcal => exact execMonSelfcal_quiet h
  | selfcalEnd => exact execSelfcalEnd_quiet h
  | extRefLost => exact execExtRefLost_quiet h
  | decimRecord => exact execDecimRecord_quiet h
  | resampleReport => exact execResampleReport_quiet h
  | monHistory => exact execMonHistory_quiet h
  | fastCfg => exact execFastCfg_quiet h
  | leafLost => exact execLeafLost_quiet h
  | p2mpMode => exact execP2mpMode_quiet h
  | leafSet => exact execLeafSet_quiet h
  | leafQuery => exact execLeafQuery_quiet h
  | p2mpConfig => exact execP2mpConfig_quiet h
  | leafLoad => exact execLeafLoad_quiet h
  | burstCounters => exact execBurstCounters_quiet h
  | leafStatus => exact execLeafStatus_quiet h
  | leafJoin => exact execLeafJoin_quiet h
  | lossOfSignal => exact execLossOfSignal_quiet h
  | signalPresent => exact execSignalPresent_quiet h
  | lossOfAcquisition => exact execLossOfAcquisition_quiet h
  | rxStateLimitExpiry => exact execRxStateLimitExpiry_quiet h
  | blindSearchRepeat => exact execBlindSearchRepeat_quiet h
  | rxStateAdvance => exact execRxStateAdvance_quiet h
  | pilotLock => exact execPilotLock_quiet h
  | subcarrierLockLost => exact execSubcarrierLockLost_quiet h
  | subcarrierAcquired => exact execSubcarrierAcquired_quiet h
  | eqDiverged => exact execEqDiverged_quiet h
  | cdWindow => exact execCdWindow_quiet h
  | acqConfig => exact execAcqConfig_quiet h
  | outputPowerHigh => exact execOutputPowerHigh_quiet h
  | lockerError => exact execLockerError_quiet h
  | laserCurrentHigh => exact execLaserCurrentHigh_quiet h
  | laserBlank => exact execLaserBlank_quiet h
  | laserRestore => exact execLaserRestore_quiet h
  | captureArm => exact execCaptureArm_quiet h
  | captureDisarm => exact execCaptureDisarm_quiet h
  | captureTaken => exact execCaptureTaken_quiet h
  | captureBufferFill => exact execCaptureBufferFill_quiet h
  | chanBringup => exact execChanBringup_quiet h
  | bringupStepDone => exact execBringupStepDone_quiet h
  | bringupStepLimitExpiry => exact execBringupStepLimitExpiry_quiet h
  | txShape => exact execTxShape_quiet h
  | kapraLaneFault => exact execKapraLaneFault_quiet h
  | laneSignalReturn => exact execLaneSignalReturn_quiet h
  | laneStateReached => exact execLaneStateReached_quiet h
  | kapraState => exact execKapraState_quiet h
  | kapraTxEq => exact execKapraTxEq_quiet h
  | laneMeritLow => exact execLaneMeritLow_quiet h
  | ingressHostFrame => exact execIngressHostFrame_quiet h
  | pwrLevel => exact execPwrLevel_quiet h
  | levelStep => exact execLevelStep_quiet h
  | railCheck => exact execRailCheck_quiet h
  | pwrSleepSlack => exact execPwrSleepSlack_quiet h
  | pwrSleepDark => exact execPwrSleepDark_quiet h
  | wakeTimer => exact execWakeTimer_quiet h
  | wakeLight => exact execWakeLight_quiet h
  | sleepEntryEnd => exact execSleepEntryEnd_quiet h
  | pwrSleepExit => exact execPwrSleepExit_quiet h
  | slackExitEnd => exact execSlackExitEnd_quiet h
  | chanReset => exact execChanReset_quiet h
  | chanResetDone => exact execChanResetDone_quiet h
  | rxLineFrame => exact execRxLineFrame_quiet h
  | lossOfFrame => exact execLossOfFrame_quiet h
  | ohCheckFailRun => exact execOhCheckFailRun_quiet h
  | remoteDefect => exact execRemoteDefect_quiet h
  | authFailRun => exact execAuthFailRun_quiet h
  | rxMultiframeEnd => exact execRxMultiframeEnd_quiet h
  | ohSnapshot => exact execOhSnapshot_quiet h
  | ohmSend => exact execOhmSend_quiet h
  | grantMap => exact execGrantMap_quiet h
  | discoverySend => exact execDiscoverySend_quiet h
  | burstWindow => exact execBurstWindow_quiet h
  | burstDetect => exact execBurstDetect_quiet h
  | burstHeaderCheck => exact execBurstHeaderCheck_quiet h
  | burstReceived => exact execBurstReceived_quiet h
  | burstRecordDelivery => exact execBurstRecordDelivery_quiet h
  | alarmRepeatTimer => exact execAlarmRepeatTimer_quiet h
  | lighthouseNotRunning => exact execLighthouseNotRunning_quiet h
  | deratingBegin => exact execDeratingBegin_quiet h
  | deratingEnd => exact execDeratingEnd_quiet h
  | shoreFrameBad down => exact execShoreFrameBad_quiet (down := down) h
  | hello => exact execHello_quiet h
  | helloTimer => exact execHelloTimer_quiet h
  | shoreNeighbourLost => exact execShoreNeighbourLost_quiet h
  | headTimeout => exact execHeadTimeout_quiet h
  | addrAssign => exact execAddrAssign_quiet h
  | addrAssignTimer => exact execAddrAssignTimer_quiet h
  | invReq => exact execInvReq_quiet h
  | invResp => exact execInvResp_quiet h
  | shoreInvTimeout => exact execShoreInvTimeout_quiet h
  | alarm => exact execAlarm_quiet h
  | laserOff => exact execLaserOff_quiet h
  | laserOffHoldExpiry => exact execLaserOffHoldExpiry_quiet h
  | laserOffNAssert => exact execLaserOffNAssert_quiet h
  | laserOffNRelease => exact execLaserOffNRelease_quiet h
  | msg => exact execMsg_quiet h
  | shoreFrameSent => exact execShoreFrameSent_quiet h
  | shoreInvQuery => exact execShoreInvQuery_quiet h
  | shoreSend => exact execShoreSend_quiet h
  | shoreLaserOff => exact execShoreLaserOff_quiet h
  | arbiterDecision => exact execArbiterDecision_quiet h
  | arbPrioWrite => exact execArbPrioWrite_quiet h
  | arbStatRead => exact execArbStatRead_quiet h
  | functionLevelReset => exact execFunctionLevelReset_quiet h
  | registerWrite => exact execRegisterWrite_quiet h
  | rcvGo => exact execRcvGo_quiet h
  | unsupportedRequest _ addr => exact execUnsupportedRequest_quiet (addr := addr) h
  | supplyDip => exact execSupplyDip_quiet h
  | bootDone => exact execBootDone_quiet h
  | bootFailedRecovery => exact execBootFailedRecovery_quiet h
  | lighthouseRestart => exact execLighthouseRestart_quiet h
  | lighthouseRestartEnd => exact execLighthouseRestartEnd_quiet h
  | staggerRelease => exact execStaggerRelease_quiet h
  | linkTrained => exact execLinkTrained_quiet h
  | perstAssert => exact execPerstAssert_quiet h
  | perstDeassert => exact execPerstDeassert_quiet h
  | linkRecoveryEntry => exact execLinkRecoveryEntry_quiet h
  | linkUp => exact execLinkUp_quiet h
  | linkDownLimitExpiry => exact execLinkDownLimitExpiry_quiet h
  | thermalShutdown => exact execThermalShutdown_quiet h
  | uncorrectableError => exact execUncorrectableError_quiet h
  | keeperRestartDone => exact execKeeperRestartDone_quiet h
  | retirementSwitch => exact execRetirementSwitch_quiet h
  | txFramePeriod => exact execTxFramePeriod_quiet h
  | txMultiframeBoundary => exact execTxMultiframeBoundary_quiet h
  | autoRoll => exact execAutoRoll_quiet h
  | keyCountWrapErase => exact execKeyCountWrapErase_quiet h
/-! ### The rows that are not quiet, but for supply-on and the fetch of a descriptor -/

/-- Time runs forward, the host window keeps its canonical form, no descriptor is fetched, and of the commands in flight some stay,
in their order. -/
structure State.Orderly (s t : State) : Prop where
  now : s.now ≤ t.now
  mem : Memory.wf s.mem = true → Memory.wf t.mem = true
  nextId : t.nextId = s.nextId
  ids : (t.flights.map Flight.id).Sublist (s.flights.map Flight.id)

theorem State.Quiet.orderly {s t : State} (h : s.Quiet t) : s.Orderly t :=
  ⟨h.now, fun hs => h.mem ▸ hs, congrArg Kept.nextId h.kept, h.ids⟩

theorem State.Orderly.trans {s t u : State} (h : s.Orderly t) (k : t.Orderly u) : s.Orderly u :=
  ⟨Nat.le_trans h.now k.now, fun hs => k.mem (h.mem hs), k.nextId.trans h.nextId, k.ids.trans h.ids⟩

theorem State.Orderly.quiet {s t u : State} (h : s.Orderly t) (k : t.Quiet u) : s.Orderly u := h.trans k.orderly

theorem State.Orderly.ite {s a b : State} {p : Prop} [Decidable p] (ha : s.Orderly a) (hb : s.Orderly b) :
    s.Orderly (if p then a else b) := by
  split <;> assumption

theorem occurs_orderly {s k t : State} {p : Bool} (h : occurs s p k = .next t) (hk : s.Orderly k) : s.Orderly t := by
  obtain rfl | ⟨_, rfl⟩ := occurs_cases h
  · exact (State.Quiet.refl _).orderly
  · exact hk.quiet (State.remark_quiet (.refl k))

theorem occursWith_orderly {α : Type} {s t : State} {o : Option α} {k : α → State} (h : occursWith s o k = .next t)
    (hk : ∀ a, s.Orderly (k a)) : s.Orderly t := by
  obtain rfl | ⟨a, _, rfl⟩ := occursWith_cases h
  · exact (State.Quiet.refl _).orderly
  · exact (hk a).quiet (State.remark_quiet (.refl _))

/-! A reset (19 R418; 22 R468) -/

theorem State.ledgerWhole_frame (s : State) (w : LedgerWrite) :
    (s.ledgerWhole w).now = s.now ∧ (s.ledgerWhole w).nextId = s.nextId := by
  unfold State.ledgerWhole
  dsimp only
  split
  · exact ⟨rfl, rfl⟩
  · split <;> exact ⟨rfl, rfl⟩

theorem State.cleared_now (s : State) (whole : List Nat) : (s.cleared whole).now = s.now :=
  foldl_eq_of (·.now) _ _ s fun s w => (s.ledgerWhole_frame w).1

theorem State.cleared_nextId (s : State) (whole : List Nat) : (s.cleared whole).nextId = s.nextId :=
  foldl_eq_of (·.nextId) _ _ s fun s w => (s.ledgerWhole_frame w).2

theorem State.cleared_orderly (s : State) (whole : List Nat) : s.Orderly (s.cleared whole) :=
  ⟨(s.cleared_now whole).ge, fun _ => rfl, s.cleared_nextId whole, List.nil_sublist _⟩

theorem State.moduleReset_orderly (s : State) (whole : List Nat) : s.Orderly (s.moduleReset whole) := by
  have hcleared := s.cleared_orderly whole
  have hstanding {u : State} (hu : s.Orderly u) : s.Orderly u.standing := hu.quiet (State.standing_quiet (.refl u))
  exact hstanding ⟨hcleared.now, hcleared.mem, hcleared.nextId, hcleared.ids⟩

/-! A partition record or a floor that comes into force (03 R50; 20 R449) -/

theorem State.recordInForce_orderly (s : State) (f : Flight) (p : Partition) : s.Orderly (s.recordInForce f p) := by
  have hrings {u : State} (hu : s.Orderly u) (rs : List Nat) : s.Orderly (rs.foldl State.revokeRing u) :=
    hu.quiet (foldl_quiet rs State.revokeRing u (fun _ r hu => State.revokeRing_quiet r hu) (.refl u))
  have hpart (x : Security) : s.Orderly { s with part := p, sec := x } := ⟨Nat.le_refl _, id, rfl, .refl _⟩
  exact (hrings (hpart _) _).quiet (State.raise_quiet _ _ _ _ _ _ (.refl _))

theorem State.ledgerDone_orderly (s : State) (f : Flight) (w : LedgerWrite) : s.Orderly (s.ledgerDone f w) := by
  have hsec (g : Security → Security) : s.Quiet (s.onSec g) := State.onSec_quiet g (.refl s)
  unfold State.ledgerDone
  dsimp only
  split
  · exact ((hsec _).orderly.trans (State.recordInForce_orderly _ f _)).quiet (.finish (.refl _))
  · exact (State.Quiet.ite (.finish (hsec _)) (State.adoptFloor_quiet f _ (hsec _))).orderly

/-! The end of a memory operation (17 R400, R401) -/

theorem State.storeWindow_orderly (s : State) (a : Nat) (bs : List Byte) : s.Orderly (s.storeWindow a bs) :=
  ⟨Nat.le_refl _, fun hs => Memory.wf_write a bs hs, rfl, .refl _⟩

theorem State.memDone_orderly (s : State) (f : Flight) (contents : List Byte) (corr : List (Nat × Nat)) :
    s.Orderly (s.memDone f contents corr) := by
  unfold State.memDone
  dsimp only
  split
  · exact (s.storeWindow_orderly ..).quiet (.finish (.refl _))
  · have hcopy : s.Quiet { s with copyIns := s.copyIns.erase f.id } := State.quiet_of (.refl s) rfl rfl rfl
    exact (hcopy.orderly.trans (State.storeWindow_orderly _ ..)).quiet (.finish (.refl _))
  · exact (State.dmaRead_quiet _ _ _ _ _ _ (fun _ hs => .finish (State.writeBuf_quiet _ _ _ hs)) (.refl s)).orderly
  · have hread := State.readRange_quiet f.desc.target f.desc.addr f.desc.len corr (.refl s)
    split <;> rename_i hresult <;> rw [hresult] at hread
    · exact (State.Quiet.finish hread).orderly
    · exact (State.Quiet.finish (State.countUncorr_quiet _ _ _ hread)).orderly

/-! A deadline that expires (02 R30) -/

theorem State.ledgerExpires_orderly (s : State) (f : Flight) (whole : Bool) : s.Orderly (s.ledgerExpires f whole) := by
  have hsec (g : Security → Security) : s.Quiet (s.onSec g) := State.onSec_quiet g (.refl s)
  unfold State.ledgerExpires
  dsimp only
  split
  · split
    · exact (hsec _).orderly.trans (State.recordInForce_orderly _ f _)
    · exact (hsec _).orderly
  · exact (hsec _).orderly

theorem State.moduleExpires_orderly (s : State) (f : Flight) (whole : Bool) (part : Nat) :
    s.Orderly (s.moduleExpires f whole part) := by
  have hs := State.Quiet.refl s
  unfold State.moduleExpires
  dsimp only
  split
  · exact s.ledgerExpires_orderly f whole
  · exact s.ledgerExpires_orderly f whole
  · exact (State.bankExpires_quiet f hs).orderly
  · exact (State.testExpires_quiet _ _ hs).orderly
  · exact (State.selfcalExpires_quiet _ _ hs).orderly
  · exact s.storeWindow_orderly ..
  · exact ⟨Nat.le_refl _, id, rfl, .refl _⟩ -- a copy in
  · exact (State.onSram_quiet _ _ hs).orderly -- a retirement
  · exact (State.onShore_quiet _ hs).orderly -- a shore inventory
  · exact (State.onShore_quiet _ hs).orderly -- a shore message
  · exact (State.chanExpires_quiet f hs).orderly

theorem State.expire_orderly (s : State) (f : Flight) (whole : Bool) (part : Nat) : s.Orderly (s.expire f whole part) := by
  have hs := State.Quiet.refl s
  unfold State.expire
  split
  · exact (State.Quiet.finish (State.jobExpires_quiet f hs)).orderly
  split
  · exact (State.bringupStops_quiet _ hs).orderly
  split
  · exact (State.Quiet.finish (State.imageExpires_quiet _ hs)).orderly
  split
  · exact (s.moduleExpires_orderly f whole part).quiet (.finish (.refl _))
  · exact (State.Quiet.finish hs).orderly

/-- All rows but supply-on, which starts the time again, and the fetch of a descriptor. -/
theorem exec_orderly {s t : State} {i : Instr} (hpower : ∀ split l perst, i ≠ .powerOn split l perst)
    (hfetch : ∀ r d, i ≠ .descriptorFetch r d) (h : exec i s = .next t) : s.Orderly t := by
  by_cases hi : reachesKept i = false
  · exact (exec_quiet hi h).orderly
  cases i with
  | powerOn split l perst => exact absurd rfl (hpower split l perst)
  | descriptorFetch r d => exact absurd rfl (hfetch r d)
  | supplyLossShutdown whole =>
    have hcleared := s.cleared_orderly whole
    exact occurs_orderly h ⟨hcleared.now, hcleared.mem, hcleared.nextId, hcleared.ids⟩
  | modReset whole => exact occurs_orderly h (s.moduleReset_orderly whole)
  | recoveryDone image whole =>
    have hsec (g : Security → Security) : s.Quiet (s.onSec g) := State.onSec_quiet g (.refl s)
    exact occurs_orderly h <| .ite ((hsec _).orderly.trans (State.moduleReset_orderly _ whole)) (hsec _).orderly
  | memOperationDone => exact occursWith_orderly h fun f => s.memDone_orderly f ..
  | commandDeadlineExpiry =>
    exact occursWith_orderly h fun q => (State.at_quiet q.2 (.refl s)).orderly.trans (State.expire_orderly ..)
  | ledgerWriteDone => exact occursWith_orderly h fun q => s.ledgerDone_orderly q.2 q.1
  | poweredHour => exact occurs_orderly h ⟨Nat.le_max_left .., id, rfl, .refl _⟩
  | _ => exact absurd rfl hi

/-- Settles O7: every row but supply-on is orderly or fetches a descriptor, which takes no time. -/
theorem timeRunsForward : Obligations.TimeRunsForward := by
  unfold Obligations.TimeRunsForward
  intro i s t hpower h
  by_cases hfetch : ∃ r d, i = .descriptorFetch r d
  · obtain ⟨r, d, rfl⟩ := hfetch
    obtain rfl | ⟨_, rfl⟩ := occurs_cases h
    · exact Nat.le_refl _
    · rw [State.remark_now]
      exact (State.renewVisits_quiet r (.refl s)).now
  · exact (exec_orderly hpower (fun r d hi => hfetch ⟨r, d, hi⟩) h).now

/-! ### The invariant -/

theorem State.Inv.orderly {s t : State} (hs : s.Inv) (h : s.Orderly t) : t.Inv where
  mem := h.mem hs.mem
  below f hf := by
    obtain ⟨g, hg, hid⟩ := List.mem_map.1 (h.ids.subset (List.mem_map_of_mem hf))
    rw [h.nextId, ← hid]
    exact hs.below g hg
  apart := h.ids.nodup hs.apart

theorem State.Inv.remark {s : State} (hs : s.Inv) : s.remark.Inv := hs.orderly (State.remark_quiet (.refl s)).orderly

/-- The command at the front of the queue is no part of the invariant. -/
theorem State.Inv.withPending {s : State} (hs : s.Inv) (l : List Instr) : State.Inv { s with pending := l } :=
  ⟨hs.mem, hs.below, hs.apart⟩

/-- The number of a fetched command is the fetch count, which no number in flight has reached (04 R65). -/
theorem State.Inv.fetch {s : State} (hs : s.Inv) (r : Nat) (d : Desc) : (s.fetch r d).Inv := by
  obtain ⟨f, hflights, hid, _⟩ := s.fetch_flights r d
  have hnext : (s.fetch r d).nextId = s.nextId + 1 := congrArg (· + 1) (s.renewVisits_nextId r)
  refine ⟨?_, fun g hg => ?_, ?_⟩
  · rw [show (s.fetch r d).mem = s.mem from (State.renewVisits_quiet r (.refl s)).mem]
    exact hs.mem
  · rw [hnext]
    rw [hflights, List.mem_append, List.mem_singleton] at hg
    obtain hold | rfl := hg
    · exact Nat.lt_succ_of_lt (hs.below g hold)
    · exact hid ▸ Nat.lt_succ_self _
  · rw [hflights, List.map_append, List.map_singleton, hid]
    refine List.nodup_append.2 ⟨hs.apart, List.nodup_singleton _, fun a ha b hb => ?_⟩
    obtain ⟨g, hg, rfl⟩ := List.mem_map.1 ha
    rw [List.mem_singleton.1 hb]
    exact Nat.ne_of_lt (hs.below g hg)

/-- Supply-on leaves an unwritten window and no command in flight. -/
theorem execPowerOn_inv {s t : State} {split : Fin 4} {l : Bool} {perst : BitVec 4} (hs : s.Inv)
    (h : execPowerOn split l perst s = .next t) : t.Inv := by
  obtain rfl | ⟨_, rfl⟩ := occurs_cases h
  · exact hs
  · have hinv : State.Inv { s.cleared [] with
        now := 0, boot := { cfgSplit := split, laserOffN := l }
        links := (List.range 4).map fun n => (n, { perst := perst.getLsbD n }) } :=
      ⟨rfl, fun _ hf => absurd hf List.not_mem_nil, List.nodup_nil⟩
    exact (hinv.orderly (State.Quiet.ite (State.pinOff_quiet (.refl _)) (.refl _)).orderly).remark

theorem exec_inv {s t : State} {i : Instr} (hs : s.Inv) (h : exec i s = .next t) : t.Inv := by
  by_cases hpower : ∃ split l perst, i = .powerOn split l perst
  · obtain ⟨split, l, perst, rfl⟩ := hpower
    exact execPowerOn_inv hs h
  by_cases hfetch : ∃ r d, i = .descriptorFetch r d
  · obtain ⟨r, d, rfl⟩ := hfetch
    obtain rfl | ⟨_, rfl⟩ := occurs_cases h
    · exact hs
    · exact (hs.fetch r d).remark
  · exact hs.orderly <| exec_orderly (fun split l perst hi => hpower ⟨split, l, perst, hi⟩) (fun r d hi => hfetch ⟨r, d, hi⟩) h

/-- Settles O4: a step idles, or runs the command at the front of the queue, which keeps the invariant. -/
theorem stepKeepsInv : Obligations.StepKeepsInv := by
  unfold Obligations.StepKeepsInv
  intro s t hs h
  unfold step at h
  split at h
  · cases h
    exact hs.orderly (State.idle_quiet (.refl s)).orderly
  · exact exec_inv (hs.withPending _) h

/-- Settles O3: after reset the window is unwritten and no command is in flight. -/
theorem invAtReset : Obligations.InvAtReset :=
  ⟨State.reset_mem_wf, fun _ hf => absurd hf List.not_mem_nil, List.nodup_nil⟩

end Sys2Proof.Machine
end

section
/-! Steps, resets, supply, boot, recovery and the host links (19 R416 to R418, R428; 20 R442, R443; 22 R466 to R468, R477;
02 R32, R33; 03 R35, R38; 21 R459; 00 R493). -/

namespace Sys2Proof.Machine

/-! ### What a reset clears -/

theorem Sparse.get_map {α β : Type} (d : α) (m : Sparse α) (g : α → β) (i : Nat) :
    Sparse.get (g d) (m.map fun p => (p.1, g p.2)) i = g (m.get d i) := by
  induction m with
  | nil => rfl
  | cons p m ih =>
    simp only [List.map_cons, Sparse.get, ih]
    split <;> rfl

theorem State.ledgerWhole_channels (s : State) (w : LedgerWrite) : (s.ledgerWhole w).channels = s.channels := by
  cases w with
  | partition id p => rfl
  | floor id v =>
    simp only [State.ledgerWhole]
    split <;> rfl

@[simp] theorem State.cleared_chan (s : State) (whole : List Nat) (c : Nat) : (s.cleared whole).chan c = (s.chan c).flash := by
  simp only [State.chan, State.cleared, foldl_eq_of (·.channels) _ _ _ State.ledgerWhole_channels]
  exact Sparse.get_map {} s.channels Channel.flash c

/-- A channel of which only what flash holds is left has nothing else: it is Dark, with its shutter closed and no key. -/
theorem Channel.flash_cipher (ch : Channel) (l : Nat) : ch.flash.cipher l = {} := rfl

/-- The state but for the pins and clocks of the boot, the channels, the events gathered and the shore chain. -/
def State.bare (s : State) : State := { s with boot := {}, channels := [], batch := [], shore := {} }

/-- A channel but for what shutdown causes leave on it, and for CHAN_HOLD. -/
def Channel.unshut (ch : Channel) : Channel := { ch with opt := { ch.opt with raised := 0, shutdowns := 0 }, hold := false }

/-- An alarm reaches the events gathered and the shore chain only. -/
theorem State.sendAlarm_reach (s : State) (cause : Nat) (on : Bool) :
    ∃ es x, s.sendAlarm cause on = { s with batch := es, shore := x } := by
  unfold State.sendAlarm State.headAlarm
  generalize (if cause = 5 then 2047 else 1) = dst
  dsimp only
  split
  · split
    · exact ⟨_, _, rfl⟩
    · exact ⟨_, _, rfl⟩
  · exact ⟨_, _, rfl⟩

theorem State.sendAlarm_bare (s : State) (cause : Nat) (on : Bool) : (s.sendAlarm cause on).bare = s.bare := by
  obtain ⟨es, x, h⟩ := s.sendAlarm_reach cause on
  rw [h]; rfl

@[simp] theorem State.sendAlarm_boot (s : State) (cause : Nat) (on : Bool) : (s.sendAlarm cause on).boot = s.boot := by
  obtain ⟨es, x, h⟩ := s.sendAlarm_reach cause on
  rw [h]

@[simp] theorem State.sendAlarm_chan (s : State) (cause : Nat) (on : Bool) (c : Nat) :
    (s.sendAlarm cause on).chan c = s.chan c := by
  obtain ⟨es, x, h⟩ := s.sendAlarm_reach cause on
  rw [h]; rfl

theorem State.setChan_unshut {s : State} {c : Nat} {x : Channel} (h : x.unshut = (s.chan c).unshut) (d : Nat) :
    ((s.setChan c x).chan d).unshut = (s.chan d).unshut := by
  rw [State.setChan_chan]
  split
  · next hd => rw [h, hd]
  · rfl

theorem State.shutEvent_unshut (s : State) (c k d : Nat) : ((s.shutEvent c k).chan d).unshut = (s.chan d).unshut := by
  change ((s.setChan c _).chan d).unshut = _
  refine State.setChan_unshut ?_ d
  rfl

/-- LASER_OFF_N: the boot notes the pin, and every channel its cause. -/
theorem State.pinOff_boot (s : State) : s.pinOff.boot = { s.boot with laserOffN := true } := by
  unfold State.pinOff
  rw [State.sendAlarm_boot]
  exact foldl_eq_of (·.boot) _ _ _ fun s c => rfl

theorem State.pinOff_bare (s : State) : s.pinOff.bare = s.bare := by
  unfold State.pinOff
  rw [State.sendAlarm_bare]
  exact foldl_eq_of State.bare _ _ _ fun s c => rfl

theorem State.pinOff_unshut (s : State) (c : Nat) : (s.pinOff.chan c).unshut = (s.chan c).unshut := by
  unfold State.pinOff
  rw [State.sendAlarm_chan]
  exact foldl_eq_of (fun s => (s.chan c).unshut) _ _ _ fun s d => s.shutEvent_unshut d 1 c

/-- A standing cause changes what the channels have raised only. -/
theorem State.standing_of {β : Type} (obs : State → β)
    (h : ∀ (s : State) c r, obs (s.onOpt c fun x => { x with raised := r }) = obs s) (s : State) : obs s.standing = obs s := by
  unfold State.standing
  extract_lets r
  split
  · rfl
  · exact foldl_eq_of obs _ _ _ fun s c => h s c r

@[simp] theorem State.standing_boot (s : State) : s.standing.boot = s.boot := State.standing_of (·.boot) (fun _ _ _ => rfl) s
@[simp] theorem State.standing_shore (s : State) : s.standing.shore = s.shore := State.standing_of (·.shore) (fun _ _ _ => rfl) s
theorem State.standing_bare (s : State) : s.standing.bare = s.bare := State.standing_of State.bare (fun _ _ _ => rfl) s
theorem State.standing_unshut (s : State) (c : Nat) : (s.standing.chan c).unshut = (s.chan c).unshut :=
  State.standing_of (fun s => (s.chan c).unshut) (fun s d r => by
    change ((s.setChan d _).chan c).unshut = _
    refine State.setChan_unshut ?_ c
    rfl) s

theorem State.remark_unshut (s : State) (c : Nat) : (s.remark.chan c).unshut = (s.chan c).unshut := by
  obtain ⟨h, e⟩ := s.remark_chan c
  rw [e]; rfl

/-- What a reset leaves: no key, no command, no ring and no byte of the host window, and every channel with what flash holds of it. -/
structure State.Swept (s t : State) : Prop where
  jobKeys : t.jobKeys = []
  kek : t.sec.kek = none
  flights : t.flights = []
  rings : t.rings = []
  mem : t.mem = []
  chans : ∀ c, (t.chan c).unshut = (s.chan c).flash.unshut

theorem State.Swept.of_bare {s t u : State} (hu : s.Swept u) (hbare : t.bare = u.bare)
    (hchans : ∀ c, (t.chan c).unshut = (u.chan c).unshut) : s.Swept t where
  jobKeys := (congrArg State.jobKeys hbare :).trans hu.jobKeys
  kek := (congrArg (fun x : State => x.sec.kek) hbare :).trans hu.kek
  flights := (congrArg State.flights hbare :).trans hu.flights
  rings := (congrArg State.rings hbare :).trans hu.rings
  mem := (congrArg State.mem hbare :).trans hu.mem
  chans c := (hchans c).trans (hu.chans c)

theorem State.Swept.remark {s t : State} (h : s.Swept t) : s.Swept t.remark where
  jobKeys := by simpa using h.jobKeys
  kek := by simpa using h.kek
  flights := by simpa using h.flights
  rings := by simpa using h.rings
  mem := by simpa using h.mem
  chans c := (t.remark_unshut c).trans (h.chans c)

theorem State.cleared_swept (s : State) (whole : List Nat) : s.Swept (s.cleared whole) :=
  ⟨rfl, rfl, rfl, rfl, rfl, fun c => by rw [State.cleared_chan]⟩

/-- Boot, links and the instant of a cleared state may be set: nothing returns that the reset cleared. -/
theorem State.Swept.started {s u : State} (hu : s.Swept u) (now : Nat) (b : Boot) (ls : Sparse Link) :
    s.Swept { u with now := now, boot := b, links := ls } :=
  { hu with chans := hu.chans }

theorem State.Swept.resumed {s u : State} (hu : s.Swept u) (x : Security) (hx : x.kek = none) (ms : Sparse Sram) (b : Boot)
    (y : Shore) (z : Timing) (due : Nat) (m : Sparse Nat) (low : Option Nat) (ls : Sparse Link) :
    s.Swept { u with sec := x, srams := ms, boot := b, shore := y, tm := z, hourDue := due, since := m, lowWater := low, links := ls } :=
  { hu with kek := hx, chans := hu.chans }

theorem State.moduleReset_swept (s : State) (whole : List Nat) : s.Swept (s.moduleReset whole) := by
  unfold State.moduleReset
  refine State.Swept.of_bare ?_ (State.standing_bare _) (State.standing_unshut _)
  exact (s.cleared_swept whole).resumed _ rfl ..

section Swept

variable {s t : State} (h : s.Swept t)
include h

theorem State.Swept.chan_pw (c : Nat) : (t.chan c).pw = {} := congrArg Channel.pw (h.chans c)
theorem State.Swept.chan_bu (c : Nat) : (t.chan c).bu = {} := congrArg Channel.bu (h.chans c)
theorem State.Swept.chan_cx (c : Nat) : (t.chan c).cx = [] := congrArg Channel.cx (h.chans c)
theorem State.Swept.chan_shutter (c : Nat) : (t.chan c).opt.shutter = true :=
  congrArg (fun x : Channel => x.opt.shutter) (h.chans c)

theorem State.Swept.cipherOf (k : Nat) : t.cipherOf k = {} := by
  rw [State.cipherOf, Channel.cipher, h.chan_cx, Sparse.get_nil]

theorem State.Swept.clears :
    (∀ k, (t.cipherOf k).current = none ∧ (t.cipherOf k).next = none ∧ (t.cipherOf k).retiring = []) ∧ t.jobKeys = [] ∧
      t.sec.kek = none ∧ t.flights = [] ∧ (∀ r, (t.ring r).en = false) ∧
      (∀ c, (t.chan c).pw.level = .dark ∧ (t.chan c).bu.step = 0 ∧ (t.chan c).opt.shutter = true) ∧ t.mem = [] := by
  refine ⟨fun k => ?_, h.jobKeys, h.kek, h.flights, fun r => ?_, fun c => ?_, h.mem⟩
  · rw [h.cipherOf]; exact ⟨rfl, rfl, rfl⟩
  · rw [State.ring, h.rings, Sparse.get_nil]
  · rw [h.chan_pw, h.chan_bu, h.chan_shutter]; exact ⟨rfl, rfl, rfl⟩

end Swept

/-! ### The rows of supply and reset -/

theorem execPowerOn_swept {split : Fin 4} {l : Bool} {perst : BitVec 4} {s t : State} (hoff : s.boot.powered = false)
    (h : execPowerOn split l perst s = .next t) : s.Swept t := by
  rw [execPowerOn, occurs_true _ (by simp [hoff])] at h
  obtain rfl := Host.Outcome.next.inj h
  refine State.Swept.remark ?_
  have hstart := (s.cleared_swept []).started 0 { cfgSplit := split, laserOffN := l }
    ((List.range 4).map fun n => (n, { perst := perst.getLsbD n }))
  cases l
  · exact hstart
  · exact hstart.of_bare (State.pinOff_bare _) (State.pinOff_unshut _)

theorem execSupplyLossShutdown_swept {whole : List Nat} {s t : State} (hon : s.boot.powered = true)
    (h : execSupplyLossShutdown whole s = .next t) : s.Swept t := by
  rw [execSupplyLossShutdown, occurs_true _ hon] at h
  obtain rfl := Host.Outcome.next.inj h
  exact ((s.cleared_swept whole).started _ { powered := false } _).remark

theorem execModReset_swept {whole : List Nat} {s t : State} (hon : s.boot.powered = true)
    (h : execModReset whole s = .next t) : s.Swept t := by
  rw [execModReset, occurs_true _ hon] at h
  obtain rfl := Host.Outcome.next.inj h
  exact (s.moduleReset_swept whole).remark

/-- Settles O1: a step is the row of the front command, and an empty queue idles. -/
theorem stepRunsFront : Obligations.StepRunsFront := by
  unfold Obligations.StepRunsFront
  refine ⟨fun s c rest h => ?_, fun s hq hp => ?_, fun s hq hp => ?_⟩
  · simp only [step, h]
  · simp only [step, hq, State.idle, hp, if_true]
  · simp [step, hq, State.idle, hp]

/-- Settles O2: the fields of the reset state, and what an empty collection reads. -/
theorem resetState : Obligations.ResetState := by
  unfold Obligations.ResetState
  refine ⟨rfl, rfl, rfl, fun c => ⟨rfl, rfl, rfl, rfl, rfl⟩, fun n => ⟨rfl, rfl⟩, fun r => rfl, fun a => rfl, rfl, rfl, rfl, rfl⟩

/-- Settles O10: each of the three rows leaves the state swept. -/
theorem resetsClearTheModule : Obligations.ResetsClearTheModule := by
  unfold Obligations.ResetsClearTheModule
  rintro s t i (⟨⟨split, l, perst, rfl⟩, hp⟩ | ⟨⟨w, rfl⟩, hp⟩ | ⟨⟨w, rfl⟩, hp⟩) h
  · exact (execPowerOn_swept hp h).clears
  · exact (execSupplyLossShutdown_swept hp h).clears
  · exact (execModReset_swept hp h).clears

end Sys2Proof.Machine
end

section
/-! The candidate that the selector takes (14 R336), and the step limits of calibration (12 R283). -/

namespace Sys2Proof.Machine

/-! ### The best candidate -/

theorem Timing.ranks_trans {t : Timing} {i j k : Nat} (hij : t.ranks i j = true) (hjk : t.ranks j k = true) :
    t.ranks i k = true := by
  simp only [Timing.ranks, Bool.or_eq_true, Bool.and_eq_true, decide_eq_true_eq] at *
  omega

theorem Timing.ranks_total (t : Timing) {j k : Nat} (h : j ≠ k) : t.ranks j k = true ∨ t.ranks k j = true := by
  simp only [Timing.ranks, Bool.or_eq_true, Bool.and_eq_true, decide_eq_true_eq]
  omega

/-- Slot j is eligible, and no eligible slot of the list ranks before it. -/
def Timing.Leads (t : Timing) (xs : List Nat) (j : Nat) : Prop :=
  j ∈ xs ∧ (t.cand j).eligible = true ∧ ∀ k ∈ xs, (t.cand k).eligible = true → j = k ∨ t.ranks j k = true

/-- What the search for the best candidate holds after the slots of a list. -/
def Timing.Found (t : Timing) (xs : List Nat) : Option Nat → Prop
  | none => ∀ k ∈ xs, (t.cand k).eligible = false
  | some j => t.Leads xs j

theorem Timing.Found.skip {t : Timing} {xs : List Nat} {m : Option Nat} {k : Nat} (h : t.Found xs m)
    (hk : (t.cand k).eligible = false) : t.Found (xs ++ [k]) m := by
  cases m with
  | none => simpa [Timing.Found, or_imp, forall_and, hk] using h
  | some j =>
    obtain ⟨hj, he, hall⟩ := h
    refine ⟨by simp [hj], he, fun i hi hei => ?_⟩
    rcases List.mem_append.1 hi with hi | hi
    · exact hall i hi hei
    · obtain rfl := List.mem_singleton.1 hi
      rw [hk] at hei; cases hei

/-- The search takes slot k: nothing of the list was eligible, or the leader ranks after it. -/
theorem Timing.Leads.take {t : Timing} {xs : List Nat} {k : Nat} (hk : (t.cand k).eligible = true)
    (h : ∀ i ∈ xs, (t.cand i).eligible = true → k = i ∨ t.ranks k i = true) : t.Leads (xs ++ [k]) k := by
  refine ⟨by simp, hk, fun i hi hei => ?_⟩
  rcases List.mem_append.1 hi with hi | hi
  · exact h i hi hei
  · exact .inl (List.mem_singleton.1 hi).symm

theorem Timing.Leads.keep {t : Timing} {xs : List Nat} {j k : Nat} (h : t.Leads xs j)
    (hk : j = k ∨ t.ranks j k = true) : t.Leads (xs ++ [k]) j := by
  obtain ⟨hj, he, hall⟩ := h
  refine ⟨by simp [hj], he, fun i hi hei => ?_⟩
  rcases List.mem_append.1 hi with hi | hi
  · exact hall i hi hei
  · rw [List.mem_singleton.1 hi]; exact hk

/-- One step of the search. -/
def Timing.better (t : Timing) (m : Option Nat) (k : Nat) : Option Nat :=
  if (t.cand k).eligible then
    (match m with | none => some k | some j => if t.ranks k j then some k else some j) else m

theorem Timing.Found.better {t : Timing} {xs : List Nat} {m : Option Nat} (h : t.Found xs m) (k : Nat) :
    t.Found (xs ++ [k]) (t.better m k) := by
  unfold Timing.better
  by_cases hk : (t.cand k).eligible = true
  · rw [if_pos hk]
    cases m with
    | none => exact Timing.Leads.take hk fun i hi hei => by rw [h i hi] at hei; cases hei
    | some j =>
      dsimp only
      split
      · next hkj =>
        refine Timing.Leads.take hk fun i hi hei => .inr ?_
        obtain rfl | hji := h.2.2 i hi hei
        · exact hkj
        · exact Timing.ranks_trans hkj hji
      · next hkj =>
        refine h.keep ?_
        by_cases hjk : j = k
        · exact .inl hjk
        · exact .inr ((t.ranks_total hjk).resolve_right hkj)
  · rw [if_neg hk]
    exact h.skip (Bool.eq_false_iff.2 hk)

theorem Timing.found_foldl (t : Timing) (xs ys : List Nat) (m : Option Nat) (h : t.Found xs m) :
    t.Found (xs ++ ys) (ys.foldl t.better m) := by
  induction ys generalizing xs m with
  | nil => simpa using h
  | cons k ys ih => simpa using ih (xs ++ [k]) _ (h.better k)

theorem Timing.best_found (t : Timing) : t.Found (List.range 8) t.best :=
  t.found_foldl [] (List.range 8) none (by simp [Timing.Found])

/-! ### Reselection -/

@[simp] theorem State.moveTo_selected (s : State) (k : Nat) (cause : Option Nat) : (s.moveTo k cause).tm.selected = some k := by
  simp only [State.moveTo, State.raise_tm]
  split <;> rfl

@[simp] theorem State.enterHoldover_selected (s : State) (cause : Option Nat) : (s.enterHoldover cause).tm.selected = none := rfl

/-- In revertive mode a reselection leaves the best candidate selected. -/
theorem State.reselect_best {s : State} (cause : Option Nat) (hr : s.tm.revert = true) {j : Nat} (hj : s.tm.best = some j) :
    (s.reselect cause).tm.selected = some j := by
  unfold State.reselect
  dsimp only
  cases hsel : s.tm.selected with
  | none => simp [hj]
  | some k =>
    dsimp only
    split
    · next hkeep =>
      simp only [hr, hj, Bool.not_true, Bool.false_or, Bool.and_eq_true, decide_eq_true_eq, Option.some.injEq] at hkeep
      rw [hsel, hkeep.2]
    · simp [hj]

/-- With no candidate to take, a reselection in revertive mode leaves nothing selected. -/
theorem State.reselect_none {s : State} (cause : Option Nat) (hr : s.tm.revert = true) (hj : s.tm.best = none) :
    (s.reselect cause).tm.selected = none := by
  unfold State.reselect
  dsimp only
  rw [if_neg (by split <;> simp [hr, hj]), hj]
  dsimp only
  split
  · simp
  · rfl

/-- Settles O19: the search finds a slot that no eligible one ranks before, and a reselection in revertive mode takes it. -/
theorem bestCandidateSelected : Obligations.BestCandidateSelected := by
  unfold Obligations.BestCandidateSelected
  intro s cause hr
  have hfound := s.tm.best_found
  constructor
  · intro k hk hek
    cases hb : s.tm.best with
    | none =>
      rw [hb] at hfound
      rw [hfound k (List.mem_range.2 hk)] at hek
      cases hek
    | some j =>
      rw [hb] at hfound
      obtain ⟨hj, hej, hall⟩ := hfound
      exact ⟨j, State.reselect_best cause hr hb, List.mem_range.1 hj, hej, hall k (List.mem_range.2 hk) hek⟩
  · intro hall _
    refine State.reselect_none cause hr ?_
    cases hb : s.tm.best with
    | none => rfl
    | some j =>
      rw [hb] at hfound
      obtain ⟨hj, hej, -⟩ := hfound
      rw [hall j (List.mem_range.1 hj)] at hej
      cases hej

/-! ### A calibration step -/

/-- Settles O20: the three cases of a step are those of its definition; the step limits are natural numbers. -/
theorem calibrationStepIsBounded : Obligations.CalibrationStepIsBounded := by
  unfold Obligations.CalibrationStepIsBounded
  intro i cur est
  simp only [calStep, valueDist]
  generalize (calLimits i).2 = limit
  refine ⟨fun h => ?_, fun h => ?_, rfl⟩
  · simp only [h, decide_true, Bool.true_and, if_true]
    split <;> omega
  · simp [Nat.not_lt.2 h]

end Sys2Proof.Machine
end

section
/-! What an observation of the channels sees: an operation that changes a channel in parts that the observation misses leaves every
channel as it is seen. -/

namespace Sys2Proof.Machine

/-- Every channel as an observation sees it. -/
def State.view {β : Type} (obs : Channel → β) (s : State) (c : Nat) : β := obs (s.chan c)

section View

variable {β : Type} {obs : Channel → β} (s : State)

@[simp] theorem State.view_setChan {s : State} {c : Nat} {x : Channel} (h : obs x = obs (s.chan c)) :
    (s.setChan c x).view obs = s.view obs := by
  funext d
  rw [State.view, State.view, State.setChan_chan]
  split
  · next hd => rw [h, hd]
  · rfl

@[simp] theorem State.view_ite {p : Prop} [Decidable p] (s t : State) :
    (if p then s else t).view obs = if p then s.view obs else t.view obs :=
  apply_ite (State.view obs) p s t

theorem State.view_foldl {α : Type} {g : State → α → State} (h : ∀ s x, (g s x).view obs = s.view obs) (xs : List α) (s : State) :
    (xs.foldl g s).view obs = s.view obs :=
  foldl_eq_of (State.view obs) xs g s h

/-- An operation that leaves the channels as they are leaves them as they are seen. -/
theorem State.view_congr {s t : State} (h : ∀ c, t.chan c = s.chan c) : t.view obs = s.view obs :=
  funext fun c => congrArg obs (h c)

@[simp] theorem State.view_setRing (r : Nat) (x : Ring) : (s.setRing r x).view obs = s.view obs := rfl
@[simp] theorem State.view_setLink (n : Nat) (x : Link) : (s.setLink n x).view obs = s.view obs := rfl
@[simp] theorem State.view_setConv (k : Nat) (x : Converter) : (s.setConv k x).view obs = s.view obs := rfl
@[simp] theorem State.view_setSram (k : Nat) (x : Sram) : (s.setSram k x).view obs = s.view obs := rfl
@[simp] theorem State.view_setGroup (g : Nat) (x : Group) : (s.setGroup g x).view obs = s.view obs := rfl
@[simp] theorem State.view_onSec (g : Security → Security) : (s.onSec g).view obs = s.view obs := rfl
@[simp] theorem State.view_onTm (g : Timing → Timing) : (s.onTm g).view obs = s.view obs := rfl
@[simp] theorem State.view_onShore (g : Shore → Shore) : (s.onShore g).view obs = s.view obs := rfl
@[simp] theorem State.view_onBoot (g : Boot → Boot) : (s.onBoot g).view obs = s.view obs := rfl
@[simp] theorem State.view_at (due : Nat) : (s.at due).view obs = s.view obs := rfl
@[simp] theorem State.view_draw : s.draw.view obs = s.view obs := rfl
@[simp] theorem State.view_emit (o : Output) : (s.emit o).view obs = s.view obs := rfl
@[simp] theorem State.view_raise (source code sev : Nat) (d0 : Word) (d1 : BitVec 32) (cause : Option Nat) :
    (s.raise source code sev d0 d1 cause).view obs = s.view obs := rfl
@[simp] theorem State.view_onFlight (id : Nat) (g : Flight → Flight) : (s.onFlight id g).view obs = s.view obs := rfl
@[simp] theorem State.view_run (f : Flight) : (s.run f).view obs = s.view obs := rfl
@[simp] theorem State.view_finish (f : Flight) (st : Nat) (r0 r1 r2 : Option Nat) :
    (s.finish f st r0 r1 r2).view obs = s.view obs := State.view_congr fun c => by simp
@[simp] theorem State.view_finishId (id st : Nat) (r0 r1 r2 : Option Nat) :
    (s.finishId id st r0 r1 r2).view obs = s.view obs := State.view_congr fun c => by simp
@[simp] theorem State.view_finishOpt (id : Option Nat) (st : Nat) (r0 r1 r2 : Option Nat) :
    (s.finishOpt id st r0 r1 r2).view obs = s.view obs := State.view_congr fun c => by simp
@[simp] theorem State.view_finishAll (ids : List Nat) (st : Nat) : (s.finishAll ids st).view obs = s.view obs :=
  State.view_congr fun c => by simp
@[simp] theorem State.view_answer (f : Flight) (ws : List Word) (r0 r1 r2 : Option Nat) :
    (s.answer f ws r0 r1 r2).view obs = s.view obs := State.view_congr fun c => by simp

/-- CHAN_HOLD is all that the marks after a row change of a channel. -/
theorem State.view_remark (h : ∀ ch b, obs { ch with hold := b } = obs ch) : s.remark.view obs = s.view obs := by
  funext c
  obtain ⟨b, e⟩ := s.remark_chan c
  rw [State.view, State.view, e, h]

end View

end Sys2Proof.Machine
end

section
/-! Ageing and the tidemark ledger: the commands, trend samples, and the hourly and daily records (16 R375, R376, R378, R383, R384). -/

namespace Sys2Proof.Machine

/-! ### The commands -/

section Commands

variable {s : State} {id c : Nat} {f : Flight} (hc : f.desc.target = c)
include hc

theorem execAgeConfig_sets (h : s.Started id 0x1B00 f) (hn : f.desc.p0.bits 7 0 ≤ 64) (hauto : f.desc.p0.bits 9 8 ≠ 3)
    (hlead : (lxLead (f.desc.p0.bits 17 11)).isSome = true)
    (hmode : f.desc.p0.bits 9 8 = 0 ∨ (s.chan c).pm.mode = .pointToPoint) :
    s.Does (.ageConfig id) ((s.onAge c fun x => { x with
      target := f.desc.p0.bits 7 0, autonomy := f.desc.p0.bits 9 8, save := f.desc.p0.bit 10
      lead := f.desc.p0.bits 17 11 }).finish f 0) := by
  subst hc
  refine (withCmd_started h _).trans ?_
  have hlead : (lxLead (f.desc.p0.bits 17 11)).isNone = false := by simpa using hlead
  have hmode : ¬ (f.desc.p0.bits 9 8 ≠ 0 ∧ (s.chan f.desc.target).pm.mode ≠ .pointToPoint) := by tauto
  dsimp only
  rw [if_neg]
  simpa [Nat.not_lt.2 hn, hauto, hlead] using hmode

theorem execAgeStatus_answers (h : s.Started id 0x1B01 f) : ∃ ws, ws.length = 4 ∧
    wd ws 2 = mkWord [(0, 32, (s.chan c).age.replans.toNat), (32, 32, (s.chan c).age.proposals.toNat)] ∧
    wd ws 3 = mkWord [(0, 32, (s.chan c).age.shortfalls.toNat)] ∧ s.Does (.ageStatus id) (s.answer f ws) :=
  hc ▸ ⟨s.ageWords f.desc.target, rfl, rfl, rfl, withCmd_started h _⟩

theorem execAgeLedgerRead_answers {rs : List TideRecord} {n : Nat} (h : s.Started id 0x1B02 f)
    (hn : n = f.desc.p0.bits 41 32) (hlo : 1 ≤ n) (hhi : n ≤ 512)
    (hrs : rs = (if f.desc.p0.bit 42 then (s.chan c).age.daily else (s.chan c).age.hourly).filter (fun r =>
      f.desc.p0.bits 31 0 ≤ r.seq.toNat && r.seq.toNat < f.desc.p0.bits 31 0 + n)) :
    s.Does (.ageLedgerRead id) (s.answer f (rs.flatMap fun r => r.words c) (some rs.length)) := by
  subst hc hn hrs
  refine (withCmd_started h _).trans ?_
  dsimp only
  rw [if_neg]
  simp only [Bool.or_eq_true, decide_eq_true_eq]
  omega

theorem execAgeProposal_answers {ws : List Word} (h : s.Started id 0x1B03 f) (hp : (s.chan c).age.proposal = some ws) :
    s.Does (.ageProposal id) (s.answer f (List.replicate 8 0 ++ ws)) := by
  subst hc
  exact (withCmd_started h _).trans (by simp only [hp])

theorem execAgeProposal_refuses (h : s.Started id 0x1B03 f) (hp : (s.chan c).age.proposal = none) :
    s.Does (.ageProposal id) (s.finish f 0x20) := by
  subst hc
  exact (withCmd_started h _).trans (by simp only [hp])

theorem execAgeShortfall_answers {bytes : List Byte} (h : s.Started id 0x1B04 f)
    (hb : bytes = (((s.chan c).age.shortfall.getD []) ++ [0xFFFF]).flatMap (leBytes 2)) :
    (bytes.length ≤ f.desc.bufLen → s.Does (.ageShortfall id) ((s.writeBuf f 0 bytes).finish f 0)) ∧
    (f.desc.bufLen < bytes.length → s.Does (.ageShortfall id) (s.finish f 0x01)) := by
  subst hc hb
  refine ⟨fun hfits => (withCmd_started h _).trans ?_, fun hlong => (withCmd_started h _).trans ?_⟩
  · rw [State.answerBytes, if_neg (Nat.not_lt.2 hfits)]
  · rw [State.answerBytes, if_pos hlong]

end Commands

/-! ### What the evaluation of an hourly record leaves alone -/

/-- The hourly records and the samples of the hour. -/
abbrev Channel.hour (ch : Channel) : List TideRecord × List Trend := (ch.age.hourly, ch.age.samples)

section Hour

variable (s : State) (c : Nat)

theorem State.endShort_hour : (s.endShort c).view Channel.hour = s.view Channel.hour := by
  unfold State.endShort
  split
  · exact State.view_setChan rfl
  · rfl

theorem State.beginShort_hour : (s.beginShort c).view Channel.hour = s.view Channel.hour := by
  unfold State.beginShort
  dsimp only
  split <;> simp [State.shortfallEvent]

theorem State.ownExchange_hour (x : LoadSet) : (s.ownExchange c x).view Channel.hour = s.view Channel.hour := by
  unfold State.ownExchange
  dsimp only
  split <;> simp [State.lxPropose]

theorem State.replan_hour (x : LoadSet) (codes : List (Option Rat)) :
    (s.replan c x codes).view Channel.hour = s.view Channel.hour := by
  unfold State.replan
  dsimp only
  split
  · simp
  · exact s.ownExchange_hour c x

theorem State.evaluate_hour (codes : List (Option Rat)) (lq : Int) :
    (s.evaluate c codes lq).view Channel.hour = s.view Channel.hour := by
  have hplan (n : Nat) : (s.onAge c fun y => { y with sPlan := n }).view Channel.hour = s.view Channel.hour := by
    simp
  unfold State.evaluate
  dsimp only
  split
  · exact s.endShort_hour c
  split
  · rw [State.endShort_hour, hplan]
  split
  · rw [State.beginShort_hour, hplan]
  · rw [State.replan_hour, State.endShort_hour, hplan]

end Hour

/-! ### Records -/

/-- A list that takes a record at its end and drops what it holds beyond n + 1 ends with the record. -/
theorem getLast?_append_drop {α : Type} (xs : List α) (x : α) (n : Nat) :
    ((xs ++ [x]).drop (xs.length - n)).getLast? = some x := by
  rw [List.drop_append_of_le_length (by omega), List.getLast?_concat]

theorem length_append_drop {α : Type} (xs : List α) (x : α) (n : Nat) : ((xs ++ [x]).drop (xs.length - n)).length ≤ n + 1 := by
  simp only [List.length_drop, List.length_append, List.length_singleton]
  omega

/-- The record that an hour leaves. -/
def State.hourEntry (s : State) (c : Nat) : TideRecord :=
  { seq := BitVec.ofNat 32 (max ((s.chan c).age.hours + 1) (cdiv s.boot.originNs 3600000000000)), daily := false
    powerH := s.powerHours, upH := (s.chan c).age.upMin / 60, mean := Trend.mean (s.chan c).age.samples }

theorem State.hourlyRecord_hour (s : State) (c : Nat) : (s.hourlyRecord c).view Channel.hour c =
    (((s.chan c).age.hourly ++ [s.hourEntry c]).drop ((s.chan c).age.hourly.length - 167), []) := by
  unfold State.hourlyRecord
  extract_lets a s' h m r past t
  have ht : t.view Channel.hour c = ((a.hourly ++ [r]).drop (a.hourly.length - 167), []) := by
    simp [State.view, Channel.hour, t, s', a]
  have hend : (t.endShort c).view Channel.hour c = t.view Channel.hour c := congrFun (t.endShort_hour c) c
  have hev (codes : List (Option Rat)) (lq : Int) : (t.evaluate c codes lq).view Channel.hour c = t.view Channel.hour c :=
    congrFun (t.evaluate_hour c codes lq) c
  split
  · exact (hev _ _).trans ht
  · exact hend.trans ht

theorem execHourlyRecord_records {s : State} {c : Fin 32} (hon : s.boot.powered = true) :
    ∃ t r, exec (.hourlyRecord c) s = .next t ∧ (t.chan c).age.hourly.getLast? = some r ∧ r.daily = false ∧
      r.powerH = s.powerHours ∧ r.upH = (s.chan c).age.upMin / 60 ∧ r.mean = Trend.mean (s.chan c).age.samples ∧
      (t.chan c).age.hourly.length ≤ 168 ∧ (t.chan c).age.samples = [] := by
  obtain ⟨hlog, hsamples⟩ := Prod.mk.inj (s.hourlyRecord_hour c)
  refine ⟨_, s.hourEntry c, occurs_true _ hon, ?_, rfl, rfl, rfl, rfl, ?_, ?_⟩
  · rw [State.remark_chan_age, hlog, getLast?_append_drop]
  · rw [State.remark_chan_age, hlog]
    exact length_append_drop ..
  · rw [State.remark_chan_age, hsamples]

/-- The daily records, their number and the records of the day. -/
abbrev Channel.day (ch : Channel) : List TideRecord × BitVec 32 × List TideRecord := (ch.age.daily, ch.age.dailySeq, ch.age.today)

theorem State.crossLimit_day (s : State) (c q : Nat) : (s.crossLimit c q).view Channel.day = s.view Channel.day := by
  unfold State.crossLimit
  split <;> simp

/-- The record that a ledger day leaves. -/
def State.dayEntry (s : State) (c : Nat) : TideRecord :=
  { seq := (s.chan c).age.dailySeq, daily := true, powerH := s.powerHours, upH := (s.chan c).age.upMin / 60
    mean := Trend.mean ((s.chan c).age.today.map (·.mean)) }

theorem State.dailyRecord_day (s : State) (c : Nat) : (s.dailyRecord c).view Channel.day c =
    (((s.chan c).age.daily ++ [s.dayEntry c]).drop ((s.chan c).age.daily.length - 4095), (s.chan c).age.dailySeq + 1, []) := by
  unfold State.dailyRecord
  extract_lets a s' r daily zero t
  have ht : t.view Channel.day c = (daily, a.dailySeq + 1, []) := by simp [State.view, Channel.day, t, s', a]
  split
  · exact ht
  · dsimp only
    have hfold (xs : List (Bool × Nat)) :
        (xs.foldl (fun s p => if p.1 then s.crossLimit c (p.2 + 1) else s) t).view Channel.day = t.view Channel.day :=
      State.view_foldl (fun s p => by split <;> simp [State.crossLimit_day]) xs t
    split
    · rw [State.crossLimit_day, hfold]
      exact ht
    · rw [hfold]
      exact ht

theorem execDailyRecord_records {s : State} {c : Fin 32} (hon : s.boot.powered = true)
    (hdue : nextMark s (s.chan c).age.days 86400000000000 ≤ (s.chan c).age.hours * 3600000000000) :
    ∃ t r, exec (.dailyRecord c) s = .next t ∧ (t.chan c).age.daily.getLast? = some r ∧ r.daily = true ∧
      r.seq = (s.chan c).age.dailySeq ∧ (t.chan c).age.dailySeq = (s.chan c).age.dailySeq + 1 ∧
      (t.chan c).age.daily.length ≤ 4096 ∧ (t.chan c).age.today = [] := by
  obtain ⟨hlog, hrest⟩ := Prod.mk.inj (s.dailyRecord_day c)
  obtain ⟨hseq, htoday⟩ := Prod.mk.inj hrest
  refine ⟨_, s.dayEntry c, occurs_true _ (by simp [hon, hdue]), ?_, rfl, rfl, ?_, ?_, ?_⟩
  · rw [State.remark_chan_age, hlog, getLast?_append_drop]
  · rw [State.remark_chan_age, hseq]
  · rw [State.remark_chan_age, hlog]
    exact length_append_drop ..
  · rw [State.remark_chan_age, htoday]

theorem execTrendSample_samples {s : State} {c : Fin 32} (x : TrendIn) (hon : s.boot.powered = true)
    (hup : (s.chan c).awake = true) : ∃ t, exec (.trendSample c x) s = .next t ∧
    (t.chan c).age.upMin = (s.chan c).age.upMin + 1 ∧
    ∃ q, (t.chan c).age.samples = (s.chan c).age.samples ++ [q] := by
  refine ⟨_, occurs_true _ (by simp [hon, hup]), ?_, ?_⟩
  · simp [State.takeSample]
  · exact ⟨_, by simp only [State.takeSample, State.remark_chan_age, State.draw_chan, State.onChan_eq, State.setChan_chan_same,
      State.at_chan]; rfl⟩

/-- Settles O57: each command on its started form, and each record through what it leaves of the hour and of the day. -/
theorem ageingComplete : Obligations.AgeingComplete := by
  unfold Obligations.AgeingComplete
  refine ⟨fun s id c f hc => ⟨?_, ?_, ?_, ?_, ?_, ?_⟩, fun s c hon => ⟨?_, ?_, ?_⟩⟩
  · exact execAgeConfig_sets hc
  · exact execAgeStatus_answers hc
  · exact fun rs n => execAgeLedgerRead_answers hc
  · exact fun ws => execAgeProposal_answers hc
  · exact execAgeProposal_refuses hc
  · exact fun bytes => execAgeShortfall_answers hc
  · exact fun x => execTrendSample_samples x hon
  · exact execHourlyRecord_records hon
  · exact execDailyRecord_records hon

end Sys2Proof.Machine
end

section
/-! The memory operations: what a fill or copy stores in the host window, and a counterexample to the scrubber's statement
(17 R389 to R391, R400, R401). -/

namespace Sys2Proof.Machine

/-! ### Commands that are gone stay gone -/

theorem State.flight?_eq_none_iff {s : State} {i : Nat} : s.flight? i = none ↔ i ∉ s.flights.map Flight.id := by
  simp [State.flight?]

/-- A quiet operation brings no ended command back. -/
theorem State.Quiet.flight?_none {s t : State} {i : Nat} (h : s.Quiet t) (hi : s.flight? i = none) : t.flight? i = none :=
  State.flight?_eq_none_iff.2 fun hmem => State.flight?_eq_none_iff.1 hi (h.ids.subset hmem)

theorem State.stopTransfer_flight? (s : State) (ring : Option Nat) (i : Nat) : (s.stopTransfer ring (some i)).flight? i = none := by
  unfold State.stopTransfer
  extract_lets served t
  have ht : t.flight? i = none := s.finishId_flight? i 0x07 none none none
  clear_value served
  cases served with
  | none => exact ht
  | some r => exact (State.haltRing_quiet _ _ (.refl t)).flight?_none ht

theorem State.dmaRead_flight? {s : State} (f : Flight) (k a len : Nat) (new : List (Nat × Nat)) {go : State → State}
    (hgo : ∀ u, (go u).flight? f.id = none) : (s.dmaRead f k a len new go).flight? f.id = none := by
  unfold State.dmaRead
  split
  · exact hgo _
  · exact State.stopTransfer_flight? ..

/-! ### The bytes of a fill -/

theorem Word.length_bytes (w : Word) : (Word.bytes w).length = 8 := rfl

theorem Word.bytes_getElem? (w : Word) {i : Nat} (hi : i < 8) :
    (Word.bytes w)[i]? = some (BitVec.ofNat 8 (w.toNat / 256 ^ i)) := by
  rw [Word.bytes, List.getElem?_map, List.getElem?_range hi, Option.map_some, Nat.shiftRight_eq_div_pow, Nat.pow_mul]

/-- The bytes of one word, n times over. -/
def fillBytes (w : Word) (n : Nat) : List Byte := (List.replicate n w).flatMap Word.bytes

theorem length_fillBytes (w : Word) (n : Nat) : (fillBytes w n).length = 8 * n := by
  rw [fillBytes, ← wordsBytes, wordsBytes_length, List.length_replicate]

theorem fillBytes_succ (w : Word) (n : Nat) : fillBytes w (n + 1) = Word.bytes w ++ fillBytes w n := by
  rw [fillBytes, List.replicate_succ, List.flatMap_cons, fillBytes]

theorem fillBytes_getElem? (w : Word) {n k : Nat} (hk : k < 8 * n) :
    (fillBytes w n)[k]? = some (BitVec.ofNat 8 (w.toNat / 256 ^ (k % 8))) := by
  induction n generalizing k with
  | zero => omega
  | succ n ih =>
    rw [fillBytes_succ]
    by_cases h8 : k < 8
    · rw [List.getElem?_append_left (by rwa [Word.length_bytes]), Word.bytes_getElem? w h8, Nat.mod_eq_of_lt h8]
    · rw [List.getElem?_append_right (by rw [Word.length_bytes]; omega), Word.length_bytes, ih (by omega),
        show (k - 8) % 8 = k % 8 by omega]

/-! ### The end of a memory operation -/

section Done

variable {s : State} {f : Flight} {id : Nat} (contents : List Byte) (corr : List (Nat × Fin 72))

/-- The command of a memory operation that runs. -/
abbrev State.Working (s : State) (id : Nat) (f : Flight) : Prop :=
  s.flights.find? (fun f => f.id = id && f.phase = .running && (f.desc.opcode = 0x1800 || f.desc.opcode = 0x1801 ||
    f.desc.opcode = 0x1802 || f.desc.opcode = 0x1803)) = some f

theorem State.Working.id_eq (h : s.Working id f) : f.id = id := by
  have := List.find?_some h
  simp only [Bool.and_eq_true, decide_eq_true_eq] at this
  exact this.1.1

theorem State.Working.does (h : s.Working id f) :
    s.Does (.memOperationDone id contents corr) (s.memDone f contents (corr.map fun e => (e.1, e.2.val))) :=
  occursWith_some _ h

theorem State.memDone_fill (corr : List (Nat × Nat)) (hop : f.desc.opcode = 0x1800) : s.memDone f contents corr =
    (s.storeWindow f.desc.addr (fillBytes f.desc.p2 (f.desc.len / 8))).finish f 0 := by
  unfold State.memDone
  simp only [hop]
  rfl

theorem State.memDone_copyIn (corr : List (Nat × Nat)) (hop : f.desc.opcode = 0x1802) : s.memDone f contents corr =
    (({ s with copyIns := s.copyIns.erase f.id } : State).storeWindow f.desc.addr (s.copyIns.get [] f.id)).finish f 0 := by
  unfold State.memDone
  simp only [hop]

/-- A scan or a copy out stores nothing. -/
theorem State.memDone_reads (corr : List (Nat × Nat)) (hop : f.desc.opcode = 0x1801 ∨ f.desc.opcode = 0x1803) :
    s.Quiet (s.memDone f contents corr) ∧ (s.memDone f contents corr).flight? f.id = none := by
  unfold State.memDone
  rcases hop with hop | hop <;> simp only [hop]
  · have hread := State.readRange_quiet f.desc.target f.desc.addr f.desc.len corr (.refl s)
    split
    · next hu =>
      rw [hu] at hread
      exact ⟨.finish hread, State.finish_flight?_same ..⟩
    · next hu =>
      rw [hu] at hread
      exact ⟨.finish (State.countUncorr_quiet _ _ _ hread), State.finish_flight?_same ..⟩
  · exact ⟨State.dmaRead_quiet _ _ _ _ _ _ (fun u hu => (State.writeBuf_quiet _ _ _ hu).finish) (.refl s),
      State.dmaRead_flight? _ _ _ _ _ fun u => State.finish_flight?_same ..⟩

end Done

/-- Settles O22: what the end of each operation stores, byte by byte. -/
theorem windowStores : Obligations.WindowStores := by
  unfold Obligations.WindowStores
  intro s id f contents corr (h : s.Working id f)
  have hdoes := h.does contents corr
  have hid := h.id_eq
  refine ⟨fun hop hlen => ?_, fun bs hop hbs => ?_, fun hop => ?_⟩
  · rw [State.memDone_fill _ _ hop] at hdoes
    have hall := length_fillBytes f.desc.p2 (f.desc.len / 8)
    refine ⟨_, hdoes, fun a hlo hhi => ?_, fun a hout => ?_, fun hwf => ?_, ?_⟩
    · rw [State.remark_mem, State.finish_mem, State.storeWindow_mem, show a = f.desc.addr + (a - f.desc.addr) by omega,
        Memory.read_write_same _ _ _ _ (by omega), Nat.add_sub_cancel_left, List.getD_eq_getElem?_getD,
        fillBytes_getElem? _ (by omega), Option.getD_some]
    · rw [State.remark_mem, State.finish_mem, State.storeWindow_mem, Memory.read_write_other _ _ _ _ (by omega)]
    · rw [State.remark_mem, State.finish_mem, State.storeWindow_mem]
      exact Memory.wf_write _ _ hwf
    · rw [State.remark_flight?, ← hid, State.finish_flight?_same]
  · subst hbs
    rw [State.memDone_copyIn _ _ hop] at hdoes
    refine ⟨_, hdoes, fun k hk => ?_, fun a hout => ?_, fun hwf => ?_, ?_⟩
    · rw [State.remark_mem, State.finish_mem, State.storeWindow_mem, Memory.read_write_same _ _ _ _ hk]
    · rw [State.remark_mem, State.finish_mem, State.storeWindow_mem, Memory.read_write_other _ _ _ _ hout]
    · rw [State.remark_mem, State.finish_mem, State.storeWindow_mem]
      exact Memory.wf_write _ _ hwf
    · rw [State.remark_flight?, ← hid, State.finish_flight?_same]
  · obtain ⟨hquiet, hgone⟩ := State.memDone_reads (s := s) contents (corr.map fun e => (e.1, e.2.val)) hop
    refine ⟨_, hdoes, ?_, ?_, ?_⟩
    · rw [State.remark_mem, hquiet.mem]
    · rw [State.remark_written]
      exact congrArg Kept.written hquiet.kept
    · rw [State.remark_flight?, ← hid, hgone]

/-! ### The scrubber's visit -/

/-- The common SRAM with one word listed twice, clean and then uncorrectable: it reads clean. -/
def twiceListed : State := { srams := [(32, { bad := [(sramBase 32, .clean), (sramBase 32, .double)] })] }

/-- Refutes O35: a visit that finds a bit in error in a word that reads clean writes the word back by striking its first entry, and in a
list of stored errors that is not in canonical form the word then reads as its second entry says. -/
theorem not_memoryComplete : ¬ Obligations.MemoryComplete := by
  unfold Obligations.MemoryComplete
  intro h
  obtain ⟨t, ht, -, hclean, -⟩ := (h.2 twiceListed 32).2.1 5 (by decide) (by decide) (by decide) (by decide) (by decide)
  obtain rfl := Host.Outcome.next.inj ht
  exact absurd hclean (by decide)

end Sys2Proof.Machine
end

section
/-! What the end of a command leaves of a ring's posted buffers (04 R72). -/

namespace Sys2Proof.Machine

theorem State.finish_posted (s : State) (f : Flight) (st : Nat) (r0 r1 r2 : Option Nat) (r : Nat) :
    ((s.finish f st r0 r1 r2).ring r).posted = (s.ring r).posted :=
  (congrArg Ring.posted (s.finish_settings f st r0 r1 r2 r) :)

end Sys2Proof.Machine
end

section
/-! The shore chain: what a frame that is sent leaves of the chain, and the shore commands (19 R423, R424, R429, R431, R432, R434). -/

namespace Sys2Proof.Machine

/-! ### Sending a frame -/

/-- The shore chain but for the frames that wait, what is counted of them, and when ADDR_ASSIGN is due. -/
def Shore.still (x : Shore) : Shore :=
  { x with seq := 0, upQueue := [], downQueue := [], drop := 0, unreach := 0, assignDue := 0 }

section Send

variable (x : Shore) (q : ShoreQueued)

theorem Shore.enqueue_still (down : Bool) : (x.enqueue down q).still = x.still := by
  cases down
  all_goals
    simp only [Shore.enqueue, Bool.false_eq_true, if_false, if_true]
    split <;> rfl

theorem Shore.sendOut_still (down : Bool) : (x.sendOut down q).still = x.still := by
  unfold Shore.sendOut
  generalize (if down then x.downNbr else x.upNbr) = nbr
  split
  · exact Shore.enqueue_still ..
  · rfl

theorem Shore.route_still (port : Option Bool) : (x.route q port).still = x.still := by
  unfold Shore.route
  dsimp only
  split <;> split <;> simp only [Shore.sendOut_still]

theorem Shore.originate_still (dst typ : Nat) (body : List Byte) (cmd : Option Nat) :
    (x.originate dst typ body cmd).still = x.still := Shore.route_still ..

theorem Shore.sendLocal_still (down : Bool) (typ : Nat) (body : List Byte) : (x.sendLocal down typ body).still = x.still :=
  Shore.enqueue_still ..

@[simp] theorem Shore.enqueue_seq (down : Bool) : (x.enqueue down q).seq = x.seq := by
  cases down
  all_goals
    simp only [Shore.enqueue, Bool.false_eq_true, if_false, if_true]
    split <;> rfl

@[simp] theorem Shore.sendOut_seq (down : Bool) : (x.sendOut down q).seq = x.seq := by
  unfold Shore.sendOut
  generalize (if down then x.downNbr else x.upNbr) = nbr
  split
  · exact Shore.enqueue_seq ..
  · rfl

@[simp] theorem Shore.route_seq (port : Option Bool) : (x.route q port).seq = x.seq := by
  unfold Shore.route
  dsimp only
  split <;> split <;> simp only [Shore.sendOut_seq]

@[simp] theorem Shore.originate_seq (dst typ : Nat) (body : List Byte) (cmd : Option Nat) :
    (x.originate dst typ body cmd).seq = x.seq + 1 := Shore.route_seq ..

@[simp] theorem Shore.sendLocal_seq (down : Bool) (typ : Nat) (body : List Byte) :
    (x.sendLocal down typ body).seq = x.seq + 1 := Shore.enqueue_seq ..

/-- A frame that leaves by one port leaves the other port's queue as it is. -/
@[simp] theorem Shore.sendOut_downQueue_up : (x.sendOut false q).downQueue = x.downQueue := by
  simp only [Shore.sendOut, Shore.enqueue, Bool.false_eq_true, if_false]
  split
  · split <;> rfl
  · rfl

@[simp] theorem Shore.sendOut_upQueue_down : (x.sendOut true q).upQueue = x.upQueue := by
  simp only [Shore.sendOut, Shore.enqueue, if_true]
  split
  · split <;> rfl
  · rfl

/-- The queue of a port after a frame has entered it. -/
def ShoreQueued.enter (q : ShoreQueued) (l : List ShoreQueued) : List ShoreQueued := if q.frame.typ = 4 then q :: l else l ++ [q]

theorem Shore.sendOut_downQueue (hnbr : x.downNbr = true) (hroom : x.downQueue.length < 32) :
    (x.sendOut true q).downQueue = q.enter x.downQueue := by
  simp [Shore.sendOut, Shore.enqueue, hnbr, Nat.not_le.2 hroom, ShoreQueued.enter]

theorem Shore.sendOut_upQueue (hnbr : x.upNbr = true) (hroom : x.upQueue.length < 32) :
    (x.sendOut false q).upQueue = q.enter x.upQueue := by
  simp [Shore.sendOut, Shore.enqueue, hnbr, Nat.not_le.2 hroom, ShoreQueued.enter]

end Send

section Fields

variable {x y : Shore} (h : x.still = y.still)
include h

theorem Shore.address_of_still : x.address = y.address := (congrArg Shore.address h :)
theorem Shore.head_of_still : x.head = y.head := (congrArg Shore.head h :)
theorem Shore.beyond_of_still : x.beyond = y.beyond := (congrArg Shore.beyond h :)
theorem Shore.upNbr_of_still : x.upNbr = y.upNbr := (congrArg Shore.upNbr h :)
theorem Shore.downNbr_of_still : x.downNbr = y.downNbr := (congrArg Shore.downNbr h :)
theorem Shore.upSeen_of_still : x.upSeen = y.upSeen := (congrArg Shore.upSeen h :)
theorem Shore.downSeen_of_still : x.downSeen = y.downSeen := (congrArg Shore.downSeen h :)
theorem Shore.laserOff_of_still : x.laserOff = y.laserOff := (congrArg Shore.laserOff h :)
theorem Shore.invWaits_of_still : x.invWaits = y.invWaits := (congrArg Shore.invWaits h :)
theorem Shore.alarm1_of_still : x.alarm1 = y.alarm1 := (congrArg Shore.alarm1 h :)
theorem Shore.alarm2_of_still : x.alarm2 = y.alarm2 := (congrArg Shore.alarm2 h :)
theorem Shore.helloDue_of_still : x.helloDue = y.helloDue := (congrArg Shore.helloDue h :)
theorem Shore.noFw_of_still : x.noFw = y.noFw := (congrArg Shore.noFw h :)

end Fields

/-! ### Where a frame goes -/

section Ways

variable {x : Shore} {dst : Nat} (q : ShoreQueued) (port : Option Bool)

theorem Shore.ways_own (h : dst = 0 ∨ dst = x.address) : x.ways dst port = (false, false) := by
  simp only [Shore.ways, Bool.or_eq_true, decide_eq_true_eq, if_pos h]

theorem Shore.ways_all (h0 : x.address ≠ 2047) : x.ways 2047 port = (decide (port ≠ some false), decide (port ≠ some true)) := by
  simp [Shore.ways, h0.symm]

theorem Shore.ways_down (h0 : x.address ≠ 0) (hup : x.address < dst) (hall : dst ≠ 2047) :
    x.ways dst port = (false, decide (port ≠ some true)) := by
  simp [Shore.ways, h0, hup, hall, show dst ≠ 0 by omega, show dst ≠ x.address by omega]

theorem Shore.ways_up (h0 : dst ≠ 0) (hlow : dst < x.address) (hall : dst ≠ 2047) :
    x.ways dst port = (decide (port ≠ some false), false) := by
  simp [Shore.ways, h0, hall, show x.address ≠ 0 by omega, show dst ≠ x.address by omega, Nat.not_lt.2 (Nat.le_of_lt hlow)]

end Ways

section Route

variable {x : Shore} {q : ShoreQueued}

/-- A frame of the module's own for a higher address, or for all, enters the queue downshore. -/
theorem Shore.route_downQueue (h0 : x.address ≠ 0) (hdst : x.address < q.frame.dst ∨ q.frame.dst = 2047)
    (hown : q.frame.dst ≠ x.address) (hnbr : x.downNbr = true) (hroom : x.downQueue.length < 32) :
    (x.route q none).downQueue = q.enter x.downQueue := by
  unfold Shore.route
  by_cases hall : q.frame.dst = 2047
  · simp only [hall, Shore.ways_all none (x := x) (by omega)]
    have hnbr' : (x.sendOut false q).downNbr = true := (Shore.downNbr_of_still (x.sendOut_still q false)).trans hnbr
    simpa using (x.sendOut false q).sendOut_downQueue q hnbr' (by simpa using hroom)
  · simp only [Shore.ways_down none h0 (hdst.resolve_right hall) hall]
    simpa using x.sendOut_downQueue q hnbr hroom

theorem Shore.route_upQueue (h0 : q.frame.dst ≠ 0) (hdst : q.frame.dst < x.address ∨ q.frame.dst = 2047)
    (hown : q.frame.dst ≠ x.address) (hnbr : x.upNbr = true) (hroom : x.upQueue.length < 32) :
    (x.route q none).upQueue = q.enter x.upQueue := by
  unfold Shore.route
  by_cases hall : q.frame.dst = 2047
  · simp only [hall, Shore.ways_all none (x := x) (by omega)]
    simpa using x.sendOut_upQueue q hnbr hroom
  · simp only [Shore.ways_up none h0 (hdst.resolve_right hall) hall]
    simpa using x.sendOut_upQueue q hnbr hroom

/-- A frame for one side leaves the queue of the other as it is. -/
theorem Shore.route_upQueue_down (h0 : x.address ≠ 0) (hdst : x.address < q.frame.dst) (hall : q.frame.dst ≠ 2047) :
    (x.route q none).upQueue = x.upQueue := by
  simp [Shore.route, Shore.ways_down none h0 hdst hall]

theorem Shore.route_downQueue_up (h0 : q.frame.dst ≠ 0) (hdst : q.frame.dst < x.address) (hall : q.frame.dst ≠ 2047) :
    (x.route q none).downQueue = x.downQueue := by
  simp [Shore.route, Shore.ways_up none h0 hdst hall]

theorem Shore.route_own (hown : q.frame.dst = x.address) (port : Option Bool) : x.route q port = x := by
  simp [Shore.route, Shore.ways_own port (.inr hown)]

end Route

/-! ### A frame of the module's own -/

section Originate

variable {x : Shore} {dst : Nat} (typ : Nat) (body : List Byte) (cmd : Option Nat)

/-- A frame of the module's own as it stands in a queue. -/
def Shore.queued (x : Shore) (dst typ : Nat) (body : List Byte) (cmd : Option Nat) : ShoreQueued :=
  { frame := x.newFrame dst typ body, cmd := cmd }

@[simp] theorem Shore.originate_address : (x.originate dst typ body cmd).address = x.address :=
  Shore.address_of_still (Shore.originate_still ..)
@[simp] theorem Shore.originate_invWaits : (x.originate dst typ body cmd).invWaits = x.invWaits :=
  Shore.invWaits_of_still (Shore.originate_still ..)
@[simp] theorem Shore.originate_laserOff : (x.originate dst typ body cmd).laserOff = x.laserOff :=
  Shore.laserOff_of_still (Shore.originate_still ..)

theorem Shore.originate_downQueue (h0 : x.address ≠ 0) (hdst : x.address < dst ∨ dst = 2047) (hown : dst ≠ x.address)
    (hnbr : x.downNbr = true) (hroom : x.downQueue.length < 32) :
    (x.originate dst typ body cmd).downQueue = (x.queued dst typ body cmd).enter x.downQueue :=
  Shore.route_downQueue (q := x.queued dst typ body cmd) h0 hdst hown hnbr hroom

theorem Shore.originate_upQueue (h0 : dst ≠ 0) (hdst : dst < x.address ∨ dst = 2047) (hown : dst ≠ x.address)
    (hnbr : x.upNbr = true) (hroom : x.upQueue.length < 32) :
    (x.originate dst typ body cmd).upQueue = (x.queued dst typ body cmd).enter x.upQueue :=
  Shore.route_upQueue (q := x.queued dst typ body cmd) h0 hdst hown hnbr hroom

theorem Shore.originate_upQueue_down (h0 : x.address ≠ 0) (hdst : x.address < dst) (hall : dst ≠ 2047) :
    (x.originate dst typ body cmd).upQueue = x.upQueue :=
  Shore.route_upQueue_down (q := x.queued dst typ body cmd) h0 hdst hall

theorem Shore.originate_downQueue_up (h0 : dst ≠ 0) (hdst : dst < x.address) (hall : dst ≠ 2047) :
    (x.originate dst typ body cmd).downQueue = x.downQueue :=
  Shore.route_downQueue_up (q := x.queued dst typ body cmd) h0 hdst hall

/-- A frame to the module itself leaves by no port. -/
theorem Shore.originate_own (hown : dst = x.address) : x.originate dst typ body cmd = { x with seq := x.seq + 1 } :=
  Shore.route_own (x := { x with seq := x.seq + 1 }) (q := x.queued dst typ body cmd) hown none

end Originate

/-! ### What else acts on the chain -/

/-- A message that reaches the module may be counted for want of firmware, and leaves the chain otherwise. -/
theorem State.takeMsg_shore (s : State) (src : Nat) (seq : BitVec 16) (body : List Byte) :
    ∃ n, (s.takeMsg src seq body).shore = { s.shore with noFw := n } := by
  unfold State.takeMsg State.noFirmware
  split
  · refine ⟨s.shore.noFw, ?_⟩
    split
    · unfold State.fillMessage
      split <;> simp
    · rfl
  · exact ⟨_, rfl⟩

@[simp] theorem State.openOutput_shore (s : State) (c : Nat) : (s.openOutput c).shore = s.shore := by
  unfold State.openOutput
  dsimp only
  split <;> rfl

/-- A laser order sets LASER_OFF and the end of its hold, and leaves the chain otherwise. -/
theorem State.laserOrder_shore (s : State) (src : Nat) (on : Bool) (hold : Nat) :
    ∃ d, (s.laserOrder src on hold).shore = { s.shore with laserOff := on, holdDue := d } := by
  unfold State.laserOrder
  cases on
  · simp only [Bool.false_eq_true, if_false]
    unfold State.shoreOn
    by_cases hoff : s.shore.laserOff = true
    · rw [if_pos hoff]
      exact ⟨none, foldl_eq_of (·.shore) _ _ _ fun s c => s.openOutput_shore c⟩
    · rw [if_neg hoff]
      exact ⟨s.shore.holdDue, by simp [← Bool.eq_false_iff.2 hoff]⟩
  · simp only [if_true]
    unfold State.shoreOff
    dsimp only
    split
    · exact ⟨_, rfl⟩
    · exact ⟨_, foldl_eq_of (·.shore) _ _ _ fun s c => rfl⟩

/-! ### The commands -/

section Commands

variable {s : State} {id : Nat} {f : Flight}

theorem execShoreStatus_answers (h : s.Started id 0x1C00 f) : ∃ ws, ws.length = 4 ∧
    wd ws 1 = mkWord [(0, 32, s.shore.rxBad.toNat), (32, 32, s.shore.drop.toNat)] ∧
    wd ws 2 = mkWord [(0, 32, s.shore.unreach.toNat), (32, 32, s.shore.noFw.toNat)] ∧
    s.Does (.shoreStatus id) (s.answer f ws) :=
  ⟨_, rfl, rfl, rfl, withCmd_started h _⟩

/-- A query that leaves the module. -/
theorem execShoreInvQuery_does {dst : Nat} (h : s.Started id 0x1C02 f) (hdst : dst = f.desc.shoreDst) (ha : s.shore.address ≠ 0)
    (h0 : dst ≠ 0) (hall : dst ≠ 2047) (hown : dst ≠ s.shore.address) :
    s.Does (.shoreInvQuery id) (((s.onShore fun x => x.originate dst 1 []).onShore fun x =>
      { x with invWaits := x.invWaits ++ [{ id := f.id, dst := dst, due := s.now + 500000000 }] }).run f) := by
  subst hdst
  refine (withCmd_started h _).trans ?_
  simp [ha, h0, hall, hown]

/-- A query to the module's own address. -/
theorem execShoreInvQuery_own (h : s.Started id 0x1C02 f) (hown : f.desc.shoreDst = s.shore.address) (ha : s.shore.address ≠ 0)
    (hall : s.shore.address ≠ 2047) :
    ∃ t, exec (.shoreInvQuery id) s = .next t ∧ t.flight? f.id = none ∧ t.shore.invWaits = s.shore.invWaits := by
  refine ⟨_, withCmd_started h _, ?_⟩
  simp [ha, hall, hown]

theorem execShoreInvQuery_sends {dst : Nat} (h : s.Started id 0x1C02 f) (hdst : dst = f.desc.shoreDst) (ha : s.shore.address ≠ 0)
    (h0 : dst ≠ 0) (hall : dst ≠ 2047) (hown : dst ≠ s.shore.address) :
    ∃ t, exec (.shoreInvQuery id) s = .next t ∧ t.shore.seq = s.shore.seq + 1 ∧
      (∃ w ∈ t.shore.invWaits, w.id = f.id ∧ w.dst = dst ∧ w.due = s.now + 500000000) ∧
      (s.shore.address < dst → s.shore.downNbr = true → s.shore.downQueue.length < 32 →
        t.shore.downQueue = s.shore.downQueue ++ [{ frame := s.shore.newFrame dst 1 [] }] ∧
        t.shore.upQueue = s.shore.upQueue) ∧
      (dst < s.shore.address → s.shore.upNbr = true → s.shore.upQueue.length < 32 →
        t.shore.upQueue = s.shore.upQueue ++ [{ frame := s.shore.newFrame dst 1 [] }] ∧
        t.shore.downQueue = s.shore.downQueue) := by
  refine ⟨_, execShoreInvQuery_does h hdst ha h0 hall hown, ?_, ⟨{ id := f.id, dst := dst, due := s.now + 500000000 },
    by simp, rfl, rfl, rfl⟩, fun hup hnbr hroom => ⟨?_, ?_⟩, fun hlow hnbr hroom => ⟨?_, ?_⟩⟩
  all_goals simp only [State.remark_shore, State.run_shore, State.onShore_shore]
  · exact Shore.originate_seq ..
  · exact Shore.originate_downQueue _ _ _ ha (.inl hup) hown hnbr hroom
  · exact Shore.originate_upQueue_down _ _ _ ha hup hall
  · exact Shore.originate_upQueue _ _ _ h0 (.inl hlow) hown hnbr hroom
  · exact Shore.originate_downQueue_up _ _ _ h0 hlow hall

/-- The frame of a SHORE_SEND has left, after the module itself has taken the message where it is for it. -/
def State.sendsMsg (s : State) (f : Flight) (bs : List Byte) : State :=
  (if s.shore.takes f.desc.shoreDst then s.takeMsg s.shore.address s.shore.seq bs else s).onShore fun x =>
    x.originate f.desc.shoreDst 5 bs (some f.id)

theorem State.sendsMsg_shore (s : State) (f : Flight) (bs : List Byte) :
    ∃ n, (s.sendsMsg f bs).shore = ({ s.shore with noFw := n }).originate f.desc.shoreDst 5 bs (some f.id) ∧
      (s.shore.takes f.desc.shoreDst = false → n = s.shore.noFw) := by
  unfold State.sendsMsg
  split
  · next htakes =>
    obtain ⟨n, hn⟩ := s.takeMsg_shore s.shore.address s.shore.seq bs
    exact ⟨n, by rw [State.onShore_shore, hn], fun h => by rw [htakes] at h; cases h⟩
  · exact ⟨s.shore.noFw, rfl, fun _ => rfl⟩

theorem State.sendsMsg_address (s : State) (f : Flight) (bs : List Byte) : (s.sendsMsg f bs).shore.address = s.shore.address := by
  obtain ⟨n, hn, -⟩ := s.sendsMsg_shore f bs
  rw [hn, Shore.originate_address]

section Send

variable {bs : List Byte} (h : s.Started id 0x1C03 f) (ha : s.shore.address ≠ 0) (h0 : f.desc.shoreDst ≠ 0)
  (hmax : f.desc.bufLen ≤ 1456) (hlen : bs.length = f.desc.bufLen)
include h ha h0 hmax hlen

theorem execShoreSend_does : s.Does (.shoreSend id bs)
    (if f.desc.shoreDst = (s.sendsMsg f bs).shore.address then (s.sendsMsg f bs).finish f 0 else (s.sendsMsg f bs).run f) := by
  refine (withCmd_started h _).trans ?_
  have hbody : bs.take f.desc.bufLen = bs := List.take_of_length_le hlen.le
  dsimp only
  rw [if_neg ha, if_neg (by simp [h0, hbody, hlen, Nat.not_lt.2 hmax]), hbody]
  rfl

theorem execShoreSend_own (hown : f.desc.shoreDst = s.shore.address) :
    ∃ t, exec (.shoreSend id bs) s = .next t ∧ t.flight? f.id = none ∧ t.shore.seq = s.shore.seq + 1 ∧
      t.shore.downQueue = s.shore.downQueue ∧ t.shore.upQueue = s.shore.upQueue := by
  have hdoes := execShoreSend_does h ha h0 hmax hlen
  rw [s.sendsMsg_address f bs, if_pos hown] at hdoes
  obtain ⟨n, hn, -⟩ := s.sendsMsg_shore f bs
  rw [Shore.originate_own _ _ _ (by exact hown)] at hn
  refine ⟨_, hdoes, by simp, ?_, ?_, ?_⟩
  all_goals rw [State.remark_shore, State.finish_shore, hn]

theorem execShoreSend_sends (hown : f.desc.shoreDst ≠ s.shore.address) :
    ∃ t, exec (.shoreSend id bs) s = .next t ∧ t.shore.seq = s.shore.seq + 1 ∧ t.shore.address = s.shore.address ∧
      (f.desc.shoreDst ≠ 2047 → t.shore = ({ s.shore with seq := s.shore.seq + 1 }).route
        { frame := s.shore.newFrame f.desc.shoreDst 5 bs, cmd := some f.id } none) ∧
      (s.shore.address < f.desc.shoreDst ∨ f.desc.shoreDst = 2047 → s.shore.downNbr = true → s.shore.downQueue.length < 32 →
        t.shore.downQueue = s.shore.downQueue ++ [{ frame := s.shore.newFrame f.desc.shoreDst 5 bs, cmd := some f.id }]) ∧
      (f.desc.shoreDst < s.shore.address ∨ f.desc.shoreDst = 2047 → s.shore.upNbr = true → s.shore.upQueue.length < 32 →
        t.shore.upQueue = s.shore.upQueue ++ [{ frame := s.shore.newFrame f.desc.shoreDst 5 bs, cmd := some f.id }]) := by
  have hdoes := execShoreSend_does h ha h0 hmax hlen
  have haddr := s.sendsMsg_address f bs
  rw [haddr, if_neg hown] at hdoes
  obtain ⟨n, hn, hfw⟩ := s.sendsMsg_shore f bs
  have hshore : ((s.sendsMsg f bs).run f).remark.shore = _ := (State.remark_shore _).trans hn
  refine ⟨_, hdoes, ?_, (congrArg Shore.address (State.remark_shore _)).trans haddr, fun hall => ?_, fun hto hnbr hroom => ?_, fun hto hnbr hroom => ?_⟩
  · rw [hshore, Shore.originate_seq]
  · rw [hshore, hfw (by simp [Shore.takes, h0, hown, hall])]
    rfl
  · rw [hshore]
    exact Shore.originate_downQueue (x := { s.shore with noFw := n }) _ _ _ ha hto hown hnbr hroom
  · rw [hshore]
    exact Shore.originate_upQueue (x := { s.shore with noFw := n }) _ _ _ h0 hto hown hnbr hroom

end Send

/-! ### The order to switch lasers off -/

theorem leNat_leBytes (n v : Nat) : leNat (leBytes n v) = v % 256 ^ n := by
  induction n generalizing v with
  | zero => rw [leBytes, leNat, Nat.pow_zero, Nat.mod_one]
  | succ n ih => rw [Nat.pow_succ' (m := 256), Nat.mod_mul, leBytes, leNat, ih, BitVec.toNat_ofNat]

theorem Word.bytes_eq_leBytes (w : Word) : w.bytes = leBytes 8 w.toNat := by
  simp [Word.bytes, leBytes, List.range_succ, Nat.shiftRight_eq_div_pow, Nat.div_div_eq_div_mul]

/-- The first word of a body of one word is that word. -/
theorem byteWord_bytes (w : Word) : byteWord w.bytes 0 = w := by
  have hlen : w.bytes.length = 8 := rfl
  rw [byteWord, Nat.mul_zero, List.drop_zero, List.take_of_length_le hlen.le, Word.bytes_eq_leBytes, leNat_leBytes,
    Nat.mod_eq_of_lt (by exact w.isLt), BitVec.ofNat_toNat, BitVec.setWidth_eq]

/-- What the body of a LASER_OFF says: bit 0 the order, the upper half its hold. -/
theorem laserOrder_bits (on : Bool) (hold : Nat) (hhold : hold < 2 ^ 32) :
    (mkWord [(0, 1, bitOf on), (32, 32, hold)]).bit 0 = on ∧ (mkWord [(0, 1, bitOf on), (32, 32, hold)]).bits 63 32 = hold := by
  constructor
  · rw [mkWord_bit _ (by decide)]
    cases on <;> simp [bitOf]
  · refine Nat.eq_of_testBit_eq fun j => ?_
    rw [Word.testBit_bits]
    by_cases hj : j < 32
    · rw [mkWord_bit _ (by omega)]
      simp [hj, show ¬ 32 + j < 1 by omega, show 32 + j < 64 by omega]
    · have hhigh : hold < 2 ^ j := Nat.lt_of_lt_of_le hhold (Nat.pow_le_pow_right (by decide) (by omega))
      simp [hj, Nat.testBit_lt_two_pow hhigh]

/-- The body of the frame that a SHORE_LASER_OFF sends. -/
def Flight.laserBody (f : Flight) : List Byte :=
  (mkWord [(0, 1, bitOf (f.desc.p0.bit 16)), (32, 32, f.desc.p1.bits 31 0)]).bytes

/-- The chain after an order that the module itself has followed where it is for it. -/
theorem execShoreLaserOff_does (h : s.Started id 0x1C04 f) (ha : s.shore.address ≠ 0) (h0 : f.desc.shoreDst ≠ 0) :
    ∃ t d, exec (.shoreLaserOff id) s = .next t ∧ t.flight? f.id = none ∧
      let u := if s.shore.takes f.desc.shoreDst then { s.shore with laserOff := f.desc.p0.bit 16, holdDue := d } else s.shore
      t.shore = if f.desc.shoreDst = s.shore.address then u else u.originate f.desc.shoreDst 4 f.laserBody := by
  obtain ⟨d, hd⟩ := s.laserOrder_shore s.shore.address (f.desc.p0.bit 16) (f.desc.p1.bits 31 0)
  refine ⟨_, d, withCmd_started h _, ?_, ?_⟩
  · simp [ha, h0]
  · dsimp only
    rw [if_neg ha, if_neg h0, State.remark_shore, State.finish_shore]
    cases htakes : s.shore.takes f.desc.shoreDst
    · simp only [Bool.false_eq_true, if_false]
      split <;> rfl
    · simp only [if_true, hd]
      split
      · exact hd
      · rw [State.onShore_shore, hd]
        rfl

theorem execShoreLaserOff_orders (h : s.Started id 0x1C04 f) (ha : s.shore.address ≠ 0) (h0 : f.desc.shoreDst ≠ 0) :
    ∃ t, exec (.shoreLaserOff id) s = .next t ∧ t.flight? f.id = none ∧
      (f.desc.shoreDst = s.shore.address ∨ f.desc.shoreDst = 2047 → t.shore.laserOff = f.desc.p0.bit 16) ∧
      (f.desc.shoreDst ≠ s.shore.address → f.desc.shoreDst ≠ 2047 → t.shore.laserOff = s.shore.laserOff ∧
        t.shore.seq = s.shore.seq + 1) ∧
      (s.shore.address < f.desc.shoreDst → s.shore.downNbr = true → s.shore.downQueue.length < 32 →
        ∃ q, t.shore.downQueue = q :: s.shore.downQueue ∧ q.frame.typ = 4 ∧ q.frame.dst = f.desc.shoreDst ∧
          (q.frame.word 0).bit 0 = f.desc.p0.bit 16 ∧ (q.frame.word 0).bits 63 32 = f.desc.p1.bits 31 0) := by
  obtain ⟨t, d, ht, hgone, hshore⟩ := execShoreLaserOff_does h ha h0
  dsimp only at hshore
  refine ⟨t, ht, hgone, fun hfor => ?_, fun hown hall => ?_, fun hup hnbr hroom => ?_⟩
  · have htakes : s.shore.takes f.desc.shoreDst = true := by simpa [Shore.takes, h0] using hfor
    rw [hshore, htakes, if_pos rfl]
    split
    · rfl
    · exact Shore.originate_laserOff ..
  · rw [if_neg hown, if_neg (by simp [Shore.takes, h0, hown, hall])] at hshore
    rw [hshore]
    exact ⟨Shore.originate_laserOff .., Shore.originate_seq ..⟩
  · have hown : f.desc.shoreDst ≠ s.shore.address := by omega
    obtain ⟨hbit, hbits⟩ := laserOrder_bits (f.desc.p0.bit 16) (f.desc.p1.bits 31 0) (Nat.mod_lt _ (by decide))
    -- The module's own laser state does not bear on where the frame goes.
    have hsent (u : Shore) (hu : u.address = s.shore.address) (hn : u.downNbr = true) (hq : u.downQueue = s.shore.downQueue) :
        ∃ q, (u.originate f.desc.shoreDst 4 f.laserBody).downQueue = q :: s.shore.downQueue ∧ q.frame.typ = 4 ∧
          q.frame.dst = f.desc.shoreDst ∧ (q.frame.word 0).bit 0 = f.desc.p0.bit 16 ∧
          (q.frame.word 0).bits 63 32 = f.desc.p1.bits 31 0 := by
      refine ⟨u.queued f.desc.shoreDst 4 f.laserBody none, ?_, rfl, rfl, ?_, ?_⟩
      · rw [Shore.originate_downQueue _ _ _ (by omega) (.inl (by omega)) (by omega) hn (hq ▸ hroom), hq]
        rfl
      · exact (congrArg (Word.bit · 0) (byteWord_bytes _)).trans hbit
      · exact (congrArg (Word.bits · 63 32) (byteWord_bytes _)).trans hbits
    rw [if_neg hown] at hshore
    rw [hshore]
    split
    · exact hsent _ rfl hnbr rfl
    · exact hsent _ rfl hnbr rfl

end Commands

/-- Settles O54: each command on its started form; the frame that one sends, through what a frame of the module's own does. -/
theorem shoreCommandsComplete : Obligations.ShoreCommandsComplete := by
  unfold Obligations.ShoreCommandsComplete
  intro s id f
  refine ⟨execShoreStatus_answers, fun h => withCmd_started h _, fun dst => execShoreInvQuery_sends, execShoreInvQuery_own,
    fun bs dst h hdst ha h0 _ hmax hlen hown => ?_, fun bs h hown ha _ hmax hlen => ?_, execShoreLaserOff_orders⟩
  · subst hdst
    exact execShoreSend_sends h ha h0 hmax hlen hown
  · exact execShoreSend_own h ha (hown ▸ ha) hmax hlen hown

end Sys2Proof.Machine
end

section
/-! Shore frames that arrive, and the chain's timers, queues and alarms (19 R423 to R432; 22 R476, R480). -/

namespace Sys2Proof.Machine

/-! ### What sending leaves alone -/

section Still

variable (s : State)

theorem State.sendAlarm_still (cause : Nat) (on : Bool) : (s.sendAlarm cause on).shore.still = s.shore.still := by
  have hhead (src : Nat) (w : Word) : (s.headAlarm src w).shore = s.shore := by
    unfold State.headAlarm
    split <;> rfl
  unfold State.sendAlarm
  generalize (if cause = 5 then 2047 else 1) = dst
  dsimp only
  rw [State.onShore_shore, Shore.originate_still]
  split
  · rw [hhead]
  · rfl

theorem State.sendAlarm_batch (cause : Nat) (on : Bool) : s.batch ⊆ (s.sendAlarm cause on).batch := by
  unfold State.sendAlarm State.headAlarm
  generalize (if cause = 5 then 2047 else 1) = dst
  dsimp only
  split
  · split
    · exact List.subset_append_left ..
    · exact fun _ h => h
  · exact fun _ h => h

@[simp] theorem State.sendAlarm_now (cause : Nat) (on : Bool) : (s.sendAlarm cause on).now = s.now := by
  obtain ⟨es, x, h⟩ := s.sendAlarm_reach cause on
  rw [h]

theorem State.assignDown_still : s.assignDown.shore.still = s.shore.still := by
  unfold State.assignDown
  dsimp only
  split
  · rfl
  · exact Shore.sendLocal_still ..

@[simp] theorem State.assignDown_batch : s.assignDown.batch = s.batch := by
  unfold State.assignDown
  dsimp only
  split <;> rfl

/-- Cause 1 follows whether it is raised, and leaves what else the chain knows. -/
theorem State.alarm1_still (on : Bool) :
    ∃ a, a.isSome = on ∧ (s.alarm1 on).shore.still = ({ s.shore with alarm1 := a } : Shore).still := by
  unfold State.alarm1
  split
  · next h => exact ⟨s.shore.alarm1, by simpa using h, rfl⟩
  · refine ⟨if on then some (s.now + 10000000000) else none, by cases on <;> rfl, ?_⟩
    rw [State.sendAlarm_still]
    rfl

theorem State.alarm1_batch (on : Bool) : s.batch ⊆ (s.alarm1 on).batch := by
  unfold State.alarm1
  split
  · exact fun _ h => h
  · exact (s.onShore _).sendAlarm_batch 1 on

theorem State.alarm2_still (on : Bool) :
    ∃ a, a.isSome = on ∧ (s.alarm2 on).shore.still = ({ s.shore with alarm2 := a } : Shore).still := by
  unfold State.alarm2
  split
  · next h => exact ⟨s.shore.alarm2, by simpa using h, rfl⟩
  · refine ⟨if on then some (s.now + 10000000000) else none, by cases on <;> rfl, ?_⟩
    rw [State.sendAlarm_still]
    rfl

@[simp] theorem State.alarm2_now (on : Bool) : (s.alarm2 on).now = s.now := by
  unfold State.alarm2
  split
  · rfl
  · exact State.sendAlarm_now ..

end Still

/-! ### Arrivals -/

/-- A frame arrived is taken, where it is for the module, by the chain that has heard it, and then leaves by its ways. -/
theorem State.arrive_eq (s : State) (down : Bool) {f : ShoreFrame} (consume : State → State) (hhops : f.hops < 2046) :
    s.arrive down f consume =
      let u := s.onShore fun x => x.heard down s.now
      let v := if s.shore.takes f.dst then consume u else u
      let q : ShoreQueued := { frame := { f with hops := f.hops + 1 } }
      let w := if (s.shore.ways f.dst (some down)).1 then v.onShore fun y => y.sendOut false q else v
      if (s.shore.ways f.dst (some down)).2 then w.onShore fun y => y.sendOut true q else w := by
  unfold State.arrive
  dsimp only
  rw [if_neg (Nat.not_le.2 hhops)]
  cases down <;> rfl

/-- A frame for the module alone leaves by no port. -/
theorem State.arrive_own {s : State} {down : Bool} {f : ShoreFrame} {consume : State → State} (hhops : f.hops < 2046)
    (hown : f.dst = 0 ∨ f.dst = s.shore.address) :
    s.arrive down f consume = consume (s.onShore fun x => x.heard down s.now) := by
  have htakes : s.shore.takes f.dst = true := by
    rcases hown with h | h <;> simp [Shore.takes, h]
  rw [State.arrive_eq s down consume hhops]
  simp [Shore.ways_own (some down) hown, htakes]

/-- A frame that the module takes in leaves, by its other ways, what the frame has done. -/
theorem State.arrive_taken {s : State} {down : Bool} {f : ShoreFrame} {consume : State → State} (hhops : f.hops < 2046)
    (htakes : s.shore.takes f.dst = true) :
    ∃ x, x.still = (consume (s.onShore fun x => x.heard down s.now)).shore.still ∧
      s.arrive down f consume = { consume (s.onShore fun x => x.heard down s.now) with shore := x } := by
  rw [State.arrive_eq s down consume hhops]
  dsimp only
  rw [if_pos htakes]
  generalize consume (s.onShore fun x => x.heard down s.now) = v
  split <;> split
  · exact ⟨_, (Shore.sendOut_still ..).trans (Shore.sendOut_still ..), rfl⟩
  · exact ⟨_, Shore.sendOut_still .., rfl⟩
  · exact ⟨_, Shore.sendOut_still .., rfl⟩
  · exact ⟨_, rfl, rfl⟩

/-- An event that is raised stands in the events gathered. -/
theorem State.raise_event (s : State) (source code sev : Nat) (d0 : Word) (d1 : BitVec 32) (cause : Option Nat) :
    ∃ e ∈ (s.raise source code sev d0 d1 cause).batch, e.source = source ∧ e.code = code :=
  ⟨_, List.mem_append_right _ (List.mem_singleton_self _), rfl, rfl⟩

theorem State.shoreRow_typ {s : State} {f : ShoreFrame} {typ : Nat} (h : s.shoreRow f typ = true) : f.typ = typ := by
  simp only [State.shoreRow, Bool.and_eq_true, decide_eq_true_eq] at h
  tauto

/-- A neighbour that is heard is a neighbour. -/
theorem State.regain_still (s : State) (down : Bool) : ∃ a, (s.regain down).shore.still =
    (if down then { s.shore with downNbr := true, alarm1 := a } else { s.shore with upNbr := true } : Shore).still := by
  unfold State.regain
  cases down
  · refine ⟨none, ?_⟩
    simp only [Bool.false_eq_true, if_false]
    split
    · next h => rw [← h]
    · rfl
  · simp only [if_true]
    split
    · next h => exact ⟨s.shore.alarm1, by rw [← h]⟩
    · obtain ⟨a, -, ha⟩ := ((s.onShore fun x => { x with downNbr := true }).neighbour true false).alarm1_still false
      exact ⟨a, (State.assignDown_still _).trans ha⟩

/-- A query that ends is no longer waited for. -/
theorem State.queryEnds_ends (s : State) (w : InvWait) {k : Flight → State → State}
    (hk : ∀ g u, (k g u).flight? g.id = none ∧ (k g u).shore = u.shore) :
    (s.queryEnds w k).flight? w.id = none ∧ (s.queryEnds w k).shore.invWaits = s.shore.invWaits.filter fun q => q.id ≠ w.id := by
  unfold State.queryEnds
  dsimp only
  split
  · next g hg =>
    obtain ⟨hgone, hshore⟩ := hk g (s.onShore fun x => { x with invWaits := x.invWaits.filter fun q => q.id ≠ w.id })
    have hid : g.id = w.id := State.flight?_id hg
    exact ⟨hid ▸ hgone, by rw [hshore]; rfl⟩
  · next hg => exact ⟨hg, rfl⟩

section Frames

variable {s : State} {down : Bool} {f : ShoreFrame} (hhops : f.hops < 2046)
include hhops

theorem execHello_hears (h : s.shoreRow f 6 = true) (h0 : f.dst = 0) : ∃ t, exec (.hello down f) s = .next t ∧
    (if down then t.shore.downNbr = true ∧ t.shore.downSeen = s.now else t.shore.upNbr = true ∧ t.shore.upSeen = s.now) := by
  refine ⟨_, occurs_true _ (by simp [h, h0]), ?_⟩
  rw [State.arrive_own hhops (.inl h0), State.remark_shore]
  obtain ⟨a, ha⟩ := ((s.onShore fun x => x.heard down s.now).onShore
    fun x => { x with upHello := x.upHello || !down }).regain_still down
  cases down
  · exact ⟨Shore.upNbr_of_still ha, Shore.upSeen_of_still ha⟩
  · exact ⟨Shore.downNbr_of_still ha, Shore.downSeen_of_still ha⟩

end Frames

/-! ### Addresses -/

/-- What an adopted address leaves of the chain, and its event. -/
theorem State.adoptAddress_adopts (s : State) (v : Nat) (head : Bool) :
    (∃ a b, (s.adoptAddress v head).shore.still =
      ({ s.shore with address := if v = 2047 then 0 else v, head := head, beyond := v = 2047, tA := a, aA := b } : Shore).still) ∧
    ∃ e ∈ (s.adoptAddress v head).batch, e.source = 32 ∧ e.code = 0x1C20 := by
  unfold State.adoptAddress
  extract_lets a old first was t u
  have hu : u.shore.still = t.shore.still := State.assignDown_still _
  have hraised : ∃ e ∈ u.batch, e.source = 32 ∧ e.code = 0x1C20 := by
    simp only [u, State.assignDown_batch]
    exact State.raise_event ..
  obtain ⟨e, he, hsource, hcode⟩ := hraised
  split
  · exact ⟨⟨_, _, (State.sendAlarm_still ..).trans hu⟩, e, State.sendAlarm_batch _ _ _ he, hsource, hcode⟩
  · exact ⟨⟨_, _, hu⟩, e, he, hsource, hcode⟩

/-- A message that a posted buffer takes. -/
theorem State.takeMsg_fills {s : State} {r : Nat} {g : Flight} (src : Nat) (seq : BitVec 16) (body : List Byte)
    (hrun : s.boot.running = true) (hr : s.messageRing 32 (some s.primary) = some r)
    (hg : ((s.ring r).posted.head?).bind s.flight? = some g) :
    s.takeMsg src seq body = ((s.onRing r fun x => { x with posted := x.posted.drop 1 }).writeBuf g 0 body).finish g
      (if g.desc.bufLen < body.length then 0x20 else 0) (some (min g.desc.bufLen body.length)) (some (src + 65536 * seq.toNat)) := by
  rw [State.takeMsg, hr, State.noFirmware, if_pos hrun]
  simp only [State.fillMessage, hg]

section Frames

variable {s : State} {down : Bool} {f : ShoreFrame} (hhops : f.hops < 2046)
include hhops

theorem execAddrAssign_adopts (h : s.shoreRow f 0 = true) (h0 : f.dst = 0) (hnew : (f.word 0).bits 10 0 ≠ s.shore.address) :
    ∃ t, exec (.addrAssign false f) s = .next t ∧ t.shore.head = false ∧
      t.shore.address = (if (f.word 0).bits 10 0 = 2047 then 0 else (f.word 0).bits 10 0) ∧
      (t.shore.beyond = true ↔ (f.word 0).bits 10 0 = 2047) ∧ ∃ e ∈ t.batch, e.source = 32 ∧ e.code = 0x1C20 := by
  refine ⟨_, occurs_true _ (by simp [h, h0]), ?_⟩
  have hnew' : ¬ (f.word 0).bits 10 0 = (s.onShore fun x => x.heard false s.now).shore.address := hnew
  rw [State.arrive_own hhops (.inl h0), State.remark_shore]
  dsimp only
  simp only [Bool.false_or, decide_eq_true_eq, if_neg hnew']
  obtain ⟨⟨a, b, hstill⟩, e, he, hevent⟩ :=
    (s.onShore fun x => x.heard false s.now).adoptAddress_adopts ((f.word 0).bits 10 0) false
  refine ⟨Shore.head_of_still hstill, Shore.address_of_still hstill, ?_, e, State.remark_batch he, hevent⟩
  rw [Shore.beyond_of_still hstill, decide_eq_true_eq]

/-! ### Inventory -/

theorem execInvReq_answers (h : s.shoreRow f 1 = true) (hown : f.dst = s.shore.address) : ∃ t, exec (.invReq down f) s = .next t ∧
    if s.boot.running then t.shore.seq = s.shore.seq + 1 else t.shore.noFw = s.shore.noFw + 1 := by
  refine ⟨_, occurs_true _ (by simp [h]), ?_⟩
  rw [State.arrive_own hhops (.inr hown), State.remark_shore]
  unfold State.noFirmware
  rw [State.onShore_boot]
  split
  · rw [State.onShore_shore, Shore.originate_seq]
    cases down <;> rfl
  · cases down <;> rfl

theorem execInvResp_ends {w : InvWait} (h : s.shoreRow f 2 = true) (hown : f.dst = s.shore.address)
    (hw : s.shore.invWaits.find? (fun w => w.dst = f.src) = some w) :
    ∃ t, exec (.invResp down f) s = .next t ∧ t.flight? w.id = none ∧ ∀ q ∈ t.shore.invWaits, q.id ≠ w.id := by
  refine ⟨_, occurs_true _ h, ?_⟩
  have hw' : (s.onShore fun x => x.heard down s.now).shore.invWaits.find? (fun w => w.dst = f.src) = some w := by
    cases down <;> exact hw
  rw [State.arrive_own hhops (.inr hown), State.remark_flight?, State.remark_shore]
  unfold State.invAnswer
  rw [hw']
  obtain ⟨hgone, hwaits⟩ := (s.onShore fun x => x.heard down s.now).queryEnds_ends w
    (k := fun f' u => (u.writeBuf f' 0 (f.body.take 64)).finish f' 0) fun g u => by simp
  refine ⟨hgone, fun q hq => ?_⟩
  rw [hwaits] at hq
  simpa using (List.mem_filter.1 hq).2

/-! ### Alarms, laser orders and messages -/

theorem execAlarm_reports (h : s.shoreRow f 3 = true) (htakes : s.shore.takes f.dst = true) (hhead : s.shore.head = true) :
    ∃ t, exec (.alarm down f) s = .next t ∧ ∃ e ∈ t.batch, e.source = 32 ∧ e.code = 0x1C22 := by
  obtain ⟨x, -, hx⟩ := State.arrive_taken (consume := fun s => s.headAlarm f.src (f.word 0)) (down := down) hhops htakes
  have hhead' : (s.onShore fun x => x.heard down s.now).shore.head = true := by cases down <;> exact hhead
  obtain ⟨e, he, hevent⟩ := (s.onShore fun x => x.heard down s.now).raise_event 32 0x1C22 2
    (mkWord [(0, 11, f.src), (11, 4, (f.word 0).bits 3 0), (15, 1, bitOf ((f.word 0).bit 4))]) 0 none
  refine ⟨_, occurs_true _ h, e, State.remark_batch ?_, hevent⟩
  rw [hx, State.headAlarm, if_pos hhead']
  exact he

theorem execLaserOff_orders (h : s.shoreRow f 4 = true) (htakes : s.shore.takes f.dst = true) :
    ∃ t, exec (.laserOff down f) s = .next t ∧ t.shore.laserOff = (f.word 0).bit 0 := by
  obtain ⟨x, hstill, hx⟩ := State.arrive_taken (consume := fun s => s.laserOrder f.src ((f.word 0).bit 0) ((f.word 0).bits 63 32))
    (down := down) hhops htakes
  obtain ⟨d, hd⟩ := (s.onShore fun x => x.heard down s.now).laserOrder_shore f.src ((f.word 0).bit 0) ((f.word 0).bits 63 32)
  refine ⟨_, occurs_true _ h, ?_⟩
  rw [State.remark_shore, hx]
  exact (Shore.laserOff_of_still hstill).trans (by rw [hd])

theorem execMsg_discards (h : s.shoreRow f 5 = true) (hbody : f.body.length ≠ 0) (htakes : s.shore.takes f.dst = true)
    (hrun : s.boot.running = true) (hnone : s.messageRing 32 (some s.primary) = none) :
    ∃ t, exec (.msg down f) s = .next t ∧ ∃ e ∈ t.batch, e.source = 32 ∧ e.code = 0x1C24 := by
  obtain ⟨x, -, hx⟩ := State.arrive_taken (consume := fun s => s.takeMsg f.src f.seq f.body) (down := down) hhops htakes
  have htake : (s.onShore fun x => x.heard down s.now).takeMsg f.src f.seq f.body =
      (s.onShore fun x => x.heard down s.now).raise 32 0x1C24 2 (mkWord [(0, 11, f.src), (16, 16, f.seq.toNat)]) := by
    have hnone' : (s.onShore fun x => x.heard down s.now).messageRing 32
      (some (s.onShore fun x => x.heard down s.now).primary) = none := hnone
    rw [State.takeMsg, hnone', State.noFirmware, State.onShore_boot, if_pos hrun]
  obtain ⟨e, he, hevent⟩ := (s.onShore fun x => x.heard down s.now).raise_event 32 0x1C24 2
    (mkWord [(0, 11, f.src), (16, 16, f.seq.toNat)]) 0 none
  refine ⟨_, occurs_true _ (by simp [h, hbody]), e, State.remark_batch ?_, hevent⟩
  rw [hx, htake]
  exact he

theorem execMsg_fills {r : Nat} {g : Flight} (h : s.shoreRow f 5 = true) (hbody : f.body.length ≠ 0)
    (htakes : s.shore.takes f.dst = true) (hrun : s.boot.running = true) (hr : s.messageRing 32 (some s.primary) = some r)
    (hg : ((s.ring r).posted.head?).bind s.flight? = some g) :
    ∃ t, exec (.msg down f) s = .next t ∧ t.flight? g.id = none ∧ (t.ring r).posted = (s.ring r).posted.drop 1 ∧
      (f.dst = s.shore.address →
        s.Does (.msg down f) (((((s.onShore fun x => x.heard down s.now).onRing r fun x => { x with posted := x.posted.drop 1 }
          ).writeBuf g 0 f.body)).finish g (if g.desc.bufLen < f.body.length then 0x20 else 0)
            (some (min g.desc.bufLen f.body.length)) (some (f.src + 65536 * f.seq.toNat)))) := by
  have hfill := State.takeMsg_fills (s := s.onShore fun x => x.heard down s.now) f.src f.seq f.body hrun hr hg
  have hdoes : s.Does (.msg down f) (s.arrive down f fun s => s.takeMsg f.src f.seq f.body) := occurs_true _ (by simp [h, hbody])
  obtain ⟨x, -, hx⟩ := State.arrive_taken (consume := fun s => s.takeMsg f.src f.seq f.body) (down := down) hhops htakes
  refine ⟨_, hdoes, ?_, ?_, fun hown => ?_⟩
  · rw [State.remark_flight?, hx]
    dsimp only
    rw [hfill]
    exact State.finish_flight?_same ..
  · have hposted : (((s.onShore fun x => x.heard down s.now).takeMsg f.src f.seq f.body).ring r).posted =
        (s.ring r).posted.drop 1 := by
      have hrings (u : State) (f : Flight) (off : Nat) (bs : List Byte) : (u.writeBuf f off bs).ring r = u.ring r := by
        simp only [State.ring, State.writeBuf_rings]
      rw [hfill, State.finish_posted, hrings, State.onRing_eq, State.setRing_ring_same]
      rfl
    rw [State.remark_ring, hx]
    exact hposted
  · rw [State.arrive_own hhops (.inr hown)] at hdoes
    rwa [hfill] at hdoes

/-- A message for a higher address goes on downshore. -/
theorem execMsg_forwards (h : s.shoreRow f 5 = true) (hbody : f.body.length ≠ 0) (h0 : s.shore.address ≠ 0)
    (hup : s.shore.address < f.dst) (hall : f.dst ≠ 2047) (hnbr : s.shore.downNbr = true)
    (hroom : s.shore.downQueue.length < 32) :
    ∃ t, exec (.msg false f) s = .next t ∧ t.shore.upQueue = s.shore.upQueue ∧
      t.shore.downQueue = s.shore.downQueue ++ [{ frame := { f with hops := f.hops + 1 } }] := by
  have htakes : s.shore.takes f.dst = false := by
    simp [Shore.takes, hall, show f.dst ≠ 0 by omega, show f.dst ≠ s.shore.address by omega]
  have htyp : f.typ = 5 := State.shoreRow_typ h
  have harrive := State.arrive_eq s false (fun s => s.takeMsg f.src f.seq f.body) hhops
  simp only [htakes, Shore.ways_down (some false) h0 hup hall, Bool.false_eq_true, if_false, ne_eq, not_false_eq_true, Option.some.injEq,
    decide_true, if_true] at harrive
  refine ⟨_, occurs_true _ (by simp [h, hbody]), ?_, ?_⟩
  · rw [State.remark_shore, harrive]
    exact Shore.sendOut_upQueue_down ..
  · rw [State.remark_shore, harrive]
    refine (Shore.sendOut_downQueue (s.shore.heard false s.now) _ hnbr hroom).trans ?_
    rw [ShoreQueued.enter, if_neg (by simp [htyp])]
    rfl

end Frames

/-- Settles O55: each type of frame through what its arrival takes in and sends on. -/
theorem shoreFramesHandled : Obligations.ShoreFramesHandled := by
  unfold Obligations.ShoreFramesHandled
  intro s down f hhops
  refine ⟨execHello_hears hhops, execAddrAssign_adopts hhops, execInvReq_answers hhops, fun w => execInvResp_ends hhops,
    execAlarm_reports hhops, execLaserOff_orders hhops, execMsg_discards hhops, fun r g => execMsg_fills hhops,
    execMsg_forwards hhops, fun hon => ⟨_, occurs_true _ hon, ?_⟩⟩
  rw [State.remark_shore, State.onShore_shore]

/-! ### Timers -/

@[simp] theorem State.openOutput_now (s : State) (c : Nat) : (s.openOutput c).now = s.now := by
  unfold State.openOutput
  dsimp only
  split <;> rfl

@[simp] theorem State.openOutput_boot (s : State) (c : Nat) : (s.openOutput c).boot = s.boot := by
  unfold State.openOutput
  dsimp only
  split <;> rfl

/-- What is left of a SHORE_SEND's frame leaves the queues, and what has gone out, as they are. -/
theorem State.shoreSent_leaves (s : State) (cmd : Option Nat) :
    (s.shoreSent cmd).shore = s.shore ∧ s.out ⊆ (s.shoreSent cmd).out := by
  unfold State.shoreSent
  dsimp only
  split
  · cases cmd with
    | none => exact ⟨rfl, fun _ h => h⟩
    | some i =>
      simp only [State.finishOpt, State.finishId]
      split
      · exact ⟨State.finish_shore .., State.finish_out ..⟩
      · exact ⟨rfl, fun _ h => h⟩
  · exact ⟨rfl, fun _ h => h⟩

section Rows

variable {s : State} (hon : s.boot.powered = true)
include hon

theorem execHelloTimer_sends : ∃ t, exec .helloTimer s = .next t ∧ t.shore.helloDue = s.shore.helloDue + 100000000 ∧
    t.shore.seq = s.shore.seq + 2 ∧ s.shore.helloDue ≤ t.now := by
  refine ⟨_, occurs_true _ hon, ?_, ?_, ?_⟩
  · rw [State.remark_shore]
    rfl
  · rw [State.remark_shore]
    simp only [State.onShore_shore, Shore.sendLocal_seq, State.at_shore]
    rw [BitVec.add_assoc]
    rfl
  · rw [State.remark_now]
    exact Nat.le_max_right ..

theorem execShoreNeighbourLost_down (hnbr : s.shore.downNbr = true) :
    ∃ t, exec (.shoreNeighbourLost true) s = .next t ∧ t.shore.downNbr = false ∧
      t.shore.alarm1.isSome = true ∧ ∃ e ∈ t.batch, e.source = 32 ∧ e.code = 0x1C21 := by
  let u := (s.at (s.shore.downSeen + 500000000)).onShore fun x => { x with downNbr := false }
  obtain ⟨a, ha, hstill⟩ := (u.neighbour true true).alarm1_still true
  obtain ⟨e, he, hevent⟩ := u.raise_event 32 0x1C21 2 (mkWord [(0, 1, bitOf false), (1, 1, bitOf true)]) 0 none
  refine ⟨_, occurs_true _ (by simp [hon, hnbr]), ?_, ?_, e, State.remark_batch (State.alarm1_batch _ _ he), hevent⟩
  · rw [State.remark_shore]
    exact Shore.downNbr_of_still hstill
  · rw [State.remark_shore]
    exact (congrArg Option.isSome (Shore.alarm1_of_still hstill)).trans ha

theorem execShoreNeighbourLost_up (hnbr : s.shore.upNbr = true) :
    ∃ t, exec (.shoreNeighbourLost false) s = .next t ∧ t.shore.upNbr = false ∧
      ∃ e ∈ t.batch, e.source = 32 ∧ e.code = 0x1C21 := by
  obtain ⟨e, he, hevent⟩ := ((s.at (s.shore.upSeen + 500000000)).onShore fun x => { x with upNbr := false }).raise_event 32 0x1C21 2
    (mkWord [(0, 1, bitOf true), (1, 1, bitOf true)]) 0 none
  refine ⟨_, occurs_true _ (by simp [hon, hnbr]), ?_, e, State.remark_batch he, hevent⟩
  rw [State.remark_shore]
  rfl

theorem execHeadTimeout_adopts (ha : s.shore.address = 0) (hA : s.shore.tA = none) (hup : s.shore.upHello = false) :
    ∃ t, exec .headTimeout s = .next t ∧ t.shore.address = 1 ∧ t.shore.head = true ∧ 1000000000 ≤ t.now := by
  obtain ⟨⟨a, b, hstill⟩, -⟩ := (s.at 1000000000).adoptAddress_adopts 1 true
  have hnow : (s.at 1000000000).now ≤ ((s.at 1000000000).adoptAddress 1 true).now :=
    (State.adoptAddress_quiet _ _ (.refl _)).now
  refine ⟨_, occurs_true _ (by simp [hon, ha, hA, hup]), ?_, ?_, ?_⟩
  · rw [State.remark_shore]
    exact Shore.address_of_still hstill
  · rw [State.remark_shore]
    exact Shore.head_of_still hstill
  · rw [State.remark_now]
    exact Nat.le_trans (Nat.le_max_right ..) hnow

theorem execAddrAssignTimer_sends (ha : s.shore.address ≠ 0) :
    ∃ t, exec .addrAssignTimer s = .next t ∧ t.shore.assignDue = t.now + 1000000000 ∧ t.shore.seq = s.shore.seq + 1 := by
  have ha' : ¬ (s.at s.shore.assignDue).shore.address = 0 := ha
  refine ⟨_, occurs_true _ (by simp [hon, ha]), ?_, ?_⟩
  all_goals rw [State.remark_shore, State.assignDown, if_neg ha', State.onShore_shore]
  · rw [State.remark_now]
    rfl
  · exact Shore.sendLocal_seq ..

theorem execAlarmRepeatTimer_repeats {second : Bool} {due : Nat}
    (hdue : (if second then s.shore.alarm2 else s.shore.alarm1) = some due) :
    ∃ t, exec (.alarmRepeatTimer second) s = .next t ∧
      (if second then t.shore.alarm2 else t.shore.alarm1) = some (due + 10000000000) ∧ due ≤ t.now := by
  refine ⟨_, occursWith_some _ (by rw [if_pos hon]; exact hdue), ?_, ?_⟩
  · rw [State.remark_shore]
    cases second <;> rfl
  · rw [State.remark_now, State.onShore_now, State.sendAlarm_now, State.at_now]
    exact Nat.le_max_right ..

theorem execLighthouseNotRunning_raises (hrun : s.boot.running = false) (halarm : s.shore.alarm2 = none) :
    ∃ t, exec .lighthouseNotRunning s = .next t ∧ t.shore.alarm2.isSome = true ∧ s.boot.beganNs + 2000000000 ≤ t.now := by
  obtain ⟨a, ha, hstill⟩ := (s.at (s.boot.beganNs + 2000000000)).alarm2_still true
  refine ⟨_, occurs_true _ (by simp [hon, hrun, halarm]), ?_, ?_⟩
  · rw [State.remark_shore]
    exact (congrArg Option.isSome (Shore.alarm2_of_still hstill)).trans ha
  · rw [State.remark_now, State.alarm2_now, State.at_now]
    exact Nat.le_max_right ..

/-! ### Lasers, derating, queries and queues -/

theorem execLaserOffHoldExpiry_releases {due : Nat} (hoff : s.shore.laserOff = true) (hdue : s.shore.holdDue = some due) :
    ∃ t, exec .laserOffHoldExpiry s = .next t ∧ t.shore.laserOff = false ∧ t.shore.holdDue = none ∧ due ≤ t.now := by
  have hoff' : (s.at due).shore.laserOff = true := hoff
  refine ⟨_, occursWith_some _ (by rw [hon, hoff]; exact hdue), ?_, ?_, ?_⟩
  all_goals simp only [State.remark_shore, State.remark_now, State.draw_shore, State.draw_now, State.shoreOn, if_pos hoff']
  · rw [foldl_eq_of (·.shore) _ _ _ fun s c => s.openOutput_shore c]
    rfl
  · rw [foldl_eq_of (·.shore) _ _ _ fun s c => s.openOutput_shore c]
    rfl
  · rw [foldl_eq_of (·.now) _ _ _ fun s c => s.openOutput_now c]
    exact Nat.le_max_right ..

theorem execLaserOffNRelease_releases (hpin : s.boot.laserOffN = true) :
    ∃ t, exec .laserOffNRelease s = .next t ∧ t.boot.laserOffN = false := by
  refine ⟨_, occurs_true _ (by simp [hon, hpin]), ?_⟩
  rw [State.remark_boot, State.sendAlarm_boot, foldl_eq_of (·.boot) _ _ _ fun s c => s.openOutput_boot c]

theorem execShoreInvTimeout_ends {id : Nat} {w : InvWait} (hw : s.shore.invWaits.find? (fun w => w.id = id) = some w) :
    ∃ t, exec (.shoreInvTimeout id) s = .next t ∧ t.flight? id = none ∧ (∀ q ∈ t.shore.invWaits, q.id ≠ id) ∧ w.due ≤ t.now := by
  have hid : w.id = id := by simpa using List.find?_some hw
  obtain ⟨hgone, hwaits⟩ := (s.at w.due).queryEnds_ends w (k := fun f s => s.finish f 0x21) fun g u => by simp
  refine ⟨_, occursWith_some (a := w) _ (by simp [hw, hon]), ?_, fun q hq => ?_, ?_⟩
  · rw [State.remark_flight?, ← hid]
    exact hgone
  · rw [State.remark_shore, hwaits, hid] at hq
    simpa using (List.mem_filter.1 hq).2
  · rw [State.remark_now]
    have hnow : (s.at w.due).now ≤ ((s.at w.due).queryEnds w fun f s => s.finish f 0x21).now :=
      (State.queryEnds_quiet w _ (fun f u hu => State.finish_quiet f 0x21 none none none hu) (.refl _)).now
    exact Nat.le_trans (Nat.le_max_right ..) hnow

theorem execShoreFrameSent_sends {down : Bool} {q : ShoreQueued}
    (hq : (if down then s.shore.downQueue else s.shore.upQueue).head? = some q) :
    ∃ t, exec (.shoreFrameSent down) s = .next t ∧
      t.shore = (if down then { s.shore with downQueue := s.shore.downQueue.drop 1 }
        else { s.shore with upQueue := s.shore.upQueue.drop 1 }) ∧ Output.shore down q.frame.macBytes ∈ t.out := by
  obtain ⟨hshore, hout⟩ := ((s.onShore fun x => if down then { x with downQueue := x.downQueue.drop 1 }
    else { x with upQueue := x.upQueue.drop 1 }).emit (.shore down q.frame.macBytes)).shoreSent_leaves q.cmd
  refine ⟨_, occursWith_some _ (by rw [if_pos hon]; exact hq), ?_, ?_⟩
  · rw [State.remark_shore, hshore]
    rfl
  · rw [State.remark_out]
    exact hout (List.mem_cons_self ..)

end Rows

/-- Settles O56: each row through what it sends and what that leaves alone. -/
theorem shoreRowsComplete : Obligations.ShoreRowsComplete := by
  unfold Obligations.ShoreRowsComplete
  intro s hon
  refine ⟨execHelloTimer_sends hon, execShoreNeighbourLost_down hon, execShoreNeighbourLost_up hon, execHeadTimeout_adopts hon,
    execAddrAssignTimer_sends hon, fun due => execAlarmRepeatTimer_repeats (second := false) hon,
    fun due => execAlarmRepeatTimer_repeats (second := true) hon, execLighthouseNotRunning_raises hon,
    fun due => execLaserOffHoldExpiry_releases hon, fun hpin => ⟨_, occurs_true _ (by simp [hon, hpin]), ?_⟩,
    execLaserOffNRelease_releases hon, fun hd => ⟨_, occurs_true _ (by simp [hon, hd]), ?_⟩,
    fun hd => ⟨_, occurs_true _ (by simp [hon, hd]), ?_⟩, fun id w => execShoreInvTimeout_ends hon, fun q hq => ?_, fun q hq => ?_⟩
  · rw [State.remark_boot, State.pinOff_boot]
  · rw [State.remark_boot, State.sendAlarm_boot]
  · rw [State.remark_boot, State.sendAlarm_boot]
    exact ⟨rfl, rfl⟩
  · obtain ⟨t, ht, hshore, hout⟩ := execShoreFrameSent_sends hon (down := true) hq
    exact ⟨t, ht, congrArg Shore.downQueue hshore, hout⟩
  · obtain ⟨t, ht, hshore, hout⟩ := execShoreFrameSent_sends hon (down := false) hq
    exact ⟨t, ht, congrArg Shore.upQueue hshore, hout⟩

end Sys2Proof.Machine
end

section
/-! The spine of a channel: what its reports, tributaries, groups, exchanges and calibration leave alone. -/

namespace Sys2Proof.Machine

/-- A channel but for its tributaries and their figures, its slots, keys, messages, exchanges, calibration and leaves. -/
abbrev Channel.spine (ch : Channel) : Channel :=
  { ch with
    kp := { ch.kp with phaseReported := 0 }, tribs := [], sl := {}, cx := [], rf := {}, fec := {}, ld := {}, cal := {}, age := {}
    tf := { sending := ch.tf.sending, mfc := ch.tf.mfc, frame := ch.tf.frame, starts := ch.tf.starts }
    rx := { ch.rx with reconvNow := 0, windowHit := none }
    pm := { mode := ch.pm.mode }, outOfWindow := false, saidTx := false, saidRx := (false, 0), mask := {} }

section Spine

variable (s : State)

@[simp] theorem State.setTrib_spine (i : Nat) (x : Trib) : (s.setTrib i x).view Channel.spine = s.view Channel.spine :=
  State.view_setChan rfl

@[simp] theorem State.onTrib_spine (i : Nat) (g : Trib → Trib) : (s.onTrib i g).view Channel.spine = s.view Channel.spine :=
  s.setTrib_spine i _

@[simp] theorem State.reported_spine (c : Nat) : (s.reported c).view Channel.spine = s.view Channel.spine := by
  simp [State.reported]

@[simp] theorem State.oweLatency_spine (c : Nat) : (s.oweLatency c).view Channel.spine = s.view Channel.spine := by
  simp [State.oweLatency]

/-! ### Figures of latency (02 R27) and groups (06 R131 to R137) -/

@[simp] theorem State.latencyEvent_spine (i : Nat) : (s.latencyEvent i).view Channel.spine = s.view Channel.spine := by
  simp [State.latencyEvent]

@[simp] theorem State.latencyChanged_spine (i : Nat) : (s.latencyChanged i).view Channel.spine = s.view Channel.spine := by
  simp [State.latencyChanged]

@[simp] theorem State.payOwed_spine (c : Nat) : (s.payOwed c).view Channel.spine = s.view Channel.spine := by
  refine State.view_foldl (fun s l => ?_) _ s
  simp

@[simp] theorem State.restateOne_spine (c i : Nat) (tx rx : Bool) : (s.restateOne c i tx rx).view Channel.spine = s.view Channel.spine := by
  simp [State.restateOne]

@[simp] theorem State.restate_spine (c : Nat) (tx rx : Bool) : (s.restate c tx rx).view Channel.spine = s.view Channel.spine := by
  refine (State.view_foldl (fun s i => ?_) _ _).trans (by simp)
  simp

@[simp] theorem State.failTrib_spine (i cause : Nat) : (s.failTrib i cause).view Channel.spine = s.view Channel.spine := by
  simp [State.failTrib]

@[simp] theorem State.failMember_spine (g c : Nat) : (s.failMember g c).view Channel.spine = s.view Channel.spine := by
  refine State.view_foldl (fun s i => ?_) _ s
  simp

@[simp] theorem State.lookMember_spine (g : Nat) (cause : Option Nat) (c : Nat) :
    (s.lookMember g cause c).view Channel.spine = s.view Channel.spine := by
  simp [State.lookMember]

@[simp] theorem State.alignGroup_spine (g : Nat) : (s.alignGroup g).view Channel.spine = s.view Channel.spine := by
  unfold State.alignGroup
  dsimp only
  split <;> rfl

@[simp] theorem State.groupWindow_spine (g : Nat) (cause : Option Nat) : (s.groupWindow g cause).view Channel.spine = s.view Channel.spine := by
  have hlook (u : State) (cs : List Nat) :
      (cs.foldl (fun s c => s.lookMember g cause c) u).view Channel.spine = u.view Channel.spine :=
    State.view_foldl (fun s c => s.lookMember_spine g cause c) cs u
  simp [State.groupWindow, hlook]

@[simp] theorem State.lookGroup_spine (c : Nat) (cause : Option Nat) : (s.lookGroup c cause).view Channel.spine = s.view Channel.spine := by
  unfold State.lookGroup
  split
  · simp
  · rfl

/-! ### Messages and the loading exchange (09 R206; 10 R243 to R246) -/

@[simp] theorem State.loseMessage_spine (c : Nat) (seq : BitVec 16) (cause : Nat) (by_ : Option Nat) :
    (s.loseMessage c seq cause by_).view Channel.spine = s.view Channel.spine := by
  simp [State.loseMessage]

@[simp] theorem State.breakMessage_spine (c cause : Nat) (by_ : Option Nat) :
    (s.breakMessage c cause by_).view Channel.spine = s.view Channel.spine := by
  unfold State.breakMessage
  split
  · simp
  · rfl

@[simp] theorem State.reconverged_spine (c peak : Nat) (cause : Option Nat) :
    (s.reconverged c peak cause).view Channel.spine = s.view Channel.spine := by
  unfold State.reconverged
  dsimp only
  split
  · rfl
  · exact State.view_setChan rfl

@[simp] theorem State.cutMultiframe_spine (c : Nat) (cause : Option Nat) :
    (s.cutMultiframe c cause).view Channel.spine = s.view Channel.spine := by
  simp [State.cutMultiframe]

@[simp] theorem State.lapse_spine (c cause : Nat) (seq : BitVec 16) : (s.lapse c cause seq).view Channel.spine = s.view Channel.spine := rfl

@[simp] theorem State.lxEnds_spine (c : Nat) (p : LxProposal) (st : Nat) (r2 : Option Nat) (reason : Nat) :
    (s.lxEnds c p st r2 reason).view Channel.spine = s.view Channel.spine := by
  simp [State.lxEnds]

@[simp] theorem State.agreementLapse_spine (c : Nat) : (s.agreementLapse c).view Channel.spine = s.view Channel.spine := by
  unfold State.agreementLapse
  split
  · simp
  · rfl

@[simp] theorem State.lxStop_spine (c : Nat) : (s.lxStop c).view Channel.spine = s.view Channel.spine := by
  rw [State.lxStop, State.agreementLapse_spine]
  split
  · simp
  · rfl

@[simp] theorem State.missLeaves_spine (c : Nat) : (s.missLeaves c).view Channel.spine = s.view Channel.spine := by
  refine State.view_setChan ?_
  dsimp only
  split <;> rfl

/-- A mask of subcarriers that an exchange has left alone is left alone by the return to the hub. -/
theorem mix_self (a d : BitVec 16) : (a &&& ~~~d) ||| (a &&& d) = a := by
  ext i
  simp
  cases a[i] <;> cases d[i] <;> rfl

/-- What an exchange with one leaf leaves alone stays while the hub's channel stands for the pair. -/
theorem State.inPair_spine (c j : Nat) {g : State → State} (hg : ∀ s, (g s).view Channel.spine = s.view Channel.spine) :
    (s.inPair c j g).view Channel.spine = s.view Channel.spine := by
  have henter : (s.enterPair c j).view Channel.spine = s.view Channel.spine := by simp [State.enterPair]
  have hsame : ((g (s.enterPair c j)).chan c).spine = (s.chan c).spine := congrFun ((hg _).trans henter) c
  have hrx := congrArg Channel.rx hsame
  have hlocked := congrArg Receiver.locked hrx
  have hacquired := congrArg Receiver.acquired hrx
  have hlost := congrArg Receiver.lostSub hrx
  dsimp only at hlocked hacquired hlost
  refine (State.view_setChan ?_).trans ((hg _).trans henter)
  simp [← hlocked, ← hacquired, ← hlost, mix_self]

/-! ### Frame alignment (08 R186) -/

@[simp] theorem State.enterSearch_spine (c : Nat) (cause : Option Nat) : (s.enterSearch c cause).view Channel.spine = s.view Channel.spine := by
  simp [State.enterSearch]

@[simp] theorem State.searchLeaves_spine (c : Nat) (cause : Option Nat) :
    (s.searchLeaves c cause).view Channel.spine = s.view Channel.spine := by
  unfold State.searchLeaves
  split
  · rfl
  · rw [State.missLeaves_spine]
    refine State.view_foldl (fun s p => ?_) _ s
    split
    · rfl
    · exact State.inPair_spine _ _ _ fun s => s.enterSearch_spine c cause

@[simp] theorem State.endHit_spine (c : Nat) : (s.endHit c).view Channel.spine = s.view Channel.spine := by
  simp [State.endHit]

/-! ### Calibration (12 R282 to R288) -/

@[simp] theorem State.calTell_spine (c : Nat) (tx : Bool) (outcome : Nat) : (s.calTell c tx outcome).view Channel.spine = s.view Channel.spine := by
  refine (State.view_foldl (fun s w => ?_) _ _).trans (by simp)
  simp

@[simp] theorem State.calEvent_spine (c : Nat) (tx : Bool) (reason n sev : Nat) (cause : Option Nat) :
    (s.calEvent c tx reason n sev cause).view Channel.spine = s.view Channel.spine := rfl

@[simp] theorem State.calStart_spine (c : Nat) (tx initial response : Bool) :
    (s.calStart c tx initial response).view Channel.spine = s.view Channel.spine := by
  simp [State.calStart]

@[simp] theorem State.calAgain_spine (c : Nat) (tx : Bool) : (s.calAgain c tx).view Channel.spine = s.view Channel.spine := by
  simp [State.calAgain]

@[simp] theorem State.calNext_spine (c : Nat) (tx : Bool) (r : CalRun) (slewed due response : Bool) :
    (s.calNext c tx r slewed due response).view Channel.spine = s.view Channel.spine := by
  simp [State.calNext]

@[simp] theorem State.calReject_spine (c : Nat) (tx : Bool) (reason : Nat) (cause : Option Nat) :
    (s.calReject c tx reason cause).view Channel.spine = s.view Channel.spine := by
  unfold State.calReject
  dsimp only
  split
  · rfl
  · simp

@[simp] theorem State.calAbandon_spine (c : Nat) (tx : Bool) (cause : Option Nat) :
    (s.calAbandon c tx cause).view Channel.spine = s.view Channel.spine := s.calReject_spine c tx 4 cause

@[simp] theorem State.calExpired_spine (c : Nat) : (s.calExpired c).view Channel.spine = s.view Channel.spine := by
  simp [State.calExpired]

@[simp] theorem State.calResume_spine (c : Nat) (tx : Bool) : (s.calResume c tx).view Channel.spine = s.view Channel.spine := by
  simp [State.calResume]

/-! ### What ends with an event when frames stop (18 R409) -/

@[simp] theorem State.selfcalOver_spine (n id st : Nat) : (s.selfcalOver n id st).view Channel.spine = s.view Channel.spine := by
  simp [State.selfcalOver]

@[simp] theorem State.stopReports_spine (c : Nat) : (s.stopReports c).view Channel.spine = s.view Channel.spine := by
  have hpairs (u : State) (qs : List (Nat × Leaf)) :
      (qs.foldl (fun s q => s.inPair c q.1 fun s => (s.breakMessage c 3).lxStop c) u).view Channel.spine = u.view Channel.spine :=
    State.view_foldl (fun s q => s.inPair_spine c q.1 fun s => by simp) qs u
  unfold State.stopReports
  dsimp only
  split <;> simp [hpairs]

@[simp] theorem State.cut_spine (c keep : Nat) : (s.cut c keep).view Channel.spine = s.view Channel.spine := by
  rw [State.cut, State.view_finishAll]
  rfl

end Spine

end Sys2Proof.Machine
end

section
/-! The receiver: its commands, how it moves forward through its states, and how it falls back (11 R257 to R274). -/

namespace Sys2Proof.Machine

/-! ### The commands -/

section Commands

variable {s : State} {id c : Nat} {f : Flight} (hc : f.desc.target = c)
include hc

theorem execCdWindow_sets {w : Nat} (h : s.Started id 0x1403 f) (hw : w = f.desc.p0.bits 9 0) (hmax : w ≤ 800)
    (hnew : w ≠ (s.chan c).bu.params.cdCeil) (hup : (s.chan c).bu.step = 4)
    (hkeeps : s.breaks c (s.chan c).fec.rxOffshore w = false) (htrack : (s.chan c).rx.state ≠ .tracking) :
    ∃ t, exec (.cdWindow id) s = .next t ∧ (t.chan c).bu.params.cdCeil = w ∧ t.flight? f.id = none := by
  subst hc hw
  refine ⟨_, withCmd_started h _, ?_⟩
  dsimp only
  rw [if_neg (by simp [Nat.not_lt.2 hmax, hnew]), if_neg (by simp [hup]), if_neg (by simp [hkeeps]), if_neg (by simp [htrack]),
    if_neg htrack]
  refine ⟨?_, by simp⟩
  rw [State.remark_chan_bu, State.finish_chan]
  have hspine : ∀ u : State, ((u.restate f.desc.target false true).chan f.desc.target).bu = (u.chan f.desc.target).bu := fun u =>
    (congrArg Channel.bu (congrFun (u.restate_spine f.desc.target false true) f.desc.target) :)
  rw [State.setWindow, if_pos rfl, hspine]
  split <;> simp [State.startSearch, State.rxEnter]

theorem execCdWindow_waits {w : Nat} (h : s.Started id 0x1403 f) (hw : w = f.desc.p0.bits 9 0) (hmax : w ≤ 800)
    (hnew : w ≠ (s.chan c).bu.params.cdCeil) (hup : (s.chan c).bu.step = 4)
    (hkeeps : s.breaks c (s.chan c).fec.rxOffshore w = false) (htrack : (s.chan c).rx.state = .tracking)
    (hfits : (s.chan c).rx.cdMeas.natAbs ≤ 100 * w) :
    s.Does (.cdWindow id) ((s.onRx c fun x => { x with window := x.window ++ [(f.id, w)] }).run f) := by
  subst hc hw
  refine (withCmd_started h _).trans ?_
  dsimp only
  rw [if_neg (by simp [Nat.not_lt.2 hmax, hnew]), if_neg (by simp [hup]), if_neg (by simp [hkeeps]),
    if_neg (by simp [Nat.not_lt.2 hfits]), if_pos htrack]

theorem execTxShape_waits {p : Int} (h : s.Started id 0x1404 f) (hp : p = signed 16 (f.desc.p0.bits 15 0)) (hlo : -120 ≤ p)
    (hhi : p ≤ 30) (hofs : ∀ o ∈ f.desc.offsets, -30 ≤ o ∧ o ≤ 30) (hawake : (s.chan c).awake = true) :
    s.Does (.txShape id) ((s.onBu c fun b => { b with shapes := b.shapes ++ [(f.id, p, f.desc.offsets)] }).run f) := by
  subst hc hp
  have hofs' : (f.desc.offsets.any fun o => 30 < o.natAbs) = false := by
    refine List.any_eq_false.2 fun o ho => ?_
    have := hofs o ho
    simp only [decide_eq_true_eq]
    omega
  refine (withCmd_started h _).trans ?_
  dsimp only
  rw [if_neg (by simp only [powerOk, hofs', decide_eq_true hlo, decide_eq_true hhi]; decide), if_neg (by simp [hawake])]

theorem execAcqConfig_sets {h : Int} (hs : s.Started id 0x1405 f) (hh : h = signed 16 (f.desc.p0.bits 31 16))
    (hfits : h.natAbs ≤ 10 * (s.chan c).bu.params.cdCeil) :
    s.Does (.acqConfig id)
      ((s.onRx c fun x => { x with blindFirst := f.desc.p0.bit 0, altValid := f.desc.p0.bit 1, altHint := h }).finish f 0) := by
  subst hc hh
  refine (withCmd_started hs _).trans ?_
  dsimp only
  rw [if_neg (Nat.not_lt.2 hfits)]

end Commands

/-- Settles O45: each command's refusals are ruled out in their order. -/
theorem receiverCommandsComplete : Obligations.ReceiverCommandsComplete := by
  unfold Obligations.ReceiverCommandsComplete
  intro s id c f hc
  exact ⟨fun h => hc ▸ withCmd_started h _, fun h => hc ▸ withCmd_started h _, fun w => execCdWindow_sets hc,
    fun w => execCdWindow_waits hc, fun p => execTxShape_waits hc, fun h => execAcqConfig_sets hc⟩

/-! ### Moving between states (11 R257, R258, R267) -/

section Moves

variable (s : State) (c : Nat)

@[simp] theorem State.rxEnter_state (x : RxState) : ((s.rxEnter c x).chan c).rx.state = x := by simp [State.rxEnter]

@[simp] theorem State.rxEnter_conv (x : RxState) (k : Nat) : (s.rxEnter c x).conv k = s.conv k := by simp [State.rxEnter]

@[simp] theorem State.startSearch_state : ((s.startSearch c).chan c).rx.state = .search := by simp [State.startSearch]

@[simp] theorem State.startSearch_conv (k : Nat) : (s.startSearch c).conv k = s.conv k := by simp [State.startSearch]

@[simp] theorem State.acquire_state : ((s.acquire c).chan c).rx.state = .search := by simp [State.acquire]

@[simp] theorem State.acquire_conv (k : Nat) : (s.acquire c).conv k = s.conv k := by simp [State.acquire]

@[simp] theorem State.startRxCal_state : ((s.startRxCal c).chan c).rx.state = .calibration := by
  have hspine := congrFun ((((s.rxEnter c .calibration).onCal c fun x => { x with rxConverged := 0 }).calStart_spine c false true false)) c
  have hstate := congrArg (fun ch : Channel => ch.rx.state) hspine
  exact hstate.trans (by simp [State.view])

@[simp] theorem State.startRxCal_conv (k : Nat) : (s.startRxCal c).conv k = s.conv k := by simp [State.startRxCal, State.calStart]

@[simp] theorem State.endRxCal_state : ((s.endRxCal c).chan c).rx.state = .search := by simp [State.endRxCal]

@[simp] theorem State.endRxCal_calDone : ((s.endRxCal c).chan c).rx.calDone = true := by
  simp [State.endRxCal, State.acquire, State.startSearch, State.rxEnter]

/-- The work of a state is done: the receiver goes where it leads. -/
theorem execRxStateAdvance_goes {s t : State} {c : Fin 32} {cd : Int} (hon : s.boot.powered = true)
    (h : s.advance c cd = some t) : exec (.rxStateAdvance c cd) s = .next t.remark :=
  occursWith_some _ (by rw [if_pos hon, h])

/-- The dispersion is taken where state 6 is reached, and a step of more than 200 ps/nm is reported. -/
theorem State.track_reaches (s : State) (c : Nat) (cd : Int) :
    ((s.track c cd).chan c).rx.state = .tracking ∧ ((s.track c cd).chan c).rx.cdMeas = cd ∧
      (∃ e ∈ (s.track c cd).batch, e.source = c ∧ e.code = 0x1402) ∧
      ∀ b, (s.chan c).rx.cdBefore = some b → 200 < (cd - b).natAbs → ∃ e ∈ (s.track c cd).batch, e.source = c ∧ e.code = 0x1405 := by
  let u := ((s.rxEnter c .tracking).clockRises c).onRx c fun y =>
    { y with cdMeas := cd, cdKnown := true, cdBefore := none, first := false, searches := [] }
  let v := u.raise c 0x1402 1 (mkWord [(0, 32, (u.now - (s.chan c).rx.acqNs) / 1000000)]) (BitVec.ofInt 32 cd)
  have hstate : (v.chan c).rx.state = .tracking ∧ (v.chan c).rx.cdMeas = cd := by simp [v, u, State.clockRises]
  obtain ⟨e, he, hevent⟩ := u.raise_event c 0x1402 1 (mkWord [(0, 32, (u.now - (s.chan c).rx.acqNs) / 1000000)]) (BitVec.ofInt 32 cd) none
  cases hb : (s.chan c).rx.cdBefore with
  | none =>
    have ht : s.track c cd = v := by simp only [State.track, hb]; rfl
    rw [ht]
    exact ⟨hstate.1, hstate.2, ⟨e, he, hevent⟩, nofun⟩
  | some b =>
    have ht : s.track c cd = if 200 < (cd - b).natAbs then v.raise c 0x1405 2 (mkWord [(0, 32, twos 32 b)]) (BitVec.ofInt 32 cd) else v := by
      simp only [State.track, hb]
      rfl
    rw [ht]
    split
    · exact ⟨hstate.1, hstate.2, ⟨e, List.mem_append_left _ he, hevent⟩, fun _ _ _ => v.raise_event ..⟩
    · next hsmall =>
      refine ⟨hstate.1, hstate.2, ⟨e, he, hevent⟩, fun b' hb' hlarge => ?_⟩
      cases hb'
      exact absurd hlarge hsmall

/-- The events of a subcarrier's lock change no channel. -/
theorem State.lockEvent_chan (s : State) (c i : Nat) (lost : Bool) (d : Nat) : (s.lockEvent c i lost).chan d = s.chan d := rfl

theorem subBit_getLsbD (i : Fin 16) : (subBit i).getLsbD i = true := by
  rw [subBit, BitVec.getLsbD_ofNat, Nat.testBit_two_pow_self, Bool.and_true, decide_eq_true i.isLt]

theorem getLsbD_or_subBit (x : BitVec 16) (i : Fin 16) : (x ||| subBit i).getLsbD i = true := by
  rw [BitVec.getLsbD_or, subBit_getLsbD, Bool.or_true]

theorem getLsbD_and_not_subBit (x : BitVec 16) (i : Fin 16) : (x &&& ~~~(subBit i)).getLsbD i = false := by
  rw [BitVec.getLsbD_and, BitVec.getLsbD_not, subBit_getLsbD, Bool.not_true, Bool.and_false, Bool.and_false]

end Moves

section Forward

variable {s : State} {c : Fin 32} (hon : s.boot.powered = true)

theorem execSignalPresent_moves {least : BitVec 8} (hconv : s.converting c = true) (hleast : s.losCodeOf c + 2 ≤ least.toNat)
    (hstate : (s.chan c).rx.state = .noSignal) : ∃ t, exec (.signalPresent c least) s = .next t ∧ (t.conv c).los = false ∧
      (t.chan c).rx.state = if (s.chan c).rx.calDone || (s.chan c).rx.skipCal then .search else .calibration := by
  refine ⟨_, occurs_true _ (by simp [hconv, hleast, hstate]), ?_⟩
  rw [State.remark_conv, State.remark_chan_rx, if_pos hstate]
  split <;> simp

include hon

theorem execRxStateAdvance_calibrated {cd : Int} (hstate : (s.chan c).rx.state = .calibration)
    (hdone : 2 ≤ (s.chan c).cal.converged false) (hrun : (s.chan c).cal.rxRun = none) :
    ∃ t, exec (.rxStateAdvance c cd) s = .next t ∧ (t.chan c).rx.state = .search ∧ (t.chan c).rx.calDone = true := by
  refine ⟨_, execRxStateAdvance_goes (t := s.endRxCal c) hon (by simp [State.advance, hstate, hdone, hrun]), ?_⟩
  simp

theorem execRxStateAdvance_found {cd : Int} (hstate : (s.chan c).rx.state = .search) (hfinds : (s.chan c).rx.finds cd = true)
    (hwindow : cd.natAbs ≤ 100 * (s.chan c).bu.params.cdCeil) :
    ∃ t, exec (.rxStateAdvance c cd) s = .next t ∧ (t.chan c).rx.state = .carrier := by
  refine ⟨_, execRxStateAdvance_goes (t := s.rxEnter c .carrier) hon (by simp [State.advance, hstate, hfinds, hwindow]), ?_⟩
  simp

theorem execRxStateAdvance_carried {cd : Int} (hstate : (s.chan c).rx.state = .carrier) :
    ∃ t, exec (.rxStateAdvance c cd) s = .next t ∧ (t.chan c).rx.state = .pilotLock := by
  refine ⟨_, execRxStateAdvance_goes (t := s.rxEnter c .pilotLock) hon (by simp [State.advance, hstate]), ?_⟩
  simp

theorem execRxStateAdvance_tracks {cd : Int} (hstate : (s.chan c).rx.state = .pilotLock) (hlocked : (s.chan c).rx.locked ≠ 0)
    (hall : (s.chan c).rx.acquired &&& (s.chan c).rxSet.lit = (s.chan c).rxSet.lit)
    (hwindow : cd.natAbs ≤ 100 * (s.chan c).bu.params.cdCeil) :
    ∃ t, exec (.rxStateAdvance c cd) s = .next t ∧ (t.chan c).rx.state = .tracking ∧ (t.chan c).rx.cdMeas = cd ∧
      (∃ e ∈ t.batch, e.source = c.val ∧ e.code = 0x1402) ∧
      (∀ b, (s.chan c).rx.cdBefore = some b → 200 < (cd - b).natAbs → ∃ e ∈ t.batch, e.source = c.val ∧ e.code = 0x1405) := by
  obtain ⟨htrack, hcd, ⟨e, he, hevent⟩, hstep⟩ := s.track_reaches c cd
  refine ⟨_, execRxStateAdvance_goes (t := s.track c cd) hon ?_, ?_, ?_, ⟨e, State.remark_batch he, hevent⟩, fun b hb hlarge => ?_⟩
  · simpa [State.advance, hstate, hall, hwindow] using hlocked
  · rw [State.remark_chan_rx, htrack]
  · rw [State.remark_chan_rx, hcd]
  · obtain ⟨e, he, hevent⟩ := hstep b hb hlarge
    exact ⟨e, State.remark_batch he, hevent⟩

theorem execPilotLock_locks {mask : BitVec 16} {odd : Bool} (hstate : (s.chan c).rx.state = .pilotLock)
    (hnone : (s.chan c).rx.locked = 0) (hlit : mask &&& (s.chan c).rxSet.lit ≠ 0)
    (hodd : odd = ((s.chan c).ld.lsnRx.toNat % 2 == 1)) :
    ∃ t, exec (.pilotLock c mask odd) s = .next t ∧ (t.chan c).rx.locked = mask &&& (s.chan c).rxSet.lit ∧
      (t.chan c).ld.seenOdd = odd := by
  refine ⟨_, occurs_true _ (by simpa [hon, hstate, hnone] using hlit), ?_⟩
  rw [State.remark_chan_rx, State.remark_chan_ld, State.pilotLocked, if_pos (by rw [hodd]; exact beq_self_eq_true _)]
  simp

theorem execSubcarrierAcquired_locks {i : Fin 16} (hstate : (s.chan c).rx.state = .pilotLock ∨ (s.chan c).rx.state = .tracking)
    (hlocked : (s.chan c).rx.locked ≠ 0) (hlit : (s.chan c).rxSet.isLit i = true) (hnot : (s.chan c).rx.acquired.getLsbD i = false) :
    ∃ t, exec (.subcarrierAcquired c i) s = .next t ∧ (t.chan c).rx.acquired.getLsbD i = true ∧
      (t.chan c).rx.locked.getLsbD i = true ∧
      ((s.chan c).rx.lostSub.getLsbD i = true → ∃ e ∈ t.batch, e.source = c.val ∧ e.code = 0x1403) := by
  refine ⟨_, occurs_true _ (by rcases hstate with h | h <;> simpa [hon, h, hlit] using by simp_all), ?_⟩
  rw [State.remark_chan_rx]
  dsimp only
  split
  · obtain ⟨e, he, hevent⟩ := (s.onRx c fun x => { x with locked := x.locked ||| subBit i, acquired := x.acquired ||| subBit i
                                                          lostSub := x.lostSub &&& ~~~(subBit i) }).raise_event c 0x1403 2
      (mkWord [(0, 4, i), (4, 1, bitOf false)]) 0 none
    refine ⟨?_, ?_, fun _ => ⟨e, State.remark_batch he, hevent⟩⟩
    · rw [State.lockEvent_chan, State.onRx_eq, State.setChan_chan_same]
      exact getLsbD_or_subBit ..
    · rw [State.lockEvent_chan, State.onRx_eq, State.setChan_chan_same]
      exact getLsbD_or_subBit ..
  · next hkept =>
    refine ⟨?_, ?_, fun h => absurd h hkept⟩
    · rw [State.onRx_eq, State.setChan_chan_same]
      exact getLsbD_or_subBit ..
    · rw [State.onRx_eq, State.setChan_chan_same]
      exact getLsbD_or_subBit ..

theorem execEqDiverged_counts {i : Fin 16} (hstate : (s.chan c).rx.state = .pilotLock ∨ (s.chan c).rx.state = .tracking)
    (hlit : (s.chan c).rxSet.isLit i = true) :
    ∃ t, exec (.eqDiverged c i) s = .next t ∧ (t.chan c).rx.eqReconv = (s.chan c).rx.eqReconv + 1 ∧
      (t.chan c).rx.state = (s.chan c).rx.state := by
  refine ⟨_, occurs_true _ (by rcases hstate with h | h <;> simp [hon, h, hlit]), ?_⟩
  simp

end Forward

/-! ### What a loss of acquisition leaves raised, and the monitor converters (11 R267, R272) -/

/-- An operation aside: what is raised stays raised, and the monitor converters are left alone. -/
structure State.Aside (s t : State) : Prop where
  batch : s.batch ⊆ t.batch
  convs : t.convs = s.convs

theorem State.Aside.rfl {s : State} : s.Aside s := ⟨fun _ h => h, Eq.refl _⟩

theorem State.Aside.trans {s t u : State} (h : s.Aside t) (k : t.Aside u) : s.Aside u :=
  ⟨fun _ he => k.batch (h.batch he), k.convs.trans h.convs⟩

theorem State.Aside.ite {s t u : State} {p : Prop} [Decidable p] (ht : s.Aside t) (hu : s.Aside u) :
    s.Aside (if p then t else u) := by
  split <;> assumption

theorem State.Aside.foldl {α : Type} {g : State → α → State} (h : ∀ (s : State) x, s.Aside (g s x)) (xs : List α) (s : State) :
    s.Aside (xs.foldl g s) :=
  foldl_inv_of (fun u => s.Aside u) xs g s (fun u x hu => hu.trans (h u x)) .rfl

section Aside

variable (s : State)

theorem State.raise_aside (source code sev : Nat) (d0 : Word) (d1 : BitVec 32) (cause : Option Nat) :
    s.Aside (s.raise source code sev d0 d1 cause) := ⟨List.subset_append_left .., rfl⟩

theorem State.setChan_aside (c : Nat) (x : Channel) : s.Aside (s.setChan c x) := ⟨fun _ h => h, rfl⟩

theorem State.onCal_aside (c : Nat) (g : Cal → Cal) : s.Aside (s.onCal c g) := s.setChan_aside c _

theorem State.finishId_aside (id st : Nat) (r0 r1 r2 : Option Nat) : s.Aside (s.finishId id st r0 r1 r2) :=
  ⟨fun _ h => by simpa using h, by simp⟩

theorem State.latencyChanged_aside (i : Nat) : s.Aside (s.latencyChanged i) := by
  unfold State.latencyChanged
  exact .ite (s.setChan_aside ..) (((s.setChan_aside ..).trans (State.setChan_aside ..)).trans (State.raise_aside ..))

theorem State.restateOne_aside (c i : Nat) (tx rx : Bool) : s.Aside (s.restateOne c i tx rx) := by
  unfold State.restateOne
  exact .ite .rfl (((s.setChan_aside ..).trans (State.latencyChanged_aside ..)).trans (State.setChan_aside ..))

theorem State.restate_aside (c : Nat) (tx rx : Bool) : s.Aside (s.restate c tx rx) :=
  (s.setChan_aside ..).trans (.foldl (fun s _ => s.restateOne_aside ..) _ _)

theorem State.lookMember_aside (g : Nat) (cause : Option Nat) (c : Nat) : s.Aside (s.lookMember g cause c) := by
  have hfail (u : State) : u.Aside (u.failMember g c) := by
    refine State.Aside.foldl (fun s i => ?_) _ u
    exact .ite ((s.setChan_aside ..).trans (State.raise_aside ..)) .rfl
  unfold State.lookMember
  dsimp only
  refine .ite (s.setChan_aside ..) ?_
  refine State.Aside.trans ?_ (hfail _)
  exact .ite ((s.setChan_aside ..).trans (State.raise_aside ..)) (s.setChan_aside ..)

theorem State.groupWindow_aside (g : Nat) (cause : Option Nat) : s.Aside (s.groupWindow g cause) := by
  have hlook (u : State) (cs : List Nat) : u.Aside (cs.foldl (fun s c => s.lookMember g cause c) u) :=
    .foldl (fun s c => s.lookMember_aside g cause c) cs u
  have hgroup (u : State) (k : Group → Group) : u.Aside (u.onGroup g k) := ⟨fun _ h => h, rfl⟩
  have halign (u : State) : u.Aside (u.alignGroup g) := by
    unfold State.alignGroup
    dsimp only
    split
    · exact ⟨fun _ h => h, rfl⟩
    · exact ⟨List.subset_append_left .., rfl⟩
  unfold State.groupWindow
  extract_lets cs marked looked seen
  have hmarked : s.Aside marked := hgroup s _
  have hlooked : marked.Aside looked := .ite (hlook ..) .rfl
  have hseen : looked.Aside seen := .ite (hgroup ..) .rfl
  exact ((hmarked.trans hlooked).trans hseen).trans (.ite .rfl ((halign _).trans (hlook ..)))

theorem State.lookGroup_aside (c : Nat) (cause : Option Nat) : s.Aside (s.lookGroup c cause) := by
  unfold State.lookGroup
  split
  · exact s.groupWindow_aside ..
  · exact .rfl

theorem State.endHit_aside (c : Nat) : s.Aside (s.endHit c) := by
  unfold State.endHit
  exact .ite ((s.setChan_aside ..).trans (State.restate_aside ..)) .rfl

theorem State.cutMultiframe_aside (c : Nat) (cause : Option Nat) : s.Aside (s.cutMultiframe c cause) := by
  have hreconverged (peak : Nat) : s.Aside (s.reconverged c peak cause) := by
    unfold State.reconverged
    exact .ite .rfl ((s.raise_aside ..).trans (State.setChan_aside ..))
  unfold State.cutMultiframe
  exact .ite .rfl ((hreconverged _).trans ⟨fun _ h => h, rfl⟩)

theorem State.breakMessage_aside (c cause : Nat) (by_ : Option Nat) : s.Aside (s.breakMessage c cause by_) := by
  unfold State.breakMessage
  split
  · exact (s.setChan_aside ..).trans (State.raise_aside ..)
  · exact .rfl

theorem State.enterSearch_aside (c : Nat) (cause : Option Nat) : s.Aside (s.enterSearch c cause) := by
  unfold State.enterSearch
  dsimp only
  have hcut : s.Aside (if (s.chan c).pm.pair.isNone then s.cutMultiframe c cause else s) := .ite (s.cutMultiframe_aside ..) .rfl
  have hrestart (x : Channel) := (hcut.trans (State.breakMessage_aside _ c 3 cause)).trans (State.setChan_aside _ c x)
  exact .ite ((hrestart _).trans (State.raise_aside ..)) (hrestart _)

theorem State.inPair_aside (c j : Nat) {g : State → State} (hg : ∀ s : State, s.Aside (g s)) : s.Aside (s.inPair c j g) :=
  ((s.setChan_aside ..).trans (hg _)).trans (State.setChan_aside ..)

theorem State.searchLeaves_aside (c : Nat) (cause : Option Nat) : s.Aside (s.searchLeaves c cause) := by
  unfold State.searchLeaves
  refine .ite .rfl (State.Aside.trans (.foldl (fun s p => .ite .rfl (s.inPair_aside _ _ fun s => s.enterSearch_aside ..)) _ _)
    (State.setChan_aside ..))

theorem State.calTell_aside (c : Nat) (tx : Bool) (outcome : Nat) : s.Aside (s.calTell c tx outcome) :=
  (s.setChan_aside ..).trans (.foldl (fun s _ => s.finishId_aside ..) _ _)

theorem State.calAbandon_aside (c : Nat) (tx : Bool) (cause : Option Nat) : s.Aside (s.calAbandon c tx cause) := by
  unfold State.calAbandon State.calReject
  dsimp only
  split
  · exact .rfl
  · rw [if_pos rfl]
    refine State.Aside.trans ?_ (State.calTell_aside ..)
    exact .ite ((s.onCal_aside ..).trans (State.raise_aside ..))
      (.ite ((s.onCal_aside ..).trans (State.raise_aside ..)) (s.onCal_aside ..))

theorem State.rxEnter_aside (c : Nat) (x : RxState) : s.Aside (s.rxEnter c x) := ⟨fun _ h => h, rfl⟩

theorem State.startSearch_aside (c : Nat) : s.Aside (s.startSearch c) := ⟨fun _ h => h, rfl⟩

theorem State.setWindow_aside (c ceil : Nat) (now' : Bool) : s.Aside (s.setWindow c ceil now') := by
  unfold State.setWindow
  extract_lets u v
  have hu : s.Aside u := s.setChan_aside ..
  have hv : u.Aside v := .ite (u.startSearch_aside c) .rfl
  exact (hu.trans hv).trans (.ite (v.restate_aside ..) .rfl)

theorem State.applyWindows_aside (c : Nat) (now' : Bool) : s.Aside (s.applyWindows c now') := by
  unfold State.applyWindows
  extract_lets ws u
  have hu : s.Aside u := s.setChan_aside ..
  refine hu.trans (State.Aside.foldl (fun v w => ?_) ws u)
  exact (v.setWindow_aside c w.2 now').trans (State.finishId_aside _ w.1 0 none none none)

end Aside

/-! ### Losses (11 R267, R272) -/

/-- What a loss of acquisition sets in a receiver. -/
abbrev Channel.loss (ch : Channel) : RxState × Nat × BitVec 16 × BitVec 16 × BitVec 16 :=
  (ch.rx.state, ch.rx.lastCause, ch.rx.reacq, ch.rx.locked, ch.rx.acquired)

/-- What leaves the spine of a channel alone leaves alone what a loss sets. -/
theorem Channel.loss_of_spine {x y : Channel} (h : x.spine = y.spine) : x.loss = y.loss :=
  (congrArg (fun ch : Channel => (ch.rx.state, ch.rx.lastCause, ch.rx.reacq, ch.rx.locked, ch.rx.acquired)) h :)

section Losses

variable (s : State) (c : Nat)

theorem State.setWindow_loss (ceil : Nat) (now' : Bool) : ((s.setWindow c ceil now').chan c).loss = (s.chan c).loss := by
  unfold State.setWindow
  extract_lets u v
  have hu : (u.chan c).loss = (s.chan c).loss := by simp [u]
  have hv : (v.chan c).loss = (u.chan c).loss := by
    simp only [v]
    split
    · next hsearch => simp [State.startSearch, State.rxEnter, hsearch]
    · rfl
  rw [← hu, ← hv]
  split
  · exact Channel.loss_of_spine (congrFun (v.restate_spine c false true) c)
  · rfl

theorem State.applyWindows_loss (now' : Bool) : ((s.applyWindows c now').chan c).loss = (s.chan c).loss := by
  unfold State.applyWindows
  dsimp only
  refine (foldl_eq_of (fun u : State => (u.chan c).loss) _ _ _ fun u w => ?_).trans (by simp)
  rw [State.finishId_chan, State.setWindow_loss]

/-- A loss of acquisition: where it leaves the receiver, its event, and what it leaves alone. -/
theorem State.loseAcq_loses (cause : Nat) (by_ : Option Nat) :
    ((s.loseAcq c cause by_).chan c).loss =
      (if cause = 1 then .noSignal else .search, cause, (s.chan c).rx.reacq + 1, 0, 0) ∧
    (s.loseAcq c cause by_).convs = s.convs ∧ ∃ e ∈ (s.loseAcq c cause by_).batch, e.source = c ∧ e.code = 0x1401 := by
  unfold State.loseAcq
  extract_lets x r u v w y z
  have hu : (u.chan c).loss = (x.state, cause, x.reacq + 1, 0, 0) := by simp [u, r, Channel.leafSilent]
  have hside : u.view Channel.spine = y.view Channel.spine := by simp [y, w, v]
  have hz : (z.chan c).loss = (if cause = 1 then .noSignal else .search, cause, x.reacq + 1, 0, 0) := by
    have hy : (y.chan c).loss = (x.state, cause, x.reacq + 1, 0, 0) :=
      (Channel.loss_of_spine (congrFun hside.symm c)).trans hu
    simp only [Channel.loss, Prod.mk.injEq] at hy
    simp only [z]
    split <;> simp [State.startSearch, State.rxEnter, hy]
  have hraised : r.Aside u := r.setChan_aside ..
  have hsides : u.Aside y := ((((u.endHit_aside c).trans (State.enterSearch_aside ..)).trans (State.searchLeaves_aside ..)).trans
    (State.calAbandon_aside ..)).trans (State.lookGroup_aside ..)
  have hentered : y.Aside z := .ite (y.rxEnter_aside ..) (y.startSearch_aside ..)
  have hall : r.Aside (z.applyWindows c true) := ((hraised.trans hsides).trans hentered).trans (z.applyWindows_aside ..)
  obtain ⟨e, he, hevent⟩ := s.raise_event c 0x1401 3 (mkWord [(0, 3, cause), (4, 3, x.state.code)]) 0 by_
  exact ⟨(z.applyWindows_loss c true).trans hz, hall.convs, e, hall.batch he, hevent⟩

end Losses

/-- The next search begins; what is acquired stays as it is. -/
theorem State.nextSearch_searches (s : State) (c : Nat) :
    ((s.nextSearch c).chan c).rx.state = .search ∧ ((s.nextSearch c).chan c).rx.acquired = (s.chan c).rx.acquired := by
  unfold State.nextSearch
  extract_lets u x
  have hspine : u.view Channel.spine = s.view Channel.spine := by
    simp only [u]
    split <;> simp
  have hacquired : (u.chan c).rx.acquired = (s.chan c).rx.acquired :=
    (congrArg (fun ch : Channel => ch.rx.acquired) (congrFun hspine c) :)
  split
  · simp [State.rxEnter, hacquired]
  · next v _ _ =>
    have hv : v.chan c = u.chan c := by
      simp only [v]
      split <;> rfl
    simp [State.rxEnter, hv, hacquired]

section Back

variable {s : State} {c : Fin 32} (hon : s.boot.powered = true)

theorem execLossOfSignal_loses {codes : List (BitVec 8)} (hconv : s.converting c = true) (hfour : codes.length = 4)
    (hdark : ∀ r ∈ codes, r.toNat ≤ s.losCodeOf c) (hlit : (s.chan c).rx.state.lit = true) :
    ∃ t, exec (.lossOfSignal c codes) s = .next t ∧ (t.conv c).los = true ∧ (t.chan c).rx.state = .noSignal ∧
      (t.chan c).rx.lastCause = 1 ∧ (t.chan c).rx.reacq = (s.chan c).rx.reacq + 1 ∧
      ∃ e ∈ t.batch, e.source = c.val ∧ e.code = 0x1401 := by
  have hall : (codes.all fun r => r.toNat ≤ s.losCodeOf c) = true := by simpa using hdark
  obtain ⟨hloss, hconvs, e, he, hevent⟩ := (s.onConv c fun k => { k with los := true }).loseAcq_loses c 1 none
  simp only [Channel.loss, if_pos, Prod.mk.injEq] at hloss
  obtain ⟨hstate, hcause, hreacq, -, -⟩ := hloss
  refine ⟨_, occurs_true _ (by simp [hconv, hfour, hall, hlit]), ?_, ?_, ?_, ?_, e, ?_, hevent⟩
  all_goals rw [if_pos hlit]
  · rw [State.remark_conv, State.conv, hconvs]
    exact congrArg Converter.los (State.setConv_conv_same ..)
  · rw [State.remark_chan_rx, hstate]
  · rw [State.remark_chan_rx, hcause]
  · rw [State.remark_chan_rx, hreacq]
    rfl
  · exact State.remark_batch he

include hon

theorem execLossOfAcquisition_loses {cause : Fin 8} {v : Int} (hacq : (s.chan c).rx.state.acquiring = true)
    (hshown : lossShown cause v = true) :
    ∃ t, exec (.lossOfAcquisition c cause v) s = .next t ∧ (t.chan c).rx.state = .search ∧
      (t.chan c).rx.lastCause = cause.val ∧ (t.chan c).rx.reacq = (s.chan c).rx.reacq + 1 ∧
      (t.chan c).rx.locked = 0 ∧ (t.chan c).rx.acquired = 0 ∧ ∃ e ∈ t.batch, e.source = c.val ∧ e.code = 0x1401 := by
  have hcause : cause.val ≠ 1 := by
    intro h
    simp [lossShown, h] at hshown
  obtain ⟨hloss, -, e, he, hevent⟩ := s.loseAcq_loses c cause none
  simp only [Channel.loss, if_neg hcause, Prod.mk.injEq] at hloss
  obtain ⟨hstate, hlast, hreacq, hlocked, hacquired⟩ := hloss
  refine ⟨_, occurs_true _ (by simp [hon, hacq, hshown]), ?_, ?_, ?_, ?_, ?_, e, State.remark_batch he, hevent⟩
  all_goals rw [State.remark_chan_rx]
  · exact hstate
  · exact hlast
  · exact hreacq
  · exact hlocked
  · exact hacquired


theorem execRxStateLimitExpiry_searches (hstate : (s.chan c).rx.state = .carrier ∨ (s.chan c).rx.state = .pilotLock) :
    ∃ t, exec (.rxStateLimitExpiry c) s = .next t ∧ (t.chan c).rx.state = .search ∧ (t.chan c).rx.acquired = 0 ∧
      (s.chan c).rx.limitNs + 40000000 ≤ t.now := by
  have hlimit : (s.chan c).rx.limit = some 40000000 := by
    rcases hstate with h | h <;> simp [Receiver.limit, h]
  have hcal : ¬ ((s.at ((s.chan c).rx.limitNs + 40000000)).chan c).rx.state = .calibration := by
    rcases hstate with h | h <;> simp [h]
  let u := (s.at ((s.chan c).rx.limitNs + 40000000)).onRx c fun x => { x with locked := 0, acquired := 0 }
  obtain ⟨hsearch, hacquired⟩ := u.nextSearch_searches c
  have hnow : u.now ≤ (u.nextSearch c).now := (State.nextSearch_quiet c (.refl u)).now
  refine ⟨_, occursWith_some _ (by rw [if_pos hon, hlimit]), ?_, ?_, ?_⟩
  all_goals dsimp only
  all_goals rw [if_neg hcal]
  · rw [State.remark_chan_rx, hsearch]
  · rw [State.remark_chan_rx, hacquired]
    simp [u]
  · rw [State.remark_now]
    exact Nat.le_trans (Nat.le_max_right ..) hnow

theorem execRxStateLimitExpiry_gives (hstate : (s.chan c).rx.state = .calibration) :
    ∃ t, exec (.rxStateLimitExpiry c) s = .next t ∧ (t.chan c).rx.state = .search ∧ (t.chan c).rx.calDone = true ∧
      (s.chan c).rx.limitNs + 3000000000 ≤ t.now := by
  have hlimit : (s.chan c).rx.limit = some 3000000000 := by simp [Receiver.limit, hstate]
  let u := s.at ((s.chan c).rx.limitNs + 3000000000)
  have hcal : (u.chan c).rx.state = .calibration := hstate
  have hnow : u.now ≤ ((u.calExpired c).endRxCal c).now :=
    (State.endRxCal_quiet c (State.calExpired_quiet c (.refl u))).now
  refine ⟨_, occursWith_some _ (by rw [if_pos hon, hlimit]), ?_, ?_, ?_⟩
  all_goals dsimp only
  all_goals rw [if_pos hcal]
  · simp
  · simp
  · rw [State.remark_now]
    exact Nat.le_trans (Nat.le_max_right ..) hnow

theorem execBlindSearchRepeat_repeats {due : Nat} (hstate : (s.chan c).rx.state = .search) (hdue : (s.chan c).rx.blindDue = some due) :
    ∃ t, exec (.blindSearchRepeat c) s = .next t ∧ (t.chan c).rx.state = .search ∧ (t.chan c).rx.searches = [none] ∧
      (t.chan c).rx.blindDue = some (due + 10000000000) ∧ due ≤ t.now := by
  refine ⟨_, occursWith_some (a := due) _ (by simp [hon, hstate, hdue]), ?_, ?_, ?_, ?_⟩
  · simp
  · simp
  · simp
  · rw [State.remark_now]
    exact Nat.le_max_right ..

theorem execSubcarrierLockLost_loses {i : Fin 16} (hstate : (s.chan c).rx.state = .pilotLock ∨ (s.chan c).rx.state = .tracking)
    (hlocked : (s.chan c).rx.locked.getLsbD i = true) :
    ∃ t, exec (.subcarrierLockLost c i) s = .next t ∧ (t.chan c).rx.locked.getLsbD i = false ∧
      (t.chan c).rx.acquired.getLsbD i = false ∧ (t.chan c).rx.scLockLoss = (s.chan c).rx.scLockLoss + 1 ∧
      ∃ e ∈ t.batch, e.source = c.val ∧ e.code = 0x1403 := by
  let u := s.onRx c fun x => { x with locked := x.locked &&& ~~~(subBit i), acquired := x.acquired &&& ~~~(subBit i)
                                      lostSub := x.lostSub ||| subBit i, scLockLoss := x.scLockLoss + 1 }
  obtain ⟨e, he, hevent⟩ := u.raise_event c 0x1403 2 (mkWord [(0, 4, i), (4, 1, bitOf true)]) 0 none
  refine ⟨_, occurs_true (u.lockEvent c i true) ?_, ?_, ?_, ?_, e, State.remark_batch he, hevent⟩
  · rcases hstate with h | h <;> simpa [hon, h] using hlocked
  all_goals rw [State.remark_chan_rx, State.lockEvent_chan]
  · simp only [u, State.onRx_eq, State.setChan_chan_same]
    exact getLsbD_and_not_subBit ..
  · simp only [u, State.onRx_eq, State.setChan_chan_same]
    exact getLsbD_and_not_subBit ..
  · simp [u]

end Back

/-- Settles O46: each move of the receiver, forward and back. -/
theorem receiverMoves : Obligations.ReceiverMoves := by
  unfold Obligations.ReceiverMoves
  refine ⟨fun s c hon => ⟨fun least => execSignalPresent_moves, fun cd => execRxStateAdvance_calibrated hon,
    fun cd => execRxStateAdvance_found hon, fun cd => execRxStateAdvance_carried hon, fun cd => execRxStateAdvance_tracks hon,
    fun mask odd => execPilotLock_locks hon, fun i hstate hlocked => execSubcarrierAcquired_locks hon hstate hlocked,
    fun i => execEqDiverged_counts hon⟩, fun s c hon => ⟨fun codes => execLossOfSignal_loses,
    fun cause v => execLossOfAcquisition_loses hon, execRxStateLimitExpiry_searches hon, execRxStateLimitExpiry_gives hon,
    fun due => execBlindSearchRepeat_repeats hon, fun i => execSubcarrierLockLost_loses hon⟩⟩

end Sys2Proof.Machine
end

section
/-! Bringing a channel up (11 R253 to R256): the limit of a step. -/

namespace Sys2Proof.Machine

/-- A channel in step 1 of a bring-up whose frames go on. -/
def framesInStep1 : State := { boot := { powered := true }, channels := [(0, { bu := { step := 1 }, tf := { sending := true } })] }

/-- Refutes O44: a step's limit that expires stops the channel and closes its output, and leaves whether frames are sent as it is; that
they are stopped is the work of the bring-up's start. -/
theorem not_bringupComplete : ¬ Obligations.BringupComplete := by
  unfold Obligations.BringupComplete
  intro h
  obtain ⟨t, ht, -, -, -, hsending, -⟩ := (h.2 framesInStep1 0 0).2.2 (by decide) (by decide) (by decide) (by decide) (by decide)
  obtain rfl := Host.Outcome.next.inj ht
  exact absurd hsending (by decide)

end Sys2Proof.Machine
end

section
/-! Power: level changes, sleep, wakes and the channel reset (18 R405 to R415; 19 R418). -/

namespace Sys2Proof.Machine

/-! ### Where the frames of a channel stop (18 R409) -/

/-- Power, and how far bring-up has come. -/
abbrev Channel.power (ch : Channel) : Power × Nat × Bool := (ch.pw, ch.bu.step, ch.bu.stopped)

/-- Two states whose channels agree in their spines. -/
theorem State.spine_at {s t : State} (h : t.view Channel.spine = s.view Channel.spine) (c : Nat) : (t.chan c).spine = (s.chan c).spine :=
  congrFun h c

theorem Channel.power_of_spine {x y : Channel} (h : x.spine = y.spine) : x.power = y.power :=
  (congrArg (fun ch : Channel => (ch.pw, ch.bu.step, ch.bu.stopped)) h :)

theorem Channel.pw_of_power {x y : Channel} (h : x.power = y.power) : x.pw = y.pw := (congrArg Prod.fst h :)

theorem Channel.pw_of_spine {x y : Channel} (h : x.spine = y.spine) : x.pw = y.pw := (congrArg Channel.pw h :)

/-- Frames, laser and receiver have stopped, and the shutter is closed. -/
structure Channel.Stopped (ch : Channel) : Prop where
  sending : ch.tf.sending = false
  laserOn : ch.opt.laserOn = false
  shutter : ch.opt.shutter = true
  receiver : ch.rx.state = .notUp

theorem Channel.Stopped.of_spine {x y : Channel} (h : x.spine = y.spine) (hy : y.Stopped) : x.Stopped where
  sending := (congrArg (fun ch : Channel => ch.tf.sending) h :).trans hy.sending
  laserOn := (congrArg (fun ch : Channel => ch.opt.laserOn) h :).trans hy.laserOn
  shutter := (congrArg (fun ch : Channel => ch.opt.shutter) h :).trans hy.shutter
  receiver := (congrArg (fun ch : Channel => ch.rx.state) h :).trans hy.receiver

theorem Channel.stopWork_power (ch : Channel) (held : Rat) (now : Nat) : (ch.stopWork held now).power = ch.power := rfl

theorem Channel.stopWork_stopped (ch : Channel) (held : Rat) (now : Nat) : (ch.stopWork held now).Stopped := ⟨rfl, rfl, rfl, rfl⟩

section Stop

variable (s : State) (c keep : Nat)

/-- What stops the frames of a channel leaves of it what its own work is, and leaves the others. -/
theorem State.stopFrames_spine : ∃ (u : State) (held : Rat) (now : Nat), u.view Channel.spine = s.view Channel.spine ∧
    (s.stopFrames c keep).view Channel.spine = (u.setChan c ((u.chan c).stopWork held now)).view Channel.spine := by
  unfold State.stopFrames
  extract_lets u is v w x
  have hu : u.view Channel.spine = s.view Channel.spine := by simp [u]
  have hv : v.view Channel.spine = (u.setChan c ((u.chan c).stopWork (u.heldMean c .notUp) u.now)).view Channel.spine :=
    State.view_draw _
  have hw : w.view Channel.spine = v.view Channel.spine := State.view_foldl (fun s i => s.onTrib_spine i _) is v
  have hx : x.view Channel.spine = w.view Channel.spine := by simp [x]
  refine ⟨u, u.heldMean c .notUp, u.now, hu, ?_⟩
  rw [State.lookGroup_spine, State.cut_spine, hx, hw, hv]

theorem State.stopFrames_power (d : Nat) : ((s.stopFrames c keep).chan d).power = (s.chan d).power := by
  obtain ⟨u, held, now, hu, ht⟩ := s.stopFrames_spine c keep
  have hpower : (u.setChan c ((u.chan c).stopWork held now)).view Channel.power = u.view Channel.power :=
    State.view_setChan (Channel.stopWork_power ..)
  exact (Channel.power_of_spine (State.spine_at ht d)).trans
    ((congrFun hpower d).trans (Channel.power_of_spine (State.spine_at hu d)))

theorem State.stopFrames_pw (d : Nat) : ((s.stopFrames c keep).chan d).pw = (s.chan d).pw :=
  Channel.pw_of_power (s.stopFrames_power c keep d)

theorem State.stopFrames_stops : ((s.stopFrames c keep).chan c).Stopped := by
  obtain ⟨u, held, now, -, ht⟩ := s.stopFrames_spine c keep
  refine .of_spine (State.spine_at ht c) ?_
  rw [State.setChan_chan_same]
  exact Channel.stopWork_stopped ..

end Stop

/-! ### The commands (18 R405, R408, R410, R415; 19 R419) -/

section Commands

variable {s : State} {id c : Nat} {f : Flight} (hc : f.desc.target = c)

/-- An entry that begins: the channel's power, whether or not its frames have yet to stop. -/
theorem State.beginSleep_pw (s : State) (f : Flight) (t : Transit) (w : Wakes) (timer : Option Nat) :
    ((s.beginSleep f t w timer).chan f.desc.target).pw = { (s.chan f.desc.target).pw with
      transit := t, turnFrom := s.nextId
      resume := if (s.chan f.desc.target).pw.level.carries then (s.chan f.desc.target).pw.level else (s.chan f.desc.target).pw.resume
      armed := w, latched := {}, firstLatched := 0, wakeLos := s.losCodeOf f.desc.target, timerDue := timer, cmd := some f.id } := by
  unfold State.beginSleep
  extract_lets c' u
  split
  · simp only [u, c', State.run_chan, State.onPw_eq, State.setChan_chan_same]
    rfl
  · rw [State.stopFrames_pw]
    simp only [u, c', State.run_chan, State.onPw_eq, State.setChan_chan_same]
    rfl

theorem Level.ofCode_ne_slack {n : Nat} (h : n ≠ 3) : Level.ofCode n ≠ .slack := by
  unfold Level.ofCode
  split <;> simp_all

theorem State.beginLevel_pw (s : State) (c : Nat) (l : Level) (id : Nat) : ((s.beginLevel c l id).chan c).pw = { (s.chan c).pw with
    transit := if l.volts < (s.chan c).pw.level.volts then .clockDown else .voltageUp, target := l, settling := false
    rampBack := false, cmd := some id
    stepDue := if l.volts < (s.chan c).pw.level.volts then (((s.calAbandon c false).calAbandon c true).calResume c false).now
      else (((s.calAbandon c false).calAbandon c true).calResume c false).now + 1000 * (l.volts - (s.chan c).pw.level.volts) } := by
  have hpw : ((((s.calAbandon c false).calAbandon c true).calResume c false).chan c).pw = (s.chan c).pw :=
    Channel.pw_of_spine (State.spine_at (by simp) c)
  unfold State.beginLevel
  simp only [State.onPw_eq, State.setChan_chan_same, hpw]

include hc

theorem execPwrLevel_begins {n : Nat} (h : s.Started id 0x1900 f) (hn : n = f.desc.p0.bits 1 0) (hcode : n ≠ 3)
    (hup : (s.chan c).bu.step = 4) (hidle : (s.chan c).pw.transit = .none) (hfits : (s.chan c).levelFits (Level.ofCode n) = true) :
    ((s.chan c).pw.level = .slack →
      s.Does (.pwrLevel id) ((s.onPw c fun x => { x with resume := Level.ofCode n }).finish f 0)) ∧
    ((s.chan c).pw.level = Level.ofCode n → s.Does (.pwrLevel id) (s.finish f 0)) ∧
    ((s.chan c).pw.level ≠ .slack → (s.chan c).pw.level ≠ Level.ofCode n →
      ∃ t, exec (.pwrLevel id) s = .next t ∧ (t.chan c).pw.target = Level.ofCode n ∧ (t.chan c).pw.cmd = some f.id ∧
        (t.chan c).pw.level = (s.chan c).pw.level ∧
        (t.chan c).pw.transit = if (Level.ofCode n).volts < (s.chan c).pw.level.volts then .clockDown else .voltageUp) := by
  subst hc hn
  have hrow : exec (.pwrLevel id) s = _ := withCmd_started h _
  dsimp only at hrow
  rw [if_neg hcode, if_neg (by simp [hup, hidle]), if_neg (by simp [hfits])] at hrow
  refine ⟨fun hslack => ?_, fun hsame => ?_, fun hslack hother => ?_⟩
  · rw [State.Does, hrow, if_pos hslack]
  · rw [State.Does, hrow, if_neg (hsame ▸ Level.ofCode_ne_slack hcode), if_pos hsame]
  · rw [if_neg hslack, if_neg hother] at hrow
    refine ⟨_, hrow, ?_⟩
    rw [State.remark_chan_pw, State.run_chan, State.beginLevel_pw]
    exact ⟨rfl, rfl, rfl, rfl⟩

theorem execPwrSleepSlack_begins (h : s.Started id 0x1901 f) (hact : f.desc.p0.bits 1 0 = 0) (hawake : (s.chan c).awake = true)
    (htimer : f.desc.p0.bit 3 = true → f.desc.p1.bits 23 0 ≠ 0) (hfree : s.sleepStatus c = 0) :
    ∃ t, exec (.pwrSleepSlack id) s = .next t ∧ (t.chan c).pw.transit = .enteringSlack ∧
      (t.chan c).pw.armed = { command := true, light := f.desc.p0.bit 2, timer := f.desc.p0.bit 3 } ∧
      (t.chan c).pw.timerDue = (if f.desc.p0.bit 3 then some (s.now + f.desc.p1.bits 23 0 * 1000000000) else none) ∧
      (t.chan c).pw.cmd = some f.id := by
  subst hc
  refine ⟨_, withCmdIf_started (p := fun d => d.action = 0 || d.action = 3) h (by simp [Desc.action, hact]) _, ?_⟩
  dsimp only
  rw [if_neg (by simpa [Desc.action, hact, hawake] using htimer), if_neg (by simp [hfree]), State.remark_chan_pw, State.beginSleep_pw]
  exact ⟨rfl, rfl, rfl, rfl⟩

theorem execPwrSleepDark_begins (h : s.Started id 0x1901 f) (hact : f.desc.p0.bits 1 0 = 1) (hwakes : f.desc.p0.bits 3 2 = 0)
    (hup : (s.chan c).bu.step ≠ 0) (hfree : s.sleepStatus c = 0) :
    ∃ t, exec (.pwrSleepDark id) s = .next t ∧ (t.chan c).pw.transit = .enteringDark ∧ (t.chan c).pw.cmd = some f.id := by
  subst hc
  refine ⟨_, withCmdIf_started (p := fun d => d.action = 1) h (by simp [Desc.action, hact]) _, ?_⟩
  dsimp only
  rw [if_neg (by simp [hwakes, hup]), if_neg (by simp [hfree]), State.remark_chan_pw, State.beginSleep_pw]
  exact ⟨rfl, rfl⟩

theorem execPwrSleepExit_begins (h : s.Started id 0x1901 f) (hact : f.desc.p0.bits 1 0 = 2)
    (hnew : (s.chan c).pw.exitSeen.contains f.id = false) (hidle : (s.chan c).pw.transit = .none) (hslack : (s.chan c).pw.level = .slack) :
    ∃ t, exec (.pwrSleepExit id) s = .next t ∧ (t.chan c).pw.transit = .leavingSlack ∧ (t.chan c).pw.lastWake = 1 ∧
      (t.chan c).pw.armed = {} ∧ (t.chan c).pw.exitCmds = [f.id] := by
  subst hc
  refine ⟨_, withCmdIf_started (p := fun d => d.action = 2) h (by simp [Desc.action, hact]) _, ?_⟩
  dsimp only
  rw [if_neg (by simpa using hnew), if_neg (by simp [hidle]), if_pos hslack, State.remark_chan_pw]
  simp [State.beginExit]

theorem execPwrStatus_answers (vcore power : Nat) (h : s.Started id 0x1902 f) : ∃ ws, ws.length = 4 ∧ ws.head? =
    some (mkWord [(0, 3, (s.chan c).pw.level.code), (3, 2, (s.chan c).pw.resume.code), (5, 3, (s.chan c).pw.transit.code),
      (8, 3, (s.chan c).pw.armed.code), (11, 3, (s.chan c).pw.latched.code), (14, 2, (s.chan c).pw.lastWake),
      (16, 16, vcore), (32, 32, power)]) ∧ s.Does (.pwrStatus id vcore power) (s.answer f ws) := by
  subst hc
  refine ⟨_, ?_, ?_, withCmd_started h _⟩
  · rfl
  · rfl

omit hc in
theorem execPwrModule_answers (input common : Nat) (h : s.Started id 0x1910 f) : ∃ ws, ws.length = 4 ∧
    ws.head? = some (mkWord [(0, 32, input), (32, 32, common)]) ∧ s.Does (.pwrModule id input common) (s.answer f ws) := by
  refine ⟨_, ?_, ?_, withCmd_started h _⟩
  · rfl
  · rfl

theorem execChanReset_begins (h : s.Started id 0x1410 f) (hup : (s.chan c).bu.step ≠ 0)
    (hreleased : ∀ l ∈ (s.chan c).locals, ((s.chan c).trib l).state = .carrying → ((s.chan c).trib l).released = true)
    (hdue : s.dueBy f (s.now + 20000000) = true) :
    ∃ t, exec (.chanReset id) s = .next t ∧ (t.chan c).pw.transit = .enteringDark ∧ (t.chan c).pw.resetCmd = some f.id ∧
      (t.chan c).tf.sending = false ∧ (t.chan c).opt.laserOn = false ∧ (t.chan c).opt.shutter = true ∧
      (t.chan c).rx.state = .notUp := by
  subst hc
  have hcarries : ((s.chan f.desc.target).locals.any fun l => ((s.chan f.desc.target).trib l).state = .carrying &&
      !((s.chan f.desc.target).trib l).released) = false := by
    simpa using hreleased
  have hstop := (s.run f).stopFrames_stops f.desc.target f.id
  refine ⟨_, withCmd_started h _, ?_⟩
  dsimp only
  rw [if_neg hup, if_neg (by simp [hcarries]), if_neg (by simp [hdue]), State.remark_chan_pw, State.remark_chan_tf, State.remark_chan_opt,
    State.remark_chan_rx, State.beginReset]
  generalize (s.run f).stopFrames f.desc.target f.id = u at hstop ⊢
  simp [hstop.sending, hstop.laserOn, hstop.shutter, hstop.receiver]

end Commands

/-! ### The steps of a level change (18 R406, R407) -/

section Levels

variable {s : State} {c : Fin 32} (hon : s.boot.powered = true)

/-- The present step of a change is done, and where it leads. -/
theorem execLevelStep_steps {t : State} (hon : s.boot.powered = true) (h : s.levelStep c = some t) :
    exec (.levelStep c) s = .next t.remark :=
  occursWith_some _ (by rw [if_pos hon, h])

/-- The end of a change that names its level. -/
theorem State.levelDone_ends (s : State) (c : Nat) :
    ((s.levelDone c).chan c).pw = { (s.chan c).pw with
      level := (s.chan c).pw.target, transit := .none, settling := false, cmd := none
      levelChanges := (s.chan c).pw.levelChanges + 1 } ∧
      (∃ e ∈ (s.levelDone c).batch, e.source = c ∧ e.code = 0x1920) ∧
      ∀ id, (s.chan c).pw.cmd = some id → (s.levelDone c).flight? id = none := by
  unfold State.levelDone
  extract_lets x u
  refine ⟨by simp [u, x], ?_, fun id hid => ?_⟩
  · rw [State.finishOpt_batch]
    exact u.raise_event ..
  · have hcmd : x.cmd = some id := hid
    rw [hcmd]
    exact State.finishId_flight? ..

theorem State.levelFailed_ends (s : State) (c : Nat) :
    ((s.levelFailed c).chan c).pw.level = (s.chan c).pw.level ∧ ((s.levelFailed c).chan c).pw.transit = .none ∧
      (∃ e ∈ (s.levelFailed c).batch, e.source = c ∧ e.code = 0x1923) ∧
      ∀ id, (s.chan c).pw.cmd = some id → (s.levelFailed c).flight? id = none := by
  unfold State.levelFailed
  extract_lets x u
  refine ⟨by simp [u], by simp [u], ?_, fun id hid => ?_⟩
  · rw [State.finishOpt_batch]
    exact u.raise_event ..
  · have hcmd : x.cmd = some id := hid
    rw [hcmd]
    exact State.finishId_flight? ..

theorem State.railCheck_pw (s : State) (c mv : Nat) : ((s.railCheck c mv).chan c).pw =
    if (decide (mv ≤ (s.chan c).pw.target.volts + 10) && decide ((s.chan c).pw.target.volts ≤ mv + 10)) = true then
      { (s.chan c).pw with transit := .clockUp, settling := false, vcore := mv, stepDue := max s.now (s.chan c).pw.stepDue }
    else if (s.chan c).pw.rampEnd + 1000000 ≤ max s.now (s.chan c).pw.stepDue then
      { (s.chan c).pw with
        transit := .voltageDown, settling := false, rampBack := true, vcore := mv
        stepDue := max s.now (s.chan c).pw.stepDue + 1000 * ((s.chan c).pw.target.volts - (s.chan c).pw.level.volts) }
    else { (s.chan c).pw with
      vcore := mv, stepDue := min (max s.now (s.chan c).pw.stepDue + 100000) ((s.chan c).pw.rampEnd + 1000000) } := by
  unfold State.railCheck
  simp only [State.onPw_eq, State.setChan_chan_same]
  rfl

include hon

theorem execLevelStep_slows (hstep : (s.chan c).pw.transit = .clockDown) : ∃ t, exec (.levelStep c) s = .next t ∧
    (t.chan c).pw.transit = .voltageDown ∧ (t.chan c).pw.level = (s.chan c).pw.level ∧ (s.chan c).pw.stepDue ≤ t.now := by
  refine ⟨_, execLevelStep_steps hon (by simp only [State.levelStep, hstep]; rfl), ?_, ?_, ?_⟩
  · simp
  · simp
  · rw [State.remark_now]
    exact Nat.le_max_right ..

theorem execLevelStep_settles (hstep : (s.chan c).pw.transit = .voltageDown ∨ (s.chan c).pw.transit = .voltageUp)
    (hramp : (s.chan c).pw.settling = false) : ∃ t, exec (.levelStep c) s = .next t ∧ (t.chan c).pw.transit = (s.chan c).pw.transit ∧
      (t.chan c).pw.settling = true ∧ (t.chan c).pw.stepDue = t.now + 50000 := by
  rcases hstep with hstep | hstep
  · refine ⟨_, execLevelStep_steps hon (by simp only [State.levelStep, hstep, hramp]; rfl), ?_⟩
    simp [hstep]
  · refine ⟨_, execLevelStep_steps hon (by simp only [State.levelStep, hstep, hramp]; rfl), ?_⟩
    simp [hstep]

theorem execLevelStep_ends (hstep : (s.chan c).pw.transit = .clockUp ∨
      ((s.chan c).pw.transit = .voltageDown ∧ (s.chan c).pw.settling = true ∧ (s.chan c).pw.rampBack = false)) :
    ∃ t, exec (.levelStep c) s = .next t ∧ (t.chan c).pw.level = (s.chan c).pw.target ∧ (t.chan c).pw.transit = .none ∧
      (t.chan c).pw.levelChanges = (s.chan c).pw.levelChanges + 1 ∧
      (∃ e ∈ t.batch, e.source = c.val ∧ e.code = 0x1920) ∧ ∀ id, (s.chan c).pw.cmd = some id → t.flight? id = none := by
  have hdone : s.levelStep c = some ((s.at (s.chan c).pw.stepDue).levelDone c) := by
    rcases hstep with hstep | ⟨hstep, hsettle, hback⟩
    · simp only [State.levelStep, hstep]
    · simp only [State.levelStep, hstep, hsettle, hback, Bool.false_eq_true, if_false]
  obtain ⟨hpw, ⟨e, he, hevent⟩, hgone⟩ := (s.at (s.chan c).pw.stepDue).levelDone_ends c
  refine ⟨_, execLevelStep_steps hon hdone, ?_, ?_, ?_, ⟨e, State.remark_batch he, hevent⟩, fun id hid => ?_⟩
  · rw [State.remark_chan_pw, hpw]
    rfl
  · rw [State.remark_chan_pw, hpw]
  · rw [State.remark_chan_pw, hpw]
    rfl
  · rw [State.remark_flight?]
    exact hgone id hid

theorem execLevelStep_fails (hstep : (s.chan c).pw.transit = .voltageDown) (hsettle : (s.chan c).pw.settling = true)
    (hback : (s.chan c).pw.rampBack = true) :
    ∃ t, exec (.levelStep c) s = .next t ∧ (t.chan c).pw.level = (s.chan c).pw.level ∧ (t.chan c).pw.transit = .none ∧
      (∃ e ∈ t.batch, e.source = c.val ∧ e.code = 0x1923) ∧ ∀ id, (s.chan c).pw.cmd = some id → t.flight? id = none := by
  have hfail : s.levelStep c = some ((s.at (s.chan c).pw.stepDue).levelFailed c) := by
    simp only [State.levelStep, hstep, hsettle, hback, if_true]
  obtain ⟨hlevel, htransit, ⟨e, he, hevent⟩, hgone⟩ := (s.at (s.chan c).pw.stepDue).levelFailed_ends c
  refine ⟨_, execLevelStep_steps hon hfail, ?_, ?_, ⟨e, State.remark_batch he, hevent⟩, fun id hid => ?_⟩
  · rw [State.remark_chan_pw, hlevel]
    rfl
  · rw [State.remark_chan_pw, htransit]
  · rw [State.remark_flight?]
    exact hgone id hid

theorem execRailCheck_reads (mv : BitVec 16) (hstep : (s.chan c).pw.transit = .voltageUp) (hsettle : (s.chan c).pw.settling = true) :
    ∃ t, exec (.railCheck c mv) s = .next t ∧ (t.chan c).pw.vcore = mv.toNat ∧ (t.chan c).pw.level = (s.chan c).pw.level ∧
      (mv.toNat ≤ (s.chan c).pw.target.volts + 10 → (s.chan c).pw.target.volts ≤ mv.toNat + 10 →
        (t.chan c).pw.transit = .clockUp) ∧
      (¬ (mv.toNat ≤ (s.chan c).pw.target.volts + 10 ∧ (s.chan c).pw.target.volts ≤ mv.toNat + 10) →
        (t.chan c).pw.transit =
          if (s.chan c).pw.rampEnd + 1000000 ≤ max s.now (s.chan c).pw.stepDue then .voltageDown else .voltageUp) := by
  refine ⟨_, occurs_true _ (by simp [hon, hstep, hsettle]), ?_⟩
  rw [State.remark_chan_pw, State.railCheck_pw]
  by_cases hgood : mv.toNat ≤ (s.chan c).pw.target.volts + 10 ∧ (s.chan c).pw.target.volts ≤ mv.toNat + 10
  · rw [if_pos (by simpa using hgood)]
    exact ⟨rfl, rfl, fun _ _ => rfl, fun hbad => absurd hgood hbad⟩
  · rw [if_neg (by simpa using hgood)]
    refine ⟨?_, ?_, fun hlo hhi => absurd ⟨hlo, hhi⟩ hgood, fun _ => ?_⟩
    all_goals split
    · rfl
    · rfl
    · rfl
    · rfl
    · rfl
    · exact hstep

end Levels

/-! ### Entry, wakes, exit and reset (18 R408 to R412; 19 R418) -/

/-- A wake that starts the exit. -/
theorem State.beginExit_pw (s : State) (c cause : Nat) (latched : Bool) : ((s.beginExit c cause latched).chan c).pw = { (s.chan c).pw with
    transit := .leavingSlack, turnFrom := s.nextId, lastWake := cause, wakeLatched := latched, armed := {}, timerDue := none } := by
  simp [State.beginExit]

theorem State.lanesSleep_pw (s : State) (c : Nat) : ((s.lanesSleep c).chan c).pw = (s.chan c).pw := by
  simp [State.lanesSleep]

/-- A channel that goes Dark holds no key. -/
theorem Channel.dark_cipher (ch : Channel) (now l : Nat) : ((ch.dark now).cipher l).current = none := by
  unfold Channel.cipher Channel.dark Channel.eraseKeys
  have hdark := Sparse.get_map {} (ch.cx.map fun p => (p.1, ({ p.2 with current := none, next := none, retiring := [] } : Cipher)))
    (fun x : Cipher => { x with curFrames := 0, warned := false, farNs := none, conflict := false, rxParityRun := 0, failRun := 0 }) l
  have hkeys := Sparse.get_map {} ch.cx (fun x : Cipher => { x with current := none, next := none, retiring := [] }) l
  exact (congrArg Cipher.current hdark).trans (congrArg Cipher.current hkeys)

/-- A channel that goes Dark has its power gated and holds no key. -/
theorem State.goDark_dark (s : State) (c : Nat) : ((s.goDark c).chan c).pw.level = .dark ∧ ((s.goDark c).chan c).bu.step = 0 ∧
    ((s.goDark c).chan c).pw.resetCmd = none ∧ ∀ l, (((s.goDark c).chan c).cipher l).current = none := by
  unfold State.goDark State.disarm
  simp only [State.onConv_eq, State.setConv_chan, State.onSl_eq, State.onChan_eq, State.setChan_chan_same]
  exact ⟨rfl, rfl, rfl, fun l => Channel.dark_cipher ((s.lanesSleep c).chan c) s.now l⟩

section Sleep

variable {s : State} {c : Fin 32} (hon : s.boot.powered = true)

/-- The end of a Slack entry, before a latched wake is replayed. -/
theorem State.sleepDone_slack {s : State} {c : Nat} (hentry : (s.chan c).pw.transit = .enteringSlack) :
    ((s.sleepDone c).chan c).pw.level = .slack ∧ ((s.sleepDone c).chan c).pw.slackEntries = (s.chan c).pw.slackEntries + 1 ∧
      ((s.sleepDone c).chan c).pw.transit = (if (s.chan c).pw.firstLatched = 0 then .none else .leavingSlack) ∧
      (∃ e ∈ (s.sleepDone c).batch, e.source = c ∧ e.code = 0x1921) ∧
      ∀ id, (s.chan c).pw.cmd = some id → (s.sleepDone c).flight? id = none := by
  let u := (s.lanesSleep c).onPw c fun x => { x with level := .slack, transit := .none, cmd := none, slackEntries := x.slackEntries + 1 }
  let v := (u.raise c 0x1921 1 0).finishOpt (s.chan c).pw.cmd 0
  have hv : (v.chan c).pw = { (s.chan c).pw with
      level := .slack, transit := .none, cmd := none, slackEntries := (s.chan c).pw.slackEntries + 1 } := by
    simp only [v, u, State.finishOpt_chan, State.raise_chan, State.onPw_eq, State.setChan_chan_same, State.lanesSleep_pw]
  have hraised : ∃ e ∈ v.batch, e.source = c ∧ e.code = 0x1921 := by
    simp only [v, State.finishOpt_batch]
    exact u.raise_event ..
  have hgone : ∀ id, (s.chan c).pw.cmd = some id → v.flight? id = none := by
    intro id hid
    simp only [v, hid]
    exact State.finishId_flight? ..
  have hdone : s.sleepDone c = if (s.chan c).pw.firstLatched ≠ 0 then v.beginExit c (s.chan c).pw.firstLatched true else v := by
    unfold State.sleepDone
    rw [if_pos hentry]
  rw [hdone]
  split
  · rw [State.beginExit_pw, hv]
    exact ⟨rfl, rfl, rfl, hraised, hgone⟩
  · next hnone =>
    rw [hv, if_pos (by simpa using hnone)]
    exact ⟨rfl, rfl, rfl, hraised, hgone⟩

@[simp] theorem State.bankSettle_spine (s : State) (c : Nat) : (s.bankSettle c).view Channel.spine = s.view Channel.spine := by
  unfold State.bankSettle
  extract_lets u
  have hu : u.view Channel.spine = s.view Channel.spine := State.view_foldl (fun s l => s.onTrib_spine _ _) _ s
  simp [hu]

/-- What a Slack exit has brought back: the level, the frames and the receiver. -/
structure Channel.Back (x ch : Channel) : Prop where
  level : ch.pw.level = x.pw.resume
  transit : ch.pw.transit = .none
  sending : ch.tf.sending = true
  frame : ch.tf.frame = 0
  mfc : ch.tf.mfc = x.tf.mfc
  receiver : ch.rx.state = .noSignal

theorem Channel.Back.of_spine {x y z : Channel} (h : z.spine = y.spine) (hy : x.Back y) : x.Back z where
  level := (congrArg (fun ch : Channel => ch.pw.level) h :).trans hy.level
  transit := (congrArg (fun ch : Channel => ch.pw.transit) h :).trans hy.transit
  sending := (congrArg (fun ch : Channel => ch.tf.sending) h :).trans hy.sending
  frame := (congrArg (fun ch : Channel => ch.tf.frame) h :).trans hy.frame
  mfc := (congrArg (fun ch : Channel => ch.tf.mfc) h :).trans hy.mfc
  receiver := (congrArg (fun ch : Channel => ch.rx.state) h :).trans hy.receiver

/-- Whether an output opens leaves alone what an exit brings back. -/
theorem Channel.Back.opened {x y : Channel} (hy : x.Back y) (o : Optics) : x.Back { y with opt := o } :=
  ⟨hy.level, hy.transit, hy.sending, hy.frame, hy.mfc, hy.receiver⟩

theorem State.openOutput_batch (s : State) (c : Nat) : s.batch ⊆ (s.openOutput c).batch := by
  unfold State.openOutput
  dsimp only
  split
  · exact List.subset_append_left ..
  · exact List.Subset.refl _

/-- The end of a Slack exit. -/
theorem State.exitDone_back (s : State) (c : Nat) : (s.chan c).Back ((s.exitDone c).chan c) ∧
    (∃ e ∈ (s.exitDone c).batch, e.source = c ∧ e.code = 0x1922) ∧ ∀ id ∈ (s.chan c).pw.exitCmds, (s.exitDone c).flight? id = none := by
  unfold State.exitDone
  extract_lets x seen u v w
  have hu : (s.chan c).Back (u.chan c) := by
    simp only [u, State.onChan_eq, State.setChan_chan_same]
    exact ⟨rfl, rfl, rfl, rfl, rfl, rfl⟩
  have hw : w.view Channel.spine = u.view Channel.spine := by simp [w, v]
  obtain ⟨o, ho⟩ := w.openOutput_chan c
  have hraised : ∃ e ∈ w.batch, e.source = c ∧ e.code = 0x1922 := State.raise_event ..
  obtain ⟨e, he, hevent⟩ := hraised
  refine ⟨?_, ⟨e, ?_, hevent⟩, fun id hid => State.finishAll_flight? _ hid 0⟩
  · rw [State.finishAll_chan, ho]
    exact (Channel.Back.of_spine (State.spine_at hw c) hu).opened o
  · rw [State.finishAll_batch]
    exact w.openOutput_batch c he

include hon

theorem execSlackExitEnd_brings (hexit : (s.chan c).pw.transit = .leavingSlack) (hkeeper : (s.chan c).keeperDown = false)
    (hlanes : ∀ p ∈ (s.chan c).kp.lanes, p.2.want = none) :
    ∃ t, exec (.slackExitEnd c) s = .next t ∧ (t.chan c).pw.level = (s.chan c).pw.resume ∧ (t.chan c).pw.transit = .none ∧
      (t.chan c).tf.sending = true ∧ (t.chan c).tf.frame = 0 ∧ (t.chan c).tf.mfc = (s.chan c).tf.mfc ∧
      (t.chan c).rx.state = .noSignal ∧ (∃ e ∈ t.batch, e.source = c.val ∧ e.code = 0x1922) ∧
      ∀ id ∈ (s.chan c).pw.exitCmds, t.flight? id = none := by
  have hall : ((s.chan c).kp.lanes.all fun p => p.2.want.isNone) = true := by simpa using hlanes
  obtain ⟨hback, ⟨e, he, hevent⟩, hgone⟩ := s.exitDone_back c
  refine ⟨_, occurs_true _ (by simp [hon, hexit, hkeeper, hall]), ?_⟩
  rw [State.remark_chan_pw, State.remark_chan_tf, State.remark_chan_rx]
  refine ⟨hback.level, hback.transit, hback.sending, hback.frame, hback.mfc, hback.receiver, ⟨e, State.remark_batch he, hevent⟩,
    fun id hid => ?_⟩
  rw [State.remark_flight?, hgone id hid]

theorem execSleepEntryEnd_slack (hentry : (s.chan c).pw.transit = .enteringSlack) (hreset : (s.chan c).pw.resetCmd = none)
    (hstopped : (s.chan c).tf.sending = false) :
    ∃ t, exec (.sleepEntryEnd c) s = .next t ∧ (t.chan c).pw.level = .slack ∧
      (t.chan c).pw.slackEntries = (s.chan c).pw.slackEntries + 1 ∧
      (t.chan c).pw.transit = (if (s.chan c).pw.firstLatched = 0 then .none else .leavingSlack) ∧
      (∃ e ∈ t.batch, e.source = c.val ∧ e.code = 0x1921) ∧ ∀ id, (s.chan c).pw.cmd = some id → t.flight? id = none := by
  obtain ⟨hlevel, hentries, htransit, ⟨e, he, hevent⟩, hgone⟩ := State.sleepDone_slack hentry
  refine ⟨_, occurs_true _ (by simp [hon, hentry, hreset, hstopped]), ?_, ?_, ?_, ⟨e, State.remark_batch he, hevent⟩, fun id hid => ?_⟩
  · rw [State.remark_chan_pw, hlevel]
  · rw [State.remark_chan_pw, hentries]
  · rw [State.remark_chan_pw, htransit]
  · rw [State.remark_flight?, hgone id hid]

theorem execSleepEntryEnd_dark (hentry : (s.chan c).pw.transit = .enteringDark) (hreset : (s.chan c).pw.resetCmd = none)
    (hstopped : (s.chan c).tf.sending = false) :
    ∃ t, exec (.sleepEntryEnd c) s = .next t ∧ (t.chan c).pw.level = .dark ∧ (t.chan c).bu.step = 0 ∧
      (∀ l, ((t.chan c).cipher l).current = none) ∧ (∃ e ∈ t.batch, e.source = c.val ∧ e.code = 0x1921) := by
  obtain ⟨hlevel, hstep, -, hkeys⟩ := s.goDark_dark c
  obtain ⟨e, he, hevent⟩ := (s.goDark c).raise_event c 0x1921 1 1 0 none
  have hdone : s.sleepDone c = ((s.goDark c).raise c 0x1921 1 1).finishOpt (s.chan c).pw.cmd 0 := by
    unfold State.sleepDone
    rw [if_neg (by simp [hentry])]
  refine ⟨_, occurs_true _ (by simp [hon, hentry, hreset, hstopped]), ?_⟩
  rw [hdone]
  refine ⟨?_, ?_, fun l => ?_, e, State.remark_batch (by rwa [State.finishOpt_batch]), hevent⟩
  · rw [State.remark_chan_pw, State.finishOpt_chan, State.raise_chan, hlevel]
  · rw [State.remark_chan_bu, State.finishOpt_chan, State.raise_chan, hstep]
  · rw [Channel.cipher, State.remark_chan_cx, State.finishOpt_chan, State.raise_chan]
    exact hkeys l

theorem execWakeTimer_exits {due : Nat} (hlevel : (s.chan c).pw.level = .slack) (hidle : (s.chan c).pw.transit = .none)
    (harmed : (s.chan c).pw.armed.timer = true) (hnew : (s.chan c).pw.latched.timer = false)
    (hdue : (s.chan c).pw.timerDue = some due) :
    ∃ t, exec (.wakeTimer c) s = .next t ∧ (t.chan c).pw.transit = .leavingSlack ∧ (t.chan c).pw.lastWake = 3 ∧
      (t.chan c).pw.armed = {} ∧ due ≤ t.now := by
  have hidle' : ¬ ((s.at due).chan c).pw.transit = .enteringSlack := by simp [hidle]
  refine ⟨_, occursWith_some (a := due) _ (by simp [hon, Power.wakeable, hlevel, hidle, harmed, hnew, hdue]), ?_⟩
  rw [State.remark_chan_pw, State.remark_now, State.hwWake, if_neg hidle', State.beginExit_pw]
  exact ⟨rfl, rfl, rfl, Nat.le_max_right ..⟩

theorem execWakeTimer_latches {due : Nat} (hentry : (s.chan c).pw.transit = .enteringSlack)
    (harmed : (s.chan c).pw.armed.timer = true) (hnew : (s.chan c).pw.latched.timer = false)
    (hdue : (s.chan c).pw.timerDue = some due) :
    ∃ t, exec (.wakeTimer c) s = .next t ∧ (t.chan c).pw.transit = .enteringSlack ∧ (t.chan c).pw.latched.timer = true ∧
      (t.chan c).pw.firstLatched = if (s.chan c).pw.firstLatched = 0 then 3 else (s.chan c).pw.firstLatched := by
  have hentry' : ((s.at due).chan c).pw.transit = .enteringSlack := hentry
  refine ⟨_, occursWith_some (a := due) _ (by simp [hon, Power.wakeable, hentry, harmed, hnew, hdue]), ?_⟩
  rw [State.remark_chan_pw, State.hwWake, if_pos hentry']
  simp [hentry]
  rfl

theorem execWakeLight_exits {lo hi : BitVec 8} (hlevel : (s.chan c).pw.level = .slack) (hidle : (s.chan c).pw.transit = .none)
    (harmed : (s.chan c).pw.armed.light = true) (hnew : (s.chan c).pw.latched.light = false)
    (hlo : lo.toNat ≤ (s.chan c).pw.wakeLos) (hhi : (s.chan c).pw.wakeLos + 2 ≤ hi.toNat) :
    ∃ t, exec (.wakeLight c lo hi) s = .next t ∧ (t.chan c).pw.transit = .leavingSlack ∧ (t.chan c).pw.lastWake = 2 ∧
      (t.chan c).pw.armed = {} := by
  refine ⟨_, occurs_true _ (by simp [hon, Power.wakeable, hlevel, hidle, harmed, hnew, hlo, hhi]), ?_⟩
  rw [State.remark_chan_pw, State.hwWake, if_neg (by simp [hidle]), State.beginExit_pw]
  exact ⟨rfl, rfl, rfl⟩

theorem execChanResetDone_ends {id : Nat} (hreset : (s.chan c).pw.resetCmd = some id) :
    ∃ t, exec (.chanResetDone c) s = .next t ∧ (t.chan c).pw.level = .dark ∧ (t.chan c).bu.step = 0 ∧
      (t.chan c).pw.resetCmd = none ∧ (∀ l, ((t.chan c).cipher l).current = none) ∧ t.flight? id = none := by
  obtain ⟨hlevel, hstep, hcmd, hkeys⟩ := s.goDark_dark c
  refine ⟨_, occursWith_some (a := id) _ (by rw [if_pos hon, hreset]), ?_⟩
  dsimp only
  generalize s.goDark c = u at hlevel hstep hcmd hkeys ⊢
  have hchan : ((if (s.chan c).pw.thermal = true then u.raise c 0x1921 1 1 else u).finishId id 0).chan c = u.chan c := by
    rw [State.finishId_chan]
    split <;> rfl
  rw [State.remark_chan_pw, State.remark_chan_bu, hchan, State.remark_flight?]
  refine ⟨hlevel, hstep, hcmd, fun l => ?_, State.finishId_flight? ..⟩
  rw [Channel.cipher, State.remark_chan_cx, hchan]
  exact hkeys l

end Sleep

/-- Settles O47: each command and each step of a level change, of sleep, of a wake and of the reset. -/
theorem powerComplete : Obligations.PowerComplete := by
  unfold Obligations.PowerComplete
  refine ⟨fun s id c f hc => ⟨fun n => execPwrLevel_begins hc, execPwrSleepSlack_begins hc, execPwrSleepDark_begins hc,
    execPwrSleepExit_begins hc, execPwrStatus_answers hc, execPwrModule_answers, execChanReset_begins hc⟩, fun s c hon =>
    ⟨execLevelStep_slows hon, execLevelStep_settles hon, execLevelStep_ends hon, execLevelStep_fails hon, execRailCheck_reads hon,
      execSleepEntryEnd_slack hon, execSleepEntryEnd_dark hon, fun due => execWakeTimer_exits hon, fun due => execWakeTimer_latches hon,
      fun lo hi => execWakeLight_exits hon, execSlackExitEnd_brings hon, fun id => execChanResetDone_ends hon⟩⟩

end Sys2Proof.Machine
end

section
/-! Fields of a word: a field that no other covers reads as it was written (00 R3). -/

namespace Sys2Proof.Machine

/-- Field n of a list covers bits that no other field does. -/
def freeField (fs : List Fld) (n lo w : Nat) : Bool :=
  (fs.eraseIdx n).all fun g => g.1 + g.2.1 ≤ lo || lo + w ≤ g.1

theorem mkWord_bit_field {fs : List Fld} (n : Nat) {lo w v j : Nat} (hn : fs[n]? = some (lo, w, v)) (hfree : freeField fs n lo w = true)
    (hword : lo + w ≤ 64) (hj : j < w) : (mkWord fs).bit (lo + j) = v.testBit j := by
  obtain ⟨hlen, hget⟩ := List.getElem?_eq_some_iff.1 hn
  have hothers : ((fs.eraseIdx n).any fun g => decide (g.1 ≤ lo + j) && decide (lo + j < g.1 + g.2.1) && g.2.2.testBit (lo + j - g.1)) =
      false := by
    refine List.any_eq_false.2 fun g hg => ?_
    have hg := List.all_eq_true.1 hfree g hg
    simp only [Bool.or_eq_true, decide_eq_true_eq] at hg
    simp only [Bool.and_eq_true, decide_eq_true_eq]
    omega
  rw [mkWord_bit _ (by omega), ← (List.getElem_cons_eraseIdx_perm hlen).any_eq, List.any_cons, hothers, hget]
  simp [hj]

theorem mkWord_bits_field {fs : List Fld} (n : Nat) {lo w v hi : Nat} (hn : fs[n]? = some (lo, w, v)) (hfree : freeField fs n lo w = true)
    (hhi : hi + 1 = lo + w) (hword : hi < 64) (hv : v < 2 ^ w) : (mkWord fs).bits hi lo = v := by
  refine Nat.eq_of_testBit_eq fun j => ?_
  rw [Word.testBit_bits]
  by_cases hj : j < w
  · rw [mkWord_bit_field n hn hfree (by omega) hj, decide_eq_true (by omega), Bool.true_and]
  · have hhigh : v < 2 ^ j := Nat.lt_of_lt_of_le hv (Nat.pow_le_pow_right (by decide) (by omega))
    rw [decide_eq_false (by omega), Bool.false_and, Nat.testBit_lt_two_pow hhigh]

/-- A flag reads as it was written. -/
theorem mkWord_bit_flag {fs : List Fld} (n : Nat) {i : Nat} {b : Bool} (hn : fs[n]? = some (i, 1, bitOf b))
    (hfree : freeField fs n i 1 = true) (hword : i < 64) : (mkWord fs).bit i = b := by
  have hbit := mkWord_bit_field n hn hfree hword Nat.zero_lt_one
  rw [Nat.add_zero] at hbit
  rw [hbit]
  cases b <;> rfl

end Sys2Proof.Machine
end

section
/-! Emergency shutdown of the transmit output, its restoration, and raw capture (12 R293 to R299; 22 R479). -/

namespace Sys2Proof.Machine

/-! ### Shutdown causes (12 R293, R294) -/

theorem causeBit_getLsbD (k : Fin 6) : (causeBit (k + 1)).getLsbD k = true := by
  revert k
  decide

/-- A channel with a latched cause is blanked. -/
theorem State.blanked_of_latched {s : State} {c : Nat} (k : Fin 6) (h : (s.chan c).opt.latched.getLsbD k = true) :
    s.blanked c = true := by
  have hcauses : (s.causes c).getLsbD k = true := by rw [State.causes, BitVec.getLsbD_or, h, Bool.true_or]
  have hne : s.causes c ≠ 0 := by
    intro hzero
    rw [hzero] at hcauses
    simp at hcauses
  rw [State.blanked, decide_eq_true hne, Bool.true_or]

/-- The optical parts of a channel on which cause k has latched. -/
def Optics.latch (x : Optics) (k : Nat) : Optics :=
  if x.latched.getLsbD (k - 1) then x
  else { x with latched := x.latched ||| causeBit k, raised := x.raised ||| causeBit k, shutdowns := x.shutdowns + 1 }

theorem State.latchCause_chan (s : State) (c k d : Nat) :
    (s.latchCause c k).chan d = if d = c then { s.chan c with opt := (s.chan c).opt.latch k } else s.chan d := by
  unfold State.latchCause State.shutEvent Optics.latch
  split
  · split
    · next hd => rw [hd]
    · rfl
  · simp only [State.raise_chan, State.onOpt_eq, State.setChan_chan]
    split <;> rfl

theorem Optics.latch_latched (x : Optics) (k : Fin 6) : (x.latch (k + 1)).latched.getLsbD k = true := by
  unfold Optics.latch
  split
  · next h => exact h
  · simp only [BitVec.getLsbD_or, causeBit_getLsbD, Bool.or_true]

theorem Optics.latch_laserOn (x : Optics) (k : Nat) : (x.latch k).laserOn = x.laserOn := by
  unfold Optics.latch
  split <;> rfl

/-- A cause that latches blanks the channel. -/
theorem State.latchCause_blanks (s : State) (c : Nat) (k : Fin 6) :
    ((s.latchCause c (k + 1)).chan c).opt.latched.getLsbD k = true := by
  rw [State.latchCause_chan, if_pos rfl]
  exact Optics.latch_latched ..

/-- What has latched on a channel blanks it, after the marks of the row too. -/
theorem State.remark_blanks {s : State} {c : Nat} (k : Fin 6) (h : (s.chan c).opt.latched.getLsbD k = true) :
    (s.remark.chan c).opt.latched.getLsbD k = true ∧ s.remark.blanked c = true := by
  have hlatched : (s.remark.chan c).opt.latched.getLsbD k = true := by rw [State.remark_chan_opt, h]
  exact ⟨hlatched, State.blanked_of_latched k hlatched⟩

section Shutdowns

variable {s : State} {c : Fin 32} (hon : s.boot.powered = true) (hlit : (s.chan c).opt.laserOn = true)
include hon hlit

theorem execOutputPowerHigh_blanks {first second : BitVec 8} (hnew : (s.chan c).opt.latched.getLsbD 2 = false)
    (hfirst : (s.chan c).tapHigh first = true) (hsecond : (s.chan c).tapHigh second = true) :
    ∃ t, exec (.outputPowerHigh ⟨c, first, second⟩) s = .next t ∧ (t.chan c).opt.latched.getLsbD 2 = true ∧ t.blanked c = true :=
  ⟨_, occurs_true _ (by simpa [State.lasing, hon, hlit, hfirst, hsecond] using hnew), State.remark_blanks 2 (s.latchCause_blanks c 2)⟩

theorem execLockerError_blanks {locker : Int} (hkeeper : (s.chan c).keeperDown = false) (hfar : 250 < locker.natAbs)
    (hnew : (s.chan c).opt.latched.getLsbD 5 = false) :
    ∃ t, exec (.lockerError c locker) s = .next t ∧ (t.chan c).opt.latched.getLsbD 5 = true ∧ t.blanked c = true :=
  ⟨_, occurs_true _ (by simpa [State.lasing, hon, hlit, hkeeper, hfar] using hnew), State.remark_blanks 5 (s.latchCause_blanks c 5)⟩

end Shutdowns

/-! ### Cause 4: the laser goes off (12 R293, R294) -/

/-- The optical parts of a channel, whether it sends, and how far bring-up has come. -/
abbrev Channel.beam (ch : Channel) : Optics × Bool := (ch.opt, ch.tf.sending)

theorem Channel.beam_of_spine {x y : Channel} (h : x.spine = y.spine) : x.beam = y.beam :=
  (congrArg (fun ch : Channel => (ch.opt, ch.tf.sending)) h :)

/-- What the spine of every channel leaves alone, so does its beam. -/
theorem State.beam_of_spine {s t : State} (h : t.view Channel.spine = s.view Channel.spine) :
    t.view Channel.beam = s.view Channel.beam :=
  funext fun c => Channel.beam_of_spine (State.spine_at h c)

section Beam

variable (s : State) (c : Nat)

theorem State.rxEnter_beam (x : RxState) : (s.rxEnter c x).view Channel.beam = s.view Channel.beam := by simp [State.rxEnter]

theorem State.startSearch_beam : (s.startSearch c).view Channel.beam = s.view Channel.beam := by
  simp [State.startSearch, State.rxEnter]

theorem State.setWindow_beam (ceil : Nat) (now' : Bool) : (s.setWindow c ceil now').view Channel.beam = s.view Channel.beam := by
  unfold State.setWindow
  extract_lets u v
  have hu : u.view Channel.beam = s.view Channel.beam := by simp [u]
  have hv : v.view Channel.beam = u.view Channel.beam := by simp [v, State.startSearch_beam]
  rw [← hu, ← hv]
  split
  · exact State.beam_of_spine (v.restate_spine c false true)
  · rfl

theorem State.applyWindows_beam (now' : Bool) : (s.applyWindows c now').view Channel.beam = s.view Channel.beam := by
  unfold State.applyWindows
  dsimp only
  refine (State.view_foldl (fun u w => ?_) _ _).trans (by simp)
  rw [State.view_finishId, State.setWindow_beam]

theorem State.loseAcq_beam (cause : Nat) (by_ : Option Nat) : (s.loseAcq c cause by_).view Channel.beam = s.view Channel.beam := by
  unfold State.loseAcq
  extract_lets x r u v w y z
  have hu : u.view Channel.beam = s.view Channel.beam := by
    simp only [u, State.onChan_eq]
    refine (State.view_setChan ?_).trans (State.view_raise ..)
    unfold Channel.leafSilent
    split <;> rfl
  have hy : y.view Channel.beam = u.view Channel.beam := State.beam_of_spine (by simp [y, w, v])
  have hz : z.view Channel.beam = y.view Channel.beam := by simp [z, State.rxEnter_beam, State.startSearch_beam]
  rw [State.applyWindows_beam, hz, hy, hu]

end Beam

/-- A channel that stops closes its shutter, and sends what it sent. -/
theorem State.stopChannel_beam (s : State) (c step : Nat) :
    ((s.stopChannel c step).chan c).beam = ({ (s.chan c).opt with shutter := true }, (s.chan c).tf.sending) := by
  unfold State.stopChannel
  extract_lets u
  have hspine : ((u.calAbandon c true).calAbandon c false).view Channel.spine = u.view Channel.spine := by simp
  have hu : (u.chan c).beam = ({ (s.chan c).opt with shutter := true }, (s.chan c).tf.sending) := by
    simp only [u, State.onChan_eq, State.setChan_chan_same]
  exact (Channel.beam_of_spine (State.spine_at hspine c)).trans hu

/-- The laser is off, with cause 4 latched, and the channel is stopped at step 2. -/
theorem State.laserTrip_trips (s : State) (c : Nat) :
    ((s.laserTrip c).chan c).beam = ({ ({ (s.chan c).opt with laserOn := false } : Optics).latch 4 with shutter := true },
      (s.chan c).tf.sending) ∧
    ((s.laserTrip c).chan c).bu.step = 2 ∧ ((s.laserTrip c).chan c).bu.stopped = true := by
  unfold State.laserTrip
  extract_lets cmd u v
  have hu : (u.chan c).beam = (({ (s.chan c).opt with laserOn := false } : Optics).latch 4, (s.chan c).tf.sending) := by
    simp only [u, State.latchCause_chan, if_true, State.onOpt_eq, State.setChan_chan_same]
  have hv : (v.chan c).beam = (u.chan c).beam := by
    simp only [v]
    split
    · exact congrFun (u.loseAcq_beam c 2 none) c
    · rfl
  obtain ⟨hstopped, hstep, -⟩ := v.stopChannel_chan c 2
  have hbeam := hv.trans hu
  simp only [Prod.mk.injEq] at hbeam
  rw [State.finishOpt_chan]
  refine ⟨?_, hstep, hstopped⟩
  rw [State.stopChannel_beam, hbeam.1, hbeam.2]

theorem execLaserCurrentHigh_trips {s : State} {c : Fin 32} (hon : s.boot.powered = true) (hlit : (s.chan c).opt.laserOn = true)
    {code : BitVec 8} (hhigh : (Config.laserLimit c).val < code.toNat) :
    ∃ t, exec (.laserCurrentHigh ⟨c, code⟩) s = .next t ∧ (t.chan c).opt.latched.getLsbD 3 = true ∧ t.blanked c = true ∧
      (t.chan c).opt.laserOn = false ∧ (t.chan c).bu.step = 2 ∧ (t.chan c).bu.stopped = true ∧
      (t.chan c).tf.sending = (s.chan c).tf.sending := by
  obtain ⟨hbeam, hstep, hstopped⟩ := s.laserTrip_trips c
  simp only [Prod.mk.injEq] at hbeam
  obtain ⟨hopt, hsending⟩ := hbeam
  have hlatched : ((s.laserTrip c).chan c).opt.latched.getLsbD 3 = true := by
    rw [hopt]
    exact Optics.latch_latched _ 3
  obtain ⟨hlatched', hblanked⟩ := State.remark_blanks 3 hlatched
  refine ⟨_, occurs_true _ (by simp [State.lasing, hon, hlit, hhigh]), hlatched', hblanked, ?_, ?_, ?_, ?_⟩
  · rw [State.remark_chan_opt, hopt]
    exact Optics.latch_laserOn ..
  · rw [State.remark_chan_bu, hstep]
  · rw [State.remark_chan_bu, hstopped]
  · rw [State.remark_chan_tf, hsending]

/-! ### The commands (12 R293, R295, R299) -/

theorem twos_lt (w : Nat) (v : Int) : twos w v < 2 ^ w := by
  have hpos : (0 : Int) < 2 ^ w := by positivity
  have hlt := Int.emod_lt_of_pos v hpos
  have hnonneg := Int.emod_nonneg v (ne_of_gt hpos)
  rw [twos, Int.toNat_lt hnonneg]
  exact_mod_cast hlt

/-- An output that opens keeps what has latched. -/
theorem State.openOutput_latched (s : State) (c : Nat) : ((s.openOutput c).chan c).opt.latched = (s.chan c).opt.latched ∧
    ((s.openOutput c).chan c).opt.held = (s.chan c).opt.held := by
  unfold State.openOutput
  dsimp only
  split
  · simp only [State.raise_chan, State.onOpt_eq, State.setChan_chan_same, and_self]
  · exact ⟨rfl, rfl⟩

/-- Of the six causes, the first two are those of the common section. -/
theorem causes_of_module : ∀ x : BitVec 6, x.getLsbD 0 = false → x.getLsbD 1 = false → x.toNat % 4 = 0 := by decide

/-- Cause 4 is all that a restoration leaves. -/
theorem restored_causes : ∀ x : BitVec 6, x.getLsbD 3 = false → x &&& 0b001000#6 = 0 := by decide

/-- With no order of the common section, the causes of a channel are those latched on it. -/
theorem State.causes_latched {s : State} (hpin : s.boot.laserOffN = false) (hshore : s.shore.laserOff = false) (c : Nat) :
    s.causes c = (s.chan c).opt.latched := by
  rw [State.causes, hpin, hshore]
  exact BitVec.or_zero

section Commands

variable {s : State} {id c : Nat} {f : Flight} (hc : f.desc.target = c)
include hc

theorem execLaserBlank_blanks (h : s.Started id 0x14C6 f) (hkeeper : (s.chan c).keeperDown = false) :
    ∃ t, exec (.laserBlank id) s = .next t ∧ t.blanked c = true ∧ (t.chan c).opt.latched.getLsbD 4 = true ∧
      t.flight? f.id = none ∧ (∀ d, d ≠ c → (t.chan d).Same (s.chan d)) := by
  subst hc
  have hlatched : (((s.latchCause f.desc.target 5).finish f 0).chan f.desc.target).opt.latched.getLsbD 4 = true := by
    rw [State.finish_chan]
    exact s.latchCause_blanks f.desc.target 4
  obtain ⟨hlatched', hblanked⟩ := State.remark_blanks 4 hlatched
  refine ⟨_, withCmdIf_started (p := fun d => !(s.chan d.target).keeperDown) h (by simp [hkeeper]) _, hblanked, hlatched', by simp,
    fun d hd => ?_⟩
  have hsame := ((s.latchCause f.desc.target 5).finish f 0).remark_same d
  rwa [State.finish_chan, State.latchCause_chan, if_neg hd] at hsame

theorem execOpticsStatus_answers (locker txOut rxIn : Int) (current : Nat) (h : s.Started id 0x14C4 f) : ∃ ws,
    s.Does (.opticsStatus id locker txOut rxIn current) (s.answer f ws) ∧ ws.length = 4 ∧
    (wd ws 0).bits 15 0 = twos 16 locker ∧ (wd ws 1).bits 5 0 = (s.causes c).toNat ∧ (wd ws 1).bit 6 = s.blanked c ∧
    (wd ws 1).bit 7 = (s.chan c).opt.laserOn ∧ (wd ws 1).bits 63 32 = (s.chan c).opt.shutdowns.toNat := by
  subst hc
  refine ⟨_, withCmd_started h _, ?_, ?_, ?_, ?_, ?_, ?_⟩
  · rfl
  · exact mkWord_bits_field 0 rfl rfl rfl (by decide) (twos_lt 16 locker)
  · exact mkWord_bits_field 0 rfl rfl rfl (by decide) (s.causes f.desc.target).isLt
  · exact mkWord_bit_flag 1 rfl rfl (by decide)
  · exact mkWord_bit_flag 2 rfl rfl (by decide)
  · exact mkWord_bits_field 3 rfl rfl rfl (by decide) (s.chan f.desc.target).opt.shutdowns.isLt

theorem execLaserRestore_restores {tap : BitVec 8 × BitVec 8} {locker : Int} (h : s.Started id 0x14C7 f)
    (hkeeper : (s.chan c).keeperDown = false) (hheld : (s.chan c).opt.held = false) (hawake : (s.chan c).awake = true)
    (hpin : s.boot.laserOffN = false) (hshore : s.shore.laserOff = false)
    (h1 : (s.chan c).opt.latched.getLsbD 0 = false) (h2 : (s.chan c).opt.latched.getLsbD 1 = false)
    (h3 : (s.chan c).opt.latched.getLsbD 2 = true → (s.chan c).tapHigh tap.1 = false ∨ (s.chan c).tapHigh tap.2 = false)
    (h6 : (s.chan c).opt.latched.getLsbD 5 = true → locker.natAbs ≤ 150) :
    ∃ t, exec (.laserRestore id tap locker) s = .next t ∧ t.flight? f.id = none ∧
      (t.chan c).opt.latched = (s.chan c).opt.latched &&& 0b001000#6 ∧
      ((s.chan c).opt.latched.getLsbD 3 = false → t.blanked c = false) := by
  subst hc
  refine ⟨_, withCmdIf_started (p := fun d => !(s.chan d.target).keeperDown) h (by simp [hkeeper]) _, ?_⟩
  have hmodule : (s.causes f.desc.target).toNat % 4 = 0 := by
    rw [State.causes_latched hpin hshore]
    exact causes_of_module _ h1 h2
  have hhigh : ((s.chan f.desc.target).opt.latched.getLsbD 2 && (s.chan f.desc.target).tapHigh tap.1 &&
      (s.chan f.desc.target).tapHigh tap.2) = false := by
    cases hb : (s.chan f.desc.target).opt.latched.getLsbD 2 with
    | false => rfl
    | true => rcases h3 hb with h | h <;> simp [h]
  have hlocker : ((s.chan f.desc.target).opt.latched.getLsbD 5 && decide (150 < locker.natAbs)) = false := by
    cases hb : (s.chan f.desc.target).opt.latched.getLsbD 5 with
    | false => rfl
    | true => simpa using h6 hb
  dsimp only
  rw [if_neg (by simp [hawake]), if_neg (by simp only [hmodule, hhigh, hlocker]; decide)]
  let u := s.onOpt f.desc.target fun x => { x with latched := x.latched &&& 0b001000#6 }
  obtain ⟨hlatched, hkept⟩ := u.openOutput_latched f.desc.target
  have hopt : ((u.openOutput f.desc.target).chan f.desc.target).opt.latched =
      (s.chan f.desc.target).opt.latched &&& 0b001000#6 := hlatched.trans (by simp [u])
  refine ⟨by simp, ?_, fun h4 => ?_⟩
  · rw [State.remark_chan_opt, State.finish_chan, hopt]
  · have hboot : (((u.openOutput f.desc.target).finish f 0).remark).boot.laserOffN = false := by
      rw [State.remark_boot, State.finish_boot, State.openOutput_boot]
      exact hpin
    have hshore' : (((u.openOutput f.desc.target).finish f 0).remark).shore.laserOff = false := by
      rw [State.remark_shore, State.finish_shore, State.openOutput_shore]
      exact hshore
    have hfree : ((u.openOutput f.desc.target).chan f.desc.target).opt.held = false := hkept.trans (by simp [u, hheld])
    rw [State.blanked, State.causes_latched hboot hshore', State.remark_chan_opt, State.finish_chan, hopt, restored_causes _ h4, hfree]
    decide

end Commands

/-! ### Raw capture (12 R296 to R298) -/

/-- What a capture holds when it is taken. -/
def CapArm.taken (a : CapArm) (x : CapSample) : CapData :=
  { arm := a, numValid := x.num.isSome, mfc := (x.num.getD (0, 0)).1, frame := (x.num.getD (0, 0)).2.toNat, ofs := x.ofs
    total := 64 * a.len, data := a.data x }

theorem State.takeCapture_cap (s : State) (c : Nat) (a : CapArm) (x : CapSample) :
    ((s.takeCapture c a x).chan c).cap = { taken := some (a.taken x), capId := (s.chan c).cap.capId + 1 } := by
  simp [State.takeCapture, State.rewrite, CapArm.taken]

theorem State.takeCapture_event (s : State) (c : Nat) (a : CapArm) (x : CapSample) :
    ∃ e ∈ (s.takeCapture c a x).batch, e.source = c ∧ e.code = 0x14C3 :=
  State.raise_event ..

section Capture

variable {s : State} {id c : Nat} {f : Flight} {x : CapSample} (hc : f.desc.target = c)
include hc

theorem execCaptureArm_arms (h : s.Started id 0x14C5 f) (harm : f.desc.p0.bit 25 = false) (hok : s.capOk f (CapArm.ofDesc f) = true)
    (harmed : (s.chan c).cap.armed = none) (htaken : (s.chan c).cap.taken = none) (htrig : (CapArm.ofDesc f).trig ≠ 0) :
    ∃ t, exec (.captureArm id x) s = .next t ∧ (t.chan c).cap.armed = some (CapArm.ofDesc f) ∧ (t.chan c).cap.taken = none ∧
      t.flight? f.id = none := by
  subst hc
  refine ⟨_, withCmdIf_started (p := fun d => !d.p0.bit 25) h (by simp [harm]) _, ?_⟩
  dsimp only
  rw [if_neg (by simp [hok]), if_neg (by simp [harmed, htaken]), if_neg htrig, State.remark_chan_cap]
  simp [htaken]

theorem execCaptureArm_takes (h : s.Started id 0x14C5 f) (harm : f.desc.p0.bit 25 = false) (hok : s.capOk f (CapArm.ofDesc f) = true)
    (harmed : (s.chan c).cap.armed = none) (htaken : (s.chan c).cap.taken = none) (htrig : (CapArm.ofDesc f).trig = 0) :
    ∃ t d, exec (.captureArm id x) s = .next t ∧ (t.chan c).cap.taken = some d ∧ d.total = 64 * (CapArm.ofDesc f).len ∧
      d.sent = 0 ∧ (t.chan c).cap.capId = (s.chan c).cap.capId + 1 ∧ t.flight? f.id = none := by
  subst hc
  refine ⟨_, (CapArm.ofDesc f).taken { x with num := (s.chan f.desc.target).capNum (CapArm.ofDesc f).source },
    withCmdIf_started (p := fun d => !d.p0.bit 25) h (by simp [harm]) _, ?_⟩
  dsimp only
  rw [if_neg (by simp [hok]), if_neg (by simp [harmed, htaken]), if_pos htrig, State.remark_chan_cap, State.finish_chan,
    State.takeCapture_cap]
  exact ⟨rfl, rfl, rfl, rfl, by simp⟩

theorem execCaptureDisarm_disarms (h : s.Started id 0x14C5 f) (harm : f.desc.p0.bit 25 = true) :
    ∃ t, exec (.captureDisarm id) s = .next t ∧ (t.chan c).cap.armed = none ∧ (t.chan c).cap.taken = none ∧
      t.flight? f.id = none := by
  subst hc
  refine ⟨_, withCmdIf_started (p := fun d => d.p0.bit 25) h harm _, ?_⟩
  rw [State.remark_chan_cap]
  simp

end Capture

theorem execCaptureTaken_takes {s : State} {c : Fin 32} (x : CapSample) {a : CapArm} (hon : s.boot.powered = true)
    (htrig : (s.chan c).triggered = some a) :
    ∃ t d, exec (.captureTaken c x) s = .next t ∧ (t.chan c).cap.taken = some d ∧ d.arm = a ∧ (t.chan c).cap.armed = none ∧
      ∃ e ∈ t.batch, e.source = c.val ∧ e.code = 0x14C3 := by
  let y := if a.trig = 2 then x
    else if a.source = 1 then { x with num := (s.chan c).capNum 1 } else { x with num := some (a.mfc, 0), ofs := 0 }
  obtain ⟨e, he, hevent⟩ := s.takeCapture_event c a y
  refine ⟨_, a.taken y, occursWith_some (a := a) _ (by rw [if_pos hon, htrig]), ?_⟩
  rw [State.remark_chan_cap, State.takeCapture_cap]
  exact ⟨rfl, rfl, rfl, e, State.remark_batch he, hevent⟩

theorem execCaptureBufferFill_fills {s : State} {c : Fin 32} {d : CapData} {f : Flight} {n : Nat} (hon : s.boot.powered = true)
    (htaken : (s.chan c).cap.taken = some d) (hbuf : (s.ring d.arm.ring).posted.head?.bind s.flight? = some f)
    (hlen : 128 ≤ f.desc.bufLen) (hn : n = min (64 * ((f.desc.bufLen - 64) / 64)) (d.total - d.sent)) :
    ∃ t, exec (.captureBufferFill c) s = .next t ∧ t.flight? f.id = none ∧
      ((s.sram c).bad = [] →
        (d.sent + n < d.total → (t.chan c).cap.taken = some { d with sent := d.sent + n }) ∧
        (d.total ≤ d.sent + n → (t.chan c).cap.taken = none)) := by
  subst hn
  refine ⟨_, occursWith_some (a := (d, f)) _ (by rw [htaken, Option.bind_some, hbuf]; rfl), ?_⟩
  dsimp only
  rw [if_pos hon, State.fillCapture]
  dsimp only
  rw [ if_neg (Nat.not_lt.2 hlen), State.remark_flight?, State.remark_chan_cap]
  refine ⟨State.dmaRead_flight? _ _ _ _ _ fun u => State.finish_flight?_same .., fun hclean => ?_⟩
  rw [State.dmaRead_clean (s := s.onRing d.arm.ring fun x => { x with posted := x.posted.drop 1 }) hclean, State.finish_chan, State.onCap_eq, State.setChan_chan_same]
  exact ⟨fun hmore => if_pos hmore, fun hall => if_neg (Nat.not_lt.2 hall)⟩

/-- Settles O41: each command, each cause, and each step of a capture. -/
theorem opticsComplete : Obligations.OpticsComplete := by
  unfold Obligations.OpticsComplete
  refine ⟨fun s => ⟨fun id c f hc => ⟨execLaserBlank_blanks hc, fun tap locker => execLaserRestore_restores hc,
    execOpticsStatus_answers hc⟩, fun c hon hlit => ⟨fun first second => execOutputPowerHigh_blanks hon hlit,
    fun code => execLaserCurrentHigh_trips hon hlit, fun locker => execLockerError_blanks hon hlit⟩⟩, fun s => ⟨fun id c f x hc =>
    ⟨execCaptureArm_arms hc, execCaptureArm_takes hc, execCaptureDisarm_disarms hc⟩, fun c x a => execCaptureTaken_takes x,
    fun c d f n => execCaptureBufferFill_fills⟩⟩

end Sys2Proof.Machine
end

section
/-! Calibration: its commands, and how its runs start, are checked, and take effect (12 R279 to R292, R299, R300). -/

namespace Sys2Proof.Machine

/-! ### What the bookkeeping of runs leaves alone -/

/-- Calibration but for the runs in progress and the commands that wait for them. -/
def Cal.book (x : Cal) : Cal := { x with rxRun := none, txRun := none, waiters := [] }

abbrev Channel.book (ch : Channel) : Cal := ch.cal.book

theorem Cal.setRun_book (x : Cal) (tx : Bool) (r : Option CalRun) : (x.setRun tx r).book = x.book := by
  cases tx <;> rfl

/-- What calibration is set to do, and its values in force. -/
def Cal.settings (x : Cal) : Bool × Bool × Nat × Nat × Option (List Int) := (x.rxTrack, x.txTrack, x.rxInt, x.txInt, x.values)

theorem Cal.settings_of_book {x y : Cal} (h : x.book = y.book) : x.settings = y.settings :=
  (congrArg (fun z : Cal => (z.rxTrack, z.txTrack, z.rxInt, z.txInt, z.values)) h :)

section Book

variable (s : State) (c : Nat) (tx : Bool)

theorem State.calTell_book (outcome : Nat) : (s.calTell c tx outcome).view Channel.book = s.view Channel.book := by
  refine (State.view_foldl (fun u w => State.view_finishId ..) _ _).trans ?_
  exact State.view_setChan rfl

theorem State.calStart_book (initial response : Bool) : (s.calStart c tx initial response).view Channel.book = s.view Channel.book :=
  State.view_setChan (Cal.setRun_book ..)

theorem State.calAgain_book : (s.calAgain c tx).view Channel.book = s.view Channel.book := by
  unfold State.calAgain
  refine (State.view_setChan ?_).trans (s.calStart_book c tx false false)
  dsimp only
  split
  · exact Cal.setRun_book ..
  · rfl

theorem State.calNext_book (r : CalRun) (slewed due response : Bool) :
    (s.calNext c tx r slewed due response).view Channel.book = s.view Channel.book := by
  unfold State.calNext
  simp only [State.view_ite, State.calStart_book, State.calAgain_book, ite_self]

theorem State.calResume_book : (s.calResume c tx).view Channel.book = s.view Channel.book := by
  unfold State.calResume
  simp only [State.view_ite, State.calStart_book, ite_self]

theorem State.calJoin_book (want : Bool) : (s.calJoin c tx want).view Channel.book = s.view Channel.book := by
  unfold State.calJoin
  simp only [State.view_ite, State.calStart_book, ite_self]

/-- What a rejection books. -/
def Cal.rejected (x : Cal) (tx : Bool) (now reason : Nat) (m : BitVec 32) : Cal :=
  let n := satAt 255 ((if tx then x.txRejSeq else x.rxRejSeq) + 1)
  let again := reason = 4 && x.due tx
  let y := (x.ended tx now reason m false).setConverged tx 0
  if tx then { y with txRejSeq := n, txRejects := y.txRejects + 1, txNext := if again then now else y.txNext }
  else { y with rxRejSeq := n, rxRejects := y.rxRejects + 1, rxNext := if again then now else y.rxNext }

theorem State.calReject_book {r : CalRun} (h : (s.chan c).cal.run tx = some r) (reason : Nat) (cause : Option Nat) :
    ((s.calReject c tx reason cause).chan c).cal.book = ((s.chan c).cal.rejected tx s.now reason (s.chan c).rxMfNow).book := by
  unfold State.calReject
  simp only [h]
  generalize hu : s.onCal c _ = u
  have hbook : u.view Channel.book c = ((s.chan c).cal.rejected tx s.now reason (s.chan c).rxMfNow).book := by
    rw [← hu, State.view, State.onCal_eq, State.setChan_chan_same]
    rfl
  have hevent (n : Nat) : (if n = 1 then u.calEvent c tx reason n 2 cause else if n = 8 then u.calEvent c tx reason n 3 cause
      else u).view Channel.book = u.view Channel.book := by
    split
    · rfl
    · split <;> rfl
  refine (congrFun (?_ : State.view Channel.book _ = u.view Channel.book) c).trans hbook
  simp only [State.view_ite, State.calNext_book, State.calTell_book, hevent, ite_self]

theorem Cal.rejected_settings (x : Cal) (now reason : Nat) (m : BitVec 32) : (x.rejected tx now reason m).settings = x.settings := by
  cases tx <;> rfl

/-- A run that is abandoned leaves what calibration is set to do, and the values in force. -/
theorem State.calAbandon_settings (cause : Option Nat) :
    ((s.calAbandon c tx cause).chan c).cal.settings = (s.chan c).cal.settings := by
  cases h : (s.chan c).cal.run tx with
  | none => simp only [State.calAbandon, State.calReject, h]
  | some r => exact (Cal.settings_of_book (s.calReject_book c tx h 4 cause)).trans (Cal.rejected_settings ..)

theorem State.calResume_settings : ((s.calResume c tx).chan c).cal.settings = (s.chan c).cal.settings :=
  Cal.settings_of_book (congrFun (s.calResume_book c tx) c)

/-- The runs in progress. -/
abbrev Channel.runs (ch : Channel) : Option CalRun × Option CalRun := (ch.cal.rxRun, ch.cal.txRun)

theorem State.calTell_runs (outcome : Nat) : (s.calTell c tx outcome).view Channel.runs = s.view Channel.runs := by
  refine (State.view_foldl (fun u w => State.view_finishId ..) _ _).trans ?_
  exact State.view_setChan rfl

/-- A run that is abandoned is over, and the other kind's goes on. -/
theorem State.calAbandon_runs (cause : Option Nat) : ((s.calAbandon c tx cause).chan c).runs =
    (if tx then (s.chan c).cal.rxRun else none, if tx then none else (s.chan c).cal.txRun) := by
  unfold State.calAbandon State.calReject
  dsimp only
  split
  · next h => cases tx <;> simp_all [Cal.run]
  · rw [if_pos rfl]
    generalize hu : s.onCal c _ = u
    have hruns : (u.chan c).runs = (if tx then (s.chan c).cal.rxRun else none, if tx then none else (s.chan c).cal.txRun) := by
      rw [← hu, State.onCal_eq, State.setChan_chan_same]
      cases tx <;> rfl
    have hevent (n : Nat) : (if n = 1 then u.calEvent c tx 4 n 2 cause else if n = 8 then u.calEvent c tx 4 n 3 cause
        else u).view Channel.runs = u.view Channel.runs := by
      split
      · rfl
      · split <;> rfl
    refine (congrFun (?_ : State.view Channel.runs _ = u.view Channel.runs) c).trans hruns
    rw [State.calTell_runs, hevent]

/-- A run that resumes is of its own kind. -/
theorem State.calResume_rxRun : ((s.calResume c true).chan c).cal.rxRun = (s.chan c).cal.rxRun := by
  have hstart (initial response : Bool) : ((s.calStart c true initial response).chan c).cal.rxRun = (s.chan c).cal.rxRun := by
    simp [State.calStart, Cal.setRun]
  simp only [State.calResume, if_true]
  split
  · exact hstart ..
  · rfl

/-- A kind that is wanted has a run in progress, and the commands that wait go on waiting. -/
theorem State.calJoin_runs : (((s.calJoin c tx true).chan c).cal.run tx).isSome = true := by
  unfold State.calJoin
  rw [Bool.true_and]
  split
  · cases tx <;> simp [State.calStart, Cal.setRun, Cal.run]
  · next h => exact Option.ne_none_iff_isSome.1 (by simpa using h)

theorem State.calJoin_waiters (want : Bool) : ((s.calJoin c tx want).chan c).cal.waiters = (s.chan c).cal.waiters := by
  unfold State.calJoin
  split
  · cases tx <;> simp [State.calStart, Cal.setRun]
  · rfl

theorem State.calJoin_unwanted : s.calJoin c tx false = s := by
  rw [State.calJoin, Bool.false_and, if_neg Bool.false_ne_true]

end Book

/-! ### The commands (12 R286, R299) -/

section Commands

variable {s : State} {id c : Nat} {f : Flight} (hc : f.desc.target = c)
include hc

theorem execCalConfig_sets (h : s.Started id 0x14C0 f) (hrx : 1 ≤ f.desc.p0.bits 27 16) (hrx' : f.desc.p0.bits 27 16 ≤ 3600)
    (htx : 1 ≤ f.desc.p0.bits 43 32) (htx' : f.desc.p0.bits 43 32 ≤ 3600) :
    ∃ t, exec (.calConfig id) s = .next t ∧ (t.chan c).cal.rxTrack = f.desc.p0.bit 0 ∧
      (t.chan c).cal.txTrack = f.desc.p0.bit 1 ∧ (t.chan c).cal.rxInt = f.desc.p0.bits 27 16 ∧
      (t.chan c).cal.txInt = f.desc.p0.bits 43 32 ∧ t.flight? f.id = none ∧
      (f.desc.p0.bit 0 = false → (s.chan c).rx.state ≠ .calibration → (t.chan c).cal.rxRun = none) ∧
      (t.chan c).cal.values = (s.chan c).cal.values := by
  subst hc
  let u := s.onCal f.desc.target fun x => { x with
    rxTrack := f.desc.p0.bit 0, txTrack := f.desc.p0.bit 1, rxInt := f.desc.p0.bits 27 16, txInt := f.desc.p0.bits 43 32
    rxNext := if x.rxRun.isSome then x.rxNext else s.now + f.desc.p0.bits 27 16 * 1000000000
    txNext := if x.txRun.isSome then x.txNext else s.now + f.desc.p0.bits 43 32 * 1000000000 }
  let v := if f.desc.p0.bit 0 then u else (u.calAbandon f.desc.target false).calResume f.desc.target false
  let w := if f.desc.p0.bit 1 then v else (v.calAbandon f.desc.target true).calResume f.desc.target true
  have hrow : exec (.calConfig id) s = .next (w.finish f 0).remark := by
    refine (withCmd_started h _).trans ?_
    dsimp only
    rw [if_neg]
    simp only [Bool.or_eq_true, decide_eq_true_eq]
    omega
  have hv : (v.chan f.desc.target).cal.settings = (u.chan f.desc.target).cal.settings := by
    simp only [v]
    split
    · rfl
    · rw [State.calResume_settings, State.calAbandon_settings]
  have hw : (w.chan f.desc.target).cal.settings = (v.chan f.desc.target).cal.settings := by
    simp only [w]
    split
    · rfl
    · rw [State.calResume_settings, State.calAbandon_settings]
  have hu : (u.chan f.desc.target).cal.settings = (f.desc.p0.bit 0, f.desc.p0.bit 1, f.desc.p0.bits 27 16, f.desc.p0.bits 43 32,
      (s.chan f.desc.target).cal.values) := by
    simp only [u, State.onCal_eq, State.setChan_chan_same, Cal.settings]
  have hset := (hw.trans hv).trans hu
  simp only [Cal.settings, Prod.mk.injEq] at hset
  obtain ⟨hrxTrack, htxTrack, hrxInt, htxInt, hvalues⟩ := hset
  refine ⟨_, hrow, ?_⟩
  rw [State.remark_chan_cal, State.finish_chan]
  refine ⟨hrxTrack, htxTrack, hrxInt, htxInt, by simp, fun hoff hstate => ?_, hvalues⟩
  have hover : (v.chan f.desc.target).cal.rxRun = none := by
    have hidle : ((u.calAbandon f.desc.target false).chan f.desc.target).rx.state ≠ .calibration := by
      have hspine := State.spine_at (u.calAbandon_spine f.desc.target false none) f.desc.target
      exact (congrArg (fun ch : Channel => ch.rx.state) hspine :) ▸ (by simpa [u] using hstate)
    have hresume : (u.calAbandon f.desc.target false).calResume f.desc.target false = u.calAbandon f.desc.target false := by
      simp only [State.calResume, Bool.false_eq_true, if_false, hidle, decide_false, Bool.false_and]
    simp only [v, hoff, Bool.false_eq_true, if_false, hresume]
    exact congrArg Prod.fst (u.calAbandon_runs f.desc.target false none)
  simp only [w]
  split
  · exact hover
  · rw [State.calResume_rxRun]
    exact (congrArg Prod.fst (v.calAbandon_runs f.desc.target true none)).trans hover

theorem execCalRun_rx (h : s.Started id 0x14C1 f) (hrx : f.desc.p0.bit 0 = true) (htx : f.desc.p0.bit 1 = false)
    (hallowed : (s.chan c).calAllowed false = true) : ∃ t, exec (.calRun id) s = .next t ∧ ((t.chan c).cal.rxRun).isSome = true ∧
      (∃ w ∈ (t.chan c).cal.waiters, w.id = f.id ∧ w.rx = true ∧ w.tx = false) := by
  subst hc
  refine ⟨_, withCmd_started h _, ?_⟩
  dsimp only
  rw [if_neg (by simp [hrx, htx, hallowed]), if_neg (by simp [hrx]), State.remark_chan_cal, State.run_chan, hrx, htx,
    State.calJoin_unwanted]
  refine ⟨State.calJoin_runs _ f.desc.target false, { id := f.id, rx := true, tx := false }, ?_, rfl, rfl, rfl⟩
  rw [State.calJoin_waiters, State.onCal_eq, State.setChan_chan_same]
  exact List.mem_append_right _ (List.mem_singleton_self _)

theorem execCalRun_tx (h : s.Started id 0x14C1 f) (hrx : f.desc.p0.bit 0 = false) (htx : f.desc.p0.bit 1 = true)
    (hallowed : (s.chan c).calAllowed true = true) : ∃ t, exec (.calRun id) s = .next t ∧ ((t.chan c).cal.txRun).isSome = true ∧
      (∃ w ∈ (t.chan c).cal.waiters, w.id = f.id ∧ w.rx = false ∧ w.tx = true) := by
  subst hc
  refine ⟨_, withCmd_started h _, ?_⟩
  dsimp only
  rw [if_neg (by simp [hrx, htx, hallowed]), if_neg (by simp [htx]), State.remark_chan_cal, State.run_chan, hrx, htx,
    State.calJoin_unwanted]
  refine ⟨State.calJoin_runs _ f.desc.target true, { id := f.id, rx := false, tx := true }, ?_, rfl, rfl, rfl⟩
  rw [State.calJoin_waiters, State.onCal_eq, State.setChan_chan_same]
  exact List.mem_append_right _ (List.mem_singleton_self _)

end Commands

/-! ### Runs by themselves (12 R281 to R287, R292) -/

theorem Cal.run_setRun (x : Cal) (tx : Bool) (r : Option CalRun) : (x.setRun tx r).run tx = r := by
  cases tx <;> rfl

/-- A window whose check finds nothing is accepted: its values wait for their boundary. -/
theorem State.calCheck_accepts {s : State} {c : Nat} {tx : Bool} {r : CalRun} {e : CalEstimate}
    (h : r.reason tx ((s.chan c).cal.inForce c) e (s.calBad c tx e) = 0) :
    ((s.calCheck c tx r e).chan c).cal.run tx = some { r with apply := some (r.result tx ((s.chan c).cal.inForce c) e) } ∧
      ((s.calCheck c tx r e).chan c).cal.values = (s.chan c).cal.values ∧ (s.calCheck c tx r e).now = s.now := by
  unfold State.calCheck
  simp only [h]
  simp only [State.onCal_eq, State.setChan_chan_same, State.setChan_now, Cal.run_setRun, and_true, true_and]
  cases tx <;> rfl

/-- A receive window whose check finds a reason is rejected: nothing changes but the counts. -/
theorem State.calCheck_rejects {s : State} {c k : Nat} {r : CalRun} {e : CalEstimate} (hrun : (s.chan c).cal.rxRun = some r)
    (hk : k ≠ 0) (h : r.reason false ((s.chan c).cal.inForce c) e (s.calBad c false e) = k) :
    ((s.calCheck c false r e).chan c).cal.values = (s.chan c).cal.values ∧
      ((s.calCheck c false r e).chan c).cal.rxRejects = (s.chan c).cal.rxRejects + 1 ∧
      ((s.calCheck c false r e).chan c).cal.rxLast = k := by
  let u := s.onCal c fun x => { x with
    estimates := (List.range 399).map fun i => if (r.positions false).contains i then e.est.getD i 0 else x.estimates.getD i 0 }
  have hcheck : s.calCheck c false r e = u.calReject c false k := by
    unfold State.calCheck
    dsimp only
    rw [h]
    split
    · exact absurd rfl hk
    · rfl
  have hu : (u.chan c).cal.run false = some r := by simpa [u, Cal.run] using hrun
  have hbook := u.calReject_book c false hu k none
  have hvalues := congrArg Cal.values hbook
  have hrejects := congrArg Cal.rxRejects hbook
  have hlast := congrArg Cal.rxLast hbook
  rw [hcheck]
  refine ⟨hvalues.trans ?_, hrejects.trans ?_, hlast⟩
  · simp [u, Cal.rejected, Cal.book, Cal.ended, Cal.setConverged]
  · simp [u, Cal.rejected, Cal.book, Cal.ended, Cal.setConverged]

/-- What an accepted run books where its values take effect. -/
def State.calTaken (s : State) (c : Nat) (tx : Bool) (r : CalRun) (q : CalResult) : Cal :=
  let x := (s.chan c).cal
  let y := x.ended tx s.now (if q.slewed then 15 else 0) (s.chan c).rxMfNow ((s.chan c).mfStarts tx)
  let y := y.setConverged tx (if r.initial && q.small then y.converged tx + 1 else 0)
  let y := { y with values := some (r.applied tx (x.inForce c) q.values), slews := if q.slewed then y.slews + 1 else y.slews
                    response := if r.response then some q.resp else y.response
                    respDue := y.respDue && !r.response
                    figures := if r.response then y.figures else s.calFigures tx r.initial y.figures q }
  if tx then { y with txRuns := y.txRuns + 1, txRejSeq := 0 } else { y with rxRuns := y.rxRuns + 1, rxRejSeq := 0, appliedUp := true }

theorem State.calValues_book (s : State) (c : Nat) (tx : Bool) (r : CalRun) (q : CalResult) :
    ((s.calValues c tx r q).chan c).cal.book = (s.calTaken c tx r q).book := by
  unfold State.calValues
  dsimp only
  generalize hu : s.onCal c _ = u
  have hnext : (((u.calTell c tx (if q.slewed then 15 else 0)).calNext c tx r q.slewed ((s.chan c).cal.due tx) false).draw).view
      Channel.book = u.view Channel.book := by
    rw [State.view_draw, State.calNext_book, State.calTell_book]
  refine (congrFun hnext c).trans ?_
  rw [← hu, State.view, State.onCal_eq, State.setChan_chan_same]
  rfl

/-- Receive values that take effect. -/
theorem State.calValues_rx (s : State) (c : Nat) (r : CalRun) (q : CalResult) :
    ((s.calValues c false r q).chan c).cal.values = some (r.applied false ((s.chan c).cal.inForce c) q.values) ∧
      ((s.calValues c false r q).chan c).cal.rxRuns = (s.chan c).cal.rxRuns + 1 ∧
      ((s.calValues c false r q).chan c).cal.rxRejSeq = 0 ∧
      ((s.calValues c false r q).chan c).cal.rxLast = (if q.slewed then 15 else 0) := by
  have hbook := s.calValues_book c false r q
  exact ⟨(congrArg Cal.values hbook :), (congrArg Cal.rxRuns hbook :), (congrArg Cal.rxRejSeq hbook :), (congrArg Cal.rxLast hbook :)⟩

/-- Transmit values that take effect, with those of the response correction. -/
theorem State.calValues_tx (s : State) (c : Nat) (r : CalRun) (q : CalResult) :
    ((s.calValues c true r q).chan c).cal.values = some (r.applied true ((s.chan c).cal.inForce c) q.values) ∧
      ((s.calValues c true r q).chan c).cal.txRuns = (s.chan c).cal.txRuns + 1 ∧
      ((s.calValues c true r q).chan c).cal.txRejSeq = 0 ∧
      (r.response = true → ((s.calValues c true r q).chan c).cal.respNow c = q.resp) := by
  have hbook := s.calValues_book c true r q
  refine ⟨(congrArg Cal.values hbook :), (congrArg Cal.txRuns hbook :), (congrArg Cal.txRejSeq hbook :), fun hresponse => ?_⟩
  have hresp : ((s.calValues c true r q).chan c).cal.response = (s.calTaken c true r q).response := (congrArg Cal.response hbook :)
  rw [Cal.respNow, hresp]
  simp [State.calTaken, hresponse]

section Rows

variable {s : State} {c : Fin 32} (hon : s.boot.powered = true)
include hon

theorem execCalRunDue_starts (htrack : (s.chan c).cal.rxTrack = true) (hallowed : (s.chan c).calAllowed false = true)
    (hrun : (s.chan c).cal.rxRun = none) : ∃ t, exec (.calRunDue c false) s = .next t ∧
      (t.chan c).cal.rxRun = some { initial := false } ∧ (t.chan c).cal.txRun = (s.chan c).cal.txRun ∧
      (s.chan c).cal.rxNext ≤ t.now := by
  refine ⟨_, occurs_true _ (by simp [hon, hallowed, Cal.tracks, htrack]), ?_⟩
  have hnone : ((s.chan c).cal.run false).isSome = false := by simp [Cal.run, hrun]
  simp only [hnone, Bool.false_eq_true, if_false, State.remark_chan_cal, State.remark_now]
  refine ⟨?_, ?_, ?_⟩
  · simp [State.calStart, Cal.setRun]
  · simp [State.calStart, Cal.setRun]
  · simp [State.calStart]

theorem execCalWindowEnd_accepts {tx : Bool} {e : CalEstimate} {r : CalRun} (hrun : (s.chan c).cal.run tx = some r)
    (hgathered : r.gathered tx = true) (hreason : r.reason tx ((s.chan c).cal.inForce c) e (s.calBad c tx e) = 0) :
    ∃ t, exec (.calWindowEnd c tx e) s = .next t ∧ (t.chan c).cal.run tx = some { r with
      apply := some (r.result tx ((s.chan c).cal.inForce c) e) } ∧ (t.chan c).cal.values = (s.chan c).cal.values ∧
      (r.initial = true → r.openNs + (if tx then 16384000 else 8192000) ≤ t.now) := by
  refine ⟨_, occursWith_some (a := r) _ (by simp [hon, hrun, hgathered]), ?_⟩
  rw [State.remark_chan_cal, State.remark_now]
  by_cases hinit : r.initial = true
  · rw [if_pos hinit]
    obtain ⟨hwaits, hvalues, hnow⟩ := State.calCheck_accepts
      (s := s.at (r.openNs + if tx then 16384000 else 8192000)) hreason
    refine ⟨hwaits, hvalues, fun _ => ?_⟩
    rw [hnow]
    exact Nat.le_max_right ..
  · rw [if_neg hinit]
    obtain ⟨hwaits, hvalues, -⟩ := State.calCheck_accepts hreason
    exact ⟨hwaits, hvalues, fun h => absurd h hinit⟩

theorem execCalWindowEnd_rejects {e : CalEstimate} {r : CalRun} {k : Nat} (hrun : (s.chan c).cal.rxRun = some r)
    (hgathered : r.gathered false = true) (hk : k ≠ 0)
    (hreason : r.reason false ((s.chan c).cal.inForce c) e (s.calBad c false e) = k) :
    ∃ t, exec (.calWindowEnd c false e) s = .next t ∧ (t.chan c).cal.values = (s.chan c).cal.values ∧
      (t.chan c).cal.rxRejects = (s.chan c).cal.rxRejects + 1 ∧ (t.chan c).cal.rxLast = k := by
  refine ⟨_, occursWith_some (a := r) _ (by simp [hon, Cal.run, hrun, hgathered]), ?_⟩
  rw [State.remark_chan_cal]
  split
  · exact State.calCheck_rejects (s := s.at (r.openNs + if false then 16384000 else 8192000)) hrun hk hreason
  · exact State.calCheck_rejects hrun hk hreason

/-- An accepted run whose boundary has come, or an initial one. -/
theorem execCalValuesApply_applies {tx : Bool} {r : CalRun} {q : CalResult} (hrun : (s.chan c).cal.run tx = some r)
    (hready : r.ready = true ∨ r.initial = true) (hq : r.apply = some q) : ∃ u : State, (∀ d, u.chan d = s.chan d) ∧
      exec (.calValuesApply c tx) s = .next (u.calValues c tx r q).remark := by
  refine ⟨if r.initial then s.at (s.calInstant c tx true) else s, fun d => ?_, occursWith_some (a := (r, q)) _ ?_⟩
  · split <;> rfl
  · have hgoes : (r.ready || r.initial) = true := by simpa using hready
    simp only [hon, hrun, if_true, Option.filter_some, hgoes, Option.bind_some, hq, Option.map_some]

theorem execCalValuesApply_rx {r : CalRun} {q : CalResult} (hrun : (s.chan c).cal.rxRun = some r)
    (hready : r.ready = true ∨ r.initial = true) (hq : r.apply = some q) : ∃ t, exec (.calValuesApply c false) s = .next t ∧
      (t.chan c).cal.values = some (r.applied false ((s.chan c).cal.inForce c) q.values) ∧
      (t.chan c).cal.rxRuns = (s.chan c).cal.rxRuns + 1 ∧ (t.chan c).cal.rxRejSeq = 0 ∧
      (t.chan c).cal.rxLast = (if q.slewed then 15 else 0) := by
  obtain ⟨u, hu, hrow⟩ := execCalValuesApply_applies hon (tx := false) hrun hready hq
  refine ⟨_, hrow, ?_⟩
  rw [State.remark_chan_cal, ← hu c]
  exact u.calValues_rx c r q

theorem execCalValuesApply_tx {r : CalRun} {q : CalResult} (hrun : (s.chan c).cal.txRun = some r)
    (hready : r.ready = true ∨ r.initial = true) (hq : r.apply = some q) : ∃ t, exec (.calValuesApply c true) s = .next t ∧
      (t.chan c).cal.values = some (r.applied true ((s.chan c).cal.inForce c) q.values) ∧
      (t.chan c).cal.txRuns = (s.chan c).cal.txRuns + 1 ∧ (t.chan c).cal.txRejSeq = 0 ∧
      (r.response = true → (t.chan c).cal.respNow c = q.resp) := by
  obtain ⟨u, hu, hrow⟩ := execCalValuesApply_applies hon (tx := true) hrun hready hq
  refine ⟨_, hrow, ?_⟩
  rw [State.remark_chan_cal, ← hu c]
  exact u.calValues_tx c r q

end Rows

/-- Settles O40: each command, and each step of a run through what it books. -/
theorem calibrationComplete : Obligations.CalibrationComplete := by
  unfold Obligations.CalibrationComplete
  intro s
  refine ⟨fun id c f hc => ⟨execCalConfig_sets hc, execCalRun_rx hc, execCalRun_tx hc, fun h => hc ▸ withCmd_started h _,
    fun h => hc ▸ withCmd_started h _⟩, fun c hon => ⟨execCalRunDue_starts hon, fun tx e r => execCalWindowEnd_accepts hon,
    fun e r k => execCalWindowEnd_rejects hon, fun r q => execCalValuesApply_rx hon, fun r q => execCalValuesApply_tx hon⟩⟩

end Sys2Proof.Machine
end

section
/-! The timing core: candidates, selection, the loop, the oscillator and the timing commands (14 R329 to R352). -/

namespace Sys2Proof.Machine

variable (s : State)

/-! ### What a selection leaves alone -/

/-- The timing core but for what a selection, a holdover or the loop's lock moves. -/
def Timing.plan (t : Timing) : Timing :=
  { t with
    state := .freeRun, ctrl := 0, hoValue := 0, hoStart := 0, hoEnd := 0, hoShort := false, hoNohist := false, hoHeld := false
    selected := none, bwNow := 0, bwDue := 0, acqNs := 0, lockedAll := false, steered := false }

theorem Timing.cands_of_plan {t u : Timing} (h : t.plan = u.plan) : t.cands = u.cands :=
  (congrArg Timing.cands h :)

theorem Timing.cand_of_plan {t u : Timing} (h : t.plan = u.plan) (k : Nat) : t.cand k = u.cand k := by
  simp only [Timing.cand, cands_of_plan h]

@[simp] theorem State.enterHoldover_plan (cause : Option Nat) : (s.enterHoldover cause).tm.plan = s.tm.plan := rfl

@[simp] theorem State.moveTo_plan (k : Nat) (cause : Option Nat) : (s.moveTo k cause).tm.plan = s.tm.plan := by
  simp only [State.moveTo, State.raise_tm]
  split <;> rfl

/-- A reselection keeps an eligible slot, moves to the best one, enters holdover, or leaves nothing selected. -/
theorem State.reselect_cases {P : State → Prop} (cause : Option Nat)
    (keep : (∀ k, s.tm.selected = some k → (s.tm.cand k).eligible = true) → P s)
    (move : ∀ j, s.tm.best = some j → P (s.moveTo j cause)) (hold : P (s.enterHoldover cause))
    (leave : P (s.onTm fun t => { t with selected := none })) : P (s.reselect cause) := by
  unfold State.reselect
  extract_lets t kept
  by_cases hkept : kept = true
  · rw [if_pos hkept]
    refine keep fun k hk => ?_
    have hk' : t.selected = some k := hk
    simp only [kept, hk', Bool.and_eq_true] at hkept
    exact hkept.1
  · rw [if_neg hkept]
    cases hb : t.best with
    | some j => exact move j hb
    | none =>
      dsimp only
      split
      · exact hold
      · exact leave

@[simp] theorem State.reselect_plan (cause : Option Nat) : (s.reselect cause).tm.plan = s.tm.plan :=
  s.reselect_cases (P := fun u => u.tm.plan = s.tm.plan) cause (fun _ => rfl) (fun _ _ => s.moveTo_plan ..)
    (s.enterHoldover_plan cause) rfl

@[simp] theorem State.selectOnce_plan (cause : Option Nat) : (s.selectOnce cause).tm.plan = s.tm.plan := by
  unfold State.selectOnce
  split
  · rfl
  · exact s.reselect_plan cause

theorem State.reselect_cand (cause : Option Nat) (k : Nat) : (s.reselect cause).tm.cand k = s.tm.cand k :=
  Timing.cand_of_plan (s.reselect_plan cause) k

theorem State.selectOnce_cand (cause : Option Nat) (k : Nat) : (s.selectOnce cause).tm.cand k = s.tm.cand k :=
  Timing.cand_of_plan (s.selectOnce_plan cause) k

theorem State.moveTo_aside (k : Nat) (cause : Option Nat) : s.Aside (s.moveTo k cause) :=
  ⟨fun _ h => List.mem_append_left _ h, rfl⟩

theorem State.enterHoldover_aside (cause : Option Nat) : s.Aside (s.enterHoldover cause) :=
  ⟨fun _ h => List.mem_append_left _ h, rfl⟩

theorem State.onTm_aside (g : Timing → Timing) : s.Aside (s.onTm g) := ⟨fun _ h => h, rfl⟩

theorem State.reselect_aside (cause : Option Nat) : s.Aside (s.reselect cause) :=
  s.reselect_cases (P := s.Aside) cause (fun _ => .rfl) (fun _ _ => s.moveTo_aside ..) (s.enterHoldover_aside cause) (s.onTm_aside _)

theorem State.selectOnce_aside (cause : Option Nat) : s.Aside (s.selectOnce cause) :=
  .ite .rfl (s.reselect_aside cause)

/-- A reselection leaves no slot selected that is not eligible. -/
theorem State.reselect_selected_ne {k : Nat} (cause : Option Nat) (h : (s.tm.cand k).eligible = false) :
    (s.reselect cause).tm.selected ≠ some k := by
  have hfound := s.tm.best_found
  refine s.reselect_cases (P := fun u => u.tm.selected ≠ some k) cause (fun hkept hk => ?_) (fun j hj hk => ?_)
    (fun hk => by cases hk) (fun hk => by cases hk)
  · rw [hkept k hk] at h
    cases h
  · rw [State.moveTo_selected] at hk
    rw [hj, Option.some.inj hk] at hfound
    rw [hfound.2.1] at h
    cases h

theorem Cand.not_eligible {c : Cand} (h : c.qual = .disqualified) : c.eligible = false := by simp [Cand.eligible, h]

/-- With no verdict outstanding, a slot that was disqualified is not selected. -/
theorem State.selectOnce_selected_ne {k : Nat} (cause : Option Nat) (hk : (s.tm.cand k).qual = .disqualified)
    (h : ∀ j, j < 8 → (s.tm.cand j).passed = false ∧ (s.tm.cand j).expired = none) :
    (s.selectOnce cause).tm.selected ≠ some k := by
  unfold State.selectOnce
  rw [if_neg]
  · exact s.reselect_selected_ne cause (Cand.not_eligible hk)
  · simp only [List.any_eq_true, List.mem_range, Bool.or_eq_true, not_exists, not_and, not_or]
    intro j hj
    simp [h j hj]

/-! ### Candidates -/

theorem Timing.cand_setCand_same (t : Timing) (k : Nat) (c : Cand) : (t.setCand k c).cand k = c := by
  simp [Timing.cand, Timing.setCand]

theorem Timing.cand_setCand_ne (t : Timing) {j k : Nat} (c : Cand) (h : j ≠ k) : (t.setCand k c).cand j = t.cand j := by
  simp [Timing.cand, Timing.setCand, h]

theorem State.onCand_same (k : Nat) (g : Cand → Cand) : (s.onCand k g).tm.cand k = g (s.tm.cand k) :=
  Timing.cand_setCand_same ..

theorem State.onCand_ne {j k : Nat} (g : Cand → Cand) (h : j ≠ k) : (s.onCand k g).tm.cand j = s.tm.cand j :=
  Timing.cand_setCand_ne _ _ h

theorem Timing.cand_taint (t : Timing) (k j : Nat) (onset : Int) : (t.taint k onset).cand j = t.cand j := rfl

/-- A slot's candidate after it is disqualified. -/
theorem State.disqualify_same (k cause : Nat) (undertow : Bool) :
    (s.disqualify k cause undertow).tm.cand k =
      { s.tm.cand k with qual := .disqualified, cause := cause, passS := 0, pending := none, passed := false, expired := none } := by
  simp only [State.disqualify, State.raise_tm, State.onTm_tm]
  exact Timing.cand_setCand_same ..

theorem State.disqualify_ne {j k : Nat} (cause : Nat) (undertow : Bool) (h : j ≠ k) :
    (s.disqualify k cause undertow).tm.cand j = s.tm.cand j := by
  simp only [State.disqualify, State.raise_tm, State.onTm_tm, Timing.cand_setCand_ne _ _ h]
  split
  · split <;> rfl
  · rfl

theorem State.disqualify_event (k cause : Nat) (undertow : Bool) :
    ∃ e ∈ (s.disqualify k cause undertow).batch, e.source = 32 ∧ e.code = 0x1641 :=
  State.raise_event ..

/-- A slot that has lost its activity. -/
theorem State.dropActivity_same (k : Nat) :
    ((s.dropActivity k).tm.cand k).active = false ∧ ((s.dropActivity k).tm.cand k).qual = .disqualified := by
  simp only [State.dropActivity, State.onCand_same]
  refine ⟨trivial, ?_⟩
  split
  · next h => exact h
  · rw [State.disqualify_same]

theorem State.dropActivity_ne {j k : Nat} (h : j ≠ k) : (s.dropActivity k).tm.cand j = s.tm.cand j := by
  simp only [State.dropActivity, State.onCand_ne _ _ h]
  split
  · rfl
  · exact s.disqualify_ne _ _ h

/-- No verdict of the last evaluation of slot j is outstanding. -/
def State.Judged (j : Nat) : Prop := (s.tm.cand j).passed = false ∧ (s.tm.cand j).expired = none

theorem State.dropActivity_judged {j : Nat} (k : Nat) (h : s.Judged j) : (s.dropActivity k).Judged j := by
  by_cases hj : j = k
  · subst hj
    simp only [State.Judged, State.dropActivity, State.onCand_same, and_self]
  · simpa only [State.Judged, s.dropActivity_ne hj] using h

theorem State.dropActivity_judged_same (k : Nat) : (s.dropActivity k).Judged k := by
  simp only [State.Judged, State.dropActivity, State.onCand_same, and_self]

/-- Slot k has lost its activity. -/
def State.Lost (k : Nat) : Prop := (s.tm.cand k).active = false ∧ (s.tm.cand k).qual = .disqualified ∧ s.Judged k

theorem State.dropActivity_lost {j : Nat} (k : Nat) (h : s.Lost j) : (s.dropActivity k).Lost j := by
  obtain ⟨ha, hq, hj⟩ := h
  refine ⟨?_, ?_, s.dropActivity_judged k hj⟩ <;> by_cases hjk : j = k
  · subst hjk; exact (s.dropActivity_same j).1
  · rwa [s.dropActivity_ne hjk]
  · subst hjk; exact (s.dropActivity_same j).2
  · rwa [s.dropActivity_ne hjk]

/-- Every slot of the list has lost its activity after them all. -/
theorem State.foldl_dropActivity_lost {k : Nat} (ks : List Nat) (h : k ∈ ks ∨ s.Lost k) :
    (ks.foldl State.dropActivity s).Lost k := by
  induction ks generalizing s with
  | nil => simpa using h
  | cons j ks ih =>
    refine ih (s.dropActivity j) ?_
    rcases h with h | h
    · rcases List.mem_cons.1 h with rfl | h
      · exact .inr ⟨(s.dropActivity_same k).1, (s.dropActivity_same k).2, s.dropActivity_judged_same k⟩
      · exact .inl h
    · exact .inr (s.dropActivity_lost j h)

theorem State.foldl_dropActivity_judged {j : Nat} (ks : List Nat) (h : s.Judged j) :
    (ks.foldl State.dropActivity s).Judged j :=
  foldl_inv_of (fun s : State => s.Judged j) _ _ s (fun s k h => s.dropActivity_judged k h) h

/-! ### Edges and LOOP_CTRL -/

/-- A slot's candidate once its input's edges are seen. -/
def Cand.edged (edges : List (Fin 8)) (k : Nat) (c : Cand) : Cand :=
  if c.enable && c.src ≠ 4 && (edges.map Fin.val).contains k then { c with active := true } else c

theorem Sparse.get_map_keyed {α : Type} {d : α} {g : Nat → α → α} {i : Nat} (hd : g i d = d) (m : Sparse α) :
    Sparse.get d (m.map fun p => (p.1, g p.1 p.2)) i = g i (m.get d i) := by
  induction m with
  | nil => exact hd.symm
  | cons p m ih =>
    simp only [List.map_cons, Sparse.get, ih]
    split
    · next h => rw [h]
    · rfl

theorem Timing.cand_seen (t : Timing) (loop : Int) (edges : List (Fin 8)) (k : Nat) :
    (t.seen loop edges).cand k = (t.cand k).edged edges k :=
  Sparse.get_map_keyed (g := Cand.edged edges) rfl t.cands

theorem Cand.edged_cases (edges : List (Fin 8)) (k : Nat) (c : Cand) :
    c.edged edges k = c ∨ c.edged edges k = { c with active := true } := by
  unfold Cand.edged
  split
  · exact .inr rfl
  · exact .inl rfl

theorem Cand.edged_of_none {edges : List (Fin 8)} {k : Nat} (c : Cand) (h : ∀ e ∈ edges, e.val ≠ k) : c.edged edges k = c := by
  unfold Cand.edged
  rw [if_neg]
  simp only [Bool.and_eq_true, not_and, List.contains_iff_mem, List.mem_map, not_exists]
  exact fun _ e he => h e he

/-- A descriptor's settings do not depend on whether edges were seen, but for the activity that is kept. -/
theorem Cand.edged_withFields (edges : List (Fin 8)) (k : Nat) (c : Cand) (d : Desc) :
    ∃ a, (c.edged edges k).withFields d = { c.withFields d with active := a } := by
  rcases c.edged_cases edges k with h | h <;> rw [h]
  · exact ⟨c.active, rfl⟩
  · exact ⟨true, rfl⟩

/-! ### Setting a candidate (R332) -/

/-- What the host sets of a candidate. -/
def Cand.settings (c : Cand) : Cand :=
  { c with
    active := false, qual := .qualifying, passS := 0, pending := none, passed := false, expired := none, cause := 0, rel := false
    drift := 0, ofs := 0, hist := [], since := 0 }

theorem State.setCandidate_settings (k : Nat) (new : Cand) (edges : Bool) :
    ((s.setCandidate k new edges).tm.cand k).settings = new.settings := by
  unfold State.setCandidate
  dsimp only
  split
  · rw [State.reselect_cand, State.onCand_same]; rfl
  · rw [State.reselect_cand, State.onCand_same]

/-- A candidate that replaces another one is active when its external input shows edges. -/
theorem State.setCandidate_active {k : Nat} {new : Cand} (h : (s.tm.cand k).replaces new = true) (he : new.enable = true)
    (hs : new.src ≠ 4) : ((s.setCandidate k new true).tm.cand k).active = true := by
  unfold State.setCandidate
  simp only [h, if_true, State.reselect_cand, State.onCand_same, he, hs, if_false, Bool.and_self]

theorem State.setCandidate_kept {k : Nat} {new : Cand} (edges : Bool) (h : (s.tm.cand k).replaces new = false) :
    (s.setCandidate k new edges).tm.cand k = new := by
  unfold State.setCandidate
  simp only [h, Bool.false_eq_true, if_false, State.reselect_cand, State.onCand_same]

theorem State.setCandidate_ne {j k : Nat} (new : Cand) (edges : Bool) (h : j ≠ k) :
    (s.setCandidate k new edges).tm.cand j = s.tm.cand j := by
  unfold State.setCandidate
  dsimp only
  split
  · simp only [State.reselect_cand, State.onCand_ne _ _ h]
    split
    · exact s.disqualify_ne _ _ h
    · rfl
  · simp only [State.reselect_cand, State.onCand_ne _ _ h]

/-- Settings that replace nothing keep the activity that an edge gave. -/
theorem Cand.edged_active {edges : List (Fin 8)} {k : Nat} {c new : Cand} (hr : c.replaces new = false)
    (he : new.enable = true) (hs : new.src ≠ 4) (hk : ∃ e ∈ edges, e.val = k) : (c.edged edges k).active = true := by
  simp only [Cand.replaces, Bool.or_eq_false_iff, decide_eq_false_iff_not, not_not] at hr
  obtain ⟨⟨⟨hsrc, -⟩, -⟩, hen⟩ := hr
  unfold Cand.edged
  rw [if_pos]
  simp only [hsrc, hen, he, hs, Bool.and_eq_true, ne_eq, not_false_eq_true, decide_true, true_and, List.contains_iff_mem, List.mem_map]
  exact hk

/-! ### The end of a second (R333, R340) -/

/-- The instant, when the present second ends, and how many seconds are recorded. -/
def State.secondLog : Nat × Nat × Nat := (s.now, s.tm.secDue, s.tm.history.length)

theorem State.disqualify_secondLog (k cause : Nat) (undertow : Bool) : (s.disqualify k cause undertow).secondLog = s.secondLog := by
  refine congrArg₂ Prod.mk rfl ?_
  simp only [State.disqualify, State.raise_tm, State.onTm_tm, Timing.setCand]
  split
  · split
    · simp [Timing.taint]
    · rfl
  · rfl

theorem State.dropActivity_secondLog (k : Nat) : (s.dropActivity k).secondLog = s.secondLog := by
  have hstruck : (if (s.tm.cand k).qual = .disqualified then s else s.disqualify k 1 true).secondLog = s.secondLog := by
    split
    · rfl
    · exact s.disqualify_secondLog ..
  exact hstruck

theorem State.measureCand_secondLog (sec k : Nat) (m : Option Int) : (s.measureCand sec k m).secondLog = s.secondLog := by
  unfold State.measureCand
  dsimp only
  split
  · rfl
  · split
    · split <;> rfl
    · split
      · exact s.dropActivity_secondLog k
      · rfl

theorem State.evalCand_secondLog (sec k : Nat) : (s.evalCand sec k).secondLog = s.secondLog := by
  unfold State.evalCand
  dsimp only
  split
  · rfl
  · split
    · rfl
    · split <;> rfl

theorem State.reselect_secondLog (cause : Option Nat) : (s.reselect cause).secondLog = s.secondLog := by
  refine s.reselect_cases (P := fun u => u.secondLog = s.secondLog) cause (fun _ => rfl) (fun j _ => ?_) rfl rfl
  exact congrArg₂ Prod.mk rfl (congrArg (fun t : Timing => (t.secDue, t.history.length)) (s.moveTo_plan j cause) :)

theorem State.selectOnce_secondLog (cause : Option Nat) : (s.selectOnce cause).secondLog = s.secondLog := by
  unfold State.selectOnce
  split
  · rfl
  · exact s.reselect_secondLog cause

/-- A second's end is recorded once, and what is then measured and judged changes nothing of the record's length. -/
theorem State.timingSecond_secondLog (ofs : List (Option Int)) (ctrl mean : Int) :
    (s.timingSecond ofs ctrl mean).secondLog = ((s.at s.tm.secDue).onTm fun t => t.secondEnds ctrl mean).secondLog := by
  unfold State.timingSecond
  extract_lets u sec v lost w x
  have hw : w.secondLog = v.secondLog := foldl_eq_of State.secondLog _ _ _ fun s k => s.measureCand_secondLog ..
  have hx : x.secondLog = v.secondLog := (foldl_eq_of State.secondLog _ _ _ fun s k => s.evalCand_secondLog ..).trans hw
  have hdraw (y : State) : y.draw.secondLog = y.secondLog := rfl
  rw [hdraw]
  cases lost with
  | some k => exact (x.selectOnce_secondLog _).trans hx
  | none => exact hx

/-! ### The commands and rows -/

variable {s : State} {id : Nat} {f : Flight}

/-- A TIMING_CAND_SET that passes its checks puts its settings on the slot, whose input may show edges at that instant. -/
theorem timingCandSet_does {x : TimingIn} {k : Nat} {new : Cand} (h : s.Started x.id 0x1600 f) (hk : k = f.desc.p0.bits 2 0)
    (hnew : new = (s.tm.cand k).withFields f.desc) (hok : new.fieldsOk = true)
    (hfree : ∀ j, j < 8 → j ≠ k → (s.tm.cand j).enable = true → (s.tm.cand j).sameSource new = false) :
    s.Does (.timingCandSet x) (((s.onTm fun _ => s.tm.seen x.loop x.edges).setCandidate k
      { new with active := ((s.tm.cand k).edged x.edges k).active } ((x.edges.map Fin.val).contains k)).finish f 0) := by
  have hput : ((s.tm.seen x.loop x.edges).cand k).withFields f.desc =
      { new with active := ((s.tm.cand k).edged x.edges k).active } := by
    rw [Timing.cand_seen, hnew]
    rcases Cand.edged_cases x.edges k (s.tm.cand k) with h | h <;> rw [h] <;> rfl
  have hoff (j : Nat) (hj : j < 8) :
      ¬(j ≠ k ∧ (s.tm.cand j).enable = true ∧ (s.tm.cand j).sameSource new = true) := fun ⟨hjk, he, hsame⟩ => by
    rw [hfree j hj hjk he] at hsame
    cases hsame
  refine (withCmd_started h _).trans ?_
  dsimp only
  rw [← hk, hput, if_neg, if_neg]
  · simpa [List.any_eq_true, Cand.sameSource, and_assoc] using hoff
  · have hok' : ({ new with active := ((s.tm.cand k).edged x.edges k).active } : Cand).fieldsOk = true := hok
    rw [hok']
    exact Bool.false_ne_true

/-- TIMING_CAND_SET's result. -/
theorem timingCandSet_sets {x : TimingIn} {k : Nat} {new : Cand} (h : s.Started x.id 0x1600 f) (hk : k = f.desc.p0.bits 2 0)
    (hnew : new = (s.tm.cand k).withFields f.desc) (hok : new.fieldsOk = true)
    (hfree : ∀ j, j < 8 → j ≠ k → (s.tm.cand j).enable = true → (s.tm.cand j).sameSource new = false) :
    ∃ t, exec (.timingCandSet x) s = .next t ∧ t.flight? f.id = none ∧ (t.tm.cand k).settings = new.settings ∧
      (new.enable = true → new.src ≠ 4 → (∃ e ∈ x.edges, e.val = k) → (t.tm.cand k).active = true) ∧
      ∀ j, j ≠ k → (∀ e ∈ x.edges, e.val ≠ j) → t.tm.cand j = s.tm.cand j := by
  refine ⟨_, timingCandSet_does h hk hnew hok hfree, by simp, ?_, fun he hs hedge => ?_, fun j hj hnone => ?_⟩
  · rw [State.remark_tm, State.finish_tm, State.setCandidate_settings]
    rfl
  · have hcand : (s.onTm fun _ => s.tm.seen x.loop x.edges).tm.cand k = (s.tm.cand k).edged x.edges k := s.tm.cand_seen ..
    have hreplaces (c : Cand) (a : Bool) : (c.edged x.edges k).replaces { new with active := a } = c.replaces new := by
      rcases Cand.edged_cases x.edges k c with h | h <;> rw [h] <;> rfl
    have hedges : (x.edges.map Fin.val).contains k = true := by simpa using hedge
    rw [State.remark_tm, State.finish_tm, hedges]
    cases hr : (s.tm.cand k).replaces new with
    | true => exact State.setCandidate_active _ (by rw [hcand, hreplaces, hr]) he hs
    | false =>
      rw [State.setCandidate_kept _ _ (by rw [hcand, hreplaces, hr])]
      exact Cand.edged_active hr he hs hedge
  · rw [State.remark_tm, State.finish_tm, State.setCandidate_ne _ _ _ hj]
    exact (s.tm.cand_seen ..).trans (Cand.edged_of_none _ hnone)

theorem timingConfig_sets (h : s.Started id 0x1601 f) (hbw : f.desc.p0.bits 2 0 ≤ 6) (hwin : 1 ≤ f.desc.p0.bits 14 4)
    (hwin' : f.desc.p0.bits 14 4 ≤ 1024) (hguard : 10 ≤ f.desc.p0.bits 28 15) (hguard' : f.desc.p0.bits 28 15 ≤ 14400)
    (hut : 60 ≤ f.desc.p0.bits 40 29) (hut' : f.desc.p0.bits 40 29 ≤ 3600) (hoff : 1 ≤ f.desc.p0.bits 52 41)
    (hoff' : f.desc.p0.bits 52 41 ≤ 3600) :
    ∃ t, exec (.timingConfig id) s = .next t ∧ t.flight? f.id = none ∧ t.tm.bw = f.desc.p0.bits 2 0 ∧
      t.tm.revert = f.desc.p0.bit 3 ∧ t.tm.hoWin = f.desc.p0.bits 14 4 ∧ t.tm.guard = f.desc.p0.bits 28 15 ∧
      t.tm.utWin = f.desc.p0.bits 40 29 ∧ t.tm.holdoff = f.desc.p0.bits 52 41 ∧ t.tm.cands = s.tm.cands := by
  have hok : ¬ (6 < f.desc.p0.bits 2 0 || f.desc.p0.bits 14 4 = 0 || 1024 < f.desc.p0.bits 14 4 || f.desc.p0.bits 28 15 < 10 ||
      14400 < f.desc.p0.bits 28 15 || f.desc.p0.bits 40 29 < 60 || 3600 < f.desc.p0.bits 40 29 || f.desc.p0.bits 52 41 = 0 ||
      3600 < f.desc.p0.bits 52 41) = true := by
    simp only [Bool.or_eq_true, decide_eq_true_eq]
    omega
  refine ⟨_, withCmd_started h _, ?_⟩
  dsimp only
  rw [if_neg hok]
  simp only [State.remark_flight?, State.finish_flight?_same, State.remark_tm, State.finish_tm, true_and]
  generalize hu : (s.onTm fun t => { t with
    bw := f.desc.p0.bits 2 0, revert := f.desc.p0.bit 3, hoWin := f.desc.p0.bits 14 4, guard := f.desc.p0.bits 28 15
    utWin := f.desc.p0.bits 40 29, holdoff := f.desc.p0.bits 52 41
    bwNow := if t.state = .locked then f.desc.p0.bits 2 0 else t.bwNow }) = u
  have hplan := u.reselect_plan none
  subst hu
  exact ⟨(congrArg Timing.bw hplan :), (congrArg Timing.revert hplan :), (congrArg Timing.hoWin hplan :),
    (congrArg Timing.guard hplan :), (congrArg Timing.utWin hplan :), (congrArg Timing.holdoff hplan :),
    (congrArg Timing.cands hplan :)⟩

theorem chanTiming_sets (h : s.Started id 0x1610 f) (hm : f.desc.p0.bits 1 0 ≠ 3)
    (hgroup : f.desc.p0.bits 1 0 = 0 ∨ s.inGroup f.desc.target = false) :
    ((s.chan f.desc.target).pw.level = .dark ∨ (s.chan f.desc.target).pm.mode = .leaf →
      ∃ t, exec (.chanTiming id) s = .next t ∧ (t.chan f.desc.target).bu.timing = f.desc.p0.bits 1 0 ∧ t.flight? f.id = none) ∧
    ((s.chan f.desc.target).pw.level ≠ .dark → (s.chan f.desc.target).pm.mode ≠ .leaf →
      ∃ t, exec (.chanTiming id) s = .next t ∧ (t.chan f.desc.target).bu.timing = (s.chan f.desc.target).bu.timing ∧
        (t.chan f.desc.target).bu.timingCmds = (s.chan f.desc.target).bu.timingCmds ++ [(id, f.desc.p0.bits 1 0)]) := by
  have hok : ¬ (f.desc.p0.bits 1 0 = 3 || (f.desc.p0.bits 1 0 ≠ 0 && s.inGroup f.desc.target)) = true := by
    rcases hgroup with h | h <;> simp [h, hm]
  refine ⟨fun hnow => ⟨_, withCmd_started h _, ?_⟩, fun hlevel hmode => ⟨_, withCmd_started h _, ?_⟩⟩ <;> dsimp only <;> rw [if_neg hok]
  · rw [if_pos (by simpa using hnow)]
    simp [State.onChan]
  · rw [if_neg (by simp [hlevel, hmode])]
    simp [State.onChan]

theorem timingSecond_ends (hp : s.boot.powered = true) (ofs : List (Option Int)) (ctrl mean : Int) :
    ∃ t, exec (.timingSecond ofs ctrl mean) s = .next t ∧ t.tm.secDue = s.tm.secDue + 1000000000 ∧ s.tm.secDue ≤ t.now ∧
      (s.tm.oscWarm = true → t.tm.history ≠ []) := by
  refine ⟨_, occurs_true _ hp, ?_⟩
  have hlog := s.timingSecond_secondLog ofs ctrl mean
  simp only [State.secondLog, Prod.mk.injEq] at hlog
  obtain ⟨hnow, hdue, hlen⟩ := hlog
  rw [State.remark_tm, State.remark_now]
  refine ⟨hdue, hnow ▸ le_max_right s.now s.tm.secDue, fun hwarm hnil => ?_⟩
  rw [hnil] at hlen
  simp [Timing.secondEnds, hwarm] at hlen

theorem holdoffExpiry_disqualifies (hp : s.boot.powered = true) {k : Fin 8} {d : Bool} (he : (s.tm.cand k).enable = true)
    (ha : (s.tm.cand k).active = true) (hd : (s.tm.cand k).expired = some d) :
    ∃ t, exec (.holdoffExpiry k) s = .next t ∧ (t.tm.cand k).qual = .disqualified ∧
      (t.tm.cand k).cause = (if d then 3 else 2) ∧ (t.tm.cand k).pending = none ∧
      ((∀ j, j < 8 → j ≠ k.val → (s.tm.cand j).passed = false ∧ (s.tm.cand j).expired = none) → t.tm.selected ≠ some k.val) ∧
      ∃ e ∈ t.batch, e.source = 32 ∧ e.code = 0x1641 := by
  refine ⟨_, occursWith_some (a := d) _ (by simp [hp, he, ha, hd]), ?_⟩
  have hsame := s.disqualify_same k (if d then 3 else 2) true
  have hne (j : Nat) (hj : j ≠ k) := s.disqualify_ne (k := k) (if d then 3 else 2) true hj
  obtain ⟨e, hmem, hevent⟩ := s.disqualify_event k (if d then 3 else 2) true
  generalize s.disqualify k (if d then 3 else 2) true = u at hsame hne hmem
  simp only [State.remark_tm, State.selectOnce_cand, hsame, true_and]
  refine ⟨fun hothers => ?_, e, State.remark_batch ((u.selectOnce_aside _).batch hmem), hevent⟩
  refine u.selectOnce_selected_ne _ (by rw [hsame]) fun j hj => ?_
  by_cases hjk : j = k
  · rw [hjk, hsame]; exact ⟨rfl, rfl⟩
  · rw [hne j hjk]; exact hothers j hj hjk

theorem candidateActivityLoss_drops (hp : s.boot.powered = true) {k : Fin 8} (also : List (Fin 8)) (loop : Int)
    (he : (s.tm.cand k).enable = true) (hs : (s.tm.cand k).src ≠ 4) :
    ∃ t, exec (.candidateActivityLoss ⟨k, also, loop⟩) s = .next t ∧ (t.tm.cand k).active = false ∧
      (t.tm.cand k).qual = .disqualified ∧
      ((∀ j, j < 8 → j ≠ k.val → (s.tm.cand j).passed = false ∧ (s.tm.cand j).expired = none) → t.tm.selected ≠ some k.val) := by
  have hlosable : s.losable k = true := by simp [State.losable, he, hs]
  have hmem : k.val ∈ s.losers ⟨k, also, loop⟩ := by simp [State.losers, hlosable]
  refine ⟨_, occurs_true _ (by simp [hp, hlosable]), ?_⟩
  dsimp only
  generalize hseen : (s.onTm fun t => t.seen loop []) = v
  obtain ⟨hactive, hqual, hjudged⟩ := v.foldl_dropActivity_lost _ (.inl hmem)
  have hothers (j : Nat) (h : s.Judged j) : ((s.losers ⟨k, also, loop⟩).foldl State.dropActivity v).Judged j := by
    refine v.foldl_dropActivity_judged _ ?_
    subst hseen
    have hcand : (s.onTm fun t => t.seen loop []).tm.cand j = s.tm.cand j :=
      (s.tm.cand_seen ..).trans (Cand.edged_of_none _ (by simp))
    rwa [State.Judged, hcand]
  generalize (s.losers ⟨k, also, loop⟩).foldl State.dropActivity v = u at *
  simp only [State.remark_tm, State.selectOnce_cand]
  refine ⟨hactive, hqual, fun hall => u.selectOnce_selected_ne _ hqual fun j hj => ?_⟩
  by_cases hjk : j = k
  · exact hjk ▸ hjudged
  · exact hothers j (hall j hj hjk)

theorem candidateQualified_qualifies (hp : s.boot.powered = true) {k : Fin 8} (he : (s.tm.cand k).enable = true)
    (ha : (s.tm.cand k).active = true) (hpass : (s.tm.cand k).passed = true) :
    ∃ t, exec (.candidateQualified k) s = .next t ∧ (t.tm.cand k).qual = .qualified ∧
      ∃ e ∈ t.batch, e.source = 32 ∧ e.code = 0x1640 ∧ e.detail0 = BitVec.ofNat 64 k := by
  refine ⟨_, occurs_true _ (by simp [hp, he, ha, hpass]), ?_, ?_⟩
  · rw [State.remark_tm, State.selectOnce_cand, State.raise_tm, State.onCand_same]
  · have hraised : ∃ e ∈ ((s.onCand k fun c => { c with qual := .qualified, passed := false }).raise 32 0x1640 1
        (BitVec.ofNat 64 k)).batch, e.source = 32 ∧ e.code = 0x1640 ∧ e.detail0 = BitVec.ofNat 64 k :=
      ⟨_, List.mem_append_right _ (List.mem_singleton_self _), rfl, rfl, rfl⟩
    obtain ⟨e, hmem, hevent⟩ := hraised
    exact ⟨e, State.remark_batch ((State.selectOnce_aside _ none).batch hmem), hevent⟩

theorem loopBwStep_locks (hp : s.boot.powered = true) (ha : s.tm.state = .acquiring) (hb : s.tm.bwNow = s.tm.bw) :
    ∃ t, exec .loopBwStep s = .next t ∧ t.tm.state = .locked ∧ ∃ e ∈ t.batch, e.source = 32 ∧ e.code = 0x1644 := by
  have hstep : s.bwStep.tm.state = .locked ∧ ∃ e ∈ s.bwStep.batch, e.source = 32 ∧ e.code = 0x1644 := by
    simp only [State.bwStep, State.at_tm, hb, if_true]
    exact ⟨rfl, State.raise_event ..⟩
  obtain ⟨hlocked, e, he, hevent⟩ := hstep
  exact ⟨_, occurs_true _ (by simp [hp, ha]), (by rw [State.remark_tm, hlocked]), e, State.remark_batch he, hevent⟩

theorem loopBwStep_narrows (hp : s.boot.powered = true) (ha : s.tm.state = .acquiring) (hb : s.tm.bw < s.tm.bwNow) :
    ∃ t, exec .loopBwStep s = .next t ∧ t.tm.state = .acquiring ∧ t.tm.bwNow = s.tm.bwNow - 1 := by
  have hstep : s.bwStep.tm.state = s.tm.state ∧ s.bwStep.tm.bwNow = s.tm.bwNow - 1 := by
    simp only [State.bwStep, State.at_tm, hb.ne', if_false, hb, if_true, and_self]
  refine ⟨_, occurs_true _ (by simp [hp, ha]), ?_⟩
  simp only [State.remark_tm, hstep, ha, and_self]

theorem oscAgeingFit_closesDay (hp : s.boot.powered = true) :
    ∃ t, exec .oscAgeingFit s = .next t ∧ t.tm.dayDue = s.tm.dayDue + 86400 ∧ t.tm.dayN = 0 ∧
      (s.tm.state ≠ .locked → t.tm.ageing = s.tm.ageing) := by
  refine ⟨_, occurs_true _ hp, ?_⟩
  simp only [State.remark_tm, State.ageingFit, State.draw_tm, true_and]
  intro h
  simp [h]

/-- Settles O42: a selection moves nothing of the candidates and their settings, and takes no slot that is not eligible; each row
then answers its own effect. -/
theorem timingComplete : Obligations.TimingComplete := by
  unfold Obligations.TimingComplete
  refine ⟨fun s id f => ⟨?_, ?_, ?_, ?_, fun h hm hg => chanTiming_sets h hm hg⟩, fun s hp => ⟨fun ofs ctrl mean => timingSecond_ends hp ofs ctrl mean,
    fun k p d he ha _ hd => holdoffExpiry_disqualifies hp he ha hd,
    fun k also loop he hs => candidateActivityLoss_drops hp also loop he hs,
    fun k he ha hpass => candidateQualified_qualifies hp he ha hpass, fun ha hb => loopBwStep_locks hp ha hb,
    fun ha hb => loopBwStep_narrows hp ha hb, fun hw => ?_, fun hg hl => ?_, oscAgeingFit_closesDay hp⟩⟩
  · rintro x k new rfl h hk hnew hok hfree
    obtain ⟨t, ht, hdone, hset, hactive, hothers⟩ := timingCandSet_sets h hk hnew hok hfree
    subst hnew
    exact ⟨t, ht, hdone, (congrArg Cand.enable hset :), (congrArg Cand.src hset :), (congrArg Cand.prio hset :),
      (congrArg Cand.quality hset :), (congrArg Cand.lockout hset :), (congrArg Cand.tol hset :), hactive, hothers⟩
  · exact fun h hbw hwin hwin' hguard hguard' hut hut' hoff hoff' =>
      timingConfig_sets h hbw hwin hwin' hguard hguard' hut hut' hoff hoff'
  · rintro x rfl h
    exact withCmd_started h _
  · exact fun h => withCmd_started h _
  · exact ⟨_, occurs_true _ (by simp [hp, hw]), by simp, by simp [State.at]⟩
  · exact ⟨_, occurs_true _ (by simp [hp, hg, hl]), by simp⟩

end Sys2Proof.Machine
end

section
/-! Identity, firmware images, the fuse ledger's settings, the key-encryption key and the random bit generator (20 R437 to R453; 07
R143). -/

namespace Sys2Proof.Machine

variable (s : State)

/-! ### Slots of firmware images -/

@[simp] theorem Security.running_setSlot_other (x : Security) (i : Option Image) : (x.setSlot (!x.runB) i).running = x.running := by
  cases h : x.runB <;> simp [Security.setSlot, Security.running, Security.slot, h]

@[simp] theorem Security.standby_setSlot_other (x : Security) (i : Option Image) : (x.setSlot (!x.runB) i).standby = i := by
  cases h : x.runB <;> simp [Security.setSlot, Security.standby, Security.slot, h]

@[simp] theorem Security.imageWrites_setSlot (x : Security) (b : Bool) (i : Option Image) :
    (x.setSlot b i).imageWrites = x.imageWrites := by
  cases b <;> rfl

/-- The end of a write leaves the running image, and puts a valid one in the standby slot. -/
theorem State.imageDone_slots (id : Nat) (bs : List Byte) :
    (s.imageDone id bs).sec.running = s.sec.running ∧
      (s.imageDone id bs).sec.standby = if s.sec.imageStatus bs = 0 then some (imageOf bs) else s.sec.standby := by
  unfold State.imageDone
  extract_lets u st i
  have hst : st = s.sec.imageStatus bs := rfl
  rw [← hst]
  by_cases h : st ≠ 0
  · rw [if_pos h, if_neg h, State.finishId_sec]
    exact ⟨rfl, rfl⟩
  · rw [if_neg h, if_pos (not_not.1 h), State.finishId_sec, State.raise_sec, State.onSec_sec]
    exact ⟨u.sec.running_setSlot_other _, u.sec.standby_setSlot_other _⟩

/-! ### The random bit generator -/

/-- What tells whether the generator gives output: whether it is instantiated and tested, its requests, whether the source fails, and
the instant. -/
def State.gate : Bool × Bool × Nat × Bool × Nat := (s.sec.drbg, s.sec.tested, s.sec.requests, s.sec.failing, s.now)

theorem State.setMaskGen_gate (k : Nat) (x : MaskGen) : (s.setMaskGen k x).gate = s.gate := by
  unfold State.setMaskGen
  split <;> rfl

theorem State.setMaskGen_batch (k : Nat) (x : MaskGen) : (s.setMaskGen k x).batch = s.batch := by
  unfold State.setMaskGen
  split <;> rfl

theorem State.onSec_instantiated_gate (d : Drbg) (due : Nat) :
    (s.onSec fun x => { x.setGenerator d with tested := true, drbg := true, requests := 0, reseedDue := due }).gate =
      (true, true, 0, s.sec.failing, s.now) := rfl

theorem State.instantiateMasks_gate (ks : List Nat) :
    ((ks.foldl (fun s k => s.setMaskGen k ((s.maskGen k).instantiate s.free (2 * k + 2))) s).draw).gate = s.gate := by
  have hdraw (u : State) : u.draw.gate = u.gate := rfl
  rw [hdraw, foldl_eq_of State.gate _ _ _ fun s k => s.setMaskGen_gate ..]

theorem State.instantiate_gate : s.instantiate.gate = (true, true, 0, s.sec.failing, s.now) := by
  unfold State.instantiate
  generalize Drbg.zero.reseed _ = d
  rw [State.instantiateMasks_gate]
  exact s.onSec_instantiated_gate d _

theorem State.instantiate_batch : s.instantiate.batch = s.batch := by
  unfold State.instantiate
  generalize Drbg.zero.reseed _ = d
  rw [State.draw_batch, foldl_eq_of (·.batch) _ _ _ fun s k => s.setMaskGen_batch .., State.onSec_batch]

theorem State.reseed_sec :
    ∃ d, s.reseed.sec = { s.sec.setGenerator d with drbg := true, requests := 0, reseedDue := s.now + 1000000000 } := by
  refine ⟨s.sec.generator.reseed (entropyOutput s.free 0), ?_⟩
  rw [State.reseed, State.draw_sec, State.onSec_sec]

theorem State.canDraw_of_gate {s : State} {tested failing : Bool} {requests now : Nat}
    (h : s.gate = (true, tested, requests, failing, now)) (hf : failing = false) : s.canDraw = true := by
  simp only [State.gate, Prod.mk.injEq] at h
  obtain ⟨hdrbg, -, -, hfailing, -⟩ := h
  simp [State.canDraw, hdrbg, hfailing, hf]

/-- A request moves nothing but the generator. -/
theorem State.request_kept (n : Nat) :
    (s.request n).jobKeys = s.jobKeys ∧ (∀ c, (s.request n).chan c = s.chan c) ∧
      (s.request n).sec.kek = s.sec.kek ∧ (s.request n).sec.kekGen = s.sec.kekGen := by
  have hready : s.ready.jobKeys = s.jobKeys ∧ (∀ c, s.ready.chan c = s.chan c) ∧ s.ready.sec.kek = s.sec.kek ∧
      s.ready.sec.kekGen = s.sec.kekGen := by
    unfold State.ready
    split
    · obtain ⟨d, hd⟩ := s.reseed_sec
      exact ⟨by rw [State.reseed, State.draw_jobKeys, State.onSec_jobKeys],
        fun c => by rw [State.reseed, State.draw_chan, State.onSec_chan], by rw [hd]; rfl, by rw [hd]; rfl⟩
    · exact ⟨rfl, fun _ => rfl, rfl, rfl⟩
  obtain ⟨hjobs, hchan, hkek, hgen⟩ := hready
  simp only [State.request, State.draw_jobKeys, State.draw_chan, State.draw_sec, State.onSec_jobKeys, State.onSec_chan, State.onSec_sec,
    Security.setGenerator, hjobs, hchan, hkek, hgen, implies_true, and_self]

/-- A new key-encryption key that is reported and answered changes no job key and no line cipher context. -/
theorem State.newKek_holds (f : Flight) (kek : BitVec 256) (gen : BitVec 32) (d0 : Word) (bs : List Byte) {t : State}
    (ht : t = ((((s.onSec fun x => { x with kek := some kek, kekGen := gen }).request 32).raise 32 0x1A26 1 d0).writeBuf f 64 bs).finish
      f 0) :
    t.sec.kek.isSome = true ∧ t.sec.kekGen = gen ∧ t.jobKeys = s.jobKeys ∧ ∀ c, (t.chan c).cx = (s.chan c).cx := by
  have hkept := (s.onSec fun x => { x with kek := some kek, kekGen := gen }).request_kept 32
  generalize (s.onSec fun x => { x with kek := some kek, kekGen := gen }).request 32 = u at hkept ht
  obtain ⟨hjobs, hchan, hkek, hgen⟩ := hkept
  subst ht
  simp [hjobs, hchan, hkek, hgen]

theorem State.kekEstablish_holds (f : Flight) (qk : List Byte) (k : Nat × Nat) {t : State} (ht : t = s.kekEstablish f qk k) :
    t.sec.kek.isSome = true ∧ t.sec.kekGen = s.sec.kekGen + 1 ∧ t.jobKeys = s.jobKeys ∧
      ∀ c, (t.chan c).cx = (s.chan c).cx :=
  s.newKek_holds f _ _ _ _ ht

/-! ### Commands -/

section Commands

variable {s : State} {id : Nat} {f : Flight}

theorem fwStatus_reports (h : s.Started id 0x1A03 f) :
    ∃ ws t, s.Does (.fwStatus id) t ∧ t = s.answer f ws ∧ ws.length = 4 ∧
      (wd ws 0).bit 0 = s.sec.runB ∧ (wd ws 0).bit 1 = s.sec.prefB ∧ (wd ws 0).bit 2 = s.sec.trial ∧
      (wd ws 0).bit 3 = s.sec.tried ∧ (wd ws 0).bits 63 32 = s.sec.kekGen.toNat ∧
      (s.sec.floor ≤ 64 → (wd ws 0).bits 12 6 = s.sec.floor ∧ (wd ws 0).bits 19 13 = 64 - s.sec.floor) := by
  refine ⟨_, _, withCmd_started h _, rfl, rfl, ?_⟩
  exact ⟨mkWord_bit_flag 0 rfl rfl (by decide), mkWord_bit_flag 1 rfl rfl (by decide), mkWord_bit_flag 2 rfl rfl (by decide),
    mkWord_bit_flag 3 rfl rfl (by decide), mkWord_bits_field 8 rfl rfl rfl (by decide) s.sec.kekGen.isLt,
    fun hfloor => ⟨mkWord_bits_field 6 rfl rfl rfl (by decide) (by omega), mkWord_bits_field 7 rfl rfl rfl (by decide) (by omega)⟩⟩

theorem fwImageWrite_starts (bs : List Byte) (h : s.Started id 0x1A10 f) :
    ∃ t, exec (.fwImageWrite id bs) s = .next t ∧ t.sec.standby = none ∧ t.sec.running = s.sec.running ∧
      t.sec.imageWrites = s.sec.imageWrites ++ [(id, bs.take f.desc.bufLen)] := by
  refine ⟨_, withCmd_started h _, ?_⟩
  rw [State.remark_sec, State.run_sec, State.onSec_sec]
  exact ⟨s.sec.standby_setSlot_other none, s.sec.running_setSlot_other none, rfl⟩

theorem fwActivate_restarts {i : Image} (h : s.Started id 0x1A11 f) (hi : s.sec.standby = some i) (ht : s.sec.trial = false)
    (hdark : s.allDark = true) :
    ∃ t, exec (.fwActivate id) s = .next t ∧ t.sec.prefB = !s.sec.runB ∧ t.sec.trial = true ∧ t.sec.tried = false ∧
      t.sec.activate = some id ∧ t.boot.running = false := by
  refine ⟨_, withCmd_started h _, ?_⟩
  simp [hi, ht, hdark, State.controllerStop]

theorem fwFloorRaise_queues (h : s.Started id 0x1A13 f) (hok : s.sec.floorRefusal (f.desc.p0.bits 6 0) = 0) :
    ∃ t, exec (.fwFloorRaise id) s = .next t ∧ t.sec.floor = s.sec.floor ∧
      t.sec.ledgerWrites = s.sec.ledgerWrites ++ [.floor id (f.desc.p0.bits 6 0)] := by
  refine ⟨_, withCmd_started h _, ?_⟩
  simp [hok]

theorem kekEstablish_takes {bs : List Byte} (h : s.Started id 0x1A14 f) (hlen : 64 ≤ bs.length) (hdraw : s.canDraw = true)
    (hcurve : Crypto.onCurve (beNat (bs.take 32)) (beNat ((bs.take 64).drop 32)) = true) :
    ∃ t, exec (.kekEstablish id bs) s = .next t ∧ t.sec.kek.isSome = true ∧ t.sec.kekGen = s.sec.kekGen + 1 ∧
      t.jobKeys = s.jobKeys ∧ ∀ c, (t.chan c).cx = (s.chan c).cx := by
  refine ⟨_, withCmd_started h _, ?_⟩
  have htake : (bs.take 64).take 32 = bs.take 32 := by rw [List.take_take]; rfl
  dsimp only
  rw [if_neg (by simp [htake, hcurve, hlen]), if_neg (by simp [hdraw])]
  generalize hu : s.kekEstablish f _ _ = u
  obtain ⟨hkek, hgen, hjobs, hcx⟩ := s.kekEstablish_holds f _ _ hu.symm
  exact ⟨by rw [State.remark_sec, hkek], by rw [State.remark_sec, hgen], by rw [State.remark_jobKeys, hjobs],
    fun c => by rw [State.remark_chan_cx, hcx]⟩

theorem imageWriteDone_takes {bs : List Byte} (hp : s.boot.powered = true)
    (hw : s.sec.imageWrites.find? (fun q => q.1 = id) = some (id, bs)) :
    ∃ t, exec (.imageWriteDone id) s = .next t ∧ t.sec.running = s.sec.running ∧
      t.sec.standby = if s.sec.imageStatus bs = 0 then some (imageOf bs) else s.sec.standby := by
  refine ⟨_, occursWith_some (a := (id, bs)) _ (by rw [hw]; simp [hp]), ?_⟩
  rw [State.remark_sec]
  exact s.imageDone_slots id bs

end Commands

/-! ### The rows of the random bit generator (R143, R451, R452) -/

section Generator

variable {s : State} (hp : s.boot.powered = true)
include hp

theorem entropyHealthFailure_fails {raw : List Bool} {r : Bool} (hf : s.sec.failing = false) (hr : healthFailure raw = some r) :
    ∃ t, exec (.entropyHealthFailure raw) s = .next t ∧ t.sec.failing = true ∧ t.sec.failures = s.sec.failures + 1 ∧
      t.sec.lastFail = s.sec' ∧
      ∃ e ∈ t.batch, e.source = 32 ∧ e.code = 0x1A24 ∧ e.severity = 3 ∧ e.detail0 = BitVec.ofNat 64 (bitOf r) := by
  have hraised : ∃ e ∈ (s.sourceFails r).batch, e.source = 32 ∧ e.code = 0x1A24 ∧ e.severity = 3 ∧
      e.detail0 = BitVec.ofNat 64 (bitOf r) :=
    ⟨_, List.mem_append_right _ (List.mem_singleton_self _), rfl, rfl, rfl, rfl⟩
  obtain ⟨e, he, hevent⟩ := hraised
  refine ⟨_, occursWith_some (a := r) _ (by simp [hp, hf, hr]), ?_⟩
  rw [State.remark_sec]
  exact ⟨rfl, rfl, rfl, e, State.remark_batch he, hevent⟩

theorem entropyStartupTest_recovers {raw : List Bool} (hf : s.sec.failing = true) (hr : healthFailure raw = none) :
    ∃ t, exec (.entropyStartupTest raw) s = .next t ∧ t.sec.failing = false ∧ s.sec.testDue ≤ t.now ∧
      ∃ e ∈ t.batch, e.source = 32 ∧ e.code = 0x1A25 ∧ e.severity = 1 := by
  refine ⟨_, occurs_true _ (by simp [hp, hf]), ?_⟩
  have hraised : ∃ e ∈ (((s.at s.sec.testDue).onSec fun x => { x with failing := false }).raise 32 0x1A25 1).batch,
      e.source = 32 ∧ e.code = 0x1A25 ∧ e.severity = 1 :=
    ⟨_, List.mem_append_right _ (List.mem_singleton_self _), rfl, rfl, rfl⟩
  obtain ⟨e, he, hevent⟩ := hraised
  simp only [hr, State.at_sec, hf, if_true]
  split
  · rw [State.remark_sec, State.remark_now]
    exact ⟨rfl, le_max_right .., e, State.remark_batch he, hevent⟩
  · generalize hu : ((s.at s.sec.testDue).onSec fun x => { x with failing := false }).raise 32 0x1A25 1 = u at he
    have hgate := u.instantiate_gate
    simp only [State.gate, Prod.mk.injEq] at hgate
    obtain ⟨-, -, -, hfailing, hnow⟩ := hgate
    rw [State.remark_sec, State.remark_now, hfailing, hnow, ← hu]
    refine ⟨rfl, le_max_right .., e, State.remark_batch ?_, hevent⟩
    rwa [hu, State.instantiate_batch]

theorem entropyStartupTest_fails_again {raw : List Bool} {r : Bool} (hf : s.sec.failing = true) (hr : healthFailure raw = some r) :
    ∃ t, exec (.entropyStartupTest raw) s = .next t ∧ t.sec.failing = true ∧ t.sec.testDue = s.sec.testDue + 1000000000 := by
  refine ⟨_, occurs_true _ (by simp [hp, hf]), ?_⟩
  simp [hr, hf]

theorem entropyStartupTest_instantiates {raw : List Bool} (hf : s.sec.failing = false) (ht : s.sec.tested = false)
    (hr : healthFailure raw = none) :
    ∃ t, exec (.entropyStartupTest raw) s = .next t ∧ t.sec.tested = true ∧ t.sec.drbg = true ∧ t.canDraw = true ∧
      t.sec.requests = 0 ∧ t.sec.failing = false ∧ s.sec.testDue ≤ t.now := by
  refine ⟨_, occurs_true _ (by simp [hp, ht]), ?_⟩
  simp only [hr, State.at_sec, hf, ht, Bool.false_eq_true, if_false]
  have hgate : (s.at s.sec.testDue).instantiate.remark.gate = _ :=
    .trans (by simp only [State.gate, State.remark_sec, State.remark_now]) (s.at s.sec.testDue).instantiate_gate
  have hdraw := State.canDraw_of_gate hgate hf
  simp only [State.gate, Prod.mk.injEq] at hgate
  obtain ⟨hdrbg, htested, hrequests, hfailing, hnow⟩ := hgate
  exact ⟨htested, hdrbg, hdraw, hrequests, hfailing.trans hf, by rw [hnow]; exact le_max_right ..⟩

theorem drbgReseed_reseeds (ht : s.sec.tested = true) (hf : s.sec.failing = false) :
    ∃ t, exec .drbgReseed s = .next t ∧ t.sec.drbg = true ∧ t.sec.requests = 0 ∧ t.canDraw = true := by
  refine ⟨_, occurs_true _ (by simp [hp, ht]), ?_⟩
  extract_lets u
  have hu : u.sec = s.sec := by unfold u; split <;> rfl
  rw [hu, hf, if_neg Bool.false_ne_true]
  obtain ⟨d, hd⟩ := u.reseed_sec
  simp only [State.canDraw, State.remark_sec, hd]
  simp [Security.setGenerator, hu, hf]

theorem drbgReseed_stops (ht : s.sec.tested = true) (hf : s.sec.failing = true) :
    ∃ t, exec .drbgReseed s = .next t ∧ t.sec.drbg = false ∧ t.canDraw = false := by
  refine ⟨_, occurs_true _ (by simp [hp, ht]), ?_⟩
  extract_lets u
  have hu : u.sec = s.sec := by unfold u; split <;> rfl
  rw [hu, hf, if_pos rfl]
  simp [State.canDraw]

end Generator

/-- Settles O30: the slots are read through the image rules, the generator's rows through what tells whether it gives output. -/
theorem securityComplete : Obligations.SecurityComplete := by
  unfold Obligations.SecurityComplete
  refine ⟨fun s id f => ⟨fun h => withCmd_started h _, fun nonce h => withCmd_started h _, ?_, fwStatus_reports,
    fun h => withCmd_started h _, fwImageWrite_starts, fun i => fwActivate_restarts, ?_, fwFloorRaise_queues,
    fun bs => kekEstablish_takes, fun bs => imageWriteDone_takes⟩, fun s hp => ⟨fun raw r => entropyHealthFailure_fails hp,
    fun raw => entropyStartupTest_recovers hp, fun raw r => entropyStartupTest_fails_again hp,
    fun raw => entropyStartupTest_instantiates hp, drbgReseed_reseeds hp, drbgReseed_stops hp⟩⟩
  · rintro h n rfl
    exact withCmd_started h _
  · intro h ht
    refine (withCmd_started h _).trans ?_
    rw [if_pos ht]
    rfl

end Sys2Proof.Machine
end

section
/-! The point-to-multipoint commands (13 R301 to R317, R327). -/

namespace Sys2Proof.Machine

/-- A row of a channel of one mode that its command started ends with the row's state. -/
theorem withMode_started {s : State} {id op : Nat} {m : P2Mode} {f : Flight} (h : s.Started id op f)
    (hm : (s.chan f.desc.target).pm.mode = m) (k : Flight → Nat → State) :
    withMode s id op m k = .next (k f f.desc.target).remark := by
  unfold withMode
  rw [withCmd_started h, if_pos hm]

/-! ### Leaf contexts -/

theorem P2mp.leaf_insert_ne (x : P2mp) {i j : Nat} (y : Leaf) (h : i ≠ j) :
    P2mp.leaf { x with leaves := x.leaves.insert j y } i = x.leaf i :=
  Sparse.get_insert_ne _ _ _ h

@[simp] theorem State.finish_leaf (s : State) (f : Flight) (st : Nat) (r0 r1 r2 : Option Nat) (c j : Nat) :
    (s.finish f st r0 r1 r2).leaf c j = s.leaf c j := by
  simp [State.leaf]

theorem State.onLeaf_leaf_ne (s : State) (c : Nat) {i j : Nat} (g : Leaf → Leaf) (h : i ≠ j) :
    (s.onLeaf c j g).leaf c i = s.leaf c i := by
  simp only [State.leaf, State.onLeaf, State.onPm_eq, State.setChan_chan_same]
  exact P2mp.leaf_insert_ne _ _ h

theorem Leaf.ne_free_of_assigned {x : Leaf} (h : x.assigned = true) : x.state ≠ .free := by
  intro hfree
  simp [Leaf.assigned, hfree] at h

/-! ### The pair of a hub and a leaf (R317) -/

theorem State.lxPropose_proposal (s : State) (c : Nat) (p : LxProposal) (far : Nat) :
    ∃ q, ((s.lxPropose c p far).chan c).ld.proposal = some q ∧ q.id = p.id ∧ q.content = p.content ∧
      q.mI = (s.chan c).tf.mfc + BitVec.ofNat 32 p.lead := by
  refine ⟨{ p with
    seq := (s.chan c).ld.seq + 1, mI := (s.chan c).tf.mfc + BitVec.ofNat 32 p.lead, accepted := none, committed := false
    txAt := none, rxAt := none, live := s.beginsBefore c far (s.deadlineOf p) }, ?_, rfl, rfl, rfl⟩
  rw [State.lxPropose, State.onLd_eq, State.setChan_chan_same]

theorem State.enterPair_tf (s : State) (c j : Nat) : ((s.enterPair c j).chan c).tf = (s.chan c).tf := by
  simp [State.enterPair]

theorem State.leavePair_proposal (s : State) (c j : Nat) (old : Channel) :
    ((s.leavePair c j old).leaf c j).ld.proposal = (s.chan c).ld.proposal := by
  simp [State.leavePair, State.leaf, P2mp.leaf]

theorem State.leavePair_ld (s : State) (c j : Nat) (old : Channel) : ((s.leavePair c j old).chan c).ld = old.ld := by
  simp [State.leavePair]

/-- What the pair of leaf j proposes stands in its context, and the channel's own loading is put back. -/
theorem State.inPair_lxStart (s : State) {c : Nat} (j lead : Nat) {f : Flight} (x : LxContent) (hc : f.desc.target = c) :
    (∃ p, ((s.inPair c j fun u => u.lxStart f lead x).leaf c j).ld.proposal = some p ∧ p.id = some f.id ∧ p.content = x ∧
      p.mI = (s.chan c).tf.mfc + BitVec.ofNat 32 lead) ∧
    ((s.inPair c j fun u => u.lxStart f lead x).chan c).ld = (s.chan c).ld := by
  subst hc
  refine ⟨?_, State.leavePair_ld ..⟩
  simp only [State.inPair, State.leavePair_proposal, State.lxStart, State.run_chan]
  obtain ⟨p, hp, hid, hcontent, hmI⟩ := (s.enterPair f.desc.target j).lxPropose_proposal f.desc.target
    { id := some f.id, lead := lead, seq := 0, mI := 0, content := x } lead
  exact ⟨p, hp, hid, hcontent, by rw [hmI, State.enterPair_tf]⟩

/-! ### The commands -/

section Commands

variable {s : State} {id c : Nat} {f : Flight} (hc : f.desc.target = c)
include hc

theorem p2mpMode_sets (h : s.Started id 0x1500 f) (hm : f.desc.p0.bits 1 0 ≠ 3) (hdark : (s.chan c).pw.level = .dark)
    (hstep : (s.chan c).bu.step = 0) (hgroup : s.groupOf c = none) :
    ((s.onPm c fun x => { x with mode := P2Mode.ofCode (f.desc.p0.bits 1 0) }).movesBurst c = false →
      ∃ t, exec (.p2mpMode id) s = .next t ∧ (t.chan c).pm.mode = P2Mode.ofCode (f.desc.p0.bits 1 0) ∧ t.flight? f.id = none ∧
        ∀ m, m ≠ c → (t.chan m).Same (s.chan m)) ∧
    ((s.onPm c fun x => { x with mode := P2Mode.ofCode (f.desc.p0.bits 1 0) }).movesBurst c = true →
      s.Does (.p2mpMode id) (s.finish f 0x03)) := by
  subst hc
  have hup : ¬ (((s.chan f.desc.target).pw.level ≠ .dark || (s.chan f.desc.target).bu.step ≠ 0) = true) := by simp [hdark, hstep]
  have hfree : ¬ ((s.groupOf f.desc.target).isSome = true) := by simp [hgroup]
  refine ⟨fun hmoves => ⟨_, withCmd_started h _, ?_⟩, fun hmoves => (withCmd_started h _).trans ?_⟩ <;>
    dsimp only <;> rw [if_neg hm, if_neg hup, if_neg hfree]
  · rw [if_neg (by rw [hmoves]; exact Bool.false_ne_true)]
    generalize hset : (s.onPm f.desc.target fun x => { x with mode := P2Mode.ofCode (f.desc.p0.bits 1 0) }) = u
    have houtside : (u.restate f.desc.target true false).outside f.desc.target = s.outside f.desc.target := by
      subst hset
      rw [State.restate_outside (by exact hgroup), State.onPm_eq, State.setChan_outside]
    have hspine := congrFun (u.restate_spine f.desc.target true false) f.desc.target
    refine ⟨?_, by simp, (State.frame_of_outside_eq (by rw [State.remark_outside, State.finish_outside, houtside])).1⟩
    rw [State.remark_chan_pm, State.finish_chan]
    have hmode : ((u.restate f.desc.target true false).chan f.desc.target).pm.mode = (u.chan f.desc.target).pm.mode :=
      (congrArg (fun ch : Channel => ch.pm.mode) hspine :)
    rw [hmode, ← hset]
    simp
  · rw [if_pos hmoves]

theorem leafSet_writes {ws : List Word} (h : s.Started id 0x1501 f) (hm : (s.chan c).pm.mode = .hub)
    (hgood : (Leaf.ofWords ws).badWords ws = false) (hfree : (s.leaf c ((wd ws 0).bits 5 0)).state = .free)
    (hconf : (s.chan c).pm.conflicts ((wd ws 0).bits 5 0) (Leaf.ofWords ws) = false)
    (hfits : P2mp.fits { (s.chan c).pm with
        leaves := (s.chan c).pm.leaves.insert ((wd ws 0).bits 5 0)
          ((s.leaf c ((wd ws 0).bits 5 0)).write (Leaf.ofWords ws)) } (s.chan c).bu.params.rate = true) :
    ∃ t, exec (.leafSet id ws) s = .next t ∧
      t.leaf c ((wd ws 0).bits 5 0) = (s.leaf c ((wd ws 0).bits 5 0)).write (Leaf.ofWords ws) ∧
      (∀ j, j ≠ (wd ws 0).bits 5 0 → t.leaf c j = s.leaf c j) ∧ t.flight? f.id = none := by
  subst hc
  refine ⟨_, withCmd_started h _, ?_⟩
  extract_lets c ch x j old moved used src pm
  have hbad : ¬ (ch.pm.mode ≠ .hub || x.badWords ws) = true := by simp [ch, c, x, hm, hgood]
  have hconf' : ¬ ch.pm.conflicts j x = true := ne_true_of_eq_false hconf
  have hfree' : old.state = .free := hfree
  have hkept : ¬ (old.state ≠ .free && moved && used) = true := by simp [hfree']
  have hfits' : ¬ (!pm.fits ch.bu.params.rate) = true := by
    rw [show pm.fits ch.bu.params.rate = true from hfits]
    exact Bool.false_ne_true
  have hpair : s.leavesPair c j = s := if_pos hfree
  rw [if_neg hbad, if_neg hconf', if_neg hkept, if_neg hfits', hpair]
  simp only [State.remark_leaf, State.finish_leaf, State.remark_flight?, State.finish_flight?_same, and_true]
  exact ⟨State.onLeaf_leaf_same s _ j fun y => y.write x, fun k hk => State.onLeaf_leaf_ne s _ (fun y => y.write x) hk⟩

theorem p2mpConfig_sets (h : s.Started id 0x1503 f) (hm : (s.chan c).pm.mode = .hub)
    (hint : f.desc.p0.bits 31 16 = 0 ∨ 16 ≤ f.desc.p0.bits 31 16) (hdet : 64 ≤ f.desc.p0.bits 39 32)
    (hdet' : f.desc.p0.bits 39 32 ≤ 192) (hcap : 3 ≤ f.desc.p0.bits 44 41) (hcap' : f.desc.p0.bits 44 41 ≤ 12)
    (hded : ∀ q ∈ (s.chan c).pm.leaves, q.2.state ≠ .free → q.2.dedMask &&& BitVec.ofNat 16 (f.desc.p0.bits 15 0) = 0)
    (hplan : (P2mp.plan { (s.chan c).pm with
        shared := BitVec.ofNat 16 (f.desc.p0.bits 15 0), discInt := f.desc.p0.bits 31 16
        detThr := f.desc.p0.bits 39 32, capOn := f.desc.p0.bit 40, capThr := f.desc.p0.bits 44 41 }
      (s.chan c).bu.params.rate).isSome = true) :
    ∃ t, exec (.p2mpConfig id) s = .next t ∧ (t.chan c).pm.shared = BitVec.ofNat 16 (f.desc.p0.bits 15 0) ∧
      (t.chan c).pm.discInt = f.desc.p0.bits 31 16 ∧ (t.chan c).pm.detThr = f.desc.p0.bits 39 32 ∧
      (t.chan c).pm.capOn = f.desc.p0.bit 40 ∧ (t.chan c).pm.capThr = f.desc.p0.bits 44 41 ∧
      (t.chan c).pm.leaves = (s.chan c).pm.leaves ∧ t.flight? f.id = none := by
  subst hc
  refine ⟨_, (withMode_started h hm _ : execP2mpConfig id s = _), ?_⟩
  extract_lets p x pm
  have hrange : ¬ ((pm.discInt ≠ 0 && pm.discInt < 16) || pm.detThr < 64 || 192 < pm.detThr || pm.capThr < 3 || 12 < pm.capThr) =
      true := by
    simp only [Bool.or_eq_true, Bool.and_eq_true, decide_eq_true_eq, pm, p]
    omega
  have hshared : ¬ (x.leaves.any fun q => q.2.state ≠ .free && q.2.dedMask &&& pm.shared ≠ 0) = true := by
    simp only [List.any_eq_true, Bool.and_eq_true, decide_eq_true_eq, not_exists, not_and, not_not]
    exact hded
  have hfits : pm.fits (s.chan f.desc.target).bu.params.rate = true := Bool.or_eq_true_iff.2 (.inr hplan)
  rw [if_neg hrange, if_neg hshared, if_neg (by simp [hfits])]
  simp [pm, p, x]

theorem leafLoad_proposes {ws : List Word} {lead : Nat} {q : LoadSet} {j : Nat} (h : s.Started id 0x1504 f)
    (hm : (s.chan c).pm.mode = .hub) (hj : j = f.desc.p0.bits 13 8) (hlead : lxLead (f.desc.p0.bits 6 0) = some lead)
    (hclear : requestClear ws = true) (hfwd : (requestContent ws).fwd = none) (hrev : (requestContent ws).rev = some q)
    (hded : (s.leaf c j).burst = false) (hassigned : (s.leaf c j).assigned = true)
    (hreason : ((s.enterPair c j).chan c).leafSetReason j ((s.enterPair c j).chan c).ld.rx q = 0)
    (hnew : q ≠ ((s.enterPair c j).chan c).ld.rx) (hblocked : (s.enterPair c j).lxBlocked c = false) :
    ∃ t p, exec (.leafLoad id ws) s = .next t ∧ (t.leaf c j).ld.proposal = some p ∧ p.id = some f.id ∧
      p.content = requestContent ws ∧ p.mI = (s.chan c).tf.mfc + BitVec.ofNat 32 lead ∧ (t.chan c).ld = (s.chan c).ld := by
  subst hc hj
  obtain ⟨⟨p, hp, hid, hcontent, hmI⟩, hld⟩ := s.inPair_lxStart (f.desc.p0.bits 13 8) lead (requestContent ws) rfl
  refine ⟨_, p, (withMode_started h hm _ : execLeafLoad id ws s = _), ?_⟩
  have hstate := Leaf.ne_free_of_assigned hassigned
  simp only [hlead, hrev, hclear, hfwd, hded, hassigned, hreason, hnew, hblocked, hstate, Option.isSome_none, Bool.not_true,
    Bool.or_self, decide_false, Bool.false_eq_true, if_false, OfNat.zero_ne_ofNat, ne_eq, not_true_eq_false, State.remark_leaf,
    State.remark_chan_ld]
  exact ⟨hp, hid, hcontent, hmI, hld⟩

theorem leafJoin_sets (h : s.Started id 0x1507 f) (hm : (s.chan c).pm.mode = .leaf)
    (hserial : f.desc.p0.bit 0 = true → f.desc.p1 ≠ 0) :
    ∃ t, exec (.leafJoin id) s = .next t ∧ (t.chan c).pm.joining = f.desc.p0.bit 0 ∧
      (f.desc.p0.bit 0 = true → (t.chan c).pm.serial = f.desc.p1) ∧
      (f.desc.p0.bit 0 = false → (t.chan c).pm.join = 0 ∧ (t.chan c).pm.silent = true) ∧ t.flight? f.id = none := by
  subst hc
  refine ⟨_, (withMode_started h hm _ : execLeafJoin id s = _), ?_⟩
  dsimp only
  rw [if_neg (by simpa using hserial)]
  cases hon : f.desc.p0.bit 0 <;> simp

end Commands

/-- Settles O52: each command passes its checks and writes its settings; LEAF_LOAD proposes in the leaf's pair alone. -/
theorem multipointCommandsComplete : Obligations.MultipointCommandsComplete := by
  unfold Obligations.MultipointCommandsComplete
  intro s id c f hc
  refine ⟨p2mpMode_sets hc, fun ws h hm hgood _ => leafSet_writes hc h hm hgood, ?_, p2mpConfig_sets hc,
    fun ws lead q j => leafLoad_proposes hc, ?_, ?_, leafJoin_sets hc⟩ <;> subst hc
  · exact fun h hm => (withMode_started h hm _ : execLeafQuery id s = _)
  · exact fun h hm => (withMode_started h hm _ : execBurstCounters id s = _)
  · exact fun h hm => (withMode_started h hm _ : execLeafStatus id s = _)

end Sys2Proof.Machine
end

section
/-! What the items of a burst leave alone: the burst receivers and the count of frames of every channel (13 R317 to R322). -/

namespace Sys2Proof.Machine

/-- What the reception of a burst's items leaves alone. -/
abbrev Channel.hearing (ch : Channel) : Sparse BurstChan × BitVec 32 × Nat := (ch.pm.receivers, ch.tf.mfc, ch.tf.frame)

section Hearing

variable (s : State)

/-! ### Figures of latency (02 R27) -/

@[simp] theorem State.setTrib_hearing (i : Nat) (x : Trib) : (s.setTrib i x).view Channel.hearing = s.view Channel.hearing :=
  State.view_setChan rfl

@[simp] theorem State.onTrib_hearing (i : Nat) (g : Trib → Trib) : (s.onTrib i g).view Channel.hearing = s.view Channel.hearing :=
  s.setTrib_hearing i _

@[simp] theorem State.latencyEvent_hearing (i : Nat) : (s.latencyEvent i).view Channel.hearing = s.view Channel.hearing := by
  simp [State.latencyEvent, State.reported]

@[simp] theorem State.latencyChanged_hearing (i : Nat) : (s.latencyChanged i).view Channel.hearing = s.view Channel.hearing := by
  simp [State.latencyChanged]

@[simp] theorem State.farFigures_hearing (c l : Nat) (far : Option (Nat × Nat)) :
    (s.farFigures c l far).view Channel.hearing = s.view Channel.hearing := by
  simp [State.farFigures]

@[simp] theorem State.farMessage_hearing (c : Nat) (bytes : List Byte) (shared : Nat → Bool) :
    (s.farMessage c bytes shared).view Channel.hearing = s.view Channel.hearing :=
  State.view_foldl (fun s _ => s.farFigures_hearing ..) _ s

/-! ### Messages (08 R190, R191) -/

@[simp] theorem State.loseMessage_hearing (c : Nat) (seq : BitVec 16) (cause : Nat) (by_ : Option Nat) :
    (s.loseMessage c seq cause by_).view Channel.hearing = s.view Channel.hearing := by
  simp [State.loseMessage]

@[simp] theorem State.breakMessage_hearing (c cause : Nat) (by_ : Option Nat) :
    (s.breakMessage c cause by_).view Channel.hearing = s.view Channel.hearing := by
  unfold State.breakMessage
  split
  · exact s.loseMessage_hearing ..
  · rfl

@[simp] theorem State.fillMessage_hearing (r : Nat) (bytes : List Byte) (r1 : Nat) :
    (s.fillMessage r bytes r1).view Channel.hearing = s.view Channel.hearing := by
  unfold State.fillMessage
  split
  · exact State.view_congr fun c => by simp
  · rfl

@[simp] theorem State.dropMessage_hearing (c : Nat) : (s.dropMessage c).view Channel.hearing = s.view Channel.hearing := by
  unfold State.dropMessage
  split <;> exact State.view_congr fun c => by simp

@[simp] theorem State.takeMessage_hearing (c : Nat) (a : Assembly) :
    (s.takeMessage c a).view Channel.hearing = s.view Channel.hearing := by
  unfold State.takeMessage
  dsimp only
  split
  · split <;> simp
  · simp
  · simp

@[simp] theorem State.addChunk_hearing (c : Nat) (a : Assembly) (ws : List Word) (last : Bool) :
    (s.addChunk c a ws last).view Channel.hearing = s.view Channel.hearing := by
  simp [State.addChunk, State.endMessage]

@[simp] theorem State.chunkIn_hearing (c : Nat) (ws : List Word) : (s.chunkIn c ws).view Channel.hearing = s.view Channel.hearing := by
  unfold State.chunkIn
  dsimp only
  split
  · simp
  · split
    · simp
    · split <;> simp

/-! ### The loading exchange (10 R239 to R246) -/

@[simp] theorem State.onLd_hearing (c : Nat) (g : Loading → Loading) : (s.onLd c g).view Channel.hearing = s.view Channel.hearing :=
  State.view_setChan rfl

@[simp] theorem State.lxEnds_hearing (c : Nat) (p : LxProposal) (st : Nat) (r2 : Option Nat) (reason : Nat) :
    (s.lxEnds c p st r2 reason).view Channel.hearing = s.view Channel.hearing := by
  simp [State.lxEnds]

@[simp] theorem State.lxReject_hearing (c reason : Nat) (seq : BitVec 16) (mI : BitVec 32) (profile : Option Bool) :
    (s.lxReject c reason seq mI profile).view Channel.hearing = s.view Channel.hearing := by
  unfold State.lxReject
  dsimp only
  split <;> simp [State.lxReject.go]

@[simp] theorem State.lxAnswer_hearing (c : Nat) (ws : List Word) (count : BitVec 32) :
    (s.lxAnswer c ws count).view Channel.hearing = s.view Channel.hearing := by
  simp [State.lxAnswer]

@[simp] theorem State.lxProposed_hearing (c : Nat) (ws : List Word) (count : BitVec 32) :
    (s.lxProposed c ws count).view Channel.hearing = s.view Channel.hearing := by
  unfold State.lxProposed
  dsimp only
  split
  · rfl
  · split <;> simp

@[simp] theorem State.lxAgain_hearing (c : Nat) (p : LxProposal) : (s.lxAgain c p).view Channel.hearing = s.view Channel.hearing := by
  unfold State.lxAgain
  split
  · exact s.onLd_hearing ..
  · exact s.onLd_hearing ..

@[simp] theorem State.lxAccepted_hearing (c : Nat) (p : LxProposal) (mR : BitVec 32) :
    (s.lxAccepted c p mR).view Channel.hearing = s.view Channel.hearing := by
  unfold State.lxAccepted
  split
  · exact s.onLd_hearing ..
  · exact (State.lxAgain_hearing ..).trans (s.view_raise ..)

@[simp] theorem State.lxMessage_hearing (c : Nat) (ws : List Word) (count : BitVec 32) :
    (s.lxMessage c ws count).view Channel.hearing = s.view Channel.hearing := by
  unfold State.lxMessage
  dsimp only
  split
  · exact s.lxProposed_hearing .. -- PROPOSE
  · split <;> simp -- ACCEPT
  · split <;> simp -- REJECT
  · split <;> simp -- COMMIT
  · rfl

/-! ### The bank switch (06 R127 to R132) -/

@[simp] theorem State.hubCommit_hearing (c : Nat) : (s.hubCommit c).view Channel.hearing = s.view Channel.hearing := by
  unfold State.hubCommit
  dsimp only
  split <;> simp

@[simp] theorem State.bankDone_hearing (c : Nat) : (s.bankDone c).view Channel.hearing = s.view Channel.hearing := by
  unfold State.bankDone
  dsimp only
  split
  · split <;> simp
  · simp

@[simp] theorem State.onLeaf_hearing (c j : Nat) (g : Leaf → Leaf) : (s.onLeaf c j g).view Channel.hearing = s.view Channel.hearing :=
  State.view_setChan rfl

@[simp] theorem State.hubBankMessage_hearing (c j : Nat) (w8 w9 : Word) :
    (s.hubBankMessage c j w8 w9).view Channel.hearing = s.view Channel.hearing := by
  unfold State.hubBankMessage State.lapseEvent
  split
  · split
    · rfl
    · split <;> simp
  · rfl

@[simp] theorem State.hubIndicator_hearing (c j : Nat) (sw : Bool) (count : BitVec 32) :
    (s.hubIndicator c j sw count).view Channel.hearing = s.view Channel.hearing := by
  simp [State.hubIndicator]

/-! ### A pair and its cell (13 R317) -/

theorem State.inPair_hearing (c j : Nat) {g : State → State} (hg : ∀ s, (g s).view Channel.hearing = s.view Channel.hearing) :
    (s.inPair c j g).view Channel.hearing = s.view Channel.hearing := by
  have henter : (s.enterPair c j).view Channel.hearing = s.view Channel.hearing := State.view_setChan rfl
  have hleave (u : State) (old : Channel) : (u.leavePair c j old).view Channel.hearing = u.view Channel.hearing :=
    State.view_setChan rfl
  exact (hleave ..).trans ((hg _).trans henter)

@[simp] theorem State.takeAdvert_hearing (i : Nat) (w : Word) : (s.takeAdvert i w).view Channel.hearing = s.view Channel.hearing := by
  simp [State.takeAdvert, State.clash, State.setCipherOf, Channel.setCipher]

theorem State.hubCellIn_hearing (c j : Nat) (ws : List Word) (count : BitVec 32) :
    (s.hubCellIn c j ws count).view Channel.hearing = s.view Channel.hearing := by
  unfold State.hubCellIn
  rw [State.onLeaf_hearing, State.takeAdvert_hearing, State.inPair_hearing, State.hubBankMessage_hearing]
  intro u
  rw [State.takeStatus, State.onLd_hearing, State.lxMessage_hearing]

/-! ### The items of a burst (13 R319 to R321) -/

theorem State.keepRecord_hearing (c j : Nat) (r : FrameRecord) : (s.keepRecord c j r).view Channel.hearing = s.view Channel.hearing := by
  unfold State.keepRecord
  extract_lets x newBank u late
  have hu : u.view Channel.hearing = s.view Channel.hearing := (State.hubIndicator_hearing ..).trans (State.view_setChan rfl)
  split
  · exact hu
  · exact (u.onLeaf_hearing ..).trans hu

theorem State.leafItem_hearing (c j : Nat) (it : BurstItem) : (s.leafItem c j it).view Channel.hearing = s.view Channel.hearing := by
  unfold State.leafItem
  split
  · exact s.keepRecord_hearing ..
  · exact s.inPair_hearing _ _ fun u => u.chunkIn_hearing ..
  · exact s.inPair_hearing _ _ fun u => u.breakMessage_hearing ..
  · exact s.hubCellIn_hearing ..
  · rfl

theorem State.discovered_hearing (c : Nat) (serial : Word) (a : Int) :
    (s.discovered c serial a).view Channel.hearing = s.view Channel.hearing := by
  unfold State.discovered
  split
  · extract_lets eqd
    refine (State.view_setChan ?_).trans (s.onLeaf_hearing ..)
    rfl
  · exact s.view_raise ..

/-- A burst's data leave the receivers as they are, but for the count of the rows that did not decode. -/
theorem State.burstData_hearing (c i : Nat) (x : BurstIn) (leaf : Nat) (disc : Bool) (arrival : Int) :
    (s.burstData c i x leaf disc arrival).view Channel.hearing =
      (s.onReceiver c i fun r => { r with
        rowsUncorr := r.rowsUncorr + BitVec.ofNat 32 ((rowsDecoded x).filter Option.isNone).length }).view Channel.hearing := by
  unfold State.burstData
  dsimp only
  split
  · split
    · exact State.discovered_hearing ..
    · rfl
  · rw [State.onLeaf_hearing]
    exact State.view_foldl (fun s _ => s.leafItem_hearing ..) _ _

end Hearing

end Sys2Proof.Machine
end

section
/-! Hubs and leaves by themselves: maps, discovery, bursts sent and received, records delivered and lost leaves (13 R313 to R325). -/

namespace Sys2Proof.Machine

variable (s : State)

/-! ### The map at a leaf (R313, R314) -/

/-- The map regions that a channel has received. -/
abbrev Channel.regions (ch : Channel) : List (List Word) := ch.pm.gmIn

theorem Channel.armDownstream_pm (ch : Channel) (ws : List Word) : (ch.armDownstream ws).pm = ch.pm := by
  unfold Channel.armDownstream
  extract_lets at_ armed
  by_cases h : ((wd ws 2).bit 0 && mfBefore ch.rf.mfc at_ && !armed) = true
  · rw [if_pos h]
  · rw [if_neg h]

theorem P2mp.resuming_gmIn (x : P2mp) (e : LeafEntry) (gov : BitVec 32) : (x.resuming e gov).gmIn = x.gmIn := by
  unfold P2mp.resuming
  split <;> rfl

theorem State.dropAssignment_regions (c reason : Nat) :
    (s.dropAssignment c reason).view Channel.regions = s.view Channel.regions :=
  (State.view_raise ..).trans (State.view_setChan rfl)

theorem State.seekAssignment_regions (c : Nat) (ws : List Word) :
    (s.seekAssignment c ws).view Channel.regions = s.view Channel.regions := by
  unfold State.seekAssignment
  extract_lets x
  split
  · rfl
  · split
    · exact State.view_setChan rfl
    · split
      · rfl
      · split
        · exact State.view_setChan rfl
        · have hset (u : State) (k : Nat) : (u.onPm c fun x => { x with join := 1, mapsWaited := 0, skip := k }).view
              Channel.regions = u.view Channel.regions := State.view_setChan rfl
          by_cases hdraw : s.canDraw = true
          · rw [if_pos hdraw]
            exact (hset _ _).trans (State.view_congr (s.request_kept 1).2.1)
          · rw [if_neg hdraw]
            exact hset _ _

/-- A map that a leaf keeps: the last of at most four. -/
def P2mp.KeepsLast (x : P2mp) (gov : BitVec 32) : Prop := x.maps.length ≤ 4 ∧ ∃ m, x.maps.getLast? = some m ∧ m.gov = gov

theorem P2mp.keepsLast_drop (x : P2mp) (m : LeafMap) :
    P2mp.KeepsLast { x with maps := (x.maps ++ [m]).drop (x.maps.length + 1 - 4) } m.gov := by
  rw [show x.maps.length + 1 - 4 = x.maps.length - 3 from by omega]
  exact ⟨length_append_drop .., m, getLast?_append_drop .., rfl⟩

theorem State.acceptMap_keeps (c : Nat) (ws : List Word) :
    ((s.acceptMap c ws).chan c).pm.gmIn = (s.chan c).pm.gmIn ∧ ((s.acceptMap c ws).chan c).pm.KeepsLast (mapGov ws) := by
  unfold State.acceptMap
  extract_lets u v x a e disc keep r
  have hu : (u.chan c).pm.gmIn = (s.chan c).pm.gmIn := by
    simp only [u, State.onChan_eq, State.setChan_chan_same, Channel.armDownstream_pm]
  have hv : (v.chan c).pm.gmIn = (s.chan c).pm.gmIn := (congrFun (u.seekAssignment_regions c ws) c).trans hu
  have hkeep (mine : Bool) (w : State) (hw : (w.chan c).pm.gmIn = (s.chan c).pm.gmIn) :
      ((keep mine w).chan c).pm.gmIn = (s.chan c).pm.gmIn ∧ ((keep mine w).chan c).pm.KeepsLast (mapGov ws) := by
    simp only [keep, State.onPm_eq, State.setChan_chan_same]
    exact ⟨hw, P2mp.keepsLast_drop _ _⟩
  split
  · split
    · exact hkeep false _ ((congrFun (v.dropAssignment_regions c r) c).trans hv)
    · refine hkeep true _ ?_
      simp only [State.onPm_eq, State.setChan_chan_same, P2mp.resuming_gmIn, hv]
  · exact hkeep false v hv

/-! ### The hub's burst receivers (R322) -/

theorem State.onReceiver_same (c i : Nat) (g : BurstChan → BurstChan) : (s.onReceiver c i g).receiver c i = g (s.receiver c i) := by
  simp [State.onReceiver, State.receiver]

theorem State.onReceiver_leaf (c i : Nat) (g : BurstChan → BurstChan) (d j : Nat) : (s.onReceiver c i g).leaf d j = s.leaf d j := by
  simp only [State.onReceiver, State.onPm_eq, State.leaf, State.setChan_chan]
  split
  · next h => rw [h]; rfl
  · rfl

theorem State.receiver_of_hearing {s t : State} (h : t.view Channel.hearing = s.view Channel.hearing) (c i : Nat) :
    t.receiver c i = s.receiver c i :=
  (congrArg (fun q : Sparse BurstChan × BitVec 32 × Nat => q.1.get {} i) (congrFun h c) :)

theorem State.hubCount_of_hearing {s t : State} (h : t.view Channel.hearing = s.view Channel.hearing) (c : Nat) :
    (t.chan c).hubCount = (s.chan c).hubCount := by
  have hc : (t.chan c).hearing = (s.chan c).hearing := congrFun h c
  simp only [Channel.hearing, Prod.mk.injEq] at hc
  obtain ⟨-, hmfc, hframe⟩ := hc
  simp only [Channel.hubCount, hmfc, hframe]

/-! ### Arrivals (R308, R322) -/

theorem State.arrival_hearing (c j : Nat) (ofs : Int) (burst : Bool) :
    (s.arrival c j ofs burst).view Channel.hearing = s.view Channel.hearing := by
  unfold State.arrival
  extract_lets x u as sum mean n
  have hu : u.view Channel.hearing = s.view Channel.hearing := by
    unfold u
    split
    · exact (State.view_raise ..).trans (s.onLeaf_hearing ..)
    · split
      · exact s.onLeaf_hearing ..
      · rfl
  exact ((State.view_draw _).trans (u.onLeaf_hearing ..)).trans hu

theorem State.arrival_bursts (c j : Nat) (ofs : Int) (burst : Bool) :
    ((s.arrival c j ofs burst).leaf c j).bursts = (s.leaf c j).bursts := by
  unfold State.arrival
  extract_lets x u as sum mean n
  have hdraw (v : State) : v.draw.leaf c j = v.leaf c j := rfl
  rw [hdraw, State.onLeaf_leaf_same]
  have hraise (v : State) (d0 : Word) (d1 : BitVec 32) : (v.raise c 0x1520 1 d0 d1).leaf c j = v.leaf c j := rfl
  have hu : (u.leaf c j).bursts = (s.leaf c j).bursts := by
    unfold u
    split
    · rw [hraise, State.onLeaf_leaf_same]
    · split
      · rw [State.onLeaf_leaf_same]
      · rfl
  exact hu

/-- A confirmed burst is counted at its leaf; its receiver counts no more than its place. -/
theorem State.confirmBurst_counts (c i j cell : Nat) (ofs : Int) :
    (∃ n, (s.confirmBurst c i j cell ofs).receiver c i = { s.receiver c i with misplaced := n }) ∧
      ((s.confirmBurst c i j cell ofs).leaf c j).bursts = (s.leaf c j).bursts + 1 := by
  unfold State.confirmBurst
  extract_lets q u v
  have hv : v.receiver c i = u.receiver c i := State.receiver_of_hearing (u.onLeaf_hearing ..) c i
  have hvl : (v.leaf c j).bursts = (s.leaf c j).bursts + 1 := by
    unfold v
    rw [State.onLeaf_leaf_same]
    unfold u
    rw [State.onReceiver_leaf]
  rw [show u.receiver c i = _ from s.onReceiver_same c i _] at hv
  split
  · exact ⟨⟨_, (State.receiver_of_hearing (v.arrival_hearing ..) c i).trans hv⟩, (v.arrival_bursts ..).trans hvl⟩
  · exact ⟨⟨_, hv⟩, hvl⟩

/-! ### Records that wait for their instant (R320, R321) -/

/-- What a leaf's bursts leave for their delivery: the records that wait, the last frame delivered, and the bursts' SNR. -/
def Leaf.post (y : Leaf) : List FrameRecord × Option (BitVec 32 × Nat) × List Nat := (y.records, y.delivered, y.snrs)

/-- The point-to-multipoint part of a channel. -/
abbrev Channel.multipoint (ch : Channel) : P2mp := ch.pm

theorem State.bankDone_multipoint (c : Nat) : (s.bankDone c).view Channel.multipoint = s.view Channel.multipoint := by
  unfold State.bankDone
  dsimp only
  split
  · split <;> simp
  · simp

theorem State.onLeaf_post (c j k : Nat) (g : Leaf → Leaf) (hg : ∀ y, (g y).post = y.post) :
    ((s.onLeaf c j g).leaf c k).post = (s.leaf c k).post := by
  by_cases hk : k = j
  · rw [hk, State.onLeaf_leaf_same, hg]
  · rw [State.onLeaf_leaf_ne _ _ _ hk]

theorem State.hubIndicator_post (c j k : Nat) (sw : Bool) (count : BitVec 32) :
    ((s.hubIndicator c j sw count).leaf c k).post = (s.leaf c k).post := by
  unfold State.hubIndicator
  dsimp only
  split
  · have hpm := congrFun ((s.onLeaf c j fun x => { x with bankFar := some count }).bankDone_multipoint c) c
    exact (congrArg (fun x : P2mp => (x.leaf k).post) hpm :).trans (s.onLeaf_post c j k _ fun _ => rfl)
  · rfl

/-- A record has not been overtaken by the deliveries of its leaf. -/
def Leaf.awaits (y : Leaf) (r : FrameRecord) : Bool := y.delivered.all fun d => frameAfter r.mfc r.frame d.1 d.2

theorem Leaf.awaits_of_post {x y : Leaf} (h : x.post = y.post) (r : FrameRecord) : x.awaits r = y.awaits r := by
  simp only [Leaf.post, Prod.mk.injEq] at h
  obtain ⟨-, hdelivered, -⟩ := h
  simp only [Leaf.awaits, hdelivered]

theorem State.keepRecord_post (c j : Nat) (r : FrameRecord) :
    ((s.keepRecord c j r).leaf c j).post =
      ((s.leaf c j).records ++ [r].filter (s.leaf c j).awaits, (s.leaf c j).delivered, (s.leaf c j).snrs) := by
  unfold State.keepRecord
  extract_lets x newBank u late
  have hu : (u.leaf c j).post = (s.leaf c j).post := by
    refine (State.hubIndicator_post _ c j j newBank r.mfc).trans ?_
    simp [State.leaf]
  have hlate : late = !(s.leaf c j).awaits r := by
    rw [← Leaf.awaits_of_post hu]
    unfold late Leaf.awaits
    cases (u.leaf c j).delivered <;> rfl
  rw [hlate]
  simp only [Leaf.post, Prod.mk.injEq] at hu
  obtain ⟨hrecords, hdelivered, hsnrs⟩ := hu
  cases hawaits : (s.leaf c j).awaits r with
  | false => simp [Leaf.post, hawaits, hrecords, hdelivered, hsnrs]
  | true => simp [Leaf.post, hawaits, State.onLeaf_leaf_same, hrecords, hdelivered, hsnrs]

/-- The frame record that an item brings, when it came whole. -/
def BurstItem.record (own : BitVec 32) : BurstItem → Option FrameRecord
  | .frame true h ws => some (frameRecord own h ws)
  | _ => none

/-- A burst of frame records leaves those that came whole and are still to be delivered, in their order. -/
theorem State.foldl_leafItem_post (c j : Nat) (items : List BurstItem)
    (h : (items.all fun | .frame _ _ _ => true | _ => false) = true) :
    ((items.foldl (fun s it => s.leafItem c j it) s).leaf c j).post =
      ((s.leaf c j).records ++ (items.filterMap (BurstItem.record (s.chan c).hubCount)).filter (s.leaf c j).awaits,
        (s.leaf c j).delivered, (s.leaf c j).snrs) := by
  induction items generalizing s with
  | nil => simp [Leaf.post]
  | cons it items ih =>
    rw [List.all_cons, Bool.and_eq_true] at h
    obtain ⟨hit, hitems⟩ := h
    rw [List.foldl_cons, ih _ hitems]
    cases it with
    | chunk _ _ | status _ _ | discovery _ _ => cases hit
    | frame ok w ws =>
      cases ok with
      | false => rfl
      | true =>
        have hpost := s.keepRecord_post c j (frameRecord (s.chan c).hubCount w ws)
        have hawaits : (((s.keepRecord c j (frameRecord (s.chan c).hubCount w ws)).leaf c j).awaits) = (s.leaf c j).awaits := by
          funext r
          simp only [Leaf.post, Prod.mk.injEq] at hpost
          obtain ⟨-, hdelivered, -⟩ := hpost
          simp only [Leaf.awaits, hdelivered]
        have hcount := State.hubCount_of_hearing (s.keepRecord_hearing c j (frameRecord (s.chan c).hubCount w ws)) c
        simp only [Leaf.post, Prod.mk.injEq] at hpost
        obtain ⟨hrecords, hdelivered, hsnrs⟩ := hpost
        simp only [State.leafItem, hawaits, hcount, hrecords, hdelivered, hsnrs, List.append_assoc, ← List.filter_append]
        rfl

end Sys2Proof.Machine
end

section
/-! The rows of hubs and leaves (13 R313 to R325). -/

namespace Sys2Proof.Machine

/-! ### Bursts sent (R318 to R321, R324) -/

theorem State.onPm_pm (s : State) (c : Nat) (g : P2mp → P2mp) : ((s.onPm c g).chan c).pm = g (s.chan c).pm := by
  rw [State.onPm_eq, State.setChan_chan_same]

theorem State.sendBurst_pm (s : State) (c leaf subc cell n eqd : Nat) (disc : Bool) (ws : List Word) :
    ((s.sendBurst c leaf subc cell n eqd disc ws).chan c).pm =
      { (s.chan c).pm with bseq := (s.chan c).pm.bseq + 1, burstsTx := (s.chan c).pm.burstsTx + 1 } := by
  unfold State.sendBurst
  extract_lets h
  rw [State.onPm_pm, State.emit_chan]

theorem State.leafBodySent_pm (s : State) (c : Nat) :
    ((s.leafBodySent c).chan c).pm = { (s.chan c).pm with adv := (s.chan c).pm.adv + 1 } :=
  s.onPm_pm ..

/-- No discovery window is left in the maps of a multiframe. -/
def P2mp.closeDiscovery (x : P2mp) (m : BitVec 32) : P2mp :=
  { x with maps := x.maps.map fun q => if q.gov = m then { q with disc := none } else q }

theorem P2mp.closeDiscovery_disc (x : P2mp) (m : BitVec 32) : ∀ q ∈ (x.closeDiscovery m).maps, q.gov = m → q.disc = none := by
  simp only [P2mp.closeDiscovery, List.mem_map, forall_exists_index, and_imp, forall_apply_eq_imp_iff₂]
  intro q _ hq
  by_cases h : q.gov = m
  · rw [if_pos h]
  · rw [if_neg h] at hq
    exact absurd hq h

section Rows

variable {s : State} {c : Fin 32} (hp : s.boot.powered = true)
include hp

theorem grantMap_keeps {ws : List Word} (hm : (s.chan c).pm.mode = .leaf) (hj : (s.chan c).pm.joining = true)
    (hin : (s.chan c).pm.mapIn = some ws) :
    ∃ t, exec (.grantMap c) s = .next t ∧ (t.chan c).pm.gmIn = [] ∧ (t.chan c).pm.maps.length ≤ 4 ∧
      ∃ m, (t.chan c).pm.maps.getLast? = some m ∧ m.gov = mapGov ws := by
  refine ⟨_, occursWith_some (a := ws) _ (by simp [hp, hm, hj, hin]), ?_⟩
  obtain ⟨hgm, hlen, hlast⟩ := (s.onPm c fun x => { x with gmIn := [] }).acceptMap_keeps c ws
  rw [State.onPm_pm] at hgm
  rw [State.remark_chan_pm]
  exact ⟨hgm, hlen, hlast⟩

theorem discoverySend_sends {subc : Nat} (hm : (s.chan c).pm.mode = .leaf) (hj : (s.chan c).pm.joining = true)
    (hjoin : (s.chan c).pm.join = 1) (hsend : (s.chan c).tf.sending = true) (hemits : s.emits c = true)
    (hdisc : ((s.chan c).pm.maps.find? fun m => m.gov = (s.chan c).tf.mfc).bind (·.disc) = some subc) :
    ∃ t, exec (.discoverySend c) s = .next t ∧ (∀ m ∈ (t.chan c).pm.maps, m.gov = (s.chan c).tf.mfc → m.disc = none) ∧
      ((s.chan c).pm.skip = 0 → (t.chan c).pm.join = 2 ∧ (t.chan c).pm.burstsTx = (s.chan c).pm.burstsTx + 1) ∧
      (0 < (s.chan c).pm.skip → (t.chan c).pm.join = 1 ∧ (t.chan c).pm.skip = (s.chan c).pm.skip - 1 ∧
        (t.chan c).pm.burstsTx = (s.chan c).pm.burstsTx) := by
  refine ⟨_, occursWith_some (a := subc) _ (by simp [hp, hm, hj, hjoin, hsend, hemits, hdisc]), ?_⟩
  have hclosed := (s.chan c).pm.closeDiscovery_disc (s.chan c).tf.mfc
  extract_lets u ws
  have hu : (u.chan c).pm = (s.chan c).pm.closeDiscovery (s.chan c).tf.mfc := s.onPm_pm ..
  rw [State.remark_chan_pm]
  by_cases hskip : 0 < (s.chan c).pm.skip
  · rw [if_pos hskip, State.onPm_pm, hu]
    exact ⟨hclosed, fun h => absurd h (Nat.ne_of_gt hskip), fun _ => ⟨hjoin, rfl, rfl⟩⟩
  · rw [if_neg hskip, State.onPm_pm, State.leafBodySent_pm, State.sendBurst_pm, hu]
    exact ⟨hclosed, fun _ => ⟨rfl, rfl⟩, fun h => absurd h hskip⟩

theorem burstWindow_sends {subc : Fin 16} {start : Fin 2048} {m : LeafMap} {g : Grant} (hm : (s.chan c).pm.mode = .leaf)
    (hb : (s.chan c).pm.burst = true) (hup : (s.chan c).pm.upstream = true) (hsend : (s.chan c).tf.sending = true)
    (hemits : s.emits c = true) (hmap : (s.chan c).pm.maps.find? (fun m => m.gov = (s.chan c).tf.mfc) = some m)
    (hgrant : m.grants.find? (fun g => g.subc = subc.val && g.start = start.val) = some g) :
    ∃ t, exec (.burstWindow c subc start) s = .next t ∧ (t.chan c).pm.burstsTx = (s.chan c).pm.burstsTx + 1 ∧
      (t.chan c).pm.bseq = (s.chan c).pm.bseq + 1 ∧ ∀ k ∈ (t.chan c).pm.maps, k.gov = (s.chan c).tf.mfc → g ∉ k.grants := by
  refine ⟨_, occursWith_some (a := (m, g)) _ (by simp [hp, hm, hb, hup, hsend, hemits, hmap, hgrant]), ?_⟩
  have hgov : m.gov = (s.chan c).tf.mfc := by simpa using List.find?_some hmap
  rw [State.remark_chan_pm]
  unfold State.windowBurst
  extract_lets x now late q ws u
  rw [State.leafBodySent_pm, State.sendBurst_pm, State.onPm_pm]
  refine ⟨rfl, rfl, ?_⟩
  simp only [List.mem_map, forall_exists_index, and_imp, forall_apply_eq_imp_iff₂]
  intro k _
  by_cases hk : k.gov = m.gov
  · rw [if_pos hk]
    simp
  · rw [if_neg hk]
    exact fun h => absurd (h.trans hgov.symm) hk

end Rows

/-! ### Discovery bursts (R324) -/

/-- The serial that an item brings, when it came whole. -/
def BurstItem.serial : BurstItem → Option Word
  | .discovery true w => some w
  | _ => none

theorem State.burstData_discovery (s : State) (c i : Nat) {x : BurstIn} (leaf : Nat) (arrival : Int) {serial : Word}
    (h : (burstItems (burstWords x).length (burstWords x)).findSome? BurstItem.serial = some serial) :
    s.burstData c i x leaf true arrival =
      (s.onReceiver c i fun r => { r with
        rowsUncorr := r.rowsUncorr + BitVec.ofNat 32 ((rowsDecoded x).filter Option.isNone).length }).discovered c serial arrival := by
  unfold State.burstData
  extract_lets u items
  rw [if_pos rfl]
  split
  · next w hw =>
    obtain rfl := Option.some.inj (hw.symm.trans h)
    rfl
  · next hw => exact absurd (hw.symm.trans h) (by simp)

/-- A discovery burst of a serial that no context names is reported. -/
theorem State.discovered_unknown (s : State) (c : Nat) {serial : Word} (a : Int)
    (h : ∀ q ∈ (s.chan c).pm.leaves, q.2.serial ≠ serial) :
    ∃ e ∈ (s.discovered c serial a).batch, e.source = c ∧ e.code = 0x1522 := by
  unfold State.discovered
  split
  · next j y hfind =>
    have hmem := List.mem_of_find?_eq_some hfind
    have hsame := List.find?_some hfind
    simp only [Bool.and_eq_true, decide_eq_true_eq] at hsame
    exact absurd hsame.1 (h _ hmem)
  · exact s.raise_event ..

/-- A discovery burst of a serial that waits to be ranged ranges its leaf. -/
theorem State.discovered_ranges (s : State) (c : Nat) {serial : Word} (a : Int) {j : Nat} {y : Leaf}
    (h : (s.chan c).pm.leaves.find? (fun q => q.2.serial = serial &&
      (q.2.state = .expected || q.2.state = .lost || q.2.rerange)) = some (j, y)) :
    ((s.discovered c serial a).leaf c j).state = .ranging ∧ ((s.discovered c serial a).leaf c j).eqd = (1024000 - a).toNat ∧
      ((s.discovered c serial a).leaf c j).rerange = false := by
  have hassign (u : State) (g : P2mp → List (Word × Nat × Nat)) :
      (u.onPm c fun x => { x with assigns := g x }).leaf c j = u.leaf c j := by
    rw [State.leaf, State.onPm_pm]
    rfl
  unfold State.discovered
  rw [h]
  dsimp only
  rw [hassign, State.onLeaf_leaf_same]
  exact ⟨rfl, rfl, rfl⟩

/-! ### Bursts received (R322, R323) -/

section Hub

variable {s : State} {c : Fin 32} {i : Fin 16} (hi : s.sharedSub c i = true)
include hi

theorem burstDetect_opens {d : Nat × Nat} (part : BurstIn) (hidle : (s.receiver c i).rx = .idle) (hd : (s.chan c).pm.detThr ≤ d.1) :
    ∃ t, exec (.burstDetect c i [d] part) s = .next t ∧ (t.receiver c i).rx = .unconfirmed d.1 d.2 ∧
      (t.receiver c i).detect = (s.receiver c i).detect + 1 ∧ (t.receiver c i).collision = (s.receiver c i).collision := by
  refine ⟨_, occursWith_some (a := d) _ (by simp [hi, hd, strongest]), ?_⟩
  have hone : ([d].filter fun d => (s.chan c).pm.detThr ≤ d.1).length - 1 = 0 := by simp [hd]
  rw [State.remark_receiver, hone]
  simp only [State.detect, hidle, State.openBurst, State.onReceiver_same, BurstChan.collide]
  exact ⟨trivial, trivial, BitVec.add_zero _⟩

theorem burstHeaderCheck_fails {h : Word} {cell : Fin 2048} {corr power : Nat} (ofs : Int)
    (hrx : (s.receiver c i).rx = .unconfirmed corr power) (hfail : (s.chan c).headerPasses i cell h = false) :
    ∃ t, exec (.burstHeaderCheck c i h cell ofs) s = .next t ∧ (t.receiver c i).rx = .idle ∧
      (t.receiver c i).hdrFail = (s.receiver c i).hdrFail + 1 := by
  refine ⟨_, occursWith_some (a := power) _ (by simp [hi, hrx]), ?_⟩
  rw [State.remark_receiver]
  simp only [State.headerCheck, hfail, Bool.not_false, if_true, State.onReceiver_same, and_self]

theorem burstHeaderCheck_confirms {h : Word} {cell : Fin 2048} {corr power : Nat} (ofs : Int)
    (hrx : (s.receiver c i).rx = .unconfirmed corr power) (hpass : (s.chan c).headerPasses i cell h = true) (hleaf : h.bits 6 0 ≠ 127) :
    ∃ t, exec (.burstHeaderCheck c i h cell ofs) s = .next t ∧
      (t.receiver c i).rx = .confirmed power (h.bits 6 0) (h.bits 19 8) false cell ofs ∧
      (t.receiver c i).confirmed = (s.receiver c i).confirmed + 1 ∧
      (t.leaf c (h.bits 6 0)).bursts = (s.leaf c (h.bits 6 0)).bursts + 1 := by
  refine ⟨_, occursWith_some (a := power) _ (by simp [hi, hrx]), ?_⟩
  rw [State.remark_receiver, State.remark_leaf]
  simp only [State.headerCheck, hpass, hleaf, Bool.not_true, Bool.false_eq_true, if_false, decide_false]
  generalize hu : (s.onReceiver c i fun x => { x with
    rx := .confirmed power (h.bits 6 0) (h.bits 19 8) false cell ofs, confirmed := x.confirmed + 1, discRx := x.discRx }) = u
  obtain ⟨⟨n, hreceiver⟩, hbursts⟩ := u.confirmBurst_counts c i (h.bits 6 0) cell ofs
  rw [hreceiver, hbursts, ← hu, State.onReceiver_same, State.onReceiver_leaf]
  exact ⟨rfl, rfl, rfl⟩

theorem burstReceived_state {x : BurstIn} {power leaf cell : Nat} {disc : Bool} {ofs : Int}
    (hrx : (s.receiver c i).rx = .confirmed power leaf x.rows.length disc cell ofs) :
    s.Does (.burstReceived c i x) ((s.burstData c i x leaf disc (1000 * ((cell : Int) - 1023) + ofs)).onReceiver c i fun r =>
      { r with rx := .idle }) :=
  occursWith_some (a := (leaf, disc, cell, ofs)) _ (by simp [hi, hrx])

theorem burstReceived_idles {x : BurstIn} {power leaf cell : Nat} {disc : Bool} {ofs : Int}
    (hrx : (s.receiver c i).rx = .confirmed power leaf x.rows.length disc cell ofs) :
    ∃ t, exec (.burstReceived c i x) s = .next t ∧ (t.receiver c i).rx = .idle ∧
      (t.receiver c i).rowsUncorr =
        (s.receiver c i).rowsUncorr + BitVec.ofNat 32 ((rowsDecoded x).filter Option.isNone).length := by
  refine ⟨_, burstReceived_state hi hrx, ?_⟩
  rw [State.remark_receiver, State.onReceiver_same, State.receiver_of_hearing (State.burstData_hearing ..), State.onReceiver_same]
  exact ⟨rfl, rfl⟩

theorem burstReceived_records {x : BurstIn} {power leaf cell : Nat} {ofs : Int} {items : List BurstItem}
    (hrx : (s.receiver c i).rx = .confirmed power leaf x.rows.length false cell ofs)
    (hitems : items = burstItems (burstWords x).length (burstWords x))
    (hframes : (items.all fun | .frame _ _ _ => true | _ => false) = true) :
    ∃ t, exec (.burstReceived c i x) s = .next t ∧
      (t.leaf c leaf).records = (s.leaf c leaf).records ++ (items.filterMap (BurstItem.record (s.chan c).hubCount)).filter
        (s.leaf c leaf).awaits ∧
      (t.leaf c leaf).snrs = (min 255 x.snr :: (s.leaf c leaf).snrs).take 16 := by
  refine ⟨_, burstReceived_state hi hrx, ?_⟩
  rw [State.remark_leaf, State.onReceiver_leaf]
  simp only [State.burstData, Bool.false_eq_true, if_false, State.onLeaf_leaf_same, ← hitems]
  generalize hu : (s.onReceiver c i fun r => { r with
    rowsUncorr := r.rowsUncorr + BitVec.ofNat 32 ((rowsDecoded x).filter Option.isNone).length }) = u
  have hleaf : u.leaf c leaf = s.leaf c leaf := by rw [← hu, State.onReceiver_leaf]
  have hcount : (u.chan c).hubCount = (s.chan c).hubCount := by
    rw [← hu, State.onReceiver, State.onPm_eq, State.setChan_chan_same]
    rfl
  have hpost := u.foldl_leafItem_post c leaf items hframes
  simp only [Leaf.post, Prod.mk.injEq, hleaf, hcount] at hpost
  obtain ⟨hrecords, -, hsnrs⟩ := hpost
  exact ⟨hrecords, by rw [hsnrs]⟩

theorem burstReceived_discovers {x : BurstIn} {power leaf cell : Nat} {ofs : Int} {serial : Word}
    (hrx : (s.receiver c i).rx = .confirmed power leaf x.rows.length true cell ofs)
    (hserial : (burstItems (burstWords x).length (burstWords x)).findSome? BurstItem.serial = some serial) :
    ∃ t, exec (.burstReceived c i x) s = .next t ∧
      ((∀ q ∈ (s.chan c).pm.leaves, q.2.serial ≠ serial) → ∃ e ∈ t.batch, e.source = c.val ∧ e.code = 0x1522) ∧
      (∀ j y, (s.chan c).pm.leaves.find? (fun q => q.2.serial = serial &&
          (q.2.state = .expected || q.2.state = .lost || q.2.rerange)) = some (j, y) →
        (t.leaf c j).state = .ranging ∧ (t.leaf c j).eqd = (1024000 - (1000 * ((cell : Int) - 1023) + ofs)).toNat ∧
        (t.leaf c j).rerange = false) := by
  refine ⟨_, burstReceived_state hi hrx, ?_⟩
  rw [State.burstData_discovery s c i leaf _ hserial]
  generalize hu : (s.onReceiver c i fun r => { r with
    rowsUncorr := r.rowsUncorr + BitVec.ofNat 32 ((rowsDecoded x).filter Option.isNone).length }) = u
  have hleaves : (u.chan c).pm.leaves = (s.chan c).pm.leaves := by
    rw [← hu, State.onReceiver, State.onPm_pm]
  rw [← hleaves]
  refine ⟨fun hnew => ?_, fun j y hfind => ?_⟩
  · obtain ⟨e, he, hevent⟩ := u.discovered_unknown c (1000 * ((cell : Int) - 1023) + ofs) hnew
    exact ⟨e, State.remark_batch he, hevent⟩
  · rw [State.remark_leaf, State.onReceiver_leaf]
    exact u.discovered_ranges c (1000 * ((cell : Int) - 1023) + ofs) hfind

end Hub

/-! ### Delivery and lost leaves (R320, R321, R325) -/

theorem State.onTrib_leaf (s : State) (i : Nat) (g : Trib → Trib) (c j : Nat) : (s.onTrib i g).leaf c j = s.leaf c j := by
  simp only [State.onTrib, State.setTrib, State.onChan_eq, State.leaf, State.setChan_chan]
  split
  · next h => rw [h]; rfl
  · rfl

/-- A leaf becomes Lost with its event; its window and subcarriers stay its own. -/
theorem State.loseLeaf_lost (s : State) (c j cause : Nat) :
    (s.loseLeaf c j cause).leaf c j =
        { s.leaf c j with state := .lost, silent := 0, lostNs := none, arrivals := [], fresh := 0, fix := 0 } ∧
      ∃ e ∈ (s.loseLeaf c j cause).batch, e.source = c ∧ e.code = 0x1521 := by
  unfold State.loseLeaf
  extract_lets u
  have huleaf : u.leaf c j = { s.leaf c j with state := .lost, silent := 0, lostNs := none, arrivals := [], fresh := 0, fix := 0 } := by
    have hraise (v : State) (d0 : Word) : (v.raise c 0x1521 3 d0).leaf c j = v.leaf c j := rfl
    unfold u
    rw [hraise, State.onLeaf_leaf_same]
  have hubatch : ∃ e ∈ u.batch, e.source = c ∧ e.code = 0x1521 := State.raise_event ..
  generalize u = v at huleaf hubatch
  refine ⟨(foldl_eq_of (fun s : State => s.leaf c j) _ _ _ fun s l => ?_).trans huleaf, ?_⟩
  · split
    · exact s.onTrib_leaf ..
    · rfl
  · rwa [foldl_eq_of (·.batch) _ _ _ fun s l => by split <;> rfl]

section Leaves

variable {s : State} {c : Fin 32} {j : Fin 64} (hp : s.boot.powered = true)
include hp

theorem burstRecordDelivery_delivers {m : BitVec 32} {k : Fin 256} (hawake : (s.chan c).awake = true)
    (hm : (s.chan c).pm.mode = .hub) (hb : (s.leaf c j).burst = true) (hactive : (s.leaf c j).state = .active)
    (hdue : ∀ d, (s.leaf c j).delivered = some d → nextNumbers d.1 d.2 = (m, k.val)) (hpast : (s.chan c).instantPast m k = true) :
    ∃ t, exec (.burstRecordDelivery c j m k) s = .next t ∧ (t.leaf c j).delivered = some (m, k.val) ∧
      ∀ r ∈ (t.leaf c j).records, frameAfter r.mfc r.frame m k = true := by
  have hb' : ((s.chan c).pm.leaf j).burst = true := hb
  have hactive' : ((s.chan c).pm.leaf j).state = .active := hactive
  have hdue' : (match ((s.chan c).pm.leaf j).delivered with
      | some d => decide (nextNumbers d.1 d.2 = (m, k.val)) | none => true) = true := by
    cases hd : ((s.chan c).pm.leaf j).delivered with
    | none => rfl
    | some d => exact decide_eq_true (hdue d hd)
  refine ⟨_, occurs_true _ ?_, ?_⟩
  · simp only [hp, hawake, hm, hb', hactive', hpast, Bool.true_and, Bool.and_true, decide_true]
    exact hdue'
  · rw [State.remark_leaf]
    unfold State.deliverRecords
    extract_lets rs bank u
    rw [State.onLeaf_leaf_same]
    exact ⟨rfl, fun r hr => (List.mem_filter.1 hr).2⟩

theorem leafLost_loses (hawake : (s.chan c).awake = true) (hm : (s.chan c).pm.mode = .hub) (hactive : (s.leaf c j).state = .active)
    (hlost : ((s.leaf c j).burst = true ∧ 16 ≤ (s.leaf c j).silent) ∨ ((s.leaf c j).burst = false ∧ (s.leaf c j).lostNs.isSome = true)) :
    ∃ t, exec (.leafLost c j) s = .next t ∧ (t.leaf c j).state = .lost ∧ (t.leaf c j).slotBase = (s.leaf c j).slotBase ∧
      (t.leaf c j).dedMask = (s.leaf c j).dedMask ∧ ∃ e ∈ t.batch, e.source = c.val ∧ e.code = 0x1521 := by
  have hlosing (cause due : Nat) (h : exec (.leafLost c j) s = .next ((s.at due).loseLeaf c j cause).remark) :
      ∃ t, exec (.leafLost c j) s = .next t ∧ (t.leaf c j).state = .lost ∧ (t.leaf c j).slotBase = (s.leaf c j).slotBase ∧
        (t.leaf c j).dedMask = (s.leaf c j).dedMask ∧ ∃ e ∈ t.batch, e.source = c.val ∧ e.code = 0x1521 := by
    obtain ⟨hleaf, e, he, hevent⟩ := (s.at due).loseLeaf_lost c j cause
    refine ⟨_, h, ?_⟩
    rw [State.remark_leaf, hleaf]
    exact ⟨rfl, rfl, rfl, e, State.remark_batch he, hevent⟩
  rcases hlost with ⟨hburst, hsilent⟩ | ⟨hded, hsome⟩
  · exact hlosing 1 s.now (occursWith_some (a := (1, s.now)) _ (by simp [hp, hawake, hm, hactive, hburst, hsilent]))
  · obtain ⟨t, ht⟩ := Option.isSome_iff_exists.1 hsome
    exact hlosing 2 (t + 100000000) (occursWith_some (a := (2, t + 100000000)) _ (by simp [hp, hawake, hm, hactive, hded, ht]))

end Leaves

/-- Settles O53: the rows of a leaf change its maps and counts alone; a burst's items leave the hub's receivers, and what a leaf's bursts
leave for their delivery is read record by record. -/
theorem multipointRowsComplete : Obligations.MultipointRowsComplete := by
  unfold Obligations.MultipointRowsComplete
  intro s c hp
  refine ⟨fun ws => grantMap_keeps hp, fun subc => discoverySend_sends hp, fun subc start m g => burstWindow_sends hp,
    fun i d part hi => burstDetect_opens hi part, fun i h cell ofs corr power hi => burstHeaderCheck_fails hi ofs,
    fun i h cell ofs corr power hi => burstHeaderCheck_confirms hi ofs, fun i x power leaf disc cell ofs hi => burstReceived_idles hi,
    fun i x power leaf cell ofs items hi hrx hitems hframes => ?_, fun i x power leaf cell ofs serial hi hrx hserial =>
      burstReceived_discovers hi hrx hserial, fun j m k => burstRecordDelivery_delivers hp, fun j => leafLost_loses hp⟩
  exact burstReceived_records hi hrx hitems hframes

end Sys2Proof.Machine
end

section
/-! The monitor converters: what reads of memory and records leave of them, and their filters, scan lists and references (15 R356 to
R369). -/

namespace Sys2Proof.Machine

variable (s : State)

/-! ### What a read of memory leaves alone (17 R393, R394) -/

@[simp] theorem State.advise_convs (k addr : Nat) : (s.advise k addr).convs = s.convs := by
  unfold State.advise
  dsimp only
  split <;> rfl

@[simp] theorem State.logSticky_convs (k addr bit : Nat) (uncorr : Bool) : (s.logSticky k addr bit uncorr).convs = s.convs := by
  unfold State.logSticky
  dsimp only
  split
  · rfl
  · split <;> rfl

@[simp] theorem State.noteError_convs (k addr bit : Nat) (uncorr : Bool) : (s.noteError k addr bit uncorr).convs = s.convs := by
  unfold State.noteError
  dsimp only
  split
  · rw [State.advise_convs, State.setSram_convs]
  · split
    · rw [State.advise_convs, State.logSticky_convs, State.setSram_convs]
    · exact s.setSram_convs ..

@[simp] theorem State.demandError_convs (k addr bit : Nat) : (s.demandError k addr bit).convs = s.convs := by
  unfold State.demandError
  dsimp only
  split
  · rfl
  · rw [State.noteError_convs]
    rfl

theorem State.readRange_convs (k a len : Nat) (new : List (Nat × Nat)) : (s.readRange k a len new).1.convs = s.convs := by
  unfold State.readRange
  extract_lets u here
  have hu : u.convs = s.convs := foldl_eq_of (·.convs) _ _ _ fun s e => rfl
  refine (foldl_eq_of (·.convs) _ _ _ fun s p => ?_).trans hu
  split
  · exact s.demandError_convs ..
  · rfl

theorem State.countUncorr_convs (k addr kind : Nat) : (s.countUncorr k addr kind).convs = s.convs := by
  unfold State.countUncorr
  dsimp only
  split
  · rfl
  · rw [State.noteError_convs]
    rfl

theorem State.stopTransfer_convs (ring cmd : Option Nat) : (s.stopTransfer ring cmd).convs = s.convs := by
  unfold State.stopTransfer
  extract_lets served u
  have hu : u.convs = s.convs := s.finishOpt_convs ..
  clear_value served
  cases served with
  | none => exact hu
  | some r =>
    dsimp only
    unfold State.haltRing
    split
    · simp [State.flushPosted, hu]
    · exact hu

/-- A transfer that reads memory leaves the converters as what it does with the words read leaves them. -/
theorem State.dmaRead_convs {s : State} (f : Flight) (k a len : Nat) (new : List (Nat × Nat)) {go : State → State}
    (hgo : ∀ u : State, u.convs = s.convs → (go u).convs = s.convs) : (s.dmaRead f k a len new go).convs = s.convs := by
  have hread := s.readRange_convs k a len new
  unfold State.dmaRead
  split
  · next u hu =>
    rw [hu] at hread
    exact hgo u hread
  · next u w hu =>
    rw [hu] at hread
    rw [State.stopTransfer_convs, State.countUncorr_convs, hread]

/-! ### Filters -/

theorem Converter.filter_setFilter_same (k : Converter) (i : Nat) (x : Filter) : (k.setFilter i x).filter i = x := by
  simp [Converter.filter, Converter.setFilter]

theorem Converter.filter_setFilter_ne (k : Converter) {i j : Nat} (x : Filter) (h : j ≠ i) :
    (k.setFilter i x).filter j = k.filter j := by
  simp [Converter.filter, Converter.setFilter, h]

/-! ### Records (R368, R369) -/

theorem State.conv_of_convs {s t : State} (h : t.convs = s.convs) (n : Nat) : t.conv n = s.conv n := by
  simp only [State.conv, h]

@[simp] theorem State.putTideline_convs (r : Nat) (ws : List Word) : (s.putTideline r ws).convs = s.convs := by
  unfold State.putTideline
  dsimp only
  split
  · rfl
  · split
    · rfl
    · rw [State.wrote_convs]
      rfl

/-- A written record is counted, and its filter is as given but for its count of records and, without STALE, the value. -/
theorem State.writeRecord_conv (n i : Nat) (x : Filter) (v : BitVec 32) (g : RecFlags) :
    ((s.writeRecord n i x v g).conv n).records = (s.conv n).records + 1 ∧
      ((s.writeRecord n i x v g).conv n).filter i =
        { x with rseq := x.rseq + 1, last := if g.stale then x.last else some v } := by
  unfold State.writeRecord
  extract_lets k ws y src u
  have hfold (rs : List Nat) : (rs.foldl (fun s r => s.putTideline r ws) u).conv n = u.conv n :=
    State.conv_of_convs (foldl_eq_of (fun s : State => s.convs) _ _ _ fun s r => s.putTideline_convs r ws) n
  have hu : u.conv n = { k.setFilter i y with records := k.records + 1, buffer := (ws :: k.buffer).take 16384 } :=
    State.setConv_conv_same ..
  rw [hfold, hu]
  refine ⟨rfl, (k.filter_setFilter_same i y).trans ?_⟩
  unfold y
  cases g.stale <;> rfl

end Sys2Proof.Machine
end

section
/-! The commands of the monitor converters (15 R356 to R373). -/

namespace Sys2Proof.Machine

/-! ### Rings bound to inputs (R369) -/

/-- A ring joins the rings bound to an input. -/
def joinRing (r : Nat) (m : Sparse (List Nat)) (i : Nat) : Sparse (List Nat) :=
  Sparse.put [] m i (if (m.get [] i).contains r then m.get [] i else m.get [] i ++ [r])

theorem mem_joined (r : Nat) (l : List Nat) : r ∈ (if l.contains r then l else l ++ [r]) := by
  split
  · next h => simpa using h
  · simp

theorem joinRing_same (r : Nat) (m : Sparse (List Nat)) (i : Nat) : r ∈ Sparse.get [] (joinRing r m i) i := by
  have hmem := mem_joined r (m.get [] i)
  rw [joinRing, Sparse.put, if_neg (List.ne_nil_of_mem hmem), Sparse.get_insert_same]
  exact hmem

theorem joinRing_keeps (r : Nat) (m : Sparse (List Nat)) (i : Nat) {j : Nat} (h : r ∈ Sparse.get [] m j) :
    r ∈ Sparse.get [] (joinRing r m i) j := by
  by_cases hj : j = i
  · rw [hj]
    exact joinRing_same ..
  · rwa [joinRing, Sparse.get_put_ne _ _ _ hj]

/-- A ring that joins several inputs is bound to every one of them. -/
theorem foldl_joinRing_mem (r : Nat) (is : List Nat) (m : Sparse (List Nat)) {i : Nat} (h : i ∈ is ∨ r ∈ Sparse.get [] m i) :
    r ∈ Sparse.get [] (is.foldl (joinRing r) m) i := by
  induction is generalizing m with
  | nil => simpa using h
  | cons k is ih =>
    refine ih (joinRing r m k) ?_
    rcases h with h | h
    · rcases List.mem_cons.1 h with rfl | h
      · exact .inr (joinRing_same ..)
      · exact .inl h
    · exact .inr (joinRing_keeps _ _ _ h)

/-! ### The commands -/

section Commands

variable {s : State} {id n : Nat} {f : Flight} (hn : f.desc.target = n)
include hn

theorem monScanSet_sets {ws : List Word} (h : s.Started id 0x1700 f) (hrun : (s.conv n).anyRunning = false)
    (hlen : 1 ≤ f.desc.p0.bits 6 0) (hlen' : f.desc.p0.bits 6 0 ≤ 64)
    (hws : ∀ k, k < f.desc.p0.bits 6 0 → half ws k % 64 ≤ 39 ∧ half ws k / 64 % 4 = 0) :
    ∃ t, exec (.monScanSet id ws) s = .next t ∧ t.flight? f.id = none ∧
      (t.conv n).scan = ((List.range (f.desc.p0.bits 6 0)).map fun k => (half ws k % 64, half ws k / 256 + 1)) ∧
      (t.conv n).filters = (s.conv n).filters ∧ ∀ m, m ≠ n → t.conv m = s.conv m := by
  subst hn
  refine ⟨_, withCmd_started h _, ?_⟩
  extract_lets k len es u
  have hgood : ¬ (len = 0 || 64 < len || es.any fun e => 39 < e % 64 || e / 64 % 4 ≠ 0) = true := by
    simp only [Bool.or_eq_true, decide_eq_true_eq, List.any_eq_true, not_or, not_exists, not_and]
    refine ⟨⟨by omega, by omega⟩, fun e he => ?_⟩
    obtain ⟨i, hi, rfl⟩ := List.mem_map.1 he
    obtain ⟨hinput, hbits⟩ := hws i (List.mem_range.1 hi)
    exact ⟨by omega, by omega⟩
  rw [if_neg (ne_true_of_eq_false hrun), if_neg hgood]
  simp only [State.remark_flight?, State.finish_flight?_same, State.remark_conv, State.finish_conv, State.setConv_conv_same, true_and]
  refine ⟨?_, rfl, fun m hm => ?_⟩
  · simp only [Converter.rescan, es, List.map_map]
    rfl
  · rw [State.setConv_conv_ne _ _ hm]
    exact s.at_conv ..

theorem monFilterSet_sets {ws : List Word} {i : Nat} (h : s.Started id 0x1701 f) (hi : i = f.desc.p0.bits 5 0) (hi' : i ≤ 39)
    (hrun : ((s.conv n).filter i).running = false) (hk : 4 ≤ f.desc.p0.bits 13 9) (hk' : f.desc.p0.bits 13 9 ≤ 20)
    (hdly : f.desc.p0.bit 6 = true ∨ f.desc.p1.bits 15 0 = 0) (hsettle : f.desc.p0.bit 7 = true ∨ i < 8)
    (hcoef : f.desc.p0.bit 30 = true → coefOk (coefOf ws) = true) :
    ∃ t, exec (.monFilterSet id ws) s = .next t ∧ t.flight? f.id = none ∧
      ((t.conv n).filter i).resample = f.desc.p0.bit 6 ∧ ((t.conv n).filter i).settle = f.desc.p0.bit 7 ∧
      ((t.conv n).filter i).dcb = f.desc.p0.bit 8 ∧ ((t.conv n).filter i).dcbK = f.desc.p0.bits 13 9 ∧
      ((t.conv n).filter i).rM1 = f.desc.p0.bits 29 14 ∧
      ((t.conv n).filter i).coef = (if f.desc.p0.bit 30 then some ((coefOf ws).map (signed 18)) else ((s.conv n).filter i).coef) ∧
      (∀ j, j ≠ i → (t.conv n).filter j = (s.conv n).filter j) ∧ ∀ m, m ≠ n → t.conv m = s.conv m := by
  subst hn
  subst hi
  refine ⟨_, withCmd_started h _, ?_⟩
  extract_lets k p i x load dly
  have hrun' : ¬ x.running = true := ne_true_of_eq_false hrun
  have hfields : ¬ (p.bits 13 9 < 4 || 20 < p.bits 13 9 || (!p.bit 6 && dly ≠ 0) || (!p.bit 7 && 8 ≤ i)
      || (load && !coefOk (coefOf ws))) = true := by
    have hdly' : (!p.bit 6 && dly ≠ 0) = false := by rcases hdly with h | h <;> simp [p, dly, h]
    have hsettle' : (!p.bit 7 && 8 ≤ i) = false := by
      rcases hsettle with h | h
      · simp [p, h]
      · simp [decide_eq_false (Nat.not_le.2 h : ¬ 8 ≤ i)]
    have hcoef' : (load && !coefOk (coefOf ws)) = false := by
      cases hload : load with
      | false => rfl
      | true => rw [hcoef hload]; rfl
    rw [hdly', hsettle', hcoef']
    simp only [Bool.or_false, Bool.or_eq_true, decide_eq_true_eq, p]
    omega
  rw [if_neg (Nat.not_lt.2 hi'), if_neg hrun', if_neg hfields]
  simp only [State.remark_flight?, State.finish_flight?_same, State.remark_conv, State.finish_conv, State.setConv_conv_same, true_and]
  have hsame (y : Filter) : (k.setFilter i y).filter (f.desc.p0.bits 5 0) = y := k.filter_setFilter_same ..
  rw [hsame]
  exact ⟨rfl, rfl, rfl, rfl, rfl, rfl, fun j hj => k.filter_setFilter_ne _ hj, fun m hm => s.setConv_conv_ne _ hm⟩

theorem monFilterRun_stops (h : s.Started id 0x1702 f) (hstop : f.desc.p0.bit 40 = false) :
    s.Does (.monFilterRun id) ((s.setConv n (((s.conv n).runFilters (f.desc.p0.bits 39 0) false s.now).freezeFilters
      (f.desc.p1.bits 39 0) (f.desc.p1.bit 40) s.now)).finish f 0) := by
  subst hn
  refine (withCmd_started h _).trans ?_
  simp only [hstop, Bool.false_and, Bool.false_eq_true, if_false]

theorem monStream_binds {r : Nat} (h : s.Started id 0x1703 f) (hr : r = f.desc.p0.bits 15 0) (hen : (s.ring r).en = true)
    (hkind : (s.ring r).kind = .tideline) (howner : (s.ring r).owner = f.link) (hblock : ringBlock r = n)
    (hroom : ∀ i, ((s.conv n).binds.get [] i).length < 4) :
    ∃ t, exec (.monStream id) s = .next t ∧ t.flight? f.id = none ∧
      ∀ i, i < 40 → f.desc.p1.bit i = true → f.desc.p0.bit 16 = true → r ∈ (t.conv n).binds.get [] i := by
  subst hn hr
  refine ⟨_, withCmd_started h _, ?_⟩
  extract_lets k r add x mask ins bound binds
  have howned : ¬ (!(x.en && x.kind = .tideline && x.owner = f.link && ringBlock r = f.desc.target)) = true := by
    simp [x, r, hen, hkind, howner, hblock]
  have hfull : ¬ (add && ins.any fun i => !(bound i).contains r && 4 ≤ (bound i).length) = true := by
    have hnone : (ins.any fun i => !(bound i).contains r && 4 ≤ (bound i).length) = false :=
      List.any_eq_false.2 fun i _ => by
        have hi : ¬ 4 ≤ (bound i).length := Nat.not_le.2 (hroom i)
        simp [hi]
    rw [hnone, Bool.and_false]
    exact Bool.false_ne_true
  rw [if_neg howned, if_neg hfull]
  simp only [State.remark_flight?, State.finish_flight?_same, State.remark_conv, State.finish_conv, State.setConv_conv_same, true_and]
  intro i hi hbit hadd
  have hbinds : binds = ins.foldl (joinRing r) k.binds := by
    unfold binds
    rw [show add = true from hadd]
    rfl
  rw [hbinds]
  refine foldl_joinRing_mem r ins k.binds (.inl (List.mem_filter.2 ⟨List.mem_range.2 hi, ?_⟩))
  rw [show mask = f.desc.p1.bits 39 0 from rfl, Word.testBit_bits, Nat.zero_add, hbit, Bool.and_true]
  exact decide_eq_true hi

theorem monRead_asks (h : s.Started id 0x1704 f) (hi : f.desc.p0.bits 5 0 ≤ 39) (hcount : 1 ≤ f.desc.p0.bits 12 6)
    (hcount' : f.desc.p0.bits 12 6 ≤ 64) (hcal : (s.conv n).selfcal = none) :
    s.Does (.monRead id) ((s.onConv n fun k => k.urgent (some f.id) (f.desc.p0.bits 5 0) (f.desc.p0.bits 12 6) s.now).run f) := by
  subst hn
  have hgood : ¬ (39 < f.desc.p0.bits 5 0 || f.desc.p0.bits 12 6 = 0 || 64 < f.desc.p0.bits 12 6) = true := by
    simp only [Bool.or_eq_true, decide_eq_true_eq]
    omega
  refine (withCmd_started h _).trans ?_
  dsimp only
  rw [if_neg hgood, hcal, if_neg (by simp)]

theorem monTest_starts {i : Nat} (h : s.Started id 0x1705 f) (hi : i = f.desc.p0.bits 5 0) (href : (s.conv n).ref ≠ 2)
    (hcount : 1 ≤ f.desc.p0.bits 29 18) (hscan : scanPositions i 0 (s.conv n).scan ≠ [])
    (hlong : f.desc.p0.bits 29 18 * (s.conv n).passLen ≤ 16000 * (s.conv n).validPerPass n i) (hcal : (s.conv n).selfcal = none)
    (htest : (s.conv n).test = none) :
    ∃ t, exec (.monTest id) s = .next t ∧
      (t.conv n).test = some
        { id := id, input := i, code := f.desc.p0.bits 17 6, count := f.desc.p0.bits 29 18, start := (s.conv n).convEnd s.now } := by
  subst hn hi
  refine ⟨_, withCmd_started h _, ?_⟩
  extract_lets n k i count
  have hgood : ¬ (k.ref = 2 || count = 0) = true := by
    simp only [Bool.or_eq_true, decide_eq_true_eq, not_or]
    exact ⟨href, by omega⟩
  have hentered : ¬ (scanPositions i 0 k.scan).isEmpty = true := by simpa using hscan
  have hfree : ¬ (k.selfcal.isSome || k.test.isSome) = true := by
    rw [show k.selfcal = none from hcal, show k.test = none from htest]
    exact Bool.false_ne_true
  rw [if_neg hgood, if_neg hentered, if_neg (Nat.not_lt.2 hlong), if_neg hfree, State.remark_conv, State.run_conv]
  exact congrArg Converter.test (s.setConv_conv_same n _)

theorem monRef_sets {ext : Bool} (h : s.Started id 0x1706 f) (hr : f.desc.p0.bits 1 0 ≠ 3)
    (hext : f.desc.p0.bits 1 0 = 1 → ext = true) :
    ∃ t, exec (.monRef id ext) s = .next t ∧ (t.conv n).ref = f.desc.p0.bits 1 0 ∧ t.flight? f.id = none := by
  subst hn
  refine ⟨_, withCmd_started h _, ?_⟩
  extract_lets r u
  have hok : ¬ (r = 1 && !ext) = true := by
    simp only [Bool.and_eq_true, decide_eq_true_eq, Bool.not_eq_true', not_and]
    intro h1
    rw [hext h1]
    exact Bool.noConfusion
  rw [if_neg hr, if_neg hok]
  simp only [State.remark_flight?, State.finish_flight?_same, State.remark_conv, State.finish_conv, State.onConv, State.setConv_conv_same,
    and_true]
  split
  · next hsame => exact hsame
  · rfl

theorem monSelfcal_starts (h : s.Started id 0x1707 f) (hcal : (s.conv n).selfcal = none) (htest : (s.conv n).test = none)
    (hsettle : s.settling (s.conv n) = false)
    (hup : n < 32 → (s.chan n).bu.stopped = true ∨ ((s.chan n).bu.step ≠ 2 ∧ (s.chan n).bu.step ≠ 3)) :
    ∃ t, exec (.monSelfcal id) s = .next t ∧ (t.conv n).selfcal = some (id, (s.conv n).convEnd s.now) := by
  subst hn
  refine ⟨_, withCmd_started h _, ?_⟩
  extract_lets n k step stopped
  have hfree : ¬ (k.selfcal.isSome || k.test.isSome || s.settling k || (!stopped && (step = 2 || step = 3))) = true := by
    have hbringup : (!stopped && (step = 2 || step = 3)) = false := by
      by_cases hchan : n < 32
      · have hstep : step = (s.chan n).bu.step := if_pos hchan
        have hstopped : stopped = (s.chan n).bu.stopped := if_pos hchan
        rw [hstep, hstopped]
        rcases hup hchan with h | ⟨h2, h3⟩
        · rw [h]; rfl
        · rw [decide_eq_false h2, decide_eq_false h3, Bool.or_false, Bool.and_false]
      · have hstep : step = 0 := if_neg hchan
        rw [hstep, decide_eq_false (by decide), decide_eq_false (by decide), Bool.or_false, Bool.and_false]
    rw [show k.selfcal = none from hcal, show k.test = none from htest, show s.settling k = false from hsettle, hbringup]
    exact Bool.false_ne_true
  rw [if_neg hfree, State.remark_conv, State.run_conv]
  exact congrArg Converter.selfcal (s.setConv_conv_same n _)

/-- With memory intact the newest records go to the buffer, the oldest of them first. -/
theorem monHistory_answers (h : s.Started id 0x1709 f) (hcount : 1 ≤ f.desc.p0.bits 14 0)
    (hfilled : f.desc.p0.bits 14 0 ≤ (s.conv n).buffer.length) (hcount' : f.desc.p0.bits 14 0 ≤ 16384) (hclean : (s.sram n).bad = []) :
    s.Does (.monHistory id)
      ((s.writeBuf f 0 (wordsBytes ((s.conv n).buffer.take (f.desc.p0.bits 14 0)).reverse.flatten)).finish f 0) := by
  subst hn
  refine (withCmd_started h _).trans ?_
  extract_lets m rs pad k last upper
  have hgood : ¬ (m = 0 || 16384 < m) = true := by
    simp only [Bool.or_eq_true, decide_eq_true_eq, m]
    omega
  have hlen : rs.length = m := by
    simp only [rs, List.length_reverse, List.length_take, m]
    omega
  have hpad : pad = [] := by
    unfold pad
    rw [hlen, Nat.sub_self]
    rfl
  rw [if_neg hgood, State.dmaRead_clean hclean, State.dmaRead_clean hclean, hpad]
  rfl

omit hn in
theorem monHistory_ends (h : s.Started id 0x1709 f) :
    ∃ t, exec (.monHistory id) s = .next t ∧ t.flight? f.id = none ∧ t.convs = s.convs := by
  refine ⟨_, withCmd_started h _, ?_⟩
  extract_lets m rs pad k last upper
  rw [State.remark_flight?, State.remark_convs]
  split
  · exact ⟨State.finish_flight?_same .., State.finish_convs ..⟩
  · refine ⟨State.dmaRead_flight? _ _ _ _ _ fun u => State.dmaRead_flight? _ _ _ _ _ fun v => State.finish_flight?_same .., ?_⟩
    refine State.dmaRead_convs _ _ _ _ _ fun u hu => ?_
    refine (State.dmaRead_convs _ _ _ _ _ fun v hv => ?_).trans hu
    rw [State.finish_convs, State.writeBuf_convs, hv]

theorem fastCfg_sets (h : s.Started id 0x170A f) (hchan : n ≠ 32) (hcode : factoryLosCode ≤ f.desc.p0.bits 7 0) :
    ∃ t, exec (.fastCfg id) s = .next t ∧ (t.conv n).losCode = some (f.desc.p0.bits 7 0) ∧ t.flight? f.id = none := by
  subst hn
  have hgood : ¬ (f.desc.target = 32 || f.desc.p0.bits 7 0 < factoryLosCode) = true := by
    simp only [Bool.or_eq_true, decide_eq_true_eq, not_or]
    exact ⟨hchan, Nat.not_lt.2 hcode⟩
  refine ⟨_, withCmd_started h _, ?_⟩
  dsimp only
  rw [if_neg hgood]
  simp [State.onConv]

end Commands

end Sys2Proof.Machine
end

section
/-! What a monitor converter does by itself (15 R359 to R369). -/

namespace Sys2Proof.Machine

theorem urgentConvs_eq (input count : Nat) : urgentConvs input count = count + if input < 8 then 0 else 1 := rfl

/-! ### The pair of a reference (R360, R362) -/

theorem Sparse.find?_insert {α : Type} (m : Sparse α) (i : Nat) (x : α) :
    (m.insert i x).find? (fun p => p.1 = i) = some (i, x) := by
  induction m with
  | nil => simp [Sparse.insert]
  | cons p m ih =>
    obtain ⟨k, y⟩ := p
    unfold Sparse.insert
    split
    · simp
    · split
      · simp
      · next hne =>
        rw [List.find?_cons_of_neg (by simpa using Ne.symm hne)]
        exact ih

theorem Converter.pair_insert (k : Converter) (n ref : Nat) (q : Int × Nat) :
    Converter.pair { k with pairs := k.pairs.insert ref q } n ref = q := by
  simp only [Converter.pair, Sparse.find?_insert]

/-- The end of a self-calibration: a new pass, the event, and the pairs and reference as they are. -/
theorem State.selfcalOver_ends (s : State) (n id st : Nat) :
    ((s.selfcalOver n id st).conv n).selfcal = none ∧ (s.selfcalOver n id st).flight? id = none ∧
      (s.selfcalOver n id st).now = s.now ∧ (∃ e ∈ (s.selfcalOver n id st).batch, e.source = n ∧ e.code = 0x1740) ∧
      ((s.selfcalOver n id st).conv n).pairs = (s.conv n).pairs ∧ ((s.selfcalOver n id st).conv n).ref = (s.conv n).ref := by
  unfold State.selfcalOver
  extract_lets ref
  obtain ⟨e, he, hevent⟩ := (s.onConv n fun k => { k.restart s.now with selfcal := none }).raise_event n 0x1740
    (if st = 0 then 1 else 2) (mkWord [(0, 6, n), (6, 2, ref), (8, 8, st)]) 0 none
  simp only [State.finishId_conv, State.raise_conv, State.onConv, State.setConv_conv_same, State.finishId_flight?, State.finishId_now,
    State.raise_now, State.setConv_now, true_and]
  exact ⟨⟨e, (State.finishId_aside _ id st none none none).batch he, hevent⟩, rfl, rfl⟩

theorem State.selfcalOver_conv_ne (s : State) {n m : Nat} (id st : Nat) (h : m ≠ n) : (s.selfcalOver n id st).conv m = s.conv m := by
  unfold State.selfcalOver
  simp [State.onConv, h]

/-! ### The external reference lost (R361) -/

/-- What the loss of the external reference does of one converter. -/
def State.loseRef (s : State) (n : Nat) : State :=
  let k := s.conv n
  if k.ref = 1 then
    let s := match k.selfcal with | some q => s.selfcalOver n q.1 0x21 | none => s
    (s.onConv n fun k => { k.refer 0 s.now with movedOff := true }).raise n 0x1741 3 (BitVec.ofNat 64 n)
  else s

theorem State.extRefLost_eq (s : State) : s.extRefLost = (List.range 33).foldl State.loseRef s := rfl

theorem State.loseRef_conv_ne (s : State) {n m : Nat} (h : m ≠ n) : (s.loseRef n).conv m = s.conv m := by
  unfold State.loseRef
  extract_lets k u
  have hu : u.conv m = s.conv m := by
    unfold u
    cases k.selfcal with
    | none => rfl
    | some q => exact s.selfcalOver_conv_ne q.1 0x21 h
  split
  · rw [State.raise_conv, State.onConv, State.setConv_conv_ne _ _ h, hu]
  · rfl

theorem State.loseRef_moves (s : State) {n : Nat} (h : (s.conv n).ref = 1) :
    ((s.loseRef n).conv n).ref = 0 ∧ ((s.loseRef n).conv n).movedOff = true := by
  unfold State.loseRef
  extract_lets k u
  rw [if_pos h, State.raise_conv, State.onConv, State.setConv_conv_same]
  exact ⟨rfl, rfl⟩

/-- Every converter of the list that uses the external reference has moved off it. -/
theorem State.foldl_loseRef (s : State) {n : Nat} (ns : List Nat)
    (h : (n ∈ ns ∧ (s.conv n).ref = 1) ∨ ((s.conv n).ref = 0 ∧ (s.conv n).movedOff = true)) :
    ((ns.foldl State.loseRef s).conv n).ref = 0 ∧ ((ns.foldl State.loseRef s).conv n).movedOff = true := by
  induction ns generalizing s with
  | nil => simpa using h
  | cons m ns ih =>
    refine ih (s.loseRef m) ?_
    rcases h with ⟨hmem, href⟩ | ⟨href, hmoved⟩
    · by_cases hm : n = m
      · subst hm
        exact .inr (s.loseRef_moves href)
      · rw [s.loseRef_conv_ne hm]
        exact .inl ⟨(List.mem_cons.1 hmem).resolve_left hm, href⟩
    · by_cases hm : n = m
      · subst hm
        have hsame : s.loseRef n = s := if_neg (by rw [href]; decide)
        rw [hsame]
        exact .inr ⟨href, hmoved⟩
      · rw [s.loseRef_conv_ne hm]
        exact .inr ⟨href, hmoved⟩

/-! ### Records (R365 to R369) -/

theorem State.writeStale_conv (s : State) (n i : Nat) (x : Filter) (test : Bool) (mfc t : Nat) (nomf : Bool) :
    ((s.writeStale n i x test mfc t nomf).conv n).records = (s.conv n).records + 1 ∧
      ((s.writeStale n i x test mfc t nomf).conv n).filter i = { x with rseq := x.rseq + 1 } :=
  s.writeRecord_conv n i x _ _

/-- What a filter's record leaves of it. -/
def Filter.recorded (x : Filter) (v : Option (BitVec 32)) : Filter := { x with rseq := x.rseq + 1, last := v.or x.last }

theorem State.decimated_conv (s : State) (n i : Nat) {x : Filter} (v : Option Rat) {g : RecFlags} (hx : x.resample = false)
    (hg : g.stale = v.isNone) :
    ((s.decimated n i x v g).conv n).records = (s.conv n).records + 1 ∧
      ((s.decimated n i x v g).conv n).filter i = x.recorded (v.map (Config.monitorValue n i)) := by
  unfold State.decimated
  rw [hx, if_neg Bool.false_ne_true]
  cases v with
  | none => exact s.writeStale_conv n i x g.test 0 g.time false
  | some v =>
    obtain ⟨hrecords, hfilter⟩ := s.writeRecord_conv n i x (Config.monitorValue n i v) g
    refine ⟨hrecords, hfilter.trans ?_⟩
    rw [hg]
    rfl

/-- A window's record: its filter goes on to the next window, with a value when every conversion of the window was made. -/
theorem State.decimate_conv (s : State) (n i : Nat) (codes : List (List Nat)) (hx : ((s.conv n).filter i).resample = false) :
    ((s.decimate n i codes).conv n).records = (s.conv n).records + 1 ∧
      ∃ m prev v, v.isSome = !((s.conv n).window n i).any (·.lost) ∧
        ((s.decimate n i codes).conv n).filter i =
          Filter.recorded { (s.conv n).filter i with
            m := m, prev := prev, next := ((s.conv n).filter i).next + ((s.conv n).window n i).length } v := by
  unfold State.decimate
  extract_lets k x w got q ts whole u
  obtain ⟨hrecords, hfilter⟩ := s.decimated_conv n i (x := { x with
      m := q.1, prev := (got.getLast?.map Prod.snd).or x.prev, next := x.next + w.length })
    (if whole then some (meanRat q.2) else none)
    (g := { stale := !whole, test := w.any (·.test), settling := ts.any k.settlingAt
            uncal := ts.any fun t => !k.pairs.any fun p => p.1 = k.refAt t
            clip := codes.any fun c => c.any fun r => r = 0 || r = 65535, nomf := false, mfc := 0
            time := ((w.getLast?).map (·.ends)).getD s.now }) hx (by cases whole <;> rfl)
  have hsome (b : Bool) (a : Rat) : (Option.map (Config.monitorValue n i) (if b then some a else none)).isSome = b := by
    cases b <;> rfl
  exact ⟨hrecords, _, _, _, hsome whole _, hfilter⟩

/-! ### Rows -/

section Rows

variable {s : State}

theorem urgentRequestDone_answers {id : Nat} {f : Flight} {u : Urgent} {codes : List (BitVec 16)}
    (h : s.reading id codes.length = some (f, u)) :
    ∃ t, exec (.urgentRequestDone id codes {}) s = .next t ∧ t.flight? id = none ∧ u.ends ≤ t.now ∧
      (t.conv f.desc.target).skipped = (s.conv f.desc.target).skipped +
        BitVec.ofNat 32 (codes.length + if u.input < 8 then 0 else 1) := by
  have hid : f.id = id := by
    obtain ⟨g, hg, hu⟩ := Option.bind_eq_some_iff.1 h
    obtain ⟨v, -, hv⟩ := Option.map_eq_some_iff.1 hu
    have hrow := List.find?_some hg
    simp only [Bool.and_eq_true, decide_eq_true_eq] at hrow
    rw [← (Prod.mk.inj hv).1]
    exact hrow.1.1.1.1
  refine ⟨_, occursWith_some (a := (f, u)) _ h, ?_⟩
  unfold State.urgentDone
  extract_lets n v k times mean raw
  rw [State.remark_flight?, State.remark_now, State.remark_conv, ← hid]
  refine ⟨State.finish_flight?_same .., ?_, ?_⟩
  · rw [State.finish_now, State.setConv_now]
    exact le_max_right ..
  · rw [State.finish_conv, show f.desc.target = n from rfl, State.setConv_conv_same, Converter.skip, List.length_map]
    rfl

theorem urgentRequestDone_own {id ns : Nat} {c : Fin 32} {i : Fin 40} {codes : List (BitVec 16)} (h : s.ownRequest c = true)
    (hsome : 0 < codes.length) (hmany : codes.length ≤ 64) :
    ∃ t, exec (.urgentRequestDone id codes { own := some (c, i), ns := ns }) s = .next t ∧ ns ≤ t.now ∧
      (t.conv c).skipped = (s.conv c).skipped + BitVec.ofNat 32 (codes.length + if i.val < 8 then 0 else 1) := by
  refine ⟨_, occurs_true _ (by simp [h, hsome, hmany]), ?_⟩
  rw [State.remark_now, State.remark_conv, State.onConv, State.setConv_now, State.setConv_conv_same]
  exact ⟨le_max_right .., rfl⟩

theorem testEnd_ends {n : Fin 33} {x : MonTest} {codes : List (BitVec 16)} (hon : s.converting n = true)
    (hx : (s.conv n).test = some x) (hcount : x.count = codes.length) (htimes : ((s.conv n).testTimes n x).length = x.count) :
    ∃ t, exec (.testEnd n codes) s = .next t ∧ (t.conv n).test = none ∧ t.flight? x.id = none := by
  refine ⟨_, occursWith_some (a := x) _ (by simp [hon, hx, ← hcount, htimes]), ?_⟩
  unfold State.testEnd
  extract_lets times u k mean want pass got v w
  rw [State.remark_conv, State.remark_flight?, State.finishId_conv]
  have hv : (v.conv n).test = none := congrArg Converter.test (u.setConv_conv_same n _)
  refine ⟨?_, State.finishId_flight? ..⟩
  unfold w
  split
  · exact hv
  · exact hv

theorem selfcalEnd_ends {n : Fin 33} {id start : Nat} {o : Int} {g : BitVec 32} (hon : s.converting n = true)
    (hcal : (s.conv n).selfcal = some (id, start)) :
    ∃ t, exec (.selfcalEnd n o g) s = .next t ∧ (t.conv n).selfcal = none ∧ start + 18000000 ≤ t.now ∧
      t.flight? id = none ∧ (∃ e ∈ t.batch, e.source = n.val ∧ e.code = 0x1740) ∧
      (Int.natAbs (o - Config.factoryOffset n (s.conv n).ref) ≤ 1024 →
        100 * Int.natAbs ((g.toNat : Int) - (Config.factoryGain n (s.conv n).ref).toNat) ≤
          2 * (Config.factoryGain n (s.conv n).ref).toNat →
        (t.conv n).pair n (s.conv n).ref = (o, g.toNat)) := by
  refine ⟨_, occursWith_some (a := (id, start)) _ (by rw [if_pos hon, hcal]), ?_⟩
  unfold State.selfcalEnd
  extract_lets u k fo fg
  rw [State.remark_now, State.remark_conv, State.remark_flight?]
  have hnow : start + 18000000 ≤ u.now := le_max_right ..
  have hends (v : State) (st : Nat) (hv : v.now = u.now) :
      ((v.selfcalOver n id st).conv n).selfcal = none ∧ start + 18000000 ≤ (v.selfcalOver n id st).now ∧
        (v.selfcalOver n id st).flight? id = none ∧
        ∃ e ∈ (v.selfcalOver n id st).remark.batch, e.source = n.val ∧ e.code = 0x1740 := by
    obtain ⟨hselfcal, hdone, hvnow, ⟨e, he, hevent⟩, -, -⟩ := v.selfcalOver_ends n id st
    exact ⟨hselfcal, by rw [hvnow, hv]; exact hnow, hdone, e, State.remark_batch he, hevent⟩
  split
  · next hbad =>
    obtain ⟨hselfcal, hlate, hdone, hevent⟩ := hends u 0x22 rfl
    refine ⟨hselfcal, hlate, hdone, hevent, fun ho hg => ?_⟩
    simp only [Bool.or_eq_true, decide_eq_true_eq] at hbad
    have ho' : (o - fo).natAbs ≤ 1024 := ho
    have hg' : 100 * ((g.toNat : Int) - fg).natAbs ≤ 2 * fg := hg
    omega
  · obtain ⟨hselfcal, hlate, hdone, hevent⟩ := hends (u.setConv n { k with pairs := k.pairs.insert k.ref (o, g.toNat) }) 0 rfl
    refine ⟨hselfcal, hlate, hdone, hevent, fun _ _ => ?_⟩
    obtain ⟨-, -, -, -, hpairs, -⟩ := (u.setConv n { k with pairs := k.pairs.insert k.ref (o, g.toNat) }).selfcalOver_ends n id 0
    rw [Converter.pair, hpairs, State.setConv_conv_same]
    exact k.pair_insert n k.ref (o, g.toNat)

theorem extRefLost_moves (hp : s.boot.powered = true) (h : (s.convs.any fun p => p.2.ref = 1) = true) :
    ∃ t, exec .extRefLost s = .next t ∧ ∀ n, n < 33 → (s.conv n).ref = 1 → (t.conv n).ref = 0 ∧ (t.conv n).movedOff = true := by
  refine ⟨_, occurs_true _ (by simp [hp, h]), fun n hn href => ?_⟩
  rw [State.remark_conv, State.extRefLost_eq]
  exact s.foldl_loseRef _ (.inl ⟨List.mem_range.2 hn, href⟩)

theorem decimRecord_writes {n : Fin 33} {i : Fin 40} {codes : List (List (BitVec 16))} (hon : s.converting n = true)
    (hrun : ((s.conv n).filter i).running = true) (hres : ((s.conv n).filter i).resample = false) (hyield : 0 < (s.conv n).yielding i)
    (hbrings : (s.conv n).brings n i codes = true) :
    ∃ t, exec (.decimRecord n i codes) s = .next t ∧ (t.conv n).records = (s.conv n).records + 1 ∧
      ((t.conv n).filter i).rseq = ((s.conv n).filter i).rseq + 1 ∧
      ((t.conv n).filter i).next = ((s.conv n).filter i).next + ((s.conv n).filter i).rM1 + 1 ∧
      (((s.conv n).window n i).any (·.lost) = false → ((t.conv n).filter i).last.isSome = true) ∧
      (((s.conv n).window n i).any (·.lost) = true → ((t.conv n).filter i).last = ((s.conv n).filter i).last) := by
  refine ⟨_, occurs_true _ (by simp [hon, hrun, hyield, hbrings]), ?_⟩
  rw [State.remark_conv]
  obtain ⟨hrecords, m, prev, v, hv, hfilter⟩ := (s.at ((s.conv n).slot i (((s.conv n).filter i).next + ((s.conv n).filter i).rM1)).2
    ).decimate_conv n i (codes.map fun c => c.map (·.toNat)) hres
  have hlen : ((s.conv n).window n i).length = ((s.conv n).filter i).rM1 + 1 := by
    simp only [Converter.window, List.length_map, List.length_range]
  rw [hfilter]
  refine ⟨hrecords, rfl, ?_, fun hlost => ?_, fun hlost => ?_⟩
  · exact (congrArg (((s.conv n).filter i).next + ·) hlen :)
  · have hsome : v.isSome = true := hv.trans (by rw [State.at_conv, hlost]; rfl)
    obtain ⟨a, rfl⟩ := Option.isSome_iff_exists.1 hsome
    rfl
  · have hnone : v.isSome = false := hv.trans (by rw [State.at_conv, hlost]; rfl)
    rw [Option.isSome_eq_false_iff, Option.isNone_iff_eq_none] at hnone
    rw [hnone]
    rfl

theorem resampleReport_writes {n : Fin 33} {i : Fin 40} {count : BitVec 32} {at_ : InstantIn} {w p : Nat} {ds : List DecSample}
    {x : Filter} (hon : s.converting n = true) (hx : x = (s.conv n).filter i) (hrun : x.running = true) (hres : x.resample = true)
    (hnew : x.reported.all (· < at_.ns) = true) (hw : at_.ns ≤ w) (hby : (w : Rat) ≤ (s.conv n).reportBy i at_.ns)
    (hinstant : s.framed n count.toNat at_.ns = true ∨ s.tickAt n count.toNat at_ = true)
    (haround : x.around ((at_.ns : Rat) + (x.phaseDly * 125 : Nat) / 16) = some (ds, p)) (hwhole : ∀ d ∈ ds, d.value.isSome = true) :
    ∃ t, exec (.resampleReport n i count at_ w) s = .next t ∧ w ≤ t.now ∧ (t.conv n).records = (s.conv n).records + 1 ∧
      ((t.conv n).filter i).last = some (Config.monitorValue n i (x.interpolate p ds)) := by
  subst hx
  refine ⟨_, occurs_true _ ?_, ?_⟩
  · simp [hon, hrun, hres, hnew, hw, hby, hinstant]
  · have hvalues : ¬ (ds.any (·.value.isNone)) = true := by
      simp only [List.any_eq_true, not_exists, not_and, Option.isNone_iff_eq_none]
      exact fun d hd hnone => by simpa [hnone] using hwhole d hd
    rw [State.remark_now, State.remark_conv]
    unfold State.report
    extract_lets x nomf x' u
    have haround' : x.around u = some (ds, p) := haround
    rw [haround']
    dsimp only
    rw [if_neg hvalues]
    obtain ⟨hrecords, hfilter⟩ := (s.at w).writeRecord_conv n i x' (Config.monitorValue n i (x.interpolate p ds))
      { stale := false, settling := ds.any (·.settling), uncal := ds.any (·.uncal), clip := ds.any (·.clip), nomf := nomf
        mfc := count.toNat, time := at_.ns }
    refine ⟨?_, hrecords, congrArg Filter.last hfilter⟩
    have hquiet := State.writeRecord_quiet n i x' (Config.monitorValue n i (x.interpolate p ds))
      { stale := false, settling := ds.any (·.settling), uncal := ds.any (·.uncal), clip := ds.any (·.clip), nomf := nomf
        mfc := count.toNat, time := at_.ns } (.refl (s.at w))
    exact (le_max_right s.now w).trans hquiet.now

end Rows

/-- Settles O43: a read of memory and a record change one converter at most, whose filters and references each row changes by its own
rule. -/
theorem monitorComplete : Obligations.MonitorComplete := by
  unfold Obligations.MonitorComplete
  refine ⟨fun s id n f hn => ⟨fun ws => monScanSet_sets hn, fun ws i => monFilterSet_sets hn, monFilterRun_stops hn,
    fun r => monStream_binds hn, monRead_asks hn, fun i => monTest_starts hn, fun ext => monRef_sets hn, monSelfcal_starts hn,
    fun fast h => ?_, monHistory_answers hn, monHistory_ends, fastCfg_sets hn⟩,
    fun s => ⟨fun id f u codes => urgentRequestDone_answers, fun id ns c i codes => urgentRequestDone_own,
      fun n x codes => testEnd_ends, fun n id start o g => selfcalEnd_ends, extRefLost_moves, fun n i codes => decimRecord_writes,
      fun n i count at_ w p ds x => resampleReport_writes⟩⟩
  subst hn
  exact withCmd_started h _

end Sys2Proof.Machine
end

section
/-! Supply and resets: what flash and fuses keep, and what a module reset leaves running (19 R416, R418; 20 R443; 22 R466 to R468). -/

namespace Sys2Proof.Machine

/-! ### What survives -/

/-- No command that writes the ledger is named as left whole, so none of their writes has an effect. -/
theorem State.cleared_nil (s : State) : s.cleared [] =
    { now := s.now, sec := s.sec.flash, powerHours := s.powerHours, part := s.part, retireList := s.retireList
      channels := s.channels.map fun p => (p.1, p.2.flash), nextId := s.nextId, out := s.out, free := s.free, pending := s.pending } := by
  have hnone : (s.sec.ledgerWrites.filter fun w => ([] : List Nat).contains w.id) = [] :=
    List.filter_eq_nil_iff.2 fun w _ => by simp
  rw [State.cleared, hnone]
  rfl

@[simp] theorem State.cleared_nil_sec (s : State) : (s.cleared []).sec = s.sec.flash := (congrArg State.sec s.cleared_nil :)
@[simp] theorem State.cleared_nil_part (s : State) : (s.cleared []).part = s.part := (congrArg State.part s.cleared_nil :)
@[simp] theorem State.cleared_nil_powerHours (s : State) : (s.cleared []).powerHours = s.powerHours :=
  (congrArg State.powerHours s.cleared_nil :)
@[simp] theorem State.cleared_nil_now (s : State) : (s.cleared []).now = s.now := (congrArg State.now s.cleared_nil :)

theorem State.Swept.chan_dark {s t : State} (h : s.Swept t) (c : Nat) : (t.chan c).pw.level = .dark := by
  rw [h.chan_pw c]

/-! ### Supply -/

/-- The state that the supply comes on to, before LASER_OFF_N is looked at. -/
def State.supplied (s : State) (split : Fin 4) (l : Bool) (perst : BitVec 4) : State :=
  { s.cleared [] with now := 0, boot := { cfgSplit := split, laserOffN := l }
                      links := (List.range 4).map fun n => (n, { perst := perst.getLsbD n }) }

/-- LASER_OFF_N, already noted, changes nothing but channels, events and the shore chain. -/
theorem State.pinOff_noted {u : State} {l : Bool} (h : u.boot.laserOffN = l) :
    (if l then u.pinOff else u).bare = u.bare ∧ (if l then u.pinOff else u).boot = u.boot := by
  cases l with
  | false => exact ⟨rfl, rfl⟩
  | true => exact ⟨u.pinOff_bare, by rw [if_pos rfl, u.pinOff_boot, ← h]⟩

theorem execPowerOn_starts {s : State} {split : Fin 4} {l : Bool} {perst : BitVec 4} (hoff : s.boot.powered = false) :
    ∃ t, exec (.powerOn split l perst) s = .next t ∧ t.now = 0 ∧ t.boot.powered = true ∧ t.boot.booted = false ∧
      t.boot.cfgSplit = split.val ∧ t.boot.laserOffN = l ∧ t.flights = [] ∧ t.rings = [] ∧ t.mem = [] ∧
      (∀ c, (t.chan c).pw.level = .dark) ∧ t.part = s.part ∧ t.powerHours = s.powerHours ∧
      t.sec.ledger = s.sec.ledger ∧ t.sec.floor = s.sec.floor ∧ t.sec.kek = none := by
  have hrow : exec (.powerOn split l perst) s = _ := occurs_true _ (by simp [hoff])
  refine ⟨_, hrow, ?_⟩
  have hswept := execPowerOn_swept hoff hrow
  obtain ⟨hbare, hboot⟩ := State.pinOff_noted (u := s.supplied split l perst) (l := l) rfl
  have hsec : _ = (s.cleared []).sec := (congrArg State.sec hbare :)
  refine ⟨?_, ?_, ?_, ?_, ?_, hswept.flights, hswept.rings, hswept.mem, hswept.chan_dark, ?_, ?_, ?_, ?_, hswept.kek⟩
  · exact (State.remark_now _).trans (congrArg State.now hbare :)
  · exact (congrArg Boot.powered (State.remark_boot _) :).trans (congrArg Boot.powered hboot :)
  · exact (congrArg Boot.booted (State.remark_boot _) :).trans (congrArg Boot.booted hboot :)
  · exact (congrArg Boot.cfgSplit (State.remark_boot _) :).trans (congrArg Boot.cfgSplit hboot :)
  · exact (congrArg Boot.laserOffN (State.remark_boot _) :).trans (congrArg Boot.laserOffN hboot :)
  · exact (State.remark_part _).trans ((congrArg State.part hbare :).trans s.cleared_nil_part)
  · exact (State.remark_powerHours _).trans ((congrArg State.powerHours hbare :).trans s.cleared_nil_powerHours)
  · exact (congrArg Security.ledger (State.remark_sec _) :).trans (congrArg Security.ledger (hsec.trans s.cleared_nil_sec) :)
  · exact (congrArg Security.floor (State.remark_sec _) :).trans (congrArg Security.floor (hsec.trans s.cleared_nil_sec) :)

theorem execSupplyLossShutdown_clears {s : State} (hon : s.boot.powered = true) :
    ∃ t, exec (.supplyLossShutdown []) s = .next t ∧ t.boot.powered = false ∧ t.flights = [] ∧ t.rings = [] ∧
      t.part = s.part ∧ t.sec.ledger = s.sec.ledger ∧ ∀ c, (t.chan c).pw.level = .dark := by
  have hrow : exec (.supplyLossShutdown []) s = _ := occurs_true _ hon
  have hswept := execSupplyLossShutdown_swept hon hrow
  refine ⟨_, hrow, ?_, hswept.flights, hswept.rings, ?_, ?_, hswept.chan_dark⟩
  · rw [State.remark_boot]
  · rw [State.remark_part]
    exact s.cleared_nil_part
  · rw [State.remark_sec]
    exact (congrArg Security.ledger s.cleared_nil_sec :)

/-! ### Module reset -/

section ModuleReset

variable (s : State) (whole : List Nat)

theorem State.moduleReset_now : (s.moduleReset whole).now = (s.cleared whole).now :=
  (congrArg State.now (State.standing_bare _) :)

theorem State.moduleReset_part : (s.moduleReset whole).part = (s.cleared whole).part :=
  (congrArg State.part (State.standing_bare _) :)

theorem State.moduleReset_sec : (s.moduleReset whole).sec = { (s.cleared whole).sec with testDue := s.now + 4096000 } :=
  (congrArg State.sec (State.standing_bare _) :)

theorem State.moduleReset_boot : (s.moduleReset whole).boot =
    { cfgSplit := s.boot.cfgSplit, laserOffN := s.boot.laserOffN, derating := s.boot.derating, hot := s.boot.hot
      beganNs := s.now, originNs := s.now } :=
  State.standing_boot _

theorem State.moduleReset_shore : (s.moduleReset whole).shore = s.shore.afterReset s.now := State.standing_shore _

theorem State.moduleReset_tm : (s.moduleReset whole).tm = s.tm.afterReset := (congrArg State.tm (State.standing_bare _) :)

end ModuleReset

theorem execModReset_resets {s : State} (hon : s.boot.powered = true) :
    ∃ t, exec (.modReset []) s = .next t ∧ t.boot.powered = true ∧ t.boot.booted = false ∧ t.now = s.now ∧ t.flights = [] ∧
      t.rings = [] ∧ t.part = s.part ∧ t.shore.address = s.shore.address ∧ t.shore.laserOff = s.shore.laserOff ∧
      t.tm.oscWarm = s.tm.oscWarm ∧ ∀ c, (t.chan c).pw.level = .dark := by
  have hrow : exec (.modReset []) s = _ := occurs_true _ hon
  have hswept := execModReset_swept hon hrow
  refine ⟨_, hrow, ?_, ?_, ?_, hswept.flights, hswept.rings, ?_, ?_, ?_, ?_, hswept.chan_dark⟩
  · rw [State.remark_boot, State.moduleReset_boot]
  · rw [State.remark_boot, State.moduleReset_boot]
  · rw [State.remark_now, State.moduleReset_now, State.cleared_nil_now]
  · rw [State.remark_part, State.moduleReset_part, State.cleared_nil_part]
  · rw [State.remark_shore, State.moduleReset_shore]
    rfl
  · rw [State.remark_shore, State.moduleReset_shore]
    rfl
  · rw [State.remark_tm, State.moduleReset_tm]
    rfl

/-! ### Recovery -/

theorem execRecoveryDone_ends {s : State} {bs : List Byte} (hon : s.boot.powered = true) (hmode : s.sec.rcvMode = true)
    (hbusy : s.sec.rcvBusy = true) (hlen : bs.length = s.sec.rcvLen) (hdue : s.now ≤ s.sec.rcvGoNs + 120000000000) :
    ∃ t, exec (.recoveryDone (some bs) []) s = .next t ∧
      if s.sec.recoveryErr bs = 0 then
        t.sec.slotA = some (imageOf bs) ∧ t.sec.prefB = false ∧ t.sec.trial = false ∧ t.sec.rcvMode = false ∧ t.boot.booted = false
      else t.sec.slotA = none ∧ t.sec.rcvBusy = false ∧ t.sec.rcvErr = s.sec.recoveryErr bs ∧ t.sec.rcvMode = true := by
  refine ⟨_, occurs_true _ (by simp [hon, hmode, hbusy]), ?_⟩
  have hlate : ¬ s.sec.rcvGoNs + 120000000000 < s.now := Nat.not_lt.2 hdue
  simp only [hlate, hlen, ne_eq, not_true_eq_false, if_false]
  split
  · rw [State.remark_sec, State.remark_boot, State.moduleReset_sec, State.moduleReset_boot, State.cleared_nil_sec]
    exact ⟨rfl, rfl, rfl, rfl, rfl⟩
  · rw [State.remark_sec]
    exact ⟨rfl, rfl, rfl, hmode⟩

end Sys2Proof.Machine
end

section
/-! What stops the frames of a channel leaves the boot of the module alone (18 R409; 19 R416). -/

namespace Sys2Proof.Machine

theorem State.boot_ite {p : Prop} [Decidable p] (s t : State) : (if p then s else t).boot = if p then s.boot else t.boot :=
  apply_ite State.boot p s t

theorem State.boot_foldl {α : Type} {g : State → α → State} (h : ∀ s x, (g s x).boot = s.boot) (xs : List α) (s : State) :
    (xs.foldl g s).boot = s.boot :=
  foldl_eq_of State.boot xs g s h

section Boot

variable (s : State)

@[simp] theorem State.setTrib_boot (i : Nat) (x : Trib) : (s.setTrib i x).boot = s.boot := rfl
@[simp] theorem State.onTrib_boot (i : Nat) (g : Trib → Trib) : (s.onTrib i g).boot = s.boot := rfl

/-! ### Figures of latency (02 R27) and groups (06 R131 to R137) -/

@[simp] theorem State.latencyEvent_boot (i : Nat) : (s.latencyEvent i).boot = s.boot := rfl

@[simp] theorem State.payOwed_boot (c : Nat) : (s.payOwed c).boot = s.boot :=
  State.boot_foldl (fun s l => by simp [State.boot_ite]) _ s

@[simp] theorem State.failTrib_boot (i cause : Nat) : (s.failTrib i cause).boot = s.boot := rfl

@[simp] theorem State.failMember_boot (g c : Nat) : (s.failMember g c).boot = s.boot :=
  State.boot_foldl (fun s i => by simp [State.boot_ite]) _ s

@[simp] theorem State.lookMember_boot (g : Nat) (cause : Option Nat) (c : Nat) : (s.lookMember g cause c).boot = s.boot := by
  simp [State.lookMember, State.boot_ite]

@[simp] theorem State.alignGroup_boot (g : Nat) : (s.alignGroup g).boot = s.boot := by
  unfold State.alignGroup
  dsimp only
  split <;> rfl

@[simp] theorem State.groupWindow_boot (g : Nat) (cause : Option Nat) : (s.groupWindow g cause).boot = s.boot := by
  have hlook (u : State) (cs : List Nat) : (cs.foldl (fun s c => s.lookMember g cause c) u).boot = u.boot :=
    State.boot_foldl (fun s c => s.lookMember_boot g cause c) cs u
  simp [State.groupWindow, State.boot_ite, hlook]

@[simp] theorem State.lookGroup_boot (c : Nat) (cause : Option Nat) : (s.lookGroup c cause).boot = s.boot := by
  unfold State.lookGroup
  split
  · simp
  · rfl

/-! ### Messages and the loading exchange (09 R206; 10 R243 to R246) -/

@[simp] theorem State.breakMessage_boot (c cause : Nat) (by_ : Option Nat) : (s.breakMessage c cause by_).boot = s.boot := by
  unfold State.breakMessage
  split <;> rfl

@[simp] theorem State.reconverged_boot (c peak : Nat) (cause : Option Nat) : (s.reconverged c peak cause).boot = s.boot := by
  unfold State.reconverged
  dsimp only
  split <;> rfl

@[simp] theorem State.cutMultiframe_boot (c : Nat) (cause : Option Nat) : (s.cutMultiframe c cause).boot = s.boot := by
  simp [State.cutMultiframe, State.boot_ite]

@[simp] theorem State.lxEnds_boot (c : Nat) (p : LxProposal) (st : Nat) (r2 : Option Nat) (reason : Nat) :
    (s.lxEnds c p st r2 reason).boot = s.boot := by
  simp [State.lxEnds, State.boot_ite]

@[simp] theorem State.agreementLapse_boot (c : Nat) : (s.agreementLapse c).boot = s.boot := by
  unfold State.agreementLapse
  split
  · split <;> rfl
  · rfl

@[simp] theorem State.lxStop_boot (c : Nat) : (s.lxStop c).boot = s.boot := by
  rw [State.lxStop, State.agreementLapse_boot]
  split
  · simp [State.boot_ite]
  · rfl

theorem State.inPair_boot (c j : Nat) {g : State → State} (hg : ∀ s, (g s).boot = s.boot) : (s.inPair c j g).boot = s.boot :=
  hg (s.enterPair c j)

/-! ### Calibration (12 R282 to R288) -/

@[simp] theorem State.calTell_boot (c : Nat) (tx : Bool) (outcome : Nat) : (s.calTell c tx outcome).boot = s.boot :=
  State.boot_foldl (fun s w => by simp) _ _

@[simp] theorem State.calNext_boot (c : Nat) (tx : Bool) (r : CalRun) (slewed due response : Bool) :
    (s.calNext c tx r slewed due response).boot = s.boot := by
  simp [State.calNext, State.calAgain, State.calStart, State.boot_ite]

@[simp] theorem State.calAbandon_boot (c : Nat) (tx : Bool) (cause : Option Nat) : (s.calAbandon c tx cause).boot = s.boot := by
  unfold State.calAbandon State.calReject
  dsimp only
  split
  · rfl
  · simp [State.boot_ite, State.calEvent]

/-! ### The frames stop (18 R409) -/

@[simp] theorem State.stopReports_boot (c : Nat) : (s.stopReports c).boot = s.boot := by
  have hpairs (u : State) (qs : List (Nat × Leaf)) :
      (qs.foldl (fun s q => s.inPair c q.1 fun s => (s.breakMessage c 3).lxStop c) u).boot = u.boot :=
    State.boot_foldl (fun s q => s.inPair_boot c q.1 fun s => by simp) qs u
  unfold State.stopReports
  dsimp only
  split <;> simp [State.selfcalOver, hpairs]

@[simp] theorem State.cut_boot (c keep : Nat) : (s.cut c keep).boot = s.boot := by
  rw [State.cut, State.finishAll_boot]
  rfl

@[simp] theorem State.stopFrames_boot (c keep : Nat) : (s.stopFrames c keep).boot = s.boot := by
  have htribs (u : State) (is : List Nat) : (is.foldl (fun s i => s.onTrib i Trib.idled) u).boot = u.boot :=
    State.boot_foldl (fun s i => s.onTrib_boot i _) is u
  simp [State.stopFrames, htribs]

end Boot

end Sys2Proof.Machine
end

section
/-! Boot, restart and release of the lighthouse controller, thermal shutdown and the powered hours (20 R442, R443; 19 R428; 22 R477;
00 R493). -/

namespace Sys2Proof.Machine

/-! ### What leaves the boot and the firmware alone -/

theorem State.alarm2_boot (s : State) (on : Bool) : (s.alarm2 on).boot = s.boot := by
  unfold State.alarm2
  split
  · rfl
  · exact State.sendAlarm_boot ..

theorem State.alarm2_sec (s : State) (on : Bool) : (s.alarm2 on).sec = s.sec := by
  unfold State.alarm2
  split
  · rfl
  · exact (congrArg State.sec (State.sendAlarm_bare ..) :)

theorem State.runImage_runB (s : State) (b : Bool) : (s.runImage b).sec.runB = b := by
  unfold State.runImage
  dsimp only
  split <;> split <;> rfl

theorem State.activated_boot (s : State) : s.activated.boot = s.boot := by
  unfold State.activated
  split
  · rfl
  · simp

theorem State.activated_runB (s : State) : s.activated.sec.runB = s.sec.runB := by
  unfold State.activated
  split
  · rfl
  · simp

/-- Reading the doorbells of the groups moves the links alone. -/
theorem State.resumeRings_of {β : Type} (obs : State → β) (h : ∀ (s : State) n x, obs (s.setLink n x) = obs s) (s : State) :
    obs s.resumeRings = obs s :=
  foldl_eq_of obs _ _ s fun u n => (h _ n _).trans (foldl_eq_of obs _ _ u fun v _ => h v n _)

/-! ### Boot -/

theorem execBootDone_boots {s : State} {b : Bool} (hon : s.boot.powered = true) (hboot : s.boot.booted = false)
    (hmode : s.sec.rcvMode = false) (hslot : s.sec.trialRule.bootSlot = some b) :
    ∃ t, exec .bootDone s = .next t ∧ t.boot.booted = true ∧ t.boot.running = true ∧ t.sec.runB = b := by
  refine ⟨_, occursWith_some (a := b) _ (by simp [hon, hboot, hmode, hslot]), ?_⟩
  rw [State.remark_boot, State.remark_sec, State.alarm2_boot, State.alarm2_sec]
  exact ⟨rfl, rfl, State.runImage_runB ..⟩

theorem execBootFailedRecovery_recovers {s : State} (hon : s.boot.powered = true) (hboot : s.boot.booted = false)
    (hmode : s.sec.rcvMode = false) (hslot : s.sec.trialRule.bootSlot = none) :
    ∃ t, exec .bootFailedRecovery s = .next t ∧ t.sec.rcvMode = true ∧ t.boot.booted = false ∧
      s.boot.originNs + 6000000000 ≤ t.now ∧ ∀ n, (t.link n).trained = (s.link n).trained := by
  refine ⟨_, occurs_true _ (by simp [hon, hboot, hmode, hslot]), ?_⟩
  rw [State.remark_sec, State.remark_boot, State.remark_now]
  exact ⟨rfl, hboot, Nat.le_max_right .., fun n => by rw [State.remark_link]; rfl⟩

/-! ### Release and restart -/

theorem execStaggerRelease_releases {s : State} (hon : s.boot.powered = true) (hboot : s.boot.booted = true)
    (hheld : s.boot.released = false) :
    ∃ t, exec .staggerRelease s = .next t ∧ t.boot.released = true ∧ t.now = max s.now s.releaseAt := by
  refine ⟨_, occurs_true _ (by simp [hon, hboot, hheld]), ?_⟩
  rw [State.remark_boot, State.remark_now]
  exact ⟨rfl, rfl⟩

/-- The controller stops, or has been stopped. -/
theorem State.controllerStop_running (s : State) : (if s.boot.running then s.controllerStop else s).boot.running = false := by
  split
  · rfl
  · next h => exact Bool.eq_false_iff.2 h

theorem execLighthouseRestart_stops {s : State} (hon : s.boot.powered = true) (hboot : s.boot.booted = true)
    (hidle : s.boot.restarting = false) :
    ∃ t, exec .lighthouseRestart s = .next t ∧ t.boot.running = false ∧ t.boot.restarting = true ∧
      ∀ c, (t.chan c).Same (s.chan c) := by
  refine ⟨_, occurs_true _ (by simp [hon, hboot, hidle]), ?_, ?_, fun c => ?_⟩
  · rw [State.remark_boot]
    exact s.controllerStop_running
  · rw [State.remark_boot]
    rfl
  · have hchan : (if s.boot.running then s.controllerStop else s).chan c = s.chan c := by
      split <;> rfl
    exact hchan ▸ State.remark_same _ c

theorem execLighthouseRestartEnd_runs {s : State} {b : Bool} (hon : s.boot.powered = true) (hrestart : s.boot.restarting = true)
    (hslot : s.sec.bootSlot = some b) :
    ∃ t, exec .lighthouseRestartEnd s = .next t ∧ t.boot.running = true ∧ t.boot.restarting = false ∧ t.sec.runB = b := by
  refine ⟨_, occursWith_some (a := b) _ (by simp [hon, hrestart, hslot]), ?_⟩
  rw [State.remark_boot, State.remark_sec, State.alarm2_boot, State.alarm2_sec, State.resumeRings_of (·.boot) (fun _ _ _ => rfl),
    State.resumeRings_of (·.sec) (fun _ _ _ => rfl), State.activated_boot, State.activated_runB]
  exact ⟨rfl, rfl, State.runImage_runB ..⟩

/-! ### Thermal shutdown -/

section Thermal

variable (s : State) (c : Nat)

theorem State.thermalDark_boot : (s.thermalDark c).boot = s.boot := by
  unfold State.thermalDark
  extract_lets ch was cmd u v
  split
  · rfl
  split
  · rfl
  · have hv : v.boot = s.boot := by simp [v, u, State.boot_ite]
    split
    · exact hv
    · exact (v.stopFrames_boot c _).trans hv

/-- A channel that is up begins to go Dark, or goes on; no other moves. -/
theorem State.thermalDark_power : ∃ x : Power, ((s.chan c).bu.step ≠ 0 → x.transit = .enteringDark) ∧
    ∀ d, ((s.thermalDark c).chan d).power = ((s.setChan c { s.chan c with pw := x }).chan d).power := by
  unfold State.thermalDark
  extract_lets ch was cmd u v
  split
  next hdark =>
    refine ⟨ch.pw, fun hup => absurd hdark hup, fun d => ?_⟩
    exact (congrFun (State.view_setChan (obs := Channel.power) rfl) d).symm
  split
  next hentry => exact ⟨{ ch.pw with thermal := true }, fun _ => hentry, fun d => rfl⟩
  next =>
    have hv (d : Nat) : v.chan d = u.chan d := by simp only [v]; split <;> simp
    refine ⟨{ ch.pw with
      transit := .enteringDark, settling := false, rampBack := false, armed := {}, latched := {}, firstLatched := 0
      timerDue := none, cmd := none, exitCmds := [] }, fun _ => rfl, fun d => ?_⟩
    split
    · exact congrArg Channel.power (hv d)
    · exact (v.stopFrames_power c _ d).trans (congrArg Channel.power (hv d))

end Thermal

/-- Every channel that is up and in turn, or goes Dark already, goes Dark in the end. -/
theorem State.thermalDarks_dark (cs : List Nat) {s : State} {d : Nat} (hup : (s.chan d).bu.step ≠ 0)
    (h : d ∈ cs ∨ (s.chan d).pw.transit = .enteringDark) : ((cs.foldl State.thermalDark s).chan d).pw.transit = .enteringDark := by
  induction cs generalizing s with
  | nil => simpa using h
  | cons c cs ih =>
    obtain ⟨x, hx, hpower⟩ := s.thermalDark_power c
    specialize hpower d
    rw [State.setChan_chan] at hpower
    split at hpower
    next hd =>
      subst hd
      have hstep : ((s.thermalDark d).chan d).bu.step = (s.chan d).bu.step := (congrArg (fun p => p.2.1) hpower :)
      have htransit : ((s.thermalDark d).chan d).pw = x := Channel.pw_of_power hpower
      exact ih (hstep ▸ hup) (.inr (htransit ▸ hx hup))
    next hd =>
      have hstep : ((s.thermalDark c).chan d).bu.step = (s.chan d).bu.step := (congrArg (fun p => p.2.1) hpower :)
      refine ih (hstep ▸ hup) ?_
      rw [Channel.pw_of_power hpower]
      exact h.imp_left fun hmem => (List.mem_cons.1 hmem).resolve_left hd

theorem execThermalShutdown_darkens {s : State} (hon : s.boot.powered = true) :
    ∃ t, exec .thermalShutdown s = .next t ∧ t.boot.hot = true ∧
      ∀ c, c < 32 → (s.chan c).bu.step ≠ 0 → (t.chan c).pw.transit = .enteringDark := by
  refine ⟨_, occurs_true _ hon, ?_, fun c hc hup => ?_⟩
  · rw [State.remark_boot, State.boot_foldl State.thermalDark_boot]
    rfl
  · rw [State.remark_chan_pw]
    exact State.thermalDarks_dark _ (s := s.onBoot fun x => { x with hot := true }) hup (.inl (List.mem_range.2 hc))

theorem execPoweredHour_counts {s : State} (hon : s.boot.powered = true) :
    ∃ t, exec .poweredHour s = .next t ∧ t.powerHours = s.powerHours + 1 ∧ t.hourDue = s.hourDue + 3600000000000 := by
  refine ⟨_, occurs_true _ hon, ?_⟩
  rw [State.remark_powerHours, State.remark_hourDue]
  exact ⟨rfl, rfl⟩

end Sys2Proof.Machine
end

section
/-! Host links: PERST#, training, recovery and the limit of a period (02 R32, R33; 03 R35, R36, R38). -/

namespace Sys2Proof.Machine

/-! ### What the end of a command leaves of a link -/

/-- A link but for its vectors. -/
def Link.steady (l : Link) : Link := { l with msix := [] }

theorem State.msix_steadyLink (s : State) (n v m : Nat) : ((s.msix n v).link m).steady = (s.link m).steady := by
  unfold State.msix
  split
  · rw [State.onLink_eq, State.setLink_link]
    split
    · next h => rw [h]; rfl
    · rfl
  · rfl

theorem State.wrote_steadyLink (s : State) (r : Nat) (b : Bool) (m : Nat) : ((s.wrote r b).link m).steady = (s.link m).steady := by
  unfold State.wrote
  dsimp only
  split
  · exact State.msix_steadyLink ..
  · rfl

theorem State.writeCompletion_steadyLink (s : State) (q : Nat) (c : Completion) (b : Bool) (m : Nat) :
    ((s.writeCompletion q c b).link m).steady = (s.link m).steady := by
  unfold State.writeCompletion
  dsimp only
  split
  · exact State.wrote_steadyLink ..
  · rfl

/-- A link that is up holds no completion back, so the end of a command leaves it as it is. -/
theorem State.finish_steadyLink {s : State} {m : Nat} (hup : (s.link m).recovery = false) (f : Flight) (st : Nat) :
    ((s.finish f st).link m).steady = (s.link m).steady := by
  unfold State.finish
  extract_lets rcd u cq
  split
  · rfl
  split
  next hheld =>
    have hne : m ≠ f.link := fun h => by
      subst h
      exact absurd (hup.symm.trans hheld) (by decide)
    exact congrArg Link.steady (State.setLink_link_ne u _ hne)
  next => exact State.writeCompletion_steadyLink ..

theorem Link.recovery_of_steady {x y : Link} (h : x.steady = y.steady) : x.recovery = y.recovery := (congrArg Link.recovery h :)

theorem State.finishAll_steadyLink {s : State} {m : Nat} (hup : (s.link m).recovery = false) (ids : List Nat) (st : Nat) :
    ((s.finishAll ids st).link m).steady = (s.link m).steady := by
  refine foldl_inv_of (fun u : State => (u.link m).steady = (s.link m).steady) ids _ s (fun u i hu => ?_) rfl
  split
  · exact (State.finish_steadyLink ((Link.recovery_of_steady hu).trans hup) ..).trans hu
  · exact hu

/-! ### PERST# -/

/-- Dropping captures leaves the links, and the tributaries of every channel. -/
theorem State.dropCaptures_links (rs : List Nat) (s : State) : (rs.foldl State.dropCapture s).links = s.links :=
  foldl_eq_of State.links rs _ s fun u r => by
    unfold State.dropCapture
    split <;> rfl

theorem State.dropCaptures_tribs (rs : List Nat) (s : State) (c : Nat) :
    ((rs.foldl State.dropCapture s).chan c).tribs = (s.chan c).tribs :=
  congrFun (State.view_foldl (obs := Channel.tribs) (fun u r => by
    unfold State.dropCapture
    split
    · exact State.view_setChan rfl
    · rfl) rs s) c

theorem State.functionReset_link (s : State) (n : Nat) : (s.functionReset n).link n = { s.link n with
    halted := false, downLimit := 10, speedMax := 3, arb := { prev := (s.link n).arb.prev }, msix := [], deferred := [], reads := []
    sweepDue := none } :=
  State.setLink_link_same ..

theorem State.functionReset_link_ne (s : State) {n k : Nat} (h : k ≠ n) : (s.functionReset n).link k = s.link k :=
  (State.setLink_link_ne _ _ h).trans (congrArg (fun ls : Sparse Link => ls.get {} k) (State.dropCaptures_links _ s) :)

theorem State.functionReset_tribs (s : State) (n c : Nat) : ((s.functionReset n).chan c).tribs = (s.chan c).tribs :=
  State.dropCaptures_tribs _ s c

/-- A link that falls keeps its settings and its arbiter. -/
theorem Link.drop_kept (l : Link) (now : Nat) (down : Bool) : (l.drop now down).downLimit = l.downLimit ∧
    (l.drop now down).speedMax = l.speedMax ∧ (l.drop now down).arb = l.arb := by
  unfold Link.drop
  split <;> exact ⟨rfl, rfl, rfl⟩

section Links

variable {s : State} {n : Fin 4} (hon : s.boot.powered = true)
include hon

theorem execPerstAssert_resets (hthere : s.linkPresent n = true) (hperst : (s.link n).perst = false) :
    ∃ t, exec (.perstAssert n) s = .next t ∧ (t.link n).perst = true ∧ (t.link n).trained = false ∧
      (t.link n).downLimit = 10 ∧ (t.link n).speedMax = 3 ∧ (t.link n).arb = { prev := (s.link n).arb.prev } ∧
      (∀ k, k ≠ n.val → t.link k = s.link k) ∧ (∀ c, c < 32 → (t.chan c).tribs = (s.chan c).tribs) := by
  refine ⟨_, occurs_true _ (by simp [hon, hthere, hperst]), ?_⟩
  simp only [State.remark_link, State.remark_chan_tribs, State.onLink_eq, State.setLink_link_same, State.functionReset_link]
  obtain ⟨hlimit, hspeed, harb⟩ := Link.drop_kept { s.link n with
    halted := false, downLimit := 10, speedMax := 3, arb := { prev := (s.link n).arb.prev }, msix := [], deferred := [], reads := []
    sweepDue := none } s.now true
  refine ⟨trivial, trivial, ?_, ?_, ?_, fun k hk => ?_, fun c _ => ?_⟩
  · split
    · exact hlimit
    · rfl
  · split
    · exact hspeed
    · rfl
  · split
    · exact harb
    · rfl
  · rw [State.setLink_link_ne _ _ hk, State.setLink_link_ne _ _ hk, State.functionReset_link_ne _ hk]
  · exact s.functionReset_tribs n c

theorem execPerstDeassert_does (hthere : s.linkPresent n = true) (hperst : (s.link n).perst = true) :
    s.Does (.perstDeassert n) (s.setLink n { s.link n with perst := false }) :=
  occurs_true _ (by simp [hon, hthere, hperst])

/-! ### Training, recovery and return -/

theorem execLinkTrained_does {v : Fin 4} {w : Fin 17} (hthere : s.linkPresent n = true) (hperst : (s.link n).perst = false)
    (hdown : (s.link n).trained = false) (hfree : s.boot.released = true) (htrains : s.trains n v w = true) :
    s.Does (.linkTrained n v w) (s.setLink n { s.link n with
      trained := true, recovery := false, down := false, exceeded := false, speed := v, width := w }) :=
  occurs_true _ (by simp [State.mayTrain, hon, hthere, hperst, hdown, hfree, htrains])

theorem execLinkRecoveryEntry_begins (down : Bool) (htrained : (s.link n).trained = true) (hup : (s.link n).recovery = false) :
    ∃ t, exec (.linkRecoveryEntry ⟨n, down⟩) s = .next t ∧ (t.link n).recovery = true ∧ (t.link n).down = down ∧
      (t.link n).recoveryFrom = s.now ∧ (t.link n).recovCount = min 65535 ((s.link n).recovCount + 1) ∧
      t.reach n = false ∧ t.flights = s.flights ∧ (down = false → (t.link n).arb = (s.link n).arb) ∧
      (down = true → (t.link n).arb = (s.link n).arb.idle) := by
  have hdrop : (s.link n).drop s.now down = { s.link n with
      recovery := true, down := down, recoveryFrom := s.now, exceeded := false
      recovCount := satAt 65535 ((s.link n).recovCount + 1) } := by
    simp [Link.drop, hup]
  have hlimit (k : Nat) : satAt 65535 k = min 65535 k := by
    simp only [satAt, Nat.min_comm]
  refine ⟨_, occurs_true _ (by simp [hon, htrained, hup]), ?_⟩
  simp only [State.reach, State.remark_link, State.remark_flights, State.onLink_eq, State.setLink_link_same, hdrop, hlimit]
  cases down <;> simp

theorem execLinkRecoveryEntry_falls (htrained : (s.link n).trained = true) (hrec : (s.link n).recovery = true)
    (hdown : (s.link n).down = false) :
    ∃ t, exec (.linkRecoveryEntry ⟨n, true⟩) s = .next t ∧ (t.link n).recovery = true ∧ (t.link n).down = true ∧
      (t.link n).recoveryFrom = (s.link n).recoveryFrom ∧ (t.link n).recovCount = (s.link n).recovCount ∧
      (t.link n).arb = (s.link n).arb.idle := by
  have hdrop : (s.link n).drop s.now true = { s.link n with down := true } := by
    simp [Link.drop, hrec]
  refine ⟨_, occurs_true _ (by simp [hon, htrained, hdown]), ?_⟩
  simp only [State.remark_link, State.onLink_eq, State.setLink_link_same, hdrop]
  exact ⟨hrec, rfl, rfl, rfl, rfl⟩

end Links

theorem State.writeDeferred_steadyLink (s : State) (n : Nat) :
    ((s.writeDeferred n).link n).steady = { (s.link n).steady with deferred := [] } := by
  refine (foldl_eq_of (fun u : State => (u.link n).steady) _ _ _ fun u d => u.writeCompletion_steadyLink ..).trans ?_
  rw [State.onLink_eq, State.setLink_link_same]
  rfl

/-- A link that is back has nothing left to write, and is up. -/
theorem State.linkUp_steadyLink (s : State) (n : Nat) : ((s.linkUp n).link n).steady =
    { (s.link n).steady with recovery := false, down := false, exceeded := false, deferred := [] } := by
  unfold State.linkUp State.dropLimited
  extract_lets l u
  have hlink : u.link n = s.link n := rfl
  have hwritten : _ = _ := (u.onLink n fun l => { l with recovery := false, down := false, exceeded := false }).writeDeferred_steadyLink n
  rw [State.onLink_eq, State.setLink_link_same, hlink] at hwritten
  exact (State.finishAll_steadyLink ((congrArg Link.recovery hwritten :)) ..).trans hwritten

theorem State.linkUp_boot (s : State) (n : Nat) : (s.linkUp n).boot = s.boot := by
  unfold State.linkUp State.dropLimited
  rw [State.finishAll_boot]
  exact State.boot_foldl (fun u d => u.writeCompletion_boot ..) _ _

theorem execLinkUp_returns {s : State} {n v : Fin 4} {w : Fin 17} (hon : s.boot.powered = true)
    (htrained : (s.link n).trained = true) (hrec : (s.link n).recovery = true)
    (hreached : (s.link n).down = true → s.trains n v w = true) :
    ∃ t, exec (.linkUp ⟨n, v, w⟩) s = .next t ∧ (t.link n).recovery = false ∧ (t.link n).deferred = [] ∧ t.reach n = true ∧
      ((s.link n).down = true → (t.link n).speed = v ∧ (t.link n).width = w) ∧
      ((s.link n).down = false → (t.link n).speed = (s.link n).speed ∧ (t.link n).width = (s.link n).width) := by
  have hmay : (!(s.link n).down || s.trains n v w) = true := by
    cases h : (s.link n).down
    · rfl
    · exact hreached h
  refine ⟨_, occurs_true _ (by simp [hon, htrained, hrec, hmay]), ?_⟩
  generalize hu : (if (s.link n).down then s.onLink n fun l => { l with speed := v, width := w } else s) = u
  have hlink := u.linkUp_steadyLink n
  have htrained' : (u.link n).trained = true := by
    rw [← hu]
    split <;> simp [htrained]
  have hon' : u.boot.powered = true := by
    rw [← hu]
    split <;> simp [hon]
  have hrecovery : ((u.linkUp n).link n).recovery = false := (congrArg Link.recovery hlink :)
  have hspeed : ((u.linkUp n).link n).speed = (u.link n).speed := (congrArg Link.speed hlink :)
  have hwidth : ((u.linkUp n).link n).width = (u.link n).width := (congrArg Link.width hlink :)
  have htrains : ((u.linkUp n).link n).trained = (u.link n).trained := (congrArg Link.trained hlink :)
  simp only [State.reach, State.remark_link, State.remark_boot, State.linkUp_boot]
  refine ⟨hrecovery, (congrArg Link.deferred hlink :), ?_, fun h => ?_, fun h => ?_⟩
  · rw [hon', hrecovery, htrains, htrained']
    rfl
  · rw [hspeed, hwidth, ← hu, if_pos h, State.onLink_eq, State.setLink_link_same]
    exact ⟨rfl, rfl⟩
  · rw [hspeed, hwidth, ← hu, if_neg (by simp [h])]
    exact ⟨rfl, rfl⟩

/-! ### The limit of a period -/

theorem State.haltRing_settings_ne (s : State) {r q : Nat} (cause : Nat) (h : q ≠ r) :
    ((s.haltRing r cause).ring q).settings = (s.ring q).settings := by
  unfold State.haltRing State.flushPosted
  split
  · simp [h]
  · rfl

theorem State.haltRing_en (s : State) (r cause : Nat) : ((s.haltRing r cause).ring r).en = (s.ring r).en := by
  unfold State.haltRing
  split
  · rw [State.flushPosted_en]
    simp
  · rfl

/-- The halt of one ring by the limit. -/
def State.limitRing (s : State) (r : Nat) : State :=
  if (s.ring r).halted then s else (s.haltRing r 1).onRing r fun x => { x with limitHalt := true }

theorem State.limitRing_settings_ne (s : State) {r q : Nat} (h : q ≠ r) :
    ((s.limitRing r).ring q).settings = (s.ring q).settings := by
  unfold State.limitRing
  split
  · rfl
  · rw [State.onRing_eq, State.setRing_ring_ne _ _ h, State.haltRing_settings_ne _ _ h]

theorem State.limitRing_halts {s : State} {r : Nat} (hen : (s.ring r).en = true) :
    ((s.limitRing r).ring r).en = true ∧ ((s.limitRing r).ring r).halted = true := by
  unfold State.limitRing
  split
  next hhalted => exact ⟨hen, hhalted⟩
  next hrun =>
    rw [State.onRing_eq, State.setRing_ring_same]
    exact ⟨(s.haltRing_en r 1).trans hen, State.haltRing_halted hen (Bool.eq_false_iff.2 hrun) 1⟩

/-- Every enabled ring in turn, or halted already, is halted in the end. -/
theorem State.limitRings_halted (rs : List Nat) {s : State} {q : Nat} (hen : (s.ring q).en = true)
    (h : q ∈ rs ∨ (s.ring q).halted = true) : ((rs.foldl State.limitRing s).ring q).halted = true := by
  induction rs generalizing s with
  | nil => simpa using h
  | cons r rs ih =>
    by_cases hq : q = r
    · subst hq
      obtain ⟨hen', hhalted⟩ := State.limitRing_halts hen
      exact ih hen' (.inr hhalted)
    · have hsettings := s.limitRing_settings_ne hq
      have hen' : ((s.limitRing r).ring q).en = (s.ring q).en := (congrArg Ring.en hsettings :)
      have hhalted : ((s.limitRing r).ring q).halted = (s.ring q).halted := (congrArg Ring.halted hsettings :)
      exact ih (hen' ▸ hen) (h.imp (fun hmem => (List.mem_cons.1 hmem).resolve_left hq) hhalted.trans)

/-- A link that is down goes on counting as past its limit, whatever completes meanwhile. -/
theorem State.finish_exceeded (s : State) (f : Flight) (st n : Nat) :
    ((s.finish f st).link n).exceeded = (s.link n).exceeded := by
  unfold State.finish
  extract_lets rcd u cq
  split
  · rfl
  split
  · rw [State.onLink_eq, State.setLink_link]
    split
    · next h => rw [h]; rfl
    · rfl
  · exact (congrArg Link.exceeded (u.writeCompletion_steadyLink ..) :)

theorem State.haltRing_exceeded (s : State) (r cause n : Nat) : ((s.haltRing r cause).link n).exceeded = (s.link n).exceeded := by
  unfold State.haltRing
  split
  · refine (foldl_eq_of (fun u : State => (u.link n).exceeded) _ _ _ fun u i => ?_).trans rfl
    split
    · exact u.finish_exceeded ..
    · rfl
  · rfl

theorem State.limitRing_exceeded (s : State) (r n : Nat) : ((s.limitRing r).link n).exceeded = (s.link n).exceeded := by
  unfold State.limitRing
  split
  · rfl
  · exact State.haltRing_exceeded ..

/-- The link is marked first, then its rings halt in turn. -/
theorem State.limitHalt_eq (s : State) (n : Nat) : ∃ u : State, u.ring = s.ring ∧ (u.link n).exceeded = true ∧
    s.limitHalt n = (s.ringsWhere fun _ x => x.en && x.owner = n).foldl State.limitRing u := by
  unfold State.limitHalt
  extract_lets rs v w
  have hlink : w.link n = _ := State.setLink_link_same ..
  exact ⟨w, rfl, by rw [hlink], rfl⟩

theorem State.limitHalt_exceeded (s : State) (n : Nat) : ((s.limitHalt n).link n).exceeded = true := by
  obtain ⟨u, -, hexceeded, heq⟩ := s.limitHalt_eq n
  rw [heq]
  exact (foldl_eq_of (fun u : State => (u.link n).exceeded) _ _ u fun u r => u.limitRing_exceeded r n).trans hexceeded

theorem State.limitHalt_halted {s : State} {n r : Nat} (hen : (s.ring r).en = true) (howner : (s.ring r).owner = n)
    (hlisted : (r, s.ring r) ∈ s.rings) : ((s.limitHalt n).ring r).halted = true := by
  obtain ⟨u, hring, -, heq⟩ := s.limitHalt_eq n
  rw [heq]
  refine State.limitRings_halted _ ((congrFun hring r).symm ▸ hen) (.inl ?_)
  exact List.mem_map.2 ⟨_, List.mem_filter.2 ⟨hlisted, by simp [hen, howner]⟩, rfl⟩

theorem execLinkDownLimitExpiry_halts {s : State} {n : Fin 4} (hon : s.boot.powered = true) (hrec : (s.link n).recovery = true)
    (hwithin : (s.link n).exceeded = false) :
    ∃ t, exec (.linkDownLimitExpiry n) s = .next t ∧ (t.link n).exceeded = true ∧
      (s.link n).recoveryFrom + (s.link n).downLimit * 10000000 < t.now ∧
      ∀ r, r < 65536 → (s.ring r).en = true → (s.ring r).owner = n → (r, s.ring r) ∈ s.rings → (t.ring r).halted = true := by
  refine ⟨_, occurs_true _ (by simp [hon, hrec, hwithin]), ?_, ?_, fun r _ hen howner hlisted => ?_⟩
  · rw [State.remark_link, State.limitHalt_exceeded]
  · rw [State.remark_now]
    exact (Nat.lt_of_succ_le (Nat.le_max_right ..)).trans_le
      (State.limitHalt_quiet n (.refl (s.at ((s.link n).recoveryFrom + (s.link n).limitNs + 1)))).now
  · rw [State.remark_ring]
    exact State.limitHalt_halted (s := s.at _) hen howner hlisted

/-- Settles O28: each clause is the rule of its row. -/
theorem startupComplete : Obligations.StartupComplete := by
  unfold Obligations.StartupComplete
  refine ⟨fun s => ⟨fun split l perst => execPowerOn_starts, rfl, execSupplyLossShutdown_clears, execModReset_resets,
    fun hon hboot hmode b hslot => execBootDone_boots hon hboot hmode hslot, execBootFailedRecovery_recovers,
    fun bs => execRecoveryDone_ends, execStaggerRelease_releases, execLighthouseRestart_stops,
    fun b => execLighthouseRestartEnd_runs, execThermalShutdown_darkens, execPoweredHour_counts⟩,
    fun s n hon => ⟨execPerstAssert_resets hon, execPerstDeassert_does hon, fun v w => execLinkTrained_does hon,
      execLinkRecoveryEntry_begins hon, execLinkRecoveryEntry_falls hon, fun v w => execLinkUp_returns hon,
      execLinkDownLimitExpiry_halts hon⟩⟩

end Sys2Proof.Machine
end
